-- ==== Sys2Proof/Word.lean ====
section
/-! DEFINITION. The byte, and the 64-bit register word (R46). -/
namespace Sys2Proof

/-- One byte. Multi-byte values are little-endian lists of these (R7). -/
abbrev Byte := BitVec 8

/-- A register as it is read and written through BAR0 (R46). -/
abbrev Word := BitVec 64

end Sys2Proof
end

