-- ==== Sys2Proof/Syntax.lean ====
section
/-! DEFINITION. The commands: one constructor per row of spec/opcode_table.json, with the operands the rows need. A row
that the environment brings about (a frame arriving, a timer expiring, a lane training) carries what the environment
decides. -/
namespace Sys2Proof.Machine
open Sys2Proof

/-! ### Heneno commands -/

/-- Where a Heneno command came from: an entry of a submission ring (ring, index), a chain descriptor (ring, host address,
fetch number of the chain's first descriptor), an agent's slot, or a chain descriptor in an agent's memory (R409, R417,
R465). -/
inductive Origin
  | ring (sq idx : Nat)
  | chained (sq addr root : Nat)
  | agent (slot : Nat)
  | agentChained (slot addr root : Nat)
  deriving DecidableEq, Repr

/-- A command that the device has accepted: its origin and its 64-byte descriptor (R409). -/
structure Ticket where
  origin : Origin
  desc : List Byte
  deriving DecidableEq, Repr

/-- A Heneno command as it is carried out: the descriptor, the block the device reads from host memory for it (empty when it
reads none), and whether its host reads and host writes succeed. -/
structure HCmd where
  ticket : Ticket
  block : List Byte
  readOk : Bool
  writeOk : Bool
  deriving DecidableEq, Repr

/-! ### Register access -/

/-- Which part of a register an access addresses (R46). -/
inductive Half
  | both | low | high
  deriving DecidableEq, Repr

/-- How a read meets an RC field: which part of the register it addresses (R46), and the value the hardware puts into the field
in the same clock, none where it puts none (R10). -/
structure RcUpdate where
  half : Half
  value : Option Nat
  deriving DecidableEq, Repr

/-! ### Module management -/

/-- How a module answers a MODULE_ACCESS (R96): with the bytes read (none for a write), with no acknowledgement after three
tries, with a stretched clock, or not at all, because the firmware holds it in a CMIS command. -/
inductive I2cAnswer
  | done (bytes : List Byte)
  | refused
  | stretched
  | busy
  deriving DecidableEq, Repr

/-! ### Forwarding -/

/-- The shadow unit's output for an item it shadows: the same as the active unit's, or different (R389). -/
inductive ShadowOut
  | same | differs
  deriving DecidableEq, Repr

/-! ### Queues -/

/-- A VOQ or an egress queue (R225). -/
inductive QRef
  | voq (n : Nat)
  | eq (n : Nat)
  deriving DecidableEq, Repr

/-- How a spilled read ends: with its data, with uncorrectable data, or with its link lost (R242, R243). -/
inductive SpillRead
  | good | dataLost | linkLost
  deriving DecidableEq, Repr

end Sys2Proof.Machine

namespace Sys2Proof
open Sys2Proof.Machine

/-! ### The commands -/

/-- One constructor per row of the opcode table, in its order; each docstring is the row's rule and summary. -/
inductive Instr where
  /-- REGISTER_WRITE (R8): A write to a register field with no behaviour of its own stores it under its access code, the range rule R554 and the code rule R555. -/
  | registerWrite (un off : Nat) (half : Half) (value : Nat)
  /-- RC_FIELD_READ (R8): A read of an RC field such as MIN_MV or MAX_C returns the value and puts the field back to its reset value, keeping any increment made in the same clock. -/
  | rcFieldRead (un off : Nat) (update : RcUpdate)
  /-- GATED_CLASS_ACCESS (R514): An access to the class region of a unit whose clock is gated completes with an error response and is counted in PWR_GATED_ACCESS. -/
  | gatedClassAccess (un : Nat)
  /-- OUT_REQ (R51): A UF_CTRL write of OUT_REQ asks the unit to leave service, as UNIT_OUT does. -/
  | outReq (un reqs : Nat)
  /-- RETURN_REQ (R51): A UF_CTRL write of RETURN_REQ runs the unit's self-test and takes it to SHADOW or back to FAILED. -/
  | returnReq (un reqs : Nat)
  /-- TEST_REQ (R51): A UF_CTRL write of TEST_REQ runs the unit's self-test in an allowed state. -/
  | testReq (un reqs : Nat)
  /-- RESET_REQ (R521): A UF_CTRL write of RESET_REQ resets the unit's working state within 10 µs, in OFF, OUT or FAILED. -/
  | resetReq (un reqs : Nat)
  /-- SELF_TEST_DONE (R51): A running self-test ends, TEST_DONE is raised, and the unit moves to SPARE, ACTIVE, SHADOW or FAILED as its trigger calls for. -/
  | selfTestDone (un : Nat) (pass : Bool)
  /-- CLKEN_WRITE (R514): A write to UF_CLKEN sets the clock enables, except that clearing RUN_EN of a turn holder is refused with request code 4. -/
  | clkenWrite (un value : Nat)
  /-- EVT_MASK_WRITE (R62): A write to UF_EVT_MASK that clears a bit whose PEND bit is set issues one record for the latest occurrence. -/
  | evtMaskWrite (un mask : Nat)
  /-- EVT_PEND_CLEAR (R65): A W1C write to UF_EVT_PEND clears event bits, and NMI_N is released once no non-maskable PEND bit is left. -/
  | evtPendClear (un clear : Nat)
  /-- EVENT_DELIVER (R64): A source delivers a held event record, in sequence order, once its ring has room. -/
  | eventDeliver (src : Nat)
  /-- PMC_CYCLE_CLEAR (R66): A write of CYCLE_CLEAR zeroes UF_PMC_CYCLE. -/
  | pmcCycleClear (un : Nat)
  /-- PMC_CNT_CLEAR (R70): A write of CNT_CLEAR zeroes UF_PMC_CNT0–7 and OVF, discarding any increment in the same cycle. -/
  | pmcCntClear (un : Nat)
  /-- PMC_OVERFLOW (R69): An unchained counter wraps, sets its OVF bit, raises PMC_OVERFLOW and goes on counting from 0. -/
  | pmcOverflow (un n : Nat)
  /-- SNAPSHOT (R73): The SNAPSHOT command copies every frame's counters into its shadows, or completes with RETRY_LATER while a snapshot is in progress. -/
  | snapshot (c : HCmd)
  /-- SNAP_TRIGGER (R73): A write of TRIGGER to HIF_SNAP_CTRL starts a snapshot, or sets REFUSED while one is in progress. -/
  | snapTrigger
  /-- SNAPSHOT_DONE (R75): The snapshot completes within 2 µs of its trigger, and UN 0 raises SNAPSHOT_DONE with its ID. -/
  | snapshotDone
  /-- FRAME_RECEIVED (R19): A whole frame arrives at a port and passes its FCS, size and MAC-control checks, and its header copy enters the distributor store. -/
  | frameReceived (port : Nat) (bytes : List Byte) (fcsOk : Bool) (sfd : Nat)
  /-- TRAINING_CONVERGED (R83): Auto-negotiation, training or adaptation converges on every lane of a port, which moves to ALIGNING. -/
  | trainingConverged (port : Nat)
  /-- TRAIN_TIMEOUT (R83): TRAIN_TIMEOUT_MS, or the 100 ms alignment limit, elapses on a port and starts the next attempt or enters TRAIN_FAILED. -/
  | trainTimeout (port lanes : Nat)
  /-- ALIGNMENT_LOCK (R83): A port gains alignment-marker and FEC lock on all lanes, enters UP_PENDING and starts its debounce timer. -/
  | alignmentLock (port : Nat)
  /-- UP_DEBOUNCE_EXPIRE (R83): Lock has held for UP_DEBOUNCE_MS, and the port goes UP and raises LINK_UP. -/
  | upDebounceExpire (port : Nat)
  /-- LINK_LOSS (R83): A port in UP or UP_PENDING loses signal, lock or FEC, or meets a fault, and returns to TRAINING with LINK_DOWN. -/
  | linkLoss (port cause : Nat) (rxCut txCut : Bool)
  /-- TRAIN_RETRY_EXPIRE (R83): RETRY_MS elapses for a port in TRAIN_FAILED, which starts attempt 1 again. -/
  | trainRetryExpire (port : Nat)
  /-- RETRAIN (R83): A write of RETRAIN restarts training of a port from UP, TRAINING or TRAIN_FAILED. -/
  | retrain (port : Nat)
  /-- PORT_ADMIN_UP (R83): Setting ADMIN_UP lets a released DISABLED port start training, or go to NO_MODULE when no module is ready. -/
  | portAdminUp (port : Nat)
  /-- PORT_ADMIN_DOWN (R83): Clearing ADMIN_UP finishes any frame in transmission and takes the port to DISABLED. -/
  | portAdminDown (port : Nat)
  /-- LANE_MAP_WRITE (R78): A write to PRT_LANE_MAP sets lane swaps and inversions, and a map that is not a permutation holds the octet's ports in DISABLED with cause 11. -/
  | laneMapWrite (port value : Nat)
  /-- MARGIN_LOW (R85): A lane's eye margin falls below 10 % or rises above 20 % of its trained margin, and MARGIN_LOW is set or cleared and raised. -/
  | marginLow (port lanes : Nat) (on : Bool)
  /-- FEC_DEGRADED (R85): The corrected-symbol rate crosses the 802.3 degraded threshold, and FEC_DEGRADED is set or cleared and raised. -/
  | fecDegraded (port : Nat) (on : Bool)
  /-- SGPIO_SCAN (R89): A serial-GPIO chain completes a scan of 260 bits each way and updates the cage inputs and outputs. -/
  | sgpioScan (chain stream : Nat)
  /-- CHAIN_FAILED (R90): After 16 discarded scans in a row, a chain is declared failed, holds its inputs and raises CAGE_IO_LOST for its ports in use. -/
  | chainFailed (chain : Nat)
  /-- MODULE_REMOVED (R91): PRESENT_N reads high in 2 scans in a row, removal is declared, and each port of the cage not in DISABLED goes to NO_MODULE. -/
  | moduleRemoved (slot : Nat) (rxCut txCut : Bool)
  /-- MODULE_INSERTED (R91): PRESENT_N reads low in every scan for 200 ms, and insertion is declared. -/
  | moduleInserted (slot : Nat)
  /-- BUTTON_PRESSED (R91): BUTTON_N reads low in every scan for 20 ms after reading high, and a press is declared and applied to the drain state of every port of the cage. -/
  | buttonPressed (slot : Nat)
  /-- MODULE_INT (R91): An asserted INT_N hands the module to the firmware, which reads and clears its CMIS flags and raises MODULE_INT. -/
  | moduleInt (slot : Nat) (flags : List Byte) (state : Nat)
  /-- MODULE_READY (R92): The firmware brings a module to ModuleReady and sets MODULE_READY, so that its ports leave NO_MODULE for TRAINING. -/
  | moduleReady (slot : Nat)
  /-- MODULE_FAULT (R92): A module misses ModuleReady within 10 s, or enters a CMIS fault state, and raises MODULE_FAULT with its ports in NO_MODULE. -/
  | moduleFault (slot why : Nat)
  /-- PORT_CFG (R94): The PORT_CFG command reconfigures one octet and completes when its NPLL has relocked. -/
  | portCfg (c : HCmd)
  /-- PORT_DRAIN (R95): The PORT_DRAIN command applies START, COMMIT, CANCEL or RELEASE to a port's drain state under R97. -/
  | portDrain (c : HCmd)
  /-- MODULE_ACCESS (R96): The MODULE_ACCESS command reads or writes one run of module memory over I2C. -/
  | moduleAccess (c : HCmd) (answer : I2cAnswer)
  /-- DRAIN_HOST_WAIT_EXPIRE (R97): A port in REQUESTED has seen the device HEADLESS for HOST_WAIT_S and is cancelled or committed by HEADLESS_ACT. -/
  | drainHostWaitExpire (port : Nat)
  /-- DRAIN_QUIET (R97): A draining port's egress queues are empty and QUIET_MS passes without an enqueue, so the port goes DRAINED and DISABLED. -/
  | drainQuiet (port : Nat)
  /-- DRAIN_MAX_EXPIRE (R97): DRAIN_MAX_S passes since COMMIT, and the port is forced to DRAINED with outcome 3. -/
  | drainMaxExpire (port : Nat)
  /-- LED_FRAME (R98): Every FRAME_MS the device shifts the 1,024-bit LED stream out and pulses LED_LATCH. -/
  | ledFrame
  /-- PPS_OUT_EDGE (R102): PPS_OUT rises at each whole second of device time plus OUT_OFFSET. -/
  | ppsOutEdge
  /-- PPS_IN_EDGE (R102): The selected edge of PPS_IN is captured, COUNT is incremented, and a time-of-day message that qualifies under R105 loads device time. -/
  | ppsInEdge (rising : Bool)
  /-- TOD_OUT_MESSAGE (R104): OUT_DELAY_MS after a PPS_OUT edge, TOD_OUT starts a 24-byte time-of-day message. -/
  | todOutMessage
  /-- TOD_IN_MESSAGE (R104): A whole time-of-day message is received on TOD_IN and kept, or discarded and counted in TOD_BAD. -/
  | todInMessage (bytes : List Byte)
  /-- GRAPH_WRITE (R109): A write to PRS_CFG, a node or a transition changes the header graph. -/
  | graphWrite (off value : Nat)
  /-- HEADER_DISPATCH (R191): The distributor numbers a waiting header copy and hands it to the active flume with the fewest packets in its window, once a slot and a flume are free. -/
  | headerDispatch (lat : Nat)
  /-- SIPHON_SLOT_GRANT (R136): The distributor gives a waiting siphon packet a flume slot when the lateral's siphon share allows it. -/
  | siphonSlotGrant (lat : Nat)
  /-- FLUME_PASS (R197): A flume takes a header copy through its eight stages and produces one result record. -/
  | flumePass (un latSeq : Nat) (shadow : ShadowOut)
  /-- CLS_ENTRY_REPAIR (R128): A searched classifier entry fails parity, and the controller rewrites it from its DRAM copy before the search is repeated. -/
  | clsEntryRepair (lat bank index : Nat)
  /-- BANK_SPARED (R129): A bank's array is declared failed, and its entries are copied into the lateral's spare array while dispatch is held. -/
  | bankSpared (lat bank : Nat) (selfTest : Bool)
  /-- PARTITION_FAILED (R130): A bank fails while its lateral's spare is in use, and every partition owning it is marked FAILED and acts by FAIL_MODE. -/
  | partitionFailed (lat bank : Nat) (selfTest : Bool)
  /-- RULE_WRITE (R139): The RULE_WRITE command writes one classifier entry into the active or pending generation slot. -/
  | ruleWrite (c : HCmd)
  /-- RULE_INVALIDATE (R140): The RULE_INVALIDATE command clears the valid bit of a range of classifier entries. -/
  | ruleInvalidate (c : HCmd)
  /-- RULESET_SWAP (R133): The RULESET_SWAP command advances CUR_EPOCH, makes the pending slot active and marks the old slot draining. -/
  | rulesetSwap (c : HCmd)
  /-- SWAP_DONE (R133): No packet stamped before a swap remains in flight, so the draining slot is invalidated, SWAP_DONE is raised and the swap completes. -/
  | swapDone (part : Nat)
  /-- PART_CFG_WRITE (R143): A write to CLS_PART_CFG changes a partition, or is ignored and raises CFG_REFUSED while the partition holds valid entries. -/
  | partCfgWrite (part value : Nat)
  /-- PUNT_QUEUE_CFG_WRITE (R137): A write to PNT_Q_CFG sets a punt queue and refills or clips its policer. -/
  | puntQueueCfgWrite (queue value : Nat)
  /-- FRAG_SWEEP (R119): Every TIMEOUT_MS / 8 a sweep ages out expired fragment entries and counts them in FRAG_AGED. -/
  | fragSweep
  /-- SENTINEL_INJECT (R212): Every 100 µs each distributor injects one sentinel into every flume of its lateral in ACTIVE or SHADOW. -/
  | sentinelInject (lat : Nat) (mismatch : List Nat)
  /-- RESULT_COMMIT (R209): A result record reaches the Q-die enqueue point, where it is committed and acknowledged if its CHECK and turn are right, or refused. -/
  | resultCommit (un latSeq : Nat) (checkOk ackNow : Bool)
  /-- PACKET_RELEASE (R209): A committed record is released in PORT_SEQ order of its input port, and acts by its DISPOSITION, unicast joining its VOQ through admission. -/
  | packetRelease (port : Nat)
  /-- COUNTER_FLUSH (R203): The counter cache flushes a pair's delta into DRAM on eviction, at half range, or when a CNT_ command names the pair. -/
  | counterFlush (pair : Nat) (uncorrectable : Bool)
  /-- CNT_READ_BLOCK (R205): The CNT_READ_BLOCK command writes counter pairs to host memory, each read atomically and optionally cleared. -/
  | cntReadBlock (c : HCmd) (uncorrectable : List Nat) (faultAfter : Option Nat)
  /-- CNT_CLEAR_BLOCK (R206): The CNT_CLEAR_BLOCK command zeroes a range of counter pairs. -/
  | cntClearBlock (c : HCmd) (faultAfter : Option Nat)
  /-- EDITOR_PACKET (R216): An egress editor checks, strips, rewrites, classifies and encapsulates a scheduled packet and hands it to the MAC. -/
  | editorPacket (port : Nat) (checkOk encapReadable : Bool) (shadow : ShadowOut)
  /-- ENCAP_WRITE (R218): The ENCAP_WRITE command writes one encapsulation entry from host memory. -/
  | encapWrite (c : HCmd)
  /-- EGR_RULE_WRITE (R220): The EGR_RULE_WRITE command writes or invalidates one egress classifier entry. -/
  | egrRuleWrite (c : HCmd)
  /-- TBL_INSERT (R178): The TBL_INSERT command places an entry, or the prefix and its expansions, in its table. -/
  | tblInsert (c : HCmd)
  /-- TBL_DELETE (R179): The TBL_DELETE command removes an entry, moving a sump entry back to DRAM when a slot frees. -/
  | tblDelete (c : HCmd)
  /-- TBL_SEARCH (R180): The TBL_SEARCH command returns an entry's result and state, or the longest covering prefix with LONGEST. -/
  | tblSearch (c : HCmd)
  /-- TBL_NEXT (R181): The TBL_NEXT command opens or advances a cursor walk and writes up to MAX_RECORDS records. -/
  | tblNext (c : HCmd)
  /-- CURSOR_EXPIRE (R181): A TBL_NEXT cursor idle for 10 s is closed. -/
  | cursorExpire (cursor : Nat)
  /-- TBL_FLUSH_PORT (R183): The TBL_FLUSH_PORT command deletes the EM_L2 entries that point at one system port. -/
  | tblFlushPort (c : HCmd)
  /-- TBL_BULK_LOAD (R184): The TBL_BULK_LOAD command applies an array of insert or delete records in order. -/
  | tblBulkLoad (c : HCmd)
  /-- TBL_AGE_CFG (R185): The TBL_AGE_CFG command sets the AGE_TIME of one aging table. -/
  | tblAgeCfg (c : HCmd)
  /-- LPM_COMMIT (R186): The LPM_COMMIT command applies or discards the staged route changes of one VRF or of all of them. -/
  | lpmCommit (c : HCmd)
  /-- LEARN_REPORT (R169): The table engine takes a learn report and inserts, updates, merges or drops it by LEARN_MODE. -/
  | learnReport
  /-- ACTIVITY_UPDATE (R173): The table engine writes an activity update that sets ACTIVE and clears PEND_AGE of a hit entry. -/
  | activityUpdate
  /-- AGE_SWEEP (R172): Every AGE_TIME / 2 the table engine sweeps an aging table, marking or deleting idle entries. -/
  | ageSweep (table : Nat) (updatesFirst : Bool)
  /-- RELOCATION_START (R162): The table engine writes the destination copy of a moving entry valid and starts waiting one lookup epoch. -/
  | relocationStart (key : List Nat)
  /-- RELOCATION_FINISH (R162): One lookup epoch after the destination copy was written, the source copy is cleared. -/
  | relocationFinish (key : List Nat)
  /-- BUCKET_LOST (R163): A lookup reads an uncorrectable bucket, its packet is dropped, and the table engine rebuilds the bucket and raises BUCKET_LOST. -/
  | bucketLost (un latSeq bucket table : Nat)
  /-- TABLE_REMAP (R187): An F-side channel is lost without a spare, and the table engine remaps its tables onto the remaining channels. -/
  | tableRemap
  /-- BUFFER_REQUEST (R236): A pool grants one requester's request for 1–64 buffers per Q-core clock, round-robin, within its quotas. -/
  | bufferRequest (req pool n : Nat)
  /-- BUFFER_FREE (R238): A free walks a body's buffers and checks each owner entry before linking the buffer into its free list. -/
  | bufferFree (pool : Nat) (bufs : List Nat) (req : Nat)
  /-- STASH_RETURN (R236): A requester's stash idle for 10 µs is returned to its pool. -/
  | stashReturn (req pool : Nat)
  /-- POOL_CFG_WRITE (R232): A write to BPM_POOL_CFG changes a pool, or is refused and raises POOL_CFG_REFUSED. -/
  | poolCfgWrite (pool value : Nat)
  /-- POOL_READY (R233): The device finishes threading every buffer of an enabled pool and sets READY. -/
  | poolReady (pool : Nat)
  /-- QUOTA_WRITE (R235): A write to BPM_QUOTA sets a pair's quotas, or is ignored and raises QUOTA_REFUSED. -/
  | quotaWrite (value : Nat)
  /-- FREE_LIST_REBUILD (R354): A poisoned free-list link cuts its sub-list, and the buffer pool manager rebuilds it from the owner table. -/
  | freeListRebuild (pool sub : Nat)
  /-- SPILL_UNIT_FLUSH (R241): A partly filled 256-byte spill unit is written 2 µs after it started filling. -/
  | spillUnitFlush (q : QRef)
  /-- SPILL_READ_AHEAD (R242): A spilled packet comes within 16 KiB of its queue's head, and the spillway controller reads it into pool 0 cells. -/
  | spillReadAhead (q : QRef) (outcome : SpillRead)
  /-- SPILL_CUT (R251): A ROTATING or SHORT line of a Q-side stack changes, and the spillway share is recomputed and SPILL_CUT is raised. -/
  | spillCut
  /-- QUEUE_CFG (R254): The QUEUE_CFG command writes VOQ, egress-queue or subscriber-map entries, flushing queues when asked. -/
  | queueCfg (c : HCmd)
  /-- QUEUE_READ (R255): The QUEUE_READ command writes queue state records to host memory. -/
  | queueRead (c : HCmd)
  /-- DEQUEUE_DECISION (R260): A port that can take a frame runs a decision from the port down to one queue and sends one packet. -/
  | dequeueDecision (port : Nat) (shadow : ShadowOut)
  /-- SHAPER_REFILL (R265): At each refill interval of its level, a shaper bucket gains rate × interval up to BURST and applies any pending SHAPER_SET. -/
  | shaperRefill (level : Nat)
  /-- METER_REFILL (R270): Every 1 µs each meter's buckets gain rate × 1 µs up to their bursts and take any pending METER_SET. -/
  | meterRefill
  /-- METER_REPAIRED (R274): A meter whose state fails parity is rebuilt from its DRAM copy, and METER_REPAIRED is raised. -/
  | meterRepaired (m : Nat)
  /-- NODE_CFG (R292): The NODE_CFG command sets priority, weight and optionally the parent of a range of nodes. -/
  | nodeCfg (c : HCmd)
  /-- SHAPER_SET (R293): The SHAPER_SET command sets or reads both buckets of one port, node or queue. -/
  | shaperSet (c : HCmd)
  /-- METER_SET (R294): The METER_SET command sets or reads one meter. -/
  | meterSet (c : HCmd)
  /-- SLUICE_LOAD (R279): The SLUICE_LOAD command loads, replaces or stops a port's sluice list under the port's state machine. -/
  | sluiceLoad (c : HCmd)
  /-- SLUICE_START (R279): Device time reaches a pending list's start or switch time, and the list becomes active and raises SLUICE_SWITCHED. -/
  | sluiceStart (port : Nat)
  /-- SLUICE_STOP (R279): At the active list's next cycle boundary a stopping list is removed and every gate opens. -/
  | sluiceStop (port : Nat)
  /-- SLUICE_ENTRY_CHANGE (R276): An entry's interval or the cycle ends, and the next entry's gates take force. -/
  | sluiceEntryChange (port : Nat)
  /-- PORT_HOLD_SET (R296): The PORT_HOLD_SET command writes a port's HOLD_MS. -/
  | portHoldSet (c : HCmd)
  /-- PORT_HOLD_EXPIRE (R288): A port's hold timer expires, every queue of the port is flushed, and the port goes DOWN. -/
  | portHoldExpire (port : Nat)
  /-- HOLD_AGE_CHECK (R284): Every 1 ms the egress queues of a port in HOLD have their heads checked against their age limits. -/
  | holdAgeCheck (port : Nat)
  /-- SAMPLER_VISIT (R285): The sampler visits the next queue of its sweep and makes a 16-byte record. -/
  | samplerVisit (hostOk : Bool)
  /-- SWEEP_DONE (R287): A sampler sweep ends, the next begins, and SWEEP_DONE is raised when SWEEP_EVT is set. -/
  | sweepDone
  /-- SOJOURN_READ (R297): The SOJOURN_READ command writes maximum-sojourn values to host memory. -/
  | sojournRead (c : HCmd)
  /-- SAMPLE_STREAM (R298): The SAMPLE_STREAM command posts a buffer that takes sampler records of a range from the next sweep. -/
  | sampleStream (c : HCmd)
  /-- SCHEDULER_TAKEOVER (R290): The standby egress scheduler takes the turn from a failed active one and continues from the last committed decision. -/
  | schedulerTakeover (pause : Nat)
  /-- FAB_ADMIN_UP (R302): Setting ADMIN_UP of a fabric link while the fabric is enabled starts training attempt 1. -/
  | fabAdminUp (link : Nat)
  /-- FAB_ADMIN_DOWN (R302): Clearing ADMIN_UP of a fabric link releases it if UP and takes it to DISABLED. -/
  | fabAdminDown (link : Nat)
  /-- FAB_TRAINING_CONVERGED (R302): KR training converges on a fabric link, which moves to ALIGNING. -/
  | fabTrainingConverged (link : Nat)
  /-- FAB_ALIGNMENT_LOCK (R302): A fabric link gains alignment-marker and FEC lock and moves to INIT. -/
  | fabAlignmentLock (link : Nat)
  /-- LINK_INIT_TX (R302): Every 10 µs a fabric link in INIT sends LINK_INIT. -/
  | linkInitTx (link : Nat)
  /-- LINK_INIT_RX (R302): A LINK_INIT cell arrives, from an element to proceed or from a device to fail training with cause 6. -/
  | linkInitRx (link : Nat) (bytes : List Byte) (fecOk : Bool)
  /-- REACH_RX (R314): A REACH cell arrives, updates the link's reach vector, and brings a link in INIT to UP. -/
  | reachRx (link : Nat) (bytes : List Byte) (fecOk : Bool)
  /-- REACH_TIMEOUT (R314): A link's REACH_TIMEOUT_US passes without REACH, so it reaches no device and raises REACH_LOST. -/
  | reachTimeout (link : Nat)
  /-- FAB_TRAIN_TIMEOUT (R302): A fabric link's training, alignment or init limit elapses, and it starts the next attempt or enters TRAIN_FAILED. -/
  | fabTrainTimeout (link : Nat)
  /-- FAB_RETRY_EXPIRE (R302): RETRY_MS elapses for a fabric link in TRAIN_FAILED, which starts attempt 1 again. -/
  | fabRetryExpire (link : Nat)
  /-- FAB_LINK_FAULT (R302): A fabric link in UP loses signal or alignment or exhausts retry, is released, and returns to TRAINING or is retired. -/
  | fabLinkFault (link cause : Nat)
  /-- FAB_HEADLESS_RETIRE (R393): While HEADLESS with FAB_RETIRE set, a link in TRAIN_FAILED for 10 minutes is retired. -/
  | fabHeadlessRetire (link : Nat)
  /-- CELL_RECEIVED (R309): A cell arrives on a fabric link and is accepted in LSEQ order or discarded, and its acknowledgement is noted. -/
  | cellReceived (link : Nat) (bytes : List Byte) (fecOk : Bool)
  /-- NAK_RX (R310): A NAK arrives, and the transmitter resends every held cell from ACK_SEQ in order. -/
  | nakRx (link : Nat) (bytes : List Byte) (fecOk : Bool)
  /-- LINK_ACK_TX (R309): A receiver that has sent nothing within 100 ns of a delivery sends a LINK_ACK. -/
  | linkAckTx (link : Nat)
  /-- RETRY_TIMEOUT (R311): The oldest held cell waits RETRY_TIMEOUT_NS, so every held cell is sent again, or the link dies at RETRY_MAX. -/
  | retryTimeout (link : Nat)
  /-- VOQ_SEND (R319): A VOQ with credit sends its head packet as cells sprayed over the destination's reach set, or by local loop. -/
  | voqSend (voq : Nat)
  /-- MC_SEND (R330): A multicast packet leaves its VOQ under its fabric class shaper and is sprayed over its group's spray set. -/
  | mcSend (cls : Nat)
  /-- CREDIT_REQ_TX (R320): Entries of VOQs that start or stop wanting credit, or have moved by a credit, are packed into a CREDIT_REQ and sent. -/
  | creditReqTx (dev : Nat)
  /-- CREDIT_REFRESH (R320): Every REFRESH_US, a VOQ that wants credit sends its entry again. -/
  | creditRefresh (voq : Nat)
  /-- CREDIT_REQ_RX (R321): A CREDIT_REQ reaches the credit scheduler, which records each entry's depth. -/
  | creditReqRx (link : Nat) (bytes : List Byte) (fecOk : Bool)
  /-- CREDIT_GRANT_TX (R321): The credit scheduler issues credits for a port at RATE_PCT of its rate and packs them into CREDIT_GRANT cells. -/
  | creditGrantTx (port : Nat)
  /-- CREDIT_GRANT_RX (R319): A CREDIT_GRANT reaches the source, passes the control-stream check, and adds credit to its VOQs. -/
  | creditGrantRx (link : Nat) (bytes : List Byte) (fecOk : Bool)
  /-- PORT_STATE_TX (R323): A device sends a PORT_STATE cell when any port's hold state changes and every 100 µs. -/
  | portStateTx
  /-- PORT_STATE_RX (R323): A PORT_STATE cell arrives, replaces the held states of its device, and starts or stops its VOQs. -/
  | portStateRx (link : Nat) (bytes : List Byte) (fecOk : Bool)
  /-- CREDIT_TAKEOVER (R382): The standby member of the credit scheduler takes the turn and issues uncommitted grants again. -/
  | creditTakeover
  /-- RESEQ_TIMEOUT (R326): A context's oldest held cell waits TIMEOUT_US, or it holds CTX_MAX cells, or pool 0 refuses it, and its gap is declared lost. -/
  | reseqTimeout (src cls : Nat)
  /-- MC_HOLD_EXPIRE (R329): MC_HOLD_NS passes after a held packet's last or first cell, and it is released or discarded. -/
  | mcHoldExpire (src cls : Nat)
  /-- REASSEMBLY (R327): Released cells complete a packet, which is offered to its egress queue or to the turnout, or discarded after a gap. -/
  | reassembly (src cls : Nat) (multicast : Bool)
  /-- TURNOUT_REPLICATE (R333): The turnout reads an egress group, sets the body's reference count and releases one copy per member. -/
  | turnoutReplicate (readError : Bool)
  /-- FAB_MC_GROUP_SET (R334): The FAB_MC_GROUP_SET command writes or reads one fabric group record. -/
  | fabMcGroupSet (c : HCmd)
  /-- FAB_REACH_QUERY (R336): The FAB_REACH_QUERY command writes one reach record per device. -/
  | fabReachQuery (c : HCmd)
  /-- FAB_EGR_GROUP_SET (R335): The FAB_EGR_GROUP_SET command writes or reads one egress group and its member slots. -/
  | fabEgrGroupSet (c : HCmd)
  /-- DRAM_REFRESH (R349): Per-bank refresh issues once every refresh interval, or is forced ahead of every request after 8 postponements. -/
  | dramRefresh (un : Nat) (forced : Bool)
  /-- ODECC_REPORT (R352): Every 1 ms each DRAM die reports its on-die ECC corrections over the sideband. -/
  | odeccReport (stack : Nat) (onDie secDed : List Nat)
  /-- ECC_UNCORR (R352): A read returns a double-bit error, the data is poisoned, DRC_UE_LOG records it, and ECC_UNCORR is raised. -/
  | eccUncorr (qSide : Bool) (addr port source : Nat)
  /-- SCRUB_PASS (R353): A scrub pass reads every word of a stack on the CALIB port once per SCRUB_HOURS and writes back single-bit errors. -/
  | scrubPass (stack : Nat)
  /-- ROTATION_START (R355): A periodic, temperature, error, deep-sleep-exit or return trigger starts a stack's rotation when no other stack of its side rotates. -/
  | rotationStart (stack trigger chan : Nat)
  /-- ROTATION_COPY_DONE (R357): The copy of a vacated channel into the parked one ends, held requests drain, and the logical channel switches to the copy target. -/
  | rotationCopyDone (stack : Nat) (shadow : ShadowOut)
  /-- CHANNEL_TRAINED (R357): Training of a vacated channel ends; it is parked, or derated or failed, and the next step or the rotation's end follows. -/
  | channelTrained (un : Nat) (rate : Option Nat) (margin : Nat)
  /-- ROTATION_RESUME (R361): 100 ms after a rail recovers, an aborted rotation restarts from step 1. -/
  | rotationResume (stack : Nat)
  /-- CHANNEL_FAILED (R364): An in-service channel loses PHY lock or reaches UE_FAIL_TH, and is replaced by the parked channel or its logical channel goes DEAD. -/
  | channelFailed (un cause : Nat)
  /-- DRAM_DEEP_SLEEP_ENTER (R351): On command, a controller waits for its port queues to empty and enters self-refresh. -/
  | dramDeepSleepEnter (stack : Nat)
  /-- DRAM_DEEP_SLEEP_EXIT (R351): A controller leaves self-refresh, serves requests at its trained settings and starts a rotation. -/
  | dramDeepSleepExit (stack : Nat)
  /-- TURN_GRANT (R371): A rider grants a turn for a stream with a new TURN_SEQ and expiry. -/
  | turnGrant (un : Nat)
  /-- TURN_RENEWAL (R371): A unit's renewal request reaches its rider, which renews the turn and counts a late renewal. -/
  | turnRenewal (un : Nat)
  /-- TURN_LAPSED (R372): A turn goes T without renewal and lapses, and the unit raises TURN_LAPSED. -/
  | turnLapsed (un : Nat)
  /-- SUSPECT (R377): A soft input against a watched unit opens its decision window and raises SUSPECT. -/
  | suspect (un input : Nat)
  /-- DECIDE_WINDOW_EXPIRE (R377): A suspect unit's decision window ends without a second input, and it returns to WATCHED. -/
  | decideWindowExpire (un : Nat)
  /-- FAULT_DECLARE (R378): A hard indicator or a second soft input declares a unit failed, fences it, stops its renewals and wakes its spare. -/
  | faultDeclare (un hard : Nat)
  /-- REPLAY_TURN_GRANT (R378): The failed unit's turn has expired and the guard has passed, so the taker is granted a replay turn for its unfinished work. -/
  | replayTurnGrant (un : Nat) (unreadable : List Nat)
  /-- TAKEOVER_DONE (R378): The last replayed item commits, and the rider writes the fault record and raises FAULT_DECLARED and TAKEOVER_DONE. -/
  | takeoverDone (un : Nat)
  /-- EDITOR_TAKEOVER (R382): A spare editor takes a failed editor's port group and replays its unaccepted packets in order. -/
  | editorTakeover (un : Nat)
  /-- RIDER_COPY (R370): A rider copy disagrees with the vote and is resynchronised or left out, or the rider fails. -/
  | riderCopy (rider copy : Nat)
  /-- SPARE_TEST (R377): Every 10 minutes the firmware tests spares with UNIT_TEST and takes a failing spare OUT. -/
  | spareTest (un : Nat) (pass : Bool)
  /-- SHADOW_COMPLETE (R390): A shadowing unit reaches 65,536 items without mismatch and takes its stream back at the next sequence boundary. -/
  | shadowComplete (un : Nat)
  /-- UNIT_OUT (R386): The UNIT_OUT command takes a unit out of service, handing its work to a spare at a sequence boundary. -/
  | unitOut (c : HCmd)
  /-- UNIT_RETURN (R387): The UNIT_RETURN command runs a unit's self-test and returns it through SHADOW. -/
  | unitReturn (c : HCmd)
  /-- UNIT_TEST (R388): The UNIT_TEST command runs a unit's self-test without changing its state. -/
  | unitTest (c : HCmd)
  /-- HEADLESS_TIMEOUT (R392): TIMEOUT_S passes with no HOST_ALIVE or heartbeat, and the device goes HEADLESS. -/
  | headlessTimeout
  /-- HEARTBEAT (R392): A write of BEAT to HDL_HEARTBEAT keeps the device ATTENDED and restarts its timer. -/
  | heartbeat
  /-- HOST_ALIVE (R395): The HOST_ALIVE command returns the device to ATTENDED and restarts the timer. -/
  | hostAlive (c : HCmd)
  /-- AUTO_RETURN (R393): While HEADLESS with AUTO_RETURN set, a FAILED unit below 3 faults is returned RETURN_DELAY_S after its declaration. -/
  | autoReturn (un : Nat)
  /-- HOST_LINK_RESET (R402): PERST_N, FLR, Hot Reset or link loss resets the host interface alone, disabling every ring and raising HIF_EPOCH. -/
  | hostLinkReset (cause : Nat)
  /-- PCIE_LINK (R402): The PCIe link trains or returns, and PCIE_LINK is raised. -/
  | pcieLink (rate width flit cause : Nat)
  /-- RING_ENABLE (R404): A write of ENABLE to HIF_RING_CTRL enables the selected ring, or sets REFUSED. -/
  | ringEnable
  /-- RING_DISABLE (R404): A write of DISABLE stops the selected ring, going through DISABLING for an SQ with commands in flight. -/
  | ringDisable
  /-- RING_ERR_CLEAR (R404): A write of ERR_CLEAR takes a ring in ERROR through DISABLE. -/
  | ringErrClear
  /-- RING_DRAINED (R404): The last command in flight of a DISABLING SQ completes, and the ring goes DISABLED. -/
  | ringDrained (sq : Nat)
  /-- RING_ERROR (R404): A host read or write of a ring's memory fails, and the ring goes to ERROR and raises RING_ERROR. -/
  | ringError (kind n : Nat)
  /-- SQ_DOORBELL (R407): A write to an SQ doorbell sets the ring's TAIL, or is ignored and counted as DOORBELL_BAD. -/
  | sqDoorbell (sq value : Nat)
  /-- CQ_DOORBELL (R407): A write to a CQ doorbell sets its HEAD and, with ARM, re-arms its interrupt. -/
  | cqDoorbell (cq value : Nat)
  /-- EQ_DOORBELL (R407): A write to an EQ doorbell sets its HEAD and, with ARM, re-arms its interrupt. -/
  | eqDoorbell (eq value : Nat)
  /-- SQ_FETCH (R411): The device fetches a submission descriptor from a ready SQ in weighted round-robin and reserves a CQ slot for it. -/
  | sqFetch (desc : List Byte) (readOk : Bool)
  /-- CHAIN_NEXT_READ (R417): After a chain descriptor takes effect, the device reads the next descriptor from NEXT, or makes the closing read. -/
  | chainNextRead (i : Nat) (desc : List Byte) (closing : Nat) (readOk closeOk : Bool)
  /-- COAL_TIMER (R416): COAL_US passes since the oldest unsignalled entry of an armed ring, and its vector is raised. -/
  | coalTimer (kind n : Nat)
  /-- NOP (R428): The NOP command completes with the device time at which it was carried out. -/
  | nop (c : HCmd)
  /-- FENCE (R429): The FENCE command completes when every earlier command of its scope has completed. -/
  | fence (c : HCmd)
  /-- SUMMARY (R430): The SUMMARY command gathers and writes the summary block. -/
  | summary (c : HCmd)
  /-- RESYNC_TRIGGER (R433): A write of TRIGGER to HIF_RESYNC starts writing the summary block without any ring. -/
  | resyncTrigger
  /-- RESYNC_ABANDON (R433): ABANDON written with TRIGGER first disables every ring and waits for commands in flight to end. -/
  | resyncAbandon
  /-- RESYNC_DONE (R433): The resync block is written to host memory, DONE or ERROR sets, and RESYNC_DONE is raised. -/
  | resyncDone (writeOk : Bool)
  /-- PUNT_DELIVER (R422): A punted packet fills the next posted buffer of its RXQ, or waits up to HOLD packets, or is dropped. -/
  | puntDeliver (writeOk : Bool)
  /-- PKT_TX (R425): The PKT_TX command sends a packet from host memory to a VOQ or injects it at an input port. -/
  | pktTx (c : HCmd)
  /-- RX_BUF_POST (R424): The RX_BUF_POST command posts a receive buffer to an RXQ. -/
  | rxBufPost (c : HCmd)
  /-- TASK_RESTART (R439): A firmware task reads poisoned data or loses its core and restarts, raising TASK_RESTART. -/
  | taskRestart (task why : Nat) (commands : List Ticket)
  /-- BFD_TX (R442): The liveness engine sends a session's periodic packet with jitter. -/
  | bfdTx (session : Nat)
  /-- BFD_RX (R443): A BFD packet reaches the engine, is matched to a session and restarts its detection timer, or is counted bad or unmatched. -/
  | bfdRx
  /-- BFD_DETECT_EXPIRE (R442): A session's detection timer expires, and the engine takes it Down with diagnostic 1. -/
  | bfdDetectExpire (session : Nat)
  /-- BFD_SESSION_SET (R445): The BFD_SESSION_SET command writes, removes or reads one session. -/
  | bfdSessionSet (c : HCmd)
  /-- BFD_WITHDRAW (R446): While HEADLESS, a session going Down or Up withdraws or restores its next hop in ECMP member slots. -/
  | bfdWithdraw (session : Nat)
  /-- LEARN_EXPORT_DELIVER (R448): A learn-export buffer is delivered to LEARN_RXQ when full or 1 ms after its first record. -/
  | learnExportDeliver (reason : Nat) (writeOk : Bool)
  /-- TELEM_WINDOW (R449): A telemetry window of TELEM_SWEEPS sweeps ends, the histograms freeze, and TELEM_WINDOW is raised. -/
  | telemWindow
  /-- TELEM_READ (R450): The TELEM_READ command writes percentile records of the last frozen window. -/
  | telemRead (c : HCmd)
  /-- PTP_CFG_WRITE (R452): A write to SVC_PTP_CFG enables, disables or reconfigures the PTP service and changes STATE as EN and SOURCE require. -/
  | ptpCfgWrite (value : Nat)
  /-- PTP_MESSAGE_RX (R451): A punted PTP message reaches the service and runs the protocol and best master clock algorithm. -/
  | ptpMessageRx (selected : Option Nat)
  /-- PTP_SERVO_UPDATE (R452): The servo measures an offset and corrects device time's rate, or steps it, changing STATE as its counts require. -/
  | ptpServoUpdate (offset : Int)
  /-- PTP_SOURCE_LOST (R453): Announce receipt times out, the port's link leaves UP, or PPS_IN stops for 3 s, and the servo enters HOLDOVER. -/
  | ptpSourceLost (announce : Bool)
  /-- AGENT_LOAD (R461): The AGENT_LOAD command checks an agent image, instantiates it in a slot and calls agent_start. -/
  | agentLoad (c : HCmd)
  /-- AGENT_STOP (R462): The AGENT_STOP command stops an agent slot and frees it. -/
  | agentStop (c : HCmd)
  /-- AGENT_STOPPED (R463): A STOPPING slot's call has ended and every command has completed, so the slot is freed and goes EMPTY. -/
  | agentStopped (slot : Nat)
  /-- AGENT_KEY_SET (R458): The AGENT_KEY_SET command enrols or clears a public key in one of 8 slots. -/
  | agentKeySet (c : HCmd)
  /-- AGENT_RUN (R455): An agent's inbox holds a message, and agent_run is called on one core. -/
  | agentRun (slot : Nat) (ret : Option Int)
  /-- AGENT_TRAP (R464): An agent traps or its core fails, its commands are settled, and the slot goes RESTARTING or FAILED. -/
  | agentTrap (slot code func : Nat)
  /-- AGENT_RESTART (R463): The backoff after a trap elapses, and a fresh instance is started with a restart message. -/
  | agentRestart (slot : Nat)
  /-- AGENT_TIMER (R465): An agent timer falls due and a timer message is queued in its inbox. -/
  | agentTimer (slot id : Nat)
  /-- HAI_CMD_SUBMIT (R465): An agent submits a Heneno command descriptor. -/
  | haiCmdSubmit (slot ptr memLen : Nat) (desc : List Byte)
  /-- HAI_RECV (R465): An agent takes the next message from its inbox. -/
  | haiRecv (slot buf len memLen : Nat)
  /-- HAI_TIMER_SET (R465): An agent sets one of its timers. -/
  | haiTimerSet (slot id due period : Nat)
  /-- HAI_TIMER_CANCEL (R465): An agent cancels one of its timers. -/
  | haiTimerCancel (slot id : Nat)
  /-- HAI_TIME_NOW (R465): An agent reads device time. -/
  | haiTimeNow (slot out memLen : Nat)
  /-- HAI_REG_READ (R465): An agent reads a register, given CNT_READ. -/
  | haiRegRead (slot un offset out memLen : Nat)
  /-- HAI_EVENT_RAISE (R465): An agent raises one of its event types on its own source. -/
  | haiEventRaise (slot type ptr memLen : Nat) (payload : List Byte)
  /-- HAI_EVENT_SUBSCRIBE (R465): An agent subscribes to, or unsubscribes from, an event source. -/
  | haiEventSubscribe (slot source : Nat) (on : Bool)
  /-- HAI_LOG (R465): An agent sends a log line to its LOG_RXQ. -/
  | haiLog (slot level ptr len memLen : Nat) (line : List Byte) (writeOk : Bool)
  /-- BOOT_ROM (R471): After cold or warm reset the boot ROM reads fuses and the boot record, checks and loads an image, or enters recovery mode. -/
  | bootRom
  /-- FW_READY (R434): The firmware starts and sets FW_READY, so fetching begins and the headless timer starts. -/
  | fwReady (badStacks : List Nat)
  /-- FWD_READY (R434): The stacks are trained and FWD_READY sets, so forwarding-dependent commands may act. -/
  | fwdReady
  /-- FW_STAGE (R481): The FW_STAGE command checks an image and writes it into the slot not running. -/
  | fwStage (c : HCmd)
  /-- FW_ACTIVATE (R482): The FW_ACTIVATE command schedules a switch to the staged image at ACT_TIME, or cancels a pending one. -/
  | fwActivate (c : HCmd)
  /-- ACTIVATION_SWITCH (R483): Device time reaches ACT_TIME, and the cluster pauses commands, hands state over and restarts on the new image. -/
  | activationSwitch
  /-- FW_REVERTED (R484): The new firmware has not set FW_READY within 2 s, or traps, and the cluster restarts on the previous image. -/
  | fwReverted (trapped : Bool)
  /-- FW_COMMIT (R485): The FW_COMMIT command commits a trial image and burns the security counter, or reverts it. -/
  | fwCommit (c : HCmd)
  /-- FUSE_BURNT (R478): A security-counter fuse burn finishes once the counter equals COMMITTED_SV, and FUSE_BURNT is raised. -/
  | fuseBurnt
  /-- ATTEST (R495): The ATTEST command writes a signed attestation report and, optionally, the certificates. -/
  | attest (c : HCmd)
  /-- REC_HDR_CHECK (R488): A write of HDR_CHECK checks the image header in BAR4 under R474 and reports the outcome. -/
  | recHdrCheck (header : List Byte)
  /-- REC_GO (R488): A write of GO writes the BAR4 image to its target slot or runs it from memory. -/
  | recGo (bar4 : List Byte)
  /-- REC_TRANSFER_DONE (R488): A recovery transfer ends, BUSY clears and DONE sets with STATUS. -/
  | recTransferDone (writeOk : Bool)
  /-- HGP_DISCOVER (R489): A headgate DISCOVER arrives and the device answers with OFFER. -/
  | hgpDiscover (frame : List Byte)
  /-- HGP_START (R491): A headgate START opens a session and is answered with ACK, or with ABORT. -/
  | hgpStart (frame : List Byte)
  /-- HGP_DATA (R491): A headgate DATA chunk is stored and acknowledged, with the header checked at chunk 1. -/
  | hgpData (frame : List Byte)
  /-- HGP_ACK_TIMER (R491): 2 ms after the last DATA the device sends ACK. -/
  | hgpAckTimer
  /-- HGP_END (R492): A headgate END starts verification when every chunk is present, or is answered with ACK or RESULT. -/
  | hgpEnd (frame : List Byte)
  /-- HGP_VERIFIED (R492): Verification of a received image ends, and the device writes the slot, runs the image, or reports failure. -/
  | hgpVerified
  /-- HGP_WRITTEN (R492): The slot write and read-back of a received image end, the boot record is written, and the session reaches DONE. -/
  | hgpWritten (writeOk : Bool)
  /-- HGP_ABORT (R492): A headgate ABORT from the peer discards the image and ends the session. -/
  | hgpAbort (frame : List Byte)
  /-- HGP_BOOT (R492): A headgate BOOT in DONE is answered with RESULT and causes a warm reset, or is refused in service. -/
  | hgpBoot (frame : List Byte)
  /-- HGP_SESSION_TIMEOUT (R492): A session with 10 s of silence from its peer ends with ABORT and TIMEOUT, or returns from DONE to IDLE. -/
  | hgpSessionTimeout
  /-- XTAL_STABLE (R502): A reference input is judged stable after detection, 16,384 cycles and XTAL_EXTRA. -/
  | xtalStable (ref input : Nat) (counts : List (Nat × Nat))
  /-- XTAL_START_TIMEOUT (R503): An input not stable within 100 ms plus XTAL_EXTRA of PWRGD is declared failed. -/
  | xtalStartTimeout (ref input : Nat)
  /-- MONITOR_WINDOW (R504): Each 10 µs monitor window ends and the reference block decides which clock source, if any, has failed or is good again. -/
  | monitorWindow (ref : Nat) (counts : List (Nat × Nat))
  /-- SERDES_PLL_STOP (R507): SerDes PLLs that have held over for 100 µs without a reference stop, and their links go down. -/
  | serdesPllStop (un : Nat)
  /-- FORCED_SWITCH (R508): No edge of the old clock comes within 8 new-clock cycles, so the multiplexer deselects it by force and raises FORCED_SWITCH. -/
  | forcedSwitch (un : Nat)
  /-- PLL_RELOCK (R506): A PLL relocks on its new reference and clears HOLDOVER. -/
  | pllRelock (un : Nat)
  /-- REF_RETURN (R505): A write of REF_RETURN moves every PLL of the die back to REFA while REFA is good. -/
  | refReturn (ref : Nat)
  /-- AVS_STEP (R517): The firmware moves VDD_F or VDD_Q by at most 5 mV over AVSBus toward its adaptive target. -/
  | avsStep (un mv : Nat)
  /-- REGULATOR_FAULT (R517): A regulator does not answer or settle within 2 ms, and REGULATOR_FAULT is raised. -/
  | regulatorFault (un why : Nat)
  /-- SUPPLY_DIP (R519): A rail falls below its warning level and recovers before reset, and the monitor raises SUPPLY_WARN at its end. -/
  | supplyDip (un lowest duration cycles mv : Nat)
  /-- SUPPLY_OVERVOLTAGE (R519): A rail rises above its overvoltage level, and SUPPLY_WARN is raised with direction 1. -/
  | supplyOvervoltage (un highest duration mv : Nat)
  /-- SUPPLY_RESET_LEVEL (R520): A rail stays below its reset level longer than RST_FILTER_NS and causes a warm reset, or a cold one for VDD_AON. -/
  | supplyResetLevel (un : Nat)
  /-- POWER_GOOD (R524): PWRGD rises, the straps are sampled, and bring-up starts. -/
  | powerGood (straps : Nat)
  /-- COLD_RESET (R521): PWRGD falls or VDD_AON reaches its reset level, and everything is cleared. -/
  | coldReset (aonLost : Bool)
  /-- WARM_RESET (R521): SYS_RST_N low, a rail reset, die failure, headgate BOOT or thermal trip resets everything outside the always-on domain. -/
  | warmReset (cause : Nat)
  /-- SOFT_RESET (R521): A write of SOFT_RESET with KEY 0xA5 resets the device as warm reset, keeping the PCIe link. -/
  | softReset (key : Nat)
  /-- STANDBY_ENTER (R527): Setting STANDBY puts most units and every stack into deep-sleep, or is refused while a port or the fabric is in use. -/
  | standbyEnter
  /-- STANDBY_LEAVE (R527): Clearing STANDBY reverses standby within 50 ms. -/
  | standbyLeave
  /-- GATE_CLOSE (R515): A clock gate asks its unit to go quiet and closes on acknowledgement, or by force after 1,024 cycles. -/
  | gateClose (un : Nat) (acknowledged : Bool)
  /-- TEMP_READ (R528): Every 100 µs each thermal sensor reads, raising TEMP_WARN and changing the refresh rate as thresholds are crossed. -/
  | tempRead (un : Nat) (celsius : Int)
  /-- THROTTLE (R529): Each 1 ms above 105 °C adds, and each 10 ms at or below 102 °C removes, one throttle step of the die's core clocks. -/
  | throttle (die : Nat)
  /-- THERM_TRIP (R530): A sensor at 115 °C or above asserts THERM_TRIP_N, stops the PLLs and holds the device in warm reset. -/
  | thermTrip
  /-- PMB_POLL (R549): Every POLL_MS the firmware reads voltage, current and status from each enabled PMBus device. -/
  | pmbPoll (readings : List (Nat × Option (Nat × Nat × Nat)))
  /-- PMB_ALERT (R549): PMB_ALERT_N goes low, and the firmware reads STATUS_WORD of every enabled device within 1 ms. -/
  | pmbAlert (readings : List (Nat × Option Nat))
  /-- BRIDGE_WIRE_REPAIR (R18): A bridge wire fails during operation and the die-to-die link repairs it from the spare wires, or retires the bridge and runs on three at 27 Tb/s. -/
  | bridgeWireRepair (bridge : Nat) (spare : Bool)
  /-- MGT_LINK_CHANGE (R497): The management Ethernet port's link comes up or goes down, updating MGT_STATUS and raising MGT_LINK. -/
  | mgtLinkChange (up : Bool)
  /-- MGT_FRAME_RECEIVED (R489): A frame arrives on the management port and the device answers ARP, neighbour discovery or ICMP echo, or counts it in MGT_RX_FRAMES. -/
  | mgtFrameReceived (frame : List Byte)
  /-- UNIT_OUT_TIMEOUT (R386): 100 ms after a UNIT_OUT, a unit that has not reached OUT makes the command complete with TIMEOUT, while the unit goes on draining. -/
  | unitOutTimeout (un : Nat)
  /-- REQUEST_OVERDUE (R345): A DRAM request's age passes its port's target, so it is counted in DRC_OVERDUE and PORT_OVERDUE is raised at most once per second per port. -/
  | requestOverdue (un port : Nat)
  /-- ROT_HOLD_SET (R361): A write that sets ROT_HOLD in DRC_STACK_CFG aborts the rotation step in progress and stops further rotations. -/
  | rotHoldSet (stack : Nat)
  /-- REGULATOR_SETTLED (R517): A regulator reports that an AVS voltage step has settled, and the supply monitor's levels move to the new target. -/
  | regulatorSettled (un : Nat)
  /-- BURN_AND_WRITE_RESUME (R519): 100 ms after a supply dip ends, the fuse burns and flash writes that waited during the dip resume. -/
  | burnAndWriteResume
  /-- PLL_LOCK_LOSS (R531): A PLL loses or regains lock by itself, updates LOCKED in CLK_PLL_STATUS and raises the non-maskable PLL_LOCK_LOST. -/
  | pllLockLoss (un : Nat) (lost : Bool)
  /-- PTP_MESSAGE_TX (R451): The PTP service's message timers expire, and it sends Sync, Announce, delay or negotiation messages, one-step or two-step, on its enabled ports. -/
  | ptpMessageTx (port cls offset tsId : Nat) (event : Bool) (bytes : List Byte)
  deriving DecidableEq, Repr

end Sys2Proof
end

