-- ==== Sys2Proof/Decode.lean ====
section
/-! DEFINITION. The device is a block: it has no instruction words, and the opcode table gives no row any bits. -/
namespace Sys2Proof

/-- The command that a word spells by the table's bits. No row of spec/opcode_table.json has bits, so no word spells one. -/
def decodeTableWord (_nbits _w : Nat) : Option Instr := none

end Sys2Proof
end

