-- ==== Sys2Proof/Config.lean ====
section
/-! DEFINITION. What the manual leaves open: free values with no body, so that no proof can see them, and the standard
cryptographic functions the manual names without defining them. -/
namespace Sys2Proof.Config

/-- Free value: how long after the first frame the frames of a die, or of a stack, begin to take their snapshot copies, ns, by draw and
by the die; R74 bounds it by 40. -/
opaque snapSkew : Nat → Nat → Nat

/-- Free value: how long after the first frame of its die a frame takes its copy, ns, by draw and unit; R74 bounds it by 2 core-clock
cycles. -/
opaque frameSkew : Nat → Nat → Nat

/-- Free value: which of a pool's free buffers a grant takes, by draw (R233 leaves the order of its lists open). -/
opaque freeBuffer : Nat → Nat

/-- Free value: what the host has written into the 28 MiB buffer of BAR4, by draw and offset (R488). -/
opaque bar4Byte : Nat → Nat → Byte

/-- Free value: how many pointers the prefetch cache of a sub-list has been refilled with when a grant is made, by draw (R233). -/
opaque cacheRefill : Nat → Nat

/-- Free value: the 16-bit pseudo-random number of a WRED draw, by draw (R248). -/
opaque wredDraw : Nat → BitVec 16

/-- Free value: the capture delay of PPS_IN, ns (R104 names it and gives no number). -/
opaque ppsInDelay : Nat

/-- Free value: the capacity figure, ppm, of a classifier controller with a failed bank (R391 refers to R130, which gives no
figure), by draw. -/
opaque bankFigure : Nat → Nat

/-- Free value: the node a packet begins with once a label or tunnel header has been stripped and no header was parsed there
(R165 names none), by draw. -/
opaque strippedNode : Nat → BitVec 6

/-- Free value: a mirror session's pseudo-random draw (R210), by draw. -/
opaque mirrorDraw : Nat → BitVec 16

/-- Free value: the ingress timestamp of a frame while RX_TS_EN is clear (R100 gives none), by draw. -/
opaque noTimestamp : Nat → BitVec 80

/-- Free value: placement (0–2) and relocations (0–8) of an LPM entry, by draw: they follow from bucket counts that the route
compiler chooses (R147, R178). -/
opaque lpmPlace : Nat → Nat
opaque lpmMoves : Nat → Nat

/-- Free value: how many of the entries that prefix expansion makes lie in the sump, by draw (R145 gives them no place). -/
opaque sumpExpansions : Nat → Nat

/-- Free value: how many buckets a TBL_FLUSH_PORT sweeps in a nanosecond, by draw (R183 bounds the whole sweep alone). -/
opaque flushPace : Nat → Nat

/-- Free value: the bucket count that the route compiler gives a length's table, and the first of its buckets among the 33,554,432, by table
code and length (R147). -/
opaque lpmBuckets : Nat → Nat → Nat
opaque lpmBase : Nat → Nat → Nat

/-- Free value: which way of a full set of the counter cache is evicted (R203 leaves it open), by draw. -/
opaque evicted : Nat → Nat

/-- Free value: how much of its interval a BFD packet is sent early, in percent, by draw (R442: the jitter of RFC 5880). -/
opaque bfdJitter : Nat → Nat

/-- Free value: does a new session authenticate with Meticulous Keyed SHA1, and not Keyed SHA1, by draw (R441 supports both, R445 has
one bit)? -/
opaque bfdMeticulous : Nat → Bool

/-- Free value: the first authentication sequence number of a session, by draw (RFC 5880 calls for a random one). -/
opaque bfdAuthSeq : Nat → BitVec 32

/-- Free value: the rate correction the PTP servo chooses at an update, 2^−16 ppb before its limits, from the measured offset, the last
correction and the loop bandwidth in 10 mHz, by draw (R452 gives its bandwidth, not its law). -/
opaque servoRate : Int → Int → Nat → Nat → Int

/-- Free value: is a port that the best master clock algorithm does not select MASTER, and not PASSIVE, from PROFILE, PRIORITY1, PRIORITY2, the
clock quality and the port, by draw (R451)? -/
opaque ptpMaster : Nat → Nat → Nat → Nat → Nat → Nat → Bool

/-- Free value: how far FOSC, at the last calibrated ratio, is off nominal, 2^−16 ppb, by device time (R453, R507). -/
opaque foscDrift : Nat → Int

/-- Free value: the index of the function in which a call that outran CALL_MS trapped, by draw (R464, R467). -/
opaque trapFunc : Nat → BitVec 32

/-- Is this 64-byte key a point of P-256 (R458)? -/
opaque onCurve : List (BitVec 8) → Bool

/-- Does an ECDSA P-256 signature with SHA-256 verify: key, message, signature (R456, R458, R472)? -/
opaque ecdsaOk : List (BitVec 8) → List (BitVec 8) → List (BitVec 8) → Bool

/-- Is a module valid under the WebAssembly core specification and R454, R455? -/
opaque moduleValid : List (BitVec 8) → Bool

/-- The x-coordinate of the P-256 product of a private key and a 64-byte public key, 32 bytes big-endian (R476, step 1). -/
opaque ecdhX : List (BitVec 8) → List (BitVec 8) → List (BitVec 8)

/-- AES-256-GCM decryption: key, IV, additional data, ciphertext, tag; none where the tag does not verify (R476, step 3). -/
opaque gcmOpen : List (BitVec 8) → List (BitVec 8) → List (BitVec 8) → List (BitVec 8) → List (BitVec 8) → Option (List (BitVec 8))

/-- Free value: a private P-256 key that the entropy source gives, by draw (R477). -/
opaque newKey : Nat → List (BitVec 8)

/-- Free value: root-hash and signer revocation bits that a running diagnostic image burns in one ns, masks, by device time (R477: no row
commands it). -/
opaque revokeRoots : Nat → BitVec 4
opaque revokeSigners : Nat → BitVec 32

/-- Free value: does the burn of one fuse end in one ns, by device time (R478 gives no rate)? -/
opaque fuseBurns : Nat → Bool

/-- A private key's signature of a report, 64 bytes (R496), by draw: ECDSA takes a fresh nonce. -/
opaque attestSign : List (BitVec 8) → Nat → List (BitVec 8) → List (BitVec 8)

/-- Free value: the body of a configuration-store copy, whose layout R479 does not give: schema, SEQ, agent keys, MGT_CFG,
MGT_IPV4, HDL_CFG and the services' settings. -/
opaque storeBody : Nat → Nat → List (List Nat × List (BitVec 8)) → Nat → Nat → Nat → List (BitVec 8) → List (BitVec 8)

/-- Free value: CONFIG_MEASURE of a device that has no store copy in use (R496 gives none). -/
opaque noStoreMeasure : List (BitVec 8)

/-- Free value: progress, per cent, that a headgate RESULT shows while the device verifies and writes (R491), by draw. -/
opaque hgpProgress : Nat → Nat

/-- Free value: the phase of a port's 8 Hz activity LED, ns (R98 gives none). -/
opaque ledPhase : Nat → Nat

/-- Free value: which set of the counter cache a pair belongs to (R203 gives the sets' number and ways alone). -/
opaque counterSet : Nat → Nat

/-- Free value: the smallest reach set while no device is in use, by draw (R317 takes it over the devices in use). -/
opaque idleReach : Nat → Nat

/-- Free value: what a DRAM row that lost its contents reads as at a side address, by draw (R350). -/
opaque rowData : Nat → Nat → Nat

/-- Free value: codewords or symbols that the FEC of a port in UP finds in error in one ns, by unit, frame offset of their count and device
time (the line decides it, and the table has no row for a codeword). -/
opaque fecErrors : Nat → Nat → Nat → Nat

/-- Free value: logical lanes that carried the codewords corrected in one ns, a mask, by unit and device time (R107). -/
opaque fecLanes : Nat → Nat → Nat

/-- Free value: is a leaf unit busy (0), stalled (1) or idle (2), by unit and device time (R72)? -/
opaque workState : Nat → Nat → Nat

/-- Free value: is a lasting signal that no step of the model decides asserted, by unit, code and device time? -/
opaque signal : Nat → Nat → Nat → Bool

/-- Free value: how often what no row of the table commands happens in one ns, by unit, code, port and device time. -/
opaque happens : Nat → Nat → Nat → Nat → Nat

/-- Free value: what a clock without a stated frequency makes in one ns, in 1/48,000 cycle, by clock unit and device time (R66). -/
opaque clockRate : Nat → Nat → Nat

/-- Free value: is a port that goes down receiving a frame, by draw and port (no operand of the step says)? -/
opaque receiving : Nat → Nat → Bool

/-- Free value: is a port that goes down sending a frame, by draw and port? -/
opaque sending : Nat → Nat → Bool

/-- Free value: where among the free reorder slots the distributor begins to look for one, by draw (R191 gives no order). -/
opaque reorderSlot : Nat → Nat

/-- Free value: the result record that a sentinel's eight stages make of the reserved entries, 64 bytes, by flume and draw (R202, R212: the
manual gives neither the sentinel's frame nor the entries' contents). -/
opaque sentinelRecord : Nat → Nat → List (BitVec 8)

/-- Free value: where in its region a DRAM pool of number 2 or above lies, bytes (R232 and R343 give none). -/
opaque poolPlace : Nat → Nat

/-- Free value: bytes that the copy of a rotation step moves in one ns, at most 5, by stack and device time (R357 caps it at 10 % of the
channel's time, 5.76 GB/s). -/
opaque copyPace : Nat → Nat → Nat

/-- Free value: which reserved entry a sentinel's stage addresses, by flume, table and draw (R202: the hashes of a frame that is not given). -/
opaque sentinelIndex : Nat → Nat → Nat → Nat

/-- Free value: Druvik's assigned Vendor ID (R399 does not give it). -/
opaque vendorId : BitVec 16

/-- Free value: what a poisoned byte of a packet body reads as, by handle and byte (R352). -/
opaque poisonByte : Nat → Nat → BitVec 8

/-- Free value: the task of the firmware's check set that a service core in SHADOW meets in one ns, by unit and device time: none (0), one
whose output is the same (1), one whose output differs (2) (R389). -/
opaque coreTask : Nat → Nat → Nat

/-- Free value: entries to in-order mode that an ACTIVE channel makes in one ns, by unit and device time (R347: the order of single requests
decides them, and the table has no row for a request). -/
opaque inorderEntries : Nat → Nat → Nat

end Sys2Proof.Config
end

