-- ==== Sys2Proof/Machine/Bytes.lean ====
section
/-! DEFINITION. Byte order and bit fields: how numbers are laid into bytes and taken out of them (R7; network headers
are big-endian, as their standards have them). -/
namespace Sys2Proof.Machine

/-- Bits `[hi:lo]` of a number. -/
def bits (v hi lo : Nat) : Nat := v / 2 ^ lo % 2 ^ (hi + 1 - lo)

/-- Bit `i` of a number. -/
def bit (v i : Nat) : Bool := v / 2 ^ i % 2 == 1

/-- The number with bits `[hi:lo]` replaced by the low bits of `x`. -/
def setBits (v hi lo x : Nat) : Nat :=
  v - bits v hi lo * 2 ^ lo + (x % 2 ^ (hi + 1 - lo)) * 2 ^ lo

/-- The number with bit `i` made `b`. -/
def setBit (v i : Nat) (b : Bool) : Nat := setBits v i i b.toNat

/-- How many of bits `0 .. n-1` are set. -/
def popCount (v : Nat) : Nat → Nat
  | 0 => 0
  | n + 1 => popCount v n + (bit v n).toNat

/-- `n` bytes, least significant first (R7). -/
def leBytes : Nat → Nat → List Byte
  | 0, _ => []
  | n + 1, v => BitVec.ofNat 8 v :: leBytes n (v / 256)

/-- `n` bytes, most significant first. -/
def beBytes (n v : Nat) : List Byte := (leBytes n v).reverse

/-- The number that a little-endian byte list spells. -/
def ofLe : List Byte → Nat
  | [] => 0
  | b :: bs => b.toNat + 256 * ofLe bs

/-- The number that a big-endian byte list spells. -/
def ofBe (l : List Byte) : Nat := ofLe l.reverse

/-- The bytes `off .. off+n-1` of a list; bytes past its end are 0. -/
def slice (l : List Byte) (off n : Nat) : List Byte :=
  let m := (l.drop off).take n
  m ++ List.replicate (n - m.length) 0

/-- A little-endian field of `n` bytes at `off`. -/
def leAt (l : List Byte) (off n : Nat) : Nat := ofLe (slice l off n)

/-- A big-endian field of `n` bytes at `off`. -/
def beAt (l : List Byte) (off n : Nat) : Nat := ofBe (slice l off n)

/-- The list with the bytes at `off` overwritten; it keeps its length. -/
def patch (l : List Byte) (off : Nat) (new : List Byte) : List Byte :=
  (l.take off ++ new ++ l.drop (off + new.length)).take l.length

/-- A signed number of `w` bits as an integer. -/
def toSigned (w v : Nat) : Int :=
  if v % 2 ^ w < 2 ^ (w - 1) then (v % 2 ^ w : Nat) else ((v % 2 ^ w : Nat) : Int) - (2 ^ w : Nat)

/-- An integer as a number of `w` bits, two's complement. -/
def ofSigned (w : Nat) (v : Int) : Nat := (v % ((2 ^ w : Nat) : Int)).toNat

/-- Saturating addition at `max`. -/
def satAdd (max a b : Nat) : Nat := min max (a + b)

end Sys2Proof.Machine
end

