-- ==== Sys2Proof/Machine/Crc.lean ====
section
/-! DEFINITION. CRC-32C with a seed (R147). -/
namespace Sys2Proof.Machine

/-- One bit of the reflected CRC-32C register; 0x82F63B78 is the reflected form of 0x1EDC6F41. -/
def crcBit (c : Nat) : Nat := if c % 2 = 1 then (c / 2) ^^^ 0x82F63B78 else c / 2

/-- One byte into the register. -/
def crcByte (c : Nat) (b : Byte) : Nat :=
  crcBit (crcBit (crcBit (crcBit (crcBit (crcBit (crcBit (crcBit (c ^^^ b.toNat))))))))

/-- CRC32C(`seed`, `d`): the register starts at the seed and ends with the usual XOR (R147). -/
def crc32c (seed : Nat) (d : List Byte) : Nat := d.foldl crcByte seed ^^^ 0xFFFFFFFF

/-- CRC-32C without a seed. -/
def crc32cStd (d : List Byte) : Nat := crc32c 0xFFFFFFFF d

end Sys2Proof.Machine
end

