-- ==== Sys2Proof/Machine/Tab.lean ====
section
/-! DEFINITION. Sparse tables: a list of (key, value) pairs with keys strictly rising, which holds whatever differs from
its reset value. Keys are lists of numbers, so one type serves registers, queues, tables and counters. -/
namespace Sys2Proof.Machine

/-- A key: unit, index, offset and so on, compared from the left. -/
abbrev Key := List Nat

/-- A sparse table in canonical form (see `Tab.wf`). -/
abbrev Tab (α : Type) := List (Key × α)

/-- Strict order of keys, lexicographic. -/
def keyLt : Key → Key → Bool
  | [], [] => false
  | [], _ :: _ => true
  | _ :: _, [] => false
  | a :: as, b :: bs => decide (a < b) || (a == b && keyLt as bs)

/-- What the table holds at a key. -/
def Tab.get? {α : Type} : Tab α → Key → Option α
  | [], _ => none
  | (k', v) :: t, k => if k = k' then some v else Tab.get? t k

/-- The table with a value placed at a key. -/
def Tab.insert {α : Type} : Tab α → Key → α → Tab α
  | [], k, v => [(k, v)]
  | (k', v') :: t, k, v =>
    if k = k' then (k, v) :: t
    else if keyLt k k' then (k, v) :: (k', v') :: t
    else (k', v') :: Tab.insert t k v

/-- The table with nothing at a key. -/
def Tab.erase {α : Type} (t : Tab α) (k : Key) : Tab α := t.filter (fun e => !(k == e.1))

/-- The table with `o` at a key. -/
def Tab.put {α : Type} (t : Tab α) (k : Key) : Option α → Tab α
  | none => t.erase k
  | some v => t.insert k v

/-- The value at a key, `d` where nothing is listed. -/
def Tab.getD {α : Type} (t : Tab α) (d : α) (k : Key) : α := (t.get? k).getD d

/-- Write a value whose default is `d`: the default itself is not listed. -/
def Tab.setD {α : Type} [DecidableEq α] (t : Tab α) (d : α) (k : Key) (v : α) : Tab α :=
  t.put k (if v = d then none else some v)

/-- Keys strictly rising. -/
def Tab.wf {α : Type} : Tab α → Bool
  | [] => true
  | [_] => true
  | (k, _) :: (k', v') :: t => keyLt k k' && Tab.wf ((k', v') :: t)

end Sys2Proof.Machine
end

