-- ==== Sys2Proof/Machine/State.lean ====
section
/-! DEFINITION. Everything the manual gives the machine to hold, as plain data. Register fields live in `Dev.fields`, one
home for each; what the manual implies beside the registers (queues, tables, buffers, protocol state) lives in the
structures below. A sparse table lists only what differs from its reset value. -/
namespace Sys2Proof.Machine

/-! ### Events (R57–R65) -/

/-- An event record (R58), PHASE apart, which the ring gives it. -/
structure EvRec where
  un : Nat
  source : Nat
  type : Nat
  seq : Nat
  time : Nat
  nmi : Bool
  dropped : Bool
  payload : List Byte
  deriving DecidableEq, Repr

/-- One event source: the last number issued (R59), the records its ring cannot yet take, oldest first, and whether
records were lost since the last one issued (R64). -/
structure Source where
  lastSeq : Nat := 0
  held : List EvRec := []
  lost : Bool := false
  deriving DecidableEq, Repr

structure EvState where
  /-- event sources by ID -/
  sources : Tab Source := []
  /-- latest occurrence of an event type, by unit and type: time and payload (R62) -/
  latest : Tab (Nat × List Byte) := []
  /-- rate-limited events by unit, type and sub-key: window start and events in it -/
  limits : Tab (Nat × Nat) := []
  /-- occurrences counted since the last event of a rate-limited type -/
  since : Tab Nat := []
  /-- the NMI_N pin, true while asserted (R65) -/
  nmi : Bool := false
  deriving DecidableEq, Repr

/-- A slot of UF_ERR_LOG (R50). -/
structure ErrSlot where
  time : Nat
  recordNo : Nat
  cause : Nat
  valid : Bool
  /-- the 48 bytes of DETAIL (R384) -/
  detail : List Byte
  deriving DecidableEq, Repr

/-! ### Host interface (R398–R435) -/

/-- A command in flight: fetch number, and fetch number of its chain's first descriptor (its own otherwise). -/
structure InFlight where
  ticket : Ticket
  no : Nat
  root : Nat
  /-- it has taken effect, and goes on (R412) -/
  started : Bool := false
  deriving DecidableEq, Repr

/-- A chain descriptor that has taken effect and awaits the read that decides how the chain goes on (R417, R419). -/
structure Parked where
  ticket : Ticket
  status : Nat
  result : Nat
  bad : Nat
  /-- the RXQ a filled buffer completes for (R421) -/
  rxq : Option Nat := none
  /-- fetch number of its chain's first descriptor (R429) -/
  root : Nat := 0
  /-- it only waits for the completions of buffers filled earlier: whether and how its chain ends with it (R422) -/
  done : Option (Bool × Nat) := none
  deriving DecidableEq, Repr

/-- A FENCE that waits (R429). -/
structure Fence where
  ticket : Ticket
  no : Nat
  root : Nat
  scope : Nat
  deriving DecidableEq, Repr

/-- A posted receive buffer (R421). -/
structure Posted where
  rxq : Nat
  ticket : Ticket
  length : Nat
  addr : Nat
  /-- fetch number of its chain's first descriptor (R429) -/
  root : Nat := 0
  deriving DecidableEq, Repr

/-- A punted packet (R422, R423), with the handle of the cells it holds. -/
structure Punt where
  bytes : List Byte
  handle : Nat
  reason : Nat
  queue : Nat
  srcSysport : Nat
  cls : Nat
  rxTime : Nat
  rxFrac : Nat
  egMeta : Nat
  deriving DecidableEq, Repr

structure HifState where
  inflight : List InFlight := []
  /-- commands still under way that a host link reset or ABANDON has cut off: their completions and data writes are
  discarded (R402, R433) -/
  lost : List Ticket := []
  /-- number the next fetched command gets -/
  nextNo : Nat := 0
  parked : List Parked := []
  /-- chain descriptors read, with the fetch number of their chain, that wait for room to start (R417) -/
  chainNext : List (Ticket × Nat) := []
  fences : List Fence := []
  /-- posted buffers, oldest first -/
  posted : List Posted := []
  /-- punted packets on their way, oldest first (R22) -/
  punts : List Punt := []
  /-- packets held for a buffer, by RXQ, oldest first -/
  rxHeld : List (Nat × Punt) := []
  /-- unsignalled entries of a CQ or EQ: the device times they were written at, oldest first (R416) -/
  unsig : Tab (List Nat) := []
  /-- MSI-X table words: entry, word 0–3 (R560) -/
  msix : Tab Nat := []
  /-- MSI-X pending bits -/
  pba : Nat := 0
  /-- SQ now served in weighted round-robin and entries left of its turn (R411) -/
  turn : Nat × Nat := (0, 0)
  /-- writes to host memory that the command being carried out has posted, oldest first: address and bytes. They reach
  `State.host` as the command ends, so between commands there is none -/
  dma : List (Nat × List Byte) := []
  /-- a resync is under way; `true` while it still waits for the commands that ABANDON cut off (R433) -/
  resync : Option Bool := none
  deriving DecidableEq, Repr

/-! ### Snapshot (R73–R76) -/

/-- The last snapshot: its ID, the device time it was taken at, the draw its frames' skews come from, every counter field that was
not 0, and the time each UF_PMC_CYCLE was zeroed at. -/
structure Snap where
  id : Nat
  time : Nat
  draw : Nat
  counts : Tab Nat
  /-- the clocks, and the cycles at which each UF_PMC_CYCLE was last zeroed -/
  clocks : Tab Nat
  base : Tab Nat
  deriving DecidableEq, Repr

/-! ### Agents (R454–R466) -/

/-- A message in an agent's inbox (R466). -/
structure Msg where
  kind : Nat
  dropped : Bool
  body : List Byte
  deriving DecidableEq, Repr

/-- What an agent slot holds beside AGT_STATUS and AGT_COUNTS. -/
structure Agent where
  perm : Nat := 0
  pool : Nat := 0
  memMib : Nat := 0
  share : Nat := 0
  callMs : Nat := 0
  maxCmds : Nat := 0
  inboxKib : Nat := 0
  logRxq : Nat := 0
  logEn : Bool := false
  inbox : List Msg := []
  /-- messages were dropped since the last one queued -/
  lost : Bool := false
  /-- event sources subscribed to -/
  subs : List Nat := []
  /-- timers: id, due time, period -/
  timers : List (Nat × Nat × Nat) := []
  /-- device times of the traps that count, newest first -/
  traps : List Nat := []
  /-- commands submitted and not completed, of a stopping slot: their completions are discarded -/
  aborted : Nat := 0
  /-- a call is running, and the device time it began (R455) -/
  running : Bool := false
  callFrom : Nat := 0
  /-- the command that loads, replaces or stops the slot and waits -/
  waiting : Option Ticket := none
  /-- a replacement load waits for the slot to be EMPTY -/
  replacing : Option HCmd := none
  /-- time of the pending restart -/
  restartAt : Nat := 0
  /-- SHA-256 of the image, first 8 bytes -/
  hash : Nat := 0
  /-- KEY_SLOT and MODULE_SHA256 of its image (R456, R496) -/
  keySlot : Nat := 0
  moduleSha : List Byte := []
  /-- the image a load has read, kept for later instances -/
  image : List Byte := []
  /-- commands that a trap left running: they complete with ABORTED_FAULT (R464) -/
  settling : List Ticket := []
  /-- bytes that the device has written into the agent's memory (R465): strictly rising addresses -/
  mem : List Host.Cell := []
  /-- size of its memory at its last call, bytes -/
  memLen : Nat := 0
  /-- value that the last call of the Heneno Agent Interface returned -/
  ret : Int := 0
  /-- device times of hai_event_raise calls and of log lines within the last second -/
  raised : List Nat := []
  lines : List Nat := []
  deriving DecidableEq, Repr

/-! ### Ditch riders (R369–R396) -/

/-- A turn (R371): its number, its expiry, the device time of its last grant or renewal, and, for a replay turn, the sequence
numbers it covers (R373). A released turn is not listed; a lapsed one is marked. -/
structure Turn where
  seq : Nat
  expiry : Nat
  last : Nat
  lapsed : Bool := false
  covers : Option (List Nat) := none
  deriving DecidableEq, Repr

/-- Rider states of a supervised unit (R377). -/
inductive Watching
  | watched | suspect | declared
  deriving DecidableEq, Repr

/-- What a rider holds of a unit: its state, the inputs asserted (R384 INPUTS), the end of the decision window, and, once
declared, what the fault record will carry (R384). -/
structure Watch where
  state : Watching := .watched
  inputs : Nat := 0
  windowEnd : Nat := 0
  cause : Nat := 0
  hardKind : Nat := 0
  declaredAt : Nat := 0
  turnSeq : Nat := 0
  taker : Option Nat := none
  firstSeq : Nat := 0
  lastSeq : Nat := 0
  /-- the taker still awaits its replay turn -/
  awaiting : Bool := false
  /-- items handed to the taker and not yet committed, completed, and reported as failed -/
  open_ : List Nat := []
  replayed : Nat := 0
  /-- LAT_SEQ of the first entry replayed -/
  replayFirst : Nat := 0
  discarded : Nat := 0
  deriving DecidableEq, Repr

/-- A unit in SHADOW: the unit whose stream it compares, and the items compared (R389, R390). -/
structure Shadow where
  of : Nat
  items : Nat := 0
  deriving DecidableEq, Repr

/-- A record of the always-on fault log (R523). -/
structure AonRecord where
  time : Nat
  recordNo : Nat
  cause : Nat
  un : Nat
  detail : List Byte
  deriving DecidableEq, Repr

/-- A self-test under way, and why (R51, R387, R388): at bring-up, for a return, or alone; with the command that waits for
it, and whether that waits for ACTIVE. -/
inductive TestFor
  | bringUp | return_ | alone
  deriving DecidableEq, Repr

structure SelfTest where
  why : TestFor
  ticket : Option Ticket := none
  waitActive : Bool := false
  deriving DecidableEq, Repr

/-- A UNIT_OUT that waits for OUT (R386), with the device time it began. -/
structure OutWait where
  un : Nat
  ticket : Ticket
  since : Nat
  deriving DecidableEq, Repr

/-- A UNIT_RETURN that waits for ACTIVE (R387). -/
structure ReturnWait where
  un : Nat
  ticket : Ticket
  deriving DecidableEq, Repr

structure RidState where
  /-- turns by unit and kind: 0 its own, else the replay turn for the work of the failed unit of that UN -/
  turns : Tab Turn := []
  /-- last TURN_SEQ of a rider -/
  seq : Tab Nat := []
  watch : Tab Watch := []
  shadows : Tab Shadow := []
  /-- the last sentinel record of a flume (R212) -/
  sentinel : Tab (List Byte) := []
  /-- the unit whose stream a unit carries, where it is not its own -/
  standsFor : Tab Nat := []
  /-- stream a unit carried when it left service -/
  carried : Tab Nat := []
  /-- units in ACTIVE whose stream a returning unit has taken back, which go to SPARE once their own items have committed (R390) -/
  relieved : List Nat := []
  /-- device time a unit last went to FAILED (R393) -/
  failedAt : Tab Nat := []
  tests : Tab SelfTest := []
  outs : List OutWait := []
  returns : List ReturnWait := []
  /-- device time of a rider copy's last resynchronisation -/
  resync : Tab Nat := []
  /-- figure last announced by a degraded unit (R53, R391) -/
  figure : Tab Nat := []
  /-- own figure of a group, below full -/
  own : Tab Nat := []
  /-- the always-on fault log: up to 64 records by place; a full log's oldest record is overwritten (R523) -/
  log : List AonRecord := []
  /-- where the next record of a full log goes -/
  logNext : Nat := 0
  retired : List Nat := []
  deriving DecidableEq, Repr

/-- A headless decision (R394). -/
structure Decision where
  time : Nat
  kind : Nat
  un : Nat
  detail : Nat
  deriving DecidableEq, Repr

structure HdlState where
  log : List Decision := []
  /-- device time of the last heartbeat or HOST_ALIVE, none before FW_READY -/
  alive : Option Nat := none
  /-- time spent headless since the log last cleared -/
  spent : Nat := 0
  /-- device time the log last cleared -/
  cleared : Nat := 0
  /-- a HOST_ALIVE has come since the log last cleared -/
  host : Bool := false
  deriving DecidableEq, Repr

/-! ### Packets, buffers and queues (R215, R224–R246) -/

/-- The egress descriptor of a packet (R215). CHECK is right unless `badCheck` is set, as it may arrive from the fabric. -/
structure EgrDesc where
  length : Nat := 0
  ecnCe : Bool := false
  mirror : Bool := false
  egressPort : Nat := 0
  cls : Nat := 0
  colour : Nat := 0
  encapId : Nat := 0
  encapValid : Bool := false
  editKind : Nat := 0
  ptpOp : Nat := 0
  rxTime : Nat := 0
  rxFrac : Nat := 0
  ptpOffset : Nat := 0
  srcSysport : Nat := 0
  stripLen : Nat := 0
  firstNode : Nat := 0
  egMeta : Nat := 0
  tsId : Nat := 0
  badCheck : Bool := false
  /-- beside the descriptor: the fabric group of a multicast packet that waits in a VOQ (R331) -/
  group : Option Nat := none
  deriving DecidableEq, Repr

/-- Where a packet's body lives: in on-die cells (handle of the first), or privately on the spillway (R226, R240, R241). -/
inductive Loc
  | cells (handle : Nat)
  | spill (bytes : List Byte)
  deriving DecidableEq, Repr

/-- A queued packet: its descriptor, its body, the device time it joined at, and the stretch of its queue's spill stream it
was written to, first byte and end (R241). -/
structure QPkt where
  desc : EgrDesc
  loc : Loc
  joined : Nat
  stream : Option (Nat × Nat) := none
  deriving DecidableEq, Repr

/-- A VOQ or an egress queue (R225, R240, R241, R283, R284). `avg` is the average depth in 2^-16 of a 64-byte unit; `blocks` are its spill
blocks in order, whose first byte is stream position `base`; `wr` is the next position to write and `flushed` the first not
yet written to DRAM. -/
structure Queue where
  pkts : List QPkt := []
  profile : Nat := 0
  en : Bool := false
  spillEn : Bool := false
  spilled : Bool := false
  avg : Nat := 0
  /-- VOQ credit balance, 64-byte units, signed (R319) -/
  credit : Int := 0
  ageLimit : Nat := 0
  maxSojourn : Nat := 0
  /-- its spill blocks, as (pool, buffer), oldest first (R237, R241) -/
  blocks : List (Nat × Nat) := []
  base : Nat := 0
  wr : Nat := 0
  flushed : Nat := 0
  deriving DecidableEq, Repr

/-- A stored body: its buffers as (pool, buffer) in order, its bytes, its reference count and the requester that took it
(R234, R238, R244). -/
structure Body where
  bufs : List (Nat × Nat)
  bytes : List Byte
  refs : Nat
  owner : Nat
  deriving DecidableEq, Repr

/-- An owner entry with ALLOCATED set (R238). -/
structure Owner where
  owner : Nat
  shared : Bool
  deriving DecidableEq, Repr

/-- An entry of the subscriber map (R229). -/
structure SubEntry where
  valid : Bool := false
  sub : Nat := 0
  deriving DecidableEq, Repr

/-- A sub-list of a DRAM pool's free store (R233): the pointers its prefetch cache holds, and the free buffers linked to it since it was
threaded, the head first; the first 8 bytes of each hold the handle of the next. The buffers threaded behind them are those that nothing
else names. -/
structure FreeList where
  cache : List Nat := []
  head : List Nat := []
  /-- a poisoned link has cut off the buffers behind those named here (R354) -/
  cut : Bool := false
  deriving DecidableEq, Repr

structure TmState where
  voqs : Tab Queue := []
  eqs : Tab Queue := []
  bodies : Tab Body := []
  owners : Tab Owner := []
  /-- the free store of the DRAM pools, by pool and sub-list (R233) -/
  lists : Tab FreeList := []
  /-- granted buffers a requester holds ready, by requester and pool (R236) -/
  stash : Tab (List Nat) := []
  subMap : Tab SubEntry := []
  /-- spill bucket, in 1/800 byte, and the device time of its last refill (R252) -/
  spillLevel : Int := 0
  spillTime : Nat := 0
  /-- pool 0 is below GLOBAL_SPILL_PCT (R240) -/
  globalSpill : Bool := false
  /-- cause of the last drop that admission decided (R246) -/
  lastDrop : Nat := 0
  deriving DecidableEq, Repr

/-! ### Scheduling, shaping, policing and sluice lists (R259–R298) -/

/-- A token bucket: rate in kb/s, burst in bytes, level in 2^−20 byte (R264, R265). -/
structure Bucket where
  en : Bool := false
  rate : Nat := 0
  burst : Nat := 0
  level : Int := 0
  deriving DecidableEq, Repr

/-- A SHAPER_SET waiting for its level's refill (R267, R293). -/
structure ShaperSet where
  ticket : Ticket
  cEn : Bool
  pEn : Bool
  cRate : Nat
  cBurst : Nat
  pRate : Nat
  pBurst : Nat
  deriving DecidableEq, Repr

/-- A node or queue of the egress hierarchy: parent (none: its parent at reset), slot, weight, its own virtual time as a
parent, its finish time as a child, and its buckets (R227, R261, R262, R264). -/
structure Node where
  parent : Option Nat := none
  prio : Nat := 4
  weight : Nat := 1
  v : Nat := 0
  f : Nat := 0
  c : Bucket := {}
  p : Bucket := {}
  sets : List ShaperSet := []
  deriving DecidableEq, Repr

/-- A METER_SET waiting for the meter's refill (R274, R294). -/
structure MeterSet where
  ticket : Ticket
  reset : Bool
  mode : Nat
  aware : Bool
  coupled : Bool
  cRate : Nat
  cBurst : Nat
  pRate : Nat
  pBurst : Nat
  deriving DecidableEq, Repr

/-- A meter (R270–R274). Levels are in 2^−20 byte. -/
structure Meter where
  mode : Nat := 0
  aware : Bool := false
  coupled : Bool := false
  cRate : Nat := 0
  cBurst : Nat := 0
  pRate : Nat := 0
  pBurst : Nat := 0
  cLevel : Int := 0
  pLevel : Int := 0
  sets : List MeterSet := []
  deriving DecidableEq, Repr

/-- A sluice list: entries as (gates, interval), cycle time and the start its cycles count from (R276, R277). -/
structure SluiceList where
  entries : List (Nat × Nat)
  cycle : Nat
  start : Nat
  deriving DecidableEq, Repr

/-- A port's lists: the active one, the pending one with the time it takes over, and the time a stop under way takes
effect. -/
structure Sluice where
  active : Option SluiceList := none
  pending : Option (SluiceList × Nat) := none
  stopAt : Option Nat := none
  deriving DecidableEq, Repr

/-- A buffer that SAMPLE_STREAM posted (R298). -/
structure SampleBuf where
  ticket : Ticket
  first : Nat
  count : Nat
  addr : Nat
  length : Nat
  written : Nat
  missed : Nat
  /-- sweep in which it takes records, 0 before -/
  sweep : Nat
  /-- sweep that an earlier buffer took records in while this one was posted, 0 where none did: it takes a later one -/
  after : Nat
  deriving DecidableEq, Repr

/-- A packet handed to an egress editor. -/
structure TxPkt where
  desc : EgrDesc
  bytes : List Byte
  deriving DecidableEq, Repr

structure SchState where
  /-- nodes by level and number; level 5 are queues -/
  nodes : Tab Node := []
  meters : Tab Meter := []
  sluices : Tab Sluice := []
  /-- device time a port's hold started -/
  holdStart : Tab Nat := []
  /-- time a port finishes the frames already sent to it, in 1/1600 ns (R280) -/
  busyUntil : Tab Nat := []
  /-- device time of the last packet enqueued for a port (R97) -/
  lastEnq : Tab Nat := []
  bufs : List SampleBuf := []
  /-- packets sent to a port's editor and not yet handed to its MAC, oldest first -/
  editorQ : Tab (List TxPkt) := []
  deriving DecidableEq, Repr

/-! ### Telemetry (R449) -/

/-- A queue's histogram: 16 buckets and the highest DEPTH_BYTES. -/
structure Hist where
  buckets : List Nat := []
  maxDepth : Nat := 0
  deriving DecidableEq, Repr

structure TelemState where
  cur : Tab Hist := []
  frozen : Tab Hist := []
  sweeps : Nat := 0
  /-- number of the last frozen window, 0 before the first -/
  window : Nat := 0
  deriving DecidableEq, Repr

/-! ### Parsing, rules, tables and flumes (R108–R223) -/

/-- A combined classification action (R124): the disposition (0 continue, 1 drop, 2 punt, 3 recirculate, 4 redirect) and the
fields it uses; STRIP_NODE is there when STRIP_EN is. `failed`: the drop comes from a failed partition (R130). -/
structure ClsAction where
  disp : Nat := 0
  cls : Option Nat := none
  meter : Option Nat := none
  counter : Option Nat := none
  puntQ : Nat := 0
  tag : Nat := 0
  strip : Option Nat := none
  nextHop : Nat := 0
  failed : Bool := false
  deriving DecidableEq, Repr

/-- What a fragment entry records (R117): the action, its punt queue within it, and the flow hash. -/
structure FragDecision where
  action : ClsAction
  hash : Nat
  deriving DecidableEq, Repr

/-- A fragment entry: the decision lookups see, with the time its age counts from in 0.1 ns, and those written since, oldest first, each of
which becomes visible 8 cycles after its own device time (R117, R119). -/
structure FragEntry where
  shown : Option (FragDecision × Nat) := none
  coming : List (FragDecision × Nat) := []
  deriving DecidableEq, Repr

/-- A valid classifier entry (R126). -/
structure ClsEntry where
  key : Nat
  mask : Nat
  action : List Byte
  deriving DecidableEq, Repr

/-- A header copy waiting for dispatch: its port, its stored body, the frame's bytes without FCS, and its ingress
timestamp (R190, R101). -/
structure HdrCopy where
  port : Nat
  handle : Nat
  len : Nat
  rxTime : Nat := 0
  rxFrac : Nat := 0
  deriving DecidableEq, Repr

/-- Which header a packet begins with after stripping, where the graph does not say: its protocol. -/
inductive Proto
  | eth | vlan | ip4 | ip6 | ip6Ext | mpls | l4 | other
  deriving DecidableEq, Repr

/-- What a final pass decides: the fields of the result record beside those the packet already carries (R208). -/
structure Result where
  /-- 0 unicast, 1 multicast, 2 drop, 3 punt -/
  disp : Nat
  cls : Nat := 0
  colour : Nat := 0
  dest : Nat := 0
  reason : Nat := 0
  encapId : Nat := 0
  encapValid : Bool := false
  editKind : Nat := 0
  puntQ : Nat := 0
  egMeta : Nat := 0
  mirror : Option Nat := none
  ptpOp : Nat := 0
  ptpOffset : Nat := 0
  deriving DecidableEq, Repr

/-- A partition that has failed in a lateral by one of its banks (R130). -/
structure FailedPart where
  part : Nat
  lat : Nat
  bank : Nat
  deriving DecidableEq, Repr

/-- What a classifier partition's settings decide for the packets dispatched under them (R124, R130, R143). -/
structure PartCfg where
  passEn : Nat := 0
  missDisp : Nat := 0
  missQueue : Nat := 0
  failMode : Bool := false
  deriving DecidableEq, Repr

/-- A packet in a lateral: its header copy, its numbers (R191), its pass, stamp and tag (R213), how much has been stripped
and which header it now begins with (R111), the VRF or bridge domain that R165 carries, the headers counted before the
window, the parse flags seen on any pass, the counter updates that wait for the acknowledgement, and its result once its pass
has ended. -/
structure Pkt where
  /-- what the partitions may change at any time, as it stood at the packet's dispatch (R143) -/
  parts : List PartCfg := []
  /-- reorder slot (R38, R191) -/
  slot : Nat := 0
  /-- outer VLAN ID of the frame as received (R194) -/
  vlan : Nat := 0
  hdr : HdrCopy
  lat : Nat
  portSeq : Nat
  latSeq : Nat
  stamp : Nat
  pass : Nat := 0
  tag : Nat := 0
  strip : Nat := 0
  first : Nat := 0
  proto : Proto := .eth
  counted : Nat := 0
  /-- colour the previous pass gave (R272) -/
  colour : Nat := 0
  vrf : Option Nat := none
  bd : Option Nat := none
  seen : Nat := 0
  updates : List (Nat × Nat) := []
  result : Option Result := none
  /-- turn the flume committed under (R208) -/
  turn : Nat := 0
  /-- the 64-byte result record sent, empty before (R208) -/
  record : List Byte := []
  /-- committed, the acknowledgement on its way (R380) -/
  acked : Bool := true
  committed : Bool := false
  deriving DecidableEq, Repr

/-- A slot of the exact-match buckets, or the sump (R157, R160). -/
inductive Place
  | slot (bucket first : Nat) (second : Bool)
  | sump
  deriving DecidableEq, Repr

/-- An exact-match entry: where lookups find it, the place it is leaving while it moves (R162), its result, its header flags
(R158), and whether it was learned rather than installed by command (R163). -/
structure EmEntry where
  place : Place
  leaving : Option Place := none
  result : Nat
  static : Bool := false
  active : Bool := false
  pendAge : Bool := false
  learned : Bool := false
  deriving DecidableEq, Repr

/-- An inserted prefix: its next hop, the worst placement among the DRAM entries written for it (R178), and whether it lives in
the IPv4 direct table alone. -/
structure Route where
  nextHop : Nat
  place : Nat := 0
  /-- DRAM bucket of its own entry, where `place` is 0 or 1 (R147) -/
  bucket : Nat := 0
  /-- the place it is leaving while it moves (R162) -/
  leaving : Option Nat := none
  deriving DecidableEq, Repr

/-- A TBL_FLUSH_PORT that sweeps the exact-match buckets and then the sump: what it deletes, when it began, the next bucket, and the entries
deleted so far (R183). -/
structure Flush where
  ticket : Ticket
  sysport : Nat
  bd : Option Nat
  static : Bool
  since : Nat
  pos : Nat := 0
  count : Nat := 0
  deriving DecidableEq, Repr

/-- A staged route change (R155): the prefix's key and its next hop, none for a delete. -/
structure Staged where
  key : List Nat
  nextHop : Option Nat
  deriving DecidableEq, Repr

/-- A TBL_NEXT cursor (R181, R182): its table, the position it has passed, the carry list, and the device time of its last
use. -/
structure Cursor where
  table : Nat
  /-- rank of the next record, by walk order -/
  pos : List Nat := []
  carry : List (List Nat) := []
  /-- entries returned already that moved ahead of the position since -/
  again : List (List Nat) := []
  used : Nat := 0
  deriving DecidableEq, Repr

/-- A learn report (R169). -/
structure Learn where
  bd : Nat
  mac : Nat
  sysport : Nat
  deriving DecidableEq, Repr

/-- A counter pair (R201, R203): its DRAM copy, its cached delta, and whether its DRAM copy was found uncorrectable since it
was last read (R207). -/
structure Pair where
  packets : Nat := 0
  bytes : Nat := 0
  dPackets : Nat := 0
  dBytes : Nat := 0
  cached : Bool := false
  lost : Bool := false
  deriving DecidableEq, Repr

/-- A TBL_FLUSH_PORT or RULESET_SWAP under way is finished in its own step; a swap waits for its packets (R133). -/
structure Swap where
  part : Nat
  ticket : Ticket
  deriving DecidableEq, Repr

structure FwdState where
  /-- header copies waiting, by lateral, oldest first -/
  waiting : Tab (List HdrCopy) := []
  /-- replay windows, by flume UN, oldest first -/
  windows : Tab (List Pkt) := []
  /-- the siphon stores, by lateral, oldest first -/
  siphon : Tab (List Pkt) := []
  /-- device times of a lateral's siphon passes, newest first (R136) -/
  sipTimes : Tab (List Nat) := []
  /-- next PORT_SEQ of a port, next LAT_SEQ of a lateral (R191) -/
  portSeq : Tab Nat := []
  latSeq : Tab Nat := []
  /-- committed records waiting for release, by port and PORT_SEQ, and the next to release (R209) -/
  ready : Tab Pkt := []
  relSeq : Tab Nat := []
  frags : Tab FragEntry := []
  /-- device time of the last fragment sweep -/
  fragSweep : Nat := 0
  /-- classifier entries by partition, slot, lateral (0 when replicated) and index -/
  rules : Tab ClsEntry := []
  swaps : List Swap := []
  /-- partitions that a bank failed, in its lateral; a BANK_MASK without the bank clears them (R130) -/
  failedIn : List FailedPart := []
  /-- device time of an entry's last parity repair, by lateral, bank and index -/
  repairs : Tab Nat := []
  /-- punt policers: level in 2^-16 packet x 10^-9, and the device time it stood so -/
  policers : Tab (Nat × Nat) := []
  routes : Tab Route := []
  staged : List Staged := []
  /-- entries made by prefix expansion that lie in the sump (R145, R150) -/
  sumpExp : Nat := 0
  /-- the flushes under way, oldest first (R183) -/
  flushes : List Flush := []
  em : Tab EmEntry := []
  /-- indexed tables: result bytes as a number, by table code and index -/
  indexed : Tab Nat := []
  cursors : Tab Cursor := []
  nextCursor : Nat := 1
  /-- AGE_TIME by table code, and device time of its last sweep (R172) -/
  ageTime : Tab Nat := []
  ageSwept : Tab Nat := []
  learns : List Learn := []
  /-- entry records that wait for export, by REASON (0x40, 0x41), oldest first, with the device time of the first (R448) -/
  exports : Tab (List (List Byte) × Nat) := []
  /-- activity updates asked for, oldest first (R173) -/
  activity : List (List Nat) := []
  /-- encapsulation units (R217) -/
  encap : Tab (List Byte) := []
  /-- egress classifier (R219) -/
  egress : Tab ClsEntry := []
  pairs : Tab Pair := []
  deriving DecidableEq, Repr


/-! ### Fabric (R301–R338) -/

/-- A cell without its link fields (R304). `kind` 0 unicast data, 1 multicast data, 2 control, 3 broadcast control. -/
structure Cell where
  kind : Nat
  dest : Nat := 0
  cls : Nat := 0
  src : Nat := 0
  first : Bool := false
  last : Bool := false
  seq : Nat := 0
  group : Nat := 0
  resync : Bool := false
  epoch : Nat := 0
  payload : List Byte := []
  deriving DecidableEq, Repr

/-- A cell sent and not yet acknowledged: its LSEQ, how often it was sent, and when last (R309, R311). -/
structure Held where
  cell : Cell
  lseq : Nat
  times : Nat
  sent : Nat
  deriving DecidableEq, Repr

/-- What a fabric link holds beside its registers (R302, R309–R312). -/
structure FabLink where
  /-- device time the present state was entered at, and the number of the attempt -/
  since : Nat := 0
  attempt : Nat := 0
  /-- TRAIN_FAILED was raised in this episode, at this time (R303, R393) -/
  failedAt : Option Nat := none
  /-- a LINK_INIT from an element has come in INIT -/
  initSeen : Bool := false
  /-- device times of exits from UP, newest first -/
  deaths : List Nat := []
  txSeq : Nat := 0
  rxSeq : Nat := 0
  /-- a NAK is outstanding -/
  naked : Bool := false
  /-- device time of a delivery not yet acknowledged -/
  ackDue : Option Nat := none
  held : List Held := []
  queue : List Cell := []
  /-- bytes of the cell it last sent (R304, R307, R309) -/
  wire : List Byte := []
  /-- device time of the last REACH, and whether it has timed out (R314) -/
  reachAt : Nat := 0
  reachLost : Bool := true
  /-- its REACH timed out, and none has come since -/
  timedOut : Bool := false
  deriving DecidableEq, Repr

/-- A control stream as received (R313): bit *i* of the map is the SEQ `high` − *i*. -/
structure CtrlRx where
  epoch : Nat
  high : Nat
  map : Nat
  deriving DecidableEq, Repr

/-- Port states of a remote device (R323), two bits a port. -/
structure Remote where
  epoch : Nat
  stateSeq : Nat
  states : Nat
  deriving DecidableEq, Repr

/-- The last credit entry a VOQ sent with ON set (R320). -/
structure Want where
  figure : Nat
  sent : Nat
  deriving DecidableEq, Repr

/-- A data cell held out of order (R324): when it came, and its pool 0 cell. -/
structure HeldCell where
  cell : Cell
  at_ : Nat
  handle : Nat
  deriving DecidableEq, Repr

/-- A resequencing context (R325, R329): `out` are released cells that await reassembly, each with whether a gap was declared
before it; `cut`: the next cell released follows a gap; `cutTo` is the last SEQ of a packet known to be cut and its EPOCH, and `skip` tells that
the cells of a cut packet are being passed over. -/
structure Ctx where
  epoch : Option Nat := none
  next : Nat := 0
  held : List HeldCell := []
  out : List (Cell × Bool) := []
  cut : Bool := false
  cutTo : Option (Nat × Nat) := none
  skip : Bool := false
  deriving DecidableEq, Repr

/-- A fabric group's record (R330, R334). -/
structure McGroup where
  members : Nat := 0
  egr : Nat := 0
  egrValid : Bool := false
  missed : Nat := 0
  deriving DecidableEq, Repr

/-- A local egress group (R332, R335). -/
structure EgrGroup where
  base : Nat := 0
  count : Nat := 0
  missDown : Nat := 0
  missOther : Nat := 0
  deriving DecidableEq, Repr

/-- A multicast packet at the turnout. -/
structure TurnPkt where
  group : Nat
  desc : EgrDesc
  handle : Nat
  deriving DecidableEq, Repr

structure FabState where
  /-- EPOCH: BOOT_COUNT[7:0] as the boot ROM set it at the last reset (R306) -/
  epoch : Nat := 0
  links : Tab FabLink := []
  /-- the rotating pointer (R318) -/
  pointer : Nat := 0
  /-- next SEQ of a stream: 0, device, class; 1, multicast class; 2, device for control. Unlisted: nothing sent since reset -/
  seqs : Tab Nat := []
  ctrl : Tab CtrlRx := []
  /-- the link L0 of a fabric group, cached until the reach sets change (R330) -/
  leads : Tab Nat := []
  /-- device time a device was last sent to, or asked to be sent to (R317) -/
  used : Tab Nat := []
  /-- devices, one bit each, for which DEST_UNREACH was raised as lost -/
  unreach : Nat := 0
  remote : Tab Remote := []
  /-- last STATE_SEQ sent, the states it carried, and when (R323) -/
  stateSeq : Nat := 0
  statesSent : Nat := 0
  statesAt : Nat := 0
  wants : Tab Want := []
  /-- DEPTH last reported, by local port, source device and class (R321) -/
  reqs : Tab Nat := []
  /-- next time a port may grant, 2^−16 ns -/
  grantAt : Tab Nat := []
  /-- class now served at a port and credits left of its turn -/
  crdTurn : Tab (Nat × Nat) := []
  /-- source last served, by port and class -/
  crdSrc : Tab Nat := []
  /-- next time a multicast fabric class may send, 2^−16 ns -/
  mcAt : Tab Nat := []
  ctxs : Tab Ctx := []
  mctxs : Tab Ctx := []
  groups : Tab McGroup := []
  egrGroups : Tab EgrGroup := []
  /-- member slots -/
  slots : Tab Nat := []
  turnout : List TurnPkt := []
  deriving DecidableEq, Repr

/-! ### Stacked memory (R339–R366) -/

/-- A rotation under way (R355–R361): its trigger, the channel being vacated, the copy target, whether the copy has ended and
the vacated channel trains, the channels this rotation has trained, and the step. Channels are physical numbers. -/
structure Rotation where
  trigger : Nat
  x : Nat
  p : Nat
  /-- the channel whose count triggered it, for trigger 2 (R356) -/
  chan : Nat := 0
  /-- the channel address that the copy has reached (R358) -/
  pointer : Nat := 0
  training : Bool := false
  trained : List Nat := []
  step : Nat := 1
  deriving DecidableEq, Repr

/-- A channel's corrected errors (R355): the second of device time counted last, the errors in it, and those of the second before. -/
structure CeCount where
  sec : Nat
  count : Nat := 0
  before : Nat := 0
  deriving DecidableEq, Repr

/-- What a stack holds beside its registers: its rotation; the channels trained at this bring-up, and whether bring-up is
over (R366); a vacated channel that an abort left untrained, and the trigger and the time of the restart after a dip (R361);
device times of uncorrectable errors by channel, newest first (R364); corrected errors of the present second by channel
(R355). -/
structure Stack where
  rot : Option Rotation := none
  brought : List Nat := []
  up : Bool := false
  untrained : Option Nat := none
  resume : Option (Nat × Nat × Nat) := none
  begun : Bool := false
  ues : Tab (List Nat) := []
  ces : Tab CeCount := []
  deriving DecidableEq, Repr

structure DramState where
  stackTab : Tab Stack := []
  /-- triggers that wait, oldest first: stack, trigger, channel (R355) -/
  waiting : List (Nat × Nat × Nat) := []
  /-- dead F-side logical channels the table engine has remapped (R187) -/
  remapped : List Nat := []
  /-- logical channels, [side, number], whose whole range was reported as poisoned, and the side addresses written in each since (R364) -/
  poison : Tab (List Nat) := []
  /-- stacks and their eighths whose rows lost their contents in deep-sleep (R350) -/
  lostRows : List (Nat × Nat) := []
  deriving DecidableEq, Repr

/-! ### Ports, cages and time (R83–R105) -/

/-- What a port holds beside its registers. -/
structure PortX where
  /-- device time attempt 1 started at -/
  trainStart : Nat := 0
  /-- TRAIN_FAILED has been raised in this episode (R84) -/
  episode : Bool := false
  /-- device time of the last frame that passed the port, none before the first (R98) -/
  lastFrame : Option Nat := none
  /-- the last frame sent, without its FCS -/
  lastTx : List Byte := []
  /-- the PORT_DRAIN COMMIT that waits (R97) -/
  commit : Option Ticket := none
  /-- device time the quiet watch began -/
  watchFrom : Nat := 0
  /-- the frame first at the port's editor was being sent when the port was disabled, and goes out (R83, R87) -/
  finishing : Bool := false
  deriving DecidableEq, Repr

/-- A cage slot: its debounced module, its latched inputs and its outputs (R89–R93). Input times are the device times of the
first scan of the present run; 0 runs read the other way. -/
structure Slot where
  present : Bool := false
  ready : Bool := false
  fault : Bool := false
  presentN : Bool := true
  intN : Bool := true
  buttonN : Bool := true
  /-- scans in a row with PRESENT_N high -/
  highScans : Nat := 0
  /-- device time PRESENT_N has read low since -/
  lowFrom : Nat := 0
  /-- device time BUTTON_N has read low since -/
  pressedFrom : Nat := 0
  /-- this press has been declared -/
  pressed : Bool := false
  lpmode : Bool := false
  resetN : Bool := true
  selectN : Bool := true
  /-- device time of the insertion, or of the RETRAIN that tries a faulty module again (R92) -/
  tried : Nat := 0
  deriving DecidableEq, Repr

/-- A time-of-day message received and not yet applied: its SECONDS and the device time of its stop bit (R104, R105). -/
structure TodMsg where
  seconds : Nat
  stop : Nat
  deriving DecidableEq, Repr

structure PanelState where
  ports : Tab PortX := []
  slots : Tab Slot := []
  /-- discarded scans in a row, by chain (R90) -/
  badRun : Tab Nat := []
  /-- the 260 bits last shifted out, by chain; bit 0 went first (R89) -/
  sgOut : Tab Nat := []
  /-- the 1,024-bit LED stream last shifted out; bit 1023 went first (R98) -/
  leds : Nat := 0
  /-- the switch channel last written by each I2C master: the switch's address and the channel (R93) -/
  mux : Tab (Nat × Nat) := []
  /-- device time PPS_OUT last rose, none before the first (R102) -/
  ppsOut : Option Nat := none
  tod : Option TodMsg := none
  /-- bytes and number of the last TOD_OUT message (R103) -/
  todOut : List Byte := []
  todSeq : Nat := 0
  deriving DecidableEq, Repr

/-! ### Service cluster (R437–R453) -/

/-- A BFD session (R441–R445): its parameters, the RFC 5880 variables, and its timers. Times are device times, ns. -/
structure Bfd where
  multihop : Bool := false
  destKind : Nat := 0
  authEn : Bool := false
  mult : Nat := 1
  localDisc : Nat := 0
  desMinTx : Nat := 0
  reqMinRx : Nat := 0
  dest : Nat := 0
  cls : Nat := 0
  withdraw : Option Nat := none
  template : List Byte := []
  keyId : Nat := 0
  key : List Byte := []
  /-- 0 AdminDown, 1 Down, 2 Init, 3 Up -/
  state : Nat := 1
  remote : Nat := 1
  diag : Nat := 0
  remoteDiag : Nat := 0
  remoteDisc : Nat := 0
  remoteMult : Nat := 0
  /-- Desired Min TX and Required Min RX last received, µs -/
  remoteTx : Nat := 0
  remoteRx : Nat := 1
  /-- a Poll sequence of this side runs; a Final is owed -/
  poll : Bool := false
  final : Bool := false
  /-- intervals in force while a Poll sequence runs: transmit and receive, µs -/
  oldTx : Option Nat := none
  oldRx : Option Nat := none
  /-- sends and expects Meticulous Keyed SHA1, not Keyed SHA1 (R441) -/
  meticulous : Bool := false
  authSeq : Nat := 0
  /-- the last sequence number accepted, and when (RFC 5880, 6.8.1) -/
  rcvSeq : Option Nat := none
  rcvAt : Nat := 0
  /-- went Down while the device was HEADLESS with BFD_WITHDRAW set, and its next hop is still to be withdrawn (R446) -/
  toWithdraw : Bool := false
  nextTx : Nat := 0
  detectAt : Option Nat := none
  /-- AdminDown packets still to send before the session is removed -/
  leaving : Option Nat := none
  tx : Nat := 0
  rx : Nat := 0
  upSince : Nat := 0
  downs : Nat := 0
  deriving DecidableEq, Repr

/-- A unicast grant (R451): the port, the grantee's port identity, the message type granted, and when it ends. -/
structure PtpGrant where
  port : Nat
  peer : List Byte
  type : Nat
  until_ : Nat
  deriving DecidableEq, Repr

/-- The PTP service (R451–R453). `rate` is the correction in force, 2^−16 ppb; `history` holds the ns of LOCKED operation under each
correction, newest first; `selected` is the source in use: a port, or 255 for PPS_IN. -/
structure Ptp where
  rate : Int := 0
  /-- what the time counter holds beyond its fraction, in 10^−9 of the fraction's unit -/
  part : Int := 0
  history : List (Nat × Int) := []
  /-- state of each port that runs PTP: 6 MASTER, 7 PASSIVE, 9 SLAVE (IEEE 1588); 0 before the algorithm has given one -/
  portStates : Tab Nat := []
  /-- unicast grants given -/
  grants : List PtpGrant := []
  below : Nat := 0
  above : Nat := 0
  selected : Option Nat := none
  /-- measured the first offset since a source was selected -/
  measured : Bool := false
  /-- PTP messages that wait for the service, oldest first -/
  inbox : List Punt := []
  deriving DecidableEq, Repr

structure SvcState where
  bfd : Tab Bfd := []
  /-- BFD packets that wait for the engine, oldest first -/
  bfdIn : List Punt := []
  /-- ECMP member slots rewritten by R446, with the next hops withdrawn from each, newest first -/
  withdrawn : Tab (List Nat) := []
  ptp : Ptp := {}
  deriving DecidableEq, Repr

/-! ### Firmware and trust (R469–R498) -/

/-- What a valid boot record says (R470). -/
structure BootRec where
  seq : Nat := 0
  slot : Nat := 0
  trial : Bool := false
  committedSv : Nat := 0
  bootCount : Nat := 0
  configEpoch : Nat := 0
  deriving DecidableEq, Repr

/-- A copy of the configuration store (R479): agent keys by slot, the management port's registers, HDL_CFG, and the
persistent settings of the firmware services. -/
structure Store where
  /-- the hash in its header is right -/
  sound : Bool := true
  schema : Nat := 0
  seq : Nat := 0
  keys : Tab (List Byte) := []
  /-- MGT_CFG, MGT_IPV4 and HDL_CFG, each as a whole register -/
  mgtCfg : Nat := 4
  mgtIpv4 : Nat := 0
  hdlCfg : Nat := 0x3C070003
  /-- the services' persistent settings, of which the manual names none -/
  services : List Byte := []
  deriving DecidableEq, Repr

/-- What fuses and OTP hold (R471, R477, R478). -/
structure Otp where
  serial : List Byte := []
  /-- UF_IDENT0 and UF_IDENT1, KIND apart, of the dies (1, 2) and the stacks (512–519) -/
  idents : Tab (Nat × Nat) := []
  mgtMac : Nat := 0
  rootHashes : List (List Byte) := []
  rootRevoked : Nat := 0
  signerRevoked : Nat := 0
  svFused : Nat := 0
  /-- private attestation and wrap keys, empty until the first cold boot (R477) -/
  attestKey : List Byte := []
  wrapKey : List Byte := []
  deviceCert : List Byte := []
  authorityCert : List Byte := []
  /-- XTAL_EXTRA as shipped, ms (R502), and the speed-bin voltages of VDD_F and VDD_Q, mV (R517) -/
  xtalExtra : Nat := 20
  binF : Nat := 750
  binQ : Nat := 750
  deriving DecidableEq, Repr

/-- An image that runs, is staged or waits: its slot and its 512-byte header. -/
structure Image where
  slot : Nat
  header : List Byte
  /-- first 8 bytes of the whole image's SHA-256 (R432) -/
  sha : List Byte := []
  deriving DecidableEq, Repr

/-- An accepted FW_ACTIVATE (R482): the command, ACT_TIME, and how far the switch has gone: 0 pending, 1 the pause has begun,
2 commands and agents settled. -/
structure Activation where
  ticket : Ticket
  time : Nat
  stage : Nat := 0
  /-- a REVERT: the command is FW_COMMIT -/
  revert : Bool := false
  deriving DecidableEq, Repr

/-- A headgate session (R489–R492): 0 IDLE, 1 RECEIVING, 2 VERIFYING, 3 WRITING, 4 DONE. -/
structure Headgate where
  state : Nat := 0
  session : Nat := 0
  target : Nat := 0
  allow : Bool := false
  length : Nat := 0
  chunks : Tab (List Byte) := []
  /-- SEQ of the last ACK, DATA messages since, whether the ACK timer runs, and device times of the last DATA and of the
  peer's last valid message -/
  acked : Nat := 0
  since : Nat := 0
  timer : Bool := false
  lastData : Nat := 0
  lastMsg : Nat := 0
  /-- the session that ended last and its final status, for an END that is repeated -/
  final : Option (Nat × Nat) := none
  /-- the frame that carried the peer's last message: replies turn its addresses round -/
  peer : List Byte := []
  deriving DecidableEq, Repr

structure FwState where
  /-- stacks whose sideband has been read (R55) -/
  sideband : List Nat := []
  /-- the first 64 bytes of the boot record copies; shorter where the flash is blank (R469, R470) -/
  rec0 : List Byte := []
  rec1 : List Byte := []
  /-- what slots A and B hold, empty after an erase -/
  slotA : List Byte := []
  slotB : List Byte := []
  store0 : Option Store := none
  store1 : Option Store := none
  otp : Otp := {}
  running : Option Image := none
  /-- the running payload, decrypted, in the service cluster's memory alone (R471, R476) -/
  code : List Byte := []
  /-- image that ran before the trial -/
  previous : Option Image := none
  staged : Option Image := none
  stagedDefaults : Bool := false
  act : Option Activation := none
  /-- counter value that fuses are being burnt to, with the command that waits (R478) -/
  burn : Option (Nat × Option Ticket) := none
  /-- device time from which burns and flash writes may go on again after a supply dip (R519) -/
  holdUntil : Nat := 0
  /-- commands whose flash writes wait for that, and whether registers kept in the store have changed meanwhile -/
  held : List HCmd := []
  dirty : Bool := false
  /-- recovery transfer through BAR4: target and image (R488) -/
  bar4 : Option (Nat × List Byte) := none
  hgp : Headgate := {}
  /-- last frame the management port sent, without FCS -/
  mgtTx : List Byte := []
  /-- a reset ended a trial: FW_REVERTED with cause 2 is due at FW_READY (R486) -/
  trialLost : Bool := false
  deriving DecidableEq, Repr

/-! ### Clocks, power and temperature (R499–R530) -/

/-- What a reference block holds beside its registers: calibrated count ratios by pair, the sources declared failed with their
windows in tolerance in a row, and ambiguous windows in a row (R504, R505). -/
structure ClkBlock where
  ratio : Tab (Nat × Nat) := []
  good : Tab Nat := []
  ambig : Nat := 0
  deriving DecidableEq, Repr

structure PwrState where
  blocks : Tab ClkBlock := []
  /-- device time PWRGD rose -/
  goodAt : Option Nat := none
  /-- device times the NPLLs, FPLLs and HPLL of a die began to hold over without a reference -/
  heldSince : Tab Nat := []
  /-- source that a PLL's multiplexer is leaving, by clock unit (R508) -/
  leaving : Tab Nat := []
  /-- AVS: device time of a rail's last step, and the old and new targets of a step under way (R517) -/
  avsAt : Tab Nat := []
  avsPending : Tab (Nat × Nat) := []
  /-- device time of a die's last throttle change (R529) -/
  throttledAt : Tab Nat := []
  /-- THERM_TRIP_N asserted (R530) -/
  tripped : Bool := false
  /-- failed PMBus reads in a row, by device -/
  pmbFails : Tab Nat := []
  /-- what each clock has run since reset, in 1/48,000 cycle, by clock unit (R66) -/
  clocks : Tab Nat := []
  /-- PLLs that have lost lock by themselves and run on -/
  unlocked : List Nat := []
  /-- oscillators that have failed, whose users run on another clock since: reference block, and source 2 FOSC or 3 SOSC (R505) -/
  aside : List (Nat × Nat) := []
  deriving DecidableEq, Repr

/-! ### The machine -/

/-- Everything but the queue of waiting commands. -/
structure Dev where
  /-- device time, ns (R6) -/
  now : Nat := 0
  /-- its fraction, 2^−16 ns (R6) -/
  frac : Nat := 0
  /-- register fields that differ from reset: unit, register offset, lowest bit, index -/
  fields : Tab Nat := []
  ev : EvState := {}
  /-- UF_ERR_LOG slots by unit and slot -/
  errLog : Tab ErrSlot := []
  /-- last RECORD_NO of a unit -/
  recordNo : Tab Nat := []
  hif : HifState := {}
  /-- agent slots -/
  agents : Tab Agent := []
  /-- the model's own counter: how many free values the device has drawn -/
  draws : Nat := 0
  snap : Option Snap := none
  /-- cycles of its clock domain at which a unit's UF_PMC_CYCLE was last zeroed (R66) -/
  cycleBase : Tab Nat := []
  /-- lasting signal that a unit's counter in edge mode last saw, by unit and counter: 1 while asserted (R67) -/
  sigPrev : Tab Nat := []
  /-- data returned by the last register read that a command asked for -/
  lastRead : Nat := 0
  tm : TmState := {}
  sch : SchState := {}
  telem : TelemState := {}
  fwd : FwdState := {}
  fab : FabState := {}
  panel : PanelState := {}
  rid : RidState := {}
  hdl : HdlState := {}
  dram : DramState := {}
  svcs : SvcState := {}
  fw : FwState := {}
  pwr : PwrState := {}
  deriving DecidableEq, Repr

/-- The machine: the device, host memory as the device has written it (addresses strictly rising), and the commands that
wait, first in, first out. -/
structure State where
  dev : Dev := {}
  host : List Host.Cell := []
  pending : List Instr := []
  deriving DecidableEq, Repr

/-- Why the machine stops. -/
inductive Fault where
  /-- Raised by no meaning: the manual gives the device no way to stop, so every command answers a next state or a
  refusal. Safe: nothing answers it. -/
  | none
  deriving DecidableEq, Repr

/-- Why a command has no meaning. -/
inductive Refusal where
  /-- The command's meaning has not been written; raised by its arm of `exec` alone. Safe: nothing can be proved of a run
  that goes through it. -/
  | notModelled (mnemonic : String)
  deriving DecidableEq, Repr

/-- The machine right after cold reset: every register field at its reset value (nothing listed in `fields`), every table,
queue and buffer empty, no command waiting (R48, R521). Values the manual does not give are named in the assumption log. -/
def State.reset : State := {}

/-- What a command answers. -/
abbrev Answer := Host.Outcome State Fault Refusal

end Sys2Proof.Machine
end

