-- ==== Sys2Proof/Machine/HostMem.lean ====
section
/-! DEFINITION. Host memory as the device writes it, and a command's effect on the state: what it does to the device, and its
writes to host memory, in the order it posts them (R401). -/
namespace Sys2Proof.Machine

/-- One byte written, keeping addresses strictly rising. -/
def hostPut : List Host.Cell → Nat → Byte → List Host.Cell
  | [], a, b => [(a, b)]
  | (a', b') :: m, a, b =>
    if a = a' then (a, b) :: m
    else if a < a' then (a, b) :: (a', b') :: m
    else (a', b') :: hostPut m a b

/-- What the device last wrote at an address, none where it has written nothing. -/
def hostGet : List Host.Cell → Nat → Option Byte
  | [], _ => none
  | (a', b) :: m, a => if a = a' then some b else hostGet m a

/-- Bytes written from an address upwards. -/
def hostPuts : List Host.Cell → Nat → List Byte → List Host.Cell
  | m, _, [] => m
  | m, a, b :: bs => hostPuts (hostPut m a b) (a + 1) bs

/-- Addresses strictly rising: the canonical form. -/
def hostWf : List Host.Cell → Bool
  | [] => true
  | [_] => true
  | (a, _) :: (a', b') :: m => decide (a < a') && hostWf ((a', b') :: m)

/-- Posted writes reach host memory, oldest first. -/
def hostTake (m : List Host.Cell) (ws : List (Nat × List Byte)) : List Host.Cell :=
  ws.foldl (fun m w => hostPuts m w.1 w.2) m

/-- The device after its posted writes have left it. -/
def Dev.posted (d : Dev) : Dev := { d with hif := { d.hif with dma := [] } }

/-- The state once the device has become `d`: the writes that `d` has posted are in host memory, and the queue is kept. -/
def State.becomes (s : State) (d : Dev) : State := { s with dev := d.posted, host := hostTake s.host d.hif.dma }

/-- The state with the device changed by `f`. -/
def State.on (s : State) (f : Dev → Dev) : State := s.becomes (f s.dev)

/-- What a command answers whose effect on the device is `f`. -/
def State.go (s : State) (f : Dev → Dev) : Answer := .next (s.on f)

end Sys2Proof.Machine
end

