-- ==== Sys2Proof/Machine/Units.lean ====
section
/-! DEFINITION. The unit tree of R43 and the event sources of R57: which units exist, their classes, parents, identity and
the source that carries each event type. -/
namespace Sys2Proof.Machine

/-- One row of the UN table (R43): first and last UN, class code, parent of the first, how many units share a parent
(0: all of them), the kind of identity reported, first event source, and how many units share a source (0: all). -/
structure UnitRow where
  lo : Nat
  hi : Nat
  cls : Nat
  parent : Nat
  perParent : Nat
  ident : Nat
  source : Nat
  perSource : Nat
  deriving DecidableEq, Repr

/-- The UN table (R43, R57). Identity: 0 package serial, 1 F-die, 2 Q-die, 3 stack. -/
def unitTable : List UnitRow :=
  [⟨0, 0, 0x01, 0xFFFF, 0, 0, 0x001, 0⟩, ⟨1, 1, 0x02, 0, 0, 1, 0x002, 0⟩, ⟨2, 2, 0x02, 0, 0, 2, 0x003, 0⟩,
   ⟨3, 3, 0x03, 0, 0, 0, 0x00A, 0⟩, ⟨4, 7, 0x04, 3, 0, 0, 0x00A, 0⟩, ⟨8, 8, 0x05, 1, 0, 1, 0x008, 0⟩,
   ⟨9, 9, 0x05, 2, 0, 2, 0x009, 0⟩, ⟨16, 19, 0x10, 1, 0, 1, 0x0E4, 1⟩, ⟨32, 51, 0x11, 16, 5, 1, 0x0D0, 1⟩,
   ⟨64, 64, 0x13, 1, 0, 1, 0x0F2, 0⟩, ⟨65, 65, 0x14, 1, 0, 1, 0x0F4, 0⟩, ⟨66, 66, 0x16, 1, 0, 1, 0x0F8, 0⟩,
   ⟨67, 67, 0x17, 1, 0, 1, 0x0FC, 0⟩, ⟨68, 68, 0x18, 1, 0, 1, 0x0FE, 0⟩, ⟨80, 89, 0x19, 1, 0, 1, 0x0E8, 1⟩,
   ⟨96, 96, 0x20, 2, 0, 2, 0x100, 0⟩, ⟨97, 98, 0x21, 2, 0, 2, 0x108, 0⟩, ⟨99, 99, 0x22, 2, 0, 2, 0x110, 0⟩,
   ⟨100, 100, 0x23, 2, 0, 2, 0x114, 0⟩, ⟨101, 101, 0x24, 2, 0, 2, 0x11C, 0⟩, ⟨102, 102, 0x25, 2, 0, 2, 0x120, 0⟩,
   ⟨103, 103, 0x26, 2, 0, 2, 0x124, 0⟩, ⟨104, 104, 0x27, 2, 0, 2, 0x128, 0⟩, ⟨105, 105, 0x28, 2, 0, 2, 0x12C, 0⟩,
   ⟨106, 106, 0x29, 1, 0, 1, 0x130, 0⟩, ⟨128, 255, 0x30, 1, 0, 1, 0x020, 1⟩, ⟨256, 415, 0x31, 416, 0, 2, 0x0A0, 4⟩,
   ⟨416, 416, 0x32, 2, 0, 2, 0x0C8, 0⟩, ⟨448, 448, 0x38, 1, 0, 1, 0x160, 0⟩, ⟨449, 449, 0x39, 1, 0, 1, 0x178, 0⟩,
   ⟨512, 519, 0x40, 0, 0, 3, 0x140, 1⟩, ⟨520, 655, 0x41, 512, 17, 3, 0x140, 17⟩, ⟨704, 729, 0x48, 730, 0, 1, 0x180, 1⟩,
   ⟨730, 730, 0x49, 1, 0, 1, 0x19A, 0⟩, ⟨731, 731, 0x4A, 730, 0, 1, 0x19B, 0⟩, ⟨768, 783, 0x50, 1, 0, 1, 0x010, 4⟩,
   ⟨784, 799, 0x50, 2, 0, 2, 0x014, 4⟩, ⟨800, 807, 0x51, 1, 0, 1, 0x018, 4⟩, ⟨808, 815, 0x51, 2, 0, 2, 0x01A, 4⟩,
   ⟨816, 831, 0x52, 1, 0, 1, 0x01C, 0⟩, ⟨832, 847, 0x52, 2, 0, 2, 0x01D, 0⟩, ⟨848, 855, 0x52, 512, 1, 3, 0x01E, 4⟩,
   ⟨1024, 1183, 0x12, 32, 8, 1, 0x0D0, 8⟩, ⟨1184, 1231, 0x15, 65, 0, 1, 0x0F4, 12⟩]

/-- The row that lists a UN, none for an absent unit (R44). -/
def unitRow (un : Nat) : Option UnitRow := unitTable.find? (fun r => decide (r.lo ≤ un ∧ un ≤ r.hi))

/-- Is the unit populated (R43, R44)? -/
def populated (un : Nat) : Bool := (unitRow un).isSome

/-- Class code of a unit, 0 for an absent one (R44). -/
def classOf (un : Nat) : Nat := ((unitRow un).map (·.cls)).getD 0

/-- Parent of a unit, 0xFFFF for the package root and for absent units. -/
def parentOf (un : Nat) : Nat :=
  match unitRow un with
  | none => 0xFFFF
  | some r => if r.perParent = 0 then r.parent else r.parent + (un - r.lo) / r.perParent

/-- Is UN 848 + *s* or a DRAM unit: which stack's identity does it report? -/
def stackOf (un : Nat) : Nat :=
  if un < 520 then un - 512 else if un < 656 then (un - 520) / 17 else un - 848

/-- The rider that supervises a unit (R369). -/
def riderOf (un : Nat) : Nat :=
  match unitRow un with
  | none => 8
  | some r =>
    if r.ident = 2 then 9
    else if r.ident = 3 then (if stackOf un < 4 then 8 else 9)
    else 8

/-- Every populated UN, ascending. -/
def allUnits : List Nat :=
  unitTable.foldr (fun r acc => (List.range (r.hi + 1 - r.lo)).map (· + r.lo) ++ acc) []

/-- The children of a unit, ascending. -/
def childrenOf (un : Nat) : List Nat := allUnits.filter (fun c => parentOf c == un && c != 0)

/-- The ancestors of a unit, nearest first; the tree is at most 5 deep. -/
def ancestorsFuel : Nat → Nat → List Nat
  | 0, _ => []
  | n + 1, un => let p := parentOf un; if p = 0xFFFF then [] else p :: ancestorsFuel n p

def ancestors (un : Nat) : List Nat := ancestorsFuel 6 un

/-- DEPTH of UF_TREE. -/
def depthOf (un : Nat) : Nat := (ancestors un).length

/-- Is `un` a descendant of `g`? -/
def isUnder (g un : Nat) : Bool := (ancestors un).contains g

/-- Every unit under another. -/
def unitsUnder (un : Nat) : List Nat := allUnits.filter (isUnder un)

/-- NEXT_SIBLING_UN of UF_TREE, 0xFFFF if none. -/
def nextSibling (un : Nat) : Nat :=
  (((childrenOf (parentOf un)).find? (fun c => decide (un < c)))).getD 0xFFFF

/-- SOURCE_ID of UF_EVT_SEQ: the source that carries the unit's common events (R57). -/
def commonSource (un : Nat) : Nat :=
  match unitRow un with
  | none => 0
  | some r =>
    if r.cls = 0x40 then r.source + 4 * (un - r.lo)
    else if r.cls = 0x41 then r.source + 4 * ((un - r.lo) / 17)
    else if r.cls = 0x21 then r.source + 4 * (un - r.lo)
    else if r.perSource = 0 then r.source else r.source + (un - r.lo) / r.perSource

/-- The source that carries an event type of a unit: the class chapters' tables (R142, R188, R222, R257, R299, R337, R367,
R396, R435, R467, R497, R531) give some types a source of their own; every other type uses `commonSource`. -/
def sourceOf (un type : Nat) : Nat :=
  match classOf un, type with
  | 0x01, 0x1A => 0x000
  | 0x13, 0x11 => 0x0F3
  | 0x16, 0x11 => 0x0F9
  | 0x16, 0x12 => 0x0FA
  | 0x16, 0x13 => 0x0FA
  | 0x16, 0x14 => 0x0FA
  | 0x16, 0x16 => 0x0FA
  | 0x16, 0x15 => 0x0FB
  | 0x17, 0x11 => 0x0FD
  | 0x20, 0x11 => 0x101
  | 0x21, 0x11 => commonSource un + 1
  | 0x21, 0x12 => commonSource un + 2
  | 0x23, 0x12 => 0x115
  | 0x23, 0x13 => 0x116
  | 0x23, 0x14 => 0x116
  | 0x24, 0x11 => 0x11D
  | 0x27, 0x11 => 0x129
  | 0x27, 0x12 => 0x12A
  | 0x28, 0x11 => 0x12D
  | 0x28, 0x12 => 0x12E
  | 0x32, 0x11 => 0x0C9
  | 0x32, 0x12 => 0x0CA
  | 0x32, 0x13 => 0x0CB
  | 0x38, 0x11 => 0x161
  | 0x38, 0x12 => 0x162
  | 0x38, 0x13 => 0x163
  | 0x38, 0x14 => 0x164
  | 0x39, 0x11 => 0x179
  | 0x40, 0x11 => commonSource un + 1
  | 0x40, 0x12 => commonSource un + 2
  | 0x40, 0x13 => commonSource un + 2
  | 0x40, 0x14 => commonSource un + 2
  | 0x40, 0x15 => commonSource un + 3
  | 0x40, 0x16 => commonSource un + 3
  | 0x41, 0x11 => commonSource un + 1
  | 0x41, 0x12 => commonSource un + 2
  | 0x41, 0x13 => commonSource un + 2
  | 0x41, 0x14 => commonSource un + 2
  | 0x41, 0x15 => commonSource un + 3
  | 0x41, 0x16 => commonSource un + 3
  | 0x49, 0x11 => 0x19C
  | 0x49, 0x12 => 0x19D
  | 0x49, 0x1C => 0x19E
  | 0x49, 0x13 => 0x1B0
  | 0x49, 0x14 => 0x1B0
  | 0x49, 0x15 => 0x1A0
  | 0x49, 0x16 => 0x1A1
  | 0x49, 0x17 => 0x1A2
  | 0x49, 0x18 => 0x1A2
  | 0x49, 0x19 => 0x1A3
  | 0x49, 0x1A => 0x1A3
  | 0x49, 0x1B => 0x1A4
  | _, _ => commonSource un

/-- The non-maskable event types of a class (R65, R396, R531). -/
def nmiTypes (cls : Nat) : List Nat :=
  match cls with
  | 0x01 => [0x18]
  | 0x05 => [0x14]
  | 0x50 => [0x10, 0x11]
  | 0x51 => [0x11]
  | 0x52 => [0x11]
  | _ => []

/-- MASK bits that read 0 and ignore writes (R65). -/
def nmiMask (cls : Nat) : Nat := (nmiTypes cls).foldl (fun m t => m ||| 2 ^ t) 0

end Sys2Proof.Machine
end

