-- ==== Sys2Proof/Machine/RegTypes.lean ====
section
/-! DEFINITION. How a register table is written down: access codes (R8), ranges (R554), reserved codes (R555) and reset
values, some of which depend on the unit or the index. -/
namespace Sys2Proof.Machine

/-- Access codes (R8). RSV ranges have no field. -/
inductive Access | ro | rw | w1c | wo | rc
  deriving DecidableEq, Repr

/-- What a field's value acts as when it lies outside its stated range (R554). -/
inductive Rng
  /-- no range stated -/
  | any
  /-- the nearer end -/
  | clamp (lo hi : Nat)
  /-- 0 is named beside the range; otherwise the nearer end -/
  | clampOrZero (lo hi : Nat)
  /-- values outside act as one the description names -/
  | outsideAs (lo hi as : Nat)
  deriving DecidableEq, Repr

/-- The value that a written value acts as (R554). -/
def Rng.act : Rng → Nat → Nat
  | .any, v => v
  | .clamp lo hi, v => max lo (min hi v)
  | .clampOrZero lo hi, v => if v = 0 then 0 else max lo (min hi v)
  | .outsideAs lo hi x, v => if lo ≤ v ∧ v ≤ hi then v else x

/-- Reset values, fixed or depending on the unit or the index within the register array. -/
inductive Rst
  | val (n : Nat)
  | classCode | depth | childCount | nextSibling | firstChild | parent | sourceId
  /-- this value in lead ports, 0 elsewhere -/
  | leadOnly (n : Nat)
  | portGroup
  | perIndex (n : Nat)
  | quotaMax | quotaGuar
  /-- pool 0, pool 1, every other pool -/
  | pool (p0 p1 other : Nat)
  | pasr
  /-- nominal voltage of the monitored rail -/
  | railTarget
  deriving DecidableEq, Repr

/-- A register field: frame offset of its register (of the first one, in an array), lowest bit, width, reset value and
range. -/
structure Fld where
  off : Nat
  lo : Nat
  width : Nat
  rst : Rst
  rng : Rng
  deriving DecidableEq, Repr

/-- Fields that are writable only in some units or states. -/
inductive Special | plain | leadPort | spread | rail | poolCount | deviceId | evtMask | pmcCode
  deriving DecidableEq, Repr

/-- A field in its register: how often it repeats within one register and at what step, and the largest named code where its
values are listed as codes (R555). -/
structure FieldDesc where
  fld : Fld
  acc : Access
  rep : Nat
  step : Nat
  codes : Option Nat
  special : Special
  deriving DecidableEq, Repr

/-- Registers that show one entry of a larger set, chosen by a selector register. -/
inductive Window | none | quota | ring
  deriving DecidableEq, Repr

/-- A register or an array of them: offset, stride, count, first index that exists, limit of the index modulo 16 (0: none),
window and fields. -/
structure RegDesc where
  off : Nat
  stride : Nat
  count : Nat
  first : Nat
  sub : Nat
  window : Window
  fields : List FieldDesc
  deriving DecidableEq, Repr

end Sys2Proof.Machine
end

