-- ==== Sys2Proof/Machine/RegTable.lean ====
section
/-! DEFINITION. Every register of the manual: its frame offset, its fields with their bits, access code, reset value and
value range, as the register tables of spec/02 to spec/16 give them (R8, R46, R554, R555). A field's name is the manual's. -/
namespace Sys2Proof.Machine

/-! ### spec/02_unit_tree.md -/

def UF_CLASS.FRAME_REV : Fld := ⟨0x0, 24, 8, .val 1, .any⟩
def UF_CLASS.CLASS_VER : Fld := ⟨0x0, 16, 8, .val 0x1, .any⟩
def UF_CLASS.CLASS_CODE : Fld := ⟨0x0, 0, 16, .classCode, .any⟩
/-- UF_CLASS, frame offset 0x0, all classes. -/
def UF_CLASS.desc : RegDesc := ⟨0x0, 0, 1, 0, 0, .none,
   [⟨UF_CLASS.FRAME_REV, .ro, 1, 0, none, .plain⟩,
    ⟨UF_CLASS.CLASS_VER, .ro, 1, 0, none, .plain⟩,
    ⟨UF_CLASS.CLASS_CODE, .ro, 1, 0, none, .plain⟩]⟩

def UF_TREE.DEPTH : Fld := ⟨0x8, 61, 3, .depth, .any⟩
def UF_TREE.CHILD_COUNT : Fld := ⟨0x8, 48, 13, .childCount, .any⟩
def UF_TREE.NEXT_SIBLING_UN : Fld := ⟨0x8, 32, 16, .nextSibling, .any⟩
def UF_TREE.FIRST_CHILD_UN : Fld := ⟨0x8, 16, 16, .firstChild, .any⟩
def UF_TREE.PARENT_UN : Fld := ⟨0x8, 0, 16, .parent, .any⟩
/-- UF_TREE, frame offset 0x8, all classes. -/
def UF_TREE.desc : RegDesc := ⟨0x8, 0, 1, 0, 0, .none,
   [⟨UF_TREE.DEPTH, .ro, 1, 0, none, .plain⟩,
    ⟨UF_TREE.CHILD_COUNT, .ro, 1, 0, none, .plain⟩,
    ⟨UF_TREE.NEXT_SIBLING_UN, .ro, 1, 0, none, .plain⟩,
    ⟨UF_TREE.FIRST_CHILD_UN, .ro, 1, 0, none, .plain⟩,
    ⟨UF_TREE.PARENT_UN, .ro, 1, 0, none, .plain⟩]⟩

def UF_IDENT0.FAB : Fld := ⟨0x10, 56, 8, .val 0, .any⟩
def UF_IDENT0.WAFER : Fld := ⟨0x10, 48, 8, .val 0, .any⟩
def UF_IDENT0.LOT : Fld := ⟨0x10, 0, 48, .val 0, .any⟩
/-- UF_IDENT0, frame offset 0x10, all classes. -/
def UF_IDENT0.desc : RegDesc := ⟨0x10, 0, 1, 0, 0, .none,
   [⟨UF_IDENT0.FAB, .ro, 1, 0, none, .plain⟩,
    ⟨UF_IDENT0.WAFER, .ro, 1, 0, none, .plain⟩,
    ⟨UF_IDENT0.LOT, .ro, 1, 0, none, .plain⟩]⟩

def UF_IDENT1.KIND : Fld := ⟨0x18, 40, 4, .val 0, .any⟩
def UF_IDENT1.STEPPING : Fld := ⟨0x18, 32, 8, .val 0, .any⟩
def UF_IDENT1.TEST_DATE : Fld := ⟨0x18, 16, 16, .val 0, .any⟩
def UF_IDENT1.DIE_Y : Fld := ⟨0x18, 8, 8, .val 0, .any⟩
def UF_IDENT1.DIE_X : Fld := ⟨0x18, 0, 8, .val 0, .any⟩
/-- UF_IDENT1, frame offset 0x18, all classes. -/
def UF_IDENT1.desc : RegDesc := ⟨0x18, 0, 1, 0, 0, .none,
   [⟨UF_IDENT1.KIND, .ro, 1, 0, none, .plain⟩,
    ⟨UF_IDENT1.STEPPING, .ro, 1, 0, none, .plain⟩,
    ⟨UF_IDENT1.TEST_DATE, .ro, 1, 0, none, .plain⟩,
    ⟨UF_IDENT1.DIE_Y, .ro, 1, 0, none, .plain⟩,
    ⟨UF_IDENT1.DIE_X, .ro, 1, 0, none, .plain⟩]⟩

def UF_STATE.DEGRADED : Fld := ⟨0x20, 20, 1, .val 0x0, .any⟩
def UF_STATE.PREV_STATE : Fld := ⟨0x20, 16, 4, .val 0x0, .any⟩
def UF_STATE.FAULT_COUNT : Fld := ⟨0x20, 8, 8, .val 0x0, .any⟩
def UF_STATE.TURN_HOLDER : Fld := ⟨0x20, 6, 1, .val 0x0, .any⟩
def UF_STATE.SLEEP_STATE : Fld := ⟨0x20, 4, 2, .val 0x0, .any⟩
def UF_STATE.SVC_STATE : Fld := ⟨0x20, 0, 4, .val 0x0, .any⟩
/-- UF_STATE, frame offset 0x20, all classes. -/
def UF_STATE.desc : RegDesc := ⟨0x20, 0, 1, 0, 0, .none,
   [⟨UF_STATE.DEGRADED, .ro, 1, 0, none, .plain⟩,
    ⟨UF_STATE.PREV_STATE, .ro, 1, 0, none, .plain⟩,
    ⟨UF_STATE.FAULT_COUNT, .ro, 1, 0, none, .plain⟩,
    ⟨UF_STATE.TURN_HOLDER, .ro, 1, 0, none, .plain⟩,
    ⟨UF_STATE.SLEEP_STATE, .ro, 1, 0, none, .plain⟩,
    ⟨UF_STATE.SVC_STATE, .ro, 1, 0, none, .plain⟩]⟩

def UF_CTRL.REQ_REFUSED : Fld := ⟨0x28, 10, 1, .val 0x0, .any⟩
def UF_CTRL.TEST_PASS : Fld := ⟨0x28, 9, 1, .val 0x0, .any⟩
def UF_CTRL.TEST_BUSY : Fld := ⟨0x28, 8, 1, .val 0x0, .any⟩
def UF_CTRL.RESET_REQ : Fld := ⟨0x28, 3, 1, .val 0x0, .any⟩
def UF_CTRL.TEST_REQ : Fld := ⟨0x28, 2, 1, .val 0x0, .any⟩
def UF_CTRL.RETURN_REQ : Fld := ⟨0x28, 1, 1, .val 0x0, .any⟩
def UF_CTRL.OUT_REQ : Fld := ⟨0x28, 0, 1, .val 0x0, .any⟩
/-- UF_CTRL, frame offset 0x28, all classes. -/
def UF_CTRL.desc : RegDesc := ⟨0x28, 0, 1, 0, 0, .none,
   [⟨UF_CTRL.REQ_REFUSED, .w1c, 1, 0, none, .plain⟩,
    ⟨UF_CTRL.TEST_PASS, .ro, 1, 0, none, .plain⟩,
    ⟨UF_CTRL.TEST_BUSY, .ro, 1, 0, none, .plain⟩,
    ⟨UF_CTRL.RESET_REQ, .wo, 1, 0, none, .plain⟩,
    ⟨UF_CTRL.TEST_REQ, .wo, 1, 0, none, .plain⟩,
    ⟨UF_CTRL.RETURN_REQ, .wo, 1, 0, none, .plain⟩,
    ⟨UF_CTRL.OUT_REQ, .wo, 1, 0, none, .plain⟩]⟩

def UF_TURN.TURN_SEQ : Fld := ⟨0x30, 32, 32, .val 0x0, .any⟩
def UF_TURN.TURN_EXPIRY : Fld := ⟨0x30, 0, 32, .val 0x0, .any⟩
/-- UF_TURN, frame offset 0x30, all classes. -/
def UF_TURN.desc : RegDesc := ⟨0x30, 0, 1, 0, 0, .none,
   [⟨UF_TURN.TURN_SEQ, .ro, 1, 0, none, .plain⟩,
    ⟨UF_TURN.TURN_EXPIRY, .ro, 1, 0, none, .plain⟩]⟩

def UF_CLKEN.DEEP_EN : Fld := ⟨0x40, 2, 1, .val 0x1, .any⟩
def UF_CLKEN.SLEEP_EN : Fld := ⟨0x40, 1, 1, .val 0x1, .any⟩
def UF_CLKEN.RUN_EN : Fld := ⟨0x40, 0, 1, .val 0x1, .any⟩
/-- UF_CLKEN, frame offset 0x40, all classes. -/
def UF_CLKEN.desc : RegDesc := ⟨0x40, 0, 1, 0, 0, .none,
   [⟨UF_CLKEN.DEEP_EN, .rw, 1, 0, none, .plain⟩,
    ⟨UF_CLKEN.SLEEP_EN, .rw, 1, 0, none, .plain⟩,
    ⟨UF_CLKEN.RUN_EN, .rw, 1, 0, none, .plain⟩]⟩

def UF_EVT_PEND.CHILD_PEND : Fld := ⟨0x80, 63, 1, .val 0, .any⟩
def UF_EVT_PEND.PEND : Fld := ⟨0x80, 0, 63, .val 0x0, .any⟩
/-- UF_EVT_PEND, frame offset 0x80, all classes. -/
def UF_EVT_PEND.desc : RegDesc := ⟨0x80, 0, 1, 0, 0, .none,
   [⟨UF_EVT_PEND.CHILD_PEND, .ro, 1, 0, none, .plain⟩,
    ⟨UF_EVT_PEND.PEND, .w1c, 1, 0, none, .plain⟩]⟩

def UF_EVT_MASK.MASK : Fld := ⟨0x88, 0, 63, .val 0x0, .any⟩
/-- UF_EVT_MASK, frame offset 0x88, all classes. -/
def UF_EVT_MASK.desc : RegDesc := ⟨0x88, 0, 1, 0, 0, .none,
   [⟨UF_EVT_MASK.MASK, .rw, 1, 0, none, .evtMask⟩]⟩

def UF_EVT_ROUTE.COPY_CLUSTER : Fld := ⟨0x90, 8, 1, .val 0x1, .any⟩
def UF_EVT_ROUTE.EVT_RING : Fld := ⟨0x90, 0, 6, .val 0x0, .any⟩
/-- UF_EVT_ROUTE, frame offset 0x90, all classes. -/
def UF_EVT_ROUTE.desc : RegDesc := ⟨0x90, 0, 1, 0, 0, .none,
   [⟨UF_EVT_ROUTE.COPY_CLUSTER, .rw, 1, 0, none, .plain⟩,
    ⟨UF_EVT_ROUTE.EVT_RING, .rw, 1, 0, none, .plain⟩]⟩

def UF_EVT_SEQ.SOURCE_ID : Fld := ⟨0x98, 32, 9, .sourceId, .any⟩
def UF_EVT_SEQ.LAST_SEQ : Fld := ⟨0x98, 0, 32, .val 0x0, .any⟩
/-- UF_EVT_SEQ, frame offset 0x98, all classes. -/
def UF_EVT_SEQ.desc : RegDesc := ⟨0x98, 0, 1, 0, 0, .none,
   [⟨UF_EVT_SEQ.SOURCE_ID, .ro, 1, 0, none, .plain⟩,
    ⟨UF_EVT_SEQ.LAST_SEQ, .ro, 1, 0, none, .plain⟩]⟩

def UF_PMC_CYCLE.CYCLES : Fld := ⟨0x100, 0, 64, .val 0x0, .any⟩
/-- UF_PMC_CYCLE, frame offset 0x100, all classes. -/
def UF_PMC_CYCLE.desc : RegDesc := ⟨0x100, 0, 1, 0, 0, .none,
   [⟨UF_PMC_CYCLE.CYCLES, .ro, 1, 0, none, .plain⟩]⟩

def UF_PMC_CTRL.CYCLE_CLEAR : Fld := ⟨0x108, 33, 1, .val 0x0, .any⟩
def UF_PMC_CTRL.CNT_CLEAR : Fld := ⟨0x108, 32, 1, .val 0x0, .any⟩
def UF_PMC_CTRL.OVF : Fld := ⟨0x108, 16, 8, .val 0x0, .any⟩
def UF_PMC_CTRL.CHAIN : Fld := ⟨0x108, 8, 7, .val 0x0, .any⟩
def UF_PMC_CTRL.CNT_EN : Fld := ⟨0x108, 0, 8, .val 0x0, .any⟩
/-- UF_PMC_CTRL, frame offset 0x108, all classes. -/
def UF_PMC_CTRL.desc : RegDesc := ⟨0x108, 0, 1, 0, 0, .none,
   [⟨UF_PMC_CTRL.CYCLE_CLEAR, .wo, 1, 0, none, .plain⟩,
    ⟨UF_PMC_CTRL.CNT_CLEAR, .wo, 1, 0, none, .plain⟩,
    ⟨UF_PMC_CTRL.OVF, .w1c, 1, 0, none, .plain⟩,
    ⟨UF_PMC_CTRL.CHAIN, .rw, 1, 0, none, .plain⟩,
    ⟨UF_PMC_CTRL.CNT_EN, .rw, 1, 0, none, .plain⟩]⟩

def UF_PMC_SEL.QUALIFIER : Fld := ⟨0x140, 16, 12, .val 0x0, .any⟩
def UF_PMC_SEL.MODE : Fld := ⟨0x140, 8, 1, .val 0x0, .any⟩
def UF_PMC_SEL.CODE : Fld := ⟨0x140, 0, 8, .val 0x0, .any⟩
/-- UF_PMC_SEL, frame offset 0x140 + 8·i, all classes. -/
def UF_PMC_SEL.desc : RegDesc := ⟨0x140, 8, 8, 0, 0, .none,
   [⟨UF_PMC_SEL.QUALIFIER, .rw, 1, 0, none, .plain⟩,
    ⟨UF_PMC_SEL.MODE, .rw, 1, 0, none, .plain⟩,
    ⟨UF_PMC_SEL.CODE, .rw, 1, 0, none, .pmcCode⟩]⟩

def UF_PMC_CNT.COUNT : Fld := ⟨0x180, 0, 48, .val 0x0, .any⟩
/-- UF_PMC_CNT, frame offset 0x180 + 8·i, all classes. -/
def UF_PMC_CNT.desc : RegDesc := ⟨0x180, 8, 8, 0, 0, .none,
   [⟨UF_PMC_CNT.COUNT, .rw, 1, 0, none, .plain⟩]⟩

def UF_PMC_SHADOW.COUNT : Fld := ⟨0x1C0, 0, 48, .val 0x0, .any⟩
/-- UF_PMC_SHADOW, frame offset 0x1C0 + 8·i, all classes. -/
def UF_PMC_SHADOW.desc : RegDesc := ⟨0x1C0, 8, 8, 0, 0, .none,
   [⟨UF_PMC_SHADOW.COUNT, .ro, 1, 0, none, .plain⟩]⟩

def UF_PMC_SHADOW_CYCLE.CYCLES : Fld := ⟨0x200, 0, 64, .val 0x0, .any⟩
/-- UF_PMC_SHADOW_CYCLE, frame offset 0x200, all classes. -/
def UF_PMC_SHADOW_CYCLE.desc : RegDesc := ⟨0x200, 0, 1, 0, 0, .none,
   [⟨UF_PMC_SHADOW_CYCLE.CYCLES, .ro, 1, 0, none, .plain⟩]⟩

def UF_PMC_SNAP_ID.VALID : Fld := ⟨0x208, 32, 1, .val 0x0, .any⟩
def UF_PMC_SNAP_ID.SNAP_ID : Fld := ⟨0x208, 0, 32, .val 0x0, .any⟩
/-- UF_PMC_SNAP_ID, frame offset 0x208, all classes. -/
def UF_PMC_SNAP_ID.desc : RegDesc := ⟨0x208, 0, 1, 0, 0, .none,
   [⟨UF_PMC_SNAP_ID.VALID, .ro, 1, 0, none, .plain⟩,
    ⟨UF_PMC_SNAP_ID.SNAP_ID, .ro, 1, 0, none, .plain⟩]⟩

def UF_PMC_SNAP_TIME.TIME : Fld := ⟨0x210, 0, 64, .val 0x0, .any⟩
/-- UF_PMC_SNAP_TIME, frame offset 0x210, all classes. -/
def UF_PMC_SNAP_TIME.desc : RegDesc := ⟨0x210, 0, 1, 0, 0, .none,
   [⟨UF_PMC_SNAP_TIME.TIME, .ro, 1, 0, none, .plain⟩]⟩

def HIF_SNAP_CTRL.REFUSED : Fld := ⟨0x500, 34, 1, .val 0x0, .any⟩
def HIF_SNAP_CTRL.BUSY : Fld := ⟨0x500, 33, 1, .val 0x0, .any⟩
def HIF_SNAP_CTRL.TRIGGER : Fld := ⟨0x500, 32, 1, .val 0x0, .any⟩
def HIF_SNAP_CTRL.LAST_ID : Fld := ⟨0x500, 0, 32, .val 0x0, .any⟩
/-- HIF_SNAP_CTRL, frame offset 0x500, class 0x0001. -/
def HIF_SNAP_CTRL.desc : RegDesc := ⟨0x500, 0, 1, 0, 0, .none,
   [⟨HIF_SNAP_CTRL.REFUSED, .w1c, 1, 0, none, .plain⟩,
    ⟨HIF_SNAP_CTRL.BUSY, .ro, 1, 0, none, .plain⟩,
    ⟨HIF_SNAP_CTRL.TRIGGER, .wo, 1, 0, none, .plain⟩,
    ⟨HIF_SNAP_CTRL.LAST_ID, .ro, 1, 0, none, .plain⟩]⟩

/-! ### spec/03_front_panel_ports.md -/

def PRT_MODE.MAX_FRAME : Fld := ⟨0x400, 16, 14, .val 0x2400, .clamp 1518 12288⟩
def PRT_MODE.LT_EN : Fld := ⟨0x400, 11, 1, .val 0x1, .any⟩
def PRT_MODE.AN_EN : Fld := ⟨0x400, 10, 1, .val 0x1, .any⟩
def PRT_MODE.MEDIA : Fld := ⟨0x400, 8, 2, .val 0x0, .any⟩
def PRT_MODE.LANE_RATE : Fld := ⟨0x400, 4, 1, .val 0x0, .any⟩
def PRT_MODE.OCTET_MODE : Fld := ⟨0x400, 0, 3, .val 0x0, .any⟩
/-- PRT_MODE, frame offset 0x400, class 0x0030. -/
def PRT_MODE.desc : RegDesc := ⟨0x400, 0, 1, 0, 0, .none,
   [⟨PRT_MODE.MAX_FRAME, .rw, 1, 0, none, .plain⟩,
    ⟨PRT_MODE.LT_EN, .rw, 1, 0, none, .plain⟩,
    ⟨PRT_MODE.AN_EN, .rw, 1, 0, none, .plain⟩,
    ⟨PRT_MODE.MEDIA, .rw, 1, 0, some 2, .plain⟩,
    ⟨PRT_MODE.LANE_RATE, .rw, 1, 0, none, .leadPort⟩,
    ⟨PRT_MODE.OCTET_MODE, .rw, 1, 0, some 4, .leadPort⟩]⟩

def PRT_LANE_MAP.RX_INV : Fld := ⟨0x408, 56, 8, .val 0x00, .any⟩
def PRT_LANE_MAP.TX_INV : Fld := ⟨0x408, 48, 8, .val 0x00, .any⟩
def PRT_LANE_MAP.RX_MAP : Fld := ⟨0x408, 24, 24, .leadOnly 0xFAC688, .any⟩
def PRT_LANE_MAP.TX_MAP : Fld := ⟨0x408, 0, 24, .leadOnly 0xFAC688, .any⟩
/-- PRT_LANE_MAP, frame offset 0x408, class 0x0030. -/
def PRT_LANE_MAP.desc : RegDesc := ⟨0x408, 0, 1, 0, 0, .none,
   [⟨PRT_LANE_MAP.RX_INV, .rw, 1, 0, none, .leadPort⟩,
    ⟨PRT_LANE_MAP.TX_INV, .rw, 1, 0, none, .leadPort⟩,
    ⟨PRT_LANE_MAP.RX_MAP, .rw, 1, 0, none, .leadPort⟩,
    ⟨PRT_LANE_MAP.TX_MAP, .rw, 1, 0, none, .leadPort⟩]⟩

def PRT_CTRL.RETRAIN : Fld := ⟨0x410, 8, 1, .val 0x0, .any⟩
def PRT_CTRL.CAGE_WIDTH : Fld := ⟨0x410, 4, 3, .leadOnly 4, .any⟩
def PRT_CTRL.HOST_MODULE : Fld := ⟨0x410, 3, 1, .val 0x0, .any⟩
def PRT_CTRL.LOOP_FAR : Fld := ⟨0x410, 2, 1, .val 0x0, .any⟩
def PRT_CTRL.LOOP_NEAR : Fld := ⟨0x410, 1, 1, .val 0x0, .any⟩
def PRT_CTRL.ADMIN_UP : Fld := ⟨0x410, 0, 1, .val 0x0, .any⟩
/-- PRT_CTRL, frame offset 0x410, class 0x0030. -/
def PRT_CTRL.desc : RegDesc := ⟨0x410, 0, 1, 0, 0, .none,
   [⟨PRT_CTRL.RETRAIN, .wo, 1, 0, none, .plain⟩,
    ⟨PRT_CTRL.CAGE_WIDTH, .rw, 1, 0, some 4, .plain⟩,
    ⟨PRT_CTRL.HOST_MODULE, .rw, 1, 0, none, .plain⟩,
    ⟨PRT_CTRL.LOOP_FAR, .rw, 1, 0, none, .plain⟩,
    ⟨PRT_CTRL.LOOP_NEAR, .rw, 1, 0, none, .plain⟩,
    ⟨PRT_CTRL.ADMIN_UP, .rw, 1, 0, none, .plain⟩]⟩

def PRT_TIMERS.TRAIN_TIMEOUT_MS : Fld := ⟨0x418, 48, 16, .val 0x01F4, .clamp 10 10000⟩
def PRT_TIMERS.TRAIN_ATTEMPTS : Fld := ⟨0x418, 32, 8, .val 0x03, .clamp 1 255⟩
def PRT_TIMERS.RETRY_MS : Fld := ⟨0x418, 16, 16, .val 0x03E8, .clamp 10 60000⟩
def PRT_TIMERS.UP_DEBOUNCE_MS : Fld := ⟨0x418, 0, 16, .val 0x000A, .clamp 0 1000⟩
/-- PRT_TIMERS, frame offset 0x418, class 0x0030. -/
def PRT_TIMERS.desc : RegDesc := ⟨0x418, 0, 1, 0, 0, .none,
   [⟨PRT_TIMERS.TRAIN_TIMEOUT_MS, .rw, 1, 0, none, .plain⟩,
    ⟨PRT_TIMERS.TRAIN_ATTEMPTS, .rw, 1, 0, none, .plain⟩,
    ⟨PRT_TIMERS.RETRY_MS, .rw, 1, 0, none, .plain⟩,
    ⟨PRT_TIMERS.UP_DEBOUNCE_MS, .rw, 1, 0, none, .plain⟩]⟩

def PRT_STATUS.LANE_LOCK : Fld := ⟨0x420, 32, 8, .val 0x00, .any⟩
def PRT_STATUS.LANE_SD : Fld := ⟨0x420, 24, 8, .val 0x00, .any⟩
def PRT_STATUS.DRAIN_STATE : Fld := ⟨0x420, 20, 4, .val 0x0, .any⟩
def PRT_STATUS.MARGIN_LOW : Fld := ⟨0x420, 19, 1, .val 0x0, .any⟩
def PRT_STATUS.FEC_DEGRADED : Fld := ⟨0x420, 18, 1, .val 0x0, .any⟩
def PRT_STATUS.MODULE_READY : Fld := ⟨0x420, 17, 1, .val 0x0, .any⟩
def PRT_STATUS.MODULE_PRESENT : Fld := ⟨0x420, 16, 1, .val 0x0, .any⟩
def PRT_STATUS.TRAIN_FAILS : Fld := ⟨0x420, 8, 8, .val 0x00, .any⟩
def PRT_STATUS.DOWN_CAUSE : Fld := ⟨0x420, 4, 4, .val 0x0, .any⟩
def PRT_STATUS.LINK_STATE : Fld := ⟨0x420, 0, 4, .val 0x0, .any⟩
/-- PRT_STATUS, frame offset 0x420, class 0x0030. -/
def PRT_STATUS.desc : RegDesc := ⟨0x420, 0, 1, 0, 0, .none,
   [⟨PRT_STATUS.LANE_LOCK, .ro, 1, 0, none, .plain⟩,
    ⟨PRT_STATUS.LANE_SD, .ro, 1, 0, none, .plain⟩,
    ⟨PRT_STATUS.DRAIN_STATE, .ro, 1, 0, none, .plain⟩,
    ⟨PRT_STATUS.MARGIN_LOW, .ro, 1, 0, none, .plain⟩,
    ⟨PRT_STATUS.FEC_DEGRADED, .ro, 1, 0, none, .plain⟩,
    ⟨PRT_STATUS.MODULE_READY, .ro, 1, 0, none, .plain⟩,
    ⟨PRT_STATUS.MODULE_PRESENT, .ro, 1, 0, none, .plain⟩,
    ⟨PRT_STATUS.TRAIN_FAILS, .ro, 1, 0, none, .plain⟩,
    ⟨PRT_STATUS.DOWN_CAUSE, .ro, 1, 0, none, .plain⟩,
    ⟨PRT_STATUS.LINK_STATE, .ro, 1, 0, none, .plain⟩]⟩

def PRT_DRAIN.BUTTON_EN : Fld := ⟨0x428, 41, 1, .val 0x1, .any⟩
def PRT_DRAIN.AUTO_RELEASE : Fld := ⟨0x428, 40, 1, .val 0x1, .any⟩
def PRT_DRAIN.HEADLESS_ACT : Fld := ⟨0x428, 39, 1, .val 0x0, .any⟩
def PRT_DRAIN.HOST_WAIT_S : Fld := ⟨0x428, 24, 8, .val 0x1E, .clamp 1 255⟩
def PRT_DRAIN.DRAIN_MAX_S : Fld := ⟨0x428, 16, 8, .val 0x0A, .clamp 1 255⟩
def PRT_DRAIN.QUIET_MS : Fld := ⟨0x428, 0, 10, .val 0x032, .clamp 1 1000⟩
/-- PRT_DRAIN, frame offset 0x428, class 0x0030. -/
def PRT_DRAIN.desc : RegDesc := ⟨0x428, 0, 1, 0, 0, .none,
   [⟨PRT_DRAIN.BUTTON_EN, .rw, 1, 0, none, .plain⟩,
    ⟨PRT_DRAIN.AUTO_RELEASE, .rw, 1, 0, none, .plain⟩,
    ⟨PRT_DRAIN.HEADLESS_ACT, .rw, 1, 0, none, .plain⟩,
    ⟨PRT_DRAIN.HOST_WAIT_S, .rw, 1, 0, none, .plain⟩,
    ⟨PRT_DRAIN.DRAIN_MAX_S, .rw, 1, 0, none, .plain⟩,
    ⟨PRT_DRAIN.QUIET_MS, .rw, 1, 0, none, .plain⟩]⟩

def PRT_PTP_CFG.ONE_STEP_EN : Fld := ⟨0x430, 2, 1, .val 0x1, .any⟩
def PRT_PTP_CFG.TX_TS_EN : Fld := ⟨0x430, 1, 1, .val 0x1, .any⟩
def PRT_PTP_CFG.RX_TS_EN : Fld := ⟨0x430, 0, 1, .val 0x1, .any⟩
/-- PRT_PTP_CFG, frame offset 0x430, class 0x0030. -/
def PRT_PTP_CFG.desc : RegDesc := ⟨0x430, 0, 1, 0, 0, .none,
   [⟨PRT_PTP_CFG.ONE_STEP_EN, .rw, 1, 0, none, .plain⟩,
    ⟨PRT_PTP_CFG.TX_TS_EN, .rw, 1, 0, none, .plain⟩,
    ⟨PRT_PTP_CFG.RX_TS_EN, .rw, 1, 0, none, .plain⟩]⟩

def PRT_PTP_ADJ.TX_ADJ : Fld := ⟨0x438, 32, 32, .val 0x0, .any⟩
def PRT_PTP_ADJ.RX_ADJ : Fld := ⟨0x438, 0, 32, .val 0x0, .any⟩
/-- PRT_PTP_ADJ, frame offset 0x438, class 0x0030. -/
def PRT_PTP_ADJ.desc : RegDesc := ⟨0x438, 0, 1, 0, 0, .none,
   [⟨PRT_PTP_ADJ.TX_ADJ, .rw, 1, 0, none, .plain⟩,
    ⟨PRT_PTP_ADJ.RX_ADJ, .rw, 1, 0, none, .plain⟩]⟩

def PRT_RX_FRAMES.COUNT : Fld := ⟨0x800, 0, 64, .val 0x0, .any⟩
/-- PRT_RX_FRAMES, frame offset 0x800, class 0x0030. -/
def PRT_RX_FRAMES.desc : RegDesc := ⟨0x800, 0, 1, 0, 0, .none,
   [⟨PRT_RX_FRAMES.COUNT, .ro, 1, 0, none, .plain⟩]⟩

def PRT_RX_BYTES.COUNT : Fld := ⟨0x808, 0, 64, .val 0x0, .any⟩
/-- PRT_RX_BYTES, frame offset 0x808, class 0x0030. -/
def PRT_RX_BYTES.desc : RegDesc := ⟨0x808, 0, 1, 0, 0, .none,
   [⟨PRT_RX_BYTES.COUNT, .ro, 1, 0, none, .plain⟩]⟩

def PRT_RX_FCS_ERR.COUNT : Fld := ⟨0x810, 0, 64, .val 0x0, .any⟩
/-- PRT_RX_FCS_ERR, frame offset 0x810, class 0x0030. -/
def PRT_RX_FCS_ERR.desc : RegDesc := ⟨0x810, 0, 1, 0, 0, .none,
   [⟨PRT_RX_FCS_ERR.COUNT, .ro, 1, 0, none, .plain⟩]⟩

def PRT_RX_UNDERSIZE.COUNT : Fld := ⟨0x818, 0, 64, .val 0x0, .any⟩
/-- PRT_RX_UNDERSIZE, frame offset 0x818, class 0x0030. -/
def PRT_RX_UNDERSIZE.desc : RegDesc := ⟨0x818, 0, 1, 0, 0, .none,
   [⟨PRT_RX_UNDERSIZE.COUNT, .ro, 1, 0, none, .plain⟩]⟩

def PRT_RX_OVERSIZE.COUNT : Fld := ⟨0x820, 0, 64, .val 0x0, .any⟩
/-- PRT_RX_OVERSIZE, frame offset 0x820, class 0x0030. -/
def PRT_RX_OVERSIZE.desc : RegDesc := ⟨0x820, 0, 1, 0, 0, .none,
   [⟨PRT_RX_OVERSIZE.COUNT, .ro, 1, 0, none, .plain⟩]⟩

def PRT_RX_TRUNCATED.COUNT : Fld := ⟨0x828, 0, 64, .val 0x0, .any⟩
/-- PRT_RX_TRUNCATED, frame offset 0x828, class 0x0030. -/
def PRT_RX_TRUNCATED.desc : RegDesc := ⟨0x828, 0, 1, 0, 0, .none,
   [⟨PRT_RX_TRUNCATED.COUNT, .ro, 1, 0, none, .plain⟩]⟩

def PRT_RX_MAC_CTRL.COUNT : Fld := ⟨0x830, 0, 64, .val 0x0, .any⟩
/-- PRT_RX_MAC_CTRL, frame offset 0x830, class 0x0030. -/
def PRT_RX_MAC_CTRL.desc : RegDesc := ⟨0x830, 0, 1, 0, 0, .none,
   [⟨PRT_RX_MAC_CTRL.COUNT, .ro, 1, 0, none, .plain⟩]⟩

def PRT_TX_FRAMES.COUNT : Fld := ⟨0x838, 0, 64, .val 0x0, .any⟩
/-- PRT_TX_FRAMES, frame offset 0x838, class 0x0030. -/
def PRT_TX_FRAMES.desc : RegDesc := ⟨0x838, 0, 1, 0, 0, .none,
   [⟨PRT_TX_FRAMES.COUNT, .ro, 1, 0, none, .plain⟩]⟩

def PRT_TX_BYTES.COUNT : Fld := ⟨0x840, 0, 64, .val 0x0, .any⟩
/-- PRT_TX_BYTES, frame offset 0x840, class 0x0030. -/
def PRT_TX_BYTES.desc : RegDesc := ⟨0x840, 0, 1, 0, 0, .none,
   [⟨PRT_TX_BYTES.COUNT, .ro, 1, 0, none, .plain⟩]⟩

def PRT_TX_ABORT.COUNT : Fld := ⟨0x848, 0, 64, .val 0x0, .any⟩
/-- PRT_TX_ABORT, frame offset 0x848, class 0x0030. -/
def PRT_TX_ABORT.desc : RegDesc := ⟨0x848, 0, 1, 0, 0, .none,
   [⟨PRT_TX_ABORT.COUNT, .ro, 1, 0, none, .plain⟩]⟩

def PRT_TX_OVERSIZE.COUNT : Fld := ⟨0x850, 0, 64, .val 0x0, .any⟩
/-- PRT_TX_OVERSIZE, frame offset 0x850, class 0x0030. -/
def PRT_TX_OVERSIZE.desc : RegDesc := ⟨0x850, 0, 1, 0, 0, .none,
   [⟨PRT_TX_OVERSIZE.COUNT, .ro, 1, 0, none, .plain⟩]⟩

def PRT_FEC_CW_CORR.COUNT : Fld := ⟨0x858, 0, 64, .val 0x0, .any⟩
/-- PRT_FEC_CW_CORR, frame offset 0x858, class 0x0030. -/
def PRT_FEC_CW_CORR.desc : RegDesc := ⟨0x858, 0, 1, 0, 0, .none,
   [⟨PRT_FEC_CW_CORR.COUNT, .ro, 1, 0, none, .plain⟩]⟩

def PRT_FEC_CW_UNCORR.COUNT : Fld := ⟨0x860, 0, 64, .val 0x0, .any⟩
/-- PRT_FEC_CW_UNCORR, frame offset 0x860, class 0x0030. -/
def PRT_FEC_CW_UNCORR.desc : RegDesc := ⟨0x860, 0, 1, 0, 0, .none,
   [⟨PRT_FEC_CW_UNCORR.COUNT, .ro, 1, 0, none, .plain⟩]⟩

def PRT_LINK_DOWN.COUNT : Fld := ⟨0x868, 0, 64, .val 0x0, .any⟩
/-- PRT_LINK_DOWN, frame offset 0x868, class 0x0030. -/
def PRT_LINK_DOWN.desc : RegDesc := ⟨0x868, 0, 1, 0, 0, .none,
   [⟨PRT_LINK_DOWN.COUNT, .ro, 1, 0, none, .plain⟩]⟩

def PRT_TRAIN_FAIL.COUNT : Fld := ⟨0x870, 0, 64, .val 0x0, .any⟩
/-- PRT_TRAIN_FAIL, frame offset 0x870, class 0x0030. -/
def PRT_TRAIN_FAIL.desc : RegDesc := ⟨0x870, 0, 1, 0, 0, .none,
   [⟨PRT_TRAIN_FAIL.COUNT, .ro, 1, 0, none, .plain⟩]⟩

def PRT_FEC_SYM_CORR.COUNT : Fld := ⟨0x880, 0, 64, .val 0x0, .any⟩
/-- PRT_FEC_SYM_CORR, frame offset 0x880 + 8·i, class 0x0030. -/
def PRT_FEC_SYM_CORR.desc : RegDesc := ⟨0x880, 8, 8, 0, 0, .none,
   [⟨PRT_FEC_SYM_CORR.COUNT, .ro, 1, 0, none, .plain⟩]⟩

def FP_SGPIO_CFG.CHAIN_B_FAILED : Fld := ⟨0x1000, 33, 1, .val 0x0, .any⟩
def FP_SGPIO_CFG.CHAIN_A_FAILED : Fld := ⟨0x1000, 32, 1, .val 0x0, .any⟩
def FP_SGPIO_CFG.EN : Fld := ⟨0x1000, 8, 1, .val 0x0, .any⟩
def FP_SGPIO_CFG.CLK_DIV : Fld := ⟨0x1000, 0, 8, .val 0x20, .clamp 8 255⟩
/-- FP_SGPIO_CFG, frame offset 0x1000, F-die. -/
def FP_SGPIO_CFG.desc : RegDesc := ⟨0x1000, 0, 1, 0, 0, .none,
   [⟨FP_SGPIO_CFG.CHAIN_B_FAILED, .ro, 1, 0, none, .plain⟩,
    ⟨FP_SGPIO_CFG.CHAIN_A_FAILED, .ro, 1, 0, none, .plain⟩,
    ⟨FP_SGPIO_CFG.EN, .rw, 1, 0, none, .plain⟩,
    ⟨FP_SGPIO_CFG.CLK_DIV, .rw, 1, 0, none, .plain⟩]⟩

def FP_SGPIO_BAD.CHAIN_B_BAD : Fld := ⟨0x1008, 32, 32, .val 0x0, .any⟩
def FP_SGPIO_BAD.CHAIN_A_BAD : Fld := ⟨0x1008, 0, 32, .val 0x0, .any⟩
/-- FP_SGPIO_BAD, frame offset 0x1008, F-die. -/
def FP_SGPIO_BAD.desc : RegDesc := ⟨0x1008, 0, 1, 0, 0, .none,
   [⟨FP_SGPIO_BAD.CHAIN_B_BAD, .ro, 1, 0, none, .plain⟩,
    ⟨FP_SGPIO_BAD.CHAIN_A_BAD, .ro, 1, 0, none, .plain⟩]⟩

def FP_LED_CFG.LAMP_TEST : Fld := ⟨0x1010, 17, 1, .val 0x0, .any⟩
def FP_LED_CFG.EN : Fld := ⟨0x1010, 16, 1, .val 0x0, .any⟩
def FP_LED_CFG.FRAME_MS : Fld := ⟨0x1010, 8, 8, .val 0x0A, .clamp 1 255⟩
def FP_LED_CFG.CLK_DIV : Fld := ⟨0x1010, 0, 8, .val 0x40, .clamp 8 255⟩
/-- FP_LED_CFG, frame offset 0x1010, F-die. -/
def FP_LED_CFG.desc : RegDesc := ⟨0x1010, 0, 1, 0, 0, .none,
   [⟨FP_LED_CFG.LAMP_TEST, .rw, 1, 0, none, .plain⟩,
    ⟨FP_LED_CFG.EN, .rw, 1, 0, none, .plain⟩,
    ⟨FP_LED_CFG.FRAME_MS, .rw, 1, 0, none, .plain⟩,
    ⟨FP_LED_CFG.CLK_DIV, .rw, 1, 0, none, .plain⟩]⟩

def FP_I2C_CFG.SELECT_SETUP_US : Fld := ⟨0x1020, 32, 8, .val 0x02, .any⟩
def FP_I2C_CFG.STRETCH_MS : Fld := ⟨0x1020, 16, 16, .val 0x000A, .any⟩
def FP_I2C_CFG.MUX_ADDR : Fld := ⟨0x1020, 8, 7, .val 0x00, .any⟩
def FP_I2C_CFG.MUX_EN : Fld := ⟨0x1020, 2, 1, .val 0x0, .any⟩
def FP_I2C_CFG.SPEED : Fld := ⟨0x1020, 0, 2, .val 0x1, .any⟩
/-- FP_I2C_CFG, frame offset 0x1020 + 8·i, F-die. -/
def FP_I2C_CFG.desc : RegDesc := ⟨0x1020, 8, 8, 0, 0, .none,
   [⟨FP_I2C_CFG.SELECT_SETUP_US, .rw, 1, 0, none, .plain⟩,
    ⟨FP_I2C_CFG.STRETCH_MS, .rw, 1, 0, none, .plain⟩,
    ⟨FP_I2C_CFG.MUX_ADDR, .rw, 1, 0, none, .plain⟩,
    ⟨FP_I2C_CFG.MUX_EN, .rw, 1, 0, none, .plain⟩,
    ⟨FP_I2C_CFG.SPEED, .rw, 1, 0, some 2, .plain⟩]⟩

def FP_PPS_CFG.OUT_OFFSET : Fld := ⟨0x1060, 32, 32, .val 0x0, .any⟩
def FP_PPS_CFG.OUT_WIDTH_US : Fld := ⟨0x1060, 8, 24, .val 0x0186A0, .clamp 1 500000⟩
def FP_PPS_CFG.IN_EDGE : Fld := ⟨0x1060, 2, 1, .val 0x0, .any⟩
def FP_PPS_CFG.IN_EN : Fld := ⟨0x1060, 1, 1, .val 0x0, .any⟩
def FP_PPS_CFG.OUT_EN : Fld := ⟨0x1060, 0, 1, .val 0x0, .any⟩
/-- FP_PPS_CFG, frame offset 0x1060, F-die. -/
def FP_PPS_CFG.desc : RegDesc := ⟨0x1060, 0, 1, 0, 0, .none,
   [⟨FP_PPS_CFG.OUT_OFFSET, .rw, 1, 0, none, .plain⟩,
    ⟨FP_PPS_CFG.OUT_WIDTH_US, .rw, 1, 0, none, .plain⟩,
    ⟨FP_PPS_CFG.IN_EDGE, .rw, 1, 0, none, .plain⟩,
    ⟨FP_PPS_CFG.IN_EN, .rw, 1, 0, none, .plain⟩,
    ⟨FP_PPS_CFG.OUT_EN, .rw, 1, 0, none, .plain⟩]⟩

def FP_PPS_IN_TS.TIME : Fld := ⟨0x1068, 0, 64, .val 0x0, .any⟩
/-- FP_PPS_IN_TS, frame offset 0x1068, F-die. -/
def FP_PPS_IN_TS.desc : RegDesc := ⟨0x1068, 0, 1, 0, 0, .none,
   [⟨FP_PPS_IN_TS.TIME, .ro, 1, 0, none, .plain⟩]⟩

def FP_PPS_IN_INFO.FRAC : Fld := ⟨0x1070, 48, 16, .val 0x0, .any⟩
def FP_PPS_IN_INFO.COUNT : Fld := ⟨0x1070, 0, 32, .val 0x0, .any⟩
/-- FP_PPS_IN_INFO, frame offset 0x1070, F-die. -/
def FP_PPS_IN_INFO.desc : RegDesc := ⟨0x1070, 0, 1, 0, 0, .none,
   [⟨FP_PPS_IN_INFO.FRAC, .ro, 1, 0, none, .plain⟩,
    ⟨FP_PPS_IN_INFO.COUNT, .ro, 1, 0, none, .plain⟩]⟩

def FP_TOD_CFG.OUT_DELAY_MS : Fld := ⟨0x1078, 8, 8, .val 0x64, .clamp 10 200⟩
def FP_TOD_CFG.BAUD : Fld := ⟨0x1078, 4, 2, .val 0x1, .any⟩
def FP_TOD_CFG.IN_LOAD : Fld := ⟨0x1078, 2, 1, .val 0x0, .any⟩
def FP_TOD_CFG.IN_EN : Fld := ⟨0x1078, 1, 1, .val 0x0, .any⟩
def FP_TOD_CFG.OUT_EN : Fld := ⟨0x1078, 0, 1, .val 0x0, .any⟩
/-- FP_TOD_CFG, frame offset 0x1078, F-die. -/
def FP_TOD_CFG.desc : RegDesc := ⟨0x1078, 0, 1, 0, 0, .none,
   [⟨FP_TOD_CFG.OUT_DELAY_MS, .rw, 1, 0, none, .plain⟩,
    ⟨FP_TOD_CFG.BAUD, .rw, 1, 0, some 2, .plain⟩,
    ⟨FP_TOD_CFG.IN_LOAD, .rw, 1, 0, none, .plain⟩,
    ⟨FP_TOD_CFG.IN_EN, .rw, 1, 0, none, .plain⟩,
    ⟨FP_TOD_CFG.OUT_EN, .rw, 1, 0, none, .plain⟩]⟩

def FP_TOD_OUT_INFO.OFFSET_VARIANCE : Fld := ⟨0x1080, 48, 16, .val 0x0, .any⟩
def FP_TOD_OUT_INFO.TIME_SOURCE : Fld := ⟨0x1080, 40, 8, .val 0x0, .any⟩
def FP_TOD_OUT_INFO.CLOCK_ACCURACY : Fld := ⟨0x1080, 32, 8, .val 0x0, .any⟩
def FP_TOD_OUT_INFO.CLOCK_CLASS : Fld := ⟨0x1080, 24, 8, .val 0x0, .any⟩
def FP_TOD_OUT_INFO.FLAGS : Fld := ⟨0x1080, 16, 8, .val 0x0, .any⟩
def FP_TOD_OUT_INFO.UTC_OFFSET : Fld := ⟨0x1080, 0, 16, .val 0x0, .any⟩
/-- FP_TOD_OUT_INFO, frame offset 0x1080, F-die. -/
def FP_TOD_OUT_INFO.desc : RegDesc := ⟨0x1080, 0, 1, 0, 0, .none,
   [⟨FP_TOD_OUT_INFO.OFFSET_VARIANCE, .rw, 1, 0, none, .plain⟩,
    ⟨FP_TOD_OUT_INFO.TIME_SOURCE, .rw, 1, 0, none, .plain⟩,
    ⟨FP_TOD_OUT_INFO.CLOCK_ACCURACY, .rw, 1, 0, none, .plain⟩,
    ⟨FP_TOD_OUT_INFO.CLOCK_CLASS, .rw, 1, 0, none, .plain⟩,
    ⟨FP_TOD_OUT_INFO.FLAGS, .rw, 1, 0, none, .plain⟩,
    ⟨FP_TOD_OUT_INFO.UTC_OFFSET, .rw, 1, 0, none, .plain⟩]⟩

def FP_TOD_IN.SEQ : Fld := ⟨0x1088, 48, 16, .val 0x0, .any⟩
def FP_TOD_IN.SECONDS : Fld := ⟨0x1088, 0, 48, .val 0x0, .any⟩
/-- FP_TOD_IN, frame offset 0x1088, F-die. -/
def FP_TOD_IN.desc : RegDesc := ⟨0x1088, 0, 1, 0, 0, .none,
   [⟨FP_TOD_IN.SEQ, .ro, 1, 0, none, .plain⟩,
    ⟨FP_TOD_IN.SECONDS, .ro, 1, 0, none, .plain⟩]⟩

def FP_TOD_ERR.TOD_LATE : Fld := ⟨0x1090, 32, 32, .val 0x0, .any⟩
def FP_TOD_ERR.TOD_BAD : Fld := ⟨0x1090, 0, 32, .val 0x0, .any⟩
/-- FP_TOD_ERR, frame offset 0x1090, F-die. -/
def FP_TOD_ERR.desc : RegDesc := ⟨0x1090, 0, 1, 0, 0, .none,
   [⟨FP_TOD_ERR.TOD_LATE, .ro, 1, 0, none, .plain⟩,
    ⟨FP_TOD_ERR.TOD_BAD, .ro, 1, 0, none, .plain⟩]⟩

/-! ### spec/04_parsing_and_rules.md -/

def PRS_CFG.ROOT_NODE : Fld := ⟨0x400, 0, 6, .val 0x00, .any⟩
/-- PRS_CFG, frame offset 0x400, class 0x0013. -/
def PRS_CFG.desc : RegDesc := ⟨0x400, 0, 1, 0, 0, .none,
   [⟨PRS_CFG.ROOT_NODE, .rw, 1, 0, none, .plain⟩]⟩

def PRS_EXC_CFG.DEPTH_ACT : Fld := ⟨0x408, 30, 2, .val 0x1, .any⟩
def PRS_EXC_CFG.DEPTH_QUEUE : Fld := ⟨0x408, 24, 6, .val 0x01, .any⟩
def PRS_EXC_CFG.UNKNOWN_ACT : Fld := ⟨0x408, 22, 2, .val 0x1, .any⟩
def PRS_EXC_CFG.UNKNOWN_QUEUE : Fld := ⟨0x408, 16, 6, .val 0x03, .any⟩
def PRS_EXC_CFG.FRAG_ACT : Fld := ⟨0x408, 14, 2, .val 0x1, .any⟩
def PRS_EXC_CFG.FRAG_QUEUE : Fld := ⟨0x408, 8, 6, .val 0x02, .any⟩
def PRS_EXC_CFG.LEN_ACT : Fld := ⟨0x408, 6, 2, .val 0x0, .any⟩
def PRS_EXC_CFG.LEN_QUEUE : Fld := ⟨0x408, 0, 6, .val 0x00, .any⟩
/-- PRS_EXC_CFG, frame offset 0x408, class 0x0013. -/
def PRS_EXC_CFG.desc : RegDesc := ⟨0x408, 0, 1, 0, 0, .none,
   [⟨PRS_EXC_CFG.DEPTH_ACT, .rw, 1, 0, some 2, .plain⟩,
    ⟨PRS_EXC_CFG.DEPTH_QUEUE, .rw, 1, 0, none, .plain⟩,
    ⟨PRS_EXC_CFG.UNKNOWN_ACT, .rw, 1, 0, some 2, .plain⟩,
    ⟨PRS_EXC_CFG.UNKNOWN_QUEUE, .rw, 1, 0, none, .plain⟩,
    ⟨PRS_EXC_CFG.FRAG_ACT, .rw, 1, 0, some 2, .plain⟩,
    ⟨PRS_EXC_CFG.FRAG_QUEUE, .rw, 1, 0, none, .plain⟩,
    ⟨PRS_EXC_CFG.LEN_ACT, .rw, 1, 0, some 2, .plain⟩,
    ⟨PRS_EXC_CFG.LEN_QUEUE, .rw, 1, 0, none, .plain⟩]⟩

def PRS_FRAG_CFG.EN : Fld := ⟨0x410, 32, 1, .val 0x1, .any⟩
def PRS_FRAG_CFG.TIMEOUT_MS : Fld := ⟨0x410, 0, 32, .val 0x7D0, .clamp 10 60000⟩
/-- PRS_FRAG_CFG, frame offset 0x410, class 0x0013. -/
def PRS_FRAG_CFG.desc : RegDesc := ⟨0x410, 0, 1, 0, 0, .none,
   [⟨PRS_FRAG_CFG.EN, .rw, 1, 0, none, .plain⟩,
    ⟨PRS_FRAG_CFG.TIMEOUT_MS, .rw, 1, 0, none, .plain⟩]⟩

def FRAG_CREATED.COUNT : Fld := ⟨0x418, 0, 64, .val 0x0, .any⟩
/-- FRAG_CREATED, frame offset 0x418, class 0x0013. -/
def FRAG_CREATED.desc : RegDesc := ⟨0x418, 0, 1, 0, 0, .none,
   [⟨FRAG_CREATED.COUNT, .ro, 1, 0, none, .plain⟩]⟩

def FRAG_HIT.COUNT : Fld := ⟨0x420, 0, 64, .val 0x0, .any⟩
/-- FRAG_HIT, frame offset 0x420, class 0x0013. -/
def FRAG_HIT.desc : RegDesc := ⟨0x420, 0, 1, 0, 0, .none,
   [⟨FRAG_HIT.COUNT, .ro, 1, 0, none, .plain⟩]⟩

def FRAG_NO_ENTRY.COUNT : Fld := ⟨0x428, 0, 64, .val 0x0, .any⟩
/-- FRAG_NO_ENTRY, frame offset 0x428, class 0x0013. -/
def FRAG_NO_ENTRY.desc : RegDesc := ⟨0x428, 0, 1, 0, 0, .none,
   [⟨FRAG_NO_ENTRY.COUNT, .ro, 1, 0, none, .plain⟩]⟩

def FRAG_FULL.COUNT : Fld := ⟨0x430, 0, 64, .val 0x0, .any⟩
/-- FRAG_FULL, frame offset 0x430, class 0x0013. -/
def FRAG_FULL.desc : RegDesc := ⟨0x430, 0, 1, 0, 0, .none,
   [⟨FRAG_FULL.COUNT, .ro, 1, 0, none, .plain⟩]⟩

def FRAG_AGED.COUNT : Fld := ⟨0x438, 0, 64, .val 0x0, .any⟩
/-- FRAG_AGED, frame offset 0x438, class 0x0013. -/
def FRAG_AGED.desc : RegDesc := ⟨0x438, 0, 1, 0, 0, .none,
   [⟨FRAG_AGED.COUNT, .ro, 1, 0, none, .plain⟩]⟩

def FRAG_OCCUPANCY.COUNT : Fld := ⟨0x440, 0, 64, .val 0x0, .any⟩
/-- FRAG_OCCUPANCY, frame offset 0x440, class 0x0013. -/
def FRAG_OCCUPANCY.desc : RegDesc := ⟨0x440, 0, 1, 0, 0, .none,
   [⟨FRAG_OCCUPANCY.COUNT, .ro, 1, 0, none, .plain⟩]⟩

def PRS_DEPTH_CNT.COUNT : Fld := ⟨0x448, 0, 64, .val 0x0, .any⟩
/-- PRS_DEPTH_CNT, frame offset 0x448, class 0x0013. -/
def PRS_DEPTH_CNT.desc : RegDesc := ⟨0x448, 0, 1, 0, 0, .none,
   [⟨PRS_DEPTH_CNT.COUNT, .ro, 1, 0, none, .plain⟩]⟩

def PRS_UNKNOWN_CNT.COUNT : Fld := ⟨0x450, 0, 64, .val 0x0, .any⟩
/-- PRS_UNKNOWN_CNT, frame offset 0x450, class 0x0013. -/
def PRS_UNKNOWN_CNT.desc : RegDesc := ⟨0x450, 0, 1, 0, 0, .none,
   [⟨PRS_UNKNOWN_CNT.COUNT, .ro, 1, 0, none, .plain⟩]⟩

def PRS_NODE_LEN.VALID : Fld := ⟨0x1000, 63, 1, .val 0x0, .any⟩
def PRS_NODE_LEN.TERMINAL_OK : Fld := ⟨0x1000, 62, 1, .val 0x0, .any⟩
def PRS_NODE_LEN.PTP : Fld := ⟨0x1000, 61, 1, .val 0x0, .any⟩
def PRS_NODE_LEN.FIXED_LEN : Fld := ⟨0x1000, 32, 8, .val 0x00, .any⟩
def PRS_NODE_LEN.LEN_OFF : Fld := ⟨0x1000, 24, 8, .val 0x00, .any⟩
def PRS_NODE_LEN.LEN_SHIFT : Fld := ⟨0x1000, 20, 4, .val 0x0, .any⟩
def PRS_NODE_LEN.LEN_WIDTH : Fld := ⟨0x1000, 15, 5, .val 0x00, .clamp 0 16⟩
def PRS_NODE_LEN.LEN_SCALE : Fld := ⟨0x1000, 12, 3, .val 0x0, .any⟩
/-- PRS_NODE_LEN, frame offset 0x1000 + 32·i, class 0x0013. -/
def PRS_NODE_LEN.desc : RegDesc := ⟨0x1000, 32, 64, 0, 0, .none,
   [⟨PRS_NODE_LEN.VALID, .rw, 1, 0, none, .plain⟩,
    ⟨PRS_NODE_LEN.TERMINAL_OK, .rw, 1, 0, none, .plain⟩,
    ⟨PRS_NODE_LEN.PTP, .rw, 1, 0, none, .plain⟩,
    ⟨PRS_NODE_LEN.FIXED_LEN, .rw, 1, 0, none, .plain⟩,
    ⟨PRS_NODE_LEN.LEN_OFF, .rw, 1, 0, none, .plain⟩,
    ⟨PRS_NODE_LEN.LEN_SHIFT, .rw, 1, 0, none, .plain⟩,
    ⟨PRS_NODE_LEN.LEN_WIDTH, .rw, 1, 0, none, .plain⟩,
    ⟨PRS_NODE_LEN.LEN_SCALE, .rw, 1, 0, none, .plain⟩]⟩

def PRS_NODE_NEXT.NEXT_OFF : Fld := ⟨0x1008, 16, 8, .val 0x00, .any⟩
def PRS_NODE_NEXT.NEXT_SHIFT : Fld := ⟨0x1008, 12, 4, .val 0x0, .any⟩
def PRS_NODE_NEXT.NEXT_WIDTH : Fld := ⟨0x1008, 7, 5, .val 0x00, .clamp 0 16⟩
/-- PRS_NODE_NEXT, frame offset 0x1008 + 32·i, class 0x0013. -/
def PRS_NODE_NEXT.desc : RegDesc := ⟨0x1008, 32, 64, 0, 0, .none,
   [⟨PRS_NODE_NEXT.NEXT_OFF, .rw, 1, 0, none, .plain⟩,
    ⟨PRS_NODE_NEXT.NEXT_SHIFT, .rw, 1, 0, none, .plain⟩,
    ⟨PRS_NODE_NEXT.NEXT_WIDTH, .rw, 1, 0, none, .plain⟩]⟩

def PRS_NODE_CHECK.TOTLEN_EN : Fld := ⟨0x1010, 63, 1, .val 0x0, .any⟩
def PRS_NODE_CHECK.TOTLEN_OFF : Fld := ⟨0x1010, 40, 8, .val 0x00, .any⟩
def PRS_NODE_CHECK.TOTLEN_ADD : Fld := ⟨0x1010, 32, 8, .val 0x00, .any⟩
def PRS_NODE_CHECK.MIN_LEN : Fld := ⟨0x1010, 24, 8, .val 0x00, .any⟩
def PRS_NODE_CHECK.FRAG_KIND : Fld := ⟨0x1010, 0, 2, .val 0x0, .any⟩
/-- PRS_NODE_CHECK, frame offset 0x1010 + 32·i, class 0x0013. -/
def PRS_NODE_CHECK.desc : RegDesc := ⟨0x1010, 32, 64, 0, 0, .none,
   [⟨PRS_NODE_CHECK.TOTLEN_EN, .rw, 1, 0, none, .plain⟩,
    ⟨PRS_NODE_CHECK.TOTLEN_OFF, .rw, 1, 0, none, .plain⟩,
    ⟨PRS_NODE_CHECK.TOTLEN_ADD, .rw, 1, 0, none, .plain⟩,
    ⟨PRS_NODE_CHECK.MIN_LEN, .rw, 1, 0, none, .plain⟩,
    ⟨PRS_NODE_CHECK.FRAG_KIND, .rw, 1, 0, some 2, .plain⟩]⟩

def PRS_TRANS.VALID : Fld := ⟨0x1800, 63, 1, .val 0x0, .any⟩
def PRS_TRANS.FROM_NODE : Fld := ⟨0x1800, 48, 6, .val 0x00, .any⟩
def PRS_TRANS.VALUE : Fld := ⟨0x1800, 32, 16, .val 0x0000, .any⟩
def PRS_TRANS.MASK : Fld := ⟨0x1800, 16, 16, .val 0x0000, .any⟩
def PRS_TRANS.TO_NODE : Fld := ⟨0x1800, 0, 6, .val 0x00, .any⟩
/-- PRS_TRANS, frame offset 0x1800 + 8·i, class 0x0013. -/
def PRS_TRANS.desc : RegDesc := ⟨0x1800, 8, 256, 0, 0, .none,
   [⟨PRS_TRANS.VALID, .rw, 1, 0, none, .plain⟩,
    ⟨PRS_TRANS.FROM_NODE, .rw, 1, 0, none, .plain⟩,
    ⟨PRS_TRANS.VALUE, .rw, 1, 0, none, .plain⟩,
    ⟨PRS_TRANS.MASK, .rw, 1, 0, none, .plain⟩,
    ⟨PRS_TRANS.TO_NODE, .rw, 1, 0, none, .plain⟩]⟩

def PRS_LEN_CONFLICT.COUNT : Fld := ⟨0x2000, 0, 64, .val 0x0, .any⟩
/-- PRS_LEN_CONFLICT, frame offset 0x2000 + 8·i, class 0x0013. -/
def PRS_LEN_CONFLICT.desc : RegDesc := ⟨0x2000, 8, 128, 0, 0, .none,
   [⟨PRS_LEN_CONFLICT.COUNT, .ro, 1, 0, none, .plain⟩]⟩

def CLS_EPOCH.WINDOW_FULL : Fld := ⟨0x400, 12, 1, .val 0x0, .any⟩
def CLS_EPOCH.OLDEST : Fld := ⟨0x400, 8, 4, .val 0x0, .any⟩
def CLS_EPOCH.CUR_EPOCH : Fld := ⟨0x400, 0, 4, .val 0x0, .any⟩
/-- CLS_EPOCH, frame offset 0x400, class 0x0014. -/
def CLS_EPOCH.desc : RegDesc := ⟨0x400, 0, 1, 0, 0, .none,
   [⟨CLS_EPOCH.WINDOW_FULL, .ro, 1, 0, none, .plain⟩,
    ⟨CLS_EPOCH.OLDEST, .ro, 1, 0, none, .plain⟩,
    ⟨CLS_EPOCH.CUR_EPOCH, .ro, 1, 0, none, .plain⟩]⟩

def CLS_SPARE.USED : Fld := ⟨0x408, 7, 1, .val 0x0, .any⟩
def CLS_SPARE.BANK : Fld := ⟨0x408, 0, 4, .val 0x0, .any⟩
/-- CLS_SPARE, frame offset 0x408, class 0x0014. -/
def CLS_SPARE.desc : RegDesc := ⟨0x408, 0, 1, 0, 0, .none,
   [⟨CLS_SPARE.USED, .ro, 4, 8, none, .plain⟩,
    ⟨CLS_SPARE.BANK, .ro, 4, 8, none, .plain⟩]⟩

def CLS_ENTRY_FIX.COUNT : Fld := ⟨0x410, 0, 64, .val 0x0, .any⟩
/-- CLS_ENTRY_FIX, frame offset 0x410, class 0x0014. -/
def CLS_ENTRY_FIX.desc : RegDesc := ⟨0x410, 0, 1, 0, 0, .none,
   [⟨CLS_ENTRY_FIX.COUNT, .ro, 1, 0, none, .plain⟩]⟩

def CLS_PART_CFG.MISS_QUEUE : Fld := ⟨0x800, 34, 6, .val 0x00, .any⟩
def CLS_PART_CFG.MISS_DISP : Fld := ⟨0x800, 31, 3, .val 0x0, .any⟩
def CLS_PART_CFG.FAIL_MODE : Fld := ⟨0x800, 30, 1, .val 0x0, .any⟩
def CLS_PART_CFG.PASS_EN : Fld := ⟨0x800, 28, 2, .val 0x0, .any⟩
def CLS_PART_CFG.LAYOUT : Fld := ⟨0x800, 27, 1, .val 0x0, .any⟩
def CLS_PART_CFG.WIDTH : Fld := ⟨0x800, 25, 2, .val 0x0, .any⟩
def CLS_PART_CFG.KEY_PROFILE : Fld := ⟨0x800, 20, 5, .val 0x00, .any⟩
def CLS_PART_CFG.BANK_MASK : Fld := ⟨0x800, 0, 12, .val 0x000, .any⟩
/-- CLS_PART_CFG, frame offset 0x800 + 16·i, class 0x0014. -/
def CLS_PART_CFG.desc : RegDesc := ⟨0x800, 16, 16, 0, 0, .none,
   [⟨CLS_PART_CFG.MISS_QUEUE, .rw, 1, 0, none, .plain⟩,
    ⟨CLS_PART_CFG.MISS_DISP, .rw, 1, 0, some 2, .plain⟩,
    ⟨CLS_PART_CFG.FAIL_MODE, .rw, 1, 0, none, .plain⟩,
    ⟨CLS_PART_CFG.PASS_EN, .rw, 1, 0, none, .plain⟩,
    ⟨CLS_PART_CFG.LAYOUT, .rw, 1, 0, none, .plain⟩,
    ⟨CLS_PART_CFG.WIDTH, .rw, 1, 0, some 2, .plain⟩,
    ⟨CLS_PART_CFG.KEY_PROFILE, .rw, 1, 0, none, .plain⟩,
    ⟨CLS_PART_CFG.BANK_MASK, .rw, 1, 0, none, .plain⟩]⟩

def CLS_PART_STATE.VALID_B : Fld := ⟨0x808, 46, 18, .val 0x0, .any⟩
def CLS_PART_STATE.VALID_A : Fld := ⟨0x808, 28, 18, .val 0x0, .any⟩
def CLS_PART_STATE.ACT_EPOCH : Fld := ⟨0x808, 4, 4, .val 0x0, .any⟩
def CLS_PART_STATE.FAILED : Fld := ⟨0x808, 2, 1, .val 0x0, .any⟩
def CLS_PART_STATE.DRAINING : Fld := ⟨0x808, 1, 1, .val 0x0, .any⟩
def CLS_PART_STATE.ACT_SLOT : Fld := ⟨0x808, 0, 1, .val 0x0, .any⟩
/-- CLS_PART_STATE, frame offset 0x808 + 16·i, class 0x0014. -/
def CLS_PART_STATE.desc : RegDesc := ⟨0x808, 16, 16, 0, 0, .none,
   [⟨CLS_PART_STATE.VALID_B, .ro, 1, 0, none, .plain⟩,
    ⟨CLS_PART_STATE.VALID_A, .ro, 1, 0, none, .plain⟩,
    ⟨CLS_PART_STATE.ACT_EPOCH, .ro, 1, 0, none, .plain⟩,
    ⟨CLS_PART_STATE.FAILED, .ro, 1, 0, none, .plain⟩,
    ⟨CLS_PART_STATE.DRAINING, .ro, 1, 0, none, .plain⟩,
    ⟨CLS_PART_STATE.ACT_SLOT, .ro, 1, 0, none, .plain⟩]⟩

def CLS_KEY_PROFILE.EXTRACT3 : Fld := ⟨0x1000, 48, 16, .val 0x0000, .any⟩
def CLS_KEY_PROFILE.EXTRACT2 : Fld := ⟨0x1000, 32, 16, .val 0x0000, .any⟩
def CLS_KEY_PROFILE.EXTRACT1 : Fld := ⟨0x1000, 16, 16, .val 0x0000, .any⟩
def CLS_KEY_PROFILE.EXTRACT0 : Fld := ⟨0x1000, 0, 16, .val 0x0000, .any⟩
/-- CLS_KEY_PROFILE, frame offset 0x1000 + 8·i, class 0x0014. -/
def CLS_KEY_PROFILE.desc : RegDesc := ⟨0x1000, 8, 512, 0, 10, .none,
   [⟨CLS_KEY_PROFILE.EXTRACT3, .rw, 1, 0, none, .plain⟩,
    ⟨CLS_KEY_PROFILE.EXTRACT2, .rw, 1, 0, none, .plain⟩,
    ⟨CLS_KEY_PROFILE.EXTRACT1, .rw, 1, 0, none, .plain⟩,
    ⟨CLS_KEY_PROFILE.EXTRACT0, .rw, 1, 0, none, .plain⟩]⟩

def PNT_Q_CFG.BURST : Fld := ⟨0x2000, 48, 16, .val 0x0040, .clamp 1 65535⟩
def PNT_Q_CFG.RATE_PPS : Fld := ⟨0x2000, 24, 24, .val 0x002710, .any⟩
def PNT_Q_CFG.TARGET : Fld := ⟨0x2000, 16, 8, .val 0x00, .any⟩
def PNT_Q_CFG.DEST : Fld := ⟨0x2000, 14, 2, .val 0x0, .any⟩
def PNT_Q_CFG.EN : Fld := ⟨0x2000, 0, 1, .val 0x1, .any⟩
/-- PNT_Q_CFG, frame offset 0x2000 + 8·i, class 0x0014. -/
def PNT_Q_CFG.desc : RegDesc := ⟨0x2000, 8, 64, 0, 0, .none,
   [⟨PNT_Q_CFG.BURST, .rw, 1, 0, none, .plain⟩,
    ⟨PNT_Q_CFG.RATE_PPS, .rw, 1, 0, none, .plain⟩,
    ⟨PNT_Q_CFG.TARGET, .rw, 1, 0, none, .plain⟩,
    ⟨PNT_Q_CFG.DEST, .rw, 1, 0, none, .plain⟩,
    ⟨PNT_Q_CFG.EN, .rw, 1, 0, none, .plain⟩]⟩

def PNT_PASS.COUNT : Fld := ⟨0x2200, 0, 64, .val 0x0, .any⟩
/-- PNT_PASS, frame offset 0x2200 + 16·i, class 0x0014. -/
def PNT_PASS.desc : RegDesc := ⟨0x2200, 16, 64, 0, 0, .none,
   [⟨PNT_PASS.COUNT, .ro, 1, 0, none, .plain⟩]⟩

def PNT_DROP.COUNT : Fld := ⟨0x2208, 0, 64, .val 0x0, .any⟩
/-- PNT_DROP, frame offset 0x2208 + 16·i, class 0x0014. -/
def PNT_DROP.desc : RegDesc := ⟨0x2208, 16, 64, 0, 0, .none,
   [⟨PNT_DROP.COUNT, .ro, 1, 0, none, .plain⟩]⟩

def SIP_CFG.SHARE_PCT : Fld := ⟨0x400, 0, 4, .val 0xA, .outsideAs 1 10 10⟩
/-- SIP_CFG, frame offset 0x400, class 0x0018. -/
def SIP_CFG.desc : RegDesc := ⟨0x400, 0, 1, 0, 0, .none,
   [⟨SIP_CFG.SHARE_PCT, .rw, 1, 0, none, .plain⟩]⟩

def SIP_PASSES.COUNT : Fld := ⟨0x800, 0, 64, .val 0x0, .any⟩
/-- SIP_PASSES, frame offset 0x800 + 32·i, class 0x0018. -/
def SIP_PASSES.desc : RegDesc := ⟨0x800, 32, 4, 0, 0, .none,
   [⟨SIP_PASSES.COUNT, .ro, 1, 0, none, .plain⟩]⟩

def SIP_PASS_LIMIT.COUNT : Fld := ⟨0x808, 0, 64, .val 0x0, .any⟩
/-- SIP_PASS_LIMIT, frame offset 0x808 + 32·i, class 0x0018. -/
def SIP_PASS_LIMIT.desc : RegDesc := ⟨0x808, 32, 4, 0, 0, .none,
   [⟨SIP_PASS_LIMIT.COUNT, .ro, 1, 0, none, .plain⟩]⟩

def SIP_OVERFLOW.COUNT : Fld := ⟨0x810, 0, 64, .val 0x0, .any⟩
/-- SIP_OVERFLOW, frame offset 0x810 + 32·i, class 0x0018. -/
def SIP_OVERFLOW.desc : RegDesc := ⟨0x810, 32, 4, 0, 0, .none,
   [⟨SIP_OVERFLOW.COUNT, .ro, 1, 0, none, .plain⟩]⟩

/-! ### spec/05_route_and_exact_tables.md -/

def TBE_CFG.LABEL_MISS_QUEUE : Fld := ⟨0x400, 24, 6, .val 0x00, .any⟩
def TBE_CFG.SUMP_HIGH_PCT : Fld := ⟨0x400, 16, 8, .val 0x4B, .clamp 1 100⟩
def TBE_CFG.LABEL_MISS_PUNT : Fld := ⟨0x400, 10, 1, .val 0x0, .any⟩
def TBE_CFG.STATIC_MOVE_DROP : Fld := ⟨0x400, 9, 1, .val 0x0, .any⟩
def TBE_CFG.LEARN_MODE : Fld := ⟨0x400, 0, 2, .val 0x1, .any⟩
/-- TBE_CFG, frame offset 0x400, class 0x0016. -/
def TBE_CFG.desc : RegDesc := ⟨0x400, 0, 1, 0, 0, .none,
   [⟨TBE_CFG.LABEL_MISS_QUEUE, .rw, 1, 0, none, .plain⟩,
    ⟨TBE_CFG.SUMP_HIGH_PCT, .rw, 1, 0, none, .plain⟩,
    ⟨TBE_CFG.LABEL_MISS_PUNT, .rw, 1, 0, none, .plain⟩,
    ⟨TBE_CFG.STATIC_MOVE_DROP, .rw, 1, 0, none, .plain⟩,
    ⟨TBE_CFG.LEARN_MODE, .rw, 1, 0, some 2, .plain⟩]⟩

def TBE_LEARN_PORT0.EN : Fld := ⟨0x408, 0, 64, .val 0xFFFFFFFFFFFFFFFF, .any⟩
/-- TBE_LEARN_PORT0, frame offset 0x408, class 0x0016. -/
def TBE_LEARN_PORT0.desc : RegDesc := ⟨0x408, 0, 1, 0, 0, .none,
   [⟨TBE_LEARN_PORT0.EN, .rw, 1, 0, none, .plain⟩]⟩

def TBE_LEARN_PORT1.EN : Fld := ⟨0x410, 0, 64, .val 0xFFFFFFFFFFFFFFFF, .any⟩
/-- TBE_LEARN_PORT1, frame offset 0x410, class 0x0016. -/
def TBE_LEARN_PORT1.desc : RegDesc := ⟨0x410, 0, 1, 0, 0, .none,
   [⟨TBE_LEARN_PORT1.EN, .rw, 1, 0, none, .plain⟩]⟩

def TBE_HASH_SEED.SEED2 : Fld := ⟨0x418, 32, 32, .val 0x7A3108F3, .any⟩
def TBE_HASH_SEED.SEED1 : Fld := ⟨0x418, 0, 32, .val 0x1D6E4C35, .any⟩
/-- TBE_HASH_SEED, frame offset 0x418, class 0x0016. -/
def TBE_HASH_SEED.desc : RegDesc := ⟨0x418, 0, 1, 0, 0, .none,
   [⟨TBE_HASH_SEED.SEED2, .rw, 1, 0, none, .plain⟩,
    ⟨TBE_HASH_SEED.SEED1, .rw, 1, 0, none, .plain⟩]⟩

def TBE_FLOW_HASH.FLOW_SEED : Fld := ⟨0x420, 32, 32, .val 0x00000001, .any⟩
def TBE_FLOW_HASH.INPUT_PORT : Fld := ⟨0x420, 7, 1, .val 0x0, .any⟩
def TBE_FLOW_HASH.ENTROPY : Fld := ⟨0x420, 6, 1, .val 0x1, .any⟩
def TBE_FLOW_HASH.FLOW_LABEL : Fld := ⟨0x420, 5, 1, .val 0x0, .any⟩
def TBE_FLOW_HASH.DST_PORT : Fld := ⟨0x420, 4, 1, .val 0x1, .any⟩
def TBE_FLOW_HASH.SRC_PORT : Fld := ⟨0x420, 3, 1, .val 0x1, .any⟩
def TBE_FLOW_HASH.PROTO : Fld := ⟨0x420, 2, 1, .val 0x1, .any⟩
def TBE_FLOW_HASH.DST_ADDR : Fld := ⟨0x420, 1, 1, .val 0x1, .any⟩
def TBE_FLOW_HASH.SRC_ADDR : Fld := ⟨0x420, 0, 1, .val 0x1, .any⟩
/-- TBE_FLOW_HASH, frame offset 0x420, class 0x0016. -/
def TBE_FLOW_HASH.desc : RegDesc := ⟨0x420, 0, 1, 0, 0, .none,
   [⟨TBE_FLOW_HASH.FLOW_SEED, .rw, 1, 0, none, .plain⟩,
    ⟨TBE_FLOW_HASH.INPUT_PORT, .rw, 1, 0, none, .plain⟩,
    ⟨TBE_FLOW_HASH.ENTROPY, .rw, 1, 0, none, .plain⟩,
    ⟨TBE_FLOW_HASH.FLOW_LABEL, .rw, 1, 0, none, .plain⟩,
    ⟨TBE_FLOW_HASH.DST_PORT, .rw, 1, 0, none, .plain⟩,
    ⟨TBE_FLOW_HASH.SRC_PORT, .rw, 1, 0, none, .plain⟩,
    ⟨TBE_FLOW_HASH.PROTO, .rw, 1, 0, none, .plain⟩,
    ⟨TBE_FLOW_HASH.DST_ADDR, .rw, 1, 0, none, .plain⟩,
    ⟨TBE_FLOW_HASH.SRC_ADDR, .rw, 1, 0, none, .plain⟩]⟩

def TBE_SUMP.HIGH_WATER : Fld := ⟨0x428, 32, 14, .val 0x0, .any⟩
def TBE_SUMP.TBE_SUMP_OCC : Fld := ⟨0x428, 0, 14, .val 0x0, .any⟩
/-- TBE_SUMP, frame offset 0x428, class 0x0016. -/
def TBE_SUMP.desc : RegDesc := ⟨0x428, 0, 1, 0, 0, .none,
   [⟨TBE_SUMP.HIGH_WATER, .ro, 1, 0, none, .plain⟩,
    ⟨TBE_SUMP.TBE_SUMP_OCC, .ro, 1, 0, none, .plain⟩]⟩

def TBE_OCC0.LPM_USED : Fld := ⟨0x430, 32, 32, .val 0x0, .any⟩
def TBE_OCC0.EM_USED : Fld := ⟨0x430, 0, 32, .val 0x0, .any⟩
/-- TBE_OCC0, frame offset 0x430, class 0x0016. -/
def TBE_OCC0.desc : RegDesc := ⟨0x430, 0, 1, 0, 0, .none,
   [⟨TBE_OCC0.LPM_USED, .ro, 1, 0, none, .plain⟩,
    ⟨TBE_OCC0.EM_USED, .ro, 1, 0, none, .plain⟩]⟩

def TBE_OCC1.EM_LIMIT : Fld := ⟨0x438, 32, 32, .val 0x04000000, .any⟩
def TBE_OCC1.LPM_LIMIT : Fld := ⟨0x438, 0, 32, .val 0x00A00000, .any⟩
/-- TBE_OCC1, frame offset 0x438, class 0x0016. -/
def TBE_OCC1.desc : RegDesc := ⟨0x438, 0, 1, 0, 0, .none,
   [⟨TBE_OCC1.EM_LIMIT, .ro, 1, 0, none, .plain⟩,
    ⟨TBE_OCC1.LPM_LIMIT, .ro, 1, 0, none, .plain⟩]⟩

def TBE_NO_ROUTE.COUNT : Fld := ⟨0x800, 0, 64, .val 0x0, .any⟩
/-- TBE_NO_ROUTE, frame offset 0x800, class 0x0016. -/
def TBE_NO_ROUTE.desc : RegDesc := ⟨0x800, 0, 1, 0, 0, .none,
   [⟨TBE_NO_ROUTE.COUNT, .ro, 1, 0, none, .plain⟩]⟩

def TBE_LABEL_MISS.COUNT : Fld := ⟨0x808, 0, 64, .val 0x0, .any⟩
/-- TBE_LABEL_MISS, frame offset 0x808, class 0x0016. -/
def TBE_LABEL_MISS.desc : RegDesc := ⟨0x808, 0, 1, 0, 0, .none,
   [⟨TBE_LABEL_MISS.COUNT, .ro, 1, 0, none, .plain⟩]⟩

def TBE_NH_INVALID.COUNT : Fld := ⟨0x810, 0, 64, .val 0x0, .any⟩
/-- TBE_NH_INVALID, frame offset 0x810, class 0x0016. -/
def TBE_NH_INVALID.desc : RegDesc := ⟨0x810, 0, 1, 0, 0, .none,
   [⟨TBE_NH_INVALID.COUNT, .ro, 1, 0, none, .plain⟩]⟩

def TBE_NH_DROP.COUNT : Fld := ⟨0x818, 0, 64, .val 0x0, .any⟩
/-- TBE_NH_DROP, frame offset 0x818, class 0x0016. -/
def TBE_NH_DROP.desc : RegDesc := ⟨0x818, 0, 1, 0, 0, .none,
   [⟨TBE_NH_DROP.COUNT, .ro, 1, 0, none, .plain⟩]⟩

def TBE_LEARNS.COUNT : Fld := ⟨0x820, 0, 64, .val 0x0, .any⟩
/-- TBE_LEARNS, frame offset 0x820, class 0x0016. -/
def TBE_LEARNS.desc : RegDesc := ⟨0x820, 0, 1, 0, 0, .none,
   [⟨TBE_LEARNS.COUNT, .ro, 1, 0, none, .plain⟩]⟩

def TBE_LEARN_MERGED.COUNT : Fld := ⟨0x828, 0, 64, .val 0x0, .any⟩
/-- TBE_LEARN_MERGED, frame offset 0x828, class 0x0016. -/
def TBE_LEARN_MERGED.desc : RegDesc := ⟨0x828, 0, 1, 0, 0, .none,
   [⟨TBE_LEARN_MERGED.COUNT, .ro, 1, 0, none, .plain⟩]⟩

def TBE_LEARN_DROP.COUNT : Fld := ⟨0x830, 0, 64, .val 0x0, .any⟩
/-- TBE_LEARN_DROP, frame offset 0x830, class 0x0016. -/
def TBE_LEARN_DROP.desc : RegDesc := ⟨0x830, 0, 1, 0, 0, .none,
   [⟨TBE_LEARN_DROP.COUNT, .ro, 1, 0, none, .plain⟩]⟩

def TBE_MOVES.COUNT : Fld := ⟨0x838, 0, 64, .val 0x0, .any⟩
/-- TBE_MOVES, frame offset 0x838, class 0x0016. -/
def TBE_MOVES.desc : RegDesc := ⟨0x838, 0, 1, 0, 0, .none,
   [⟨TBE_MOVES.COUNT, .ro, 1, 0, none, .plain⟩]⟩

def TBE_STATIC_MOVES.COUNT : Fld := ⟨0x840, 0, 64, .val 0x0, .any⟩
/-- TBE_STATIC_MOVES, frame offset 0x840, class 0x0016. -/
def TBE_STATIC_MOVES.desc : RegDesc := ⟨0x840, 0, 1, 0, 0, .none,
   [⟨TBE_STATIC_MOVES.COUNT, .ro, 1, 0, none, .plain⟩]⟩

def TBE_AGED.COUNT : Fld := ⟨0x848, 0, 64, .val 0x0, .any⟩
/-- TBE_AGED, frame offset 0x848, class 0x0016. -/
def TBE_AGED.desc : RegDesc := ⟨0x848, 0, 1, 0, 0, .none,
   [⟨TBE_AGED.COUNT, .ro, 1, 0, none, .plain⟩]⟩

def TBE_AGE_CANCEL.COUNT : Fld := ⟨0x850, 0, 64, .val 0x0, .any⟩
/-- TBE_AGE_CANCEL, frame offset 0x850, class 0x0016. -/
def TBE_AGE_CANCEL.desc : RegDesc := ⟨0x850, 0, 1, 0, 0, .none,
   [⟨TBE_AGE_CANCEL.COUNT, .ro, 1, 0, none, .plain⟩]⟩

def TBE_ACT_LATE.COUNT : Fld := ⟨0x858, 0, 64, .val 0x0, .any⟩
/-- TBE_ACT_LATE, frame offset 0x858, class 0x0016. -/
def TBE_ACT_LATE.desc : RegDesc := ⟨0x858, 0, 1, 0, 0, .none,
   [⟨TBE_ACT_LATE.COUNT, .ro, 1, 0, none, .plain⟩]⟩

def TBE_RELOCATIONS.COUNT : Fld := ⟨0x860, 0, 64, .val 0x0, .any⟩
/-- TBE_RELOCATIONS, frame offset 0x860, class 0x0016. -/
def TBE_RELOCATIONS.desc : RegDesc := ⟨0x860, 0, 1, 0, 0, .none,
   [⟨TBE_RELOCATIONS.COUNT, .ro, 1, 0, none, .plain⟩]⟩

def TBE_SUMP_INSERTS.COUNT : Fld := ⟨0x868, 0, 64, .val 0x0, .any⟩
/-- TBE_SUMP_INSERTS, frame offset 0x868, class 0x0016. -/
def TBE_SUMP_INSERTS.desc : RegDesc := ⟨0x868, 0, 1, 0, 0, .none,
   [⟨TBE_SUMP_INSERTS.COUNT, .ro, 1, 0, none, .plain⟩]⟩

def TBE_TABLE_FULL.COUNT : Fld := ⟨0x870, 0, 64, .val 0x0, .any⟩
/-- TBE_TABLE_FULL, frame offset 0x870, class 0x0016. -/
def TBE_TABLE_FULL.desc : RegDesc := ⟨0x870, 0, 1, 0, 0, .none,
   [⟨TBE_TABLE_FULL.COUNT, .ro, 1, 0, none, .plain⟩]⟩

def TBE_LOOKUP_ECC.COUNT : Fld := ⟨0x878, 0, 64, .val 0x0, .any⟩
/-- TBE_LOOKUP_ECC, frame offset 0x878, class 0x0016. -/
def TBE_LOOKUP_ECC.desc : RegDesc := ⟨0x878, 0, 1, 0, 0, .none,
   [⟨TBE_LOOKUP_ECC.COUNT, .ro, 1, 0, none, .plain⟩]⟩

def TBE_ROUTE_GEN.COUNT : Fld := ⟨0x880, 0, 32, .val 0x0, .any⟩
/-- TBE_ROUTE_GEN, frame offset 0x880, class 0x0016. -/
def TBE_ROUTE_GEN.desc : RegDesc := ⟨0x880, 0, 1, 0, 0, .none,
   [⟨TBE_ROUTE_GEN.COUNT, .ro, 1, 0, none, .plain⟩]⟩

/-! ### spec/06_flumes.md -/

def LAT_STATUS.DISPATCH_HELD : Fld := ⟨0x400, 47, 1, .val 0x0, .any⟩
def LAT_STATUS.STORE_USED : Fld := ⟨0x400, 32, 15, .val 0x0, .any⟩
def LAT_STATUS.REORDER_USED : Fld := ⟨0x400, 0, 17, .val 0x0, .any⟩
/-- LAT_STATUS, frame offset 0x400, class 0x0010. -/
def LAT_STATUS.desc : RegDesc := ⟨0x400, 0, 1, 0, 0, .none,
   [⟨LAT_STATUS.DISPATCH_HELD, .ro, 1, 0, none, .plain⟩,
    ⟨LAT_STATUS.STORE_USED, .ro, 1, 0, none, .plain⟩,
    ⟨LAT_STATUS.REORDER_USED, .ro, 1, 0, none, .plain⟩]⟩

def LAT_OVERRUN.COUNT : Fld := ⟨0x408, 0, 64, .val 0x0, .any⟩
/-- LAT_OVERRUN, frame offset 0x408, class 0x0010. -/
def LAT_OVERRUN.desc : RegDesc := ⟨0x408, 0, 1, 0, 0, .none,
   [⟨LAT_OVERRUN.COUNT, .ro, 1, 0, none, .plain⟩]⟩

def LAT_DROP.COUNT : Fld := ⟨0x800, 0, 64, .val 0x0, .any⟩
/-- LAT_DROP, frame offset 0x800 + 8·i, class 0x0010. -/
def LAT_DROP.desc : RegDesc := ⟨0x800, 8, 16, 1, 0, .none,
   [⟨LAT_DROP.COUNT, .ro, 1, 0, none, .plain⟩]⟩

def FLM_STATUS.LAST_COMMIT : Fld := ⟨0x400, 32, 32, .val 0x0, .any⟩
def FLM_STATUS.WINDOW_USED : Fld := ⟨0x400, 0, 11, .val 0x0, .any⟩
/-- FLM_STATUS, frame offset 0x400, class 0x0011. -/
def FLM_STATUS.desc : RegDesc := ⟨0x400, 0, 1, 0, 0, .none,
   [⟨FLM_STATUS.LAST_COMMIT, .ro, 1, 0, none, .plain⟩,
    ⟨FLM_STATUS.WINDOW_USED, .ro, 1, 0, none, .plain⟩]⟩

def FLM_PASSES.COUNT : Fld := ⟨0x408, 0, 64, .val 0x0, .any⟩
/-- FLM_PASSES, frame offset 0x408, class 0x0011. -/
def FLM_PASSES.desc : RegDesc := ⟨0x408, 0, 1, 0, 0, .none,
   [⟨FLM_PASSES.COUNT, .ro, 1, 0, none, .plain⟩]⟩

def FLM_REPLAYED.COUNT : Fld := ⟨0x410, 0, 64, .val 0x0, .any⟩
/-- FLM_REPLAYED, frame offset 0x410, class 0x0011. -/
def FLM_REPLAYED.desc : RegDesc := ⟨0x410, 0, 1, 0, 0, .none,
   [⟨FLM_REPLAYED.COUNT, .ro, 1, 0, none, .plain⟩]⟩

def FLM_SENTINELS.COUNT : Fld := ⟨0x418, 0, 64, .val 0x0, .any⟩
/-- FLM_SENTINELS, frame offset 0x418, class 0x0011. -/
def FLM_SENTINELS.desc : RegDesc := ⟨0x418, 0, 1, 0, 0, .none,
   [⟨FLM_SENTINELS.COUNT, .ro, 1, 0, none, .plain⟩]⟩

def FLM_FAULT_DISCARD.COUNT : Fld := ⟨0x420, 0, 64, .val 0x0, .any⟩
/-- FLM_FAULT_DISCARD, frame offset 0x420, class 0x0011. -/
def FLM_FAULT_DISCARD.desc : RegDesc := ⟨0x420, 0, 1, 0, 0, .none,
   [⟨FLM_FAULT_DISCARD.COUNT, .ro, 1, 0, none, .plain⟩]⟩

def DST_FWD_CFG.PTP_TC_EN : Fld := ⟨0x400, 30, 1, .val 0x1, .any⟩
def DST_FWD_CFG.RMAC_QUEUE : Fld := ⟨0x400, 24, 6, .val 0x00, .any⟩
def DST_FWD_CFG.RMAC_PUNT : Fld := ⟨0x400, 23, 1, .val 0x0, .any⟩
def DST_FWD_CFG.RED_ACT : Fld := ⟨0x400, 22, 1, .val 0x1, .any⟩
def DST_FWD_CFG.YELLOW_ACT : Fld := ⟨0x400, 21, 1, .val 0x0, .any⟩
def DST_FWD_CFG.TTL_QUEUE : Fld := ⟨0x400, 15, 6, .val 0x00, .any⟩
def DST_FWD_CFG.TTL_PUNT : Fld := ⟨0x400, 14, 1, .val 0x1, .any⟩
/-- DST_FWD_CFG, frame offset 0x400, class 0x0017. -/
def DST_FWD_CFG.desc : RegDesc := ⟨0x400, 0, 1, 0, 0, .none,
   [⟨DST_FWD_CFG.PTP_TC_EN, .rw, 1, 0, none, .plain⟩,
    ⟨DST_FWD_CFG.RMAC_QUEUE, .rw, 1, 0, none, .plain⟩,
    ⟨DST_FWD_CFG.RMAC_PUNT, .rw, 1, 0, none, .plain⟩,
    ⟨DST_FWD_CFG.RED_ACT, .rw, 1, 0, none, .plain⟩,
    ⟨DST_FWD_CFG.YELLOW_ACT, .rw, 1, 0, none, .plain⟩,
    ⟨DST_FWD_CFG.TTL_QUEUE, .rw, 1, 0, none, .plain⟩,
    ⟨DST_FWD_CFG.TTL_PUNT, .rw, 1, 0, none, .plain⟩]⟩

def DST_RMAC.VALID : Fld := ⟨0x440, 63, 1, .val 0x0, .any⟩
def DST_RMAC.MAC : Fld := ⟨0x440, 0, 48, .val 0x0, .any⟩
/-- DST_RMAC, frame offset 0x440 + 8·i, class 0x0017. -/
def DST_RMAC.desc : RegDesc := ⟨0x440, 8, 16, 0, 0, .none,
   [⟨DST_RMAC.VALID, .rw, 1, 0, none, .plain⟩,
    ⟨DST_RMAC.MAC, .rw, 1, 0, none, .plain⟩]⟩

def DST_TUNNEL.EXTRACT_LO : Fld := ⟨0x4C0, 48, 16, .val 0x0000, .any⟩
def DST_TUNNEL.EXTRACT_HI : Fld := ⟨0x4C0, 32, 16, .val 0x0000, .any⟩
def DST_TUNNEL.VALID : Fld := ⟨0x4C0, 6, 1, .val 0x0, .any⟩
def DST_TUNNEL.NODE : Fld := ⟨0x4C0, 0, 6, .val 0x00, .any⟩
/-- DST_TUNNEL, frame offset 0x4C0 + 8·i, class 0x0017. -/
def DST_TUNNEL.desc : RegDesc := ⟨0x4C0, 8, 4, 0, 0, .none,
   [⟨DST_TUNNEL.EXTRACT_LO, .rw, 1, 0, none, .plain⟩,
    ⟨DST_TUNNEL.EXTRACT_HI, .rw, 1, 0, none, .plain⟩,
    ⟨DST_TUNNEL.VALID, .rw, 1, 0, none, .plain⟩,
    ⟨DST_TUNNEL.NODE, .rw, 1, 0, none, .plain⟩]⟩

def DST_MIRROR.SAMPLE_LOG2 : Fld := ⟨0x500, 48, 5, .val 0x00, .clamp 0 16⟩
def DST_MIRROR.TRUNCATE : Fld := ⟨0x500, 32, 14, .val 0x0, .clampOrZero 64 12288⟩
def DST_MIRROR.EN : Fld := ⟨0x500, 21, 1, .val 0x0, .any⟩
def DST_MIRROR.DROPPED_TOO : Fld := ⟨0x500, 20, 1, .val 0x0, .any⟩
def DST_MIRROR.CLASS : Fld := ⟨0x500, 17, 3, .val 0x0, .any⟩
def DST_MIRROR.DEST_SYSPORT : Fld := ⟨0x500, 0, 17, .val 0x0, .any⟩
/-- DST_MIRROR, frame offset 0x500 + 8·i, class 0x0017. -/
def DST_MIRROR.desc : RegDesc := ⟨0x500, 8, 16, 0, 0, .none,
   [⟨DST_MIRROR.SAMPLE_LOG2, .rw, 1, 0, none, .plain⟩,
    ⟨DST_MIRROR.TRUNCATE, .rw, 1, 0, none, .plain⟩,
    ⟨DST_MIRROR.EN, .rw, 1, 0, none, .plain⟩,
    ⟨DST_MIRROR.DROPPED_TOO, .rw, 1, 0, none, .plain⟩,
    ⟨DST_MIRROR.CLASS, .rw, 1, 0, none, .plain⟩,
    ⟨DST_MIRROR.DEST_SYSPORT, .rw, 1, 0, none, .plain⟩]⟩

def DST_MIR_DROP.COUNT : Fld := ⟨0x600, 0, 64, .val 0x0, .any⟩
/-- DST_MIR_DROP, frame offset 0x600 + 8·i, class 0x0017. -/
def DST_MIR_DROP.desc : RegDesc := ⟨0x600, 8, 16, 0, 0, .none,
   [⟨DST_MIR_DROP.COUNT, .ro, 1, 0, none, .plain⟩]⟩

def DST_CNT_LOST.COUNT : Fld := ⟨0x700, 0, 64, .val 0x0, .any⟩
/-- DST_CNT_LOST, frame offset 0x700, class 0x0017. -/
def DST_CNT_LOST.desc : RegDesc := ⟨0x700, 0, 1, 0, 0, .none,
   [⟨DST_CNT_LOST.COUNT, .ro, 1, 0, none, .plain⟩]⟩

def EDT_STATUS.PORT_GROUP : Fld := ⟨0x400, 0, 4, .portGroup, .any⟩
/-- EDT_STATUS, frame offset 0x400, class 0x0019. -/
def EDT_STATUS.desc : RegDesc := ⟨0x400, 0, 1, 0, 0, .none,
   [⟨EDT_STATUS.PORT_GROUP, .ro, 1, 0, none, .plain⟩]⟩

def EDT_CHECK_ERR.COUNT : Fld := ⟨0x808, 0, 64, .val 0x0, .any⟩
/-- EDT_CHECK_ERR, frame offset 0x808, class 0x0019. -/
def EDT_CHECK_ERR.desc : RegDesc := ⟨0x808, 0, 1, 0, 0, .none,
   [⟨EDT_CHECK_ERR.COUNT, .ro, 1, 0, none, .plain⟩]⟩

def EDT_SRC_SUPPRESS.COUNT : Fld := ⟨0x810, 0, 64, .val 0x0, .any⟩
/-- EDT_SRC_SUPPRESS, frame offset 0x810, class 0x0019. -/
def EDT_SRC_SUPPRESS.desc : RegDesc := ⟨0x810, 0, 1, 0, 0, .none,
   [⟨EDT_SRC_SUPPRESS.COUNT, .ro, 1, 0, none, .plain⟩]⟩

def EDT_ENCAP_ERR.COUNT : Fld := ⟨0x818, 0, 64, .val 0x0, .any⟩
/-- EDT_ENCAP_ERR, frame offset 0x818, class 0x0019. -/
def EDT_ENCAP_ERR.desc : RegDesc := ⟨0x818, 0, 1, 0, 0, .none,
   [⟨EDT_ENCAP_ERR.COUNT, .ro, 1, 0, none, .plain⟩]⟩

def EDT_EG_DROP.COUNT : Fld := ⟨0x820, 0, 64, .val 0x0, .any⟩
/-- EDT_EG_DROP, frame offset 0x820, class 0x0019. -/
def EDT_EG_DROP.desc : RegDesc := ⟨0x820, 0, 1, 0, 0, .none,
   [⟨EDT_EG_DROP.COUNT, .ro, 1, 0, none, .plain⟩]⟩

def EDT_PTP_SKIP.COUNT : Fld := ⟨0x828, 0, 64, .val 0x0, .any⟩
/-- EDT_PTP_SKIP, frame offset 0x828, class 0x0019. -/
def EDT_PTP_SKIP.desc : RegDesc := ⟨0x828, 0, 1, 0, 0, .none,
   [⟨EDT_PTP_SKIP.COUNT, .ro, 1, 0, none, .plain⟩]⟩

/-! ### spec/07_queues_and_buffers.md -/

def TMQ_CFG.GLOBAL_SPILL_PCT : Fld := ⟨0x400, 8, 8, .val 0x19, .clamp 1 100⟩
/-- TMQ_CFG, frame offset 0x400, class 0x0020. -/
def TMQ_CFG.desc : RegDesc := ⟨0x400, 0, 1, 0, 0, .none,
   [⟨TMQ_CFG.GLOBAL_SPILL_PCT, .rw, 1, 0, none, .plain⟩]⟩

def TMQ_DROP_VOQ.COUNT : Fld := ⟨0x800, 0, 64, .val 0x0, .any⟩
/-- TMQ_DROP_VOQ, frame offset 0x800 + 8·i, class 0x0020. -/
def TMQ_DROP_VOQ.desc : RegDesc := ⟨0x800, 8, 10, 1, 0, .none,
   [⟨TMQ_DROP_VOQ.COUNT, .ro, 1, 0, none, .plain⟩]⟩

def TMQ_DROP_EQ.COUNT : Fld := ⟨0x880, 0, 64, .val 0x0, .any⟩
/-- TMQ_DROP_EQ, frame offset 0x880 + 8·i, class 0x0020. -/
def TMQ_DROP_EQ.desc : RegDesc := ⟨0x880, 8, 10, 1, 0, .none,
   [⟨TMQ_DROP_EQ.COUNT, .ro, 1, 0, none, .plain⟩]⟩

def TMQ_ECN_MARK_VOQ.COUNT : Fld := ⟨0x900, 0, 64, .val 0x0, .any⟩
/-- TMQ_ECN_MARK_VOQ, frame offset 0x900, class 0x0020. -/
def TMQ_ECN_MARK_VOQ.desc : RegDesc := ⟨0x900, 0, 1, 0, 0, .none,
   [⟨TMQ_ECN_MARK_VOQ.COUNT, .ro, 1, 0, none, .plain⟩]⟩

def TMQ_ECN_MARK_EQ.COUNT : Fld := ⟨0x908, 0, 64, .val 0x0, .any⟩
/-- TMQ_ECN_MARK_EQ, frame offset 0x908, class 0x0020. -/
def TMQ_ECN_MARK_EQ.desc : RegDesc := ⟨0x908, 0, 1, 0, 0, .none,
   [⟨TMQ_ECN_MARK_EQ.COUNT, .ro, 1, 0, none, .plain⟩]⟩

def TMQ_PORT_SUB.SUB_MODE : Fld := ⟨0xC00, 16, 1, .val 0x0, .any⟩
def TMQ_PORT_SUB.DEFAULT_SUB : Fld := ⟨0xC00, 0, 15, .perIndex 0x100, .any⟩
/-- TMQ_PORT_SUB, frame offset 0xC00 + 8·i, class 0x0020. -/
def TMQ_PORT_SUB.desc : RegDesc := ⟨0xC00, 8, 128, 0, 0, .none,
   [⟨TMQ_PORT_SUB.SUB_MODE, .rw, 1, 0, none, .plain⟩,
    ⟨TMQ_PORT_SUB.DEFAULT_SUB, .rw, 1, 0, none, .plain⟩]⟩

def TMQ_AP_LIM.STATIC_MAX : Fld := ⟨0x1000, 44, 20, .val 0x04000, .any⟩
def TMQ_AP_LIM.MIN_GUAR : Fld := ⟨0x1000, 24, 20, .val 0x00010, .any⟩
def TMQ_AP_LIM.ALPHA_LOG2 : Fld := ⟨0x1000, 20, 4, .val 0x8, .any⟩
def TMQ_AP_LIM.W : Fld := ⟨0x1000, 16, 4, .val 0x4, .any⟩
def TMQ_AP_LIM.DYN_EN : Fld := ⟨0x1000, 3, 1, .val 0x1, .any⟩
def TMQ_AP_LIM.MARK_ABOVE : Fld := ⟨0x1000, 2, 1, .val 0x0, .any⟩
def TMQ_AP_LIM.ECN_EN : Fld := ⟨0x1000, 1, 1, .val 0x0, .any⟩
/-- TMQ_AP_LIM, frame offset 0x1000 + 48·i, class 0x0020. -/
def TMQ_AP_LIM.desc : RegDesc := ⟨0x1000, 48, 256, 0, 0, .none,
   [⟨TMQ_AP_LIM.STATIC_MAX, .rw, 1, 0, none, .plain⟩,
    ⟨TMQ_AP_LIM.MIN_GUAR, .rw, 1, 0, none, .plain⟩,
    ⟨TMQ_AP_LIM.ALPHA_LOG2, .rw, 1, 0, none, .plain⟩,
    ⟨TMQ_AP_LIM.W, .rw, 1, 0, none, .plain⟩,
    ⟨TMQ_AP_LIM.DYN_EN, .rw, 1, 0, none, .plain⟩,
    ⟨TMQ_AP_LIM.MARK_ABOVE, .rw, 1, 0, none, .plain⟩,
    ⟨TMQ_AP_LIM.ECN_EN, .rw, 1, 0, none, .plain⟩]⟩

def TMQ_AP_SPILL.SPILL_ON : Fld := ⟨0x1008, 44, 20, .val 0x00400, .any⟩
def TMQ_AP_SPILL.SPILL_OFF : Fld := ⟨0x1008, 24, 20, .val 0x00100, .any⟩
/-- TMQ_AP_SPILL, frame offset 0x1008 + 48·i, class 0x0020. -/
def TMQ_AP_SPILL.desc : RegDesc := ⟨0x1008, 48, 256, 0, 0, .none,
   [⟨TMQ_AP_SPILL.SPILL_ON, .rw, 1, 0, none, .plain⟩,
    ⟨TMQ_AP_SPILL.SPILL_OFF, .rw, 1, 0, none, .plain⟩]⟩

def TMQ_AP_G.MAX_TH : Fld := ⟨0x1010, 44, 20, .val 0x0, .any⟩
def TMQ_AP_G.MIN_TH : Fld := ⟨0x1010, 24, 20, .val 0x0, .any⟩
def TMQ_AP_G.MAX_P : Fld := ⟨0x1010, 16, 8, .val 0x00, .any⟩
def TMQ_AP_G.CURVE_EN : Fld := ⟨0x1010, 0, 1, .val 0x0, .any⟩
/-- TMQ_AP_G, frame offset 0x1010 + 48·i, class 0x0020. -/
def TMQ_AP_G.desc : RegDesc := ⟨0x1010, 48, 256, 0, 0, .none,
   [⟨TMQ_AP_G.MAX_TH, .rw, 1, 0, none, .plain⟩,
    ⟨TMQ_AP_G.MIN_TH, .rw, 1, 0, none, .plain⟩,
    ⟨TMQ_AP_G.MAX_P, .rw, 1, 0, none, .plain⟩,
    ⟨TMQ_AP_G.CURVE_EN, .rw, 1, 0, none, .plain⟩]⟩

def TMQ_AP_Y.MAX_TH : Fld := ⟨0x1018, 44, 20, .val 0x0, .any⟩
def TMQ_AP_Y.MIN_TH : Fld := ⟨0x1018, 24, 20, .val 0x0, .any⟩
def TMQ_AP_Y.MAX_P : Fld := ⟨0x1018, 16, 8, .val 0x00, .any⟩
def TMQ_AP_Y.CURVE_EN : Fld := ⟨0x1018, 0, 1, .val 0x0, .any⟩
/-- TMQ_AP_Y, frame offset 0x1018 + 48·i, class 0x0020. -/
def TMQ_AP_Y.desc : RegDesc := ⟨0x1018, 48, 256, 0, 0, .none,
   [⟨TMQ_AP_Y.MAX_TH, .rw, 1, 0, none, .plain⟩,
    ⟨TMQ_AP_Y.MIN_TH, .rw, 1, 0, none, .plain⟩,
    ⟨TMQ_AP_Y.MAX_P, .rw, 1, 0, none, .plain⟩,
    ⟨TMQ_AP_Y.CURVE_EN, .rw, 1, 0, none, .plain⟩]⟩

def TMQ_AP_R.MAX_TH : Fld := ⟨0x1020, 44, 20, .val 0x0, .any⟩
def TMQ_AP_R.MIN_TH : Fld := ⟨0x1020, 24, 20, .val 0x0, .any⟩
def TMQ_AP_R.MAX_P : Fld := ⟨0x1020, 16, 8, .val 0x00, .any⟩
def TMQ_AP_R.CURVE_EN : Fld := ⟨0x1020, 0, 1, .val 0x0, .any⟩
/-- TMQ_AP_R, frame offset 0x1020 + 48·i, class 0x0020. -/
def TMQ_AP_R.desc : RegDesc := ⟨0x1020, 48, 256, 0, 0, .none,
   [⟨TMQ_AP_R.MAX_TH, .rw, 1, 0, none, .plain⟩,
    ⟨TMQ_AP_R.MIN_TH, .rw, 1, 0, none, .plain⟩,
    ⟨TMQ_AP_R.MAX_P, .rw, 1, 0, none, .plain⟩,
    ⟨TMQ_AP_R.CURVE_EN, .rw, 1, 0, none, .plain⟩]⟩

def BPM_QUOTA_SEL.REQ : Fld := ⟨0x440, 8, 6, .val 0x00, .any⟩
def BPM_QUOTA_SEL.POOL : Fld := ⟨0x440, 0, 5, .val 0x00, .any⟩
/-- BPM_QUOTA_SEL, frame offset 0x440, class 0x0023. -/
def BPM_QUOTA_SEL.desc : RegDesc := ⟨0x440, 0, 1, 0, 0, .none,
   [⟨BPM_QUOTA_SEL.REQ, .rw, 1, 0, none, .plain⟩,
    ⟨BPM_QUOTA_SEL.POOL, .rw, 1, 0, none, .plain⟩]⟩

def BPM_QUOTA.MAX : Fld := ⟨0x448, 24, 24, .quotaMax, .any⟩
def BPM_QUOTA.GUAR : Fld := ⟨0x448, 0, 24, .quotaGuar, .any⟩
/-- BPM_QUOTA, frame offset 0x448, class 0x0023. -/
def BPM_QUOTA.desc : RegDesc := ⟨0x448, 0, 1, 0, 0, .quota,
   [⟨BPM_QUOTA.MAX, .rw, 1, 0, none, .plain⟩,
    ⟨BPM_QUOTA.GUAR, .rw, 1, 0, none, .plain⟩]⟩

def BPM_QUOTA_USE.USED : Fld := ⟨0x450, 0, 24, .val 0x0, .any⟩
/-- BPM_QUOTA_USE, frame offset 0x450, class 0x0023. -/
def BPM_QUOTA_USE.desc : RegDesc := ⟨0x450, 0, 1, 0, 0, .quota,
   [⟨BPM_QUOTA_USE.USED, .ro, 1, 0, none, .plain⟩]⟩

def BPM_POOL_CFG.EN : Fld := ⟨0x800, 63, 1, .pool 1 1 0, .any⟩
def BPM_POOL_CFG.COUNT : Fld := ⟨0x800, 24, 24, .pool 0x080000 0x700000 0, .any⟩
def BPM_POOL_CFG.HOME : Fld := ⟨0x800, 12, 1, .pool 0 1 0, .any⟩
def BPM_POOL_CFG.SIZE_LOG2 : Fld := ⟨0x800, 8, 4, .pool 8 11 8, .clamp 8 16⟩
def BPM_POOL_CFG.FB_EN : Fld := ⟨0x800, 5, 1, .val 0x0, .any⟩
def BPM_POOL_CFG.FALLBACK : Fld := ⟨0x800, 0, 5, .val 0x00, .any⟩
/-- BPM_POOL_CFG, frame offset 0x800 + 32·i, class 0x0023. -/
def BPM_POOL_CFG.desc : RegDesc := ⟨0x800, 32, 32, 0, 0, .none,
   [⟨BPM_POOL_CFG.EN, .rw, 1, 0, none, .plain⟩,
    ⟨BPM_POOL_CFG.COUNT, .rw, 1, 0, none, .poolCount⟩,
    ⟨BPM_POOL_CFG.HOME, .rw, 1, 0, none, .plain⟩,
    ⟨BPM_POOL_CFG.SIZE_LOG2, .rw, 1, 0, none, .plain⟩,
    ⟨BPM_POOL_CFG.FB_EN, .rw, 1, 0, none, .plain⟩,
    ⟨BPM_POOL_CFG.FALLBACK, .rw, 1, 0, none, .plain⟩]⟩

def BPM_POOL_STATUS.READY : Fld := ⟨0x808, 48, 1, .val 0x0, .any⟩
def BPM_POOL_STATUS.LOW_WATER : Fld := ⟨0x808, 24, 24, .val 0x0, .any⟩
def BPM_POOL_STATUS.FREE : Fld := ⟨0x808, 0, 24, .val 0x0, .any⟩
/-- BPM_POOL_STATUS, frame offset 0x808 + 32·i, class 0x0023. -/
def BPM_POOL_STATUS.desc : RegDesc := ⟨0x808, 32, 32, 0, 0, .none,
   [⟨BPM_POOL_STATUS.READY, .ro, 1, 0, none, .plain⟩,
    ⟨BPM_POOL_STATUS.LOW_WATER, .ro, 1, 0, none, .plain⟩,
    ⟨BPM_POOL_STATUS.FREE, .ro, 1, 0, none, .plain⟩]⟩

def BPM_POOL_REFUSED.COUNT : Fld := ⟨0x810, 0, 64, .val 0x0, .any⟩
/-- BPM_POOL_REFUSED, frame offset 0x810 + 32·i, class 0x0023. -/
def BPM_POOL_REFUSED.desc : RegDesc := ⟨0x810, 32, 32, 0, 0, .none,
   [⟨BPM_POOL_REFUSED.COUNT, .ro, 1, 0, none, .plain⟩]⟩

def BPM_POOL_FALLBACK.COUNT : Fld := ⟨0x818, 0, 64, .val 0x0, .any⟩
/-- BPM_POOL_FALLBACK, frame offset 0x818 + 32·i, class 0x0023. -/
def BPM_POOL_FALLBACK.desc : RegDesc := ⟨0x818, 32, 32, 0, 0, .none,
   [⟨BPM_POOL_FALLBACK.COUNT, .ro, 1, 0, none, .plain⟩]⟩

def BPM_DOUBLE_FREE.COUNT : Fld := ⟨0xC00, 0, 64, .val 0x0, .any⟩
/-- BPM_DOUBLE_FREE, frame offset 0xC00, class 0x0023. -/
def BPM_DOUBLE_FREE.desc : RegDesc := ⟨0xC00, 0, 1, 0, 0, .none,
   [⟨BPM_DOUBLE_FREE.COUNT, .ro, 1, 0, none, .plain⟩]⟩

def BPM_WRONG_OWNER.COUNT : Fld := ⟨0xC08, 0, 64, .val 0x0, .any⟩
/-- BPM_WRONG_OWNER, frame offset 0xC08, class 0x0023. -/
def BPM_WRONG_OWNER.desc : RegDesc := ⟨0xC08, 0, 1, 0, 0, .none,
   [⟨BPM_WRONG_OWNER.COUNT, .ro, 1, 0, none, .plain⟩]⟩

def BPM_REQ_FAIL.COUNT : Fld := ⟨0x1000, 0, 64, .val 0x0, .any⟩
/-- BPM_REQ_FAIL, frame offset 0x1000 + 8·i, class 0x0023. -/
def BPM_REQ_FAIL.desc : RegDesc := ⟨0x1000, 8, 64, 0, 0, .none,
   [⟨BPM_REQ_FAIL.COUNT, .ro, 1, 0, none, .plain⟩]⟩

def SPW_CFG.DEFER_FLOOR_PCT : Fld := ⟨0x400, 40, 8, .val 0x05, .clamp 0 50⟩
def SPW_CFG.BUCKET_KIB : Fld := ⟨0x400, 24, 16, .val 0x0400, .clamp 64 16384⟩
def SPW_CFG.ROT_CUT_PCT : Fld := ⟨0x400, 16, 8, .val 0x07, .clamp 0 25⟩
def SPW_CFG.BUDGET : Fld := ⟨0x400, 0, 16, .val 0x3200, .clamp 1000 12800⟩
/-- SPW_CFG, frame offset 0x400, class 0x0024. -/
def SPW_CFG.desc : RegDesc := ⟨0x400, 0, 1, 0, 0, .none,
   [⟨SPW_CFG.DEFER_FLOOR_PCT, .rw, 1, 0, none, .plain⟩,
    ⟨SPW_CFG.BUCKET_KIB, .rw, 1, 0, none, .plain⟩,
    ⟨SPW_CFG.ROT_CUT_PCT, .rw, 1, 0, none, .plain⟩,
    ⟨SPW_CFG.BUDGET, .rw, 1, 0, none, .plain⟩]⟩

def SPW_STATUS.IN_DEBT : Fld := ⟨0x408, 16, 1, .val 0x0, .any⟩
def SPW_STATUS.SHARE_PCT : Fld := ⟨0x408, 8, 8, .val 0x64, .any⟩
def SPW_STATUS.SHORT : Fld := ⟨0x408, 4, 4, .val 0x0, .any⟩
def SPW_STATUS.ROTATING : Fld := ⟨0x408, 0, 4, .val 0x0, .any⟩
/-- SPW_STATUS, frame offset 0x408, class 0x0024. -/
def SPW_STATUS.desc : RegDesc := ⟨0x408, 0, 1, 0, 0, .none,
   [⟨SPW_STATUS.IN_DEBT, .ro, 1, 0, none, .plain⟩,
    ⟨SPW_STATUS.SHARE_PCT, .ro, 1, 0, none, .plain⟩,
    ⟨SPW_STATUS.SHORT, .ro, 1, 0, none, .plain⟩,
    ⟨SPW_STATUS.ROTATING, .ro, 1, 0, none, .plain⟩]⟩

def SPW_BLOCKS_WRITTEN.COUNT : Fld := ⟨0x800, 0, 64, .val 0x0, .any⟩
/-- SPW_BLOCKS_WRITTEN, frame offset 0x800, class 0x0024. -/
def SPW_BLOCKS_WRITTEN.desc : RegDesc := ⟨0x800, 0, 1, 0, 0, .none,
   [⟨SPW_BLOCKS_WRITTEN.COUNT, .ro, 1, 0, none, .plain⟩]⟩

def SPW_BLOCKS_READ.COUNT : Fld := ⟨0x808, 0, 64, .val 0x0, .any⟩
/-- SPW_BLOCKS_READ, frame offset 0x808, class 0x0024. -/
def SPW_BLOCKS_READ.desc : RegDesc := ⟨0x808, 0, 1, 0, 0, .none,
   [⟨SPW_BLOCKS_READ.COUNT, .ro, 1, 0, none, .plain⟩]⟩

def SPW_DEFERRED.COUNT : Fld := ⟨0x810, 0, 64, .val 0x0, .any⟩
/-- SPW_DEFERRED, frame offset 0x810, class 0x0024. -/
def SPW_DEFERRED.desc : RegDesc := ⟨0x810, 0, 1, 0, 0, .none,
   [⟨SPW_DEFERRED.COUNT, .ro, 1, 0, none, .plain⟩]⟩

def SPW_READ_ERR.COUNT : Fld := ⟨0x818, 0, 64, .val 0x0, .any⟩
/-- SPW_READ_ERR, frame offset 0x818, class 0x0024. -/
def SPW_READ_ERR.desc : RegDesc := ⟨0x818, 0, 1, 0, 0, .none,
   [⟨SPW_READ_ERR.COUNT, .ro, 1, 0, none, .plain⟩]⟩

def SPW_LOST_BYTES.COUNT : Fld := ⟨0x820, 0, 64, .val 0x0, .any⟩
/-- SPW_LOST_BYTES, frame offset 0x820, class 0x0024. -/
def SPW_LOST_BYTES.desc : RegDesc := ⟨0x820, 0, 1, 0, 0, .none,
   [⟨SPW_LOST_BYTES.COUNT, .ro, 1, 0, none, .plain⟩]⟩

/-! ### spec/08_scheduling_shaping_sluices.md -/

def TMS_PAIR.TAKEOVERS : Fld := ⟨0x400, 32, 32, .val 0x0, .any⟩
def TMS_PAIR.STANDBY_SYNC : Fld := ⟨0x400, 16, 1, .val 0x0, .any⟩
def TMS_PAIR.ACTIVE_UN : Fld := ⟨0x400, 0, 16, .val 0x0061, .any⟩
/-- TMS_PAIR, frame offset 0x400, class 0x0021. -/
def TMS_PAIR.desc : RegDesc := ⟨0x400, 0, 1, 0, 0, .none,
   [⟨TMS_PAIR.TAKEOVERS, .ro, 1, 0, none, .plain⟩,
    ⟨TMS_PAIR.STANDBY_SYNC, .ro, 1, 0, none, .plain⟩,
    ⟨TMS_PAIR.ACTIVE_UN, .ro, 1, 0, none, .plain⟩]⟩

def TMS_PORT_CFG.HOLD_MS : Fld := ⟨0x800, 16, 14, .val 0x0064, .any⟩
def TMS_PORT_CFG.ADJ : Fld := ⟨0x800, 0, 8, .val 0x18, .any⟩
/-- TMS_PORT_CFG, frame offset 0x800 + 8·i, class 0x0021. -/
def TMS_PORT_CFG.desc : RegDesc := ⟨0x800, 8, 128, 0, 0, .none,
   [⟨TMS_PORT_CFG.HOLD_MS, .ro, 1, 0, none, .plain⟩,
    ⟨TMS_PORT_CFG.ADJ, .rw, 1, 0, none, .plain⟩]⟩

def TMS_PORT_STATUS.HOLD_STATE : Fld := ⟨0xC00, 32, 2, .val 0x2, .any⟩
def TMS_PORT_STATUS.HOLD_LEFT_MS : Fld := ⟨0xC00, 0, 14, .val 0x0, .any⟩
/-- TMS_PORT_STATUS, frame offset 0xC00 + 8·i, class 0x0021. -/
def TMS_PORT_STATUS.desc : RegDesc := ⟨0xC00, 8, 128, 0, 0, .none,
   [⟨TMS_PORT_STATUS.HOLD_STATE, .ro, 1, 0, none, .plain⟩,
    ⟨TMS_PORT_STATUS.HOLD_LEFT_MS, .ro, 1, 0, none, .plain⟩]⟩

def TMS_PORT_AGED.COUNT : Fld := ⟨0x1000, 0, 64, .val 0x0, .any⟩
/-- TMS_PORT_AGED, frame offset 0x1000 + 8·i, class 0x0021. -/
def TMS_PORT_AGED.desc : RegDesc := ⟨0x1000, 8, 128, 0, 0, .none,
   [⟨TMS_PORT_AGED.COUNT, .ro, 1, 0, none, .plain⟩]⟩

def TMS_PORT_FLUSH.COUNT : Fld := ⟨0x1400, 0, 64, .val 0x0, .any⟩
/-- TMS_PORT_FLUSH, frame offset 0x1400 + 8·i, class 0x0021. -/
def TMS_PORT_FLUSH.desc : RegDesc := ⟨0x1400, 8, 128, 0, 0, .none,
   [⟨TMS_PORT_FLUSH.COUNT, .ro, 1, 0, none, .plain⟩]⟩

def SLC_PORT_CFG.LEAD_NS : Fld := ⟨0x800, 16, 10, .val 0x12C, .any⟩
def SLC_PORT_CFG.GUARD_ADJ : Fld := ⟨0x800, 8, 8, .val 0x20, .any⟩
def SLC_PORT_CFG.GUARD_EN : Fld := ⟨0x800, 0, 1, .val 0x1, .any⟩
/-- SLC_PORT_CFG, frame offset 0x800 + 8·i, class 0x0027. -/
def SLC_PORT_CFG.desc : RegDesc := ⟨0x800, 8, 128, 0, 0, .none,
   [⟨SLC_PORT_CFG.LEAD_NS, .rw, 1, 0, none, .plain⟩,
    ⟨SLC_PORT_CFG.GUARD_ADJ, .rw, 1, 0, none, .plain⟩,
    ⟨SLC_PORT_CFG.GUARD_EN, .rw, 1, 0, none, .plain⟩]⟩

def SLC_PORT_STATUS.CUR_ENTRY : Fld := ⟨0xC00, 48, 10, .val 0x0, .any⟩
def SLC_PORT_STATUS.GATES : Fld := ⟨0xC00, 32, 8, .val 0xFF, .any⟩
def SLC_PORT_STATUS.STATE : Fld := ⟨0xC00, 0, 3, .val 0x0, .any⟩
/-- SLC_PORT_STATUS, frame offset 0xC00 + 8·i, class 0x0027. -/
def SLC_PORT_STATUS.desc : RegDesc := ⟨0xC00, 8, 128, 0, 0, .none,
   [⟨SLC_PORT_STATUS.CUR_ENTRY, .ro, 1, 0, none, .plain⟩,
    ⟨SLC_PORT_STATUS.GATES, .ro, 1, 0, none, .plain⟩,
    ⟨SLC_PORT_STATUS.STATE, .ro, 1, 0, none, .plain⟩]⟩

def SLC_OVERRUN.COUNT : Fld := ⟨0x1000, 0, 64, .val 0x0, .any⟩
/-- SLC_OVERRUN, frame offset 0x1000 + 8·i, class 0x0027. -/
def SLC_OVERRUN.desc : RegDesc := ⟨0x1000, 8, 128, 0, 0, .none,
   [⟨SLC_OVERRUN.COUNT, .ro, 1, 0, none, .plain⟩]⟩

def SLC_NEVER_FITS.COUNT : Fld := ⟨0x1400, 0, 64, .val 0x0, .any⟩
/-- SLC_NEVER_FITS, frame offset 0x1400 + 8·i, class 0x0027. -/
def SLC_NEVER_FITS.desc : RegDesc := ⟨0x1400, 8, 128, 0, 0, .none,
   [⟨SLC_NEVER_FITS.COUNT, .ro, 1, 0, none, .plain⟩]⟩

def SMP_CFG.SWEEP_MS : Fld := ⟨0x400, 16, 16, .val 0x0064, .clamp 10 60000⟩
def SMP_CFG.SWEEP_EVT : Fld := ⟨0x400, 3, 1, .val 0x0, .any⟩
def SMP_CFG.HOST_EN : Fld := ⟨0x400, 2, 1, .val 0x0, .any⟩
def SMP_CFG.CLUSTER_EN : Fld := ⟨0x400, 1, 1, .val 0x1, .any⟩
def SMP_CFG.EN : Fld := ⟨0x400, 0, 1, .val 0x1, .any⟩
/-- SMP_CFG, frame offset 0x400, class 0x0028. -/
def SMP_CFG.desc : RegDesc := ⟨0x400, 0, 1, 0, 0, .none,
   [⟨SMP_CFG.SWEEP_MS, .rw, 1, 0, none, .plain⟩,
    ⟨SMP_CFG.SWEEP_EVT, .rw, 1, 0, none, .plain⟩,
    ⟨SMP_CFG.HOST_EN, .rw, 1, 0, none, .plain⟩,
    ⟨SMP_CFG.CLUSTER_EN, .rw, 1, 0, none, .plain⟩,
    ⟨SMP_CFG.EN, .rw, 1, 0, none, .plain⟩]⟩

def SMP_STATUS.POSITION : Fld := ⟨0x408, 32, 21, .val 0x0, .any⟩
def SMP_STATUS.SWEEP : Fld := ⟨0x408, 0, 32, .val 0x0, .any⟩
/-- SMP_STATUS, frame offset 0x408, class 0x0028. -/
def SMP_STATUS.desc : RegDesc := ⟨0x408, 0, 1, 0, 0, .none,
   [⟨SMP_STATUS.POSITION, .ro, 1, 0, none, .plain⟩,
    ⟨SMP_STATUS.SWEEP, .ro, 1, 0, none, .plain⟩]⟩

def SMP_HOST_MISS.COUNT : Fld := ⟨0x410, 0, 64, .val 0x0, .any⟩
/-- SMP_HOST_MISS, frame offset 0x410, class 0x0028. -/
def SMP_HOST_MISS.desc : RegDesc := ⟨0x410, 0, 1, 0, 0, .none,
   [⟨SMP_HOST_MISS.COUNT, .ro, 1, 0, none, .plain⟩]⟩

def SMP_VOQ_AGED.COUNT : Fld := ⟨0x418, 0, 64, .val 0x0, .any⟩
/-- SMP_VOQ_AGED, frame offset 0x418, class 0x0028. -/
def SMP_VOQ_AGED.desc : RegDesc := ⟨0x418, 0, 1, 0, 0, .none,
   [⟨SMP_VOQ_AGED.COUNT, .ro, 1, 0, none, .plain⟩]⟩

def MTR_GREEN.COUNT : Fld := ⟨0x800, 0, 64, .val 0x0, .any⟩
/-- MTR_GREEN, frame offset 0x800, class 0x0029. -/
def MTR_GREEN.desc : RegDesc := ⟨0x800, 0, 1, 0, 0, .none,
   [⟨MTR_GREEN.COUNT, .ro, 1, 0, none, .plain⟩]⟩

def MTR_YELLOW.COUNT : Fld := ⟨0x808, 0, 64, .val 0x0, .any⟩
/-- MTR_YELLOW, frame offset 0x808, class 0x0029. -/
def MTR_YELLOW.desc : RegDesc := ⟨0x808, 0, 1, 0, 0, .none,
   [⟨MTR_YELLOW.COUNT, .ro, 1, 0, none, .plain⟩]⟩

def MTR_RED.COUNT : Fld := ⟨0x810, 0, 64, .val 0x0, .any⟩
/-- MTR_RED, frame offset 0x810, class 0x0029. -/
def MTR_RED.desc : RegDesc := ⟨0x810, 0, 1, 0, 0, .none,
   [⟨MTR_RED.COUNT, .ro, 1, 0, none, .plain⟩]⟩

def MTR_REPAIR.COUNT : Fld := ⟨0x818, 0, 64, .val 0x0, .any⟩
/-- MTR_REPAIR, frame offset 0x818, class 0x0029. -/
def MTR_REPAIR.desc : RegDesc := ⟨0x818, 0, 1, 0, 0, .none,
   [⟨MTR_REPAIR.COUNT, .ro, 1, 0, none, .plain⟩]⟩

/-! ### spec/09_fabric_interface.md -/

def ZFP_LINK_CFG.TRAIN_TIMEOUT_MS : Fld := ⟨0x400, 48, 16, .val 0x01F4, .clamp 10 10000⟩
def ZFP_LINK_CFG.TRAIN_ATTEMPTS : Fld := ⟨0x400, 40, 8, .val 0x03, .clamp 1 255⟩
def ZFP_LINK_CFG.RETRY_MS : Fld := ⟨0x400, 24, 16, .val 0x03E8, .clamp 10 60000⟩
def ZFP_LINK_CFG.TX_INV : Fld := ⟨0x400, 3, 1, .val 0x0, .any⟩
def ZFP_LINK_CFG.RX_INV : Fld := ⟨0x400, 2, 1, .val 0x0, .any⟩
def ZFP_LINK_CFG.ADMIN_UP : Fld := ⟨0x400, 0, 1, .val 0x0, .any⟩
/-- ZFP_LINK_CFG, frame offset 0x400, class 0x0031. -/
def ZFP_LINK_CFG.desc : RegDesc := ⟨0x400, 0, 1, 0, 0, .none,
   [⟨ZFP_LINK_CFG.TRAIN_TIMEOUT_MS, .rw, 1, 0, none, .plain⟩,
    ⟨ZFP_LINK_CFG.TRAIN_ATTEMPTS, .rw, 1, 0, none, .plain⟩,
    ⟨ZFP_LINK_CFG.RETRY_MS, .rw, 1, 0, none, .plain⟩,
    ⟨ZFP_LINK_CFG.TX_INV, .rw, 1, 0, none, .plain⟩,
    ⟨ZFP_LINK_CFG.RX_INV, .rw, 1, 0, none, .plain⟩,
    ⟨ZFP_LINK_CFG.ADMIN_UP, .rw, 1, 0, none, .plain⟩]⟩

def ZFP_LINK_STATUS.PEER_ID : Fld := ⟨0x408, 48, 16, .val 0x0, .any⟩
def ZFP_LINK_STATUS.UNACKED : Fld := ⟨0x408, 40, 8, .val 0x00, .any⟩
def ZFP_LINK_STATUS.DEATHS : Fld := ⟨0x408, 32, 8, .val 0x00, .any⟩
def ZFP_LINK_STATUS.DOWN_CAUSE : Fld := ⟨0x408, 8, 4, .val 0x0, .any⟩
def ZFP_LINK_STATUS.LINK_STATE : Fld := ⟨0x408, 0, 4, .val 0x0, .any⟩
/-- ZFP_LINK_STATUS, frame offset 0x408, class 0x0031. -/
def ZFP_LINK_STATUS.desc : RegDesc := ⟨0x408, 0, 1, 0, 0, .none,
   [⟨ZFP_LINK_STATUS.PEER_ID, .ro, 1, 0, none, .plain⟩,
    ⟨ZFP_LINK_STATUS.UNACKED, .ro, 1, 0, none, .plain⟩,
    ⟨ZFP_LINK_STATUS.DEATHS, .ro, 1, 0, none, .plain⟩,
    ⟨ZFP_LINK_STATUS.DOWN_CAUSE, .ro, 1, 0, none, .plain⟩,
    ⟨ZFP_LINK_STATUS.LINK_STATE, .ro, 1, 0, none, .plain⟩]⟩

def ZFP_LINK_REACH.VECTOR : Fld := ⟨0x500, 0, 64, .val 0x0, .any⟩
/-- ZFP_LINK_REACH, frame offset 0x500 + 8·i, class 0x0031. -/
def ZFP_LINK_REACH.desc : RegDesc := ⟨0x500, 8, 16, 0, 0, .none,
   [⟨ZFP_LINK_REACH.VECTOR, .ro, 1, 0, none, .plain⟩]⟩

def ZFP_CELLS_TX.COUNT : Fld := ⟨0x800, 0, 64, .val 0x0, .any⟩
/-- ZFP_CELLS_TX, frame offset 0x800, class 0x0031. -/
def ZFP_CELLS_TX.desc : RegDesc := ⟨0x800, 0, 1, 0, 0, .none,
   [⟨ZFP_CELLS_TX.COUNT, .ro, 1, 0, none, .plain⟩]⟩

def ZFP_CELLS_RX.COUNT : Fld := ⟨0x808, 0, 64, .val 0x0, .any⟩
/-- ZFP_CELLS_RX, frame offset 0x808, class 0x0031. -/
def ZFP_CELLS_RX.desc : RegDesc := ⟨0x808, 0, 1, 0, 0, .none,
   [⟨ZFP_CELLS_RX.COUNT, .ro, 1, 0, none, .plain⟩]⟩

def ZFP_CRC_ERR.COUNT : Fld := ⟨0x810, 0, 64, .val 0x0, .any⟩
/-- ZFP_CRC_ERR, frame offset 0x810, class 0x0031. -/
def ZFP_CRC_ERR.desc : RegDesc := ⟨0x810, 0, 1, 0, 0, .none,
   [⟨ZFP_CRC_ERR.COUNT, .ro, 1, 0, none, .plain⟩]⟩

def ZFP_FEC_UNCORR.COUNT : Fld := ⟨0x818, 0, 64, .val 0x0, .any⟩
/-- ZFP_FEC_UNCORR, frame offset 0x818, class 0x0031. -/
def ZFP_FEC_UNCORR.desc : RegDesc := ⟨0x818, 0, 1, 0, 0, .none,
   [⟨ZFP_FEC_UNCORR.COUNT, .ro, 1, 0, none, .plain⟩]⟩

def ZFP_NAK_TX.COUNT : Fld := ⟨0x820, 0, 64, .val 0x0, .any⟩
/-- ZFP_NAK_TX, frame offset 0x820, class 0x0031. -/
def ZFP_NAK_TX.desc : RegDesc := ⟨0x820, 0, 1, 0, 0, .none,
   [⟨ZFP_NAK_TX.COUNT, .ro, 1, 0, none, .plain⟩]⟩

def ZFP_NAK_RX.COUNT : Fld := ⟨0x828, 0, 64, .val 0x0, .any⟩
/-- ZFP_NAK_RX, frame offset 0x828, class 0x0031. -/
def ZFP_NAK_RX.desc : RegDesc := ⟨0x828, 0, 1, 0, 0, .none,
   [⟨ZFP_NAK_RX.COUNT, .ro, 1, 0, none, .plain⟩]⟩

def ZFP_RETRY_CELLS.COUNT : Fld := ⟨0x830, 0, 64, .val 0x0, .any⟩
/-- ZFP_RETRY_CELLS, frame offset 0x830, class 0x0031. -/
def ZFP_RETRY_CELLS.desc : RegDesc := ⟨0x830, 0, 1, 0, 0, .none,
   [⟨ZFP_RETRY_CELLS.COUNT, .ro, 1, 0, none, .plain⟩]⟩

def ZFP_OOS_DISCARD.COUNT : Fld := ⟨0x838, 0, 64, .val 0x0, .any⟩
/-- ZFP_OOS_DISCARD, frame offset 0x838, class 0x0031. -/
def ZFP_OOS_DISCARD.desc : RegDesc := ⟨0x838, 0, 1, 0, 0, .none,
   [⟨ZFP_OOS_DISCARD.COUNT, .ro, 1, 0, none, .plain⟩]⟩

def ZFP_RESPRAYED.COUNT : Fld := ⟨0x840, 0, 64, .val 0x0, .any⟩
/-- ZFP_RESPRAYED, frame offset 0x840, class 0x0031. -/
def ZFP_RESPRAYED.desc : RegDesc := ⟨0x840, 0, 1, 0, 0, .none,
   [⟨ZFP_RESPRAYED.COUNT, .ro, 1, 0, none, .plain⟩]⟩

def ZFP_LINK_DOWN.COUNT : Fld := ⟨0x848, 0, 64, .val 0x0, .any⟩
/-- ZFP_LINK_DOWN, frame offset 0x848, class 0x0031. -/
def ZFP_LINK_DOWN.desc : RegDesc := ⟨0x848, 0, 1, 0, 0, .none,
   [⟨ZFP_LINK_DOWN.COUNT, .ro, 1, 0, none, .plain⟩]⟩

def ZFP_TRAIN_FAIL.COUNT : Fld := ⟨0x850, 0, 64, .val 0x0, .any⟩
/-- ZFP_TRAIN_FAIL, frame offset 0x850, class 0x0031. -/
def ZFP_TRAIN_FAIL.desc : RegDesc := ⟨0x850, 0, 1, 0, 0, .none,
   [⟨ZFP_TRAIN_FAIL.COUNT, .ro, 1, 0, none, .plain⟩]⟩

def ZFP_DEV_CFG.DEATH_MAX : Fld := ⟨0x400, 60, 4, .val 0x4, .clamp 1 15⟩
def ZFP_DEV_CFG.RETRY_MAX : Fld := ⟨0x400, 56, 4, .val 0x8, .clamp 2 15⟩
def ZFP_DEV_CFG.RETRY_TIMEOUT_NS : Fld := ⟨0x400, 40, 16, .val 0x07D0, .clamp 500 20000⟩
def ZFP_DEV_CFG.REACH_TIMEOUT_US : Fld := ⟨0x400, 24, 16, .val 0x012C, .clamp 200 10000⟩
def ZFP_DEV_CFG.FULL_LINKS : Fld := ⟨0x400, 16, 8, .val 0x90, .clamp 1 160⟩
def ZFP_DEV_CFG.EN : Fld := ⟨0x400, 10, 1, .val 0x0, .any⟩
def ZFP_DEV_CFG.DEVICE_ID : Fld := ⟨0x400, 0, 10, .val 0x000, .any⟩
/-- ZFP_DEV_CFG, frame offset 0x400, class 0x0032. -/
def ZFP_DEV_CFG.desc : RegDesc := ⟨0x400, 0, 1, 0, 0, .none,
   [⟨ZFP_DEV_CFG.DEATH_MAX, .rw, 1, 0, none, .plain⟩,
    ⟨ZFP_DEV_CFG.RETRY_MAX, .rw, 1, 0, none, .plain⟩,
    ⟨ZFP_DEV_CFG.RETRY_TIMEOUT_NS, .rw, 1, 0, none, .plain⟩,
    ⟨ZFP_DEV_CFG.REACH_TIMEOUT_US, .rw, 1, 0, none, .plain⟩,
    ⟨ZFP_DEV_CFG.FULL_LINKS, .rw, 1, 0, none, .plain⟩,
    ⟨ZFP_DEV_CFG.EN, .rw, 1, 0, none, .plain⟩,
    ⟨ZFP_DEV_CFG.DEVICE_ID, .rw, 1, 0, none, .deviceId⟩]⟩

def ZFP_MC_CFG.MC_RATE_HI : Fld := ⟨0x408, 48, 16, .val 0x0C80, .any⟩
def ZFP_MC_CFG.MC_RATE_LO : Fld := ⟨0x408, 32, 16, .val 0x0C80, .any⟩
def ZFP_MC_CFG.MC_HI_CLASS : Fld := ⟨0x408, 8, 3, .val 0x6, .any⟩
def ZFP_MC_CFG.MC_PORT : Fld := ⟨0x408, 0, 7, .val 0x7F, .any⟩
/-- ZFP_MC_CFG, frame offset 0x408, class 0x0032. -/
def ZFP_MC_CFG.desc : RegDesc := ⟨0x408, 0, 1, 0, 0, .none,
   [⟨ZFP_MC_CFG.MC_RATE_HI, .rw, 1, 0, none, .plain⟩,
    ⟨ZFP_MC_CFG.MC_RATE_LO, .rw, 1, 0, none, .plain⟩,
    ⟨ZFP_MC_CFG.MC_HI_CLASS, .rw, 1, 0, none, .plain⟩,
    ⟨ZFP_MC_CFG.MC_PORT, .rw, 1, 0, none, .plain⟩]⟩

def ZFP_STATUS.CAPACITY_PPM : Fld := ⟨0x410, 32, 20, .val 0x0, .any⟩
def ZFP_STATUS.DEVICES_REACHED : Fld := ⟨0x410, 16, 11, .val 0x0, .any⟩
def ZFP_STATUS.MIN_REACH : Fld := ⟨0x410, 8, 8, .val 0x00, .any⟩
def ZFP_STATUS.LINKS_UP : Fld := ⟨0x410, 0, 8, .val 0x00, .any⟩
/-- ZFP_STATUS, frame offset 0x410, class 0x0032. -/
def ZFP_STATUS.desc : RegDesc := ⟨0x410, 0, 1, 0, 0, .none,
   [⟨ZFP_STATUS.CAPACITY_PPM, .ro, 1, 0, none, .plain⟩,
    ⟨ZFP_STATUS.DEVICES_REACHED, .ro, 1, 0, none, .plain⟩,
    ⟨ZFP_STATUS.MIN_REACH, .ro, 1, 0, none, .plain⟩,
    ⟨ZFP_STATUS.LINKS_UP, .ro, 1, 0, none, .plain⟩]⟩

def ZFP_RESPRAY_DROP.COUNT : Fld := ⟨0x800, 0, 64, .val 0x0, .any⟩
/-- ZFP_RESPRAY_DROP, frame offset 0x800, class 0x0032. -/
def ZFP_RESPRAY_DROP.desc : RegDesc := ⟨0x800, 0, 1, 0, 0, .none,
   [⟨ZFP_RESPRAY_DROP.COUNT, .ro, 1, 0, none, .plain⟩]⟩

def ZFP_CREDIT_WASTE.COUNT : Fld := ⟨0x808, 0, 64, .val 0x0, .any⟩
/-- ZFP_CREDIT_WASTE, frame offset 0x808, class 0x0032. -/
def ZFP_CREDIT_WASTE.desc : RegDesc := ⟨0x808, 0, 1, 0, 0, .none,
   [⟨ZFP_CREDIT_WASTE.COUNT, .ro, 1, 0, none, .plain⟩]⟩

def ZFP_MC_UNREACH.COUNT : Fld := ⟨0x810, 0, 64, .val 0x0, .any⟩
/-- ZFP_MC_UNREACH, frame offset 0x810, class 0x0032. -/
def ZFP_MC_UNREACH.desc : RegDesc := ⟨0x810, 0, 1, 0, 0, .none,
   [⟨ZFP_MC_UNREACH.COUNT, .ro, 1, 0, none, .plain⟩]⟩

def ZFP_CTRL_BAD.COUNT : Fld := ⟨0x818, 0, 64, .val 0x0, .any⟩
/-- ZFP_CTRL_BAD, frame offset 0x818, class 0x0032. -/
def ZFP_CTRL_BAD.desc : RegDesc := ⟨0x818, 0, 1, 0, 0, .none,
   [⟨ZFP_CTRL_BAD.COUNT, .ro, 1, 0, none, .plain⟩]⟩

def ZFP_CTRL_DUP.COUNT : Fld := ⟨0x820, 0, 64, .val 0x0, .any⟩
/-- ZFP_CTRL_DUP, frame offset 0x820, class 0x0032. -/
def ZFP_CTRL_DUP.desc : RegDesc := ⟨0x820, 0, 1, 0, 0, .none,
   [⟨ZFP_CTRL_DUP.COUNT, .ro, 1, 0, none, .plain⟩]⟩

def CRD_CFG.REFRESH_US : Fld := ⟨0x400, 48, 16, .val 0x0014, .clamp 1 1000⟩
def CRD_CFG.EQ_LIMIT_KIB : Fld := ⟨0x400, 32, 16, .val 0x0400, .any⟩
def CRD_CFG.RATE_PCT : Fld := ⟨0x400, 16, 8, .val 0x69, .clamp 100 120⟩
def CRD_CFG.CREDIT_KIB : Fld := ⟨0x400, 0, 5, .val 0x04, .clamp 1 16⟩
/-- CRD_CFG, frame offset 0x400, class 0x0022. -/
def CRD_CFG.desc : RegDesc := ⟨0x400, 0, 1, 0, 0, .none,
   [⟨CRD_CFG.REFRESH_US, .rw, 1, 0, none, .plain⟩,
    ⟨CRD_CFG.EQ_LIMIT_KIB, .rw, 1, 0, none, .plain⟩,
    ⟨CRD_CFG.RATE_PCT, .rw, 1, 0, none, .plain⟩,
    ⟨CRD_CFG.CREDIT_KIB, .rw, 1, 0, none, .plain⟩]⟩

def CRD_CLASS_WT.WT : Fld := ⟨0x408, 0, 8, .val 0x01, .clamp 1 255⟩
/-- CRD_CLASS_WT, frame offset 0x408, class 0x0022. -/
def CRD_CLASS_WT.desc : RegDesc := ⟨0x408, 0, 1, 0, 0, .none,
   [⟨CRD_CLASS_WT.WT, .rw, 8, 8, none, .plain⟩]⟩

def CRD_GRANTS.COUNT : Fld := ⟨0x800, 0, 64, .val 0x0, .any⟩
/-- CRD_GRANTS, frame offset 0x800, class 0x0022. -/
def CRD_GRANTS.desc : RegDesc := ⟨0x800, 0, 1, 0, 0, .none,
   [⟨CRD_GRANTS.COUNT, .ro, 1, 0, none, .plain⟩]⟩

def CRD_REQ_RX.COUNT : Fld := ⟨0x808, 0, 64, .val 0x0, .any⟩
/-- CRD_REQ_RX, frame offset 0x808, class 0x0022. -/
def CRD_REQ_RX.desc : RegDesc := ⟨0x808, 0, 1, 0, 0, .none,
   [⟨CRD_REQ_RX.COUNT, .ro, 1, 0, none, .plain⟩]⟩

def CRD_PORT_STATE_TX.COUNT : Fld := ⟨0x810, 0, 64, .val 0x0, .any⟩
/-- CRD_PORT_STATE_TX, frame offset 0x810, class 0x0022. -/
def CRD_PORT_STATE_TX.desc : RegDesc := ⟨0x810, 0, 1, 0, 0, .none,
   [⟨CRD_PORT_STATE_TX.COUNT, .ro, 1, 0, none, .plain⟩]⟩

def RSQ_CFG.MC_HOLD_NS : Fld := ⟨0x400, 48, 16, .val 0x0FA0, .clamp 500 20000⟩
def RSQ_CFG.CTX_MAX : Fld := ⟨0x400, 32, 16, .val 0x4000, .clamp 64 32767⟩
def RSQ_CFG.TIMEOUT_US : Fld := ⟨0x400, 0, 10, .val 0x014, .clamp 1 1000⟩
/-- RSQ_CFG, frame offset 0x400, class 0x0025. -/
def RSQ_CFG.desc : RegDesc := ⟨0x400, 0, 1, 0, 0, .none,
   [⟨RSQ_CFG.MC_HOLD_NS, .rw, 1, 0, none, .plain⟩,
    ⟨RSQ_CFG.CTX_MAX, .rw, 1, 0, none, .plain⟩,
    ⟨RSQ_CFG.TIMEOUT_US, .rw, 1, 0, none, .plain⟩]⟩

def RSQ_DUP.COUNT : Fld := ⟨0x800, 0, 64, .val 0x0, .any⟩
/-- RSQ_DUP, frame offset 0x800, class 0x0025. -/
def RSQ_DUP.desc : RegDesc := ⟨0x800, 0, 1, 0, 0, .none,
   [⟨RSQ_DUP.COUNT, .ro, 1, 0, none, .plain⟩]⟩

def RSQ_TIMEOUTS.COUNT : Fld := ⟨0x808, 0, 64, .val 0x0, .any⟩
/-- RSQ_TIMEOUTS, frame offset 0x808, class 0x0025. -/
def RSQ_TIMEOUTS.desc : RegDesc := ⟨0x808, 0, 1, 0, 0, .none,
   [⟨RSQ_TIMEOUTS.COUNT, .ro, 1, 0, none, .plain⟩]⟩

def RSQ_LOST_CELLS.COUNT : Fld := ⟨0x810, 0, 64, .val 0x0, .any⟩
/-- RSQ_LOST_CELLS, frame offset 0x810, class 0x0025. -/
def RSQ_LOST_CELLS.desc : RegDesc := ⟨0x810, 0, 1, 0, 0, .none,
   [⟨RSQ_LOST_CELLS.COUNT, .ro, 1, 0, none, .plain⟩]⟩

def RSQ_DISCARD.COUNT : Fld := ⟨0x818, 0, 64, .val 0x0, .any⟩
/-- RSQ_DISCARD, frame offset 0x818, class 0x0025. -/
def RSQ_DISCARD.desc : RegDesc := ⟨0x818, 0, 1, 0, 0, .none,
   [⟨RSQ_DISCARD.COUNT, .ro, 1, 0, none, .plain⟩]⟩

def RSQ_MC_LATE.COUNT : Fld := ⟨0x820, 0, 64, .val 0x0, .any⟩
/-- RSQ_MC_LATE, frame offset 0x820, class 0x0025. -/
def RSQ_MC_LATE.desc : RegDesc := ⟨0x820, 0, 1, 0, 0, .none,
   [⟨RSQ_MC_LATE.COUNT, .ro, 1, 0, none, .plain⟩]⟩

def RSQ_RESYNC.COUNT : Fld := ⟨0x828, 0, 64, .val 0x0, .any⟩
/-- RSQ_RESYNC, frame offset 0x828, class 0x0025. -/
def RSQ_RESYNC.desc : RegDesc := ⟨0x828, 0, 1, 0, 0, .none,
   [⟨RSQ_RESYNC.COUNT, .ro, 1, 0, none, .plain⟩]⟩

def RSQ_STALE.COUNT : Fld := ⟨0x830, 0, 64, .val 0x0, .any⟩
/-- RSQ_STALE, frame offset 0x830, class 0x0025. -/
def RSQ_STALE.desc : RegDesc := ⟨0x830, 0, 1, 0, 0, .none,
   [⟨RSQ_STALE.COUNT, .ro, 1, 0, none, .plain⟩]⟩

def RSQ_SRC_LOST.COUNT : Fld := ⟨0x2000, 0, 64, .val 0x0, .any⟩
/-- RSQ_SRC_LOST, frame offset 0x2000 + 8·i, class 0x0025. -/
def RSQ_SRC_LOST.desc : RegDesc := ⟨0x2000, 8, 1024, 0, 0, .none,
   [⟨RSQ_SRC_LOST.COUNT, .ro, 1, 0, none, .plain⟩]⟩

def TRN_COPIES.COUNT : Fld := ⟨0x800, 0, 64, .val 0x0, .any⟩
/-- TRN_COPIES, frame offset 0x800, class 0x0026. -/
def TRN_COPIES.desc : RegDesc := ⟨0x800, 0, 1, 0, 0, .none,
   [⟨TRN_COPIES.COUNT, .ro, 1, 0, none, .plain⟩]⟩

def TRN_MISS_DOWN.COUNT : Fld := ⟨0x808, 0, 64, .val 0x0, .any⟩
/-- TRN_MISS_DOWN, frame offset 0x808, class 0x0026. -/
def TRN_MISS_DOWN.desc : RegDesc := ⟨0x808, 0, 1, 0, 0, .none,
   [⟨TRN_MISS_DOWN.COUNT, .ro, 1, 0, none, .plain⟩]⟩

def TRN_MISS_LIMIT.COUNT : Fld := ⟨0x810, 0, 64, .val 0x0, .any⟩
/-- TRN_MISS_LIMIT, frame offset 0x810, class 0x0026. -/
def TRN_MISS_LIMIT.desc : RegDesc := ⟨0x810, 0, 1, 0, 0, .none,
   [⟨TRN_MISS_LIMIT.COUNT, .ro, 1, 0, none, .plain⟩]⟩

def TRN_MISS_READ.COUNT : Fld := ⟨0x818, 0, 64, .val 0x0, .any⟩
/-- TRN_MISS_READ, frame offset 0x818, class 0x0026. -/
def TRN_MISS_READ.desc : RegDesc := ⟨0x818, 0, 1, 0, 0, .none,
   [⟨TRN_MISS_READ.COUNT, .ro, 1, 0, none, .plain⟩]⟩

def TRN_NO_GROUP.COUNT : Fld := ⟨0x820, 0, 64, .val 0x0, .any⟩
/-- TRN_NO_GROUP, frame offset 0x820, class 0x0026. -/
def TRN_NO_GROUP.desc : RegDesc := ⟨0x820, 0, 1, 0, 0, .none,
   [⟨TRN_NO_GROUP.COUNT, .ro, 1, 0, none, .plain⟩]⟩

/-! ### spec/10_stacked_memory.md -/

def DRC_STACK_CFG.PASR_MASK : Fld := ⟨0x400, 56, 8, .pasr, .any⟩
def DRC_STACK_CFG.UE_FAIL_TH : Fld := ⟨0x400, 48, 8, .val 0x10, .clamp 1 255⟩
def DRC_STACK_CFG.CE_RATE_TH : Fld := ⟨0x400, 32, 16, .val 0x0040, .clamp 1 65535⟩
def DRC_STACK_CFG.TEMP_DELTA_C : Fld := ⟨0x400, 28, 4, .val 0x5, .clamp 1 15⟩
def DRC_STACK_CFG.ROT_PERIOD_S : Fld := ⟨0x400, 12, 12, .val 0x03C, .clampOrZero 10 3600⟩
def DRC_STACK_CFG.TRIG_EN : Fld := ⟨0x400, 9, 1, .val 0x1, .any⟩
def DRC_STACK_CFG.ROT_HOLD : Fld := ⟨0x400, 8, 1, .val 0x0, .any⟩
def DRC_STACK_CFG.SCRUB_HOURS : Fld := ⟨0x400, 0, 8, .val 0x18, .clampOrZero 1 168⟩
/-- DRC_STACK_CFG, frame offset 0x400, class 0x0040. -/
def DRC_STACK_CFG.desc : RegDesc := ⟨0x400, 0, 1, 0, 0, .none,
   [⟨DRC_STACK_CFG.PASR_MASK, .rw, 1, 0, none, .plain⟩,
    ⟨DRC_STACK_CFG.UE_FAIL_TH, .rw, 1, 0, none, .plain⟩,
    ⟨DRC_STACK_CFG.CE_RATE_TH, .rw, 1, 0, none, .plain⟩,
    ⟨DRC_STACK_CFG.TEMP_DELTA_C, .rw, 1, 0, none, .plain⟩,
    ⟨DRC_STACK_CFG.ROT_PERIOD_S, .rw, 1, 0, none, .plain⟩,
    ⟨DRC_STACK_CFG.TRIG_EN, .rw, 1, 0, none, .plain⟩,
    ⟨DRC_STACK_CFG.ROT_HOLD, .rw, 1, 0, none, .plain⟩,
    ⟨DRC_STACK_CFG.SCRUB_HOURS, .rw, 1, 0, none, .plain⟩]⟩

def DRC_STACK_STATUS.DEAD_MASK : Fld := ⟨0x408, 48, 16, .val 0x0, .any⟩
def DRC_STACK_STATUS.LAST_ROT_TEMP_C : Fld := ⟨0x408, 32, 8, .val 0x0, .any⟩
def DRC_STACK_STATUS.TEMP_C : Fld := ⟨0x408, 24, 8, .val 0x0, .any⟩
def DRC_STACK_STATUS.REFRESH_2X : Fld := ⟨0x408, 19, 1, .val 0x0, .any⟩
def DRC_STACK_STATUS.NO_SPARE : Fld := ⟨0x408, 18, 1, .val 0x0, .any⟩
def DRC_STACK_STATUS.SPARE_DERATED : Fld := ⟨0x408, 17, 1, .val 0x0, .any⟩
def DRC_STACK_STATUS.ROTATING : Fld := ⟨0x408, 16, 1, .val 0x0, .any⟩
def DRC_STACK_STATUS.SPARE_PHYS : Fld := ⟨0x408, 8, 5, .val 0x10, .any⟩
def DRC_STACK_STATUS.STEP : Fld := ⟨0x408, 0, 5, .val 0x00, .any⟩
/-- DRC_STACK_STATUS, frame offset 0x408, class 0x0040. -/
def DRC_STACK_STATUS.desc : RegDesc := ⟨0x408, 0, 1, 0, 0, .none,
   [⟨DRC_STACK_STATUS.DEAD_MASK, .ro, 1, 0, none, .plain⟩,
    ⟨DRC_STACK_STATUS.LAST_ROT_TEMP_C, .ro, 1, 0, none, .plain⟩,
    ⟨DRC_STACK_STATUS.TEMP_C, .ro, 1, 0, none, .plain⟩,
    ⟨DRC_STACK_STATUS.REFRESH_2X, .ro, 1, 0, none, .plain⟩,
    ⟨DRC_STACK_STATUS.NO_SPARE, .ro, 1, 0, none, .plain⟩,
    ⟨DRC_STACK_STATUS.SPARE_DERATED, .ro, 1, 0, none, .plain⟩,
    ⟨DRC_STACK_STATUS.ROTATING, .ro, 1, 0, none, .plain⟩,
    ⟨DRC_STACK_STATUS.SPARE_PHYS, .ro, 1, 0, none, .plain⟩,
    ⟨DRC_STACK_STATUS.STEP, .ro, 1, 0, none, .plain⟩]⟩

def DRC_CH_MAP.DEAD : Fld := ⟨0x410, 7, 1, .val 0x0, .any⟩
def DRC_CH_MAP.PHYS : Fld := ⟨0x410, 0, 5, .perIndex 1, .any⟩
/-- DRC_CH_MAP, frame offset 0x410 + 8·i, class 0x0040. -/
def DRC_CH_MAP.desc : RegDesc := ⟨0x410, 8, 2, 0, 0, .none,
   [⟨DRC_CH_MAP.DEAD, .ro, 8, 8, none, .plain⟩,
    ⟨DRC_CH_MAP.PHYS, .ro, 8, 8, none, .plain⟩]⟩

def DRC_ROT_INFO.ROTATIONS : Fld := ⟨0x420, 32, 32, .val 0x0, .any⟩
def DRC_ROT_INFO.ABORTS : Fld := ⟨0x420, 16, 16, .val 0x0, .any⟩
/-- DRC_ROT_INFO, frame offset 0x420, class 0x0040. -/
def DRC_ROT_INFO.desc : RegDesc := ⟨0x420, 0, 1, 0, 0, .none,
   [⟨DRC_ROT_INFO.ROTATIONS, .ro, 1, 0, none, .plain⟩,
    ⟨DRC_ROT_INFO.ABORTS, .ro, 1, 0, none, .plain⟩]⟩

def DRC_ROT_TIME.TIME : Fld := ⟨0x428, 0, 64, .val 0x0, .any⟩
/-- DRC_ROT_TIME, frame offset 0x428, class 0x0040. -/
def DRC_ROT_TIME.desc : RegDesc := ⟨0x428, 0, 1, 0, 0, .none,
   [⟨DRC_ROT_TIME.TIME, .ro, 1, 0, none, .plain⟩]⟩

def DRC_UE_LOG.VALID : Fld := ⟨0x430, 63, 1, .val 0x0, .any⟩
def DRC_UE_LOG.PHYS : Fld := ⟨0x430, 58, 5, .val 0x0, .any⟩
def DRC_UE_LOG.PORT : Fld := ⟨0x430, 54, 4, .val 0x0, .any⟩
def DRC_UE_LOG.SOURCE : Fld := ⟨0x430, 52, 2, .val 0x0, .any⟩
def DRC_UE_LOG.ADDR : Fld := ⟨0x430, 0, 34, .val 0x0, .any⟩
/-- DRC_UE_LOG, frame offset 0x430, class 0x0040. -/
def DRC_UE_LOG.desc : RegDesc := ⟨0x430, 0, 1, 0, 0, .none,
   [⟨DRC_UE_LOG.VALID, .w1c, 1, 0, none, .plain⟩,
    ⟨DRC_UE_LOG.PHYS, .ro, 1, 0, none, .plain⟩,
    ⟨DRC_UE_LOG.PORT, .ro, 1, 0, none, .plain⟩,
    ⟨DRC_UE_LOG.SOURCE, .ro, 1, 0, none, .plain⟩,
    ⟨DRC_UE_LOG.ADDR, .ro, 1, 0, none, .plain⟩]⟩

def DRC_OVERDUE.COUNT : Fld := ⟨0x800, 0, 64, .val 0x0, .any⟩
/-- DRC_OVERDUE, frame offset 0x800 + 8·i, class 0x0040. -/
def DRC_OVERDUE.desc : RegDesc := ⟨0x800, 8, 9, 0, 0, .none,
   [⟨DRC_OVERDUE.COUNT, .ro, 1, 0, none, .plain⟩]⟩

def DRC_DEAD_ACCESS.COUNT : Fld := ⟨0x848, 0, 64, .val 0x0, .any⟩
/-- DRC_DEAD_ACCESS, frame offset 0x848, class 0x0040. -/
def DRC_DEAD_ACCESS.desc : RegDesc := ⟨0x848, 0, 1, 0, 0, .none,
   [⟨DRC_DEAD_ACCESS.COUNT, .ro, 1, 0, none, .plain⟩]⟩

def DRC_SCRUB_PASSES.COUNT : Fld := ⟨0x850, 0, 64, .val 0x0, .any⟩
/-- DRC_SCRUB_PASSES, frame offset 0x850, class 0x0040. -/
def DRC_SCRUB_PASSES.desc : RegDesc := ⟨0x850, 0, 1, 0, 0, .none,
   [⟨DRC_SCRUB_PASSES.COUNT, .ro, 1, 0, none, .plain⟩]⟩

def DRC_REFRESH_FORCED.COUNT : Fld := ⟨0x858, 0, 64, .val 0x0, .any⟩
/-- DRC_REFRESH_FORCED, frame offset 0x858, class 0x0040. -/
def DRC_REFRESH_FORCED.desc : RegDesc := ⟨0x858, 0, 1, 0, 0, .none,
   [⟨DRC_REFRESH_FORCED.COUNT, .ro, 1, 0, none, .plain⟩]⟩

def DRC_CH_STATUS.MARGIN_PCT : Fld := ⟨0x400, 40, 8, .val 0x00, .any⟩
def DRC_CH_STATUS.TRAIN_TEMP_C : Fld := ⟨0x400, 32, 8, .val 0x00, .any⟩
def DRC_CH_STATUS.LOGICAL : Fld := ⟨0x400, 8, 4, .val 0x0, .any⟩
def DRC_CH_STATUS.ROLE : Fld := ⟨0x400, 5, 3, .val 0x6, .any⟩
def DRC_CH_STATUS.DERATED : Fld := ⟨0x400, 4, 1, .val 0x0, .any⟩
def DRC_CH_STATUS.RATE : Fld := ⟨0x400, 0, 2, .val 0x0, .any⟩
/-- DRC_CH_STATUS, frame offset 0x400, class 0x0041. -/
def DRC_CH_STATUS.desc : RegDesc := ⟨0x400, 0, 1, 0, 0, .none,
   [⟨DRC_CH_STATUS.MARGIN_PCT, .ro, 1, 0, none, .plain⟩,
    ⟨DRC_CH_STATUS.TRAIN_TEMP_C, .ro, 1, 0, none, .plain⟩,
    ⟨DRC_CH_STATUS.LOGICAL, .ro, 1, 0, none, .plain⟩,
    ⟨DRC_CH_STATUS.ROLE, .ro, 1, 0, none, .plain⟩,
    ⟨DRC_CH_STATUS.DERATED, .ro, 1, 0, none, .plain⟩,
    ⟨DRC_CH_STATUS.RATE, .ro, 1, 0, none, .plain⟩]⟩

def DRC_CH_TRAIN_TIME.TIME : Fld := ⟨0x408, 0, 64, .val 0x0, .any⟩
/-- DRC_CH_TRAIN_TIME, frame offset 0x408, class 0x0041. -/
def DRC_CH_TRAIN_TIME.desc : RegDesc := ⟨0x408, 0, 1, 0, 0, .none,
   [⟨DRC_CH_TRAIN_TIME.TIME, .ro, 1, 0, none, .plain⟩]⟩

def DRC_CE.COUNT : Fld := ⟨0x800, 0, 64, .val 0x0, .any⟩
/-- DRC_CE, frame offset 0x800, class 0x0041. -/
def DRC_CE.desc : RegDesc := ⟨0x800, 0, 1, 0, 0, .none,
   [⟨DRC_CE.COUNT, .ro, 1, 0, none, .plain⟩]⟩

def DRC_UE.COUNT : Fld := ⟨0x808, 0, 64, .val 0x0, .any⟩
/-- DRC_UE, frame offset 0x808, class 0x0041. -/
def DRC_UE.desc : RegDesc := ⟨0x808, 0, 1, 0, 0, .none,
   [⟨DRC_UE.COUNT, .ro, 1, 0, none, .plain⟩]⟩

def DRC_ODECC_CE.COUNT : Fld := ⟨0x810, 0, 64, .val 0x0, .any⟩
/-- DRC_ODECC_CE, frame offset 0x810, class 0x0041. -/
def DRC_ODECC_CE.desc : RegDesc := ⟨0x810, 0, 1, 0, 0, .none,
   [⟨DRC_ODECC_CE.COUNT, .ro, 1, 0, none, .plain⟩]⟩

def DRC_INORDER.COUNT : Fld := ⟨0x818, 0, 64, .val 0x0, .any⟩
/-- DRC_INORDER, frame offset 0x818, class 0x0041. -/
def DRC_INORDER.desc : RegDesc := ⟨0x818, 0, 1, 0, 0, .none,
   [⟨DRC_INORDER.COUNT, .ro, 1, 0, none, .plain⟩]⟩

def DRC_TRAIN_FAIL.COUNT : Fld := ⟨0x820, 0, 64, .val 0x0, .any⟩
/-- DRC_TRAIN_FAIL, frame offset 0x820, class 0x0041. -/
def DRC_TRAIN_FAIL.desc : RegDesc := ⟨0x820, 0, 1, 0, 0, .none,
   [⟨DRC_TRAIN_FAIL.COUNT, .ro, 1, 0, none, .plain⟩]⟩

def DRC_CE_LAST_S.COUNT : Fld := ⟨0x828, 0, 64, .val 0x0, .any⟩
/-- DRC_CE_LAST_S, frame offset 0x828, class 0x0041. -/
def DRC_CE_LAST_S.desc : RegDesc := ⟨0x828, 0, 1, 0, 0, .none,
   [⟨DRC_CE_LAST_S.COUNT, .ro, 1, 0, none, .plain⟩]⟩

/-! ### spec/11_fault_containment.md -/

def CRD_PAIR.TAKEOVERS : Fld := ⟨0x410, 32, 32, .val 0x0, .any⟩
def CRD_PAIR.STANDBY_SYNC : Fld := ⟨0x410, 16, 1, .val 0x0, .any⟩
def CRD_PAIR.ACTIVE_MEMBER : Fld := ⟨0x410, 0, 1, .val 0x0, .any⟩
/-- CRD_PAIR, frame offset 0x410, class 0x0022. -/
def CRD_PAIR.desc : RegDesc := ⟨0x410, 0, 1, 0, 0, .none,
   [⟨CRD_PAIR.TAKEOVERS, .ro, 1, 0, none, .plain⟩,
    ⟨CRD_PAIR.STANDBY_SYNC, .ro, 1, 0, none, .plain⟩,
    ⟨CRD_PAIR.ACTIVE_MEMBER, .ro, 1, 0, none, .plain⟩]⟩

def RID_CFG.DIE_FAIL_ACT : Fld := ⟨0x400, 33, 1, .val 0x0, .any⟩
def RID_CFG.SENTINEL_EN : Fld := ⟨0x400, 32, 1, .val 0x1, .any⟩
def RID_CFG.DECIDE_WINDOW_US : Fld := ⟨0x400, 16, 16, .val 0x03E8, .clamp 10 60000⟩
def RID_CFG.TURN_LEN_US : Fld := ⟨0x400, 0, 7, .val 0x08, .outsideAs 4 64 8⟩
/-- RID_CFG, frame offset 0x400, class 0x0005. -/
def RID_CFG.desc : RegDesc := ⟨0x400, 0, 1, 0, 0, .none,
   [⟨RID_CFG.DIE_FAIL_ACT, .rw, 1, 0, none, .plain⟩,
    ⟨RID_CFG.SENTINEL_EN, .rw, 1, 0, none, .plain⟩,
    ⟨RID_CFG.DECIDE_WINDOW_US, .rw, 1, 0, none, .plain⟩,
    ⟨RID_CFG.TURN_LEN_US, .rw, 1, 0, none, .plain⟩]⟩

def RID_STATUS.TURNS_HELD : Fld := ⟨0x408, 32, 16, .val 0x0, .any⟩
def RID_STATUS.FAILED : Fld := ⟨0x408, 4, 1, .val 0x0, .any⟩
def RID_STATUS.DUPLEX : Fld := ⟨0x408, 3, 1, .val 0x0, .any⟩
def RID_STATUS.COPIES_OK : Fld := ⟨0x408, 0, 3, .val 0x7, .any⟩
/-- RID_STATUS, frame offset 0x408, class 0x0005. -/
def RID_STATUS.desc : RegDesc := ⟨0x408, 0, 1, 0, 0, .none,
   [⟨RID_STATUS.TURNS_HELD, .ro, 1, 0, none, .plain⟩,
    ⟨RID_STATUS.FAILED, .ro, 1, 0, none, .plain⟩,
    ⟨RID_STATUS.DUPLEX, .ro, 1, 0, none, .plain⟩,
    ⟨RID_STATUS.COPIES_OK, .ro, 1, 0, none, .plain⟩]⟩

def RID_DECLARED.COUNT : Fld := ⟨0x800, 0, 64, .val 0x0, .any⟩
/-- RID_DECLARED, frame offset 0x800, class 0x0005. -/
def RID_DECLARED.desc : RegDesc := ⟨0x800, 0, 1, 0, 0, .none,
   [⟨RID_DECLARED.COUNT, .ro, 1, 0, none, .plain⟩]⟩

def RID_SUSPECTS.COUNT : Fld := ⟨0x808, 0, 64, .val 0x0, .any⟩
/-- RID_SUSPECTS, frame offset 0x808, class 0x0005. -/
def RID_SUSPECTS.desc : RegDesc := ⟨0x808, 0, 1, 0, 0, .none,
   [⟨RID_SUSPECTS.COUNT, .ro, 1, 0, none, .plain⟩]⟩

def RID_CLEARED.COUNT : Fld := ⟨0x810, 0, 64, .val 0x0, .any⟩
/-- RID_CLEARED, frame offset 0x810, class 0x0005. -/
def RID_CLEARED.desc : RegDesc := ⟨0x810, 0, 1, 0, 0, .none,
   [⟨RID_CLEARED.COUNT, .ro, 1, 0, none, .plain⟩]⟩

def RID_REJECT_TURN.COUNT : Fld := ⟨0x818, 0, 64, .val 0x0, .any⟩
/-- RID_REJECT_TURN, frame offset 0x818, class 0x0005. -/
def RID_REJECT_TURN.desc : RegDesc := ⟨0x818, 0, 1, 0, 0, .none,
   [⟨RID_REJECT_TURN.COUNT, .ro, 1, 0, none, .plain⟩]⟩

def RID_REJECT_CHECK.COUNT : Fld := ⟨0x820, 0, 64, .val 0x0, .any⟩
/-- RID_REJECT_CHECK, frame offset 0x820, class 0x0005. -/
def RID_REJECT_CHECK.desc : RegDesc := ⟨0x820, 0, 1, 0, 0, .none,
   [⟨RID_REJECT_CHECK.COUNT, .ro, 1, 0, none, .plain⟩]⟩

def RID_REPLAY_DUP.COUNT : Fld := ⟨0x828, 0, 64, .val 0x0, .any⟩
/-- RID_REPLAY_DUP, frame offset 0x828, class 0x0005. -/
def RID_REPLAY_DUP.desc : RegDesc := ⟨0x828, 0, 1, 0, 0, .none,
   [⟨RID_REPLAY_DUP.COUNT, .ro, 1, 0, none, .plain⟩]⟩

def RID_SHADOW_MISMATCH.COUNT : Fld := ⟨0x830, 0, 64, .val 0x0, .any⟩
/-- RID_SHADOW_MISMATCH, frame offset 0x830, class 0x0005. -/
def RID_SHADOW_MISMATCH.desc : RegDesc := ⟨0x830, 0, 1, 0, 0, .none,
   [⟨RID_SHADOW_MISMATCH.COUNT, .ro, 1, 0, none, .plain⟩]⟩

def RID_RESYNC.COUNT : Fld := ⟨0x838, 0, 64, .val 0x0, .any⟩
/-- RID_RESYNC, frame offset 0x838, class 0x0005. -/
def RID_RESYNC.desc : RegDesc := ⟨0x838, 0, 1, 0, 0, .none,
   [⟨RID_RESYNC.COUNT, .ro, 1, 0, none, .plain⟩]⟩

def RID_LAPSES.COUNT : Fld := ⟨0x840, 0, 64, .val 0x0, .any⟩
/-- RID_LAPSES, frame offset 0x840, class 0x0005. -/
def RID_LAPSES.desc : RegDesc := ⟨0x840, 0, 1, 0, 0, .none,
   [⟨RID_LAPSES.COUNT, .ro, 1, 0, none, .plain⟩]⟩

def HDL_CFG.HOST_PUNT_ACT : Fld := ⟨0x600, 32, 2, .val 0x0, .outsideAs 0 1 0⟩
def HDL_CFG.RETURN_DELAY_S : Fld := ⟨0x600, 24, 8, .val 0x3C, .clamp 1 255⟩
def HDL_CFG.AUTO_RETURN : Fld := ⟨0x600, 19, 1, .val 0x0, .any⟩
def HDL_CFG.FAB_RETIRE : Fld := ⟨0x600, 18, 1, .val 0x1, .any⟩
def HDL_CFG.BFD_WITHDRAW : Fld := ⟨0x600, 17, 1, .val 0x1, .any⟩
def HDL_CFG.LEARN_EN : Fld := ⟨0x600, 16, 1, .val 0x1, .any⟩
def HDL_CFG.TIMEOUT_S : Fld := ⟨0x600, 0, 16, .val 0x0003, .clampOrZero 1 3600⟩
/-- HDL_CFG, frame offset 0x600, class 0x0001. -/
def HDL_CFG.desc : RegDesc := ⟨0x600, 0, 1, 0, 0, .none,
   [⟨HDL_CFG.HOST_PUNT_ACT, .rw, 1, 0, none, .plain⟩,
    ⟨HDL_CFG.RETURN_DELAY_S, .rw, 1, 0, none, .plain⟩,
    ⟨HDL_CFG.AUTO_RETURN, .rw, 1, 0, none, .plain⟩,
    ⟨HDL_CFG.FAB_RETIRE, .rw, 1, 0, none, .plain⟩,
    ⟨HDL_CFG.BFD_WITHDRAW, .rw, 1, 0, none, .plain⟩,
    ⟨HDL_CFG.LEARN_EN, .rw, 1, 0, none, .plain⟩,
    ⟨HDL_CFG.TIMEOUT_S, .rw, 1, 0, none, .plain⟩]⟩

def HDL_HEARTBEAT.BEAT : Fld := ⟨0x608, 0, 1, .val 0x0, .any⟩
/-- HDL_HEARTBEAT, frame offset 0x608, class 0x0001. -/
def HDL_HEARTBEAT.desc : RegDesc := ⟨0x608, 0, 1, 0, 0, .none,
   [⟨HDL_HEARTBEAT.BEAT, .wo, 1, 0, none, .plain⟩]⟩

def HDL_STATUS.UNLOGGED : Fld := ⟨0x610, 32, 32, .val 0x0, .any⟩
def HDL_STATUS.LOGGED : Fld := ⟨0x610, 8, 9, .val 0x0, .any⟩
def HDL_STATUS.HEADLESS : Fld := ⟨0x610, 0, 1, .val 0x0, .any⟩
/-- HDL_STATUS, frame offset 0x610, class 0x0001. -/
def HDL_STATUS.desc : RegDesc := ⟨0x610, 0, 1, 0, 0, .none,
   [⟨HDL_STATUS.UNLOGGED, .ro, 1, 0, none, .plain⟩,
    ⟨HDL_STATUS.LOGGED, .ro, 1, 0, none, .plain⟩,
    ⟨HDL_STATUS.HEADLESS, .ro, 1, 0, none, .plain⟩]⟩

def HDL_SINCE.TIME : Fld := ⟨0x618, 0, 64, .val 0x0, .any⟩
/-- HDL_SINCE, frame offset 0x618, class 0x0001. -/
def HDL_SINCE.desc : RegDesc := ⟨0x618, 0, 1, 0, 0, .none,
   [⟨HDL_SINCE.TIME, .ro, 1, 0, none, .plain⟩]⟩

/-! ### spec/12_host_rings_and_commands.md -/

def HIF_ID.REVISION : Fld := ⟨0x400, 16, 8, .val 0, .any⟩
def HIF_ID.DEVICE_ID : Fld := ⟨0x400, 0, 16, .val 0x2560, .any⟩
/-- HIF_ID, frame offset 0x400, class 0x0038. -/
def HIF_ID.desc : RegDesc := ⟨0x400, 0, 1, 0, 0, .none,
   [⟨HIF_ID.REVISION, .ro, 1, 0, none, .plain⟩,
    ⟨HIF_ID.DEVICE_ID, .ro, 1, 0, none, .plain⟩]⟩

def HIF_STATUS.HIF_EPOCH : Fld := ⟨0x408, 48, 16, .val 0x0, .any⟩
def HIF_STATUS.IN_FLIGHT : Fld := ⟨0x408, 17, 15, .val 0x0, .any⟩
def HIF_STATUS.FLIT : Fld := ⟨0x408, 12, 1, .val 0x0, .any⟩
def HIF_STATUS.WIDTH : Fld := ⟨0x408, 8, 4, .val 0x0, .any⟩
def HIF_STATUS.RATE : Fld := ⟨0x408, 4, 4, .val 0x0, .any⟩
def HIF_STATUS.FWD_READY : Fld := ⟨0x408, 1, 1, .val 0x0, .any⟩
def HIF_STATUS.FW_READY : Fld := ⟨0x408, 0, 1, .val 0x0, .any⟩
/-- HIF_STATUS, frame offset 0x408, class 0x0038. -/
def HIF_STATUS.desc : RegDesc := ⟨0x408, 0, 1, 0, 0, .none,
   [⟨HIF_STATUS.HIF_EPOCH, .ro, 1, 0, none, .plain⟩,
    ⟨HIF_STATUS.IN_FLIGHT, .ro, 1, 0, none, .plain⟩,
    ⟨HIF_STATUS.FLIT, .ro, 1, 0, none, .plain⟩,
    ⟨HIF_STATUS.WIDTH, .ro, 1, 0, none, .plain⟩,
    ⟨HIF_STATUS.RATE, .ro, 1, 0, none, .plain⟩,
    ⟨HIF_STATUS.FWD_READY, .ro, 1, 0, none, .plain⟩,
    ⟨HIF_STATUS.FW_READY, .ro, 1, 0, none, .plain⟩]⟩

def HIF_RING_SEL.KIND : Fld := ⟨0x420, 12, 2, .val 0x0, .any⟩
def HIF_RING_SEL.INDEX : Fld := ⟨0x420, 0, 12, .val 0x000, .any⟩
/-- HIF_RING_SEL, frame offset 0x420, class 0x0038. -/
def HIF_RING_SEL.desc : RegDesc := ⟨0x420, 0, 1, 0, 0, .none,
   [⟨HIF_RING_SEL.KIND, .rw, 1, 0, none, .plain⟩,
    ⟨HIF_RING_SEL.INDEX, .rw, 1, 0, none, .plain⟩]⟩

def HIF_RING_BASE.BASE : Fld := ⟨0x428, 0, 64, .val 0x0, .any⟩
/-- HIF_RING_BASE, frame offset 0x428, class 0x0038. -/
def HIF_RING_BASE.desc : RegDesc := ⟨0x428, 0, 1, 0, 0, .ring,
   [⟨HIF_RING_BASE.BASE, .rw, 1, 0, none, .plain⟩]⟩

def HIF_RING_CFG.LIMIT : Fld := ⟨0x430, 49, 15, .val 0x0, .any⟩
def HIF_RING_CFG.TIME : Fld := ⟨0x430, 33, 16, .val 0x0, .any⟩
def HIF_RING_CFG.CQ : Fld := ⟨0x430, 22, 10, .val 0x000, .any⟩
def HIF_RING_CFG.VECTOR : Fld := ⟨0x430, 16, 6, .val 0x00, .any⟩
def HIF_RING_CFG.WEIGHT : Fld := ⟨0x430, 12, 4, .val 0x0, .clamp 1 15⟩
def HIF_RING_CFG.SIZE_LOG2 : Fld := ⟨0x430, 0, 4, .val 0x0, .any⟩
/-- HIF_RING_CFG, frame offset 0x430, class 0x0038. -/
def HIF_RING_CFG.desc : RegDesc := ⟨0x430, 0, 1, 0, 0, .ring,
   [⟨HIF_RING_CFG.LIMIT, .rw, 1, 0, none, .plain⟩,
    ⟨HIF_RING_CFG.TIME, .rw, 1, 0, none, .plain⟩,
    ⟨HIF_RING_CFG.CQ, .rw, 1, 0, none, .plain⟩,
    ⟨HIF_RING_CFG.VECTOR, .rw, 1, 0, none, .plain⟩,
    ⟨HIF_RING_CFG.WEIGHT, .rw, 1, 0, none, .plain⟩,
    ⟨HIF_RING_CFG.SIZE_LOG2, .rw, 1, 0, none, .plain⟩]⟩

def HIF_RING_STATE.ARMED : Fld := ⟨0x438, 52, 1, .val 0x0, .any⟩
def HIF_RING_STATE.PHASE : Fld := ⟨0x438, 51, 1, .val 0x0, .any⟩
def HIF_RING_STATE.STATE : Fld := ⟨0x438, 48, 3, .val 0x0, .any⟩
def HIF_RING_STATE.COUNT : Fld := ⟨0x438, 32, 15, .val 0x0, .any⟩
def HIF_RING_STATE.TAIL : Fld := ⟨0x438, 16, 16, .val 0x0, .any⟩
def HIF_RING_STATE.HEAD : Fld := ⟨0x438, 0, 16, .val 0x0, .any⟩
/-- HIF_RING_STATE, frame offset 0x438, class 0x0038. -/
def HIF_RING_STATE.desc : RegDesc := ⟨0x438, 0, 1, 0, 0, .ring,
   [⟨HIF_RING_STATE.ARMED, .ro, 1, 0, none, .plain⟩,
    ⟨HIF_RING_STATE.PHASE, .ro, 1, 0, none, .plain⟩,
    ⟨HIF_RING_STATE.STATE, .ro, 1, 0, none, .plain⟩,
    ⟨HIF_RING_STATE.COUNT, .ro, 1, 0, none, .plain⟩,
    ⟨HIF_RING_STATE.TAIL, .ro, 1, 0, none, .plain⟩,
    ⟨HIF_RING_STATE.HEAD, .ro, 1, 0, none, .plain⟩]⟩

def HIF_RING_CTRL.REFUSED : Fld := ⟨0x440, 8, 1, .val 0x0, .any⟩
def HIF_RING_CTRL.ERR_CLEAR : Fld := ⟨0x440, 2, 1, .val 0x0, .any⟩
def HIF_RING_CTRL.DISABLE : Fld := ⟨0x440, 1, 1, .val 0x0, .any⟩
def HIF_RING_CTRL.ENABLE : Fld := ⟨0x440, 0, 1, .val 0x0, .any⟩
/-- HIF_RING_CTRL, frame offset 0x440, class 0x0038. -/
def HIF_RING_CTRL.desc : RegDesc := ⟨0x440, 0, 1, 0, 0, .ring,
   [⟨HIF_RING_CTRL.REFUSED, .w1c, 1, 0, none, .plain⟩,
    ⟨HIF_RING_CTRL.ERR_CLEAR, .wo, 1, 0, none, .plain⟩,
    ⟨HIF_RING_CTRL.DISABLE, .wo, 1, 0, none, .plain⟩,
    ⟨HIF_RING_CTRL.ENABLE, .wo, 1, 0, none, .plain⟩]⟩

def HIF_DOORBELL_BAD.COUNT : Fld := ⟨0x800, 0, 64, .val 0x0, .any⟩
/-- HIF_DOORBELL_BAD, frame offset 0x800, class 0x0038. -/
def HIF_DOORBELL_BAD.desc : RegDesc := ⟨0x800, 0, 1, 0, 0, .none,
   [⟨HIF_DOORBELL_BAD.COUNT, .ro, 1, 0, none, .plain⟩]⟩

def HIF_MALFORMED.COUNT : Fld := ⟨0x808, 0, 64, .val 0x0, .any⟩
/-- HIF_MALFORMED, frame offset 0x808, class 0x0038. -/
def HIF_MALFORMED.desc : RegDesc := ⟨0x808, 0, 1, 0, 0, .none,
   [⟨HIF_MALFORMED.COUNT, .ro, 1, 0, none, .plain⟩]⟩

def HIF_UNSUPPORTED.COUNT : Fld := ⟨0x810, 0, 64, .val 0x0, .any⟩
/-- HIF_UNSUPPORTED, frame offset 0x810, class 0x0038. -/
def HIF_UNSUPPORTED.desc : RegDesc := ⟨0x810, 0, 1, 0, 0, .none,
   [⟨HIF_UNSUPPORTED.COUNT, .ro, 1, 0, none, .plain⟩]⟩

def HIF_CPL_LOST.COUNT : Fld := ⟨0x818, 0, 64, .val 0x0, .any⟩
/-- HIF_CPL_LOST, frame offset 0x818, class 0x0038. -/
def HIF_CPL_LOST.desc : RegDesc := ⟨0x818, 0, 1, 0, 0, .none,
   [⟨HIF_CPL_LOST.COUNT, .ro, 1, 0, none, .plain⟩]⟩

def HIF_DMA_ERR.COUNT : Fld := ⟨0x820, 0, 64, .val 0x0, .any⟩
/-- HIF_DMA_ERR, frame offset 0x820, class 0x0038. -/
def HIF_DMA_ERR.desc : RegDesc := ⟨0x820, 0, 1, 0, 0, .none,
   [⟨HIF_DMA_ERR.COUNT, .ro, 1, 0, none, .plain⟩]⟩

def HIF_RX_NOBUF.COUNT : Fld := ⟨0x828, 0, 64, .val 0x0, .any⟩
/-- HIF_RX_NOBUF, frame offset 0x828, class 0x0038. -/
def HIF_RX_NOBUF.desc : RegDesc := ⟨0x828, 0, 1, 0, 0, .none,
   [⟨HIF_RX_NOBUF.COUNT, .ro, 1, 0, none, .plain⟩]⟩

def HIF_RX_PACKETS.COUNT : Fld := ⟨0x830, 0, 64, .val 0x0, .any⟩
/-- HIF_RX_PACKETS, frame offset 0x830, class 0x0038. -/
def HIF_RX_PACKETS.desc : RegDesc := ⟨0x830, 0, 1, 0, 0, .none,
   [⟨HIF_RX_PACKETS.COUNT, .ro, 1, 0, none, .plain⟩]⟩

def HIF_RESYNC_ADDR.ADDR : Fld := ⟨0x700, 12, 52, .val 0x0, .any⟩
/-- HIF_RESYNC_ADDR, frame offset 0x700, class 0x0001. -/
def HIF_RESYNC_ADDR.desc : RegDesc := ⟨0x700, 0, 1, 0, 0, .none,
   [⟨HIF_RESYNC_ADDR.ADDR, .rw, 1, 0, none, .plain⟩]⟩

def HIF_RESYNC.ERROR : Fld := ⟨0x708, 36, 1, .val 0x0, .any⟩
def HIF_RESYNC.DONE : Fld := ⟨0x708, 35, 1, .val 0x0, .any⟩
def HIF_RESYNC.BUSY : Fld := ⟨0x708, 34, 1, .val 0x0, .any⟩
def HIF_RESYNC.ABANDON : Fld := ⟨0x708, 33, 1, .val 0x0, .any⟩
def HIF_RESYNC.TRIGGER : Fld := ⟨0x708, 32, 1, .val 0x0, .any⟩
def HIF_RESYNC.LENGTH : Fld := ⟨0x708, 0, 17, .val 0x0, .any⟩
/-- HIF_RESYNC, frame offset 0x708, class 0x0001. -/
def HIF_RESYNC.desc : RegDesc := ⟨0x708, 0, 1, 0, 0, .none,
   [⟨HIF_RESYNC.ERROR, .ro, 1, 0, none, .plain⟩,
    ⟨HIF_RESYNC.DONE, .ro, 1, 0, none, .plain⟩,
    ⟨HIF_RESYNC.BUSY, .ro, 1, 0, none, .plain⟩,
    ⟨HIF_RESYNC.ABANDON, .wo, 1, 0, none, .plain⟩,
    ⟨HIF_RESYNC.TRIGGER, .wo, 1, 0, none, .plain⟩,
    ⟨HIF_RESYNC.LENGTH, .ro, 1, 0, none, .plain⟩]⟩

/-! ### spec/13_service_cluster_and_agents.md -/

def SVC_PTP_CFG.DOMAIN : Fld := ⟨0x410, 56, 8, .val 0x00, .any⟩
def SVC_PTP_CFG.PRIORITY1 : Fld := ⟨0x410, 48, 8, .val 0x80, .any⟩
def SVC_PTP_CFG.PRIORITY2 : Fld := ⟨0x410, 40, 8, .val 0x80, .any⟩
def SVC_PTP_CFG.PROFILE : Fld := ⟨0x410, 36, 4, .val 0x0, .any⟩
def SVC_PTP_CFG.SOURCE : Fld := ⟨0x410, 34, 2, .val 0x0, .any⟩
def SVC_PTP_CFG.BOUNDARY : Fld := ⟨0x410, 33, 1, .val 0x0, .any⟩
def SVC_PTP_CFG.EN : Fld := ⟨0x410, 32, 1, .val 0x0, .any⟩
def SVC_PTP_CFG.STEP_NS : Fld := ⟨0x410, 16, 16, .val 0x03E8, .any⟩
def SVC_PTP_CFG.HOLDOVER_AVG_S : Fld := ⟨0x410, 8, 8, .val 0x3C, .clamp 1 255⟩
def SVC_PTP_CFG.LOOP_BW : Fld := ⟨0x410, 0, 8, .val 0x0A, .clamp 1 255⟩
/-- SVC_PTP_CFG, frame offset 0x410, class 0x0049. -/
def SVC_PTP_CFG.desc : RegDesc := ⟨0x410, 0, 1, 0, 0, .none,
   [⟨SVC_PTP_CFG.DOMAIN, .rw, 1, 0, none, .plain⟩,
    ⟨SVC_PTP_CFG.PRIORITY1, .rw, 1, 0, none, .plain⟩,
    ⟨SVC_PTP_CFG.PRIORITY2, .rw, 1, 0, none, .plain⟩,
    ⟨SVC_PTP_CFG.PROFILE, .rw, 1, 0, some 3, .plain⟩,
    ⟨SVC_PTP_CFG.SOURCE, .rw, 1, 0, some 2, .plain⟩,
    ⟨SVC_PTP_CFG.BOUNDARY, .rw, 1, 0, none, .plain⟩,
    ⟨SVC_PTP_CFG.EN, .rw, 1, 0, none, .plain⟩,
    ⟨SVC_PTP_CFG.STEP_NS, .rw, 1, 0, none, .plain⟩,
    ⟨SVC_PTP_CFG.HOLDOVER_AVG_S, .rw, 1, 0, none, .plain⟩,
    ⟨SVC_PTP_CFG.LOOP_BW, .rw, 1, 0, none, .plain⟩]⟩

def SVC_PTP_STATUS.OFFSET_NS : Fld := ⟨0x418, 32, 32, .val 0x0, .any⟩
def SVC_PTP_STATUS.PORT : Fld := ⟨0x418, 24, 8, .val 0xFF, .any⟩
def SVC_PTP_STATUS.STEPS : Fld := ⟨0x418, 8, 16, .val 0x0, .any⟩
def SVC_PTP_STATUS.STATE : Fld := ⟨0x418, 0, 3, .val 0x0, .any⟩
/-- SVC_PTP_STATUS, frame offset 0x418, class 0x0049. -/
def SVC_PTP_STATUS.desc : RegDesc := ⟨0x418, 0, 1, 0, 0, .none,
   [⟨SVC_PTP_STATUS.OFFSET_NS, .ro, 1, 0, none, .plain⟩,
    ⟨SVC_PTP_STATUS.PORT, .ro, 1, 0, none, .plain⟩,
    ⟨SVC_PTP_STATUS.STEPS, .ro, 1, 0, none, .plain⟩,
    ⟨SVC_PTP_STATUS.STATE, .ro, 1, 0, none, .plain⟩]⟩

def SVC_PTP_PORTS0.EN : Fld := ⟨0x420, 0, 64, .val 0x0, .any⟩
/-- SVC_PTP_PORTS0, frame offset 0x420, class 0x0049. -/
def SVC_PTP_PORTS0.desc : RegDesc := ⟨0x420, 0, 1, 0, 0, .none,
   [⟨SVC_PTP_PORTS0.EN, .rw, 1, 0, none, .plain⟩]⟩

def SVC_PTP_PORTS1.EN : Fld := ⟨0x428, 0, 64, .val 0x0, .any⟩
/-- SVC_PTP_PORTS1, frame offset 0x428, class 0x0049. -/
def SVC_PTP_PORTS1.desc : RegDesc := ⟨0x428, 0, 1, 0, 0, .none,
   [⟨SVC_PTP_PORTS1.EN, .rw, 1, 0, none, .plain⟩]⟩

def SVC_CFG.TELEM_SWEEPS : Fld := ⟨0x400, 40, 8, .val 0x64, .clamp 1 255⟩
def SVC_CFG.LEARN_EXPORT : Fld := ⟨0x400, 32, 1, .val 0x0, .any⟩
def SVC_CFG.LEARN_RXQ : Fld := ⟨0x400, 24, 6, .val 0x00, .any⟩
def SVC_CFG.HDL_AGENT_EN : Fld := ⟨0x400, 23, 1, .val 0x0, .any⟩
def SVC_CFG.HDL_AGENT : Fld := ⟨0x400, 16, 6, .val 0x00, .any⟩
/-- SVC_CFG, frame offset 0x400, class 0x0049. -/
def SVC_CFG.desc : RegDesc := ⟨0x400, 0, 1, 0, 0, .none,
   [⟨SVC_CFG.TELEM_SWEEPS, .rw, 1, 0, none, .plain⟩,
    ⟨SVC_CFG.LEARN_EXPORT, .rw, 1, 0, none, .plain⟩,
    ⟨SVC_CFG.LEARN_RXQ, .rw, 1, 0, none, .plain⟩,
    ⟨SVC_CFG.HDL_AGENT_EN, .rw, 1, 0, none, .plain⟩,
    ⟨SVC_CFG.HDL_AGENT, .rw, 1, 0, none, .plain⟩]⟩

def SVC_STATUS.AGENT_MEM_MIB : Fld := ⟨0x408, 48, 16, .val 0x0, .any⟩
def SVC_STATUS.SHARE_USED : Fld := ⟨0x408, 32, 16, .val 0x0, .any⟩
def SVC_STATUS.CORES_ACTIVE : Fld := ⟨0x408, 16, 5, .val 0x18, .any⟩
/-- SVC_STATUS, frame offset 0x408, class 0x0049. -/
def SVC_STATUS.desc : RegDesc := ⟨0x408, 0, 1, 0, 0, .none,
   [⟨SVC_STATUS.AGENT_MEM_MIB, .ro, 1, 0, none, .plain⟩,
    ⟨SVC_STATUS.SHARE_USED, .ro, 1, 0, none, .plain⟩,
    ⟨SVC_STATUS.CORES_ACTIVE, .ro, 1, 0, none, .plain⟩]⟩

def SVC_LEARN_EXPORTED.COUNT : Fld := ⟨0x800, 0, 64, .val 0x0, .any⟩
/-- SVC_LEARN_EXPORTED, frame offset 0x800, class 0x0049. -/
def SVC_LEARN_EXPORTED.desc : RegDesc := ⟨0x800, 0, 1, 0, 0, .none,
   [⟨SVC_LEARN_EXPORTED.COUNT, .ro, 1, 0, none, .plain⟩]⟩

def SVC_LEARN_EXPORT_DROP.COUNT : Fld := ⟨0x808, 0, 64, .val 0x0, .any⟩
/-- SVC_LEARN_EXPORT_DROP, frame offset 0x808, class 0x0049. -/
def SVC_LEARN_EXPORT_DROP.desc : RegDesc := ⟨0x808, 0, 1, 0, 0, .none,
   [⟨SVC_LEARN_EXPORT_DROP.COUNT, .ro, 1, 0, none, .plain⟩]⟩

def SVC_REDIRECT_DROP.COUNT : Fld := ⟨0x810, 0, 64, .val 0x0, .any⟩
/-- SVC_REDIRECT_DROP, frame offset 0x810, class 0x0049. -/
def SVC_REDIRECT_DROP.desc : RegDesc := ⟨0x810, 0, 1, 0, 0, .none,
   [⟨SVC_REDIRECT_DROP.COUNT, .ro, 1, 0, none, .plain⟩]⟩

def SVC_TASK_RESTART.COUNT : Fld := ⟨0x818, 0, 64, .val 0x0, .any⟩
/-- SVC_TASK_RESTART, frame offset 0x818, class 0x0049. -/
def SVC_TASK_RESTART.desc : RegDesc := ⟨0x818, 0, 1, 0, 0, .none,
   [⟨SVC_TASK_RESTART.COUNT, .ro, 1, 0, none, .plain⟩]⟩

def AGT_STATUS.VERSION : Fld := ⟨0x1000, 32, 32, .val 0x0, .any⟩
def AGT_STATUS.LAST_TRAP : Fld := ⟨0x1000, 24, 8, .val 0x00, .any⟩
def AGT_STATUS.RESTARTS : Fld := ⟨0x1000, 16, 8, .val 0x00, .any⟩
def AGT_STATUS.GENERATION : Fld := ⟨0x1000, 8, 8, .val 0x00, .any⟩
def AGT_STATUS.STATE : Fld := ⟨0x1000, 0, 3, .val 0x0, .any⟩
/-- AGT_STATUS, frame offset 0x1000 + 16·i, class 0x0049. -/
def AGT_STATUS.desc : RegDesc := ⟨0x1000, 16, 64, 0, 0, .none,
   [⟨AGT_STATUS.VERSION, .ro, 1, 0, none, .plain⟩,
    ⟨AGT_STATUS.LAST_TRAP, .ro, 1, 0, none, .plain⟩,
    ⟨AGT_STATUS.RESTARTS, .ro, 1, 0, none, .plain⟩,
    ⟨AGT_STATUS.GENERATION, .ro, 1, 0, none, .plain⟩,
    ⟨AGT_STATUS.STATE, .ro, 1, 0, none, .plain⟩]⟩

def AGT_COUNTS.INBOX_DROP : Fld := ⟨0x1008, 32, 32, .val 0x0, .any⟩
def AGT_COUNTS.ABORTED : Fld := ⟨0x1008, 0, 32, .val 0x0, .any⟩
/-- AGT_COUNTS, frame offset 0x1008 + 16·i, class 0x0049. -/
def AGT_COUNTS.desc : RegDesc := ⟨0x1008, 16, 64, 0, 0, .none,
   [⟨AGT_COUNTS.INBOX_DROP, .ro, 1, 0, none, .plain⟩,
    ⟨AGT_COUNTS.ABORTED, .ro, 1, 0, none, .plain⟩]⟩

def LSE_STATUS.SESSIONS_UP : Fld := ⟨0x400, 32, 15, .val 0x0, .any⟩
def LSE_STATUS.SESSIONS_EN : Fld := ⟨0x400, 0, 15, .val 0x0, .any⟩
/-- LSE_STATUS, frame offset 0x400, class 0x004A. -/
def LSE_STATUS.desc : RegDesc := ⟨0x400, 0, 1, 0, 0, .none,
   [⟨LSE_STATUS.SESSIONS_UP, .ro, 1, 0, none, .plain⟩,
    ⟨LSE_STATUS.SESSIONS_EN, .ro, 1, 0, none, .plain⟩]⟩

def LSE_RX_BAD.COUNT : Fld := ⟨0x800, 0, 64, .val 0x0, .any⟩
/-- LSE_RX_BAD, frame offset 0x800, class 0x004A. -/
def LSE_RX_BAD.desc : RegDesc := ⟨0x800, 0, 1, 0, 0, .none,
   [⟨LSE_RX_BAD.COUNT, .ro, 1, 0, none, .plain⟩]⟩

def LSE_RX_NOMATCH.COUNT : Fld := ⟨0x808, 0, 64, .val 0x0, .any⟩
/-- LSE_RX_NOMATCH, frame offset 0x808, class 0x004A. -/
def LSE_RX_NOMATCH.desc : RegDesc := ⟨0x808, 0, 1, 0, 0, .none,
   [⟨LSE_RX_NOMATCH.COUNT, .ro, 1, 0, none, .plain⟩]⟩

def LSE_TX.COUNT : Fld := ⟨0x810, 0, 64, .val 0x0, .any⟩
/-- LSE_TX, frame offset 0x810, class 0x004A. -/
def LSE_TX.desc : RegDesc := ⟨0x810, 0, 1, 0, 0, .none,
   [⟨LSE_TX.COUNT, .ro, 1, 0, none, .plain⟩]⟩

/-! ### spec/14_firmware_and_trust.md -/

def FW_STATUS.SV_FUSED : Fld := ⟨0x800, 40, 8, .val 0, .any⟩
def FW_STATUS.COMMITTED_SV : Fld := ⟨0x800, 32, 8, .val 0, .any⟩
def FW_STATUS.SCHEMA : Fld := ⟨0x800, 16, 16, .val 0x0, .any⟩
def FW_STATUS.BOOT_CAUSE : Fld := ⟨0x800, 8, 4, .val 0x0, .any⟩
def FW_STATUS.ROOT_SLOT : Fld := ⟨0x800, 6, 2, .val 0x0, .any⟩
def FW_STATUS.DIAGNOSTIC : Fld := ⟨0x800, 5, 1, .val 0x0, .any⟩
def FW_STATUS.RECOVERY : Fld := ⟨0x800, 4, 1, .val 0x0, .any⟩
def FW_STATUS.STAGED : Fld := ⟨0x800, 3, 1, .val 0x0, .any⟩
def FW_STATUS.ACT_PENDING : Fld := ⟨0x800, 2, 1, .val 0x0, .any⟩
def FW_STATUS.TRIAL : Fld := ⟨0x800, 1, 1, .val 0x0, .any⟩
def FW_STATUS.SLOT : Fld := ⟨0x800, 0, 1, .val 0x0, .any⟩
/-- FW_STATUS, frame offset 0x800, class 0x0001. -/
def FW_STATUS.desc : RegDesc := ⟨0x800, 0, 1, 0, 0, .none,
   [⟨FW_STATUS.SV_FUSED, .ro, 1, 0, none, .plain⟩,
    ⟨FW_STATUS.COMMITTED_SV, .ro, 1, 0, none, .plain⟩,
    ⟨FW_STATUS.SCHEMA, .ro, 1, 0, none, .plain⟩,
    ⟨FW_STATUS.BOOT_CAUSE, .ro, 1, 0, none, .plain⟩,
    ⟨FW_STATUS.ROOT_SLOT, .ro, 1, 0, none, .plain⟩,
    ⟨FW_STATUS.DIAGNOSTIC, .ro, 1, 0, none, .plain⟩,
    ⟨FW_STATUS.RECOVERY, .ro, 1, 0, none, .plain⟩,
    ⟨FW_STATUS.STAGED, .ro, 1, 0, none, .plain⟩,
    ⟨FW_STATUS.ACT_PENDING, .ro, 1, 0, none, .plain⟩,
    ⟨FW_STATUS.TRIAL, .ro, 1, 0, none, .plain⟩,
    ⟨FW_STATUS.SLOT, .ro, 1, 0, none, .plain⟩]⟩

def FW_VERSION.STAGED_VERSION : Fld := ⟨0x808, 32, 32, .val 0x0, .any⟩
def FW_VERSION.RUNNING_VERSION : Fld := ⟨0x808, 0, 32, .val 0x0, .any⟩
/-- FW_VERSION, frame offset 0x808, class 0x0001. -/
def FW_VERSION.desc : RegDesc := ⟨0x808, 0, 1, 0, 0, .none,
   [⟨FW_VERSION.STAGED_VERSION, .ro, 1, 0, none, .plain⟩,
    ⟨FW_VERSION.RUNNING_VERSION, .ro, 1, 0, none, .plain⟩]⟩

def FW_ACT_TIME.TIME : Fld := ⟨0x810, 0, 64, .val 0x0, .any⟩
/-- FW_ACT_TIME, frame offset 0x810, class 0x0001. -/
def FW_ACT_TIME.desc : RegDesc := ⟨0x810, 0, 1, 0, 0, .none,
   [⟨FW_ACT_TIME.TIME, .ro, 1, 0, none, .plain⟩]⟩

def FW_REC_CTRL.GO : Fld := ⟨0x818, 33, 1, .val 0x0, .any⟩
def FW_REC_CTRL.HDR_CHECK : Fld := ⟨0x818, 32, 1, .val 0x0, .any⟩
def FW_REC_CTRL.TARGET : Fld := ⟨0x818, 25, 2, .val 0x0, .any⟩
def FW_REC_CTRL.LENGTH : Fld := ⟨0x818, 0, 25, .val 0x0, .any⟩
/-- FW_REC_CTRL, frame offset 0x818, class 0x0001. -/
def FW_REC_CTRL.desc : RegDesc := ⟨0x818, 0, 1, 0, 0, .none,
   [⟨FW_REC_CTRL.GO, .wo, 1, 0, none, .plain⟩,
    ⟨FW_REC_CTRL.HDR_CHECK, .wo, 1, 0, none, .plain⟩,
    ⟨FW_REC_CTRL.TARGET, .rw, 1, 0, some 2, .plain⟩,
    ⟨FW_REC_CTRL.LENGTH, .rw, 1, 0, none, .plain⟩]⟩

def FW_REC_STATUS.STATUS : Fld := ⟨0x820, 24, 8, .val 0x0, .any⟩
def FW_REC_STATUS.PROGRESS : Fld := ⟨0x820, 8, 8, .val 0x0, .any⟩
def FW_REC_STATUS.DONE : Fld := ⟨0x820, 1, 1, .val 0x0, .any⟩
def FW_REC_STATUS.BUSY : Fld := ⟨0x820, 0, 1, .val 0x0, .any⟩
/-- FW_REC_STATUS, frame offset 0x820, class 0x0001. -/
def FW_REC_STATUS.desc : RegDesc := ⟨0x820, 0, 1, 0, 0, .none,
   [⟨FW_REC_STATUS.STATUS, .ro, 1, 0, none, .plain⟩,
    ⟨FW_REC_STATUS.PROGRESS, .ro, 1, 0, none, .plain⟩,
    ⟨FW_REC_STATUS.DONE, .ro, 1, 0, none, .plain⟩,
    ⟨FW_REC_STATUS.BUSY, .ro, 1, 0, none, .plain⟩]⟩

def MGT_CFG.NET_STAGE_EN : Fld := ⟨0x400, 4, 1, .val 0x0, .any⟩
def MGT_CFG.FEC_EN : Fld := ⟨0x400, 3, 1, .val 0x0, .any⟩
def MGT_CFG.ADMIN_UP : Fld := ⟨0x400, 2, 1, .val 0x1, .any⟩
def MGT_CFG.SPEED : Fld := ⟨0x400, 0, 2, .val 0x0, .any⟩
/-- MGT_CFG, frame offset 0x400, class 0x0039. -/
def MGT_CFG.desc : RegDesc := ⟨0x400, 0, 1, 0, 0, .none,
   [⟨MGT_CFG.NET_STAGE_EN, .rw, 1, 0, none, .plain⟩,
    ⟨MGT_CFG.FEC_EN, .rw, 1, 0, none, .plain⟩,
    ⟨MGT_CFG.ADMIN_UP, .rw, 1, 0, none, .plain⟩,
    ⟨MGT_CFG.SPEED, .rw, 1, 0, some 2, .plain⟩]⟩

def MGT_IPV4.VALID : Fld := ⟨0x408, 63, 1, .val 0x0, .any⟩
def MGT_IPV4.PREFIX : Fld := ⟨0x408, 32, 6, .val 0x00, .clamp 1 32⟩
def MGT_IPV4.ADDR : Fld := ⟨0x408, 0, 32, .val 0x0, .any⟩
/-- MGT_IPV4, frame offset 0x408, class 0x0039. -/
def MGT_IPV4.desc : RegDesc := ⟨0x408, 0, 1, 0, 0, .none,
   [⟨MGT_IPV4.VALID, .rw, 1, 0, none, .plain⟩,
    ⟨MGT_IPV4.PREFIX, .rw, 1, 0, none, .plain⟩,
    ⟨MGT_IPV4.ADDR, .rw, 1, 0, none, .plain⟩]⟩

def MGT_MAC.MAC : Fld := ⟨0x410, 0, 48, .val 0, .any⟩
/-- MGT_MAC, frame offset 0x410, class 0x0039. -/
def MGT_MAC.desc : RegDesc := ⟨0x410, 0, 1, 0, 0, .none,
   [⟨MGT_MAC.MAC, .ro, 1, 0, none, .plain⟩]⟩

def MGT_STATUS.SESSION : Fld := ⟨0x418, 8, 1, .val 0x0, .any⟩
def MGT_STATUS.SPEED : Fld := ⟨0x418, 4, 2, .val 0x0, .any⟩
def MGT_STATUS.LINK_UP : Fld := ⟨0x418, 0, 1, .val 0x0, .any⟩
/-- MGT_STATUS, frame offset 0x418, class 0x0039. -/
def MGT_STATUS.desc : RegDesc := ⟨0x418, 0, 1, 0, 0, .none,
   [⟨MGT_STATUS.SESSION, .ro, 1, 0, none, .plain⟩,
    ⟨MGT_STATUS.SPEED, .ro, 1, 0, none, .plain⟩,
    ⟨MGT_STATUS.LINK_UP, .ro, 1, 0, none, .plain⟩]⟩

def MGT_RX_FRAMES.COUNT : Fld := ⟨0x800, 0, 64, .val 0x0, .any⟩
/-- MGT_RX_FRAMES, frame offset 0x800, class 0x0039. -/
def MGT_RX_FRAMES.desc : RegDesc := ⟨0x800, 0, 1, 0, 0, .none,
   [⟨MGT_RX_FRAMES.COUNT, .ro, 1, 0, none, .plain⟩]⟩

def MGT_TX_FRAMES.COUNT : Fld := ⟨0x808, 0, 64, .val 0x0, .any⟩
/-- MGT_TX_FRAMES, frame offset 0x808, class 0x0039. -/
def MGT_TX_FRAMES.desc : RegDesc := ⟨0x808, 0, 1, 0, 0, .none,
   [⟨MGT_TX_FRAMES.COUNT, .ro, 1, 0, none, .plain⟩]⟩

def MGT_HGP_BAD.COUNT : Fld := ⟨0x810, 0, 64, .val 0x0, .any⟩
/-- MGT_HGP_BAD, frame offset 0x810, class 0x0039. -/
def MGT_HGP_BAD.desc : RegDesc := ⟨0x810, 0, 1, 0, 0, .none,
   [⟨MGT_HGP_BAD.COUNT, .ro, 1, 0, none, .plain⟩]⟩

def MGT_SESSIONS.COUNT : Fld := ⟨0x818, 0, 64, .val 0x0, .any⟩
/-- MGT_SESSIONS, frame offset 0x818, class 0x0039. -/
def MGT_SESSIONS.desc : RegDesc := ⟨0x818, 0, 1, 0, 0, .none,
   [⟨MGT_SESSIONS.COUNT, .ro, 1, 0, none, .plain⟩]⟩

/-! ### spec/15_clocks_power_reset.md -/

def PWR_RESET_CAUSE.PREV_CAUSE : Fld := ⟨0x900, 16, 16, .val 0, .any⟩
def PWR_RESET_CAUSE.CAUSE : Fld := ⟨0x900, 0, 16, .val 0, .any⟩
/-- PWR_RESET_CAUSE, frame offset 0x900, class 0x0001. -/
def PWR_RESET_CAUSE.desc : RegDesc := ⟨0x900, 0, 1, 0, 0, .none,
   [⟨PWR_RESET_CAUSE.PREV_CAUSE, .ro, 1, 0, none, .plain⟩,
    ⟨PWR_RESET_CAUSE.CAUSE, .ro, 1, 0, none, .plain⟩]⟩

def PWR_CTRL.REFUSED : Fld := ⟨0x908, 16, 1, .val 0x0, .any⟩
def PWR_CTRL.KEY : Fld := ⟨0x908, 8, 8, .val 0x0, .any⟩
def PWR_CTRL.STBY_STATE : Fld := ⟨0x908, 4, 2, .val 0x0, .any⟩
def PWR_CTRL.STANDBY : Fld := ⟨0x908, 2, 1, .val 0x0, .any⟩
def PWR_CTRL.SOFT_RESET : Fld := ⟨0x908, 0, 1, .val 0x0, .any⟩
/-- PWR_CTRL, frame offset 0x908, class 0x0001. -/
def PWR_CTRL.desc : RegDesc := ⟨0x908, 0, 1, 0, 0, .none,
   [⟨PWR_CTRL.REFUSED, .w1c, 1, 0, none, .plain⟩,
    ⟨PWR_CTRL.KEY, .wo, 1, 0, none, .plain⟩,
    ⟨PWR_CTRL.STBY_STATE, .ro, 1, 0, none, .plain⟩,
    ⟨PWR_CTRL.STANDBY, .rw, 1, 0, none, .plain⟩,
    ⟨PWR_CTRL.SOFT_RESET, .wo, 1, 0, none, .plain⟩]⟩

def PWR_STRAPS.TEST : Fld := ⟨0x910, 5, 1, .val 0, .any⟩
def PWR_STRAPS.RECOVERY_N : Fld := ⟨0x910, 4, 1, .val 0, .any⟩
def PWR_STRAPS.REFB_OSC : Fld := ⟨0x910, 3, 1, .val 0, .any⟩
def PWR_STRAPS.REFA_OSC : Fld := ⟨0x910, 2, 1, .val 0, .any⟩
def PWR_STRAPS.XTAL : Fld := ⟨0x910, 0, 2, .val 0, .any⟩
/-- PWR_STRAPS, frame offset 0x910, class 0x0001. -/
def PWR_STRAPS.desc : RegDesc := ⟨0x910, 0, 1, 0, 0, .none,
   [⟨PWR_STRAPS.TEST, .ro, 1, 0, none, .plain⟩,
    ⟨PWR_STRAPS.RECOVERY_N, .ro, 1, 0, none, .plain⟩,
    ⟨PWR_STRAPS.REFB_OSC, .ro, 1, 0, none, .plain⟩,
    ⟨PWR_STRAPS.REFA_OSC, .ro, 1, 0, none, .plain⟩,
    ⟨PWR_STRAPS.XTAL, .ro, 1, 0, none, .plain⟩]⟩

def CLK_SRC_CFG.XTAL_EXTRA_MS : Fld := ⟨0x400, 32, 8, .val 0, .any⟩
def CLK_SRC_CFG.TOL_PERMIL : Fld := ⟨0x400, 24, 8, .val 0x14, .clamp 5 100⟩
def CLK_SRC_CFG.REF_RETURN : Fld := ⟨0x400, 1, 1, .val 0x0, .any⟩
def CLK_SRC_CFG.MON_EN : Fld := ⟨0x400, 0, 1, .val 0x1, .any⟩
/-- CLK_SRC_CFG, frame offset 0x400, reference blocks. -/
def CLK_SRC_CFG.desc : RegDesc := ⟨0x400, 0, 1, 0, 0, .none,
   [⟨CLK_SRC_CFG.XTAL_EXTRA_MS, .ro, 1, 0, none, .plain⟩,
    ⟨CLK_SRC_CFG.TOL_PERMIL, .rw, 1, 0, none, .plain⟩,
    ⟨CLK_SRC_CFG.REF_RETURN, .wo, 1, 0, none, .plain⟩,
    ⟨CLK_SRC_CFG.MON_EN, .rw, 1, 0, none, .plain⟩]⟩

def CLK_SRC_STATUS.PAIR_OUT : Fld := ⟨0x408, 10, 3, .val 0x0, .any⟩
def CLK_SRC_STATUS.CORE_REF : Fld := ⟨0x408, 8, 2, .val 0x0, .any⟩
def CLK_SRC_STATUS.PCIE_OK : Fld := ⟨0x408, 4, 1, .val 0x0, .any⟩
def CLK_SRC_STATUS.SOSC_OK : Fld := ⟨0x408, 3, 1, .val 0x0, .any⟩
def CLK_SRC_STATUS.FOSC_OK : Fld := ⟨0x408, 2, 1, .val 0x0, .any⟩
def CLK_SRC_STATUS.REFB_OK : Fld := ⟨0x408, 1, 1, .val 0x0, .any⟩
def CLK_SRC_STATUS.REFA_OK : Fld := ⟨0x408, 0, 1, .val 0x0, .any⟩
/-- CLK_SRC_STATUS, frame offset 0x408, reference blocks. -/
def CLK_SRC_STATUS.desc : RegDesc := ⟨0x408, 0, 1, 0, 0, .none,
   [⟨CLK_SRC_STATUS.PAIR_OUT, .ro, 1, 0, none, .plain⟩,
    ⟨CLK_SRC_STATUS.CORE_REF, .ro, 1, 0, none, .plain⟩,
    ⟨CLK_SRC_STATUS.PCIE_OK, .ro, 1, 0, none, .plain⟩,
    ⟨CLK_SRC_STATUS.SOSC_OK, .ro, 1, 0, none, .plain⟩,
    ⟨CLK_SRC_STATUS.FOSC_OK, .ro, 1, 0, none, .plain⟩,
    ⟨CLK_SRC_STATUS.REFB_OK, .ro, 1, 0, none, .plain⟩,
    ⟨CLK_SRC_STATUS.REFA_OK, .ro, 1, 0, none, .plain⟩]⟩

def CLK_MON_AMBIG.COUNT : Fld := ⟨0x410, 0, 64, .val 0x0, .any⟩
/-- CLK_MON_AMBIG, frame offset 0x410, reference blocks. -/
def CLK_MON_AMBIG.desc : RegDesc := ⟨0x410, 0, 1, 0, 0, .none,
   [⟨CLK_MON_AMBIG.COUNT, .ro, 1, 0, none, .plain⟩]⟩

def CLK_PLL_CFG.SSC_RATE_KHZ : Fld := ⟨0x800, 10, 6, .val 0x1F, .clamp 30 63⟩
def CLK_PLL_CFG.SSC_DEPTH : Fld := ⟨0x800, 1, 4, .val 0x0, .clamp 0 10⟩
def CLK_PLL_CFG.SSC_EN : Fld := ⟨0x800, 0, 1, .val 0x0, .any⟩
/-- CLK_PLL_CFG, frame offset 0x800, clock units with a PLL. -/
def CLK_PLL_CFG.desc : RegDesc := ⟨0x800, 0, 1, 0, 0, .none,
   [⟨CLK_PLL_CFG.SSC_RATE_KHZ, .rw, 1, 0, none, .spread⟩,
    ⟨CLK_PLL_CFG.SSC_DEPTH, .rw, 1, 0, none, .spread⟩,
    ⟨CLK_PLL_CFG.SSC_EN, .rw, 1, 0, none, .spread⟩]⟩

def CLK_PLL_STATUS.THROTTLE : Fld := ⟨0x808, 4, 4, .val 0x0, .any⟩
def CLK_PLL_STATUS.REF : Fld := ⟨0x808, 2, 2, .val 0x0, .any⟩
def CLK_PLL_STATUS.HOLDOVER : Fld := ⟨0x808, 1, 1, .val 0x0, .any⟩
def CLK_PLL_STATUS.LOCKED : Fld := ⟨0x808, 0, 1, .val 0x0, .any⟩
/-- CLK_PLL_STATUS, frame offset 0x808, clock units with a PLL. -/
def CLK_PLL_STATUS.desc : RegDesc := ⟨0x808, 0, 1, 0, 0, .none,
   [⟨CLK_PLL_STATUS.THROTTLE, .ro, 1, 0, none, .plain⟩,
    ⟨CLK_PLL_STATUS.REF, .ro, 1, 0, none, .plain⟩,
    ⟨CLK_PLL_STATUS.HOLDOVER, .ro, 1, 0, none, .plain⟩,
    ⟨CLK_PLL_STATUS.LOCKED, .ro, 1, 0, none, .plain⟩]⟩

def CLK_FORCED_SWITCH.COUNT : Fld := ⟨0x810, 0, 64, .val 0x0, .any⟩
/-- CLK_FORCED_SWITCH, frame offset 0x810, clock units with a PLL. -/
def CLK_FORCED_SWITCH.desc : RegDesc := ⟨0x810, 0, 1, 0, 0, .none,
   [⟨CLK_FORCED_SWITCH.COUNT, .ro, 1, 0, none, .plain⟩]⟩

def PWR_MON_CFG.RST_FILTER_NS : Fld := ⟨0x400, 24, 16, .val 0x07D0, .clamp 500 10000⟩
def PWR_MON_CFG.OV_PM : Fld := ⟨0x400, 16, 8, .val 0x32, .clamp 20 150⟩
def PWR_MON_CFG.RESET_PM : Fld := ⟨0x400, 8, 8, .val 0x46, .clamp 40 150⟩
def PWR_MON_CFG.WARN_PM : Fld := ⟨0x400, 0, 8, .val 0x1E, .clamp 10 60⟩
/-- PWR_MON_CFG, frame offset 0x400, class 0x0051. -/
def PWR_MON_CFG.desc : RegDesc := ⟨0x400, 0, 1, 0, 0, .none,
   [⟨PWR_MON_CFG.RST_FILTER_NS, .rw, 1, 0, none, .plain⟩,
    ⟨PWR_MON_CFG.OV_PM, .rw, 1, 0, none, .plain⟩,
    ⟨PWR_MON_CFG.RESET_PM, .rw, 1, 0, none, .plain⟩,
    ⟨PWR_MON_CFG.WARN_PM, .rw, 1, 0, none, .plain⟩]⟩

def PWR_MON_STATUS.MIN_MV : Fld := ⟨0x408, 48, 16, .val 0xFFFF, .any⟩
def PWR_MON_STATUS.TARGET_MV : Fld := ⟨0x408, 32, 16, .railTarget, .any⟩
def PWR_MON_STATUS.BELOW_WARN : Fld := ⟨0x408, 16, 1, .val 0x0, .any⟩
def PWR_MON_STATUS.MV : Fld := ⟨0x408, 0, 16, .val 0x0, .any⟩
/-- PWR_MON_STATUS, frame offset 0x408, class 0x0051. -/
def PWR_MON_STATUS.desc : RegDesc := ⟨0x408, 0, 1, 0, 0, .none,
   [⟨PWR_MON_STATUS.MIN_MV, .rc, 1, 0, none, .plain⟩,
    ⟨PWR_MON_STATUS.TARGET_MV, .ro, 1, 0, none, .plain⟩,
    ⟨PWR_MON_STATUS.BELOW_WARN, .ro, 1, 0, none, .plain⟩,
    ⟨PWR_MON_STATUS.MV, .ro, 1, 0, none, .plain⟩]⟩

def PWR_DIP_COUNT.COUNT : Fld := ⟨0x410, 0, 64, .val 0x0, .any⟩
/-- PWR_DIP_COUNT, frame offset 0x410, class 0x0051. -/
def PWR_DIP_COUNT.desc : RegDesc := ⟨0x410, 0, 1, 0, 0, .none,
   [⟨PWR_DIP_COUNT.COUNT, .ro, 1, 0, none, .plain⟩]⟩

def PWR_TEMP.MAX_C : Fld := ⟨0x400, 16, 8, .val 0x0, .any⟩
def PWR_TEMP.WARN : Fld := ⟨0x400, 8, 1, .val 0x0, .any⟩
def PWR_TEMP.TEMP_C : Fld := ⟨0x400, 0, 8, .val 0x0, .any⟩
/-- PWR_TEMP, frame offset 0x400, class 0x0052. -/
def PWR_TEMP.desc : RegDesc := ⟨0x400, 0, 1, 0, 0, .none,
   [⟨PWR_TEMP.MAX_C, .rc, 1, 0, none, .plain⟩,
    ⟨PWR_TEMP.WARN, .ro, 1, 0, none, .plain⟩,
    ⟨PWR_TEMP.TEMP_C, .ro, 1, 0, none, .plain⟩]⟩

def PWR_DIE_CFG.THROTTLE_EN : Fld := ⟨0x400, 0, 1, .val 0x1, .any⟩
/-- PWR_DIE_CFG, frame offset 0x400, class 0x0002. -/
def PWR_DIE_CFG.desc : RegDesc := ⟨0x400, 0, 1, 0, 0, .none,
   [⟨PWR_DIE_CFG.THROTTLE_EN, .rw, 1, 0, none, .plain⟩]⟩

def PWR_DROOP_CYCLES.COUNT : Fld := ⟨0x408, 0, 64, .val 0x0, .any⟩
/-- PWR_DROOP_CYCLES, frame offset 0x408, class 0x0002. -/
def PWR_DROOP_CYCLES.desc : RegDesc := ⟨0x408, 0, 1, 0, 0, .none,
   [⟨PWR_DROOP_CYCLES.COUNT, .ro, 1, 0, none, .plain⟩]⟩

def PWR_GATE_FORCED.COUNT : Fld := ⟨0x410, 0, 64, .val 0x0, .any⟩
/-- PWR_GATE_FORCED, frame offset 0x410, class 0x0002. -/
def PWR_GATE_FORCED.desc : RegDesc := ⟨0x410, 0, 1, 0, 0, .none,
   [⟨PWR_GATE_FORCED.COUNT, .ro, 1, 0, none, .plain⟩]⟩

def PWR_GATED_ACCESS.COUNT : Fld := ⟨0x418, 0, 64, .val 0x0, .any⟩
/-- PWR_GATED_ACCESS, frame offset 0x418, class 0x0002. -/
def PWR_GATED_ACCESS.desc : RegDesc := ⟨0x418, 0, 1, 0, 0, .none,
   [⟨PWR_GATED_ACCESS.COUNT, .ro, 1, 0, none, .plain⟩]⟩

/-! ### spec/16_package_and_electrical.md -/

def PMB_CFG.EN : Fld := ⟨0xA00, 16, 1, .val 0x0, .any⟩
def PMB_CFG.POLL_MS : Fld := ⟨0xA00, 8, 8, .val 0x0A, .clamp 1 255⟩
def PMB_CFG.SPEED : Fld := ⟨0xA00, 0, 2, .val 0x1, .any⟩
/-- PMB_CFG, frame offset 0xA00, class 0x0001. -/
def PMB_CFG.desc : RegDesc := ⟨0xA00, 0, 1, 0, 0, .none,
   [⟨PMB_CFG.EN, .rw, 1, 0, none, .plain⟩,
    ⟨PMB_CFG.POLL_MS, .rw, 1, 0, none, .plain⟩,
    ⟨PMB_CFG.SPEED, .rw, 1, 0, some 2, .plain⟩]⟩

def PMB_DEV.IOUT_CA : Fld := ⟨0xA08, 48, 16, .val 0x0, .any⟩
def PMB_DEV.STATUS_WORD : Fld := ⟨0xA08, 32, 16, .val 0x0, .any⟩
def PMB_DEV.VOUT_MV : Fld := ⟨0xA08, 16, 16, .val 0x0, .any⟩
def PMB_DEV.NO_ANSWER : Fld := ⟨0xA08, 15, 1, .val 0x0, .any⟩
def PMB_DEV.RAIL : Fld := ⟨0xA08, 8, 4, .val 0xF, .any⟩
def PMB_DEV.EN : Fld := ⟨0xA08, 7, 1, .val 0x0, .any⟩
def PMB_DEV.ADDR : Fld := ⟨0xA08, 0, 7, .val 0x00, .any⟩
/-- PMB_DEV, frame offset 0xA08 + 8·i, class 0x0001. -/
def PMB_DEV.desc : RegDesc := ⟨0xA08, 8, 16, 0, 0, .none,
   [⟨PMB_DEV.IOUT_CA, .ro, 1, 0, none, .plain⟩,
    ⟨PMB_DEV.STATUS_WORD, .ro, 1, 0, none, .plain⟩,
    ⟨PMB_DEV.VOUT_MV, .ro, 1, 0, none, .plain⟩,
    ⟨PMB_DEV.NO_ANSWER, .ro, 1, 0, none, .plain⟩,
    ⟨PMB_DEV.RAIL, .rw, 1, 0, none, .rail⟩,
    ⟨PMB_DEV.EN, .rw, 1, 0, none, .plain⟩,
    ⟨PMB_DEV.ADDR, .rw, 1, 0, none, .plain⟩]⟩

/-- The common frame header, offsets 0x000–0x3FF (R48); UF_ERR_LOG is read by `errLogWord`. -/
def headerRegs : List RegDesc :=
  [UF_CLASS.desc, UF_TREE.desc, UF_IDENT0.desc, UF_IDENT1.desc,
   UF_STATE.desc, UF_CTRL.desc, UF_TURN.desc, UF_CLKEN.desc,
   UF_EVT_PEND.desc, UF_EVT_MASK.desc, UF_EVT_ROUTE.desc, UF_EVT_SEQ.desc,
   UF_PMC_CYCLE.desc, UF_PMC_CTRL.desc, UF_PMC_SEL.desc, UF_PMC_CNT.desc,
   UF_PMC_SHADOW.desc, UF_PMC_SHADOW_CYCLE.desc, UF_PMC_SNAP_ID.desc, UF_PMC_SNAP_TIME.desc]

/-- Class region of class 0x0001. -/
def class01Regs : List RegDesc :=
  [HIF_SNAP_CTRL.desc, HDL_CFG.desc, HDL_HEARTBEAT.desc, HDL_STATUS.desc,
   HDL_SINCE.desc, HIF_RESYNC_ADDR.desc, HIF_RESYNC.desc, FW_STATUS.desc,
   FW_VERSION.desc, FW_ACT_TIME.desc, FW_REC_CTRL.desc, FW_REC_STATUS.desc,
   PWR_RESET_CAUSE.desc, PWR_CTRL.desc, PWR_STRAPS.desc, PMB_CFG.desc,
   PMB_DEV.desc]

/-- Class region of class 0x0030. -/
def class30Regs : List RegDesc :=
  [PRT_MODE.desc, PRT_LANE_MAP.desc, PRT_CTRL.desc, PRT_TIMERS.desc,
   PRT_STATUS.desc, PRT_DRAIN.desc, PRT_PTP_CFG.desc, PRT_PTP_ADJ.desc,
   PRT_RX_FRAMES.desc, PRT_RX_BYTES.desc, PRT_RX_FCS_ERR.desc, PRT_RX_UNDERSIZE.desc,
   PRT_RX_OVERSIZE.desc, PRT_RX_TRUNCATED.desc, PRT_RX_MAC_CTRL.desc, PRT_TX_FRAMES.desc,
   PRT_TX_BYTES.desc, PRT_TX_ABORT.desc, PRT_TX_OVERSIZE.desc, PRT_FEC_CW_CORR.desc,
   PRT_FEC_CW_UNCORR.desc, PRT_LINK_DOWN.desc, PRT_TRAIN_FAIL.desc, PRT_FEC_SYM_CORR.desc]

/-- Front-panel registers of the F-die frame. -/
def fDieRegs : List RegDesc :=
  [FP_SGPIO_CFG.desc, FP_SGPIO_BAD.desc, FP_LED_CFG.desc, FP_I2C_CFG.desc,
   FP_PPS_CFG.desc, FP_PPS_IN_TS.desc, FP_PPS_IN_INFO.desc, FP_TOD_CFG.desc,
   FP_TOD_OUT_INFO.desc, FP_TOD_IN.desc, FP_TOD_ERR.desc]

/-- Class region of class 0x0013. -/
def class13Regs : List RegDesc :=
  [PRS_CFG.desc, PRS_EXC_CFG.desc, PRS_FRAG_CFG.desc, FRAG_CREATED.desc,
   FRAG_HIT.desc, FRAG_NO_ENTRY.desc, FRAG_FULL.desc, FRAG_AGED.desc,
   FRAG_OCCUPANCY.desc, PRS_DEPTH_CNT.desc, PRS_UNKNOWN_CNT.desc, PRS_NODE_LEN.desc,
   PRS_NODE_NEXT.desc, PRS_NODE_CHECK.desc, PRS_TRANS.desc, PRS_LEN_CONFLICT.desc]

/-- Class region of class 0x0014. -/
def class14Regs : List RegDesc :=
  [CLS_EPOCH.desc, CLS_SPARE.desc, CLS_ENTRY_FIX.desc, CLS_PART_CFG.desc,
   CLS_PART_STATE.desc, CLS_KEY_PROFILE.desc, PNT_Q_CFG.desc, PNT_PASS.desc,
   PNT_DROP.desc]

/-- Class region of class 0x0018. -/
def class18Regs : List RegDesc :=
  [SIP_CFG.desc, SIP_PASSES.desc, SIP_PASS_LIMIT.desc, SIP_OVERFLOW.desc]

/-- Class region of class 0x0016. -/
def class16Regs : List RegDesc :=
  [TBE_CFG.desc, TBE_LEARN_PORT0.desc, TBE_LEARN_PORT1.desc, TBE_HASH_SEED.desc,
   TBE_FLOW_HASH.desc, TBE_SUMP.desc, TBE_OCC0.desc, TBE_OCC1.desc,
   TBE_NO_ROUTE.desc, TBE_LABEL_MISS.desc, TBE_NH_INVALID.desc, TBE_NH_DROP.desc,
   TBE_LEARNS.desc, TBE_LEARN_MERGED.desc, TBE_LEARN_DROP.desc, TBE_MOVES.desc,
   TBE_STATIC_MOVES.desc, TBE_AGED.desc, TBE_AGE_CANCEL.desc, TBE_ACT_LATE.desc,
   TBE_RELOCATIONS.desc, TBE_SUMP_INSERTS.desc, TBE_TABLE_FULL.desc, TBE_LOOKUP_ECC.desc,
   TBE_ROUTE_GEN.desc]

/-- Class region of class 0x0010. -/
def class10Regs : List RegDesc :=
  [LAT_STATUS.desc, LAT_OVERRUN.desc, LAT_DROP.desc]

/-- Class region of class 0x0011. -/
def class11Regs : List RegDesc :=
  [FLM_STATUS.desc, FLM_PASSES.desc, FLM_REPLAYED.desc, FLM_SENTINELS.desc,
   FLM_FAULT_DISCARD.desc]

/-- Class region of class 0x0017. -/
def class17Regs : List RegDesc :=
  [DST_FWD_CFG.desc, DST_RMAC.desc, DST_TUNNEL.desc, DST_MIRROR.desc,
   DST_MIR_DROP.desc, DST_CNT_LOST.desc]

/-- Class region of class 0x0019. -/
def class19Regs : List RegDesc :=
  [EDT_STATUS.desc, EDT_CHECK_ERR.desc, EDT_SRC_SUPPRESS.desc, EDT_ENCAP_ERR.desc,
   EDT_EG_DROP.desc, EDT_PTP_SKIP.desc]

/-- Class region of class 0x0020. -/
def class20Regs : List RegDesc :=
  [TMQ_CFG.desc, TMQ_DROP_VOQ.desc, TMQ_DROP_EQ.desc, TMQ_ECN_MARK_VOQ.desc,
   TMQ_ECN_MARK_EQ.desc, TMQ_PORT_SUB.desc, TMQ_AP_LIM.desc, TMQ_AP_SPILL.desc,
   TMQ_AP_G.desc, TMQ_AP_Y.desc, TMQ_AP_R.desc]

/-- Class region of class 0x0023. -/
def class23Regs : List RegDesc :=
  [BPM_QUOTA_SEL.desc, BPM_QUOTA.desc, BPM_QUOTA_USE.desc, BPM_POOL_CFG.desc,
   BPM_POOL_STATUS.desc, BPM_POOL_REFUSED.desc, BPM_POOL_FALLBACK.desc, BPM_DOUBLE_FREE.desc,
   BPM_WRONG_OWNER.desc, BPM_REQ_FAIL.desc]

/-- Class region of class 0x0024. -/
def class24Regs : List RegDesc :=
  [SPW_CFG.desc, SPW_STATUS.desc, SPW_BLOCKS_WRITTEN.desc, SPW_BLOCKS_READ.desc,
   SPW_DEFERRED.desc, SPW_READ_ERR.desc, SPW_LOST_BYTES.desc]

/-- Class region of class 0x0021. -/
def class21Regs : List RegDesc :=
  [TMS_PAIR.desc, TMS_PORT_CFG.desc, TMS_PORT_STATUS.desc, TMS_PORT_AGED.desc,
   TMS_PORT_FLUSH.desc]

/-- Class region of class 0x0027. -/
def class27Regs : List RegDesc :=
  [SLC_PORT_CFG.desc, SLC_PORT_STATUS.desc, SLC_OVERRUN.desc, SLC_NEVER_FITS.desc]

/-- Class region of class 0x0028. -/
def class28Regs : List RegDesc :=
  [SMP_CFG.desc, SMP_STATUS.desc, SMP_HOST_MISS.desc, SMP_VOQ_AGED.desc]

/-- Class region of class 0x0029. -/
def class29Regs : List RegDesc :=
  [MTR_GREEN.desc, MTR_YELLOW.desc, MTR_RED.desc, MTR_REPAIR.desc]

/-- Class region of class 0x0031. -/
def class31Regs : List RegDesc :=
  [ZFP_LINK_CFG.desc, ZFP_LINK_STATUS.desc, ZFP_LINK_REACH.desc, ZFP_CELLS_TX.desc,
   ZFP_CELLS_RX.desc, ZFP_CRC_ERR.desc, ZFP_FEC_UNCORR.desc, ZFP_NAK_TX.desc,
   ZFP_NAK_RX.desc, ZFP_RETRY_CELLS.desc, ZFP_OOS_DISCARD.desc, ZFP_RESPRAYED.desc,
   ZFP_LINK_DOWN.desc, ZFP_TRAIN_FAIL.desc]

/-- Class region of class 0x0032. -/
def class32Regs : List RegDesc :=
  [ZFP_DEV_CFG.desc, ZFP_MC_CFG.desc, ZFP_STATUS.desc, ZFP_RESPRAY_DROP.desc,
   ZFP_CREDIT_WASTE.desc, ZFP_MC_UNREACH.desc, ZFP_CTRL_BAD.desc, ZFP_CTRL_DUP.desc]

/-- Class region of class 0x0022. -/
def class22Regs : List RegDesc :=
  [CRD_CFG.desc, CRD_CLASS_WT.desc, CRD_GRANTS.desc, CRD_REQ_RX.desc,
   CRD_PORT_STATE_TX.desc, CRD_PAIR.desc]

/-- Class region of class 0x0025. -/
def class25Regs : List RegDesc :=
  [RSQ_CFG.desc, RSQ_DUP.desc, RSQ_TIMEOUTS.desc, RSQ_LOST_CELLS.desc,
   RSQ_DISCARD.desc, RSQ_MC_LATE.desc, RSQ_RESYNC.desc, RSQ_STALE.desc,
   RSQ_SRC_LOST.desc]

/-- Class region of class 0x0026. -/
def class26Regs : List RegDesc :=
  [TRN_COPIES.desc, TRN_MISS_DOWN.desc, TRN_MISS_LIMIT.desc, TRN_MISS_READ.desc,
   TRN_NO_GROUP.desc]

/-- Class region of class 0x0040. -/
def class40Regs : List RegDesc :=
  [DRC_STACK_CFG.desc, DRC_STACK_STATUS.desc, DRC_CH_MAP.desc, DRC_ROT_INFO.desc,
   DRC_ROT_TIME.desc, DRC_UE_LOG.desc, DRC_OVERDUE.desc, DRC_DEAD_ACCESS.desc,
   DRC_SCRUB_PASSES.desc, DRC_REFRESH_FORCED.desc]

/-- Class region of class 0x0041. -/
def class41Regs : List RegDesc :=
  [DRC_CH_STATUS.desc, DRC_CH_TRAIN_TIME.desc, DRC_CE.desc, DRC_UE.desc,
   DRC_ODECC_CE.desc, DRC_INORDER.desc, DRC_TRAIN_FAIL.desc, DRC_CE_LAST_S.desc]

/-- Class region of class 0x0005. -/
def class05Regs : List RegDesc :=
  [RID_CFG.desc, RID_STATUS.desc, RID_DECLARED.desc, RID_SUSPECTS.desc,
   RID_CLEARED.desc, RID_REJECT_TURN.desc, RID_REJECT_CHECK.desc, RID_REPLAY_DUP.desc,
   RID_SHADOW_MISMATCH.desc, RID_RESYNC.desc, RID_LAPSES.desc]

/-- Class region of class 0x0038. -/
def class38Regs : List RegDesc :=
  [HIF_ID.desc, HIF_STATUS.desc, HIF_RING_SEL.desc, HIF_RING_BASE.desc,
   HIF_RING_CFG.desc, HIF_RING_STATE.desc, HIF_RING_CTRL.desc, HIF_DOORBELL_BAD.desc,
   HIF_MALFORMED.desc, HIF_UNSUPPORTED.desc, HIF_CPL_LOST.desc, HIF_DMA_ERR.desc,
   HIF_RX_NOBUF.desc, HIF_RX_PACKETS.desc]

/-- Class region of class 0x0049. -/
def class49Regs : List RegDesc :=
  [SVC_PTP_CFG.desc, SVC_PTP_STATUS.desc, SVC_PTP_PORTS0.desc, SVC_PTP_PORTS1.desc,
   SVC_CFG.desc, SVC_STATUS.desc, SVC_LEARN_EXPORTED.desc, SVC_LEARN_EXPORT_DROP.desc,
   SVC_REDIRECT_DROP.desc, SVC_TASK_RESTART.desc, AGT_STATUS.desc, AGT_COUNTS.desc]

/-- Class region of class 0x004A. -/
def class4ARegs : List RegDesc :=
  [LSE_STATUS.desc, LSE_RX_BAD.desc, LSE_RX_NOMATCH.desc, LSE_TX.desc]

/-- Class region of class 0x0039. -/
def class39Regs : List RegDesc :=
  [MGT_CFG.desc, MGT_IPV4.desc, MGT_MAC.desc, MGT_STATUS.desc,
   MGT_RX_FRAMES.desc, MGT_TX_FRAMES.desc, MGT_HGP_BAD.desc, MGT_SESSIONS.desc]

/-- Registers of UN 768 and UN 784. -/
def refBlockRegs : List RegDesc :=
  [CLK_SRC_CFG.desc, CLK_SRC_STATUS.desc, CLK_MON_AMBIG.desc]

/-- Registers of the clock units that drive a PLL. -/
def pllRegs : List RegDesc :=
  [CLK_PLL_CFG.desc, CLK_PLL_STATUS.desc, CLK_FORCED_SWITCH.desc]

/-- Class region of class 0x0051. -/
def class51Regs : List RegDesc :=
  [PWR_MON_CFG.desc, PWR_MON_STATUS.desc, PWR_DIP_COUNT.desc]

/-- Class region of class 0x0052. -/
def class52Regs : List RegDesc :=
  [PWR_TEMP.desc]

/-- Class region of class 0x0002. -/
def class02Regs : List RegDesc :=
  [PWR_DIE_CFG.desc, PWR_DROOP_CYCLES.desc, PWR_GATE_FORCED.desc, PWR_GATED_ACCESS.desc]

/-- The class region of a class code, clock units apart. -/
def classRegs (c : Nat) : List RegDesc :=
  match c with
  | 0x01 => class01Regs
  | 0x30 => class30Regs
  | 0x13 => class13Regs
  | 0x14 => class14Regs
  | 0x18 => class18Regs
  | 0x16 => class16Regs
  | 0x10 => class10Regs
  | 0x11 => class11Regs
  | 0x17 => class17Regs
  | 0x19 => class19Regs
  | 0x20 => class20Regs
  | 0x23 => class23Regs
  | 0x24 => class24Regs
  | 0x21 => class21Regs
  | 0x27 => class27Regs
  | 0x28 => class28Regs
  | 0x29 => class29Regs
  | 0x31 => class31Regs
  | 0x32 => class32Regs
  | 0x22 => class22Regs
  | 0x25 => class25Regs
  | 0x26 => class26Regs
  | 0x40 => class40Regs
  | 0x41 => class41Regs
  | 0x05 => class05Regs
  | 0x38 => class38Regs
  | 0x49 => class49Regs
  | 0x4A => class4ARegs
  | 0x39 => class39Regs
  | 0x51 => class51Regs
  | 0x52 => class52Regs
  | 0x02 => class02Regs
  | _ => []

end Sys2Proof.Machine
end

