-- ==== Sys2Proof/Machine/Regs.lean ====
section
/-! DEFINITION. Reading and writing register fields: the one home of every register (R8, R46, R554). -/
namespace Sys2Proof.Machine

/-- Is a port the lead port of its octet (R77)? -/
def isLeadUn (un : Nat) : Bool := un % 8 == 0

/-- Target of the rail a supply monitor watches at reset, mV (R516, R517): index UN − 800. VDD_F and VDD_Q start at the
regulators' start-up value (R525). -/
def railNominal (i : Nat) : Nat :=
  match i with
  | 0 | 2 | 8 | 10 => 750
  | 1 | 5 | 9 | 15 => 800
  | 3 | 11 => 850
  | 4 | 12 => 1200
  | 6 | 13 => 1050
  | _ => 1800

/-- Index of a (requester, pool) pair in the BPM_QUOTA windows. -/
def quotaIx (req pool : Nat) : Nat := pool * 64 + req

/-- A pair's quotas at reset: MAX is the pool's COUNT; GUAR is 0 but for the laterals, the resequencer and the spillway
controller in pool 0 (R235). -/
def quotaReset (i : Nat) (max : Bool) : Nat :=
  if max then (if i / 64 = 0 then 0x80000 else if i / 64 = 1 then 0x700000 else 0)
  else if i < 4 then 16384 else if i = 4 then 65536 else if i = 6 then 8192 else 0

/-- Reset value of a field in a unit, at an index. -/
def resetVal (un : Nat) (r : Rst) (i : Nat) : Nat :=
  match r with
  | .val n => n
  | .classCode => classOf un
  | .depth => depthOf un
  | .childCount => (childrenOf un).length
  | .nextSibling => nextSibling un
  | .firstChild => (childrenOf un).headD 0xFFFF
  | .parent => parentOf un
  | .sourceId => commonSource un
  | .leadOnly n => if isLeadUn un then n else 0
  | .portGroup => if un - 80 < 8 then un - 80 else 0xF
  | .perIndex n => n * i
  | .quotaMax => quotaReset i true
  | .quotaGuar => quotaReset i false
  | .pool p0 p1 o => if i = 0 then p0 else if i = 1 then p1 else o
  | .pasr => if un < 516 then 0x0F else 0x80
  | .railTarget => railNominal (un - 800)

/-- The key of a field: unit, register offset, lowest bit, index. -/
def Fld.key (f : Fld) (un i : Nat) : Key := [un, f.off, f.lo, i]

/-- A field's value at an index of its register array. -/
def Dev.getI (d : Dev) (un : Nat) (f : Fld) (i : Nat) : Nat :=
  (d.fields.get? (f.key un i)).getD (resetVal un f.rst i)

/-- A field's value. -/
def Dev.get (d : Dev) (un : Nat) (f : Fld) : Nat := d.getI un f 0

/-- A one-bit field as a truth value. -/
def Dev.flagI (d : Dev) (un : Nat) (f : Fld) (i : Nat) : Bool := d.getI un f i == 1

def Dev.flag (d : Dev) (un : Nat) (f : Fld) : Bool := d.flagI un f 0

/-- Put a value, cut to the field's width, into a field at an index. -/
def Dev.setI (d : Dev) (un : Nat) (f : Fld) (i v : Nat) : Dev :=
  { d with
    fields := d.fields.put (f.key un i)
      (if v % 2 ^ f.width = resetVal un f.rst i then none else some (v % 2 ^ f.width)) }

def Dev.set (d : Dev) (un : Nat) (f : Fld) (v : Nat) : Dev := d.setI un f 0 v

/-- Put a field back to its reset value. -/
def Dev.clearFldI (d : Dev) (un : Nat) (f : Fld) (i : Nat) : Dev :=
  { d with fields := d.fields.put (f.key un i) none }

def Dev.setFlag (d : Dev) (un : Nat) (f : Fld) (b : Bool) : Dev := d.set un f b.toNat

def Dev.setFlagI (d : Dev) (un : Nat) (f : Fld) (i : Nat) (b : Bool) : Dev := d.setI un f i b.toNat

/-- What a field's value acts as (R554). -/
def Dev.actI (d : Dev) (un : Nat) (f : Fld) (i : Nat) : Nat := f.rng.act (d.getI un f i)

def Dev.act (d : Dev) (un : Nat) (f : Fld) : Nat := d.actI un f 0

/-- Add to a counter, which wraps to 0. -/
def Dev.addI (d : Dev) (un : Nat) (f : Fld) (i n : Nat) : Dev := d.setI un f i (d.getI un f i + n)

def Dev.bumpI (d : Dev) (un : Nat) (f : Fld) (i : Nat) : Dev := d.addI un f i 1

def Dev.bump (d : Dev) (un : Nat) (f : Fld) : Dev := d.bumpI un f 0

def Dev.add (d : Dev) (un : Nat) (f : Fld) (n : Nat) : Dev := d.addI un f 0 n

/-- Add 1 to a field that stops at its largest value. -/
def Dev.bumpSatI (d : Dev) (un : Nat) (f : Fld) (i : Nat) : Dev :=
  d.setI un f i (satAdd (2 ^ f.width - 1) (d.getI un f i) 1)

def Dev.bumpSat (d : Dev) (un : Nat) (f : Fld) : Dev := d.bumpSatI un f 0

end Sys2Proof.Machine
end

