-- ==== Sys2Proof/Machine/Ops.lean ====
section
/-! DEFINITION. The shared operations over the device: writes to host memory, event records and interrupts, service states, fault
records, and the completion of commands. -/
namespace Sys2Proof.Machine

def uHIF : Nat := 448

/-! ### Performance counters (R66–R71) -/

/-- Mask of a PMC counter. -/
def pmcMax : Nat := 2 ^ 48

/-- Add to counter `n` of a unit; a wrap carries into a chained successor, or marks OVF in the returned mask (R68, R69).
`fuel` counters remain above `n`. -/
def Dev.pmcAdd : Nat → Dev → Nat → Nat → Nat → Dev × Nat
  | 0, d, _, _, _ => (d, 0)
  | fuel + 1, d, un, n, q =>
    let v := d.getI un UF_PMC_CNT.COUNT n + q
    let d' := d.setI un UF_PMC_CNT.COUNT n v
    if v < pmcMax then (d', 0)
    else if n < 7 ∧ bit (d.get un UF_PMC_CTRL.CHAIN) n then Dev.pmcAdd fuel d' un (n + 1) 1
    else (d'.set un UF_PMC_CTRL.OVF (d'.get un UF_PMC_CTRL.OVF ||| 2 ^ n), 2 ^ n)

/-- Does a code name a signal that lasts, so that edge and level mode differ (R67, R71 and the class chapters' tables)? -/
def lasting (cls code : Nat) : Bool :=
  [0x01, 0x02, 0x03, 0x08, 0x09, 0x0C].contains code
  || [(0x02, 0x21), (0x11, 0x24), (0x12, 0x22), (0x18, 0x21), (0x21, 0x23), (0x24, 0x23), (0x27, 0x20), (0x30, 0x26), (0x31, 0x24),
      (0x40, 0x21), (0x41, 0x23), (0x49, 0x21), (0x50, 0x21), (0x51, 0x20), (0x52, 0x20)].contains (cls, code)

/-- Does a code name a quantity that counts in every cycle? -/
def perCycle (cls code : Nat) : Bool :=
  [(0x05, 0x24), (0x10, 0x22), (0x11, 0x23), (0x25, 0x21), (0x31, 0x23), (0x38, 0x22)].contains (cls, code)

/-- Lasting signals whose 0-to-1 transitions are steps of the model, which count them there in edge mode; the transitions of the others
are seen as time passes (R67). -/
def edgeKnown (cls code : Nat) : Bool :=
  [(0x02, 0x21), (0x11, 0x24), (0x18, 0x21), (0x21, 0x23), (0x24, 0x23), (0x30, 0x26), (0x31, 0x24), (0x40, 0x21), (0x50, 0x21),
   (0x51, 0x20), (0x52, 0x20)].contains (cls, code)

/-- Is counter `n` of a unit enabled, and does it count by its own select (R67, R68)? -/
def Dev.pmcOn (d : Dev) (un n : Nat) : Bool :=
  bit (d.get un UF_PMC_CTRL.CNT_EN) n && (n == 0 || !bit (d.get un UF_PMC_CTRL.CHAIN) (n - 1))

/-- Does counter `n` of a unit count cycles of a lasting signal: level mode is MODE 1 (R67)? -/
def Dev.pmcLevel (d : Dev) (un n : Nat) : Bool :=
  d.getI un UF_PMC_SEL.MODE n == 1 && lasting (classOf un) (d.getI un UF_PMC_SEL.CODE n)

/-- Does counter `n` of a unit count event code `code`, which happens at a moment (R67, R68)? `sel`, the class's filter, says which
QUALIFIERs select it. -/
def Dev.pmcCounts (d : Dev) (un n code : Nat) (sel : Nat → Bool) : Bool :=
  d.pmcOn un n && (d.getI un UF_PMC_SEL.CODE n == code) && !d.pmcLevel un n && sel (d.getI un UF_PMC_SEL.QUALIFIER n)

/-- Count a quantity of one event code in every counter of a unit that selects it; the mask tells which overflowed. -/
def Dev.pmcTally (d : Dev) (un code q : Nat) (sel : Nat → Bool) : Dev × Nat :=
  if d.get un UF_PMC_CTRL.CNT_EN = 0 then (d, 0) else
  (List.range 8).foldl (fun (acc : Dev × Nat) n =>
    if acc.1.pmcCounts un n code sel then
      let r := Dev.pmcAdd 8 acc.1 un n q
      (r.1, acc.2 ||| r.2)
    else acc) (d, 0)

/-! ### Events that arise while a record is being written (R59, R62, R64, R69) -/

def Dev.source (d : Dev) (src : Nat) : Source := d.ev.sources.getD {} [src]

def Dev.setSource (d : Dev) (src : Nat) (s : Source) : Dev :=
  { d with ev := { d.ev with sources := d.ev.sources.setD {} [src] s } }

/-- The number after `n`: 0xFFFF_FFFF is followed by 1 (R59). -/
def nextSeq (n : Nat) : Nat := if n = 0xFFFFFFFF then 1 else n + 1

/-- A record of a source is numbered and held: while fewer than 8 are, otherwise it is lost, and the next record numbered carries
DROPPED (R59, R64). -/
def Dev.hold (d : Dev) (src un type time : Nat) (payload : List Byte) : Dev :=
  let s := d.source src
  let seq := nextSeq s.lastSeq
  if s.held.length < 8 then
    d.setSource src
      { lastSeq := seq, held := s.held ++ [⟨un, src, type, seq, time, (nmiTypes (classOf un)).contains type, s.lost, payload⟩],
        lost := false }
  else d.setSource src { s with lastSeq := seq, lost := true }

/-- PEND of a type sets and the occurrence is noted (R62). -/
def Dev.pend (d : Dev) (un type : Nat) (payload : List Byte) : Dev :=
  let d := d.set un UF_EVT_PEND.PEND (setBit (d.get un UF_EVT_PEND.PEND) type true)
  { d with ev := { d.ev with latest := d.ev.latest.insert [un, type] (d.now, payload) } }

/-- Raise PMC_OVERFLOW for counters that wrapped while the device was writing to the host: its record is held until
EVENT_DELIVER, since the write goes before it. -/
def Dev.overflowHeld (d : Dev) (un mask : Nat) : Dev :=
  if mask = 0 then d else
  let d := d.pend un 0x04 (leBytes 1 mask)
  if bit (d.get un UF_EVT_MASK.MASK) 0x04 then d else d.hold (sourceOf un 0x04) un 0x04 d.now (leBytes 1 mask)

/-- Counters of a unit wrapped during such a write: PMC_OVERFLOW is raised, and counted as an event in the unit and its groups, whose
wraps are raised in their turn (R69, R71, R72). -/
def Dev.raisedHeldN : Nat → Dev → Nat → Nat → Dev
  | 0, d, _, _ => d
  | n + 1, d, un, mask =>
    if mask = 0 then d else
    (un :: ancestors un).foldl (fun d u =>
      let c := d.pmcTally u 0x0A 1 (fun _ => true)
      Dev.raisedHeldN n c.1 u c.2) (d.overflowHeld un mask)

/-- Count a quantity of the host interface while it writes. -/
def Dev.tallyHeld (d : Dev) (code q : Nat) : Dev :=
  let r := d.pmcTally uHIF code q (fun _ => true)
  Dev.raisedHeldN 6 r.1 uHIF r.2

/-- Write bytes into host memory, counting DMA_WR_BYTES (R401, R436). -/
def Dev.hostWrite (d : Dev) (addr : Nat) (bs : List Byte) : Dev :=
  let d := d.tallyHeld 0x24 bs.length
  { d with hif := { d.hif with dma := d.hif.dma ++ [(addr, bs)] } }

/-! ### Rings and interrupts (R404–R416) -/

/-- Ring kinds of HIF_RING_SEL. -/
def kSQ : Nat := 0
def kCQ : Nat := 1
def kEQ : Nat := 2
def kRXQ : Nat := 3

/-- Index of a ring in the HIF_RING_ windows. -/
def ringIx (kind n : Nat) : Nat := kind * 4096 + n

/-- How many rings a kind has. -/
def ringCount (kind : Nat) : Nat :=
  if kind = 0 then 4096 else if kind = 1 then 1024 else 64

/-- HIF_RING_STATE values (R404). -/
def rDISABLED : Nat := 0
def rENABLED : Nat := 1
def rDISABLING : Nat := 2
def rERROR : Nat := 3

def Dev.ringState (d : Dev) (k : Nat) : Nat := d.getI uHIF HIF_RING_STATE.STATE k

def Dev.ringSize (d : Dev) (k : Nat) : Nat := 2 ^ d.getI uHIF HIF_RING_CFG.SIZE_LOG2 k

/-- Entries between HEAD and TAIL (R405). -/
def Dev.ringUsed (d : Dev) (k : Nat) : Nat :=
  (d.getI uHIF HIF_RING_STATE.TAIL k + 65536 - d.getI uHIF HIF_RING_STATE.HEAD k) % 65536

/-- Can the device write an entry into a CQ or EQ (R405, R420)? -/
def Dev.ringHasRoom (d : Dev) (k : Nat) : Bool :=
  d.ringState k == rENABLED && decide (d.ringUsed k < d.ringSize k)

/-- Address of a ring's entry `i` (R405). -/
def Dev.ringAddr (d : Dev) (k i size : Nat) : Nat :=
  d.getI uHIF HIF_RING_BASE.BASE k + (i % d.ringSize k) * size

/-- PHASE of entry `i` (R415). -/
def Dev.ringPhase (d : Dev) (k i : Nat) : Bool := i / d.ringSize k % 2 == 0

/-- Send an MSI-X message, or set its pending bit while the vector is masked (R416, R560). Entry words: address low,
address high, data, control; control bit 0 is the mask, set at reset as PCIe has it. -/
def Dev.sendMsix (d : Dev) (v : Nat) : Dev :=
  if bit (d.hif.msix.getD 1 [v, 3]) 0 then { d with hif := { d.hif with pba := setBit d.hif.pba v true } }
  else (d.hostWrite (d.hif.msix.getD 0 [v, 0] + 2 ^ 32 * d.hif.msix.getD 0 [v, 1])
    (leBytes 4 (d.hif.msix.getD 0 [v, 2]))).tallyHeld 0x25 1

/-- Raise a ring's vector: ARMED clears and every entry is signalled (R416). -/
def Dev.signalRing (d : Dev) (k : Nat) : Dev :=
  let d := d.setI uHIF HIF_RING_STATE.ARMED k 0
  let d := { d with hif := { d.hif with unsig := d.hif.unsig.erase [k] } }
  d.sendMsix (d.getI uHIF HIF_RING_CFG.VECTOR k)

/-- COAL_COUNT of a CQ or EQ: 0 acts as 1. -/
def Dev.coalCount (d : Dev) (k : Nat) : Nat := max 1 (d.getI uHIF HIF_RING_CFG.LIMIT k)

/-- Note an entry just written: count it, and raise the vector when ARMED and COAL_COUNT is reached (R416). -/
def Dev.noteEntry (d : Dev) (k : Nat) : Dev :=
  let u := d.hif.unsig.getD [] [k] ++ [d.now]
  let d := { d with hif := { d.hif with unsig := d.hif.unsig.insert [k] u } }
  if d.getI uHIF HIF_RING_STATE.ARMED k = 1 ∧ d.coalCount k ≤ u.length then d.signalRing k else d

/-- Write an entry at a CQ's or EQ's TAIL: bytes 4 to 31, and in a second, later write bytes 0 to 3, whose last carries PHASE in bit 7 (R58,
R414, R415). -/
def Dev.pushEntry (d : Dev) (k : Nat) (bytes : List Byte) : Dev :=
  let t := d.getI uHIF HIF_RING_STATE.TAIL k
  let b3 := leAt bytes 3 1
  let bytes := patch bytes 3 (leBytes 1 (setBit b3 7 (d.ringPhase k t)))
  let d := (d.hostWrite (d.ringAddr k t 32 + 4) (bytes.drop 4)).hostWrite (d.ringAddr k t 32) (bytes.take 4)
  let d := d.setI uHIF HIF_RING_STATE.TAIL k (t + 1)
  let d := d.setI uHIF HIF_RING_STATE.PHASE k (d.ringPhase k ((t + 1) % 65536)).toNat
  d.noteEntry k

/-! ### Agents' inboxes (R466) -/

def Dev.agent (d : Dev) (slot : Nat) : Agent := d.agents.getD {} [slot]

def Dev.setAgent (d : Dev) (slot : Nat) (a : Agent) : Dev := { d with agents := d.agents.setD {} [slot] a }

/-- Bytes a message takes: its 8-byte header and its body. -/
def Msg.size (m : Msg) : Nat := 8 + m.body.length

/-- The agent slot of a command, none for the host's. -/
def Ticket.agent? (t : Ticket) : Option Nat :=
  match t.origin with
  | .agent slot => some slot
  | .agentChained slot _ _ => some slot
  | _ => none

/-- Commands of an agent that are in flight. -/
def Dev.agentInflight (d : Dev) (slot : Nat) : Nat :=
  (d.hif.inflight.filter (fun f => f.ticket.agent? == some slot)).length

/-- Inbox bytes in use, room reserved for completions included (R466). -/
def Dev.inboxUsed (d : Dev) (slot : Nat) : Nat :=
  ((d.agent slot).inbox.map Msg.size).sum + 40 * d.agentInflight slot

def uSVC : Nat := 730

/-- Queue a message other than a completion: dropped and counted when the inbox is full, and the next one delivered carries
DROPPED (R466). -/
def Dev.pushMsg (d : Dev) (slot kind : Nat) (body : List Byte) : Dev :=
  let a := d.agent slot
  if d.inboxUsed slot + 8 + body.length ≤ a.inboxKib * 1024 then
    d.setAgent slot { a with inbox := a.inbox ++ [⟨kind, a.lost, body⟩], lost := false }
  else (d.setAgent slot { a with lost := true }).bumpI uSVC AGT_COUNTS.INBOX_DROP slot

/-- Queue a completion, for which room was reserved. -/
def Dev.pushCpl (d : Dev) (slot : Nat) (body : List Byte) : Dev :=
  let a := d.agent slot
  d.setAgent slot { a with inbox := a.inbox ++ [⟨1, a.lost, body⟩], lost := false }

/-- Agent slots that subscribe to an event source. -/
def Dev.subscribers (d : Dev) (src : Nat) : List Nat :=
  (d.agents.filter (fun e => e.2.subs.contains src)).map (fun e => e.1.headD 0)

/-! ### Events (R57–R65) -/

/-- The 32 bytes of an event record, PHASE 0 (R58). -/
def EvRec.bytes (r : EvRec) : List Byte :=
  leBytes 2 r.un ++ leBytes 2 (r.source + r.nmi.toNat * 2 ^ 9) ++ leBytes 1 r.type ++ leBytes 1 r.dropped.toNat ++ leBytes 2 0
  ++ leBytes 8 r.time ++ leBytes 4 r.seq ++ slice r.payload 0 12

/-- The event ring a unit's records go to. -/
def Dev.evtRing (d : Dev) (un : Nat) : Nat := ringIx kEQ (d.get un UF_EVT_ROUTE.EVT_RING)

/-- Deliver a record into its ring, and to subscribed agents when COPY_CLUSTER is set (R465). -/
def Dev.deliverRec (d : Dev) (r : EvRec) : Dev :=
  let d := d.pushEntry (d.evtRing r.un) r.bytes
  if d.flag r.un UF_EVT_ROUTE.COPY_CLUSTER then
    (d.subscribers r.source).foldl (fun d slot => d.pushMsg slot 3 r.bytes) d
  else d

/-- Issue a record of a source: number it; deliver it when the source holds none and the ring has room; hold it while fewer
than 8 are held; otherwise it is lost, and the next record numbered carries DROPPED (R59, R64). -/
def Dev.issue (d : Dev) (src un type : Nat) (time : Nat) (payload : List Byte) : Dev :=
  let s := d.source src
  let seq := nextSeq s.lastSeq
  if s.held.isEmpty ∧ d.ringHasRoom (d.evtRing un) then
    (d.setSource src { s with lastSeq := seq, lost := false }).deliverRec
      ⟨un, src, type, seq, time, (nmiTypes (classOf un)).contains type, s.lost, payload⟩
  else d.hold src un type time payload

/-- Set PEND and note the occurrence; issue a record unless the type is masked (R62). -/
def Dev.raiseCore (d : Dev) (src un type : Nat) (payload : List Byte) : Dev :=
  let d := d.pend un type payload
  if bit (d.get un UF_EVT_MASK.MASK) type then d else d.issue src un type d.now payload

/-- Is any non-maskable PEND bit set anywhere (R65)? -/
def Dev.nmiPending (d : Dev) : Bool :=
  d.fields.any (fun e =>
    match e.1 with
    | [un, off, lo, _] => off == UF_EVT_PEND.PEND.off && lo == UF_EVT_PEND.PEND.lo && (e.2 &&& nmiMask (classOf un)) != 0
    | _ => false)

/-- Raise an event on a source: R62, then the NMI_N pin, whose assertion raises NMI_ASSERTED on source 0 (R65). -/
def Dev.raiseOn (d : Dev) (src un type : Nat) (payload : List Byte) : Dev :=
  let d := d.raiseCore src un type payload
  if (nmiTypes (classOf un)).contains type ∧ ¬ d.ev.nmi then
    let d := { d with ev := { d.ev with nmi := true } }
    d.raiseCore 0 0 0x1A (leBytes 2 src ++ leBytes 1 type ++ leBytes 1 0 ++ leBytes 4 (d.source src).lastSeq)
  else d

/-- Count EVENT_RAISED (code 0x0A) in the unit and its groups; a wrap raises PMC_OVERFLOW, which is counted in its turn (R69, R71,
R72). -/
def Dev.countRaisedN : Nat → Dev → Nat → Dev
  | 0, d, _ => d
  | n + 1, d, un =>
    (un :: ancestors un).foldl (fun d u =>
      let r := d.pmcTally u 0x0A 1 (fun _ => true)
      if r.2 = 0 then r.1 else Dev.countRaisedN n (r.1.raiseOn (sourceOf u 0x04) u 0x04 (leBytes 1 r.2)) u) d

/-- As `countRaisedN`; the tree is at most 5 deep, and a counter that has wrapped does not wrap again in one step. -/
def Dev.countRaised (d : Dev) (un : Nat) : Dev := Dev.countRaisedN 6 d un

/-- Raise an event type of a unit on the source that carries it; NMI_ASSERTED, where this asserts NMI_N, counts as an event of UN 0. -/
def Dev.raise (d : Dev) (un type : Nat) (payload : List Byte) : Dev :=
  let r := (d.raiseOn (sourceOf un type) un type payload).countRaised un
  if d.ev.nmi = r.ev.nmi then r else r.countRaised 0

/-- Count a quantity of a class event code of a unit, the filter deciding on every QUALIFIER; an unchained wrap raises
PMC_OVERFLOW (R67, R69). -/
def Dev.tallySel (d : Dev) (un code q : Nat) (sel : Nat → Bool) : Dev :=
  let r := d.pmcTally un code q sel
  if r.2 = 0 then r.1 else r.1.raise un 0x04 (leBytes 1 r.2)

/-- As `tallySel`, with a QUALIFIER of 0 counting unfiltered. -/
def Dev.tallyQ (d : Dev) (un code q : Nat) (sel : Nat → Bool) : Dev := d.tallySel un code q (fun x => x == 0 || sel x)

/-- Count a signal's 0-to-1 transition in a unit's counters that count edges; those in level mode count cycles, `countCycles`. -/
def Dev.tallyEdge (d : Dev) (un code : Nat) (was is : Nat → Bool) : Dev := d.tallySel un code 1 (fun q => is q && !was q)

/-- As `tallyEdge`, for a signal without a QUALIFIER that has just risen. -/
def Dev.rises (d : Dev) (un code : Nat) : Dev := d.tallySel un code 1 (fun _ => true)

/-- As `tallyQ`, for codes whose QUALIFIER the class gives no meaning. -/
def Dev.tally (d : Dev) (un code q : Nat) : Dev := d.tallyQ un code q (fun _ => true)

/-- Count a quantity of a common code in a unit and in the groups above it, which count their children's (R72). -/
def Dev.tallyUp (d : Dev) (un code q : Nat) : Dev := (un :: ancestors un).foldl (fun d u => d.tally u code q) d

/-- Raise a rate-limited event: at most `n` per second for a key. The payload is given the count of occurrences since the last one
raised, this one included. -/
def Dev.raiseKeyed (d : Dev) (k : Key) (un type n : Nat) (payload : Nat → List Byte) : Dev :=
  let occ := d.ev.since.getD 0 k + 1
  let w := d.ev.limits.getD (0, 0) k
  let fresh : Bool := (d.ev.limits.get? k).isNone || decide (w.1 + 1000000000 ≤ d.now)
  if fresh ∨ w.2 < n then
    let d := { d with ev := { d.ev with limits := d.ev.limits.insert k (if fresh then (d.now, 1) else (w.1, w.2 + 1)),
                                        since := d.ev.since.erase k } }
    d.raise un type (payload occ)
  else { d with ev := { d.ev with since := d.ev.since.insert k occ } }

/-- As `raiseKeyed`, for a unit, type and sub-key. -/
def Dev.raiseLimited (d : Dev) (un type sub n : Nat) (payload : Nat → List Byte) : Dev := d.raiseKeyed [un, type, sub] un type n payload

/-- "Once per second" events. -/
def Dev.raiseOnce (d : Dev) (un type sub : Nat) (payload : Nat → List Byte) : Dev := d.raiseLimited un type sub 1 payload

/-! ### Service states (R51, R53) and fault records (R50) -/

def sOFF : Nat := 0
def sACTIVE : Nat := 1
def sSPARE : Nat := 2
def sSHADOW : Nat := 3
def sDRAINING : Nat := 4
def sOUT : Nat := 5
def sFAILED : Nat := 6
def sRETIRED : Nat := 7

def Dev.svc (d : Dev) (un : Nat) : Nat := d.get un UF_STATE.SVC_STATE

/-- CORES_ACTIVE follows the cores' states (R440). -/
def Dev.showCores (d : Dev) (un : Nat) : Dev :=
  if 704 ≤ un ∧ un ≤ 729 then
    d.set uSVC SVC_STATUS.CORES_ACTIVE (((List.range 26).filter (fun i => d.svc (704 + i) == sACTIVE)).length)
  else d

/-- Change a service state: PREV_STATE, SVC_STATE, then STATE_CHANGE (R51). A unit enters sleep as it becomes SPARE and leaves
it with that state (R513); one that becomes RETIRED joins the retired list (R523). -/
def Dev.setSvc (d : Dev) (un new : Nat) : Dev :=
  let old := d.svc un
  let d := (d.set un UF_STATE.PREV_STATE old).set un UF_STATE.SVC_STATE new
  let d := if new = sSPARE then d.set un UF_STATE.SLEEP_STATE 1
    else if old = sSPARE then d.set un UF_STATE.SLEEP_STATE 0 else d
  let d := if new = sRETIRED then { d with rid := { d.rid with retired := d.rid.retired ++ [un] } } else d
  let d := { d with rid := { d.rid with
    relieved := d.rid.relieved.filter (· != un)
    failedAt := if new = sFAILED then d.rid.failedAt.insert [un] d.now else d.rid.failedAt } }
  let d := d.showCores un
  d.raise un 0x00 (leBytes 1 old ++ leBytes 1 new ++ leBytes 1 (d.get un UF_STATE.DEGRADED))

/-- Refuse a register request: REQ_REFUSED sets and is raised with the request's code (R51). -/
def Dev.refuseReq (d : Dev) (un code : Nat) : Dev :=
  (d.set un UF_CTRL.REQ_REFUSED 1).raise un 0x05 (leBytes 1 code ++ leBytes 1 (d.svc un))

/-- The slot a new fault record takes: an invalid one, or the lowest RECORD_NO (R50). -/
def Dev.errSlot (d : Dev) (un : Nat) : Nat :=
  let no (i : Nat) : Nat := match d.errLog.get? [un, i] with
    | some e => if e.valid then e.recordNo + 1 else 0
    | none => 0
  (List.range 4).foldl (fun best i => if no i < no best then i else best) 0

/-- The always-on log takes a record: a full log's oldest record is overwritten (R523). -/
def RidState.logged (r : RidState) (e : AonRecord) : RidState :=
  if r.log.length < 64 then { r with log := r.log ++ [e] }
  else { r with log := r.log.set r.logNext e, logNext := (r.logNext + 1) % 64 }

/-- Write a fault record into UF_ERR_LOG and the always-on log, and raise FAULT_DECLARED; the unit's record numbers count up
from 1 (R50, R51, R523). -/
def Dev.writeFault (d : Dev) (un cause time : Nat) (detail : List Byte) : Dev :=
  let no := d.recordNo.getD 0 [un] + 1
  let slot := d.errSlot un
  let detail := slice detail 0 48
  let d := { d with recordNo := d.recordNo.insert [un] no,
                    errLog := d.errLog.insert [un, slot] ⟨time, no, cause, true, detail⟩,
                    rid := d.rid.logged ⟨time, no, cause, un, detail⟩ }
  d.raise un 0x01 (leBytes 4 no ++ leBytes 2 cause)

/-- A failed unit whose FAULT_COUNT has reached 3 is RETIRED (R51). -/
def Dev.retireIfDue (d : Dev) (un : Nat) : Dev :=
  if d.svc un = sFAILED ∧ 3 ≤ d.get un UF_STATE.FAULT_COUNT then d.setSvc un sRETIRED else d

/-- DETAIL of a record that follows no declaration of R378: a unit whose self-test or comparison failed is its own declarer, any other
failure is its rider's to declare, with the turn held then; there is no taker (R384). -/
def Dev.ownDetail (d : Dev) (un cause : Nat) : List Byte :=
  let self : Bool := cause == 0x0006 || cause == 0x0007
  leBytes 2 (if self then un else riderOf un) ++ leBytes 1 (if cause = 0x0002 then 0x18 else 0) ++ leBytes 1 0
  ++ leBytes 4 (if self then 0 else ((d.rid.turns.get? [un, 0]).map (·.seq)).getD 0) ++ leBytes 2 0xFFFF ++ List.replicate 38 0

/-- A failure outside the declarations of R378: FAULT_COUNT + 1 and its record at once (R51). -/
def Dev.ownFault (d : Dev) (un cause : Nat) : Dev :=
  (d.bumpSat un UF_STATE.FAULT_COUNT).writeFault un cause d.now (d.ownDetail un cause)

/-- As `ownFault`, with the unit going to FAILED. A RETIRED unit stays RETIRED and fails no more (R52). -/
def Dev.failSelf (d : Dev) (un cause : Nat) : Dev :=
  if d.svc un = sRETIRED then d else
  let d := if d.svc un = sFAILED then d else d.setSvc un sFAILED
  (d.ownFault un cause).retireIfDue un

/-! ### Lost capacity (R53, R391) -/

/-- Announce a unit's figure, in parts per million, none at full capacity: DEGRADED follows it, and CAPACITY_DEGRADED is
raised when either changes. -/
def Dev.announce (d : Dev) (un : Nat) (o : Option Nat) : Dev :=
  if d.rid.figure.get? [un] = o ∧ d.flag un UF_STATE.DEGRADED = o.isSome then d else
  let d := { d with rid := { d.rid with figure := d.rid.figure.put [un] o } }
  (d.setFlag un UF_STATE.DEGRADED o.isSome).raise un 0x06 (leBytes 4 (o.getD 1000000))

/-- The lowest figure of a unit's own and its descendants', none when none of them is degraded (R391). -/
def Dev.lowest (d : Dev) (un : Nat) : Option Nat :=
  d.rid.own.foldl (fun m e =>
    if e.1 = [un] ∨ isUnder un (e.1.headD 0) then (match m with | none => some e.2 | some x => some (min x e.2)) else m) none

/-- Set a group's own figure, none at full capacity, and carry it up the tree (R391). -/
def Dev.setFigure (d : Dev) (un : Nat) (o : Option Nat) : Dev :=
  let d := { d with rid := { d.rid with own := d.rid.own.put [un] o } }
  (un :: ancestors un).foldl (fun d a => d.announce a (d.lowest a)) d

/-- As `setFigure`, for a figure below full or at it. -/
def Dev.setCapacity (d : Dev) (un fig : Nat) : Dev := d.setFigure un (if fig < 1000000 then some fig else none)

/-! ### The log of headless decisions (R394) -/

/-- A decision is logged, or counted once the log is full, and raised. -/
def Dev.writeDecision (d : Dev) (kind un detail : Nat) : Dev :=
  let d := if d.hdl.log.length < 256 then
      ({ d with hdl := { d.hdl with log := d.hdl.log ++ [Decision.mk d.now kind un detail] } }).set 0 HDL_STATUS.LOGGED (d.hdl.log.length + 1)
    else d.bump 0 HDL_STATUS.UNLOGGED
  d.raise 0 0x19 (leBytes 1 kind ++ leBytes 1 0 ++ leBytes 2 un ++ leBytes 4 detail)

/-- While HEADLESS, a decision is logged. -/
def Dev.logDecision (d : Dev) (kind un detail : Nat) : Dev :=
  if d.flag 0 HDL_STATUS.HEADLESS then d.writeDecision kind un detail else d

/-! ### Commands (R409–R419, R427) -/

/-- Status codes (R427). -/
def stOK : Nat := 0x00
def stMALFORMED : Nat := 0x01
def stUNSUPPORTED : Nat := 0x02
def stNO_RESOURCE : Nat := 0x03
def stTABLE_FULL : Nat := 0x04
def stNOT_FOUND : Nat := 0x05
def stEXISTS : Nat := 0x06
def stABORTED_FAULT : Nat := 0x07
def stUNIT_UNAVAILABLE : Nat := 0x08
def stTIMEOUT : Nat := 0x09
def stAUTH_FAILED : Nat := 0x0A
def stBINDING_MISMATCH : Nat := 0x0B
def stVERSION_REJECTED : Nat := 0x0C
def stCHAIN_ENDED_EARLY : Nat := 0x0D
def stPERMISSION : Nat := 0x0E
def stRETRY_LATER : Nat := 0x0F
def stDATA_ERROR : Nat := 0x10

/-- How a command ends: status, result and BAD_OFFSET. -/
structure Reply where
  status : Nat
  result : Nat := 0
  bad : Nat := 0
  deriving DecidableEq, Repr

def Reply.ok (r : Nat := 0) : Reply := ⟨stOK, r, 0⟩
def Reply.fail (st : Nat) (r : Nat := 0) : Reply := ⟨st, r, 0⟩
/-- A fault found in a block read from host memory (R410). -/
def Reply.badBlock : Reply := ⟨stMALFORMED, 0, 0xFF⟩

def Ticket.opcode (t : Ticket) : Nat := leAt t.desc 0 2
def Ticket.tag (t : Ticket) : Nat := leAt t.desc 2 2
def Ticket.chain (t : Ticket) : Bool := bit (leAt t.desc 4 1) 0
def Ticket.last (t : Ticket) : Bool := bit (leAt t.desc 4 1) 1
def Ticket.cont (t : Ticket) : Bool := bit (leAt t.desc 4 1) 2
def Ticket.next (t : Ticket) : Nat := leAt t.desc 8 8

/-- The SQ of a command, none for an agent's. -/
def Ticket.sq (t : Ticket) : Option Nat :=
  match t.origin with
  | .ring sq _ => some sq
  | .chained sq _ _ => some sq
  | _ => none

/-- Was the descriptor reached through NEXT? -/
def Ticket.chained (t : Ticket) : Bool :=
  match t.origin with
  | .chained _ _ _ => true
  | .agentChained _ _ _ => true
  | _ => false

/-- The CQ that an SQ's commands complete on. -/
def Dev.cqOf (d : Dev) (k : Nat) : Nat := ringIx kCQ (d.getI uHIF HIF_RING_CFG.CQ k)

/-- The 32 bytes of a completion, PHASE 0 (R414). -/
def cplBytes (t : Ticket) (r : Reply) (ring : Nat) (rxq : Bool) (sqHead : Nat) (chainLast : Bool) (chainStatus : Nat) :
    List Byte :=
  leBytes 2 t.tag ++ leBytes 1 r.status ++ leBytes 1 (chainLast.toNat + 2 * t.chained.toNat) ++ leBytes 2 t.opcode
  ++ leBytes 2 (ring + rxq.toNat * 2 ^ 12) ++ leBytes 8 r.result ++ leBytes 2 sqHead ++ leBytes 1 r.bad
  ++ leBytes 1 (if chainLast then chainStatus else 0) ++ leBytes 4 0
  ++ leBytes 8 (match t.origin with | .ring _ i => i | .chained _ a _ => a | .agentChained _ a _ => a | .agent _ => 0)

/-- Is this command in flight? -/
def Dev.inFlight (d : Dev) (t : Ticket) : Bool := d.hif.inflight.any (fun f => f.ticket == t)

/-- Take one entry out of the commands in flight. -/
def dropInflight (t : Ticket) : List InFlight → List InFlight
  | [] => []
  | f :: fs => if f.ticket = t then fs else f :: dropInflight t fs

/-- HIF_STATUS.IN_FLIGHT: the device's commands in flight (R413). -/
def Dev.showInFlight (d : Dev) : Dev := d.set uHIF HIF_STATUS.IN_FLIGHT (d.hif.inflight.length + d.hif.lost.length)

/-- Has a host link reset or ABANDON cut this command off (R402, R433)? -/
def Dev.isLost (d : Dev) (t : Ticket) : Bool := d.hif.lost.contains t

/-- A command leaves the commands in flight: the counts of its SQ and of the device, and its CQ's reservation, go down. -/
def Dev.retire (d : Dev) (t : Ticket) : Dev :=
  if d.inFlight t then
    let d := ({ d with hif := { d.hif with inflight := dropInflight t d.hif.inflight } }).showInFlight
    match t.sq with
    | none => d
    | some sq =>
      let k := ringIx kSQ sq
      let c := d.cqOf k
      let d := d.setI uHIF HIF_RING_STATE.COUNT k (d.getI uHIF HIF_RING_STATE.COUNT k - 1)
      d.setI uHIF HIF_RING_STATE.COUNT c (d.getI uHIF HIF_RING_STATE.COUNT c - 1)
  else d

/-- An agent's command completes into its inbox; not while its slot is STOPPING or EMPTY, and not once a trap has cancelled it. One
that a trap left running completes with ABORTED_FAULT (R464, R465). -/
def Dev.agentCpl (d : Dev) (slot : Nat) (t : Ticket) (r : Reply) (chainLast : Bool) (chainStatus : Nat) : Dev :=
  let a := d.agent slot
  if ¬ d.inFlight t then d
  else if d.getI uSVC AGT_STATUS.STATE slot = 0 then d.retire t
  else if d.getI uSVC AGT_STATUS.STATE slot = 4 then
    (d.setAgent slot { a with
      settling := a.settling.erase t, aborted := a.aborted + (!a.settling.contains t).toNat }).retire t
  else
    let r : Reply := if a.settling.contains t then { r with status := stABORTED_FAULT } else r
    ((d.setAgent slot { a with settling := a.settling.erase t }).retire t).pushCpl slot
      (cplBytes t r 0 false 0 chainLast chainStatus)

/-- Write a completion into a CQ while that is ENABLED; one with nowhere to go is counted in HIF_CPL_LOST (R404, R414). -/
def Dev.cplInto (d : Dev) (c : Nat) (bytes : List Byte) : Dev :=
  if d.ringState c = rENABLED then (d.pushEntry c bytes).tally uHIF 0x21 1 else d.bump uHIF HIF_CPL_LOST.COUNT

/-- Write a command's completion: to the CQ of its SQ, or, for a filled receive buffer, of its RXQ (R414, R421), or to the
agent's inbox. That of a command cut off from the host is counted in HIF_CPL_LOST (R402). -/
def Dev.writeCpl (d : Dev) (t : Ticket) (r : Reply) (rxq : Option Nat) (chainLast : Bool) (chainStatus : Nat) : Dev :=
  if d.isLost t then
    (({ d with hif := { d.hif with lost := d.hif.lost.erase t } }).showInFlight).bump uHIF HIF_CPL_LOST.COUNT
  else
    match t.sq, rxq with
    | some sq, none =>
      (d.retire t).cplInto (d.cqOf (ringIx kSQ sq))
        (cplBytes t r sq false (d.getI uHIF HIF_RING_STATE.HEAD (ringIx kSQ sq)) chainLast chainStatus)
    | some sq, some q =>
      let c := d.cqOf (ringIx kRXQ q)
      (d.setI uHIF HIF_RING_STATE.COUNT c (d.getI uHIF HIF_RING_STATE.COUNT c - 1)).cplInto c
        (cplBytes t r q true (d.getI uHIF HIF_RING_STATE.HEAD (ringIx kSQ sq)) chainLast chainStatus)
    | none, _ =>
      match t.agent? with
      | some slot => d.agentCpl slot t r chainLast chainStatus
      | none => d

/-- Whether and how a chain descriptor's outcome ends its chain before any further read: the first three rows of R419. -/
def chainEnd (t : Ticket) (r : Reply) : Option Nat :=
  if r.status = stMALFORMED ∧ 4 ≤ r.bad ∧ r.bad ≤ 0x0F then some stMALFORMED
  else if r.status ≠ stOK ∧ ¬ t.cont then some r.status
  else if t.last then some stOK
  else none

/-- Has a trap or a stop ended what the command's agent had under way (R464)? -/
def Dev.settled (d : Dev) (t : Ticket) : Bool :=
  t.agent?.any (fun slot => (d.agent slot).settling.contains t || d.getI uSVC AGT_STATUS.STATE slot == 4)

/-- Count a malformed or unsupported command (HIF_MALFORMED, HIF_UNSUPPORTED). -/
def Dev.countReply (d : Dev) (r : Reply) : Dev :=
  if r.status = stMALFORMED then d.bump uHIF HIF_MALFORMED.COUNT
  else if r.status = stUNSUPPORTED then d.bump uHIF HIF_UNSUPPORTED.COUNT else d

/-- Fetch number of the first descriptor of a command's chain, its own outside a chain; the next one where nothing holds it (R429). -/
def Dev.rootOf (d : Dev) (t : Ticket) : Nat :=
  match d.hif.inflight.find? (fun f => f.ticket == t) with
  | some f => f.root
  | none => match d.hif.posted.find? (fun p => p.ticket == t) with
    | some p => p.root
    | none => d.hif.nextNo

/-- Is the completion of a buffer filled earlier for an RXQ still to be written? -/
def Dev.behindFill (d : Dev) (rxq : Option Nat) : Bool := rxq.isSome && d.hif.parked.any (fun p => p.rxq == rxq)

/-- Park a command that has taken effect. -/
def Dev.parkCpl (d : Dev) (t : Ticket) (r : Reply) (rxq : Option Nat) (done : Option (Bool × Nat)) : Dev :=
  { d with hif := { d.hif with parked := d.hif.parked ++ [⟨t, r.status, r.result, r.bad, rxq, d.rootOf t, done⟩] } }

/-- Write a completion, behind those of the buffers that its RXQ filled earlier (R422). -/
def Dev.cplInTurn (d : Dev) (t : Ticket) (r : Reply) (rxq : Option Nat) (chainLast : Bool) (chainStatus : Nat) : Dev :=
  if d.behindFill rxq then d.parkCpl t r rxq (some (chainLast, chainStatus)) else d.writeCpl t r rxq chainLast chainStatus

/-- Write the completions that an RXQ's earlier ones held back. -/
def Dev.releaseFills : Nat → Dev → Option Nat → Dev
  | 0, d, _ => d
  | n + 1, d, rxq =>
    match d.hif.parked.find? (fun p => p.rxq == rxq && rxq.isSome) with
    | none => d
    | some p =>
      match p.done with
      | none => d
      | some (last, cs) =>
        Dev.releaseFills n (({ d with hif := { d.hif with parked := d.hif.parked.erase p } }).writeCpl p.ticket ⟨p.status, p.result, p.bad⟩
          rxq last cs) rxq

/-- Write a command's completion, or park it until the read that carries its chain on (R417, R419, R422). -/
def Dev.conclude (d : Dev) (t : Ticket) (r : Reply) (rxq : Option Nat) : Dev :=
  if d.settled t then d.cplInTurn t r rxq (t.chain || t.chained) stABORTED_FAULT
  else if t.chain ∨ t.chained then
    match chainEnd t r with
    | some cs => d.cplInTurn t r rxq true cs
    | none => if d.isLost t then d.cplInTurn t r rxq false 0 else d.parkCpl t r rxq none
  else d.cplInTurn t r rxq false 0

/-- A command has taken effect. -/
def Dev.finishCore (d : Dev) (t : Ticket) (r : Reply) (rxq : Option Nat) : Dev := (d.countReply r).conclude t r rxq

/-- Do two commands come from one SQ, or from one agent? -/
def sameQueue (a b : Ticket) : Bool := a.sq == b.sq && a.agent? == b.agent?

/-- Has everything a FENCE waits for completed (R429)? With SCOPE 0, the earlier commands of its queue, chains whole; with
SCOPE 1, every command fetched before it, those behind it in its own queue apart. An agent's counts its own alone (R460). A chain whose
receive buffer is posted has not ended; a posted buffer by itself is not waited for. -/
def Dev.fenceDone (d : Dev) (f : Fence) : Bool :=
  let earlier (t : Ticket) (no root : Nat) : Bool :=
    if sameQueue f.ticket t then decide (root < f.root) && (f.scope == 0 || decide (no < f.no))
    else f.scope == 1 && f.ticket.sq.isSome && t.sq.isSome && decide (no < f.no)
  d.hif.inflight.all (fun e => e.ticket == f.ticket || !earlier e.ticket e.no e.root)
  && d.hif.chainNext.all (fun c => !(f.scope == 0 && sameQueue f.ticket c.1 && decide (c.2 < f.root)))
  && d.hif.posted.all (fun p => !(f.scope == 0 && (p.ticket.chain || p.ticket.chained) && sameQueue f.ticket p.ticket && decide (p.root < f.root)))
  && d.hif.parked.all (fun p => !(f.scope == 0 && p.rxq.isSome && (p.ticket.chain || p.ticket.chained) && sameQueue f.ticket p.ticket
      && decide (p.root < f.root)))

/-- Complete every FENCE whose wait is over. -/
def Dev.settleFences : Nat → Dev → Dev
  | 0, d => d
  | n + 1, d =>
    match d.hif.fences.find? d.fenceDone with
    | none => d
    | some f =>
      Dev.settleFences n
        (({ d with hif := { d.hif with fences := d.hif.fences.filter (fun g => !(g == f)) } }).finishCore f.ticket Reply.ok none)

/-- The opcodes of the command set (R426). -/
def knownOps : List Nat :=
  [0x0001, 0x0002, 0x0003, 0x0004, 0x0005, 0x0101, 0x0102, 0x0103, 0x0104, 0x0105, 0x0106, 0x0107, 0x0108, 0x0109,
   0x0201, 0x0202, 0x0203, 0x0204, 0x0301, 0x0302, 0x0303, 0x0304, 0x0305, 0x0306, 0x0307, 0x0308, 0x0309,
   0x0401, 0x0402, 0x0403, 0x0501, 0x0502, 0x0601, 0x0602, 0x0603, 0x0604, 0x0605, 0x0606, 0x0607, 0x0608, 0x0609,
   0x0701, 0x0702, 0x0801, 0x0802, 0x0803, 0x0901, 0x0902, 0x0903]

/-- May a command of an SQ start: under MAX_INFLIGHT, under the device's 16,384, and with a CQ slot to reserve (R411)? -/
def Dev.hasRoom (d : Dev) (sq : Nat) : Bool :=
  let k := ringIx kSQ sq
  let c := d.cqOf k
  let m := d.getI uHIF HIF_RING_CFG.LIMIT k
  decide (d.getI uHIF HIF_RING_STATE.COUNT k < (if m = 0 then 16384 else min m 16384))
  && decide (d.hif.inflight.length + d.hif.lost.length < 16384)
  && d.ringState c == rENABLED && decide (d.ringUsed c + d.getI uHIF HIF_RING_STATE.COUNT c < d.ringSize c)

/-- A command is in flight from here: it gets its fetch number, and a ring's command counts on its SQ and reserves a slot of
its CQ (R411, R413). CMD_FETCHED and DMA_RD_BYTES count the host's commands alone (R436). -/
def Dev.begin (d : Dev) (t : Ticket) (root : Option Nat) : Dev :=
  let no := d.hif.nextNo
  let d := { d with hif := { d.hif with inflight := d.hif.inflight ++ [({ ticket := t, no := no, root := root.getD no } : InFlight)], nextNo := no + 1 } }
  let d := match t.sq with
    | none => d
    | some sq =>
      let k := ringIx kSQ sq
      let d := d.setI uHIF HIF_RING_STATE.COUNT k (d.getI uHIF HIF_RING_STATE.COUNT k + 1)
      ((d.setI uHIF HIF_RING_STATE.COUNT (d.cqOf k) (d.getI uHIF HIF_RING_STATE.COUNT (d.cqOf k) + 1)).tally uHIF 0x23 64).tally uHIF 0x20 1
  d.showInFlight

/-- A command that has just started with an opcode outside the command set completes with UNSUPPORTED (R410, R426). -/
def Dev.screen (d : Dev) (t : Ticket) : Dev :=
  if knownOps.contains t.opcode then d else d.finishCore t (.fail stUNSUPPORTED) none

/-- May a command of an agent start: under MAX_CMDS, and with inbox room for its completion (R459, R466)? -/
def Dev.agentRoom (d : Dev) (slot : Nat) : Bool :=
  decide (d.agentInflight slot < (d.agent slot).maxCmds) && decide (d.inboxUsed slot + 40 ≤ (d.agent slot).inboxKib * 1024)

/-- May a command start? -/
def Dev.roomFor (d : Dev) (t : Ticket) : Bool :=
  match t.sq, t.agent? with
  | some sq, _ => d.hasRoom sq
  | none, some slot => d.agentRoom slot
  | none, none => false

/-- Start the chain descriptors that wait, while there is room (R417). -/
def Dev.startChains : Nat → Dev → Dev
  | 0, d => d
  | n + 1, d =>
    match d.hif.chainNext.find? (fun c => d.roomFor c.1) with
    | none => d
    | some c =>
      Dev.startChains n
        ((({ d with hif := { d.hif with chainNext := d.hif.chainNext.erase c } }).begin c.1 (some c.2)).screen c.1)

/-- What a completed command lets go on: chain descriptors that wait for room, and FENCEs. -/
def Dev.goOn (d : Dev) : Dev :=
  let d := Dev.startChains d.hif.chainNext.length d
  d.settleFences d.hif.fences.length

/-- A command has taken effect: complete it, then what waited for it. -/
def Dev.finish (d : Dev) (t : Ticket) (r : Reply) : Dev := (d.finishCore t r none).goOn

/-- A host transfer of a command failed (HIF_DMA_ERR). -/
def Dev.dmaFailed (d : Dev) : Dev := d.bump uHIF HIF_DMA_ERR.COUNT

/-! #### Checks of a descriptor (R410) -/

/-- First header field that fails, by byte offset (R409, R410, R417). -/
def hdrBad (t : Ticket) : Option Nat :=
  if leAt t.desc 4 1 ≥ 8 ∨ (t.chained ∧ ¬ t.chain) then some 0x04
  else if leAt t.desc 5 3 ≠ 0 then some 0x05
  else if t.next % 64 ≠ 0 ∨ (t.next ≠ 0 ∧ (t.last ∨ ¬ t.chain)) then some 0x08
  else none

/-- The parameter area of a descriptor. -/
def HCmd.area (c : HCmd) : List Byte := slice c.ticket.desc 16 48

/-- A parameter: bits `[hi:lo]` counted from byte `off` of the area (R409). -/
def HCmd.par (c : HCmd) (off hi lo : Nat) : Nat := bits (leAt c.area off 8) hi lo

/-- One field of a parameter table: offset, bits, and whether its value passes. -/
structure Param where
  off : Nat
  hi : Nat
  lo : Nat
  ok : Bool
  deriving DecidableEq, Repr

/-- First parameter that fails, by its byte offset in the descriptor. Bytes no field covers must be 0 (R409, R410). -/
def areaBad (area : List Byte) (ps : List Param) : Option Nat :=
  let v := ofLe area
  let mask := ps.foldl (fun m p => m ||| ((2 ^ (p.hi + 1 - p.lo) - 1) * 2 ^ (8 * p.off + p.lo))) 0
  let rest := v - (v &&& mask)
  let stray : Option Nat := if rest = 0 then none else (List.range 48).find? (fun i => rest / 2 ^ (8 * i) % 256 != 0)
  let first : Option Nat := ps.foldl (fun b p => if p.ok then b else match b with
    | none => some p.off
    | some o => some (min o p.off)) none
  match first, stray with
  | none, none => none
  | some a, none => some (16 + a)
  | none, some b => some (16 + b)
  | some a, some b => some (16 + min a b)

/-- A field that may take any value. -/
def pAny (off hi lo : Nat) : Param := ⟨off, hi, lo, true⟩

/-- A field of a command that must pass a test. -/
def HCmd.must (c : HCmd) (off hi lo : Nat) (test : Nat → Bool) : Param := ⟨off, hi, lo, test (c.par off hi lo)⟩

/-- A reserved field, which must be 0. -/
def HCmd.zero (c : HCmd) (off hi lo : Nat) : Param := c.must off hi lo (· == 0)

/-- Does a command wait behind a FENCE of its queue (R429)? -/
def Dev.behindFence (d : Dev) (t : Ticket) : Bool :=
  match d.hif.inflight.find? (fun f => f.ticket == t) with
  | none => false
  | some e => d.hif.inflight.any (fun f => f.ticket.opcode == 0x0002 && sameQueue f.ticket t && decide (f.root < e.root))

/-- Has a SerDes PLL stopped for want of a reference, and not relocked since (R507)? -/
def Dev.pllStopped (d : Dev) (un : Nat) : Bool :=
  !d.flag un CLK_PLL_STATUS.LOCKED && ((d.pwr.heldSince.get? [un]).isSome || d.flag un CLK_PLL_STATUS.HOLDOVER)

/-! #### Agents' commands (R460, R465) -/

/-- May an agent with these permissions issue this opcode (R460)? -/
def permits (perm op : Nat) : Bool :=
  op == 0x0001 || op == 0x0002
  || (bit perm 0 && [0x0103, 0x0104].contains op)
  || (bit perm 1 && [0x0101, 0x0102, 0x0105, 0x0106, 0x0108].contains op)
  || (bit perm 2 && [0x0501, 0x0307, 0x0308, 0x0609].contains op)
  || (bit perm 3 && op == 0x0502)
  || (bit perm 4 && [0x0201, 0x0202, 0x0203, 0x0204].contains op)
  || (bit perm 5 && op == 0x0701)
  || (bit perm 6 && op == 0x0608)

/-- The ranges that a command of an agent reads or writes: offset of the address field, address and length. -/
def HCmd.ranges (c : HCmd) : List (Nat × Nat × Nat) :=
  let at8 (n : Nat) := [(8, c.par 8 63 0, n)]
  match c.ticket.opcode with
  | 0x0101 | 0x0102 | 0x0103 => at8 64
  | 0x0104 => at8 (64 * c.par 4 8 0)
  | 0x0106 => at8 (64 * c.par 4 16 0)
  | 0x0201 => at8 c.block.length
  | 0x0204 => if c.par 0 15 15 = 1 then [] else at8 48
  | 0x0307 => [(16, c.par 16 63 0, 16 * c.par 8 16 0)]
  | 0x0308 => at8 (4 * c.par 4 16 0)
  | 0x0501 => at8 (16 * c.par 4 16 0)
  | 0x0609 => at8 (16 * c.par 4 16 0)
  | 0x0608 =>
    (32, c.par 32 63 0, if c.par 0 14 14 = 1 then 32 else c.par 24 7 0)
      :: (if c.par 2 2 2 = 1 then [(40, c.par 40 63 0, 20)] else [])
  | 0x0701 => [(16, c.par 16 63 0, c.par 8 13 0)]
  | _ => []

/-- Why an agent's command cannot run: it lacks the permission, or a range lies outside the agent's memory (R460, R465). -/
def Dev.agentBad (d : Dev) (c : HCmd) : Option Reply :=
  match c.ticket.agent? with
  | some slot =>
    let a := d.agent slot
    if ¬ permits a.perm c.ticket.opcode then some (.fail stPERMISSION)
    else (c.ranges.find? (fun r => decide (a.memLen < r.2.1 + r.2.2))).map (fun r => ⟨stMALFORMED, 0, 16 + r.1⟩)
  | none => none

/-- Was this an agent's command that a trap or a stop has cancelled (R464)? -/
def Dev.cancelled (d : Dev) (t : Ticket) : Bool := t.sq.isNone && !d.inFlight t

/-- Does a command of this opcode wait for FWD_READY (R434)? -/
def fwdWaits (op : Nat) : Bool :=
  !([0x0001, 0x0002, 0x0003, 0x0004, 0x0005, 0x0401, 0x0402, 0x0403, 0x0601, 0x0603, 0x0604, 0x0607, 0x0702, 0x0903].contains op)

/-- What carries a command out, as far as R412 needs it: the chapter of its opcode and, within a chapter of several units, which of them. -/
def Ticket.carrier (t : Ticket) : Nat × Nat :=
  let n := leAt t.desc 16 2
  match t.opcode with
  | 0x0301 | 0x0307 => (3, 0)
  | 0x0302 | 0x0303 | 0x0306 => (3, 1)
  | 0x0304 => (3, 2)
  | 0x0305 => (3, 3)
  | 0x0308 | 0x0309 => (3, 4)
  | 0x0401 | 0x0402 | 0x0403 => (4, n)
  | 0x0901 | 0x0902 => (9, 1 + n % 128)
  | 0x0701 | 0x0702 => (0, 0)
  | op => (op / 256, 0)

/-- Must a command wait, because an earlier one of its SQ that the same unit carries out has not taken effect (R412)? The later descriptors of
a chain have no order with respect to others. -/
def Dev.outOfTurn (d : Dev) (t : Ticket) : Bool :=
  match d.hif.inflight.find? (fun f => f.ticket == t) with
  | none => false
  | some e => t.sq.isSome && !t.chained && d.hif.inflight.any (fun f =>
      f.ticket.sq == t.sq && !f.ticket.chained && decide (f.no < e.no) && !f.started && !d.hif.parked.any (fun p => p.ticket == f.ticket)
        && f.ticket.carrier == t.carrier)

/-- A command that goes on has started. -/
def Dev.noteStarted (d : Dev) (t : Ticket) : Dev :=
  { d with hif := { d.hif with inflight := d.hif.inflight.map (fun f => if f.ticket = t then { f with started := true } else f) } }

/-- The device once the bytes of the block that a command reads from host memory have been counted (R401, R436). -/
def HCmd.begun (c : HCmd) (d : Dev) : Dev := if c.ticket.sq.isSome then d.tally uHIF 0x23 c.block.length else d

/-- Must a command wait: the descriptor spells another one, a FENCE or an earlier command comes first, or a trap has cancelled it (R412, R426,
R429, R464)? -/
def Dev.heldBack (d : Dev) (op : Nat) (t : Ticket) : Bool :=
  t.opcode != op || d.behindFence t || d.outOfTurn t || d.cancelled t

/-- Carry out the command of opcode `op`: the checks of R410, of the header, of the parameters `ps` and of the block (`blk` says whether that is
in order), then the FWD_READY test of R434 for commands that wait for it, which in standby need a stopped unit (R527), then the command's own
effect, which answers a reply, or none while the command goes on. -/
def Dev.command (d : Dev) (c : HCmd) (op : Nat) (ps : List Param) (body : Dev → Dev × Option Reply) (blk : Bool := true) : Dev :=
  if d.heldBack op c.ticket then d else
  match hdrBad c.ticket with
  | some b => d.finish c.ticket ⟨stMALFORMED, 0, b⟩
  | none =>
    match areaBad c.area ps with
    | some b => d.finish c.ticket ⟨stMALFORMED, 0, b⟩
    | none =>
      match d.agentBad c with
      | some r => d.finish c.ticket r
      | none =>
        if c.readOk ∧ ¬ blk then (c.begun d).finish c.ticket .badBlock
        else if fwdWaits op ∧ ¬ d.flag uHIF HIF_STATUS.FWD_READY then d.finish c.ticket (.fail stRETRY_LATER)
        else if fwdWaits op ∧ d.get 0 PWR_CTRL.STBY_STATE ≠ 0 then d.finish c.ticket (.fail stUNIT_UNAVAILABLE)
        else
          match body (c.begun d) with
          | (d', some r) => d'.finish c.ticket r
          | (d', none) => d'.noteStarted c.ticket

/-- As `command`, for an effect that always completes at once. -/
def Dev.commandNow (d : Dev) (c : HCmd) (op : Nat) (ps : List Param) (body : Dev → Dev × Reply) (blk : Bool := true) : Dev :=
  d.command c op ps (fun d => let r := body d; (r.1, some r.2)) blk

/-- A command's data write: into host memory, into the agent's memory, or nowhere once a host link reset has cut the command
off, which HIF_CPL_LOST counts (R401, R402, R465). -/
def Dev.dataWrite (d : Dev) (t : Ticket) (addr : Nat) (bytes : List Byte) : Dev :=
  match t.agent? with
  | some slot => let a := d.agent slot; d.setAgent slot { a with mem := hostPuts a.mem addr bytes }
  | none => if d.isLost t then d.bump uHIF HIF_CPL_LOST.COUNT else d.hostWrite addr bytes

/-- A command's write of a block: OK, or DATA_ERROR when it fails. -/
def Dev.hostBlock (d : Dev) (c : HCmd) (addr : Nat) (bytes : List Byte) (r : Nat) : Dev × Reply :=
  if c.writeOk then (d.dataWrite c.ticket addr bytes, .ok r) else (d.dmaFailed, .fail stDATA_ERROR)

end Sys2Proof.Machine
end

