-- ==== Sys2Proof/Machine/RegWord.lean ====
section
/-! DEFINITION. Whole registers: which registers a unit has, a register as one word, and its raw storing (R45, R46). What a
host's read and write do beside that stands in RegAccess.lean. -/
namespace Sys2Proof.Machine

/-- The class registers of a unit. -/
def classRegsOf (un : Nat) : List RegDesc :=
  match classOf un with
  | 0x50 => if un = 768 ∨ un = 784 then refBlockRegs else if un = 769 ∨ un = 770 ∨ un = 785 then [] else pllRegs
  | c => if un = 1 then fDieRegs ++ classRegs c else classRegs c

/-- The registers of a unit that the tables list field by field. -/
def regsOf (un : Nat) : List RegDesc := headerRegs ++ classRegsOf un

/-- Index of element `i`'s field repetition `j`. -/
def FieldDesc.ix (f : FieldDesc) (i j : Nat) : Nat := i * f.rep + j

/-- Where repetition `j` of a field stands in its register. -/
def FieldDesc.at (f : FieldDesc) (j : Nat) : Nat := f.fld.lo + j * f.step

/-- The bits of a word that repetition `j` of a field covers. -/
def FieldDesc.of (f : FieldDesc) (j v : Nat) : Nat := v / 2 ^ f.at j % 2 ^ f.fld.width

/-- A register's word as stored, write-only fields 0. -/
def Dev.wordOf (d : Dev) (un : Nat) (r : RegDesc) (i : Nat) : Nat :=
  r.fields.foldl (fun v f =>
    if f.acc = .wo then v
    else (List.range f.rep).foldl (fun v j => v + d.getI un f.fld (f.ix i j) * 2 ^ f.at j) v) 0

/-- Store a word into every field of a register that can be written. -/
def Dev.putWord (d : Dev) (un : Nat) (r : RegDesc) (i v : Nat) : Dev :=
  r.fields.foldl (fun d f =>
    if f.acc = .rw then (List.range f.rep).foldl (fun d j => d.setI un f.fld (f.ix i j) (f.of j v)) d else d) d

/-! ### Identity (R54, R55) -/

/-- Whose identity a unit reports: 0 for the package serial, 1 or 2 for a die, 512 + *s* for a stack. -/
def identOwner (un : Nat) : Nat :=
  match unitRow un with
  | some r => if r.ident = 3 then 512 + stackOf un else r.ident
  | none => 0

/-- UF_IDENT0 and UF_IDENT1 of a populated unit. -/
def Dev.ident (d : Dev) (un : Nat) : Nat × Nat :=
  let o := identOwner un
  if o = 0 then
    (leAt d.fw.otp.serial 0 8, leAt d.fw.otp.serial 8 4 + 2 * 2 ^ 40)
  else if o < 512 then d.fw.otp.idents.getD (0, 0) [o]
  else if d.fw.sideband.contains (o - 512) then
    let w := d.fw.otp.idents.getD (0, 0) [o]
    (w.1, setBits w.2 43 40 1)
  else (0, 0xF * 2 ^ 40)

/-- The 16 bytes of a unit's identity. -/
def Dev.identBytes (d : Dev) (un : Nat) : List Byte := leBytes 8 (d.ident un).1 ++ leBytes 8 (d.ident un).2

/-- Major stepping of the F-die (R54). -/
def Dev.majorStepping (d : Dev) : Nat := bits (d.ident 1).2 39 36

end Sys2Proof.Machine
end

