-- ==== Sys2Proof/Machine/Sha.lean ====
section
/-! DEFINITION. SHA-256, which the manual uses for images, keys, bindings and reports (FIPS 180-4). -/
namespace Sys2Proof.Machine

/-- The round constants. -/
def shaK : List (BitVec 32) :=
  [0x428A2F98, 0x71374491, 0xB5C0FBCF, 0xE9B5DBA5, 0x3956C25B, 0x59F111F1, 0x923F82A4, 0xAB1C5ED5,
   0xD807AA98, 0x12835B01, 0x243185BE, 0x550C7DC3, 0x72BE5D74, 0x80DEB1FE, 0x9BDC06A7, 0xC19BF174,
   0xE49B69C1, 0xEFBE4786, 0x0FC19DC6, 0x240CA1CC, 0x2DE92C6F, 0x4A7484AA, 0x5CB0A9DC, 0x76F988DA,
   0x983E5152, 0xA831C66D, 0xB00327C8, 0xBF597FC7, 0xC6E00BF3, 0xD5A79147, 0x06CA6351, 0x14292967,
   0x27B70A85, 0x2E1B2138, 0x4D2C6DFC, 0x53380D13, 0x650A7354, 0x766A0ABB, 0x81C2C92E, 0x92722C85,
   0xA2BFE8A1, 0xA81A664B, 0xC24B8B70, 0xC76C51A3, 0xD192E819, 0xD6990624, 0xF40E3585, 0x106AA070,
   0x19A4C116, 0x1E376C08, 0x2748774C, 0x34B0BCB5, 0x391C0CB3, 0x4ED8AA4A, 0x5B9CCA4F, 0x682E6FF3,
   0x748F82EE, 0x78A5636F, 0x84C87814, 0x8CC70208, 0x90BEFFFA, 0xA4506CEB, 0xBEF9A3F7, 0xC67178F2]

/-- The eight working words. -/
structure ShaWords where
  a : BitVec 32
  b : BitVec 32
  c : BitVec 32
  d : BitVec 32
  e : BitVec 32
  f : BitVec 32
  g : BitVec 32
  h : BitVec 32
  deriving DecidableEq, Repr

def shaInit : ShaWords := ⟨0x6A09E667, 0xBB67AE85, 0x3C6EF372, 0xA54FF53A, 0x510E527F, 0x9B05688C, 0x1F83D9AB, 0x5BE0CD19⟩

/-- One round. -/
def shaRound (s : ShaWords) (kw : BitVec 32) : ShaWords :=
  let s1 := s.e.rotateRight 6 ^^^ s.e.rotateRight 11 ^^^ s.e.rotateRight 25
  let ch := (s.e &&& s.f) ^^^ (~~~s.e &&& s.g)
  let t1 := s.h + s1 + ch + kw
  let s0 := s.a.rotateRight 2 ^^^ s.a.rotateRight 13 ^^^ s.a.rotateRight 22
  let maj := (s.a &&& s.b) ^^^ (s.a &&& s.c) ^^^ (s.b &&& s.c)
  ⟨t1 + s0 + maj, s.a, s.b, s.c, s.d + t1, s.e, s.f, s.g⟩

/-- The 16 words of a block, and `n` further words of the message schedule, newest first. -/
def shaSchedule : Nat → List (BitVec 32) → List (BitVec 32)
  | 0, w => w
  | n + 1, w =>
    let x2 := w.getD 1 0
    let x15 := w.getD 14 0
    let g1 := x2.rotateRight 17 ^^^ x2.rotateRight 19 ^^^ (x2 >>> 10)
    let g0 := x15.rotateRight 7 ^^^ x15.rotateRight 18 ^^^ (x15 >>> 3)
    shaSchedule n ((g1 + w.getD 6 0 + g0 + w.getD 15 0) :: w)

/-- The big-endian words of `n` × 4 bytes. -/
def beWords : Nat → List Byte → List (BitVec 32)
  | 0, _ => []
  | n + 1, l => BitVec.ofNat 32 (beAt l 0 4) :: beWords n (l.drop 4)

def shaBlock (s : ShaWords) (block : List Byte) : ShaWords :=
  let w := (shaSchedule 48 (beWords 16 block).reverse).reverse
  let r := (List.zipWith (· + ·) shaK w).foldl shaRound s
  ⟨s.a + r.a, s.b + r.b, s.c + r.c, s.d + r.d, s.e + r.e, s.f + r.f, s.g + r.g, s.h + r.h⟩

def shaBlocks : Nat → ShaWords → List Byte → ShaWords
  | 0, s, _ => s
  | n + 1, s, l => shaBlocks n (shaBlock s (l.take 64)) (l.drop 64)

/-- SHA-256 of a byte string, 32 bytes. -/
def sha256 (m : List Byte) : List Byte :=
  let n := m.length
  let pad := List.replicate ((119 - n % 64) % 64) (0 : Byte)
  let full := m ++ (0x80#8 :: pad) ++ beBytes 8 (8 * n)
  let s := shaBlocks (full.length / 64) shaInit full
  ([s.a, s.b, s.c, s.d, s.e, s.f, s.g, s.h].map (fun x => beBytes 4 x.toNat)).flatten

/-! ### SHA-1, for BFD authentication (R441) -/

/-- One round of SHA-1; `t` is its number. -/
def sha1Round (s : ShaWords) (x : Nat × BitVec 32) : ShaWords :=
  let t := x.1
  let f := if t < 20 then (s.b &&& s.c) ||| (~~~s.b &&& s.d)
    else if 40 ≤ t ∧ t < 60 then (s.b &&& s.c) ||| (s.b &&& s.d) ||| (s.c &&& s.d)
    else s.b ^^^ s.c ^^^ s.d
  let k : BitVec 32 := if t < 20 then 0x5A827999 else if t < 40 then 0x6ED9EBA1 else if t < 60 then 0x8F1BBCDC else 0xCA62C1D6
  ⟨s.a.rotateLeft 5 + f + s.e + k + x.2, s.a, s.b.rotateLeft 30, s.c, s.d, 0, 0, 0⟩

def sha1Schedule : Nat → List (BitVec 32) → List (BitVec 32)
  | 0, w => w
  | n + 1, w => sha1Schedule n ((w.getD 2 0 ^^^ w.getD 7 0 ^^^ w.getD 13 0 ^^^ w.getD 15 0).rotateLeft 1 :: w)

def sha1Block (s : ShaWords) (block : List Byte) : ShaWords :=
  let w := (sha1Schedule 64 (beWords 16 block).reverse).reverse
  let r := ((List.range 80).zip w).foldl sha1Round s
  ⟨s.a + r.a, s.b + r.b, s.c + r.c, s.d + r.d, s.e + r.e, 0, 0, 0⟩

def sha1Blocks : Nat → ShaWords → List Byte → ShaWords
  | 0, s, _ => s
  | n + 1, s, l => sha1Blocks n (sha1Block s (l.take 64)) (l.drop 64)

/-- SHA-1 of a byte string, 20 bytes. -/
def sha1 (m : List Byte) : List Byte :=
  let n := m.length
  let pad := List.replicate ((119 - n % 64) % 64) (0 : Byte)
  let full := m ++ (0x80#8 :: pad) ++ beBytes 8 (8 * n)
  let s := sha1Blocks (full.length / 64) ⟨0x67452301, 0xEFCDAB89, 0x98BADCFE, 0x10325476, 0xC3D2E1F0, 0, 0, 0⟩ full
  ([s.a, s.b, s.c, s.d, s.e].map (fun x => beBytes 4 x.toNat)).flatten

/-- HMAC-SHA-256 (RFC 2104). -/
def hmac (key msg : List Byte) : List Byte :=
  let k := slice (if 64 < key.length then sha256 key else key) 0 64
  sha256 (k.map (· ^^^ 0x5C) ++ sha256 (k.map (· ^^^ 0x36) ++ msg))

/-- HKDF-SHA-256 with an output of 32 bytes (RFC 5869). -/
def hkdf32 (input salt info : List Byte) : List Byte := hmac (hmac salt input) (info ++ [1])

end Sys2Proof.Machine
end

