-- ==== Sys2Proof/Machine/FwBase.lean ====
section
/-! DEFINITION. What the firmware chapter shares: boot records, the configuration store, image headers and their checks
(R469–R480). -/
namespace Sys2Proof.Machine

/-! ### Boot records (R470) -/

/-- Is `a` later than `b`, modulo 2^32 (R263)? -/
def laterSeq (a b : Nat) : Bool :=
  let x := (a + 2 ^ 32 - b % 2 ^ 32) % 2 ^ 32
  decide (0 < x ∧ x < 2 ^ 31)

/-- The copy in force of two: its number and contents. -/
def newer {α : Type} (seq : α → Nat) (a b : Option α) : Option (Nat × α) :=
  match a, b with
  | none, none => none
  | some x, none => some (0, x)
  | none, some y => some (1, y)
  | some x, some y => if laterSeq (seq y) (seq x) then some (1, y) else some (0, x)

/-- A boot record's 64 bytes. -/
def BootRec.bytes (r : BootRec) : List Byte :=
  let b := leBytes 4 0x42524B5A ++ leBytes 4 r.seq ++ leBytes 1 (r.slot % 2 + 2 * r.trial.toNat) ++ leBytes 1 r.committedSv ++ leBytes 2 0
    ++ leBytes 4 r.bootCount ++ leBytes 4 r.configEpoch ++ List.replicate 40 0
  b ++ leBytes 4 (crc32cStd b)

/-- What a copy says, where MAGIC and CHECK are right. -/
def readBoot (b : List Byte) : Option BootRec :=
  if leAt b 0 4 = 0x42524B5A ∧ leAt b 0x3C 4 = crc32cStd (slice b 0 0x3C) then
    some { seq := leAt b 4 4, slot := leAt b 8 1 % 2, trial := bit (leAt b 8 1) 1, committedSv := leAt b 9 1, bootCount := leAt b 0x0C 4
           configEpoch := leAt b 0x10 4 }
  else none

/-- The copy in force, and its number. -/
def Dev.recCopy (d : Dev) : Option (Nat × BootRec) := newer BootRec.seq (readBoot d.fw.rec0) (readBoot d.fw.rec1)

/-- The boot record in force; a blank flash counts from 0 and takes slot A. -/
def Dev.bootRec (d : Dev) : BootRec := (d.recCopy.map (·.2)).getD {}

/-- Write a boot record: the other copy, with SEQ + 1; COMMITTED_SV and TRIAL show in FW_STATUS. -/
def Dev.putBoot (d : Dev) (r : BootRec) : Dev :=
  let cur := d.recCopy
  let r := { r with seq := match cur with | some c => (c.2.seq + 1) % 2 ^ 32 | none => 0 }
  let d := if cur.any (fun c => c.1 == 0) then { d with fw := { d.fw with rec1 := r.bytes } }
    else { d with fw := { d.fw with rec0 := r.bytes } }
  (d.set 0 FW_STATUS.COMMITTED_SV r.committedSv).setFlag 0 FW_STATUS.TRIAL r.trial

/-- CONFIG_EPOCH + 1, in a new boot record (R431, R470). -/
def Dev.raiseEpoch (d : Dev) : Dev :=
  let r := d.bootRec
  d.putBoot { r with configEpoch := (r.configEpoch + 1) % 2 ^ 32 }

/-! ### The flash (R469) -/

/-- The regions of the flash: address and size. -/
def flashMap : List (Nat × Nat) :=
  [(0x0000000, 64 * 2 ^ 10), (0x0010000, 64 * 2 ^ 10), (0x0020000, 896 * 2 ^ 10), (0x0100000, 28 * 2 ^ 20), (0x1D00000, 28 * 2 ^ 20),
   (0x3900000, 3 * 2 ^ 20), (0x3C00000, 3 * 2 ^ 20), (0x3F00000, 2 ^ 20)]

/-! ### Image headers (R472, R473) -/

def hdrVersion (h : List Byte) : Nat := leAt h 0x10 4
def hdrSv (h : List Byte) : Nat := leAt h 0x14 1
def hdrSchema (h : List Byte) : Nat := leAt h 0x16 2
def hdrMinSchema (h : List Byte) : Nat := leAt h 0x1C 2
def hdrPayload (h : List Byte) : Nat := leAt h 0x18 4
def hdrKind (h : List Byte) : Nat := leAt h 0x0C 1
def hdrEncrypted (h : List Byte) : Bool := bit (leAt h 0x0D 1) 0
def hdrBound (h : List Byte) : Bool := bit (leAt h 0x0D 1) 1

/-- Are all these bytes 0? -/
def allZero (l : List Byte) : Bool := l.all (· == 0)

/-- An image's payload. -/
def imgPayload (img : List Byte) : List Byte := slice img 512 (hdrPayload img)

/-! ### The configuration store (R479, R480) -/

/-- Can the running firmware use a store copy: does it know the schema? -/
def Dev.knowsSchema (d : Dev) (s : Store) : Bool :=
  match d.fw.running with
  | some i => decide (hdrMinSchema i.header ≤ s.schema ∧ s.schema ≤ hdrSchema i.header)
  | none => true

/-- The store copy in use. -/
def Dev.storeCopy (d : Dev) : Option (Nat × Store) :=
  let usable (s : Store) : Bool := s.sound && d.knowsSchema s
  newer Store.seq (d.fw.store0.filter usable) (d.fw.store1.filter usable)

/-- The latest valid copy, whatever its schema. -/
def Dev.latestStore (d : Dev) : Option (Nat × Store) := newer Store.seq (d.fw.store0.filter (·.sound)) (d.fw.store1.filter (·.sound))

/-- The store as the firmware sees it: the copy in use, or defaults. -/
def Dev.store (d : Dev) : Store :=
  ((d.storeCopy).map (·.2)).getD { schema := match d.fw.running with | some i => hdrSchema i.header | none => 0 }

/-- FW_STATUS shows the schema in use. -/
def Dev.showSchema (d : Dev) : Dev := d.set 0 FW_STATUS.SCHEMA (match d.storeCopy with | some c => c.2.schema | none => 0)

/-- Update the store: the copy not in use, with SEQ + 1; in a trial whose store was migrated, the new copy again (R480). With none in use the
latest one stays. -/
def Dev.putStore (d : Dev) (s : Store) : Dev :=
  let latest := d.storeCopy.or d.latestStore
  let s := { s with sound := true, seq := match latest with | some c => (c.2.seq + 1) % 2 ^ 32 | none => 0 }
  let migrated : Bool := d.flag 0 FW_STATUS.TRIAL
    && (match d.fw.store0, d.fw.store1 with | some a, some b => a.schema != b.schema | _, _ => false)
  let old := (latest.map (·.1)).getD 1
  let to_ := if migrated then old else 1 - old
  (if to_ = 0 then { d with fw := { d.fw with store0 := some s } }
   else { d with fw := { d.fw with store1 := some s } }).showSchema

/-- The bytes of a store copy: header, then body. -/
def Store.bytes (s : Store) : List Byte :=
  let body := Config.storeBody s.schema s.seq s.keys s.mgtCfg s.mgtIpv4 s.hdlCfg s.services
  leBytes 4 0x53464E43 ++ leBytes 2 s.schema ++ leBytes 2 0 ++ leBytes 4 s.seq ++ leBytes 4 body.length
  ++ List.replicate 16 0 ++ sha256 body ++ body

/-- What is written at the start of each region of the flash. -/
def Dev.flashParts (d : Dev) : List (List Byte) :=
  let store (s : Option Store) : List Byte := match s with | some s => s.bytes | none => []
  [d.fw.rec0, d.fw.rec1, [], d.fw.slotA, d.fw.slotB, store d.fw.store0, store d.fw.store1, []]

/-- The byte at a flash address: what its region holds, 0xFF where it is erased (PRESUMED, of NOR flash). -/
def Dev.flashByte (d : Dev) (a : Nat) : Byte :=
  match (flashMap.zip d.flashParts).find? (fun r => decide (r.1.1 ≤ a ∧ a < r.1.1 + r.1.2)) with
  | some r => r.2.getD (a - r.1.1) 0xFF
  | none => 0xFF

def uMGT : Nat := 449

/-- Load the registers that the store keeps (R479). -/
def Dev.loadStore (d : Dev) : Dev :=
  let s := d.store
  (((d.putWord uMGT MGT_CFG.desc 0 s.mgtCfg).putWord uMGT MGT_IPV4.desc 0 s.mgtIpv4).putWord 0 HDL_CFG.desc 0 s.hdlCfg).showSchema

/-- Do fuse burns and flash writes wait for a supply dip (R519)? -/
def Dev.flashHeld (d : Dev) : Bool := decide (d.now < d.fw.holdUntil)

/-- Write those registers back to the store; the write waits after a supply dip. -/
def Dev.saveStore (d : Dev) : Dev :=
  if d.flashHeld then { d with fw := { d.fw with dirty := true } }
  else d.putStore { d.store with
    mgtCfg := d.wordOf uMGT MGT_CFG.desc 0, mgtIpv4 := d.wordOf uMGT MGT_IPV4.desc 0, hdlCfg := d.wordOf 0 HDL_CFG.desc 0 }

/-! ### The checks of an image (R474, R475) -/

/-- What BINDING must be. -/
def Dev.binding (d : Dev) : List Byte := sha256 (slice d.fw.otp.serial 0 12 ++ d.identBytes 1 ++ d.identBytes 2)

/-- Check 1. DEDUCED: BINDING and EPHEMERAL_KEY are reserved fields of the headers for which R472 has them 0. -/
def hdrFormOk (h : List Byte) : Bool :=
  leAt h 0 4 == 0x49464B5A && leAt h 4 2 == 1 && leAt h 6 2 == 512 && decide (leAt h 0x0D 1 < 4) && leAt h 0x0F 1 == 0
  && leAt h 0x15 1 == 0 && leAt h 0x1E 2 == 0 && allZero (slice h 0x16C 4) && allZero (slice h 0x180 64)
  && (hdrBound h || allZero (slice h 0x20 32)) && (hdrEncrypted h || allZero (slice h 0x120 64))
  && decide (hdrKind h ≤ 1) && (!hdrEncrypted h || hdrBound h) && (hdrKind h == 0 || hdrEncrypted h)
  && decide (leAt h 0x0E 1 < 32) && decide (hdrSv h ≤ 64) && decide (1 ≤ hdrPayload h ∧ hdrPayload h ≤ 29359616)

/-- The root-hash slot that a header's ROOT_KEY matches, its revocation bit clear (check 2). -/
def Dev.rootSlot (d : Dev) (h : List Byte) : Option Nat :=
  let k := sha256 (slice h 0x60 64)
  (List.range 4).find? (fun i => d.fw.otp.rootHashes.getD i [] == k && !bit d.fw.otp.rootRevoked i)

/-- Checks 1–8 of a header, none when it passes. `old` is the schema of the store, none for the ROM, which skips check 8,
and for a device without a store. -/
def Dev.checkHeader (d : Dev) (h : List Byte) (old : Option Nat) (allowDefaults : Bool) : Option Reply :=
  let id := leAt h 0x0E 1
  if ¬ hdrFormOk h then some .badBlock
  else if (d.rootSlot h).isNone then some (.fail stAUTH_FAILED)
  else if ¬ Config.ecdsaOk (slice h 0x60 64) (slice h 0xA0 64 ++ slice h 0x0E 1) (slice h 0xE0 64) ∨ bit d.fw.otp.signerRevoked id then
    some (.fail stAUTH_FAILED)
  else if ¬ Config.ecdsaOk (slice h 0xA0 64) (slice h 0 0x1C0) (slice h 0x1C0 64) then some (.fail stAUTH_FAILED)
  else if leAt h 8 2 ≠ 0x2560 ∨ ¬ bit (leAt h 0x0A 2) d.majorStepping then some (.fail stBINDING_MISMATCH)
  else if hdrBound h ∧ slice h 0x20 32 ≠ d.binding then some (.fail stBINDING_MISMATCH)
  else if hdrSv h < d.fw.otp.svFused then some (.fail stVERSION_REJECTED)
  else match old with
    | none => none
    | some sc =>
      if sc < hdrMinSchema h ∨ (hdrSchema h < sc ∧ ¬ allowDefaults) then some (.fail stVERSION_REJECTED) else none

/-- An encrypted payload decrypted under the device's wrap key, none where its TAG does not verify (R476). -/
def openPayload (wrapKey h p : List Byte) : Option (List Byte) :=
  let z := slice (Config.ecdhX wrapKey (slice h 0x120 64)) 0 32
  Config.gcmOpen (hkdf32 z (slice h 0x20 32) ([0x5A, 0x4B, 0x32, 0x35, 0x36, 0x30, 0x46, 0x57] ++ slice h 0 0x20)) (slice h 0x160 12)
    (slice h 0 0x120) p (slice h 0x170 16)

/-- What runs of an image: its payload, decrypted where ENCRYPTED is set. -/
def Dev.codeOf (d : Dev) (img : List Byte) : List Byte :=
  let h := slice img 0 512
  if hdrEncrypted h then (openPayload d.fw.otp.wrapKey h (imgPayload img)).getD [] else imgPayload img

/-- Checks 9 and 10 of an image. -/
def Dev.checkPayload (d : Dev) (img : List Byte) : Option Reply :=
  let h := slice img 0 512
  let p := imgPayload img
  if sha256 p ≠ slice h 0x40 32 then some (.fail stAUTH_FAILED)
  else if hdrEncrypted h ∧ (openPayload d.fw.otp.wrapKey h p).isNone then some (.fail stAUTH_FAILED)
  else none

/-- Schema of the store for check 8: that of the copy in use, or of the latest one where the firmware knows none. -/
def Dev.storeSchema (d : Dev) : Option Nat :=
  (d.storeCopy.or d.latestStore).map (·.2.schema)

/-- Contents of an image slot. -/
def Dev.slotImage (d : Dev) (slot : Nat) : List Byte := if slot = 0 then d.fw.slotA else d.fw.slotB

def Dev.putSlot (d : Dev) (slot : Nat) (img : List Byte) : Dev :=
  if slot = 0 then { d with fw := { d.fw with slotA := img } } else { d with fw := { d.fw with slotB := img } }

/-- An image as the firmware remembers it. -/
def mkImage (slot : Nat) (img : List Byte) : Image :=
  ⟨slot, slice img 0 512, slice (sha256 (slice img 0 (512 + hdrPayload img))) 0 8⟩

/-- An image runs, decrypted in memory; its registers (R471, R472, R496). -/
def Dev.showRunning (d : Dev) (i : Image) (code : List Byte) : Dev :=
  let d := { d with fw := { d.fw with running := some i, code := code } }
  let d := (d.set 0 FW_VERSION.RUNNING_VERSION (hdrVersion i.header)).set 0 FW_STATUS.SLOT i.slot
  let d := d.setFlag 0 FW_STATUS.DIAGNOSTIC (hdrKind i.header == 1)
  (d.set 0 FW_STATUS.ROOT_SLOT ((d.rootSlot i.header).getD 0)).showSchema

/-- The staged image's registers. -/
def Dev.showStaged (d : Dev) (i : Option Image) : Dev :=
  let d := { d with fw := { d.fw with staged := i } }
  (d.setFlag 0 FW_STATUS.STAGED i.isSome).set 0 FW_VERSION.STAGED_VERSION (match i with | some i => hdrVersion i.header | none => 0)

/-! ### What the configuration space says (R399) -/

/-- Class code. -/
def pciClass : Nat := 0x028000

/-- Vendor ID, Device ID and Revision ID: the vendor's is Druvik's assigned one, which the manual does not give. -/
def Dev.pciId (d : Dev) : Nat × Nat × Nat :=
  (Config.vendorId.toNat, d.get uHIF HIF_ID.DEVICE_ID, bits (d.ident 1).2 39 32)

/-- Device Serial Number: the first 8 bytes of the SHA-256 of the package serial. -/
def Dev.pciSerial (d : Dev) : List Byte := slice (sha256 (slice d.fw.otp.serial 0 12)) 0 8

end Sys2Proof.Machine
end

