-- ==== Sys2Proof/Machine/DramMap.lean ====
section
/-! DEFINITION. The layout of stacked memory: its organisation, where a side address lies, the regions of each side, and what an access at a
side address meets (R339–R344, R358, R364). -/
namespace Sys2Proof.Machine

/-! ### Organisation (R339) -/

/-- Bytes of a logical channel, banks of a channel or pseudo-channel, and rows of a bank. -/
def logicalBytes : Nat := 268435456
def dramBanks : Nat := 16
def dramRows : Nat := 8192

/-- Bytes of one access: 32 in an F-side pseudo-channel, 64 in a Q-side channel. -/
def accessBytes (qSide : Bool) : Nat := if qSide then 64 else 32

/-- Bytes of a row: 1 KiB in an F-side pseudo-channel, 2 KiB in a Q-side channel. -/
def rowBytes (qSide : Bool) : Nat := if qSide then 2048 else 1024

def uSTK (s : Nat) : Nat := 512 + s
def uCHN (s c : Nat) : Nat := 520 + 17 * s + c

/-! ### Where a side address lies (R340) -/

/-- A place in a logical channel: pseudo-channel (0 on the Q-side), bank, row, and column of an access. -/
structure Place340 where
  pc : Nat
  bank : Nat
  row : Nat
  col : Nat
  deriving DecidableEq, Repr

/-- Logical channel number of a side address, 0–63. -/
def sideChannel (qSide : Bool) (a : Nat) : Nat :=
  if qSide then bits a 16 11 ^^^ bits a 22 17 ^^^ bits a 28 23
  else bits a 12 7 ^^^ bits a 18 13 ^^^ bits a 24 19 ^^^ bits a 30 25

/-- The place of a side address in its logical channel. -/
def sidePlace (qSide : Bool) (a : Nat) : Place340 :=
  if qSide then
    let v := bits a 33 17
    ⟨0, bits v 3 0 ^^^ bits v 7 4, bits v 16 4, bits a 10 6⟩
  else
    let u := 2 * bits a 33 13 + bits a 5 5
    ⟨bits a 6 6, bits u 8 5 ^^^ bits u 12 9, bits u 21 9, bits u 4 0⟩

/-- Stack and channel of a logical channel number of a side. -/
def sideStack (qSide : Bool) (a : Nat) : Nat := sideChannel qSide a / 16 + (if qSide then 4 else 0)

/-- The byte of its logical channel at which a place's access unit stands, in ascending channel address: row, bank, pseudo-channel and
column. That a channel's address counts them in this order is the model's choice (R357 copies "in ascending channel address"). -/
def Place340.channelAddr (qSide : Bool) (x : Place340) : Nat :=
  ((x.row * dramBanks + x.bank) * (if qSide then 1 else 2) + x.pc) * rowBytes qSide + x.col * accessBytes qSide

/-! ### Regions (R342, R343) -/

/-- A region of a side. -/
structure Region where
  qSide : Bool
  base : Nat
  size : Nat
  deriving DecidableEq, Repr

def lpmRegion : Region := ⟨false, 0, 2 ^ 30⟩
def emRegion : Region := ⟨false, 0x40000000, 2 ^ 31⟩
def pairRegion : Region := ⟨false, 0xC0000000, 2 ^ 29⟩
def encapRegion : Region := ⟨false, 0xE0000000, 2 ^ 27⟩
def clsCopyRegion : Region := ⟨false, 0xE8000000, 2 ^ 26⟩
def meterCopyRegion : Region := ⟨false, 0xEC000000, 2 ^ 25⟩
def workRegion : Region := ⟨false, 0xEE000000, 2 ^ 28⟩
def sentinelRegion : Region := ⟨false, 0xFE000000, 2 ^ 25⟩
def clusterRegion : Region := ⟨false, 0x100000000, 2 ^ 32⟩
def reliefRegion : Region := ⟨false, 0x200000000, 2 ^ 33⟩
def spillRegion : Region := ⟨true, 0, 14 * 2 ^ 30⟩
def poolRegion : Region := ⟨true, 0x380000000, 2 ^ 30⟩
def slotRegion : Region := ⟨true, 0x3C0000000, 2 ^ 26⟩
def groupRegion : Region := ⟨true, 0x3C4000000, 2 ^ 24⟩
def egrRegion : Region := ⟨true, 0x3C5000000, 2 ^ 20⟩
def scrubRegion : Region := ⟨true, 0x3C5100000, 2 ^ 34 - 0x3C5100000⟩

/-- Every region, ascending by side. -/
def regions : List Region :=
  [lpmRegion, emRegion, pairRegion, encapRegion, clsCopyRegion, meterCopyRegion, workRegion, sentinelRegion, clusterRegion, reliefRegion,
   spillRegion, poolRegion, slotRegion, groupRegion, egrRegion, scrubRegion]

/-- Entry `i` of `n` bytes of a region. -/
def Region.entry (r : Region) (n i : Nat) : Nat := r.base + n * i

def lpmAddr (b : Nat) : Nat := lpmRegion.entry 32 b
def emAddr (b : Nat) : Nat := emRegion.entry 128 b
def pairAddr (i : Nat) : Nat := pairRegion.entry 16 i
def encapAddr (i : Nat) : Nat := encapRegion.entry 32 i
def meterCopyAddr (i : Nat) : Nat := meterCopyRegion.entry 32 i
def blockAddr (b : Nat) : Nat := spillRegion.entry 2048 b
def slotAddr (i : Nat) : Nat := slotRegion.entry 4 i
def groupAddr (g : Nat) : Nat := groupRegion.entry 256 g
def egrAddr (e : Nat) : Nat := egrRegion.entry 8 e

/-- Reserved entries of the sentinel region: LPM buckets, exact-match buckets, counter pairs and encapsulation units, in this order from its
base: the model's choice (R202 gives their numbers alone). -/
def sentinelLpmAddr (i : Nat) : Nat := sentinelRegion.base + 32 * (i % 4096)
def sentinelEmAddr (i : Nat) : Nat := sentinelRegion.base + 0x20000 + 128 * (i % 4096)
def sentinelPairAddr (i : Nat) : Nat := sentinelRegion.base + 0xA0000 + 16 * (i % 131072)
def sentinelEncapAddr (i : Nat) : Nat := sentinelRegion.base + 0x2A0000 + 32 * (i % 4096)

/-- Buffer `b`, of `n` bytes, of DRAM pool `p`: pool 1 is the spillway; where in their region the others lie, R232 leaves open. -/
def poolAddr (p n b : Nat) : Nat :=
  if p = 1 then blockAddr b else poolRegion.base + (Config.poolPlace p + n * b) % poolRegion.size

/-- Channel of an exact-match bucket, and of an LPM bucket. -/
def emChannel (b : Nat) : Nat := sideChannel false (emAddr b)
def lpmChannel (b : Nat) : Nat := sideChannel false (lpmAddr b)

/-! ### Ports (R344) -/

/-- Ports of a side, CALIB on both. -/
def portOfSide (qSide : Bool) (port : Nat) : Bool := port == 8 || (if qSide then decide (4 ≤ port ∧ port < 8) else decide (port < 4))

/-- Does this QUALIFIER of a DRAM code select a port (R368)? -/
def selDramPort (p q : Nat) : Bool := q % 16 == 0 || q % 16 == p + 1

/-! ### What an access meets (R341, R352, R358, R364) -/

/-- Does a side address lie in a logical channel that is DEAD? -/
def Dev.sideDead (d : Dev) (qSide : Bool) (a : Nat) : Bool :=
  d.flagI (uSTK (sideStack qSide a)) DRC_CH_MAP.DEAD (sideChannel qSide a % 16)

/-- A logical channel in the table of poisoned ranges. -/
def poisonKey (qSide : Bool) (c : Nat) : Key := [qSide.toNat, c]

/-- Was the range of a side address's logical channel reported as poisoned, and the address not written since (R364)? -/
def Dev.sidePoisoned (d : Dev) (qSide : Bool) (a : Nat) : Bool :=
  (d.dram.poison.get? (poisonKey qSide (sideChannel qSide a))).any (fun ws => !ws.contains a)

/-- Does a read of a side address return poisoned data, whatever single words its requester finds uncorrectable? -/
def Dev.sideBad (d : Dev) (qSide : Bool) (a : Nat) : Bool := d.sideDead qSide a || d.sidePoisoned qSide a

/-- `n` accesses at a side address: those of a DEAD channel are counted (R364). -/
def Dev.access (d : Dev) (qSide : Bool) (a n : Nat) : Dev :=
  if d.sideDead qSide a then d.add (uSTK (sideStack qSide a)) DRC_DEAD_ACCESS.COUNT n else d

/-- The physical channels that a write at a side address goes to: the one behind its logical channel, and while that is copied also the copy
target, where the copy has passed the address (R358). -/
def Dev.writeChannels (d : Dev) (qSide : Bool) (a : Nat) : List Nat :=
  let s := sideStack qSide a
  let x := d.getI (uSTK s) DRC_CH_MAP.PHYS (sideChannel qSide a % 16)
  match (d.dram.stackTab.getD {} [s]).rot with
  | some r => if ¬ r.training ∧ r.x = x ∧ (sidePlace qSide a).channelAddr qSide < r.pointer then [x, r.p] else [x]
  | none => [x]

/-- A write of a port at a side address, in `n` bursts: discarded in a DEAD channel and counted there, else made in every channel that it goes
to; what was poisoned at the address is good again. -/
def Dev.sideWrite (d : Dev) (qSide : Bool) (a port n : Nat) : Dev :=
  if d.sideDead qSide a then d.access qSide a n else
  let s := sideStack qSide a
  let k := poisonKey qSide (sideChannel qSide a)
  let d := (d.writeChannels qSide a).foldl (fun d c => d.tallyQ (uCHN s c) 0x21 n (selDramPort port)) d
  match d.dram.poison.get? k with
  | none => d
  | some ws => if ws.contains a then d else { d with dram := { d.dram with poison := d.dram.poison.insert k (a :: ws) } }

end Sys2Proof.Machine
end

