-- ==== Sys2Proof/Machine/Buffers.lean ====
section
/-! DEFINITION. The buffer pool manager: grants, quotas, fallback, owners and frees (R231–R239). -/
namespace Sys2Proof.Machine

def uBPM : Nat := 100
def uVOQ : Nat := 96
def uSPW : Nat := 101

/-- Requesters (R234). -/
def reqLateral (l : Nat) : Nat := l
def reqReseq : Nat := 4
def reqTurnout : Nat := 5
def reqSpill : Nat := 6
def reqEditor : Nat := 7
def reqHost : Nat := 8
def reqCluster : Nat := 9
def reqAgent (slot : Nat) : Nat := 32 + slot % 32

def Dev.poolFree (d : Dev) (p : Nat) : Nat := d.getI uBPM BPM_POOL_STATUS.FREE p
def Dev.poolCount (d : Dev) (p : Nat) : Nat := d.getI uBPM BPM_POOL_CFG.COUNT p
/-- What SIZE_LOG2 acts as: 8 to 16 (R231, R554). -/
def Dev.sizeLog2 (d : Dev) (p : Nat) : Nat := d.actI uBPM BPM_POOL_CFG.SIZE_LOG2 p
/-- Buffer size in bytes (R231). -/
def Dev.bufSize (d : Dev) (p : Nat) : Nat := 2 ^ d.sizeLog2 p
def Dev.used (d : Dev) (req p : Nat) : Nat := d.getI uBPM BPM_QUOTA_USE.USED (quotaIx req p)
def Dev.guar (d : Dev) (req p : Nat) : Nat := d.getI uBPM BPM_QUOTA.GUAR (quotaIx req p)
def Dev.quotaMax (d : Dev) (req p : Nat) : Nat := d.getI uBPM BPM_QUOTA.MAX (quotaIx req p)

/-- Sum of a pool's guarantees. -/
def Dev.guarSum (d : Dev) (p : Nat) : Nat := ((List.range 64).map (fun r => d.guar r p)).sum

/-- Does a pool 1 block lie in a Q-side channel that is DEAD (R253, R340, R343)? -/
def Dev.deadBlock (d : Dev) (p b : Nat) : Bool :=
  let c := (b ^^^ (b / 64) ^^^ (b / 4096)) % 64
  p == 1 && bit (d.get (516 + c / 16) DRC_STACK_STATUS.DEAD_MASK) (c % 16)

/-- Q-side channels that are DEAD. -/
def Dev.deadQ (d : Dev) : Nat := ((List.range 4).map (fun i => popCount (d.get (516 + i) DRC_STACK_STATUS.DEAD_MASK) 16)).sum

/-- Blocks of pool 1, and those that each of its 64 channels holds (R231, R253). -/
def spillBlocks : Nat := 7340032
def channelBlocks : Nat := spillBlocks / 64

/-- Buffers a pool has: COUNT, which the device sets for pool 1, less 1/64 for each DEAD Q-side channel (R231, R253). -/
def Dev.poolHas (d : Dev) (p : Nat) : Nat := if p = 1 then spillBlocks - d.deadQ * channelBlocks else d.poolCount p

/-- COUNT of pool 1 follows the channels lost. -/
def Dev.showSpillCount (d : Dev) : Dev := d.setI uBPM BPM_POOL_CFG.COUNT 1 (d.poolHas 1)

/-- Free buffers of the shared region: COUNT less the guarantees, less what requesters hold beyond theirs (R235). -/
def Dev.sharedFree (d : Dev) (p : Nat) : Nat :=
  d.poolHas p - d.guarSum p - ((List.range 64).map (fun r => d.used r p - d.guar r p)).sum

/-- Change a pool's FREE, keep LOW_WATER, and report pool 0 crossing GLOBAL_SPILL_PCT (R240, R257). -/
def Dev.setFree (d : Dev) (p n : Nat) : Dev :=
  let d := d.setI uBPM BPM_POOL_STATUS.FREE p n
  let d := if n < d.getI uBPM BPM_POOL_STATUS.LOW_WATER p then d.setI uBPM BPM_POOL_STATUS.LOW_WATER p n else d
  if p = 0 then
    let below : Bool := decide (n * 100 < d.poolCount 0 * d.act uVOQ TMQ_CFG.GLOBAL_SPILL_PCT)
    if below ≠ d.tm.globalSpill then
      ({ d with tm := { d.tm with globalSpill := below } }).raise uVOQ 0x10 (leBytes 1 below.toNat)
    else d
  else d

/-- Buffers of a pool that are allocated, ascending. -/
def Dev.allocated (d : Dev) (p : Nat) : List Nat :=
  (d.tm.owners.filter (fun e => e.1.headD 0 == p)).map (fun e => e.1.getD 1 0)

/-- The `k`-th buffer that is not among the allocated ones, which are ascending. -/
def nthFree (alloc : List Nat) (k : Nat) : Nat := alloc.foldl (fun x a => if a ≤ x then x + 1 else x) k

/-- Does a pool lie in Q-side DRAM (HOME)? -/
def Dev.inDram (d : Dev) (p : Nat) : Bool := d.flagI uBPM BPM_POOL_CFG.HOME p

/-- Sub-lists of a pool's free store (R233). An on-die pool of number 2 or above is given pool 0's 64: the model's choice. -/
def Dev.subLists (d : Dev) (p : Nat) : Nat := if d.inDram p then 1024 else 64

/-- How many numbers a pool's buffers have. Pools 0 and 1 keep theirs when their COUNT falls. -/
def Dev.spanOf (d : Dev) (p : Nat) : Nat := if p = 0 then 524288 else if p = 1 then spillBlocks else d.poolCount p

/-- Cells of each of pool 0's sub-lists that on-die pools have taken: 64 for each MiB (R232). -/
def Dev.lentCells (d : Dev) (p : Nat) : Nat := if p = 0 then (524288 - d.poolCount 0) / 64 else 0

/-- Buffers that sub-list `s` of a pool has. -/
def Dev.subSize (d : Dev) (p s : Nat) : Nat := (d.spanOf p + d.subLists p - 1 - s) / d.subLists p - d.lentCells p

/-- Free buffers of a sub-list, by the owner table. -/
def Dev.subFree (d : Dev) (p s : Nat) : Nat :=
  d.subSize p s - ((d.allocated p).filter (fun b => b % d.subLists p == s)).length

def Dev.freeList (d : Dev) (p s : Nat) : FreeList := d.tm.lists.getD {} [p, s]

def Dev.setFreeList (d : Dev) (p s : Nat) (l : FreeList) : Dev := { d with tm := { d.tm with lists := d.tm.lists.setD {} [p, s] l } }

/-- Insert a number into an ascending list. -/
def insertNat (n : Nat) : List Nat → List Nat
  | [] => [n]
  | m :: ms => if n ≤ m then n :: m :: ms else m :: insertNat n ms

/-- Places within sub-list `s` of the buffers that are no longer where the pool's threading put them, ascending. -/
def Dev.unthreaded (d : Dev) (p s : Nat) : List Nat :=
  let n := d.subLists p
  let l := d.freeList p s
  (l.cache ++ l.head).foldl (fun xs b => insertNat (b / n) xs)
    (((d.allocated p).filter (fun b => b % n == s)).map (fun b => b / n))

/-- The first buffer of a sub-list, from the `k`-th threaded of `total` on and round again, that does not lie in a DEAD channel. -/
def Dev.liveFrom (d : Dev) (gone : List Nat) (p s total : Nat) : Nat → Nat → Option Nat
  | 0, _ => none
  | fuel + 1, k =>
    let b := nthFree gone (k % max 1 total) * d.subLists p + s
    if d.deadBlock p b then d.liveFrom gone p s total fuel (k + 1) else some b

/-- A buffer of a sub-list still where threading put it. In what order a list is threaded, and where in an on-die list a freed cell is
linked, R233 leaves open: which one comes is a free value. -/
def Dev.threaded (d : Dev) (p s : Nat) : Option Nat :=
  if (d.freeList p s).cut then none else
  let gone := d.unthreaded p s
  let total := d.subSize p s - gone.length
  d.liveFrom gone p s total total (Config.freeBuffer d.draws)

/-- The BPM port refills a sub-list's prefetch cache from its head, up to 64 pointers (R233). -/
def Dev.prefetch : Nat → Dev → Nat → Nat → Dev
  | 0, d, _, _ => d
  | n + 1, d, p, s =>
    let l := d.freeList p s
    if 64 ≤ l.cache.length then d else
    match l.head with
    | b :: bs => Dev.prefetch n (d.setFreeList p s { l with cache := l.cache ++ [b], head := bs }) p s
    | [] =>
      match d.threaded p s with
      | some b => Dev.prefetch n ({ d with draws := d.draws + 1 }.setFreeList p s { l with cache := l.cache ++ [b] }) p s
      | none => d

/-- The buffer that sub-list `s` of a pool grants: one its cache holds, else its head (R233). How far the cache has been refilled by then,
and which of its pointers goes first, are free values. -/
def Dev.popSub (d : Dev) (p s : Nat) : Dev × Option Nat :=
  if ¬ d.inDram p then ({ d with draws := d.draws + 1 }, d.threaded p s) else
  let d := Dev.prefetch (Config.cacheRefill d.draws % 65) { d with draws := d.draws + 1 } p s
  let l := d.freeList p s
  if l.cache.isEmpty then
    match l.head with
    | b :: bs => (d.setFreeList p s { l with head := bs }, some b)
    | [] => ({ d with draws := d.draws + 1 }, d.threaded p s)
  else
    let k := Config.freeBuffer d.draws % l.cache.length
    ({ d with draws := d.draws + 1 }.setFreeList p s { l with cache := l.cache.eraseIdx k }, some (l.cache.getD k 0))

/-- The first buffer that a run of DRAM sub-lists from `s` on grants. -/
def Dev.popFrom : Nat → Dev → Nat → Nat → Dev × Nat
  | 0, d, _, _ => (d, 0)
  | n + 1, d, p, s =>
    let r := d.popSub p (s % d.subLists p)
    match r.2 with
    | some b => (r.1, b)
    | none => Dev.popFrom n r.1 p (s + 1)

/-- On-die sub-lists of a pool with a free cell. -/
def Dev.openSubs (d : Dev) (p : Nat) : List Nat :=
  (List.range (d.subLists p)).filter (fun s => decide (0 < d.subFree p s))

/-- One free buffer is granted to a requester, from sub-list `s` on: its owner entry gets ALLOCATED and OWNER (R238). -/
def Dev.takeOne (d : Dev) (req p s : Nat) : Dev × Nat :=
  let r := Dev.popFrom (d.subLists p) d p s
  let d := { r.1 with tm := { r.1.tm with owners := r.1.tm.owners.insert [p, r.2] ⟨req, false⟩ } }
  let d := d.addI uBPM BPM_QUOTA_USE.USED (quotaIx req p) 1
  (d.setFree p (d.poolFree p - 1), r.2)

/-- Grant `n` buffers. An on-die pool takes each from another of its sub-lists, `subs` being those not yet used (R236); which ones they
are is a free value, and so is a DRAM pool's choice. -/
def Dev.takeN : Nat → Dev → Nat → Nat → List Nat → Dev × List Nat
  | 0, d, _, _, _ => (d, [])
  | n + 1, d, req, p, subs =>
    let k := Config.freeBuffer d.draws
    let i := k % max 1 subs.length
    let r := { d with draws := d.draws + 1 }.takeOne req p (if d.inDram p then k else subs.getD i 0)
    let rest := Dev.takeN n r.1 req p (subs.eraseIdx i)
    (rest.1, r.2 :: rest.2)

/-- How many buffers one request can be granted by a pool's lists: an on-die pool gives one from each sub-list (R236). -/
def Dev.grantable (d : Dev) (p : Nat) : Nat := if d.inDram p then 64 else (d.openSubs p).length

/-- Free buffers of a pool that cut sub-lists do not reach (R354). -/
def Dev.cutOff (d : Dev) (p : Nat) : Nat :=
  ((d.tm.lists.filter (fun e => e.1.headD 0 == p && e.2.cut)).map (fun e =>
    d.subFree p (e.1.getD 1 0) - e.2.cache.length - e.2.head.length)).sum

/-- How many of `n` buffers a requester is granted from a pool: its guarantee first, then the shared region, never beyond
MAX, and none before READY (R233, R235, R236). -/
def Dev.allowed (d : Dev) (req p n : Nat) : Nat :=
  if d.flagI uBPM BPM_POOL_CFG.EN p ∧ d.flagI uBPM BPM_POOL_STATUS.READY p then
    let u := d.used req p
    let g := d.guar req p - u
    min (min n (min (d.grantable p) (d.poolFree p - d.cutOff p))) (min (g + min (d.sharedFree p) (d.quotaMax req p - max u (d.guar req p))) (max g (d.quotaMax req p - u)))
  else 0

/-- The pool a request passes on to, when it may: FB_EN set and a larger buffer size (R237). -/
def Dev.fallbackOf (d : Dev) (p : Nat) : Option Nat :=
  let f := d.getI uBPM BPM_POOL_CFG.FALLBACK p
  if d.flagI uBPM BPM_POOL_CFG.FB_EN p ∧ d.sizeLog2 p < d.sizeLog2 f then some f else none

/-- Is this QUALIFIER of a BPM code for pool `p` (R258)? -/
def selPool (p q : Nat) : Bool := q == p + 1

/-- A request that received none from pool `p`: POOL_EMPTY, once per second, when the pool has no free buffer. -/
def Dev.noteRefused (d : Dev) (p : Nat) : Dev :=
  let d := d.tallyQ uBPM 0x22 1 (selPool p)
  if d.poolFree p = 0 then d.raiseOnce uBPM 0x12 0 (fun _ => leBytes 1 p) else d

/-- One request for `n` buffers, following the fallback chain through at most `fuel` pools (R236, R237). `first` is the pool
asked first. The buffers of a fallback pool are larger, so fewer are asked of it: enough for `bytes`. -/
def Dev.requestChain : Nat → Dev → Nat → Nat → Nat → Nat → Dev × List (Nat × Nat)
  | 0, d, _, _, _, _ => (d, [])
  | fuel + 1, d, req, first, p, bytes =>
    let n := min 64 ((bytes + d.bufSize p - 1) / d.bufSize p)
    let k := d.allowed req p n
    if 0 < k then
      let r := Dev.takeN k d req p (d.openSubs p)
      ((r.1.tallyQ uBPM 0x20 k (selPool p)), r.2.map (fun b => (p, b)))
    else
      let d := d.noteRefused p
      let lost (d : Dev) : Dev := (d.bumpI uBPM BPM_POOL_REFUSED.COUNT first).bumpI uBPM BPM_REQ_FAIL.COUNT req
      match fuel, d.fallbackOf p with
      | 0, _ => (lost d, [])
      | _, none => (lost d, [])
      | _, some f =>
        Dev.requestChain fuel ((d.bumpI uBPM BPM_POOL_FALLBACK.COUNT p).tallyQ uBPM 0x23 1 (selPool p)) req first f bytes

/-- Bytes that a list of buffers holds. -/
def Dev.capacity (d : Dev) (bs : List (Nat × Nat)) : Nat := (bs.map (fun b => d.bufSize b.1)).sum

/-! #### Frees (R238) -/

/-- Cells pool 0 gives an on-die pool of number 2 or above: 4,096 for each whole MiB (R232). -/
def onDieCells (count sizeLog2 : Nat) : Nat := (count * 2 ^ sizeLog2 + 2 ^ 20 - 1) / 2 ^ 20 * 4096

/-- The memory of an on-die pool of number 2 or above goes back to pool 0 once its EN is clear and its last buffer is free. When it does
the manual leaves open (R232): the model's choice. -/
def Dev.giveBack (d : Dev) (p : Nat) : Dev :=
  if 2 ≤ p ∧ ¬ d.inDram p ∧ ¬ d.flagI uBPM BPM_POOL_CFG.EN p ∧ (d.allocated p).isEmpty then
    let cells := onDieCells (d.poolCount p) (d.sizeLog2 p)
    let d := d.setI uBPM BPM_POOL_CFG.COUNT 0 (d.poolCount 0 + cells)
    d.setFree 0 (d.poolFree 0 + cells)
  else d

/-- Link a freed buffer into its sub-list: a DRAM buffer into the cache while that has room, else as the new head (R233). -/
def Dev.linkFree (d : Dev) (p b : Nat) : Dev :=
  if ¬ d.inDram p then d else
  let s := b % d.subLists p
  let l := d.freeList p s
  d.setFreeList p s (if l.cache.length < 64 then { l with cache := l.cache ++ [b] } else { l with head := b :: l.head })

/-- Return one buffer to its pool: out of its owner's name and stash, into its free list. One in a DEAD channel is gone (R253), and a pool
that is not READY counts none (R233). -/
def Dev.releaseBuf (d : Dev) (p b req : Nat) : Dev :=
  let d := { d with tm := { d.tm with
    owners := d.tm.owners.erase [p, b],
    stash := d.tm.stash.setD [] [req, p] ((d.tm.stash.getD [] [req, p]).erase b) } }
  let d := d.setI uBPM BPM_QUOTA_USE.USED (quotaIx req p) (d.used req p - 1)
  let d := if d.deadBlock p b ∨ ¬ d.flagI uBPM BPM_POOL_STATUS.READY p then d
    else (d.linkFree p b).setFree p (d.poolFree p + 1)
  (d.giveBack p).tallyQ uBPM 0x21 1 (selPool p)

/-- Walk a chain of buffers, checking each owner entry; a refused buffer ends the walk (R238). -/
def Dev.freeChain : List (Nat × Nat) → Dev → Nat → Dev
  | [], d, _ => d
  | (p, b) :: rest, d, req =>
    match d.tm.owners.get? [p, b] with
    | none =>
      ((d.bump uBPM BPM_DOUBLE_FREE.COUNT).tallyQ uBPM 0x24 1 (selPool p)).raise uBPM 0x10
        (leBytes 4 b ++ leBytes 1 p ++ leBytes 1 req)
    | some o =>
      if o.owner = req then Dev.freeChain rest (d.releaseBuf p b req) req
      else ((d.bump uBPM BPM_WRONG_OWNER.COUNT).tallyQ uBPM 0x24 1 (selPool p)).raise uBPM 0x11
        (leBytes 4 b ++ leBytes 1 p ++ leBytes 1 req ++ leBytes 1 o.owner)

/-! #### Queues that begin to spill (R240) -/

def Dev.queue (d : Dev) : QRef → Queue
  | .voq n => d.tm.voqs.getD {} [n]
  | .eq n => d.tm.eqs.getD {} [n]

def Dev.setQueue (d : Dev) (r : QRef) (q : Queue) : Dev :=
  match r with
  | .voq n => { d with tm := { d.tm with voqs := d.tm.voqs.setD {} [n] q } }
  | .eq n => { d with tm := { d.tm with eqs := d.tm.eqs.setD {} [n] q } }

/-- 64-byte units of a packet (R225). -/
def EgrDesc.units (p : EgrDesc) : Nat := (p.length + 63) / 64

/-- DEPTH in 64-byte units (R225). -/
def Queue.depth (q : Queue) : Nat := (q.pkts.map (fun p => p.desc.units)).sum

/-- KiB as 64-byte units. -/
def kibUnits (n : Nat) : Nat := n * 16

/-- Buffers for `bytes` bytes of a requester: those its stash holds of the pool, else one request (R236, R237). -/
def Dev.obtain (d : Dev) (req p bytes : Nat) : Dev × List (Nat × Nat) :=
  let held := d.tm.stash.getD [] [req, p]
  if held.isEmpty then Dev.requestChain 3 d req p p bytes
  else
    let n := (bytes + d.bufSize p - 1) / d.bufSize p
    ({ d with tm := { d.tm with stash := d.tm.stash.setD [] [req, p] (held.drop n) } }, (held.take n).map (fun b => (p, b)))

/-- Bytes of a spill block. A larger buffer that pool 1 fell back to serves as one block, as the offset of a handle reaches no further
(R226): the model's choice. -/
def spillBlock : Nat := 2048

/-- ON_DIE to SPILLED (R240): the queue is deep enough, or pool 0 is short and the queue is not shallow. -/
def Dev.startSpill (d : Dev) (r : QRef) : Dev :=
  let q := d.queue r
  if q.spillEn ∧ ¬ q.spilled ∧ (kibUnits (d.getI uVOQ TMQ_AP_SPILL.SPILL_ON q.profile) ≤ q.depth
      ∨ (d.tm.globalSpill ∧ kibUnits (d.getI uVOQ TMQ_AP_SPILL.SPILL_OFF q.profile) ≤ q.depth)) then
    let g := d.obtain reqSpill 1 spillBlock
    let d := g.1
    let d := d.setQueue r { d.queue r with spilled := true, blocks := g.2 }
    d.tally uVOQ 0x23 1
  else d

/-- Every queue that R240 now takes to SPILLED goes there: pool 0 has run short, or what R240 compares was written. -/
def Dev.startSpills (d : Dev) : Dev :=
  d.tm.eqs.foldl (fun d e => d.startSpill (.eq (e.1.headD 0))) (d.tm.voqs.foldl (fun d e => d.startSpill (.voq (e.1.headD 0))) d)

/-- After a step that may have taken pool 0 below GLOBAL_SPILL_PCT, `was` saying whether it was there before. -/
def Dev.spillIfShort (d : Dev) (was : Bool) : Dev := if d.tm.globalSpill && !was then d.startSpills else d

/-! #### Bodies -/

/-- Take buffers for a body of `bytes` bytes, a request at a time, until it fits or a request fails. -/
def Dev.gather : Nat → Dev → Nat → Nat → Nat → List (Nat × Nat) → Dev × List (Nat × Nat) × Bool
  | 0, d, _, _, bytes, acc => (d, acc, decide (bytes ≤ d.capacity acc))
  | fuel + 1, d, req, p, bytes, acc =>
    if bytes ≤ d.capacity acc ∧ ¬ acc.isEmpty then (d, acc, true)
    else
      let r := d.obtain req p (max 1 bytes - d.capacity acc)
      if r.2.isEmpty then (r.1, acc, false) else Dev.gather fuel r.1 req p bytes (acc ++ r.2)

/-- Handle of a body whose first buffer is (pool, buffer); pool 0 cells are named by their number (R226). -/
def handleOf (b : Nat × Nat) : Nat := b.2 + b.1 * 2 ^ 32

/-- SHARED of the owner entries of a body's buffers: more than one use is counted on it (R238, R244). -/
def Dev.markShared (d : Dev) (bufs : List (Nat × Nat)) (shared : Bool) : Dev :=
  bufs.foldl (fun d b => match d.tm.owners.get? [b.1, b.2] with
    | some o => if o.shared = shared then d
      else { d with tm := { d.tm with owners := d.tm.owners.insert [b.1, b.2] { o with shared := shared } } }
    | none => d) d

/-- A body's reference count is written. -/
def Dev.setRefs (d : Dev) (h : Nat) (b : Body) (n : Nat) : Dev :=
  { d with tm := { d.tm with bodies := d.tm.bodies.insert [h] { b with refs := n } } }.markShared b.bufs (decide (1 < n))

/-- Addresses of a DRAM buffer's 2 KiB units. -/
def Dev.bufUnits (d : Dev) (p b : Nat) : List Nat :=
  (List.range (max 1 (d.bufSize p / 2048))).map (fun i => poolAddr p (d.bufSize p) b + 2048 * i)

/-- A write of the DRAM buffers among some, on the BPM port (R344). -/
def Dev.wroteBufs (d : Dev) (bs : List (Nat × Nat)) : Dev :=
  bs.foldl (fun d x => if d.inDram x.1 then
    (d.bufUnits x.1 x.2).foldl (fun d a => d.sideWrite true a 5 (min 32 (d.bufSize x.1 / 64))) d else d) d

/-- Store a body; none when no buffer can be granted, and then every buffer taken is given back. -/
def Dev.storeBody (d : Dev) (req p : Nat) (bytes : List Byte) (refs : Nat) : Dev × Option Nat :=
  let r := Dev.gather 64 d req p bytes.length []
  match r.2.1, r.2.2 with
  | b :: bs, true =>
    let h := handleOf b
    let e := { r.1 with tm := { r.1.tm with bodies := r.1.tm.bodies.insert [h] ⟨b :: bs, bytes, refs, req⟩ } }
    (((e.wroteBufs (b :: bs)).markShared (b :: bs) (decide (1 < refs))).spillIfShort d.tm.globalSpill, some h)
  | bs, _ => (Dev.freeChain bs r.1 req, none)

def Dev.body (d : Dev) (h : Nat) : Option Body := d.tm.bodies.get? [h]

/-- Does a buffer read as poisoned (R352, R364)? -/
def Dev.badBuf (d : Dev) (x : Nat × Nat) : Bool := d.inDram x.1 && (d.bufUnits x.1 x.2).any (d.sideBad true)

/-- The bytes of a body. What a poisoned one reads as is a free value: R352 names no action of its owner for the DRAM pools. -/
def Dev.bodyBytes (d : Dev) (h : Nat) : List Byte :=
  match d.body h with
  | some b => if b.bufs.any d.badBuf then b.bytes.zipIdx.map (fun x => Config.poisonByte h x.2) else b.bytes
  | none => []

/-- A use of a body ends: its count falls by 1, and at 0 its buffers are freed (R244). -/
def Dev.dropRef (d : Dev) (h : Nat) : Dev :=
  match d.body h with
  | none => d
  | some b =>
    if b.refs ≤ 1 then
      let d := { d with tm := { d.tm with bodies := d.tm.bodies.erase [h] } }
      Dev.freeChain b.bufs d b.owner
    else d.setRefs h b (b.refs - 1)

/-- Largest reference count (R244). -/
def refMax : Nat := 8191

/-- A further use of a body; refused when the count would pass 8,191 (R244). -/
def Dev.addRef (d : Dev) (h : Nat) : Option Dev :=
  match d.body h with
  | none => none
  | some b =>
    if b.refs < refMax then some (d.setRefs h b (b.refs + 1)) else none

/-! #### Commands -/

/-- Buffers in a requester's stash, of all pools (R236). -/
def Dev.stashed (d : Dev) (req : Nat) : Nat :=
  ((d.tm.stash.filter (fun e => e.1.headD 0 == req)).map (fun e => e.2.length)).sum

/-- Buffers granted go into a requester's stash. -/
def Dev.stow (d : Dev) (req : Nat) (bs : List (Nat × Nat)) : Dev :=
  bs.foldl (fun d b =>
    { d with tm := { d.tm with stash := d.tm.stash.setD [] [req, b.1] (d.tm.stash.getD [] [req, b.1] ++ [b.2]) } }) d

/-- BUFFER_REQUEST: a requester asks a pool for `n` buffers, 1 to 64, for its stash of up to 128 (R236, R237). -/
def Dev.bufferRequest (d : Dev) (req p n : Nat) : Dev :=
  let n := min (min n 64) (128 - d.stashed req)
  if n = 0 then d else
  let r := Dev.requestChain 3 d req p p (n * d.bufSize p)
  (r.1.stow req r.2).spillIfShort d.tm.globalSpill

/-- BUFFER_FREE: a chain of buffers of one pool is freed in a requester's name (R238). -/
def Dev.bufferFree (d : Dev) (p : Nat) (bufs : List Nat) (req : Nat) : Dev :=
  Dev.freeChain (bufs.map (fun b => (p, b))) d req

/-- STASH_RETURN: a stash idle for 10 µs goes back to its pool (R236). -/
def Dev.stashReturn (d : Dev) (req p : Nat) : Dev :=
  let held := d.tm.stash.getD [] [req, p]
  let d := { d with tm := { d.tm with stash := d.tm.stash.erase [req, p] } }
  Dev.freeChain (held.map (fun b => (p, b))) d req

/-- Free buffers of a pool by its owner table. -/
def Dev.freeNow (d : Dev) (p : Nat) : Nat := d.poolHas p - ((d.allocated p).filter (fun b => !d.deadBlock p b)).length

/-- POOL_READY: every buffer of an enabled pool is threaded (R233). -/
def Dev.poolReady (d : Dev) (p : Nat) : Dev :=
  if p < 32 ∧ d.flagI uBPM BPM_POOL_CFG.EN p ∧ ¬ d.flagI uBPM BPM_POOL_STATUS.READY p then
    let d := if p = 1 then d.showSpillCount else d
    let d := { d with tm := { d.tm with lists := d.tm.lists.filter (fun e => e.1.headD 0 != p) } }
    let n := d.freeNow p
    let d := d.setI uBPM BPM_POOL_STATUS.READY p 1
    let d := d.setI uBPM BPM_POOL_STATUS.LOW_WATER p n
    d.setFree p n
  else d

/-- The value that a write of BPM_POOL_CFG would hold in a field. -/
def newPool (v : Nat) (f : Fld) : Nat := bits v (f.lo + f.width - 1) f.lo

/-- Bytes of the enabled DRAM pools 2–31, pool `p` left out (R232). -/
def Dev.dramBytes (d : Dev) (p : Nat) : Nat :=
  ((List.range 32).map (fun q =>
    if 2 ≤ q ∧ q ≠ p ∧ d.flagI uBPM BPM_POOL_CFG.EN q ∧ d.flagI uBPM BPM_POOL_CFG.HOME q then d.poolCount q * d.bufSize q else 0)).sum

def Dev.refusePool (d : Dev) (p : Nat) : Dev := d.raise uBPM 0x13 (leBytes 1 p)

/-- Store the fields of BPM_POOL_CFG. -/
def Dev.storePool (d : Dev) (p v : Nat) : Dev :=
  let d := if p = 1 then d else d.setI uBPM BPM_POOL_CFG.COUNT p (newPool v BPM_POOL_CFG.COUNT)
  let d := if p < 2 then d else
    (d.setI uBPM BPM_POOL_CFG.HOME p (newPool v BPM_POOL_CFG.HOME)).setI uBPM BPM_POOL_CFG.SIZE_LOG2 p (newPool v BPM_POOL_CFG.SIZE_LOG2)
  let d := d.setI uBPM BPM_POOL_CFG.FB_EN p (newPool v BPM_POOL_CFG.FB_EN)
  let d := d.setI uBPM BPM_POOL_CFG.FALLBACK p (newPool v BPM_POOL_CFG.FALLBACK)
  d.setI uBPM BPM_POOL_CFG.EN p (newPool v BPM_POOL_CFG.EN)

/-- A write of BPM_POOL_CFG: refused, with POOL_CFG_REFUSED, while EN is set and it changes more than EN; while EN is clear, a buffer is
held and it changes anything; and when EN is to be set and the memory it takes is not there (R232). Clearing EN is never refused. -/
def Dev.poolCfgWrite (d : Dev) (p v : Nat) : Dev :=
  if 32 ≤ p then d else
  let en := newPool v BPM_POOL_CFG.EN = 1
  let wasEn := d.flagI uBPM BPM_POOL_CFG.EN p
  let same (f : Fld) : Bool := newPool v f == d.getI uBPM f p
  let kept : Bool := (p == 1 || same BPM_POOL_CFG.COUNT) && (decide (p < 2) || (same BPM_POOL_CFG.HOME && same BPM_POOL_CFG.SIZE_LOG2))
    && same BPM_POOL_CFG.FB_EN && same BPM_POOL_CFG.FALLBACK
  if wasEn ∧ ¬ kept then d.refusePool p
  else if wasEn ∧ en then d
  else if wasEn then (((d.storePool p v).setI uBPM BPM_POOL_STATUS.READY p 0).setFree p 0).giveBack p
  else if kept ∧ ¬ en then d
  else if ¬ (d.allocated p).isEmpty then d.refusePool p
  else if ¬ en then d.storePool p v
  else
    let count := if p = 1 then d.poolCount 1 else newPool v BPM_POOL_CFG.COUNT
    let size := if p < 2 then d.sizeLog2 p else BPM_POOL_CFG.SIZE_LOG2.rng.act (newPool v BPM_POOL_CFG.SIZE_LOG2)
    let dram : Bool := decide (2 ≤ p) && newPool v BPM_POOL_CFG.HOME == 1
    let onDie : Bool := decide (2 ≤ p) && newPool v BPM_POOL_CFG.HOME == 0
    let cells := onDieCells count size
    if dram ∧ 2 ^ 30 < d.dramBytes p + count * 2 ^ size then d.refusePool p
    else if onDie ∧ min (d.sharedFree 0) (d.poolFree 0) < cells then d.refusePool p
    else
      let was := d.tm.globalSpill
      let d := d.storePool p v
      if onDie then
        let d := d.setI uBPM BPM_POOL_CFG.COUNT 0 (d.poolCount 0 - cells)
        (d.setFree 0 (d.poolFree 0 - cells)).spillIfShort was
      else d

/-- A write of BPM_QUOTA for the pair that BPM_QUOTA_SEL names: ignored, with QUOTA_REFUSED, when the pool's guarantees would
pass its COUNT (R235). -/
def Dev.quotaWrite (d : Dev) (v : Nat) : Dev :=
  let req := d.get uBPM BPM_QUOTA_SEL.REQ
  let p := d.get uBPM BPM_QUOTA_SEL.POOL
  let g := newPool v BPM_QUOTA.GUAR
  if d.poolCount p < d.guarSum p - d.guar req p + g then d.raise uBPM 0x14 (leBytes 1 p ++ leBytes 1 req)
  else (d.setI uBPM BPM_QUOTA.GUAR (quotaIx req p) g).setI uBPM BPM_QUOTA.MAX (quotaIx req p) (newPool v BPM_QUOTA.MAX)

def execBufferRequest (req pool n : Nat) (s : State) : Answer := s.go (·.bufferRequest req pool n)
def execBufferFree (pool : Nat) (bufs : List Nat) (req : Nat) (s : State) : Answer := s.go (·.bufferFree pool bufs req)
def execStashReturn (req pool : Nat) (s : State) : Answer := s.go (·.stashReturn req pool)
def execPoolReady (pool : Nat) (s : State) : Answer := s.go (·.poolReady pool)
def execPoolCfgWrite (pool value : Nat) (s : State) : Answer := s.go (·.poolCfgWrite pool value)
def execQuotaWrite (value : Nat) (s : State) : Answer := s.go (·.quotaWrite value)

end Sys2Proof.Machine
end

