-- ==== Sys2Proof/Machine/Reach.lean ====
section
/-! DEFINITION. What each fabric link reaches, the devices in use, and the fabric's capacity (R314, R317). -/
namespace Sys2Proof.Machine

def uZFP : Nat := 416

def Dev.deviceId (d : Dev) : Nat := d.get uZFP ZFP_DEV_CFG.DEVICE_ID

def uLNK (n : Nat) : Nat := 256 + n

def fDISABLED : Nat := 0
def fTRAINING : Nat := 1
def fALIGNING : Nat := 2
def fINIT : Nat := 3
def fUP : Nat := 4
def fFAILED : Nat := 5
def fRETIRED : Nat := 6

def Dev.fabLink (d : Dev) (n : Nat) : FabLink := d.fab.links.getD {} [n]

/-- Put a link's state, showing UNACKED. -/
def Dev.setFabLink (d : Dev) (n : Nat) (x : FabLink) : Dev :=
  ({ d with fab := { d.fab with links := d.fab.links.setD {} [n] x } }).set (uLNK n) ZFP_LINK_STATUS.UNACKED x.held.length

def Dev.linkSt (d : Dev) (n : Nat) : Nat := d.get (uLNK n) ZFP_LINK_STATUS.LINK_STATE

def allLinks : List Nat := List.range 160

/-! ### Reachability (R314, R317) -/

/-- Bit *d* of a link's last vector. -/
def Dev.vectorBit (d : Dev) (n dev : Nat) : Bool := bit (d.getI (uLNK n) ZFP_LINK_REACH.VECTOR (dev / 64)) (dev % 64)

/-- Does a link reach a device? It never reaches the device itself. -/
def Dev.linkReaches (d : Dev) (n dev : Nat) : Bool :=
  d.linkSt n == fUP && !(d.fabLink n).reachLost && d.vectorBit n dev && dev != d.deviceId

def Dev.reachSet (d : Dev) (dev : Nat) : List Nat := allLinks.filter (fun n => d.linkReaches n dev)

/-- The devices a link reaches, one bit each. -/
def Dev.linkDevices (d : Dev) (n : Nat) : Nat :=
  if d.linkSt n = fUP ∧ ¬ (d.fabLink n).reachLost then
    setBit ((List.range 16).foldl (fun v i => v + d.getI (uLNK n) ZFP_LINK_REACH.VECTOR i * 2 ^ (64 * i)) 0) d.deviceId false
  else 0

/-- Every device reached. -/
def Dev.reached (d : Dev) : Nat := allLinks.foldl (fun v n => v ||| d.linkDevices n) 0

/-- Devices that count for MIN_REACH: reachable, and sent to or asked to be sent to within REACH_TIMEOUT_US (R317). -/
def Dev.inUse (d : Dev) : List Nat :=
  let t := d.act uZFP ZFP_DEV_CFG.REACH_TIMEOUT_US * 1000
  ((d.fab.used.filter (fun e => decide (d.now ≤ e.2 + t))).map (fun e => e.1.headD 0)).filter (fun x => !(d.reachSet x).isEmpty)

/-- Recompute CAPACITY_PPM (R317). With no device in use the smallest reach set is a free value. -/
def Dev.showCapacity (d : Dev) : Dev :=
  let d := d.set uZFP ZFP_STATUS.LINKS_UP (allLinks.filter (fun n => d.linkSt n == fUP)).length
  let d := d.set uZFP ZFP_STATUS.DEVICES_REACHED (popCount d.reached 1024)
  let full := d.act uZFP ZFP_DEV_CFG.FULL_LINKS
  let m := match d.inUse with
    | [] => Config.idleReach d.draws % 161
    | x :: xs => xs.foldl (fun m y => min m (d.reachSet y).length) (d.reachSet x).length
  let d := if d.inUse.isEmpty then { d with draws := d.draws + 1 } else d
  let ppm := min m full * 1000000 / full
  let old := d.get uZFP ZFP_STATUS.CAPACITY_PPM
  let d := d.set uZFP ZFP_STATUS.MIN_REACH m
  if ppm = old then d else
  let d := (d.set uZFP ZFP_STATUS.CAPACITY_PPM ppm).raise uZFP 0x10 (leBytes 1 m ++ leBytes 4 ppm)
  if (d.rid.figure.get? [uZFP]).getD 1000000 = ppm then d.raise uZFP 0x06 (leBytes 4 ppm) else d.setCapacity uZFP ppm

/-- The device sends to these devices, or is asked to: the capacity follows when that brings one into use (R317). -/
def Dev.noteUse (d : Dev) (xs : List Nat) : Dev :=
  let before := d.inUse
  let d := { d with fab := { d.fab with used := xs.foldl (fun u x => u.insert [x] d.now) d.fab.used } }
  if d.inUse = before then d else d.showCapacity

/-- Has a device just gone out of use, REACH_TIMEOUT_US after it was last sent to? -/
def Dev.useLapses (d : Dev) : Bool :=
  d.fab.used.any (fun e => d.now == e.2 + d.act uZFP ZFP_DEV_CFG.REACH_TIMEOUT_US * 1000 + 1)

end Sys2Proof.Machine
end

