-- ==== Sys2Proof/Machine/Queues.lean ====
section
/-! DEFINITION. Queues: their state, admission, spilling, and the commands that set and read them (R224–R258). -/
namespace Sys2Proof.Machine

def QRef.isEq : QRef → Bool
  | .voq _ => false
  | .eq _ => true

/-! ### Counting drops (R246, R257, R258) -/

/-- Does a QUALIFIER of DROPPED select this cause and kind of queue? -/
def selDrop (r : QRef) (cause q : Nat) : Bool :=
  (q % 16 == 0 || q % 16 == cause) && (bit q 4 == r.isEq)

/-- Count one drop at a queue under a cause; cause 0x05 raises ADMIT_NO_BUFFER once per second. -/
def Dev.countDrop (d : Dev) (r : QRef) (cause : Nat) : Dev :=
  let d := if r.isEq then d.bumpI uVOQ TMQ_DROP_EQ.COUNT cause else d.bumpI uVOQ TMQ_DROP_VOQ.COUNT cause
  let d := d.tallySel uVOQ 0x21 1 (selDrop r cause)
  if cause = 5 then d.raiseOnce uVOQ 0x11 0 (fun n => leBytes 4 n) else d

/-- The body of a packet that leaves or is dropped: an on-die body loses one use; a private spilled copy is gone with its
stream (R243, R244, R246). -/
def Dev.dropLoc (d : Dev) : Loc → Dev
  | .cells h => d.dropRef h
  | .spill _ => d

/-! ### The spillway (R240–R243, R251–R253) -/

/-- Free spill-stream blocks that the queue's head has passed (R241). -/
def Dev.trimSpill : Nat → Dev → QRef → Dev
  | 0, d, _ => d
  | n + 1, d, r =>
    let q := d.queue r
    let lim := match q.pkts.find? (fun p => p.stream.isSome) with
      | some p => (p.stream.getD (0, 0)).1
      | none => q.wr
    match q.blocks with
    | [] => d
    | b :: bs =>
      if q.base + spillBlock ≤ lim then
        Dev.trimSpill n (Dev.freeChain [b] (d.setQueue r { q with blocks := bs, base := q.base + spillBlock }) reqSpill) r
      else d

/-- One credit, in 64-byte units (R319). -/
def Dev.creditUnits (d : Dev) : Nat := d.act 99 CRD_CFG.CREDIT_KIB * 16

/-- When a VOQ empties, its balance above one credit is discarded (R319). -/
def Dev.settleBalance (d : Dev) : QRef → Dev
  | .eq _ => d
  | .voq n =>
    let q := d.queue (.voq n)
    if q.pkts.isEmpty ∧ (d.creditUnits : Int) < q.credit then
      (d.setQueue (.voq n) { q with credit := d.creditUnits }).add 416 ZFP_CREDIT_WASTE.COUNT (q.credit - d.creditUnits).toNat
    else d

/-- Back to ON_DIE once no spilled byte is left and the depth is below SPILL_OFF, or SPILL_EN is clear; the open block is
closed (R240). Every removal from a queue ends here, so R319's discard is made first. -/
def Dev.settleSpill (d : Dev) (r : QRef) : Dev :=
  let d := d.settleBalance r
  let d := d.trimSpill (d.queue r).blocks.length r
  let q := d.queue r
  if q.spilled ∧ q.pkts.all (fun p => p.stream.isNone)
      ∧ (¬ q.spillEn ∨ q.depth < kibUnits (d.getI uVOQ TMQ_AP_SPILL.SPILL_OFF q.profile)) then
    Dev.freeChain q.blocks
      (d.setQueue r { q with spilled := false, blocks := [], base := 0, wr := 0, flushed := 0 }) reqSpill
  else d

/-- Bring the spill bucket up to the present: it gains BUDGET × share, up to BUCKET_KIB (R252). Levels are in 1/800 byte. -/
def Dev.refillSpill (d : Dev) : Dev :=
  let gain : Nat := d.act uSPW SPW_CFG.BUDGET * d.get uSPW SPW_STATUS.SHARE_PCT * (d.now - d.tm.spillTime)
  let cap : Nat := d.act uSPW SPW_CFG.BUCKET_KIB * 1024 * 800
  let l := min (d.tm.spillLevel + gain) cap
  { d with tm := { d.tm with spillLevel := l, spillTime := d.now } }

/-- Stream bytes a packet takes: link, descriptor and body, 8-byte aligned (R241). -/
def spillSize (len : Nat) : Nat := (8 + 32 + len + 7) / 8 * 8

/-- Take blocks until a queue's stream reaches byte `need`; false when one cannot be granted. -/
def Dev.growSpill : Nat → Dev → QRef → Nat → Dev × Bool
  | 0, d, r, need => (d, decide (need ≤ (d.queue r).base + spillBlock * (d.queue r).blocks.length))
  | n + 1, d, r, need =>
    let q := d.queue r
    if need ≤ q.base + spillBlock * q.blocks.length then (d, true) else
    let g := d.obtain reqSpill 1 spillBlock
    match g.2 with
    | [] => (g.1, false)
    | bs => Dev.growSpill n ((bs.foldl (fun d b => if b.1 = 1 then d.sideWrite true (blockAddr b.2) 7 32 else d) g.1).setQueue r { g.1.queue r with blocks := (g.1.queue r).blocks ++ bs }) r need

/-- How a body joins a queue: in its cells, on the spillway (its cells are then given up), or not at all. -/
inductive Placed
  | onDie
  | spilled (s e : Nat)
  | no (cause : Nat)
  deriving DecidableEq, Repr

/-- Admission test 6 (R246, R252): where the packet's body goes. -/
def Dev.place (d : Dev) (r : QRef) (len : Nat) : Dev × Placed :=
  let q := d.queue r
  if q.spilled ∧ q.spillEn then
    let d := d.refillSpill
    if d.tm.spillLevel < 0 then
      if d.poolFree 0 * 100 < d.poolCount 0 * d.act uSPW SPW_CFG.DEFER_FLOOR_PCT then (d, .no 6)
      else ((d.bump uSPW SPW_DEFERRED.COUNT).tally uSPW 0x22 1, .onDie)
    else
      let e := q.wr + spillSize len
      let g := Dev.growSpill (spillSize len / spillBlock + 2) d r e
      if g.2 then
        let d := { g.1 with tm := { g.1.tm with spillLevel := g.1.tm.spillLevel - (len * 800 : Nat) } }
        let full := e / spillBlock - q.wr / spillBlock
        let d := (d.add uSPW SPW_BLOCKS_WRITTEN.COUNT full).tallyQ uSPW 0x20 full (fun _ => true)
        (d.setQueue r { d.queue r with wr := e, flushed := max q.flushed (e / 256 * 256) }, .spilled q.wr e)
      else (g.1, .no 5)
  else (d, .onDie)

/-! ### Admission (R246–R249) -/

/-- A profile's curve for a colour: CURVE_EN, MIN_TH, MAX_TH and MAX_P. Colour 0 is green, 1 yellow, and any other red. -/
def Dev.curve (d : Dev) (profile colour : Nat) : Bool × Nat × Nat × Nat :=
  match colour with
  | 0 => (d.flagI uVOQ TMQ_AP_G.CURVE_EN profile, d.getI uVOQ TMQ_AP_G.MIN_TH profile, d.getI uVOQ TMQ_AP_G.MAX_TH profile,
          d.getI uVOQ TMQ_AP_G.MAX_P profile)
  | 1 => (d.flagI uVOQ TMQ_AP_Y.CURVE_EN profile, d.getI uVOQ TMQ_AP_Y.MIN_TH profile, d.getI uVOQ TMQ_AP_Y.MAX_TH profile,
          d.getI uVOQ TMQ_AP_Y.MAX_P profile)
  | _ => (d.flagI uVOQ TMQ_AP_R.CURVE_EN profile, d.getI uVOQ TMQ_AP_R.MIN_TH profile, d.getI uVOQ TMQ_AP_R.MAX_TH profile,
          d.getI uVOQ TMQ_AP_R.MAX_P profile)

/-- Does a curve draw for an average depth, given the pseudo-random number (R248)? `avg` is in 2^-16 of a unit. -/
def curveDraws (en : Bool) (minTh maxTh maxP avg rnd : Nat) : Bool :=
  let lo := kibUnits minTh * 2 ^ 16
  let hi := kibUnits maxTh * 2 ^ 16
  if ¬ en then false
  else if hi ≤ avg then true
  else if avg < lo then false
  else decide (rnd * 256 * (hi - lo) < 2 ^ 16 * maxP * (avg - lo))

/-- The average depth after an arrival (R247). -/
def newAvg (depth avg w : Nat) : Nat :=
  let a := if depth = 0 then 0 else avg
  (((a : Int) + ((depth * 2 ^ 16 : Nat) - (a : Int)) / (2 ^ w : Nat))).toNat

/-- Free bytes that the dynamic limit scales, times 100 (R247). -/
def Dev.limitBytes (d : Dev) (q : Queue) : Nat :=
  min (d.sharedFree 0) (d.poolFree 0) * d.bufSize 0 * 100
  + (if q.spillEn then min (d.sharedFree 1) (d.poolFree 1) * d.bufSize 1 * d.get uSPW SPW_STATUS.SHARE_PCT else 0)

/-- What tests 1 to 5 answer: drop under a cause, or go on, with or without a mark. -/
inductive Verdict
  | drop (cause : Nat)
  | pass (mark : Bool)
  deriving DecidableEq, Repr

/-- Tests 1 to 5 of R246 on a packet of `units`, with the queue's average already brought up to date. -/
def Dev.judge (d : Dev) (q : Queue) (units colour rnd : Nat) : Verdict :=
  let p := q.profile
  let depth := q.depth
  if ¬ q.en then .drop 1
  else if kibUnits (d.getI uVOQ TMQ_AP_LIM.STATIC_MAX p) < depth + units then .drop 2
  else if depth < kibUnits (d.getI uVOQ TMQ_AP_LIM.MIN_GUAR p) then .pass false
  else if d.flagI uVOQ TMQ_AP_LIM.DYN_EN p
      ∧ 2 ^ d.getI uVOQ TMQ_AP_LIM.ALPHA_LOG2 p * d.limitBytes q < (depth + units) * 64 * 256 * 100 then .drop 3
  else
    let c := d.curve p colour
    if curveDraws c.1 c.2.1 c.2.2.1 c.2.2.2 q.avg rnd then
      if d.flagI uVOQ TMQ_AP_LIM.ECN_EN p
          ∧ (d.flagI uVOQ TMQ_AP_LIM.MARK_ABOVE p ∨ q.avg ≤ kibUnits c.2.2.1 * 2 ^ 16) then .pass true
      else .drop 4
    else .pass false

/-- A packet dropped by admission: counted, and its body loses one use. -/
def Dev.refuse (d : Dev) (r : QRef) (cause h : Nat) : Dev :=
  let d := { d with tm := { d.tm with lastDrop := cause } }
  (d.countDrop r cause).dropRef h

/-- Offer a packet whose body lies in the cells named by `h` to a queue (R246). True when it was admitted. -/
def Dev.admitTo (d : Dev) (r : QRef) (p : EgrDesc) (h : Nat) : Dev × Bool :=
  let d := d.startSpill r
  let q := d.queue r
  let d := d.setQueue r { q with avg := newAvg q.depth q.avg (d.getI uVOQ TMQ_AP_LIM.W q.profile) }
  let rnd := (Config.wredDraw d.draws).toNat
  let d := { d with draws := d.draws + 1 }
  match d.judge (d.queue r) p.units p.colour rnd with
  | .drop c => (d.refuse r c h, false)
  | .pass mark =>
    let w := d.place r p.length
    match w.2 with
    | .no c => (w.1.refuse r c h, false)
    | pl =>
      let d := w.1
      let p := { p with ecnCe := p.ecnCe || mark, badCheck := p.badCheck && !mark }
      let d := if mark then
          (if r.isEq then d.bump uVOQ TMQ_ECN_MARK_EQ.COUNT else d.bump uVOQ TMQ_ECN_MARK_VOQ.COUNT).tally uVOQ 0x22 1
        else d
      let pk : QPkt := match pl with
        | .spilled s e => ⟨p, .spill (d.bodyBytes h), d.now / 4 * 4, some (s, e)⟩
        | _ => ⟨p, .cells h, d.now / 4 * 4, none⟩
      let d := match pl with
        | .spilled _ _ => d.dropRef h
        | _ => d
      let d := d.setQueue r { d.queue r with pkts := (d.queue r).pkts ++ [pk] }
      ((d.tally uVOQ 0x20 1).startSpill r, true)

/-- Last state reported for a port of another device: 0 UP, 1 HOLD, 2 DOWN, 3 not in use; none while none is known (R323). -/
def Dev.remoteState (d : Dev) (dev port : Nat) : Option Nat :=
  (d.fab.remote.get? [dev]).map (fun r => bits r.states (2 * port + 1) (2 * port))

/-- Offer a packet to a VOQ: one whose port is reported DOWN or not in use drops it under cause 0x09 (R246, R323). -/
def Dev.offerVoq (d : Dev) (n : Nat) (p : EgrDesc) (h : Nat) : Dev × Bool :=
  let d := if p.group.isNone then d.noteUse [n / 1024] else d
  match d.remoteState (n / 1024) (n / 8 % 128) with
  | some st =>
    if 2 ≤ st ∧ n / 1024 ≠ d.get 416 ZFP_DEV_CFG.DEVICE_ID then (d.refuse (.voq n) 9 h, false) else d.admitTo (.voq n) p h
  | none => d.admitTo (.voq n) p h

/-! ### Leaving a queue -/

/-- The head of a queue whose body is on-die. -/
def Dev.headReady (d : Dev) (r : QRef) : Option QPkt :=
  match (d.queue r).pkts with
  | p :: _ => match p.loc with
    | .cells _ => some p
    | .spill _ => none
  | [] => none

/-- A queue without a packet that leaves it, `rest` being those that stay: its maximum sojourn rises to the packet's (R283). -/
def Queue.left (q : Queue) (p : QPkt) (rest : List QPkt) (now : Nat) : Queue :=
  { q with pkts := rest, maxSojourn := max q.maxSojourn (now - p.joined) }

/-- Take the head off a queue, noting its sojourn; the body stays in use. -/
def Dev.popHead (d : Dev) (r : QRef) : Dev :=
  let q := d.queue r
  match q.pkts with
  | [] => d
  | p :: rest =>
    (d.setQueue r (q.left p rest d.now)).settleSpill r

/-- Drop the head of a queue under a cause. -/
def Dev.dropHead (d : Dev) (r : QRef) (cause : Nat) : Dev :=
  let q := d.queue r
  match q.pkts with
  | [] => d
  | p :: rest => (((d.setQueue r (q.left p rest d.now)).countDrop r cause).dropLoc p.loc).settleSpill r

def Dev.flushN : Nat → Dev → QRef → Nat → Dev
  | 0, d, _, _ => d
  | n + 1, d, r, cause => Dev.flushN n (d.dropHead r cause) r cause

/-- Drop every packet of a queue under a cause. -/
def Dev.flushQueue (d : Dev) (r : QRef) (cause : Nat) : Dev := d.flushN (d.queue r).pkts.length r cause

/-! ### Commands and events of the spillway -/

/-- SPILL_UNIT_FLUSH: a partly filled unit is written to DRAM (R241). -/
def Dev.spillUnitFlush (d : Dev) (r : QRef) : Dev :=
  let q := d.queue r
  d.setQueue r { q with flushed := q.wr }

/-- The first spilled packet of a list and the bytes queued before it. -/
def firstSpilled : List QPkt → Nat → Option (QPkt × Nat)
  | [], _ => none
  | p :: ps, n => match p.loc with
    | .spill _ => some (p, n)
    | .cells _ => firstSpilled ps (n + p.desc.length)

/-- Replace the first spilled packet of a list. -/
def replaceSpilled (new : Option QPkt) : List QPkt → List QPkt
  | [] => []
  | p :: ps => match p.loc with
    | .spill _ => match new with
      | some x => x :: ps
      | none => ps
    | .cells _ => p :: replaceSpilled new ps

/-- A list with the run of spilled packets that begins at the first spilled one left out, and that run (R243). -/
def cutRun : List QPkt → List QPkt × List QPkt
  | [] => ([], [])
  | p :: ps => match p.loc with
    | .spill _ =>
      (ps.dropWhile (fun x => match x.loc with | .spill _ => true | .cells _ => false),
       p :: ps.takeWhile (fun x => match x.loc with | .spill _ => true | .cells _ => false))
    | .cells _ => let r := cutRun ps; (p :: r.1, r.2)

/-- The spill block that holds a stream byte. -/
def Queue.blockOf (q : Queue) (pos : Nat) : Nat × Nat := q.blocks.getD ((pos - q.base) / spillBlock) (1, 0)

/-- Its number. -/
def Queue.blockAt (q : Queue) (pos : Nat) : Nat := (q.blockOf pos).2

/-- What a read of the stream bytes from `pos` up to `fin` returns once channels are DEAD: with a lost block that holds the packet's link
nothing behind it is found, with another lost block its data is uncorrectable (R243, R253). -/
def Dev.readThrough (d : Dev) (q : Queue) (pos fin : Nat) (o : SpillRead) : SpillRead :=
  let dead (b : Nat × Nat) : Bool := d.deadBlock b.1 b.2 || (b.1 == 1 && d.sidePoisoned true (blockAddr b.2))
  if dead (q.blockOf pos) then .linkLost
  else if o = .good ∧ ((q.blocks.drop ((pos - q.base) / spillBlock)).take ((fin - 1) / spillBlock - pos / spillBlock + 1)).any dead
  then .dataLost else o

/-- SPILL_READ_AHEAD: the first spilled packet within 16 KiB of the head is read into pool 0 cells under requester 6, or
what a failed read loses is dropped (R242, R243). -/
def Dev.spillReadAhead (d : Dev) (r : QRef) (o : SpillRead) : Dev :=
  let q := d.queue r
  match firstSpilled q.pkts 0 with
  | none => d
  | some (p, before) =>
    if 16384 < before then d else
    let pos := (p.stream.getD (0, 0)).1
    let fin := (p.stream.getD (0, 0)).2
    let ev (d : Dev) (lost : Nat) : Dev := d.raise uSPW 0x11 (leBytes 4 (q.blockAt pos) ++ leBytes 4 lost)
    match d.readThrough q pos fin o with
    | .good =>
      let bytes := match p.loc with
        | .spill bs => bs
        | .cells _ => []
      let s := d.storeBody reqSpill 0 bytes 1
      (match s.2 with
      | none => s.1
      | some h =>
        let n := fin / spillBlock - pos / spillBlock
        let d := (s.1.add uSPW SPW_BLOCKS_READ.COUNT n).tallyQ uSPW 0x21 n (fun _ => true)
        d.setQueue r { d.queue r with pkts := replaceSpilled (some { p with loc := .cells h }) q.pkts })
    | .dataLost =>
      let d := (d.bump uSPW SPW_READ_ERR.COUNT).countDrop r 8
      (ev (d.setQueue r (q.left p (replaceSpilled none q.pkts) d.now)) p.desc.length).settleSpill r
    | .linkLost =>
      let c := cutRun q.pkts
      let lost := (c.2.map (fun x => x.desc.length)).sum
      let d := d.setQueue r (c.2.foldl (fun q p => q.left p c.1 d.now) q)
      let d := (d.bump uSPW SPW_READ_ERR.COUNT).countDrop r 8
      (ev (d.add uSPW SPW_LOST_BYTES.COUNT lost) lost).settleSpill r

/-- The Q-side stacks, bit *s* − 4, whose status shows a flag of a list. -/
def stackLines (p : Nat → Bool) : Nat :=
  ((List.range 4).map (fun i => if p (512 + 4 + i) then 2 ^ i else 0)).sum

/-- ROTATING lines of the Q-side stacks (R251). -/
def Dev.rotatingLines (d : Dev) : Nat := stackLines (fun un => d.flag un DRC_STACK_STATUS.ROTATING)

/-- Q-side stacks that lost a channel without a spare, or run one derated (R251, R362). -/
def Dev.shortLines (d : Dev) : Nat :=
  stackLines (fun un => d.get un DRC_STACK_STATUS.DEAD_MASK != 0
    || (List.range 17).any (fun c => d.flag (520 + 17 * (un - 512) + c) DRC_CH_STATUS.DERATED
        && (d.get (520 + 17 * (un - 512) + c) DRC_CH_STATUS.ROLE == 0)))

/-- The share for given lines (R251). -/
def Dev.shareOf (d : Dev) (lines : Nat) : Nat := 100 - d.act uSPW SPW_CFG.ROT_CUT_PCT * popCount lines 4

/-- SHARE_PCT takes a value: SPILL_CUT is raised, and CUT_ACTIVE rises as the share leaves 100 % (R251, R258). -/
def Dev.cutShare (d : Dev) (lines share : Nat) : Dev :=
  let was := d.get uSPW SPW_STATUS.SHARE_PCT
  let d := d.set uSPW SPW_STATUS.SHARE_PCT share
  let d := if was = 100 ∧ share ≠ 100 then d.rises uSPW 0x23 else d
  d.raise uSPW 0x10 (leBytes 1 lines ++ leBytes 1 share)

/-- A write of SPW_CFG: the bucket gains at the old BUDGET up to here, and the share follows a new ROT_CUT_PCT (R251, R252). `s` is the
device with the fields stored. -/
def Dev.spwCfgWrite (d s : Dev) : Dev :=
  let lines := s.get uSPW SPW_STATUS.ROTATING ||| s.get uSPW SPW_STATUS.SHORT
  let b := d.refillSpill
  let s := { s with tm := b.tm }
  let share := s.shareOf lines
  if share = s.get uSPW SPW_STATUS.SHARE_PCT then s else s.cutShare lines share

/-- IN_DEBT as a read finds it: the bucket with what it has gained since (R252). -/
def Dev.inDebt (d : Dev) : Bool := decide (d.refillSpill.tm.spillLevel < 0)

/-- A write of what R240 compares: pool 0's FREE meets GLOBAL_SPILL_PCT again, and the queues their thresholds; a queue with no spilled byte
left and below a raised SPILL_OFF is ON_DIE. -/
def Dev.spillRecheck (d : Dev) : Dev :=
  let d := (if d.flagI uBPM BPM_POOL_STATUS.READY 0 then d.setFree 0 (d.poolFree 0) else d).startSpills
  let refs (t : Tab Queue) (f : Nat → QRef) : List QRef := (t.filter (fun e => e.2.spilled)).map (fun e => f (e.1.headD 0))
  (refs d.tm.voqs .voq ++ refs d.tm.eqs .eq).foldl Dev.settleSpill d

/-- SPILL_CUT: the lines changed, so the share is recomputed (R251). -/
def Dev.spillCut (d : Dev) : Dev :=
  let rot := d.rotatingLines
  let short := d.shortLines
  if rot = d.get uSPW SPW_STATUS.ROTATING ∧ short = d.get uSPW SPW_STATUS.SHORT then d else
  let d := d.refillSpill
  ((d.set uSPW SPW_STATUS.ROTATING rot).set uSPW SPW_STATUS.SHORT short).cutShare (rot ||| short) (d.shareOf (rot ||| short))

/-- FREE_LIST_REBUILD: a cut sub-list is threaded again from the owner table: every buffer whose ALLOCATED bit is clear is in it, and FREE
is what the owner table says (R354). -/
def Dev.freeListRebuild (d : Dev) (p sub : Nat) : Dev :=
  if p < 32 ∧ d.flagI uBPM BPM_POOL_STATUS.READY p then
    (d.setFreeList p sub {}).setI uBPM BPM_POOL_STATUS.FREE p (d.freeNow p)
  else d

/-! ### QUEUE_CFG and QUEUE_READ (R254, R255) -/

/-- Entries of a KIND. -/
def kindCount (k : Nat) : Nat := if k = 0 then 1048576 else if k = 1 then 262144 else 65536

def qRef (kind n : Nat) : QRef := if kind = 0 then .voq n else .eq n

/-- One entry of QUEUE_CFG. -/
def Dev.cfgEntry (d : Dev) (c : HCmd) (n : Nat) : Dev :=
  let kind := c.par 0 1 0
  let en : Bool := c.par 2 0 0 == 1
  if kind = 2 then
    { d with tm := { d.tm with subMap := d.tm.subMap.setD {} [n] ⟨en, c.par 12 14 0⟩ } }
  else
    let r := qRef kind n
    let q := d.queue r
    let d := d.setQueue r
      { q with
        profile := c.par 1 7 0, en := en, spillEn := c.par 2 1 1 == 1, ageLimit := c.par 14 15 0 }
    let d := if c.par 0 2 2 = 1 ∧ ¬ en then d.flushQueue r 9 else d
    (d.settleSpill r).startSpill r

/-- Does the range of a QUEUE_ command lie within its kind? -/
def rangeOk (kind first count : Nat) : Bool := decide (1 ≤ count ∧ count ≤ 65536 ∧ first + count ≤ kindCount kind)

/-- A COUNT that fits after FIRST; a FIRST beyond the last entry fails by itself. -/
def HCmd.rangePars (c : HCmd) (kind : Nat) : List Param :=
  [c.must 4 19 0 (fun f => decide (f < kindCount kind)), c.zero 4 31 20,
   c.must 8 16 0 (fun n => rangeOk kind (c.par 4 19 0) n), c.zero 8 31 17]

/-- Parameter table of QUEUE_CFG (R254). -/
def HCmd.queueCfgParams (c : HCmd) : List Param :=
  let kind := c.par 0 1 0
  [c.must 0 1 0 (· != 3), pAny 0 2 2, c.zero 0 7 3, pAny 1 7 0, pAny 2 0 0, pAny 2 1 1, c.zero 2 15 2,
   pAny 12 14 0, c.zero 12 15 15, pAny 14 15 0] ++ c.rangePars kind

/-- QUEUE_CFG (0x0301). -/
def Dev.queueCfg (d : Dev) (c : HCmd) : Dev :=
  d.commandNow c 0x0301 c.queueCfgParams (fun d =>
    if d.svc uVOQ = sACTIVE then
      ((List.range (c.par 8 16 0)).foldl (fun d i => d.cfgEntry c (c.par 4 19 0 + i)) d, .ok)
    else (d, .fail stUNIT_UNAVAILABLE))

/-- Handle of a queued packet (R226). -/
def Queue.handle (q : Queue) (p : QPkt) : Nat :=
  match p.loc, p.stream with
  | .cells h, _ => h % 2 ^ 19
  | .spill _, some (s, _) => 2 ^ 31 + q.blockAt s + (s - q.base) % spillBlock / 8 * 2 ^ 23
  | .spill _, none => 2 ^ 31

/-- The 16 bytes of a queue's state (R225). -/
def Queue.record (q : Queue) : List Byte :=
  let h := match q.pkts.head? with
    | some p => q.handle p
    | none => 0xFFFFFFFF
  let t := match q.pkts.getLast? with
    | some p => q.handle p
    | none => 0xFFFFFFFF
  leBytes 4 h ++ leBytes 4 t ++ leBytes 4 (min q.depth 0xFFFFFF + q.profile * 2 ^ 24)
  ++ leBytes 4 (min (q.avg / 2 ^ 24) 0xFFFF + ofSigned 12 q.credit * 2 ^ 16 + q.en.toNat * 2 ^ 28 + q.spillEn.toNat * 2 ^ 29
    + q.spilled.toNat * 2 ^ 30)

/-- Parameter table of QUEUE_READ (R255). -/
def HCmd.queueReadParams (c : HCmd) : List Param :=
  let kind := c.par 0 1 0
  [c.must 0 1 0 (· < 2), c.zero 0 7 2, pAny 16 63 0] ++ c.rangePars kind

/-- QUEUE_READ (0x0307). -/
def Dev.queueRead (d : Dev) (c : HCmd) : Dev :=
  let kind := c.par 0 1 0
  d.commandNow c 0x0307 c.queueReadParams (fun d =>
    d.hostBlock c (c.par 16 63 0)
      (((List.range (c.par 8 16 0)).map (fun i => (d.queue (qRef kind (c.par 4 19 0 + i))).record)).flatten) 0)

def execFreeListRebuild (pool sub : Nat) (s : State) : Answer := s.go (·.freeListRebuild pool sub)
def execSpillUnitFlush (q : QRef) (s : State) : Answer := s.go (·.spillUnitFlush q)
def execSpillReadAhead (q : QRef) (outcome : SpillRead) (s : State) : Answer := s.go (·.spillReadAhead q outcome)
def execSpillCut (s : State) : Answer := s.go Dev.spillCut
def execQueueCfg (c : HCmd) (s : State) : Answer := s.go (·.queueCfg c)
def execQueueRead (c : HCmd) (s : State) : Answer := s.go (·.queueRead c)

end Sys2Proof.Machine
end

