-- ==== Sys2Proof/Machine/PortBase.lean ====
section
/-! DEFINITION. Which ports an octet has, their lanes and rates, and the states other chapters ask of a port (R77, R83). -/
namespace Sys2Proof.Machine

/-- Unit number of a port. -/
def uPort (p : Nat) : Nat := 128 + p

/-- Lead port of a port's octet. -/
def leadOf (p : Nat) : Nat := p / 8 * 8

def Dev.octetMode (d : Dev) (p : Nat) : Nat := d.get (uPort (leadOf p)) PRT_MODE.OCTET_MODE

def Dev.laneRate (d : Dev) (p : Nat) : Nat := d.get (uPort (leadOf p)) PRT_MODE.LANE_RATE

/-- Lanes of each port in an octet mode, 0 where the octet is unused (R77). -/
def lanesPer (mode rate : Nat) : Nat :=
  match mode with
  | 1 => if rate = 0 then 8 else 0
  | 2 => 4
  | 3 => 2
  | 4 => 1
  | _ => 0

def Dev.portLanes (d : Dev) (p : Nat) : Nat := lanesPer (d.octetMode p) (d.laneRate p)

/-- Does the octet mode use this port number (R77)? -/
def Dev.portInUse (d : Dev) (p : Nat) : Bool :=
  decide (p < 128) && decide (0 < d.portLanes p) && p % d.portLanes p == 0

/-- A port's rate in Gb/s (R77). -/
def Dev.portRate (d : Dev) (p : Nat) : Nat := d.portLanes p * (if d.laneRate p = 0 then 200 else 100)

def lsDISABLED : Nat := 0
def lsNO_MODULE : Nat := 1
def lsTRAINING : Nat := 3
def lsALIGNING : Nat := 4
def lsUP_PENDING : Nat := 5
def lsUP : Nat := 6
def lsTRAIN_FAILED : Nat := 7

def Dev.linkState (d : Dev) (p : Nat) : Nat := d.get (uPort p) PRT_STATUS.LINK_STATE

/-- The scheduler that schedules (R289). -/
def Dev.activeSched (d : Dev) : Nat := d.get 97 TMS_PAIR.ACTIVE_UN

/-- Registers of the schedulers have one home, in UN 97's frame; both frames read it (R289). -/
def uSCH : Nat := 97
def uSLC : Nat := 104
def uSMP : Nat := 105
def uMTR : Nat := 106

/-- Hold states (R288). -/
def hUP : Nat := 0
def hHOLD : Nat := 1
def hDOWN : Nat := 2

def Dev.holdState (d : Dev) (p : Nat) : Nat := d.getI uSCH TMS_PORT_STATUS.HOLD_STATE p

/-- Does a counter QUALIFIER of a scheduler code select a port (R300)? -/
def selPort (p q : Nat) : Bool := !bit q 7 || q % 128 == p

/-- A signed byte of a port's charged length (R266). -/
def Dev.adj (d : Dev) (p : Nat) : Int := toSigned 8 (d.getI uSCH TMS_PORT_CFG.ADJ p)

/-- Charged length of a packet at a port, which a negative ADJ can take below 0 (R266). -/
def Dev.charged (d : Dev) (p : Nat) (e : EgrDesc) : Int := e.length + d.adj p

end Sys2Proof.Machine
end

