-- ==== Sys2Proof/Machine/Turns.lean ====
section
/-! DEFINITION. Turns: grants, renewals, the test at a commit point, and the comparison of units in SHADOW (R369–R375, R389). -/
namespace Sys2Proof.Machine

/-- Classes that hold no turns (R369). -/
def holdsTurns (un : Nat) : Bool := populated un && !([0x01, 0x02, 0x05, 0x50, 0x51, 0x52].contains (classOf un))

/-- Turn length of a rider, ns (R371). -/
def Dev.turnLen (d : Dev) (rider : Nat) : Nat := d.act rider RID_CFG.TURN_LEN_US * 1000

def Dev.turn (d : Dev) (un kind : Nat) : Option Turn := d.rid.turns.get? [un, kind]

/-- The kinds of the turns kept for a unit. -/
def Dev.turnKinds (d : Dev) (un : Nat) : List Nat := (d.rid.turns.filter (fun e => e.1.headD 0 == un)).map (fun e => e.1.getD 1 0)

/-- The replay turns kept for a unit. -/
def Dev.replayTurns (d : Dev) (un : Nat) : List Turn := ((d.turnKinds un).filter (· != 0)).filterMap (fun k => d.turn un k)

def Dev.putTurn (d : Dev) (un kind : Nat) (t : Option Turn) : Dev :=
  { d with rid := { d.rid with turns := d.rid.turns.put [un, kind] t } }

/-- Is a turn current: granted, not lapsed, not expired? -/
def Turn.current (t : Turn) (now : Nat) : Bool := !t.lapsed && decide (now < t.expiry)

/-- The turn that covers a flume's item: the replay turn granted for it, else the flume's own (R373). -/
def Dev.coveringTurn (d : Dev) (un latSeq : Nat) : Option Turn :=
  ((d.replayTurns un).find? (fun t => (t.covers.getD []).contains latSeq)).or (d.turn un 0)

/-- May a unit send under a turn: does it end more than 250 ns from now, and is the unit not fenced (R372, R374)? -/
def Turn.sends (t : Turn) (now : Nat) : Bool := !t.lapsed && decide (now + 250 < t.expiry)

/-- UF_TURN shows the turn held: while a replay turn is current, the one granted last (which of two it shows is the model's choice). -/
def Dev.showTurn (d : Dev) (un : Nat) : Dev :=
  match ((d.replayTurns un).filter (·.current d.now)).getLast?.or (d.turn un 0) with
  | none => d
  | some t => (d.set un UF_TURN.TURN_SEQ t.seq).set un UF_TURN.TURN_EXPIRY t.expiry

/-- Does a unit hold a current turn of its own? -/
def Dev.holdsTurn (d : Dev) (un : Nat) : Bool := (d.turn un 0).any (fun t => t.current d.now)

/-- Turns a rider counts as current (RID_STATUS.TURNS_HELD). -/
def Dev.turnsHeld (d : Dev) (rider : Nat) : Nat :=
  (d.rid.turns.filter (fun e => riderOf (e.1.headD 0) == rider && e.2.current d.now)).length

/-- TURN_HOLDER of a unit and of the groups above it (R369). RID_STATUS.TURNS_HELD is worked out when it is read. -/
def Dev.showHolder (d : Dev) (un : Nat) : Dev :=
  let holds (d : Dev) (u : Nat) : Bool :=
    (d.rid.turns.any (fun e => (e.1.headD 0 == u || isUnder u (e.1.headD 0)) && !e.2.lapsed))
  (un :: ancestors un).foldl (fun d u => d.setFlag u UF_STATE.TURN_HOLDER (holds d u)) d

/-- Grant a turn: a new TURN_SEQ of the rider, expiry *T* from now (R371). A failed rider grants nothing (R370). -/
def Dev.grantTurn (d : Dev) (un kind : Nat) (covers : Option (List Nat)) : Dev :=
  let r := riderOf un
  if d.flag r RID_STATUS.FAILED then d else
  let seq := (d.rid.seq.getD 0 [r] + 1) % 2 ^ 32
  let e := d.now + d.turnLen r
  let d := { d with rid := { d.rid with seq := d.rid.seq.insert [r] seq } }
  let d := d.putTurn un kind (some { seq := seq, expiry := e, last := d.now, covers := covers })
  let d := (d.set un UF_TURN.TURN_SEQ seq).set un UF_TURN.TURN_EXPIRY e
  (d.showHolder un).tally r 0x20 1

/-- Release a unit's turn of its own; UF_TURN keeps showing it. -/
def Dev.releaseTurn (d : Dev) (un : Nat) : Dev := (d.putTurn un 0 none).showHolder un

/-- Count a refused record at its rider and raise RECORD_REJECT: `kind` 0 CHECK, 1 turn (R374). -/
def Dev.rejectRecord (d : Dev) (un kind : Nat) : Dev :=
  let r := riderOf un
  let d := if kind = 0 then d.bump r RID_REJECT_CHECK.COUNT else d.bump r RID_REJECT_TURN.COUNT
  (d.tally r 0x25 1).raiseOnce r 0x13 0 (fun _ => leBytes 1 kind ++ leBytes 2 un)

/-- Does a unit commit: is it in service and not fenced by a declaration, under a turn that ends more than 250 ns from now (R372–R374,
R378)? -/
def Dev.mayCommit (d : Dev) (un : Nat) : Bool :=
  d.svc un == sACTIVE && (d.rid.watch.getD {} [un]).state != .declared && (d.turn un 0).any (·.sends d.now)

/-- Has a unit stopped: is it failed, out of service or retired (R51)? -/
def Dev.stopped (d : Dev) (un : Nat) : Bool := [sFAILED, sOUT, sRETIRED].contains (d.svc un)

/-- A die goes to FAILED (R370, R382). -/
def Dev.dieFail (d : Dev) (un cause : Nat) : Dev :=
  let die := if riderOf un = 8 then 1 else 2
  if d.svc die = sFAILED then d else d.failSelf die cause

/-- A failure that no spare covers, announced on the failed unit's rider (R391, R396). -/
def Dev.sparesExhausted (d : Dev) (group failed : Nat) : Dev :=
  d.raise (riderOf failed) 0x12 (leBytes 2 group ++ leBytes 2 failed)

/-- Has every turn of a unit expired, with the 500 ns guard behind it (R375)? -/
def Dev.guardPassed (d : Dev) (un : Nat) : Bool :=
  (d.turnKinds un).all (fun k => (d.turn un k).all (fun t => decide (t.expiry + 500 ≤ d.now)))

/-- The units in SHADOW that compare a unit's stream. -/
def Dev.shadowsOf (d : Dev) (un : Nat) : List Nat :=
  (d.rid.shadows.filter (fun e => e.2.of == un && d.svc (e.1.headD 0) == sSHADOW)).map (fun e => e.1.headD 0)

/-- The UNIT_RETURNs that wait for a unit end (R387). -/
def Dev.endReturns (d : Dev) (un : Nat) (r : Reply) : Dev :=
  let w := d.rid.returns.filter (fun e => e.un == un)
  let d := { d with rid := { d.rid with returns := d.rid.returns.filter (fun e => !(e.un == un)) } }
  w.foldl (fun d e => d.finish e.ticket r) d

/-- One item meets a unit that shadows its stream: it counts, or a difference fails the shadow with cause 0x0007, and with it the
UNIT_RETURN that waits (R51, R387, R389). -/
def Dev.shadowOne (d : Dev) (u : Nat) (o : ShadowOut) : Dev :=
  match d.rid.shadows.get? [u] with
  | none => d
  | some s =>
    if d.svc u ≠ sSHADOW then d else
    match o with
    | .same => { d with rid := { d.rid with shadows := d.rid.shadows.insert [u] { s with items := min 65536 (s.items + 1) } } }
    | .differs =>
      let d := { d with rid := { d.rid with shadows := d.rid.shadows.erase [u] } }
      ((d.bump (riderOf u) RID_SHADOW_MISMATCH.COUNT).failSelf u 0x0007).endReturns u (.fail stABORTED_FAULT)

/-- One item of a stream meets the units that shadow it. -/
def Dev.shadowItem (d : Dev) (un : Nat) (o : ShadowOut) : Dev := (d.shadowsOf un).foldl (fun d u => d.shadowOne u o) d

end Sys2Proof.Machine
end

