-- ==== Sys2Proof/Machine/Sched.lean ====
section
/-! DEFINITION. The egress hierarchy, its shapers, decisions and holds (R227–R230, R259–R269, R283, R284, R288–R296). -/
namespace Sys2Proof.Machine

/-! ### The hierarchy (R227) -/

/-- Nodes of a level. -/
def levelCount (l : Nat) : Nat :=
  match l with
  | 1 => 128
  | 2 => 1024
  | 3 => 8192
  | 4 => 32768
  | 5 => 262144
  | _ => 0

def Dev.node (d : Dev) (l n : Nat) : Node := d.sch.nodes.getD {} [l, n]

def Dev.setNode (d : Dev) (l n : Nat) (x : Node) : Dev := { d with sch := { d.sch with nodes := d.sch.nodes.setD {} [l, n] x } }

/-- Parent of a node at reset (R227). -/
def resetParent (l n : Nat) : Nat := if l = 4 then n / 4 else n / 8

/-- Parent of a node. -/
def Dev.parentNode (d : Dev) (l n : Nat) : Nat := ((d.node l n).parent).getD (resetParent l n)

/-- The way from a queue up to its port: queue, subscriber, L3, L2 and port. -/
structure Path where
  q : Nat
  sub : Nat
  l3 : Nat
  l2 : Nat
  port : Nat
  deriving DecidableEq, Repr

def Dev.path (d : Dev) (q : Nat) : Path :=
  let sub := q / 8
  let l3 := d.parentNode 4 sub
  let l2 := d.parentNode 3 l3
  ⟨q, sub, l3, l2, d.parentNode 2 l2⟩

/-- The node of a path at a level. -/
def Path.at (p : Path) (l : Nat) : Nat :=
  match l with
  | 1 => p.port
  | 2 => p.l2
  | 3 => p.l3
  | 4 => p.sub
  | _ => p.q

/-- Egress queues that hold packets. -/
def Dev.busyQueues (d : Dev) : List Nat := (d.tm.eqs.filter (fun e => !e.2.pkts.isEmpty)).map (fun e => e.1.headD 0)

/-- Does any queue below a node hold a packet? -/
def Dev.nodeBusy (d : Dev) (l n : Nat) : Bool := d.busyQueues.any (fun q => (d.path q).at l == n)

/-- Egress queues of a port that are not empty. -/
def Dev.portQueues (d : Dev) (p : Nat) : List Nat := d.busyQueues.filter (fun q => (d.path q).port == p)

/-! ### Buckets (R264–R269) -/

/-- One byte, in the unit of bucket levels. -/
def lvl : Nat := 2 ^ 20

/-- Refill interval of a level, ns (R265). -/
def refillNs (l : Nat) : Nat :=
  match l with
  | 1 => 256
  | 2 => 1000
  | 3 => 4000
  | 4 => 16000
  | _ => 64000

/-- Gain of one refill, in 2^-20 byte: rate in kb/s times the interval (R265). -/
def gainOf (rate ns : Nat) : Nat := rate * ns * lvl / 8000000

/-- A level after a gain: never above the burst. -/
def capLevel (level : Int) (gain burst : Nat) : Int := min (level + gain) ((burst * lvl : Nat) : Int)

def Bucket.refill (b : Bucket) (ns : Nat) : Bucket :=
  if b.en then { b with level := capLevel b.level (gainOf b.rate ns) b.burst } else b

/-- A new setting of a bucket: one that becomes enabled starts at its burst (R267, R268). -/
def Bucket.apply (b : Bucket) (en : Bool) (rate burst : Nat) : Bucket :=
  { en := en, rate := rate, burst := burst,
    level := if en ∧ ¬ b.en then ((burst * lvl : Nat) : Int) else b.level }

def Bucket.charge (b : Bucket) (c : Int) : Bucket := if b.en then { b with level := b.level - c * ((lvl : Nat) : Int) } else b

/-- May the peak bucket's owner be eligible (R259)? -/
def Bucket.peakOk (b : Bucket) : Bool := !b.en || (b.rate != 0 && decide (0 ≤ b.level))

/-- Does the committed bucket place its owner in the committed round (R260)? -/
def Bucket.committed (b : Bucket) : Bool := !b.en || (b.rate != 0 && decide (0 ≤ b.level))

/-! ### Sluice lists (R275–R282) -/

def Dev.sluice (d : Dev) (p : Nat) : Sluice := d.sch.sluices.getD {} [p]

def Dev.setSluice (d : Dev) (p : Nat) (x : Sluice) : Dev := { d with sch := { d.sch with sluices := d.sch.sluices.setD {} [p] x } }

/-- The list in force at a device time, across a switch or stop already fixed. -/
def Sluice.listAt (x : Sluice) (ns : Nat) : Option SluiceList :=
  match x.pending, x.stopAt with
  | some (l, t), _ => if t ≤ ns then some l else x.active
  | none, some t => if t ≤ ns then none else x.active
  | none, none => x.active

/-- Entry running at an offset into the cycle, its gates, and the offset at which it ends (R276). -/
def entryAt : List (Nat × Nat) → Nat → Nat → Nat → Nat → Nat × Nat × Nat
  | [], cycle, _, i, g => (i - 1, g, cycle)
  | (gates, iv) :: es, cycle, off, i, _ =>
    if off < iv then (i, gates, match es with | [] => cycle | _ => iv)
    else
      let r := entryAt es (cycle - iv) (off - iv) (i + 1) gates
      (r.1, r.2.1, r.2.2 + iv)

/-- Entry, gates and end time of what a list shows at a device time. -/
def SluiceList.at (l : SluiceList) (ns : Nat) : Nat × Nat × Nat :=
  let off := (ns - l.start) % l.cycle
  let r := entryAt l.entries l.cycle off 0 0xFF
  (r.1, r.2.1, ns - off + min r.2.2 l.cycle)

/-- Is class `c` open from `ns` on until `fin`, both in ns? `fuel` bounds the gate changes looked at. -/
def Sluice.openUntil : Nat → Sluice → Nat → Nat → Nat → Bool
  | 0, _, _, _, _ => false
  | fuel + 1, x, c, ns, fin =>
    let edge : Nat := match x.pending, x.stopAt with
      | some (_, t), _ => t
      | none, some t => t
      | none, none => 0
    match x.listAt ns with
    | none =>
      if ns < edge ∧ edge ≤ fin then Sluice.openUntil fuel x c edge fin else true
    | some l =>
      let r := l.at ns
      if ¬ bit r.2.1 c then false
      else
        let nx := if ns < edge then min r.2.2 edge else r.2.2
        if fin < nx then true else Sluice.openUntil fuel x c nx fin

/-- Spans of one cycle: (length, gates). -/
def spans : List (Nat × Nat) → Nat → List (Nat × Nat)
  | [], _ => []
  | [(g, _)], left => [(left, g)]
  | (g, iv) :: es, left => if left ≤ iv then [(left, g)] else (iv, g) :: spans es (left - iv)

/-- Longest run of class `c` in a list of spans: best so far, current run. -/
def longestRun (c : Nat) : List (Nat × Nat) → Nat → Nat → Nat
  | [], best, cur => max best cur
  | (n, g) :: ss, best, cur => if bit g c then longestRun c ss best (cur + n) else longestRun c ss (max best cur) 0

/-- Longest unbroken span of an open gate across cycle ends, ns; none when the gate never closes (R281). -/
def SluiceList.longest (l : SluiceList) (c : Nat) : Option Nat :=
  let s := spans l.entries l.cycle
  if s.all (fun e => bit e.2 c) then none else some (longestRun c (s ++ s) 0 0)

/-- Ticks of 1/1600 ns that `n` bytes take at a port's rate (R280). -/
def Dev.wireTime (d : Dev) (p n : Nat) : Nat := n * 12800 / max 1 (d.portRate p)

def Dev.busyTill (d : Dev) (p : Nat) : Nat := d.sch.busyUntil.getD 0 [p]

/-- *s* of R280, in 1/1600 ns. -/
def Dev.sendAt (d : Dev) (p : Nat) : Nat :=
  max ((d.now + d.getI uSLC SLC_PORT_CFG.LEAD_NS p) * 1600) (d.busyTill p)

/-- *W* of R280, in 1/1600 ns. -/
def Dev.guardW (d : Dev) (p : Nat) (e : EgrDesc) : Nat :=
  d.wireTime p (d.charged p e + d.getI uSLC SLC_PORT_CFG.GUARD_ADJ p).toNat

def Dev.guardEn (d : Dev) (p : Nat) : Bool := d.flagI uSLC SLC_PORT_CFG.GUARD_EN p

/-- Does a head frame of class `c` pass its gate (R259, R275, R280)? -/
def Dev.gateOk (d : Dev) (p c : Nat) (e : EgrDesc) : Bool :=
  let x := d.sluice p
  if x.active.isNone ∧ x.pending.isNone then true
  else
    let s := d.sendAt p
    let fin := if d.guardEn p then (s + d.guardW p e) / 1600 else s / 1600
    x.openUntil 128 c (s / 1600) fin

/-- Can a head frame never pass (R281)? -/
def Dev.neverFits (d : Dev) (p c : Nat) (e : EgrDesc) : Bool :=
  match (d.sluice p).active with
  | none => false
  | some l =>
    match l.longest c with
    | none => false
    | some 0 => false
    | some n => d.guardEn p && decide (n * 1600 < d.guardW p e)

/-! ### Age limits (R283, R284) -/

def QPkt.sojourn (p : QPkt) (now : Nat) : Nat := now - p.joined

/-- Has a head outlived its queue's limit? -/
def Queue.expired (q : Queue) (now : Nat) : Bool :=
  match q.pkts with
  | p :: _ => q.ageLimit != 0 && decide (q.ageLimit * 1000000 < p.sojourn now)
  | [] => false

/-- Drop a head that has expired: TMS_PORT_AGED and AGED for egress queues, SMP_VOQ_AGED and VOQ_AGED for VOQs. -/
def Dev.ageOne (d : Dev) (r : QRef) : Dev :=
  match (d.queue r).pkts with
  | [] => d
  | p :: rest =>
    let d := ((d.setQueue r ((d.queue r).left p rest d.now)).dropLoc p.loc).settleSpill r
    match r with
    | .voq _ => (d.bump uSMP SMP_VOQ_AGED.COUNT).raiseOnce uSMP 0x12 0 (fun n => leBytes 4 n)
    | .eq q =>
      let port := (d.path q).port
      (d.bumpI uSCH TMS_PORT_AGED.COUNT port).raiseOnce d.activeSched 0x12 0 (fun n => leBytes 1 port ++ leBytes 4 n)

def Dev.ageN : Nat → Dev → QRef → Dev
  | 0, d, _ => d
  | n + 1, d, r => if (d.queue r).expired d.now then Dev.ageN n (d.ageOne r) r else d

/-- Check a queue's head against its age limit, stopping at the first packet that has not expired. -/
def Dev.ageCheck (d : Dev) (r : QRef) : Dev := d.ageN (d.queue r).pkts.length r

/-! ### Decisions (R259–R263, R266) -/

/-- Does time `a` precede time `b` (R263)? -/
def precedes (a b : Nat) : Bool := decide ((b + 2 ^ 48 - a) % 2 ^ 48 < 2 ^ 47)

/-- Is a queue eligible apart from the nodes above it? -/
def Dev.queueOk (d : Dev) (p q : Nat) : Bool :=
  match d.headReady (.eq q) with
  | none => false
  | some h => (d.node 5 q).p.peakOk && d.gateOk p (q % 8) h.desc

/-- The eligible queues of a port (R259). -/
def Dev.eligible (d : Dev) (p : Nat) : List Path :=
  if d.holdState p = hUP ∧ (d.node 1 p).p.peakOk then
    ((d.portQueues p).map d.path).filter (fun t =>
      d.queueOk p t.q && (d.node 4 t.sub).p.peakOk && (d.node 3 t.l3).p.peakOk && (d.node 2 t.l2).p.peakOk)
  else []

/-- The better of two children of a round: strict slots in order, then the smaller finish time, then the lower number. -/
def Dev.better (d : Dev) (l a b : Nat) : Nat :=
  let x := d.node l a
  let y := d.node l b
  if x.prio < 4 ∨ y.prio < 4 then (if x.prio < y.prio then a else if y.prio < x.prio then b else min a b)
  else if x.f = y.f then min a b
  else if precedes x.f y.f then a else b

/-- Choose a child of a level among candidates: the committed round if any child stands in it (R260). The second answer
tells an excess round. -/
def Dev.choose (d : Dev) (l : Nat) (cands : List Nat) : Option (Nat × Bool) :=
  let com := cands.filter (fun n => (d.node l n).c.committed)
  match com, cands with
  | x :: xs, _ => some (xs.foldl (d.better l) x, false)
  | [], y :: ys => some (ys.foldl (d.better l) y, true)
  | [], [] => none

/-- Narrow the eligible queues to those below the child chosen at a level. -/
def Dev.narrow (d : Dev) (l : Nat) (ps : List Path) : List Path × Bool :=
  match d.choose l (ps.map (·.at l)) with
  | none => ([], false)
  | some (n, ex) => (ps.filter (fun t => t.at l == n), ex)

/-- The queue a decision chooses, and whether the port node served an excess round. -/
def Dev.pickQueue (d : Dev) (p : Nat) : Option (Path × Bool) :=
  let a := d.narrow 2 (d.eligible p)
  let b := d.narrow 3 a.1
  let c := d.narrow 4 b.1
  let e := d.narrow 5 c.1
  match e.1 with
  | t :: _ => some (t, a.2)
  | [] => none

/-- A packet of charged length `c` leaves through child `n` of a level (R262, R266). -/
def Dev.chargeChild (d : Dev) (l par n : Nat) (c : Int) : Dev :=
  let x := d.node l n
  let x' := { x with c := x.c.charge c, p := x.p.charge c }
  if x.prio < 4 then d.setNode l n x'
  else
    let step : Int := -(-(c * 4096) / ((max 1 x.weight : Nat) : Int))
    let d := d.setNode l n { x' with f := ((x.f + step) % 2 ^ 48).toNat }
    d.setNode (l - 1) par { d.node (l - 1) par with v := x.f }

/-- Charge every node of a path and its queue (R266). -/
def Dev.chargePath (d : Dev) (t : Path) (c : Int) : Dev :=
  let d := (((d.chargeChild 5 t.sub t.q c).chargeChild 4 t.l3 t.sub c).chargeChild 3 t.l2 t.l3 c).chargeChild 2 t.port t.l2 c
  let x := d.node 1 t.port
  d.setNode 1 t.port { x with c := x.c.charge c, p := x.p.charge c }

/-- Drop the heads of a port's queues that can never pass the guard band (R281). -/
def Dev.dropNeverFits : Nat → Dev → Nat → Dev
  | 0, d, _ => d
  | n + 1, d, p =>
    let bad := (d.portQueues p).find? (fun q => match d.headReady (.eq q) with
      | some h => d.neverFits p (q % 8) h.desc
      | none => false)
    match bad with
    | none => d
    | some q =>
      match (d.queue (.eq q)).pkts with
      | [] => d
      | h :: rest =>
        let d := ((d.setQueue (.eq q) ((d.queue (.eq q)).left h rest d.now)).dropLoc h.loc).settleSpill (.eq q)
        let d := (d.bumpI uSLC SLC_NEVER_FITS.COUNT p).raiseOnce uSLC 0x12 0 (fun _ => leBytes 1 p ++ leBytes 1 (q % 8))
        Dev.dropNeverFits n d p

/-- Send the head of the chosen queue to the port's editor. -/
def Dev.sendHead (d : Dev) (p : Nat) (t : Path) (excess : Bool) : Dev :=
  match d.headReady (.eq t.q) with
  | none => d
  | some h =>
    let bytes := match h.loc with
      | .cells c => d.bodyBytes c
      | .spill bs => bs
    let c := d.charged p h.desc
    let s := d.sendAt p
    let overrun : Bool := !d.guardEn p && !(d.sluice p).openUntil 128 (t.q % 8) (s / 1600) ((s + d.wireTime p c.toNat) / 1600)
    let d := ((d.popHead (.eq t.q)).dropLoc h.loc).chargePath t c
    let d := { d with sch := { d.sch with
      busyUntil := d.sch.busyUntil.setD 0 [p] (s + d.wireTime p c.toNat)
      editorQ := d.sch.editorQ.setD [] [p] (d.sch.editorQ.getD [] [p] ++ [TxPkt.mk h.desc bytes]) } }
    let d := if overrun then (d.bumpI uSLC SLC_OVERRUN.COUNT p).tally uSLC 0x21 1 else d
    let a := d.activeSched
    let d := (d.tallyQ a 0x20 1 (selPort p)).tallyQ a 0x21 c.toNat (selPort p)
    if excess then d.tallyQ a 0x22 1 (selPort p) else d

/-- Decide until a queue whose head has not outlived its limit is chosen (R284). -/
def Dev.serveN : Nat → Dev → Nat → Dev
  | 0, d, _ => d
  | n + 1, d, p =>
    match d.pickQueue p with
    | none => d
    | some (t, ex) =>
      if (d.queue (.eq t.q)).expired d.now then Dev.serveN n (d.ageCheck (.eq t.q)) p
      else d.sendHead p t ex

/-- Packets in a port's queues. -/
def Dev.portPackets (d : Dev) (p : Nat) : Nat := ((d.portQueues p).map (fun q => (d.queue (.eq q)).pkts.length)).sum

/-- DEQUEUE_DECISION: one packet leaves a port's tree (R260). The active member decides under its turn (R289); a scheduler in SHADOW compares the decision
(R389). -/
def Dev.dequeueDecision (d : Dev) (p : Nat) (o : ShadowOut) : Dev :=
  if d.portInUse p ∧ d.mayCommit d.activeSched then
    let d := d.dropNeverFits (d.portPackets p) p
    (d.serveN (d.portPackets p + 1) p).shadowItem d.activeSched o
  else d

/-! ### Arrival at an egress queue (R229, R230, R262, R288) -/

/-- The subscriber a packet is placed under (R229). -/
def Dev.subscriberOf (d : Dev) (e : EgrDesc) : Nat :=
  let m := d.tm.subMap.getD {} [e.encapId % 65536]
  if d.getI uVOQ TMQ_PORT_SUB.SUB_MODE e.egressPort = 1 ∧ e.encapValid ∧ m.valid then m.sub
  else d.getI uVOQ TMQ_PORT_SUB.DEFAULT_SUB e.egressPort

/-- A child that becomes active takes its parent's virtual time (R262). -/
def Dev.activate (d : Dev) (l par n : Nat) : Dev :=
  d.setNode l n { d.node l n with f := (d.node (l - 1) par).v }

/-- A packet whose body is `h` reaches its egress queue. True when it was admitted. -/
def Dev.enqueueEq (d : Dev) (e : EgrDesc) (h : Nat) : Dev × Bool :=
  let q := 8 * d.subscriberOf e + e.cls
  let t := d.path q
  if t.port ≠ e.egressPort then ((d.countDrop (.eq q) 7).dropRef h, false)
  else if d.holdState t.port = hDOWN then ((d.bumpI uSCH TMS_PORT_FLUSH.COUNT t.port).dropRef h, false)
  else
    let was2 := d.nodeBusy 2 t.l2
    let was3 := d.nodeBusy 3 t.l3
    let was4 := d.nodeBusy 4 t.sub
    let was5 := d.nodeBusy 5 q
    let r := d.admitTo (.eq q) e h
    if r.2 then
      let d := r.1
      let d := { d with sch := { d.sch with lastEnq := d.sch.lastEnq.insert [t.port] d.now } }
      let d := if was5 then d else d.activate 5 t.sub q
      let d := if was4 then d else d.activate 4 t.l3 t.sub
      let d := if was3 then d else d.activate 3 t.l2 t.l3
      (if was2 then d else d.activate 2 t.port t.l2, true)
    else r

/-! ### The hold machine (R288) -/

/-- HELD as a counter's QUALIFIER selects it: is a selected port in HOLD (R300)? -/
def Dev.heldSignal (d : Dev) (q : Nat) : Bool :=
  if bit q 7 then d.holdState (q % 128) == hHOLD else (List.range 128).any (fun p => d.holdState p == hHOLD)

/-- Enter a hold state, raising PORT_HOLD; HELD may rise. -/
def Dev.setHold (d : Dev) (p st flushed : Nat) : Dev :=
  let e := d.setI uSCH TMS_PORT_STATUS.HOLD_STATE p st
  let d := e.tallyEdge d.activeSched 0x23 d.heldSignal e.heldSignal
  d.raise d.activeSched 0x11 (leBytes 1 p ++ leBytes 1 st ++ leBytes 2 0 ++ leBytes 4 flushed)

/-- Drop one packet of a port's flush. -/
def Dev.flushOne (d : Dev) (r : QRef) (p : Nat) : Dev :=
  match (d.queue r).pkts with
  | [] => d
  | x :: rest =>
    ((d.setQueue r ((d.queue r).left x rest d.now)).dropLoc x.loc).settleSpill r |>.bumpI uSCH TMS_PORT_FLUSH.COUNT p

def Dev.flushPortN : Nat → Dev → QRef → Nat → Dev
  | 0, d, _, _ => d
  | n + 1, d, r, p => Dev.flushPortN n (d.flushOne r p) r p

/-- Flush every queue of a port, counting each packet. -/
def Dev.flushPort (d : Dev) (p : Nat) : Dev :=
  (d.portQueues p).foldl (fun d q => d.flushPortN (d.queue (.eq q)).pkts.length (.eq q) p) d

/-- The hold's timer expires, or there is none: flush and go DOWN. -/
def Dev.holdToDown (d : Dev) (p : Nat) : Dev :=
  let n := d.portPackets p
  ((d.flushPort p).setI uSCH TMS_PORT_STATUS.HOLD_LEFT_MS p 0).setHold p hDOWN n

def Dev.holdMs (d : Dev) (p : Nat) : Nat := d.getI uSCH TMS_PORT_CFG.HOLD_MS p

/-- LINK_STATE leaves UP. -/
def Dev.holdLeaveUp (d : Dev) (p : Nat) : Dev :=
  if d.holdState p ≠ hUP then d
  else if d.holdMs p = 0 then d.holdToDown p
  else
    let d := { d with sch := { d.sch with holdStart := d.sch.holdStart.insert [p] d.now } }
    d.setHold p hHOLD 0

/-- LINK_STATE reaches UP. -/
def Dev.holdReachUp (d : Dev) (p : Nat) : Dev :=
  if d.holdState p = hUP then d
  else
    let d := { d with sch := { d.sch with holdStart := d.sch.holdStart.erase [p] } }
    d.setHold p hUP 0

/-- Has a port's hold run its time? -/
def Dev.holdOver (d : Dev) (p : Nat) : Bool := decide (d.sch.holdStart.getD 0 [p] + d.holdMs p * 1000000 ≤ d.now)

/-- PORT_HOLD_EXPIRE (R288). -/
def Dev.portHoldExpire (d : Dev) (p : Nat) : Dev :=
  if p < 128 ∧ d.holdState p = hHOLD ∧ d.holdOver p then
    (d.holdToDown p).logDecision 2 (uPort p) (d.portPackets p)
  else d

/-- HOLD_AGE_CHECK: the heads of a held port's queues meet their age limits (R284). -/
def Dev.holdAgeCheck (d : Dev) (p : Nat) : Dev :=
  if d.holdState p = hHOLD then (d.portQueues p).foldl (fun d q => d.ageCheck (.eq q)) d else d

/-- Parameter table of PORT_HOLD_SET (R296). -/
def HCmd.portHoldSetParams (c : HCmd) : List Param :=
  [pAny 0 6 0, c.zero 0 7 7, c.must 4 13 0 (· ≤ 10000), c.zero 4 15 14]

/-- PORT_HOLD_SET (0x0306, R296): HOLD_MS is written; a running hold is measured against it from its start. -/
def Dev.portHoldSet (d : Dev) (c : HCmd) : Dev :=
  d.commandNow c 0x0306 c.portHoldSetParams (fun d =>
    if d.svc d.activeSched = sACTIVE then
      let p := c.par 0 6 0
      let d := d.setI uSCH TMS_PORT_CFG.HOLD_MS p (c.par 4 13 0)
      (d.portHoldExpire p, .ok)
    else (d, .fail stUNIT_UNAVAILABLE))

/-! ### NODE_CFG and SHAPER_SET (R292, R293) -/

/-- Is a strict slot of a parent taken by another child (R261)? -/
def Dev.slotTaken (d : Dev) (l n par prio : Nat) : Bool :=
  decide (prio < 4) && d.sch.nodes.any (fun e =>
    match e.1 with
    | [l', m] => l' == l && m != n && e.2.prio == prio && d.parentNode l m == par
    | _ => false)

/-- The port a node lies under. -/
def Dev.portOfNode (d : Dev) (l n : Nat) : Nat :=
  match l with
  | 1 => n
  | 2 => d.parentNode 2 n
  | 3 => d.parentNode 2 (d.parentNode 3 n)
  | _ => d.parentNode 2 (d.parentNode 3 (d.parentNode 4 n))

/-- The node above `n` of a level and every node above that, those that held no packet before, become active (R262). -/
def Dev.wakeAbove (before : Dev) : Nat → Dev → Nat → Nat → Dev
  | 0, d, _, _ => d
  | k + 1, d, l, n =>
    if l ≤ 1 ∨ before.nodeBusy l n then d
    else Dev.wakeAbove before k (d.activate l (d.parentNode l n) n) (l - 1) (d.parentNode l n)

/-- Apply NODE_CFG to one node: the status it fails with, or the new device. -/
def Dev.cfgNode (d : Dev) (c : HCmd) (l n : Nat) : Dev × Nat :=
  let prio := c.par 0 6 4
  let old := d.parentNode l n
  let par := if c.par 0 3 3 = 1 then c.par 8 14 0 else old
  if d.slotTaken l n par prio then (d, stEXISTS)
  else if par ≠ old ∧ d.portOfNode (l - 1) par ≠ d.portOfNode (l - 1) old ∧ d.nodeBusy l n then (d, stRETRY_LATER)
  else
    let x := d.node l n
    let x := { x with prio := prio, weight := if prio = 4 then c.par 2 12 0 else x.weight }
    if par = old then (d.setNode l n x, stOK)
    else
      let e := d.setNode l n { x with parent := some par, f := (d.node (l - 1) par).v }
      (if d.nodeBusy l n then Dev.wakeAbove d 3 e (l - 1) par else e, stOK)

def Dev.cfgNodes : Nat → Dev → HCmd → Nat → Nat → Nat → Dev × Reply
  | 0, d, _, _, _, done => (d, .ok done)
  | k + 1, d, c, l, n, done =>
    let r := d.cfgNode c l n
    if r.2 = stOK then Dev.cfgNodes k r.1 c l (n + 1) (done + 1) else (d, .fail r.2 done)

/-- Parameter table of NODE_CFG (R292). -/
def HCmd.nodeCfgParams (c : HCmd) : List Param :=
  let l := c.par 0 2 0
  let n := c.par 4 17 0
  [c.must 0 2 0 (fun l => decide (2 ≤ l ∧ l ≤ 5)), c.must 0 3 3 (fun s => s == 0 || l != 5),
   c.must 0 6 4 (· ≤ 4), c.zero 0 7 7,
   c.must 2 12 0 (fun w => c.par 0 6 4 != 4 || decide (1 ≤ w ∧ w ≤ 4096)), c.zero 2 15 13,
   c.must 4 17 0 (fun n => decide (n < levelCount l)), c.zero 4 31 18,
   c.must 8 14 0 (fun p => c.par 0 3 3 == 0 || decide (p < levelCount (l - 1))), c.zero 8 15 15,
   c.must 12 12 0 (fun k => decide (1 ≤ k ∧ k ≤ 4096 ∧ n + k ≤ levelCount l)), c.zero 12 15 13]

/-- NODE_CFG (0x0302). -/
def Dev.nodeCfg (d : Dev) (c : HCmd) : Dev :=
  let l := c.par 0 2 0
  let n := c.par 4 17 0
  d.commandNow c 0x0302 c.nodeCfgParams (fun d =>
    if d.svc d.activeSched = sACTIVE then d.cfgNodes (c.par 12 12 0) c l n 0
    else (d, .fail stUNIT_UNAVAILABLE))

/-- A rate of 0 or of 10 kb/s to 1.6 Tb/s (R264). -/
def rateOk (r : Nat) : Bool := r == 0 || decide (10 ≤ r ∧ r ≤ 1600000000)

def burstOk (b : Nat) : Bool := decide (b ≤ 16777216)

/-- A level shown as signed 32-bit bytes. -/
def showLevel (l : Int) : Nat := ofSigned 32 (l / ((lvl : Nat) : Int))

/-- The READ record of SHAPER_SET (R293). -/
def Node.record (x : Node) : List Byte :=
  leBytes 4 x.c.rate ++ leBytes 4 x.c.burst ++ leBytes 4 x.p.rate ++ leBytes 4 x.p.burst
  ++ leBytes 4 (showLevel x.c.level) ++ leBytes 4 (showLevel x.p.level) ++ leBytes 4 (x.c.en.toNat + 2 * x.p.en.toNat) ++ leBytes 4 0

/-- Parameter table of SHAPER_SET (R293). -/
def HCmd.shaperSetParams (c : HCmd) : List Param :=
  let read : Bool := c.par 0 3 3 == 1
  let l := c.par 0 2 0
  [c.must 0 2 0 (fun l => decide (1 ≤ l ∧ l ≤ 5)), pAny 0 3 3, pAny 0 5 4, c.zero 0 7 6,
   c.must 4 17 0 (fun n => decide (n < levelCount l)), c.zero 4 31 18,
   c.must 8 30 0 (fun r => read || rateOk r), c.zero 8 31 31, c.must 12 24 0 (fun b => read || burstOk b), c.zero 12 31 25,
   c.must 16 30 0 (fun r => read || rateOk r), c.zero 16 31 31, c.must 20 24 0 (fun b => read || burstOk b), c.zero 20 31 25,
   pAny 24 63 0]

/-- SHAPER_SET (0x0303): with READ a record is written; otherwise the setting waits for the level's next refill (R267). -/
def Dev.shaperSet (d : Dev) (c : HCmd) : Dev :=
  let read : Bool := c.par 0 3 3 == 1
  let l := c.par 0 2 0
  let n := c.par 4 17 0
  d.command c 0x0303 c.shaperSetParams (fun d =>
    if d.svc d.activeSched ≠ sACTIVE then (d, some (.fail stUNIT_UNAVAILABLE))
    else if read then
      let r := d.hostBlock c (c.par 24 63 0) (d.node l n).record 0
      (r.1, some r.2)
    else
      let x := d.node l n
      (d.setNode l n
        { x with
          sets := x.sets ++ [⟨c.ticket, c.par 0 4 4 == 1, c.par 0 5 5 == 1, c.par 8 30 0, c.par 12 24 0, c.par 16 30 0, c.par 20 24 0⟩] },
       none))

/-- Both buckets of a node take a setting. -/
def Node.applySet (x : Node) (s : ShaperSet) : Node :=
  { x with c := x.c.apply s.cEn s.cRate s.cBurst, p := x.p.apply s.pEn s.pRate s.pBurst }

/-- One node's refill: pending settings first, then the gain at the new rate (R267). -/
def Dev.refillNode (d : Dev) (l n : Nat) : Dev :=
  let x := d.node l n
  let y := x.sets.foldl Node.applySet { x with sets := [] }
  let d := d.setNode l n { y with c := y.c.refill (refillNs l), p := y.p.refill (refillNs l) }
  x.sets.foldl (fun d s => d.finish s.ticket .ok) d

/-- SHAPER_REFILL: a refill interval of a level ends (R265). -/
def Dev.shaperRefill (d : Dev) (l : Nat) : Dev :=
  if 1 ≤ l ∧ l ≤ 5 then
    (d.sch.nodes.filterMap (fun e => match e.1 with
      | [l', n] => if l' = l then some n else none
      | _ => none)).foldl (fun d n => d.refillNode l n) d
  else d

def execDequeueDecision (port : Nat) (shadow : ShadowOut) (s : State) : Answer := s.go (·.dequeueDecision port shadow)
def execShaperRefill (level : Nat) (s : State) : Answer := s.go (·.shaperRefill level)
def execNodeCfg (c : HCmd) (s : State) : Answer := s.go (·.nodeCfg c)
def execShaperSet (c : HCmd) (s : State) : Answer := s.go (·.shaperSet c)
def execPortHoldSet (c : HCmd) (s : State) : Answer := s.go (·.portHoldSet c)
def execPortHoldExpire (port : Nat) (s : State) : Answer := s.go (·.portHoldExpire port)
def execHoldAgeCheck (port : Nat) (s : State) : Answer := s.go (·.holdAgeCheck port)

end Sys2Proof.Machine
end

