-- ==== Sys2Proof/Machine/Meters.lean ====
section
/-! DEFINITION. The meter engine (R270–R274, R294). -/
namespace Sys2Proof.Machine

def Dev.meter (d : Dev) (m : Nat) : Meter := d.sch.meters.getD {} [m]

def Dev.setMeter (d : Dev) (m : Nat) (x : Meter) : Dev := { d with sch := { d.sch with meters := d.sch.meters.setD {} [m] x } }

/-- Colours. -/
def green : Nat := 0
def yellow : Nat := 1
def red : Nat := 2

/-- Subtract metered bytes from a level. -/
def lessBytes (l : Int) (b : Nat) : Int := l - ((b * lvl : Nat) : Int)

/-- The colour a meter gives a packet of `b` bytes, and its levels afterwards (R271). A colour-blind meter takes every packet
as green. -/
def Meter.colour (x : Meter) (inColour b : Nat) : Nat × Meter :=
  let inC := if x.aware then inColour else green
  let cOk : Bool := decide (0 ≤ x.cLevel)
  let pOk : Bool := decide (0 ≤ x.pLevel)
  let takeC : Meter := { x with cLevel := lessBytes x.cLevel b }
  let takeP : Meter := { x with pLevel := lessBytes x.pLevel b }
  match x.mode with
  | 1 =>
    if inC = red then (red, x)
    else if ¬ pOk then (red, x)
    else if inC = yellow ∨ ¬ cOk then (yellow, takeP)
    else (green, { takeP with cLevel := lessBytes x.cLevel b })
  | 2 =>
    if inC = red then (red, x)
    else if inC = green ∧ cOk then (green, takeC)
    else if pOk then (yellow, takeP)
    else (red, x)
  | _ => (inColour, x)

/-- Count a colour (MTR_ counters and event codes 0x20–0x22). -/
def Dev.countColour (d : Dev) (c : Nat) : Dev :=
  match c with
  | 0 => (d.bump uMTR MTR_GREEN.COUNT).tally uMTR 0x20 1
  | 1 => (d.bump uMTR MTR_YELLOW.COUNT).tally uMTR 0x21 1
  | _ => (d.bump uMTR MTR_RED.COUNT).tally uMTR 0x22 1

/-- One meter operation (R270, R271). -/
def Dev.meterOp (d : Dev) (m inColour b : Nat) : Dev × Nat :=
  let r := (d.meter m).colour inColour b
  ((d.setMeter m r.2).countColour r.1, r.1)

/-- A new setting of a meter (R294): starting from MODE 0, or with RESET_LEVELS, both buckets stand at their bursts;
otherwise levels are kept, clipped to the bursts. -/
def Meter.applySet (x : Meter) (s : MeterSet) : Meter :=
  let full : Bool := s.reset || (x.mode == 0 && s.mode != 0)
  let cB : Int := ((s.cBurst * lvl : Nat) : Int)
  let pB : Int := ((s.pBurst * lvl : Nat) : Int)
  { x with mode := s.mode, aware := s.aware, coupled := s.coupled, cRate := s.cRate, cBurst := s.cBurst, pRate := s.pRate,
           pBurst := s.pBurst, cLevel := if full then cB else min x.cLevel cB, pLevel := if full then pB else min x.pLevel pB }

/-- The 1 µs gain of a meter's buckets; with COUPLED in MODE 2, what C cannot hold goes to P (R270, R271). -/
def Meter.refill (x : Meter) : Meter :=
  if x.mode = 0 then x else
  let gc := gainOf x.cRate 1000
  let gp := gainOf x.pRate 1000
  let c := capLevel x.cLevel gc x.cBurst
  let spill : Nat := if x.coupled ∧ x.mode = 2 then (x.cLevel + gc - c).toNat else 0
  let p := if x.pRate = 0 then x.pLevel else capLevel x.pLevel (gp + spill) x.pBurst
  { x with cLevel := c, pLevel := p }

/-- METER_REFILL: every meter takes its pending settings and gains (R270, R274). -/
def Dev.refillMeter (d : Dev) (m : Nat) : Dev :=
  let x := d.meter m
  let y := x.sets.foldl Meter.applySet { x with sets := [] }
  x.sets.foldl (fun d s => d.finish s.ticket .ok) (d.setMeter m y.refill)

def Dev.meterRefill (d : Dev) : Dev :=
  (d.sch.meters.map (fun e => e.1.headD 0)).foldl (fun d m => d.refillMeter m) d

/-- A meter's configuration as the engine's copy gives it: anything, where the copy's row was lost in deep-sleep (R350). -/
def Dev.meterCopy (d : Dev) (m : Nat) (x : Meter) : Meter :=
  if d.dram.lostRows.any (fun e => e.1 == sideStack false (meterCopyAddr m) && e.2 == meterCopyAddr m / 2 ^ 31) then
    let v := Config.rowData d.draws
    { x with mode := v 0 % 3, aware := bit (v 1) 0, coupled := bit (v 1) 1, cRate := v 2 % 2 ^ 32, cBurst := v 3 % 2 ^ 32
             pRate := v 4 % 2 ^ 32, pBurst := v 5 % 2 ^ 32 }
  else x

/-- METER_REPAIRED: a meter is rebuilt with both levels at their bursts (R274). -/
def Dev.meterRepaired (d : Dev) (m : Nat) : Dev :=
  if m < 1048576 then
    let x := d.meter m
    let x := d.meterCopy m x
    let d := d.setMeter m { x with cLevel := ((x.cBurst * lvl : Nat) : Int), pLevel := ((x.pBurst * lvl : Nat) : Int) }
    ((d.bump uMTR MTR_REPAIR.COUNT).tallyUp uMTR 0x07 1).raise uMTR 0x10 (leBytes 4 m)
  else d

/-- The READ record of METER_SET (R294). -/
def Meter.record (x : Meter) : List Byte :=
  leBytes 4 x.cRate ++ leBytes 4 x.cBurst ++ leBytes 4 x.pRate ++ leBytes 4 x.pBurst ++ leBytes 4 (showLevel x.cLevel)
  ++ leBytes 4 (showLevel x.pLevel) ++ leBytes 4 (x.mode + 4 * x.aware.toNat + 8 * x.coupled.toNat) ++ leBytes 4 0

/-- Parameter table of METER_SET (R294). -/
def HCmd.meterSetParams (c : HCmd) : List Param :=
  let read : Bool := c.par 0 20 20 == 1
  let mode := c.par 0 23 22
  [pAny 0 19 0, pAny 0 20 20, pAny 0 21 21, c.must 0 23 22 (fun v => read || v != 3), pAny 0 24 24,
   c.must 0 25 25 (fun v => read || v == 0 || mode == 2), c.zero 0 31 26,
   c.must 4 30 0 (fun r => read || rateOk r), c.zero 4 31 31, c.must 8 24 0 (fun b => read || burstOk b), c.zero 8 31 25,
   c.must 12 30 0 (fun r => read || (rateOk r && (mode != 1 || decide (c.par 4 30 0 ≤ r)))), c.zero 12 31 31,
   c.must 16 24 0 (fun b => read || burstOk b), c.zero 16 31 25, pAny 24 63 0]

/-- METER_SET (0x0304). -/
def Dev.meterSet (d : Dev) (c : HCmd) : Dev :=
  let read : Bool := c.par 0 20 20 == 1
  let m := c.par 0 19 0
  let mode := c.par 0 23 22
  d.command c 0x0304 c.meterSetParams (fun d =>
    if d.svc uMTR ≠ sACTIVE then (d, some (.fail stUNIT_UNAVAILABLE))
    else if read then
      let r := d.hostBlock c (c.par 24 63 0) (d.meter m).record 0
      (r.1, some r.2)
    else
      let x := d.meter m
      (d.setMeter m
        { x with
          sets := x.sets ++ [⟨c.ticket, c.par 0 21 21 == 1, mode, c.par 0 24 24 == 1, c.par 0 25 25 == 1, c.par 4 30 0,
            c.par 8 24 0, c.par 12 30 0, c.par 16 24 0⟩] },
       none))

def execMeterRefill (s : State) : Answer := s.go Dev.meterRefill
def execMeterRepaired (m : Nat) (s : State) : Answer := s.go (·.meterRepaired m)
def execMeterSet (c : HCmd) (s : State) : Answer := s.go (·.meterSet c)

end Sys2Proof.Machine
end

