-- ==== Sys2Proof/Machine/Parse.lean ====
section
/-! DEFINITION. The header graph and the parser of stage 0 (R108–R116, R125, R558, R559), and the standard protocol numbers
that say what a parsed header is (IEEE 802.1Q TPIDs, EtherTypes and IANA protocol numbers: the graph names no kinds;
PRESUMED). -/
namespace Sys2Proof.Machine

def uPRS : Nat := 64
def uCLS : Nat := 65
def uTBE : Nat := 66
def uDST : Nat := 67
def uSIP : Nat := 68
def uLAT (l : Nat) : Nat := 16 + l
def uFLM (l p : Nat) : Nat := 32 + 5 * l + p

/-- Lateral of a port. -/
def latOf (port : Nat) : Nat := port / 32

/-- Lateral of a flume. -/
def latOfFlume (un : Nat) : Nat := (un - 32) / 5

/-! ### The graph (R108, R109) -/

def Dev.nodeValid (d : Dev) (n : Nat) : Bool := d.flagI uPRS PRS_NODE_LEN.VALID n

/-- A field of `width` bits at `shift` of a 16-bit word, cut at bit 15 (R108). -/
def fieldOf (word shift width : Nat) : Nat := word / 2 ^ shift % 2 ^ width

/-- TO_NODE of the first valid transition that leaves a node on a field value (R109). -/
def Dev.transition (d : Dev) (node field : Nat) : Option Nat :=
  ((List.range 256).find? (fun t =>
    d.flagI uPRS PRS_TRANS.VALID t && d.getI uPRS PRS_TRANS.FROM_NODE t == node
      && ((field ^^^ d.getI uPRS PRS_TRANS.VALUE t) &&& d.getI uPRS PRS_TRANS.MASK t) == 0)).map
    (fun t => d.getI uPRS PRS_TRANS.TO_NODE t)

/-- A parsed header: its node, its offset in the frame as received, its length, its next-header field, and what it is. -/
structure Hdr where
  node : Nat
  off : Nat
  len : Nat
  field : Nat
  proto : Proto
  deriving DecidableEq, Repr

/-- What a pass's parse gives: the headers in order, flags DEPTH_EXCEEDED, LEN_CONFLICT, MORE_HEADERS and UNKNOWN_NEXT in
their bit places (R114), and the node that would have been parsed next. -/
structure Parse where
  hdrs : List Hdr := []
  flags : Nat := 0
  next : Option Nat := none
  deriving DecidableEq, Repr

def fDEPTH : Nat := 0x01
def fLEN : Nat := 0x02
def fMORE : Nat := 0x04
def fFIRST : Nat := 0x08
def fLATER : Nat := 0x10
def fHIT : Nat := 0x20
def fUNKNOWN : Nat := 0x40
def fPTP : Nat := 0x80

/-! ### What a header is -/

/-- Is a 16-bit type a VLAN tag's? -/
def isTpid (t : Nat) : Bool := t == 0x8100 || t == 0x88A8

/-- The protocol an EtherType names. -/
def protoOfType (t : Nat) : Proto :=
  if t = 0x0800 then .ip4 else if t = 0x86DD then .ip6 else if t = 0x8847 ∨ t = 0x8848 then .mpls
  else if isTpid t then .vlan else .other

/-- The protocol an IP protocol or next-header number names. -/
def protoOfIp (p : Nat) : Proto :=
  if p = 4 then .ip4 else if p = 41 then .ip6 else if p = 137 then .mpls
  else if [0, 43, 44, 50, 51, 60, 135, 139, 140].contains p then .ip6Ext
  else if [6, 17, 33, 132, 136].contains p then .l4 else .other

/-- What stands where only its first nibble tells: IP, or something else. -/
def protoOfNibble (b : Byte) : Proto :=
  if b.toNat / 16 = 4 then .ip4 else if b.toNat / 16 = 6 then .ip6 else .other

/-- Is a node an Ethernet header's? The root is, and so is any node of 14 fixed bytes (the graph names no kinds: PRESUMED). -/
def Dev.etherNode (d : Dev) (n : Nat) : Bool :=
  n == d.get uPRS PRS_CFG.ROOT_NODE || (d.getI uPRS PRS_NODE_LEN.FIXED_LEN n == 14 && d.getI uPRS PRS_NODE_LEN.LEN_WIDTH n == 0)

/-- What the header after `h` is; `ether` says that its node is an Ethernet header's, and `frame` are the bytes of the frame. -/
def nextProto (frame : List Byte) (ether : Bool) (h : Hdr) (off : Nat) : Proto :=
  if ether then .eth else
  match h.proto with
  | .mpls => if beAt frame (h.off + 2) 1 % 2 = 1 then protoOfNibble ((slice frame off 1).headD 0) else .mpls
  | .ip4 | .ip6 | .ip6Ext => protoOfIp h.field
  | .l4 => if beAt frame (h.off + 2) 2 = 6635 then .mpls else .other
  | _ => protoOfType h.field

/-! ### One pass (R110–R112, R558, R559) -/

/-- Where a window ends: 256 bytes on from its start, byte 512, or the frame's last byte before the FCS (R20, R111). -/
def winEnd (o len : Nat) : Nat := min (o + 256) (min 512 len)

/-- What the tests of R558 say of one header: its length, or the flag that ends the pass. `limit` is where the nearest
enclosing total length ends. -/
inductive Tested
  | ok (len : Nat) (limit : Option Nat)
  | stop (flag : Nat)
  deriving DecidableEq, Repr

/-- The tests of R558 on the header of `node` at `a`, the `n`-th of the frame as received. -/
def Dev.testHdr (d : Dev) (frame : List Byte) (len wEnd n node a : Nat) (limit : Option Nat) : Tested :=
  if 24 ≤ n then .stop fDEPTH else
  let fixed := d.getI uPRS PRS_NODE_LEN.FIXED_LEN node
  let width := d.getI uPRS PRS_NODE_LEN.LEN_WIDTH node
  let fEnd := a + d.getI uPRS PRS_NODE_LEN.LEN_OFF node + 2
  if width ≠ 0 ∧ wEnd < fEnd then
    if len < fEnd ∨ len < a + fixed then .stop fLEN
    else if 512 < fEnd then .stop fDEPTH else .stop fMORE
  else
    let l := fixed + (if width = 0 then 0 else
      fieldOf (beAt frame (fEnd - 2) 2) (d.getI uPRS PRS_NODE_LEN.LEN_SHIFT node) width
        * 2 ^ d.getI uPRS PRS_NODE_LEN.LEN_SCALE node)
    if l < d.getI uPRS PRS_NODE_CHECK.MIN_LEN node ∨ len < a + l then .stop fLEN
    else if 512 < a + l then .stop fDEPTH
    else if wEnd < a + l then .stop fMORE
    else if d.flagI uPRS PRS_NODE_CHECK.TOTLEN_EN node then
      let tot := beAt frame (a + d.getI uPRS PRS_NODE_CHECK.TOTLEN_OFF node) 2 + d.getI uPRS PRS_NODE_CHECK.TOTLEN_ADD node
      if len < a + tot ∨ limit.any (fun e => decide (e < a + tot)) then .stop fLEN
      else .ok l (some (a + tot))
    else .ok l limit

/-- Parse on from `node` at `a`, the `n`-th header; `fuel` headers at most. `frame` holds the window in its place. -/
def Dev.parseFrom : Nat → Dev → List Byte → Nat → Nat → Nat → Nat → Nat → Proto → Option Nat → Parse
  | 0, _, _, _, _, _, node, _, _, _ => { flags := fDEPTH, next := some node }
  | fuel + 1, d, frame, len, wEnd, n, node, a, proto, limit =>
    match d.testHdr frame len wEnd n node a limit with
    | .stop f => { flags := f, next := some node }
    | .ok l lim =>
      let width := d.getI uPRS PRS_NODE_NEXT.NEXT_WIDTH node
      let field := fieldOf (beAt frame (a + d.getI uPRS PRS_NODE_NEXT.NEXT_OFF node) 2)
        (d.getI uPRS PRS_NODE_NEXT.NEXT_SHIFT node) width
      let h : Hdr := ⟨node, a, l, field, proto⟩
      if width = 0 then { hdrs := [h] } else
      match d.transition node field with
      | none => { hdrs := [h], flags := if d.flagI uPRS PRS_NODE_LEN.TERMINAL_OK node then 0 else fUNKNOWN }
      | some t =>
        if ¬ d.nodeValid t then { hdrs := [h], flags := fUNKNOWN }
        else if a + l = len then { hdrs := [h] }
        else
          let r := Dev.parseFrom fuel d frame len wEnd (n + 1) t (a + l)
            (nextProto frame (d.etherNode t) h (a + l)) lim
          { r with hdrs := h :: r.hdrs }

/-- The bytes a pass sees: the window, with what lies outside it read as 0. -/
def windowOf (body : List Byte) (o : Nat) : List Byte :=
  List.replicate o 0 ++ (body.drop o).take (winEnd o body.length - o)

/-- Parse a window that starts at `o` with the header of `first` (R109, R110). -/
def Dev.parse (d : Dev) (body : List Byte) (o first counted : Nat) (proto : Proto) : Parse :=
  if ¬ d.nodeValid first then { flags := fUNKNOWN, next := none }
  else d.parseFrom 25 (windowOf body o) body.length (winEnd o body.length) counted first o proto none

/-- Was a node marked PTP parsed, and where (R114)? -/
def Dev.ptpHdr (d : Dev) (p : Parse) : Option Hdr := p.hdrs.find? (fun h => d.flagI uPRS PRS_NODE_LEN.PTP h.node)

/-! ### The first headers of a window -/

/-- What stages 0 to 7 read of the first headers: the outer VLAN ID (0 untagged), the EtherType after the tags and where the
next header begins. A packet that no longer begins with Ethernet has no tags; its type follows from what it begins with. -/
structure Front where
  vlan : Nat
  etype : Nat
  l3 : Nat
  deriving DecidableEq, Repr

def typeOfProto (p : Proto) : Nat :=
  match p with
  | .ip4 => 0x0800
  | .ip6 => 0x86DD
  | .mpls => 0x8847
  | _ => 0

/-- The front of a packet, from the headers that the parse found: the tags are the VLAN headers right after Ethernet, and the type is the
next-header field of the last of them (R109). Without a header there is none. -/
def frontOf (frame : List Byte) (hs : List Hdr) : Front :=
  match hs with
  | [] => ⟨0, 0, 0⟩
  | h :: hs =>
    if h.proto = .eth then
      let tags := hs.takeWhile (fun g => g.proto == .vlan)
      let last := tags.getLast?.getD h
      ⟨(tags.head?.map (fun g => beAt frame g.off 2 % 4096)).getD 0, last.field, last.off + last.len⟩
    else ⟨0, typeOfProto h.proto, h.off⟩

/-- Protocol of the first header of a bare packet (R165, R216). -/
def bareProto (bytes : List Byte) (o : Nat) : Proto := protoOfNibble ((slice bytes o 1).headD 0)

/-! ### Fragments (R115, R116) -/

/-- A fragment: whether its offset is zero, and its key: family, source, destination, identification and protocol. -/
structure Frag where
  firstFrag : Bool
  key : Key
  deriving DecidableEq, Repr

/-- The fragment that a header makes, `six` being the last IPv6 header before it (R115, R116). A FRAG_KIND 2 header that no IPv6 header
precedes in the pass has no addresses the manual names: that they are then read at bytes 8 and 24 of the header itself is the model's
choice. -/
def Dev.fragOf (d : Dev) (frame : List Byte) (six : Option Hdr) (h : Hdr) : Option Frag :=
  match d.getI uPRS PRS_NODE_CHECK.FRAG_KIND h.node with
  | 1 =>
    let w := beAt frame (h.off + 6) 2
    if w % 0x4000 = 0 then none
    else some ⟨w % 0x2000 == 0, [4, beAt frame (h.off + 12) 4, beAt frame (h.off + 16) 4, beAt frame (h.off + 4) 2,
      beAt frame (h.off + 9) 1]⟩
  | 2 =>
    let w := beAt frame (h.off + 2) 2
    if w / 8 = 0 ∧ w % 2 = 0 then none
    else
      let s := (six.map (·.off)).getD h.off
      some ⟨w / 8 == 0, [6, beAt frame (s + 8) 16, beAt frame (s + 24) 16, beAt frame (h.off + 4) 4, beAt frame h.off 1]⟩
  | _ => none

/-- The outermost fragmented IP header of a pass. Each pass decides fragment status anew: once a strip has removed the outermost fragmented
header, an inner one counts as the outermost (the model's choice: R115 speaks of the headers of the pass). -/
def Dev.findFrag (d : Dev) (frame : List Byte) : List Hdr → Option Hdr → Option Frag
  | [], _ => none
  | h :: hs, six =>
    match d.fragOf frame six h with
    | some f => some f
    | none => Dev.findFrag d frame hs (if h.proto = .ip6 then some h else six)

/-- Bytes of a fragment key that its set is computed from (R116). -/
def fragKeyBytes (k : Key) : List Byte :=
  let a := if k.getD 0 0 = 4 then 4 else 16
  beBytes a (k.getD 1 0) ++ beBytes a (k.getD 2 0) ++ beBytes (if k.getD 0 0 = 4 then 2 else 4) (k.getD 3 0)
  ++ beBytes 1 (k.getD 4 0)

/-- Set of a fragment key (R116). -/
def Dev.fragSet (d : Dev) (k : Key) : Nat := crc32c (d.get uTBE TBE_HASH_SEED.SEED1) (fragKeyBytes k) % 4096

/-! ### Extracts (R125) -/

/-- Metadata that extracts may read. -/
structure Meta where
  port : Nat
  flags : Nat
  stamp : Nat
  pass : Nat
  tag : Nat
  deriving DecidableEq, Repr

/-- The value of one extract descriptor. A word whose first byte lies in its header and whose second lies beyond yields 0 as one wholly
beyond does: the model's choice, since R125 speaks of the word. -/
def extract (frame : List Byte) (hs : List Hdr) (m : Meta) (x : Nat) : Nat :=
  if bit x 15 then
    match bits x 14 8 with
    | 0 => m.port
    | 1 => m.flags
    | 2 => (List.range 16).foldl (fun v i => if hs.any (fun h => h.node == i) then v + 2 ^ i else v) 0
    | 3 => (List.range 16).foldl (fun v i => if hs.any (fun h => h.node == 16 + i) then v + 2 ^ i else v) 0
    | 4 => (List.range 16).foldl (fun v i => if hs.any (fun h => h.node == 32 + i) then v + 2 ^ i else v) 0
    | 5 => (List.range 16).foldl (fun v i => if hs.any (fun h => h.node == 48 + i) then v + 2 ^ i else v) 0
    | 6 => m.stamp + 16 * m.pass
    | 7 => m.tag
    | _ => 0
  else
    let found := hs.filter (fun h => h.node == bits x 14 9)
    match (if bit x 8 then found.getLast? else found.head?) with
    | none => 0
    | some h => if h.len < bits x 7 0 + 2 then 0 else beAt frame (h.off + bits x 7 0) 2

/-- Extract descriptor `i` of a key profile. -/
def Dev.descriptor (d : Dev) (profile i : Nat) : Nat :=
  let j := 16 * profile + i / 4
  match i % 4 with
  | 0 => d.getI uCLS CLS_KEY_PROFILE.EXTRACT0 j
  | 1 => d.getI uCLS CLS_KEY_PROFILE.EXTRACT1 j
  | 2 => d.getI uCLS CLS_KEY_PROFILE.EXTRACT2 j
  | _ => d.getI uCLS CLS_KEY_PROFILE.EXTRACT3 j

/-- A key of `160 * 2^width` bits, extract 0 in bits [15:0]. -/
def Dev.classKey (d : Dev) (profile width : Nat) (frame : List Byte) (hs : List Hdr) (m : Meta) : Nat :=
  (List.range (10 * 2 ^ width)).foldl (fun k i => k + extract frame hs m (d.descriptor profile i) * 2 ^ (16 * i)) 0

/-! ### GRAPH_WRITE (R109, R142) -/

/-- What a graph register names: ROOT_NODE (index none) or a valid transition, with its node. -/
def Dev.graphRefs (d : Dev) : List (Option Nat × Nat) :=
  (none, d.get uPRS PRS_CFG.ROOT_NODE)
  :: ((List.range 256).filter (fun t => d.flagI uPRS PRS_TRANS.VALID t)).map (fun t => (some t, d.getI uPRS PRS_TRANS.TO_NODE t))

/-- References that name a node without VALID. -/
def Dev.badRefs (d : Dev) : List (Option Nat × Nat) := d.graphRefs.filter (fun r => !d.nodeValid r.2)

/-- Raise GRAPH_INVALID for every reference that a write has newly made bad; `before` are those that were bad before it. -/
def Dev.raiseGraph (d : Dev) (before : List (Option Nat × Nat)) : Dev :=
  (d.badRefs.filter (fun r => !before.contains r)).foldl
    (fun d r => d.raise uPRS 0x10 (leBytes 1 r.2 ++ leBytes 2 (r.1.getD 0xFFFF))) d

end Sys2Proof.Machine
end

