-- ==== Sys2Proof/Machine/Classifier.lean ====
section
/-! DEFINITION. The classifier: partitions, searches, generations, bank failures and punt queues (R117–R143). -/
namespace Sys2Proof.Machine

/-- A field of a register value. -/
def fieldIn (f : Fld) (v : Nat) : Nat := bits v (f.lo + f.width - 1) f.lo

/-- A field of a register value, or what it held where the value is a code above the largest named one (R555). -/
def fieldOr (f : Fld) (v top old : Nat) : Nat := if fieldIn f v ≤ top then fieldIn f v else old

def clearBits (m n : Nat) : Nat := m &&& (2 ^ 64 - 1 - n % 2 ^ 64)

/-! ### Partitions (R120–R122) -/

def Dev.bankMask (d : Dev) (p : Nat) : Nat := d.getI uCLS CLS_PART_CFG.BANK_MASK p

/-- Does a partition own a bank: its bit is set, and in no lower-numbered partition (R121)? -/
def Dev.ownsBank (d : Dev) (p b : Nat) : Bool :=
  bit (d.bankMask p) b && (List.range p).all (fun q => !bit (d.bankMask q) b)

/-- A partition's banks, ascending. -/
def Dev.partBanks (d : Dev) (p : Nat) : List Nat := (List.range 12).filter (d.ownsBank p)

def Dev.partWidth (d : Dev) (p : Nat) : Nat := d.getI uCLS CLS_PART_CFG.WIDTH p

/-- Entries of a partition in one bank. -/
def Dev.perBank (d : Dev) (p : Nat) : Nat := 4096 / 2 ^ d.partWidth p

def Dev.partCapacity (d : Dev) (p : Nat) : Nat := (d.partBanks p).length * d.perBank p

def Dev.perLateral (d : Dev) (p : Nat) : Bool := d.flagI uCLS CLS_PART_CFG.LAYOUT p

/-- Under which lateral a partition keeps what lateral `l` searches (R122). -/
def Dev.ruleLat (d : Dev) (p l : Nat) : Nat := if d.perLateral p then l else 0

def Dev.actSlot (d : Dev) (p : Nat) : Nat := d.getI uCLS CLS_PART_STATE.ACT_SLOT p
def Dev.swapDraining (d : Dev) (p : Nat) : Bool := d.flagI uCLS CLS_PART_STATE.DRAINING p
def Dev.actEpoch (d : Dev) (p : Nat) : Nat := d.getI uCLS CLS_PART_STATE.ACT_EPOCH p
def Dev.curEpoch (d : Dev) : Nat := d.get uCLS CLS_EPOCH.CUR_EPOCH

/-- Valid entries of a slot: index and entry, ascending, as lateral `l` sees them. -/
def Dev.rulesOf (d : Dev) (p slot l : Nat) : List (Nat × ClsEntry) :=
  (d.fwd.rules.filter (fun e => e.1.take 3 == [p, slot, d.ruleLat p l])).map (fun e => (e.1.getD 3 0, e.2))

/-- Valid entries of a slot, summed over laterals: every lateral holds each entry of a replicated partition. -/
def Dev.validIn (d : Dev) (p slot : Nat) : Nat :=
  (d.fwd.rules.filter (fun e => e.1.take 2 == [p, slot])).length * (if d.perLateral p then 1 else 4)

def Dev.holdsRules (d : Dev) (p : Nat) : Bool := d.validIn p 0 + d.validIn p 1 != 0

/-- Show the counts of valid entries. -/
def Dev.showValid (d : Dev) (p : Nat) : Dev :=
  (d.setI uCLS CLS_PART_STATE.VALID_A p (d.validIn p 0)).setI uCLS CLS_PART_STATE.VALID_B p (d.validIn p 1)

/-- Unit of a bank. -/
def uBank (l b : Nat) : Nat := 1184 + 12 * l + b

/-- Does the lateral's spare array stand in for a bank that has handed its entries over (R386)? -/
def Dev.bankReplaced (d : Dev) (l b : Nat) : Bool :=
  d.flagI uCLS CLS_SPARE.USED l && d.getI uCLS CLS_SPARE.BANK l == b && (d.rid.carried.get? [uBank l b]).isSome

/-- Is a bank lost in a lateral: failed or out of service, with no spare array in its place (R130)? -/
def Dev.bankFailed (d : Dev) (l b : Nat) : Bool :=
  [sFAILED, sRETIRED, sOUT, sSHADOW].contains (d.svc (uBank l b)) && !d.bankReplaced l b

/-- Has a partition failed in a lateral by one of its banks? It stays so, whatever becomes of the bank, until a BANK_MASK leaves the bank
out (R130). -/
def Dev.partFailedIn (d : Dev) (p l : Nat) : Bool := d.fwd.failedIn.any (fun e => e.part == p && e.lat == l)

/-- FAILED of a partition: one of its banks has failed in some lateral. -/
def Dev.showFailed (d : Dev) (p : Nat) : Dev :=
  d.setFlagI uCLS CLS_PART_STATE.FAILED p (d.fwd.failedIn.any (fun e => e.part == p))

/-- What the partitions' settings are now. -/
def Dev.partCfgs (d : Dev) : List PartCfg :=
  (List.range 16).map (fun p =>
    { passEn := d.getI uCLS CLS_PART_CFG.PASS_EN p, missDisp := d.getI uCLS CLS_PART_CFG.MISS_DISP p
      missQueue := d.getI uCLS CLS_PART_CFG.MISS_QUEUE p, failMode := d.flagI uCLS CLS_PART_CFG.FAIL_MODE p })

/-- The settings of a partition that a packet was dispatched under. -/
def partOf (cfgs : List PartCfg) (p : Nat) : PartCfg := cfgs.getD p {}

/-! ### One search (R123, R124, R126, R131) -/

/-- Which slot a pass of a stamp searches (R131). -/
def Dev.slotFor (d : Dev) (p stamp : Nat) : Nat :=
  if d.swapDraining p ∧ (d.curEpoch + 16 - d.actEpoch p) % 16 < (stamp + 16 - d.actEpoch p) % 16 then 1 - d.actSlot p
  else d.actSlot p

/-- A partition's outcome on a pass. -/
inductive PartOut
  | hit (action : List Byte)
  | miss
  | failedDrop
  deriving DecidableEq, Repr

def ClsEntry.hits (e : ClsEntry) (key : Nat) : Bool := ((key ^^^ e.key) &&& e.mask) == 0

/-- Search one partition: its outcome, and the index that won. -/
def Dev.searchPart (d : Dev) (cfgs : List PartCfg) (p l stamp key : Nat) : PartOut × Option Nat :=
  if d.partFailedIn p l then (if (partOf cfgs p).failMode then .miss else .failedDrop, none)
  else
    match (d.rulesOf p (d.slotFor p stamp) l).find? (fun e => e.2.hits key) with
    | none => (.miss, none)
    | some e => (.hit e.2.action, some e.1)

/-- Disposition of an outcome. -/
def outDisp (cfgs : List PartCfg) (p : Nat) (o : PartOut) : Nat :=
  match o with
  | .hit a => leAt a 0 1 % 8
  | .miss => (partOf cfgs p).missDisp
  | .failedDrop => 1

/-- A field of the lowest-numbered partition that matched with the field's valid bit set. -/
def firstField (outs : List (Nat × PartOut)) (off hi lo valid : Nat) : Option Nat :=
  outs.findSome? (fun o => match o.2 with
    | .hit a => if bit (leAt a off 4) valid then some (bits (leAt a off 4) hi lo) else none
    | _ => none)

/-- The outcome of the lowest-numbered partition with a disposition. -/
def outWith (cfgs : List PartCfg) (outs : List (Nat × PartOut)) (disp : Nat) : Option (Nat × PartOut) :=
  outs.find? (fun o => outDisp cfgs o.1 o.2 == disp)

/-- Bytes of an outcome's action record; a miss has none. -/
def PartOut.bytes : PartOut → List Byte
  | .hit a => a
  | _ => []

/-- Combine the partitions' outcomes, in ascending partition order (R124). -/
def combine (cfgs : List PartCfg) (outs : List (Nat × PartOut)) : ClsAction :=
  let disp := (([1, 2, 3, 4].find? (fun x => (outWith cfgs outs x).isSome))).getD 0
  let w := outWith cfgs outs disp
  let a := (w.map (fun o => o.2.bytes)).getD []
  { disp := disp
    cls := firstField outs 0 6 4 3
    meter := firstField outs 4 19 0 20
    counter := firstField outs 8 24 0 25
    puntQ := if disp ≠ 2 then 0 else match w with
      | some (p, .miss) => (partOf cfgs p).missQueue
      | _ => leAt a 1 1 % 64
    tag := if disp = 3 then leAt a 2 2 else 0
    strip := if disp = 3 ∧ bit (leAt a 0xC 4) 26 then some (bits (leAt a 0xC 4) 25 20) else none
    nextHop := if disp = 4 then bits (leAt a 0xC 4) 19 0 else 0
    failed := match w with
      | some (_, .failedDrop) => true
      | _ => false }

/-- Partitions searched on a pass: those whose PASS_EN has the pass's kind (R123). -/
def searched (cfgs : List PartCfg) (pass : Nat) : List Nat :=
  (List.range 16).filter (fun p => bit (partOf cfgs p).passEn (if pass = 0 then 0 else 1))

/-- Count searches and hits in the banks of a lateral (R144). That the banks of a failed partition, which is searched and misses, count the search
too is the model's choice. -/
def Dev.countSearch (d : Dev) (p l : Nat) (won : Option Nat) : Dev :=
  (d.partBanks p).zipIdx.foldl (fun d b =>
    let d := d.tally (uBank l b.1) 0x20 1
    if won.map (· / d.perBank p) = some b.2 then d.tally (uBank l b.1) 0x21 1 else d) d

/-- Stage 1: search every enabled partition and combine; true when every searched partition missed. -/
def Dev.classify (d : Dev) (cfgs : List PartCfg) (l stamp : Nat) (frame : List Byte) (hs : List Hdr) (m : Meta) : Dev × ClsAction × Bool :=
  let rs := (searched cfgs m.pass).map (fun p =>
    (p, d.searchPart cfgs p l stamp (d.classKey (d.getI uCLS CLS_PART_CFG.KEY_PROFILE p) (d.partWidth p) frame hs m)))
  let outs := rs.map (fun r => (r.1, r.2.1))
  (rs.foldl (fun d r => d.countSearch r.1 l r.2.2) d, combine cfgs outs, outs.all (fun o => o.2 == .miss))

/-! ### Stamps in flight (R131, R133, R134) -/

/-- Packets in a lateral's windows and siphon whose final pass has not ended. -/
def Dev.inLaterals (d : Dev) : List Pkt :=
  ((d.fwd.windows.map (·.2)).flatten.filter (fun k => !k.committed)) ++ (d.fwd.siphon.map (·.2)).flatten

/-- How many stamps ago the oldest packet in flight was stamped. -/
def Dev.oldestAge (d : Dev) : Nat :=
  d.inLaterals.foldl (fun m k => max m ((d.curEpoch + 16 - k.stamp) % 16)) 0

/-- Keep OLDEST and WINDOW_FULL of CLS_EPOCH. -/
def Dev.showEpoch (d : Dev) : Dev :=
  let a := d.oldestAge
  (d.set uCLS CLS_EPOCH.OLDEST ((d.curEpoch + 16 - a) % 16)).setFlag uCLS CLS_EPOCH.WINDOW_FULL (a == 15)

/-! ### RULE_WRITE, RULE_INVALIDATE, RULESET_SWAP (R132, R133, R139–R141) -/

/-- The slot a command's GEN names (R132). -/
def Dev.genSlot (d : Dev) (c : HCmd) : Nat :=
  if c.par 0 4 4 = 1 then 1 - d.actSlot (c.par 0 3 0) else d.actSlot (c.par 0 3 0)

/-- The laterals whose entries a command writes: those of LATERAL_MASK, or all alike. -/
def Dev.ruleLats (d : Dev) (c : HCmd) : List Nat :=
  if d.perLateral (c.par 0 3 0) then (List.range 4).filter (bit (c.par 1 3 0)) else [0]

/-- Parameters that RULE_WRITE and RULE_INVALIDATE share. -/
def Dev.rulePars (d : Dev) (c : HCmd) : List Param :=
  let p := c.par 0 3 0
  [c.must 0 3 0 (fun p => !(d.partBanks p).isEmpty), pAny 0 4 4, c.zero 0 7 5,
   c.must 1 3 0 (fun m => !d.perLateral p || m != 0), c.zero 1 7 4, c.must 2 15 0 (fun i => decide (i < d.partCapacity p))]

/-- A rule command that R132 sends back. -/
def Dev.ruleRetry (d : Dev) (c : HCmd) : Bool := c.par 0 4 4 == 1 && d.swapDraining (c.par 0 3 0)

/-- Reserved bits and codes of an action record (R126). -/
def actionOk (a : List Byte) : Bool :=
  decide (leAt a 0 1 % 8 ≤ 4) && !bit (leAt a 0 1) 7 && decide (leAt a 1 1 < 64) && decide (leAt a 4 4 < 2 ^ 21)
  && decide (leAt a 8 4 < 2 ^ 26) && decide (leAt a 12 4 < 2 ^ 27)

/-- Put a rule in its place, or take it out. -/
def Dev.putRule (d : Dev) (p slot l i : Nat) (e : Option ClsEntry) : Dev :=
  { d with fwd := { d.fwd with rules := d.fwd.rules.put [p, slot, l, i] e } }

/-- Parameter table of RULE_WRITE (R139). -/
def Dev.ruleWriteParams (d : Dev) (c : HCmd) : List Param :=
  d.rulePars c ++ [pAny 8 63 0]

/-- RULE_WRITE (0x0201). -/
def Dev.ruleWrite (d : Dev) (c : HCmd) : Dev :=
  let p := c.par 0 3 0
  let n := 20 * 2 ^ d.partWidth p
  let action := slice c.block (2 * n) 16
  d.commandNow c 0x0201 (d.ruleWriteParams c) (fun d =>
    if d.svc uCLS ≠ sACTIVE then (d, .fail stUNIT_UNAVAILABLE)
    else if d.flagI uCLS CLS_PART_STATE.FAILED p then (d, .fail stUNIT_UNAVAILABLE)
    else if d.ruleRetry c then (d, .fail stRETRY_LATER)
    else if ¬ c.readOk then (d.dmaFailed, .fail stDATA_ERROR)
    else
      let slot := d.genSlot c
      let i := c.par 2 15 0
      let d := (d.ruleLats c).foldl (fun d l => d.putRule p slot l i (some (ClsEntry.mk (leAt c.block 0 n) (leAt c.block n n) action))) d
      let bank := (d.partBanks p).getD (i / d.perBank p) 0
      let ls := if d.perLateral p then d.ruleLats c else List.range 4
      let d := ls.foldl (fun d l => d.tally (uBank l bank) 0x22 1) d
      (d.showValid p, .ok)) (blk := actionOk action)

/-- Parameter table of RULE_INVALIDATE (R140). -/
def Dev.ruleInvalidateParams (d : Dev) (c : HCmd) : List Param :=
  d.rulePars c ++ [c.must 4 12 0 (fun n => decide (1 ≤ n ∧ n ≤ 4096
   ∧ c.par 2 15 0 + n ≤ d.partCapacity (c.par 0 3 0))), c.zero 4 31 13]

/-- RULE_INVALIDATE (0x0202). -/
def Dev.ruleInvalidate (d : Dev) (c : HCmd) : Dev :=
  d.commandNow c 0x0202 (d.ruleInvalidateParams c) (fun d =>
    let p := c.par 0 3 0
    if d.svc uCLS ≠ sACTIVE then (d, .fail stUNIT_UNAVAILABLE)
    else if d.ruleRetry c then (d, .fail stRETRY_LATER)
    else
      let slot := d.genSlot c
      let ls := d.ruleLats c
      let lo := c.par 2 15 0
      let gone (k : Key) : Bool := k.take 2 == [p, slot] && ls.contains (k.getD 2 0) && decide (lo ≤ k.getD 3 0)
        && decide (k.getD 3 0 < lo + c.par 4 12 0)
      let d := { d with fwd := { d.fwd with rules := d.fwd.rules.filter (fun e => !gone e.1) } }
      (d.showValid p, .ok))

/-- Parameter table of RULESET_SWAP (R133). -/
def Dev.rulesetSwapParams (d : Dev) (c : HCmd) : List Param :=
  [c.must 0 3 0 (fun p => !(d.partBanks p).isEmpty), c.zero 0 7 4]

/-- RULESET_SWAP (0x0203): the swap itself; it completes at SWAP_DONE (R133, R134). -/
def Dev.rulesetSwap (d : Dev) (c : HCmd) : Dev :=
  d.command c 0x0203 (d.rulesetSwapParams c) (fun d =>
    let p := c.par 0 3 0
    if d.svc uCLS ≠ sACTIVE then (d, some (.fail stUNIT_UNAVAILABLE))
    else if d.swapDraining p ∨ d.oldestAge = 15 then (d, some (.fail stRETRY_LATER))
    else
      let e := (d.curEpoch + 1) % 16
      let d := (d.set uCLS CLS_EPOCH.CUR_EPOCH e).setI uCLS CLS_PART_STATE.ACT_EPOCH p e
      let d := (d.setI uCLS CLS_PART_STATE.ACT_SLOT p (1 - d.actSlot p)).setI uCLS CLS_PART_STATE.DRAINING p 1
      (({ d with fwd := { d.fwd with swaps := d.fwd.swaps ++ [Swap.mk p c.ticket] } }).showEpoch, none))

/-- Does a packet in flight still search a partition's draining slot? -/
def Dev.slotBusy (d : Dev) (p : Nat) : Bool :=
  d.inLaterals.any (fun k => d.slotFor p k.stamp != d.actSlot p)

/-- SWAP_DONE: no packet stamped before the swap is left (R133). -/
def Dev.swapDone (d : Dev) (p : Nat) : Dev :=
  if d.swapDraining p ∧ ¬ d.slotBusy p then
    let old := 1 - d.actSlot p
    let d := { d with fwd := { d.fwd with rules := d.fwd.rules.filter (fun e => !(e.1.take 2 == [p, old])) } }
    let d := (d.setI uCLS CLS_PART_STATE.DRAINING p 0).showValid p
    let e := d.actEpoch p
    let d := d.raise uCLS 0x10 (leBytes 1 p ++ leBytes 1 e)
    let mine := d.fwd.swaps.filter (fun s => s.part == p)
    let d := { d with fwd := { d.fwd with swaps := d.fwd.swaps.filter (fun s => !(s.part == p)) } }
    mine.foldl (fun d s => d.finish s.ticket (.ok e)) d
  else d

/-! ### PART_CFG_WRITE (R121, R130, R143) -/

/-- An index within a partition after banks have been left out: none for an entry of a bank left out. -/
def reindex (before after : List Nat) (per i : Nat) : Option Nat :=
  match before[i / per]? with
  | none => none
  | some b => (after.findIdx? (· == b)).map (fun j => j * per + i % per)

/-- Move a partition's entries to their indexes after banks have been left out. -/
def Dev.reindexPart (d : Dev) (p : Nat) (before after : List Nat) : Dev :=
  let per := d.perBank p
  let mine := d.fwd.rules.filter (fun e => e.1.headD 0 == p)
  let rest := d.fwd.rules.filter (fun e => !(e.1.headD 0 == p))
  { d with fwd := { d.fwd with rules := mine.foldl (fun t e =>
      match reindex before after per (e.1.getD 3 0) with
      | none => t
      | some j => t.insert (e.1.take 3 ++ [j]) e.2) rest } }

/-- Every bank of every lateral, beside every partition. -/
def allParts : List FailedPart :=
  (List.range 16).flatMap (fun p => (List.range 4).flatMap (fun l => (List.range 12).map (fun b => ⟨p, l, b⟩)))

/-- Partitions fail by banks. -/
def Dev.failParts (d : Dev) (es : List FailedPart) : Dev :=
  { d with fwd := { d.fwd with failedIn := d.fwd.failedIn ++ es.filter (fun e => !d.fwd.failedIn.contains e) } }

/-- A write of CLS_PART_CFG. Where it takes a shared bank out of a lower partition's mask, and so gives it to a higher one that holds entries, it is
accepted and those entries keep their indexes: the model's choice, R143 speaks of the partition written. -/
def Dev.partCfgWrite (d : Dev) (p v : Nat) : Dev :=
  if 16 ≤ p then d else
  let mask := fieldIn CLS_PART_CFG.BANK_MASK v
  let old := d.bankMask p
  let width := fieldOr CLS_PART_CFG.WIDTH v 2 (d.partWidth p)
  let same := width == d.partWidth p && fieldIn CLS_PART_CFG.LAYOUT v == d.getI uCLS CLS_PART_CFG.LAYOUT p
    && fieldIn CLS_PART_CFG.KEY_PROFILE v == d.getI uCLS CLS_PART_CFG.KEY_PROFILE p
  let gone := clearBits old mask
  let added := clearBits mask old
  let onlyFailed : Bool := same && added == 0 && gone != 0
    && (List.range 12).all (fun b => !bit gone b || (List.range 4).any (fun l => d.bankFailed l b)
        || d.fwd.failedIn.any (fun e => e.part == p && e.bank == b))
  let takes : Bool := (List.range 16).any (fun q => q != p && d.holdsRules q
    && (List.range 12).any (fun b => bit added b && d.ownsBank q b))
  if takes ∨ (d.holdsRules p ∧ ¬ onlyFailed ∧ (¬ same ∨ mask ≠ old)) then d.raise uCLS 0x12 (leBytes 1 p)
  else
    let before := d.partBanks p
    let owned (d : Dev) (e : FailedPart) : Bool := d.ownsBank e.part e.bank
    let earlier := d
    let d := d.setI uCLS CLS_PART_CFG.BANK_MASK p mask
    let d := d.failParts ((allParts.filter (fun e => owned d e && !owned earlier e)).filter (fun e => d.bankFailed e.lat e.bank))
    let d := { d with fwd := { d.fwd with failedIn := d.fwd.failedIn.filter (owned d) } }
    let d := if mask = old then d else d.reindexPart p before (d.partBanks p)
    let d := (d.setI uCLS CLS_PART_CFG.WIDTH p width).setI uCLS CLS_PART_CFG.LAYOUT p (fieldIn CLS_PART_CFG.LAYOUT v)
    let d := d.setI uCLS CLS_PART_CFG.KEY_PROFILE p (fieldIn CLS_PART_CFG.KEY_PROFILE v)
    let d := d.setI uCLS CLS_PART_CFG.PASS_EN p (fieldIn CLS_PART_CFG.PASS_EN v)
    let d := d.setI uCLS CLS_PART_CFG.FAIL_MODE p (fieldIn CLS_PART_CFG.FAIL_MODE v)
    let d := d.setI uCLS CLS_PART_CFG.MISS_DISP p (fieldOr CLS_PART_CFG.MISS_DISP v 2 (d.getI uCLS CLS_PART_CFG.MISS_DISP p))
    let d := d.setI uCLS CLS_PART_CFG.MISS_QUEUE p (fieldIn CLS_PART_CFG.MISS_QUEUE v)
    let d := (List.range 16).foldl Dev.showFailed (d.showValid p)
    (List.range 16).foldl (fun d q =>
      let both := added &&& d.bankMask q
      if q ≠ p ∧ both ≠ 0 then d.raise uCLS 0x11 (leBytes 1 (max p q) ++ leBytes 2 both) else d) d

/-! ### Parity repair, the spare array and failed banks (R128–R130) -/

/-- A bank is lost in a lateral: the partitions that own it fail there, and the classifier has lost capacity (R130). -/
def Dev.bankLost (d : Dev) (l b : Nat) : Dev :=
  let d := (List.range 16).foldl (fun d p =>
    if d.ownsBank p b then
      ((d.failParts [⟨p, l, b⟩]).showFailed p).raise uCLS 0x13 (leBytes 1 p ++ leBytes 1 l ++ leBytes 1 b)
    else d) d
  let d := { d with draws := d.draws + 1, rid := { d.rid with carried := d.rid.carried.erase [uBank l b] } }
  (d.setCapacity uCLS (Config.bankFigure d.draws % 1000000)).sparesExhausted uCLS (uBank l b)

/-- The classifier's figure follows its banks: full without a lost one, else a free value (R53, R130). -/
def Dev.showBanks (d : Dev) : Dev :=
  if (List.range 4).all (fun l => (List.range 12).all (fun b => !d.bankFailed l b)) then d.setFigure uCLS none
  else { d with draws := d.draws + 1 }.setCapacity uCLS (Config.bankFigure d.draws % 1000000)

/-- The lateral's spare array takes a failed bank array's place (R129). -/
def Dev.bankSpare (d : Dev) (l b : Nat) : Dev :=
  ((d.setI uCLS CLS_SPARE.USED l 1).setI uCLS CLS_SPARE.BANK l b).raise (uBank l b) 0x10 (leBytes 1 l ++ leBytes 1 b)

/-- A returned bank takes its entries back, and the lateral's spare array is free again (R390). -/
def Dev.spareFreed (d : Dev) (l : Nat) : Dev := (d.setI uCLS CLS_SPARE.USED l 0).setI uCLS CLS_SPARE.BANK l 0

/-- A bank's array is declared failed: the spare array takes its place, or, with the spare in use, the bank fails (R129,
R130). -/
def Dev.bankFail (d : Dev) (l b cause : Nat) : Dev :=
  if d.flagI uCLS CLS_SPARE.USED l then (d.failSelf (uBank l b) cause).bankLost l b
  else (d.bankSpare l b).ownFault (uBank l b) cause

/-- Lateral and bank of a bank unit. -/
def latOfBank (un : Nat) : Nat := (un - 1184) / 12
def bankOf (un : Nat) : Nat := (un - 1184) % 12

/-- Copies in an F-side region may lie in rows that deep-sleep has lost (R350). -/
def Dev.copiesLost (d : Dev) (r : Region) : Bool := d.dram.lostRows.any (fun x => decide (x.1 < 4) && x.2 == r.base / 2 ^ 31)

/-- An entry rewritten from a copy whose row was lost holds anything. -/
def Dev.fromLostCopy (d : Dev) (l b i : Nat) : Dev :=
  if ¬ d.copiesLost clsCopyRegion then d else
  let v := Config.rowData d.draws
  let at_ (k : Key) : Bool := (d.partBanks (k.headD 0)).idxOf? b == some (k.getD 3 0 / d.perBank (k.headD 0))
    && k.getD 2 0 == d.ruleLat (k.headD 0) l && k.getD 3 0 % d.perBank (k.headD 0) == i / 2 ^ d.partWidth (k.headD 0)
  { d with draws := d.draws + 1, fwd := { d.fwd with
    rules := d.fwd.rules.map (fun e => if at_ e.1 then (e.1, ⟨v 0, v 1, leBytes e.2.action.length (v 2)⟩) else e) } }

/-- An entry is rewritten from its copy and the repair counted (R128). -/
def Dev.repairEntry (d : Dev) (l b i : Nat) : Dev :=
  let d := d.fromLostCopy l b i
  (({ d with fwd := { d.fwd with repairs := d.fwd.repairs.insert [l, b, i] d.now } }).bump uCLS CLS_ENTRY_FIX.COUNT).tallyUp
    (uBank l b) 0x06 1

/-- CLS_ENTRY_REPAIR: an entry fails parity; a second failure within 1 s declares its bank's array failed (R128, R129). Lateral 4
stands for the egress classifier, whose repairs are counted alike and whose 8 banks are no units (R219). -/
def Dev.clsEntryRepair (d : Dev) (l b i : Nat) : Dev :=
  if l = 4 ∧ b < 8 ∧ i < 4096 then d.bump uCLS CLS_ENTRY_FIX.COUNT else
  if 4 ≤ l ∨ 12 ≤ b ∨ 4096 ≤ i ∨ d.bankFailed l b then d else
  match d.fwd.repairs.get? [l, b, i] with
  | some t =>
    if d.now < t + 1000000000 then
      ({ d with fwd := { d.fwd with repairs := d.fwd.repairs.erase [l, b, i] } }).bankFail l b 0x0002
    else d.repairEntry l b i
  | none => d.repairEntry l b i

/-- BANK_SPARED: a bank's array is declared failed while the lateral's spare is free. -/
def Dev.bankSpared (d : Dev) (l b : Nat) (selfTest : Bool) : Dev :=
  if l < 4 ∧ b < 12 ∧ ¬ d.bankFailed l b ∧ ¬ d.flagI uCLS CLS_SPARE.USED l then
    d.bankFail l b (if selfTest then 0x0006 else 0x0002)
  else d

/-- PARTITION_FAILED: a bank fails while the lateral's spare is in use. -/
def Dev.partitionFailed (d : Dev) (l b : Nat) (selfTest : Bool) : Dev :=
  if l < 4 ∧ b < 12 ∧ ¬ d.bankFailed l b ∧ d.flagI uCLS CLS_SPARE.USED l then
    d.bankFail l b (if selfTest then 0x0006 else 0x0002)
  else d

/-! ### Punt queues (R137) -/

/-- One packet of a policer's level. -/
def puntUnit : Nat := 2 ^ 16 * 1000000000

/-- A policer's level now: it gains continuously, up to BURST. -/
def Dev.puntLevel (d : Dev) (q : Nat) : Nat :=
  let full := d.actI uCLS PNT_Q_CFG.BURST q * puntUnit
  match d.fwd.policers.get? [q] with
  | none => full
  | some (l, t) => min full (l + d.getI uCLS PNT_Q_CFG.RATE_PPS q * 2 ^ 16 * (d.now - t))

def Dev.setPunt (d : Dev) (q level : Nat) : Dev :=
  { d with fwd := { d.fwd with policers := d.fwd.policers.insert [q] (level, d.now) } }

/-- Police a punt at the action stage: true when it may be delivered. -/
def Dev.puntPolice (d : Dev) (q : Nat) : Dev × Bool :=
  let l := d.puntLevel q
  if d.flagI uCLS PNT_Q_CFG.EN q ∧ d.getI uCLS PNT_Q_CFG.DEST q ≠ 3 ∧ d.getI uCLS PNT_Q_CFG.RATE_PPS q ≠ 0 ∧ puntUnit ≤ l then
    ((d.setPunt q (l - puntUnit)).bumpI uCLS PNT_PASS.COUNT q, true)
  else ((d.setPunt q l).bumpI uCLS PNT_DROP.COUNT q, false)

/-- PUNT_QUEUE_CFG_WRITE: the policer fills when EN goes from 0 to 1, and otherwise keeps its level, clipped to BURST. -/
def Dev.puntCfgWrite (d : Dev) (q v : Nat) : Dev :=
  if 64 ≤ q then d else
  let l := d.puntLevel q
  let opened : Bool := !d.flagI uCLS PNT_Q_CFG.EN q && fieldIn PNT_Q_CFG.EN v == 1
  let d := (d.setI uCLS PNT_Q_CFG.BURST q (fieldIn PNT_Q_CFG.BURST v)).setI uCLS PNT_Q_CFG.RATE_PPS q
    (fieldIn PNT_Q_CFG.RATE_PPS v)
  let d := (d.setI uCLS PNT_Q_CFG.TARGET q (fieldIn PNT_Q_CFG.TARGET v)).setI uCLS PNT_Q_CFG.DEST q (fieldIn PNT_Q_CFG.DEST v)
  let d := d.setI uCLS PNT_Q_CFG.EN q (fieldIn PNT_Q_CFG.EN v)
  let full := d.actI uCLS PNT_Q_CFG.BURST q * puntUnit
  d.setPunt q (if opened then full else min l full)

/-! ### The fragment table (R117–R119) -/

/-- 8 F-core cycles at 1.25 GHz are 6.4 ns: has an entry written at `t` become visible? -/
def fragShown (now t : Nat) : Bool := decide (64 ≤ 10 * (now - t))

/-- An entry with the writes that have become visible: each takes the place of the decision before it, and the age restarts then. -/
def FragEntry.settle (e : FragEntry) (now : Nat) : FragEntry :=
  { shown := (e.coming.filter (fun c => fragShown now c.2)).foldl
      (fun s c => some (c.1, 10 * c.2 + (if s.isSome then 64 else 0))) e.shown
    coming := e.coming.filter (fun c => !fragShown now c.2) }

/-- The decision that lookups find in an entry now. -/
def FragEntry.seen (e : FragEntry) (now : Nat) : Option FragDecision := (e.settle now).shown.map (·.1)

def Dev.showFrags (d : Dev) : Dev := d.set uPRS FRAG_OCCUPANCY.COUNT d.fwd.frags.length

/-- A first fragment writes its entry, or finds its set full (R117). -/
def Dev.fragWrite (d : Dev) (k : Key) (x : FragDecision) : Dev :=
  match d.fwd.frags.get? k with
  | some e =>
    let e := e.settle d.now
    ({ d with fwd := { d.fwd with frags := d.fwd.frags.insert k { e with coming := e.coming ++ [(x, d.now)] } } }).bump uPRS
      FRAG_CREATED.COUNT
  | none =>
    if 4 ≤ (d.fwd.frags.filter (fun e => d.fragSet e.1 == d.fragSet k)).length then
      let d := d.bump uPRS FRAG_FULL.COUNT
      d.raiseOnce uPRS 0x11 0 (fun _ => leBytes 4 (d.get uPRS FRAG_FULL.COUNT))
    else
      (({ d with fwd := { d.fwd with frags := d.fwd.frags.insert k ⟨none, [(x, d.now)]⟩ } }).bump uPRS
        FRAG_CREATED.COUNT).showFrags

/-- A later fragment looks its key up (R118). -/
def Dev.fragLookup (d : Dev) (k : Key) : Dev × Option FragDecision :=
  match (d.fwd.frags.get? k).bind (fun e => e.seen d.now) with
  | some x => ((d.bump uPRS FRAG_HIT.COUNT).tallyQ uPRS 0x23 1 (· == 1), some x)
  | none => ((d.bump uPRS FRAG_NO_ENTRY.COUNT).tallyQ uPRS 0x23 1 (· == 2), none)

/-- FRAG_SWEEP: entries whose age is TIMEOUT_MS or more age out; a write that is still to become visible makes a new entry (R119). -/
def Dev.fragSweep (d : Dev) : Dev :=
  let t := d.act uPRS PRS_FRAG_CFG.TIMEOUT_MS * 1000000
  if d.now < d.fwd.fragSweep + t / 8 then d else
  let old (e : FragEntry) : Bool := e.shown.any (fun c => decide (10 * t + c.2 ≤ 10 * d.now))
  let es := d.fwd.frags.map (fun e => (e.1, e.2.settle d.now))
  let n := (es.filter (fun e => old e.2)).length
  let left := (es.map (fun e => (e.1, if old e.2 then { e.2 with shown := none } else e.2))).filter
    (fun e => e.2.shown.isSome || !e.2.coming.isEmpty)
  (({ d with fwd := { d.fwd with frags := left, fragSweep := d.now } }).add uPRS
    FRAG_AGED.COUNT n).showFrags

/-! ### GRAPH_WRITE (R109) -/

/-- Store a graph register: PRS_CFG, a node's three registers or a transition, by frame offset. LEN_WIDTH and NEXT_WIDTH are
0–16; FRAG_KIND 3 is reserved. -/
def Dev.storeGraph (d : Dev) (off v : Nat) : Dev :=
  let put (d : Dev) (f : Fld) (i : Nat) : Dev := d.setI uPRS f i (fieldIn f v)
  if off = 0x400 then put d PRS_CFG.ROOT_NODE 0
  else if 0x1000 ≤ off ∧ off < 0x1800 then
    let n := (off - 0x1000) / 32
    if off % 32 = 0 then
      [PRS_NODE_LEN.VALID, PRS_NODE_LEN.TERMINAL_OK, PRS_NODE_LEN.PTP, PRS_NODE_LEN.FIXED_LEN, PRS_NODE_LEN.LEN_OFF,
        PRS_NODE_LEN.LEN_SHIFT, PRS_NODE_LEN.LEN_WIDTH, PRS_NODE_LEN.LEN_SCALE].foldl (fun d f => put d f n) d
    else if off % 32 = 8 then
      [PRS_NODE_NEXT.NEXT_OFF, PRS_NODE_NEXT.NEXT_SHIFT, PRS_NODE_NEXT.NEXT_WIDTH].foldl (fun d f => put d f n) d
    else if off % 32 = 16 then
      let d := [PRS_NODE_CHECK.TOTLEN_EN, PRS_NODE_CHECK.TOTLEN_OFF, PRS_NODE_CHECK.TOTLEN_ADD,
        PRS_NODE_CHECK.MIN_LEN].foldl (fun d f => put d f n) d
      d.setI uPRS PRS_NODE_CHECK.FRAG_KIND n
        (fieldOr PRS_NODE_CHECK.FRAG_KIND v 2 (d.getI uPRS PRS_NODE_CHECK.FRAG_KIND n))
    else d
  else if 0x1800 ≤ off ∧ off < 0x2000 ∧ off % 8 = 0 then
    let t := (off - 0x1800) / 8
    [PRS_TRANS.VALID, PRS_TRANS.FROM_NODE, PRS_TRANS.VALUE, PRS_TRANS.MASK, PRS_TRANS.TO_NODE].foldl (fun d f => put d f t) d
  else d

/-- A write of a graph register; a reference it newly makes bad raises GRAPH_INVALID. -/
def Dev.graphWrite (d : Dev) (off v : Nat) : Dev := (d.storeGraph off v).raiseGraph d.badRefs

def execGraphWrite (off value : Nat) (s : State) : Answer := s.go (·.graphWrite off value)
def execClsEntryRepair (lat bank index : Nat) (s : State) : Answer := s.go (·.clsEntryRepair lat bank index)
def execBankSpared (lat bank : Nat) (selfTest : Bool) (s : State) : Answer := s.go (·.bankSpared lat bank selfTest)
def execPartitionFailed (lat bank : Nat) (selfTest : Bool) (s : State) : Answer := s.go (·.partitionFailed lat bank selfTest)
def execRuleWrite (c : HCmd) (s : State) : Answer := s.go (·.ruleWrite c)
def execRuleInvalidate (c : HCmd) (s : State) : Answer := s.go (·.ruleInvalidate c)
def execRulesetSwap (c : HCmd) (s : State) : Answer := s.go (·.rulesetSwap c)
def execSwapDone (part : Nat) (s : State) : Answer := s.go (·.swapDone part)
def execPartCfgWrite (part value : Nat) (s : State) : Answer := s.go (·.partCfgWrite part value)
def execPuntQueueCfgWrite (queue value : Nat) (s : State) : Answer := s.go (·.puntCfgWrite queue value)
def execFragSweep (s : State) : Answer := s.go Dev.fragSweep

end Sys2Proof.Machine
end

