-- ==== Sys2Proof/Machine/Tables.lean ====
section
/-! DEFINITION. The table engine's tables: entry records, exact match, LPM and the indexed tables (R145–R187, R221, R556, R557). -/
namespace Sys2Proof.Machine

/-! ### Table codes and entry records (R177, R221) -/

def tLPM4 : Nat := 1
def tLPM6 : Nat := 2
def tL2 : Nat := 3
def tHOST4 : Nat := 4
def tHOST6 : Nat := 5
def tTUNNEL : Nat := 6
def tFLOW : Nat := 7
def tMPLS : Nat := 8
def tNH : Nat := 9
def tGROUP : Nat := 10
def tMEMBER : Nat := 11
def tVRF : Nat := 12
def tIFACE : Nat := 13
def tBD : Nat := 14

def isLpm (t : Nat) : Bool := t == 1 || t == 2
def isEm (t : Nat) : Bool := 3 ≤ t && t ≤ 7
def isIndexed (t : Nat) : Bool := 8 ≤ t && t ≤ 14

/-- The fields of an entry record. -/
structure EntRec where
  table : Nat
  static : Bool
  replace : Bool
  staged : Bool
  vrf : Nat
  len : Nat
  /-- the 40 key bytes and the 16 result bytes, least significant first -/
  key : Nat
  result : Nat
  /-- bits that must be 0 whatever the table -/
  stray : Bool
  deriving DecidableEq, Repr

def readRec (b : List Byte) : EntRec :=
  { table := leAt b 0 1, static := bit (leAt b 1 1) 0, replace := bit (leAt b 1 1) 1, staged := bit (leAt b 1 1) 2,
    vrf := leAt b 2 2, len := leAt b 4 1, key := leAt b 8 40, result := leAt b 48 16,
    stray := decide (8 ≤ leAt b 1 1) || decide (16 ≤ leAt b 5 1) || leAt b 6 2 != 0 }

/-- Bits of a byte string: (byte offset, high, low) fields as a mask. -/
def fieldMask (fs : List (Nat × Nat × Nat)) : Nat :=
  fs.foldl (fun m f => m ||| ((2 ^ (f.2.1 + 1 - f.2.2) - 1) * 2 ^ (8 * f.1 + f.2.2))) 0

/-- Key bits a table uses; addresses of IPv4 outers and flows take 4 bytes (R177, R221, R557). -/
def keyMask (t key : Nat) : Nat :=
  let v6T := bit (key / 2 ^ 8) 0
  let v6F := bit (key / 2 ^ 264) 0
  fieldMask (match t with
    | 1 => [(0, 31, 0)]
    | 2 => [(0, 127, 0)]
    | 3 => [(0, 47, 0)]
    | 4 => [(0, 31, 0)]
    | 5 => [(0, 127, 0)]
    | 6 => [(0, 7, 0), (1, 0, 0), (4, 31, 0), (8, if v6T then 127 else 31, 0)]
    | 7 => [(0, if v6F then 127 else 31, 0), (16, if v6F then 127 else 31, 0), (32, 7, 0), (33, 0, 0), (34, 15, 0), (36, 15, 0)]
    | 8 => [(0, 19, 0)]
    | 9 => [(0, 19, 0)]
    | 10 => [(0, 15, 0)]
    | 11 => [(0, 20, 0)]
    | 13 => [(0, 6, 0), (2, 11, 0)]
    | _ => [])

/-- Result bits a table uses. -/
def resultMask (t : Nat) : Nat :=
  fieldMask (match t with
    | 1 => [(0, 19, 0)]
    | 2 => [(0, 19, 0)]
    | 3 => [(0, 18, 0)]
    | 4 => [(0, 19, 0)]
    | 5 => [(0, 19, 0)]
    | 6 => [(0, 15, 0), (2, 15, 0), (4, 0, 0)]
    | 7 => [(0, 20, 0), (4, 25, 0), (8, 20, 0), (12, 3, 0)]
    | 8 => [(0, 2, 0), (1, 5, 0), (2, 15, 0), (4, 19, 0)]
    | 9 => [(0, 2, 0), (1, 5, 0), (4, 16, 0), (8, 22, 0)]
    | 10 => [(0, 20, 0), (4, 10, 0)]
    | 11 => [(0, 19, 0)]
    | 12 => [(0, 20, 0), (4, 20, 0), (8, 4, 0), (9, 0, 0), (10, 5, 0)]
    | 13 => [(0, 15, 0), (2, 15, 0), (4, 14, 0)]
    | 14 => [(0, 15, 0), (2, 1, 0), (3, 5, 0)]
    | _ => [])

/-- A field of a result: byte offset, high and low bit. -/
def resAt (r off hi lo : Nat) : Nat := bits (r / 2 ^ (8 * off)) hi lo

/-- An address of an LPM record, most significant bit first: an IPv4 address is a number already, an IPv6 address a byte
string (R557). -/
def addrOf (t key : Nat) : Nat := if t = 2 ∨ t = 5 then ofBe (leBytes 16 key) else key % 2 ^ 32

/-- Width of a family's addresses. -/
def addrBits (t : Nat) : Nat := if t = 1 ∨ t = 4 then 32 else 128

/-- The address with the bits beyond a prefix cleared. -/
def maskAddr (bitsN len a : Nat) : Nat := a / 2 ^ (bitsN - len) * 2 ^ (bitsN - len)

/-- Header, key and result-field checks of a record (R154, R177, R178); `longest`: PREFIX_LEN and the bits beyond it are not checked. -/
def EntRec.keyOk (r : EntRec) (longest : Bool) : Bool :=
  !r.stray && (isLpm r.table || isEm r.table || isIndexed r.table)
  && (r.key &&& keyMask r.table r.key) == r.key
  && (r.result &&& resultMask r.table) == r.result
  && (!r.static || isEm r.table) && (isLpm r.table || (!r.staged && r.len == 0))
  && (isLpm r.table || isEm r.table || [12, 14].contains r.table || r.vrf == 0)
  && (!isLpm r.table || longest || (decide (1 ≤ r.len) && decide (r.len < addrBits r.table)
      && maskAddr (addrBits r.table) r.len (addrOf r.table r.key) == addrOf r.table r.key))
  && (r.table != 6 || (decide (1 ≤ r.key % 256) && decide (r.key % 256 ≤ 4)))

/-- Index of an indexed table's record. -/
def EntRec.index (r : EntRec) : Nat :=
  match r.table with
  | 12 => r.vrf
  | 14 => r.vrf
  | 13 => bits r.key 6 0 * 4096 + bits r.key 27 16
  | _ => r.key

def Dev.ixAt (d : Dev) (t i : Nat) : Nat := d.fwd.indexed.getD 0 [t, i]

/-- TYPE of a next hop. -/
def Dev.nhType (d : Dev) (n : Nat) : Nat := resAt (d.ixAt tNH n) 0 2 0

/-- Result checks of an insert (R167, R177). -/
def Dev.resultOk (d : Dev) (r : EntRec) : Bool :=
  (match r.table with
    | 8 => decide (resAt r.result 0 2 0 ≤ 4)
    | 9 => decide (resAt r.result 0 2 0 ≤ 5)
    | 10 => decide (1 ≤ resAt r.result 4 10 0) && decide (resAt r.result 4 10 0 ≤ 1024)
        && decide (resAt r.result 0 20 0 + resAt r.result 4 10 0 ≤ 2097152)
    | 11 => [1, 3, 4, 5].contains (d.nhType (resAt r.result 0 19 0))
    | 12 => decide (resAt r.result 8 4 0 ≤ 16)
    | 14 => decide (resAt r.result 2 1 0 ≤ 2)
    | _ => true)

/-- The 64 bytes of a returned record. -/
def recBytes (t vrf len key result : Nat) (static active pend sump moved : Bool) : List Byte :=
  leBytes 1 t ++ leBytes 1 static.toNat ++ leBytes 2 vrf ++ leBytes 1 len
  ++ leBytes 1 (active.toNat + 2 * pend.toNat + 4 * sump.toNat + 8 * moved.toNat) ++ leBytes 2 0 ++ leBytes 40 key
  ++ leBytes 16 result

/-! ### Where the DRAM tables lie (R145, R187, R340, R342) -/

/-- Logical channels of the F-side that are DEAD. -/
def Dev.deadF (d : Dev) : List Nat := (List.range 64).filter (fun c => bit (d.get (uSTK (c / 16)) DRC_STACK_STATUS.DEAD_MASK) (c % 16))

/-- Has a channel been lost, its tables not remapped yet (R187)? -/
def Dev.channelLost (d : Dev) (c : Nat) : Bool := d.deadF.contains c && !d.dram.remapped.contains c

/-- Does a bucket at an F-side address return uncorrectable data: is its channel lost and not remapped, or its range poisoned (R163, R187)? -/
def Dev.tableLost (d : Dev) (a : Nat) : Bool := d.channelLost (sideChannel false a) || d.sidePoisoned false a

/-! ### Exact match: buckets, sump and moves (R157–R162) -/

def emBuckets : Nat := 16777216

/-- Does a key take two slots: an IPv6 FLOW entry (R157)? -/
def emWide (k : Key) : Bool := k.getD 0 0 == 7 && bit (k.getD 2 0 / 2 ^ 264) 0

def emWidth (k : Key) : Nat := if emWide k then 2 else 1

/-- Bytes that a key's buckets are chosen from (R147). -/
def emKeyBytes (k : Key) : List Byte := leBytes 1 (k.getD 0 0) ++ leBytes 2 (k.getD 1 0) ++ leBytes 40 (k.getD 2 0)

/-- The two bucket choices of a key. -/
def Dev.emChoice (d : Dev) (k : Key) (second : Bool) : Nat :=
  crc32c (if second then d.get uTBE TBE_HASH_SEED.SEED2 else d.get uTBE TBE_HASH_SEED.SEED1) (emKeyBytes k) % emBuckets

/-- Does a copy at a place cover a slot of a bucket? -/
def Place.covers (p : Place) (w b s : Nat) : Bool :=
  match p with
  | .slot b' f _ => b' == b && decide (f ≤ s) && decide (s < f + w)
  | .sump => false

/-- Is a slot taken, by an entry or by the copy of one that moves away? -/
def slotTaken (em : Tab EmEntry) (b s : Nat) : Bool :=
  em.any (fun e => e.2.place.covers (emWidth e.1) b s || e.2.leaving.any (fun p => p.covers (emWidth e.1) b s))

/-- First slot of `w` adjacent free ones. -/
def freeSlot (em : Tab EmEntry) (b w : Nat) : Option Nat :=
  (List.range (5 - w)).find? (fun s => (List.range w).all (fun j => !slotTaken em b (s + j)))

/-- Walk order of a place: buckets ascending, then the sump (R182). -/
def Place.rank (p : Place) (k : Key) : Key :=
  match p with
  | .slot b f _ => [0, b, f]
  | .sump => 1 :: k

/-- The cursors as an entry of table `t` moves from one rank to another: one that the entry slips behind takes it on its carry list, and one
that has returned it already notes that it will meet it again. None when such a carry list is full, unless `force` (R182). -/
def FwdState.crossing (f : FwdState) (t : Nat) (k old new : Key) (force : Bool) : Option (Tab Cursor) :=
  let behind (c : Cursor) : Bool := c.table == t && keyLt c.pos old && !keyLt c.pos new
  let ahead (c : Cursor) : Bool := c.table == t && !keyLt c.pos old && keyLt c.pos new
  if ¬ force ∧ f.cursors.any (fun c => behind c.2 && decide (1024 ≤ c.2.carry.length)) then none
  else some (f.cursors.map (fun c =>
    if behind c.2 then (c.1, { c.2 with carry := c.2.carry ++ [k] })
    else if ahead c.2 then (c.1, { c.2 with again := c.2.again ++ [k] }) else c))

/-- Put an entry at a new place. -/
def FwdState.shift (f : FwdState) (k : Key) (new : Place) (force : Bool) : Option FwdState :=
  match f.em.get? k with
  | none => none
  | some e => (f.crossing (k.getD 0 0) k (e.place.rank k) (new.rank k) force).map (fun cs =>
      { f with em := f.em.insert k { e with place := new }, cursors := cs })

/-- The other bucket choice of an entry that lies in a bucket. -/
def Dev.otherChoice (d : Dev) (k : Key) (p : Place) : Nat × Bool :=
  match p with
  | .slot _ _ sec => (d.emChoice k (!sec), !sec)
  | .sump => (d.emChoice k false, false)

/-- Entries that may be moved out of a bucket. -/
def movable (em : Tab EmEntry) (b : Nat) : List (Key × EmEntry) :=
  em.filter (fun e => e.2.leaving.isNone && (List.range 4).any (fun s => e.2.place.covers (emWidth e.1) b s))

/-- Make `w` adjacent slots of a bucket free by at most `fuel` relocations, a cuckoo path (R160): the tables, and the number of
relocations. -/
def Dev.makeRoom : Nat → Dev → Bool → FwdState → Nat → Nat → Option (FwdState × Nat)
  | 0, _, _, f, b, w => if (freeSlot f.em b w).isSome then some (f, 0) else none
  | fuel + 1, d, force, f, b, w =>
    if (freeSlot f.em b w).isSome then some (f, 0) else
    (movable f.em b).findSome? (fun e =>
      let alt := d.otherChoice e.1 e.2.place
      match Dev.makeRoom fuel d force f alt.1 (emWidth e.1) with
      | none => none
      | some (f1, m1) =>
        if (f1.em.get? e.1).map (·.place) ≠ some e.2.place then none else
        match freeSlot f1.em alt.1 (emWidth e.1) with
        | none => none
        | some s =>
          match f1.shift e.1 (.slot alt.1 s alt.2) force with
          | none => none
          | some f2 =>
            match Dev.makeRoom fuel d force f2 b w with
            | none => none
            | some (f3, m3) => if m1 + 1 + m3 ≤ fuel + 1 then some (f3, m1 + 1 + m3) else none)

/-- The shortest cuckoo path that frees slots in one of a key's buckets, first choice first. -/
def Dev.cuckoo (d : Dev) (force : Bool) (k : Key) : Option (FwdState × Nat × Bool) :=
  (List.range 8).findSome? (fun i => [false, true].findSome? (fun sec =>
    (d.makeRoom (i + 1) force d.fwd (d.emChoice k sec) (emWidth k)).map (fun r => (r.1, r.2, sec))))

/-- Sump entries: exact-match and LPM entries in it or leaving it, and expansions. That a two-slot IPv6 FLOW entry takes one of the sump's 8,192 is the
model's choice: the manual does not say. -/
def Dev.sumpOcc (d : Dev) : Nat :=
  (d.fwd.em.filter (fun e => e.2.place == .sump || e.2.leaving == some .sump)).length
  + (d.fwd.routes.filter (fun e => e.2.place == 2 || e.2.leaving == some 2)).length + d.fwd.sumpExp

/-- Slots of the buckets in use. -/
def Dev.emUsed (d : Dev) : Nat :=
  (d.fwd.em.map (fun e => (if e.2.place == .sump then 0 else emWidth e.1)
    + (match e.2.leaving with | some (.slot _ _ _) => emWidth e.1 | _ => 0))).sum

/-- Keep TBE_SUMP and EM_USED, and raise SUMP_HIGH as occupancy reaches the mark from below (R161). -/
def Dev.showEm (d : Dev) : Dev :=
  let old := d.get uTBE TBE_SUMP.TBE_SUMP_OCC
  let n := d.sumpOcc
  let mark := 8192 * d.act uTBE TBE_CFG.SUMP_HIGH_PCT / 100
  let d := (d.set uTBE TBE_SUMP.TBE_SUMP_OCC n).set uTBE TBE_OCC0.EM_USED d.emUsed
  let d := if d.get uTBE TBE_SUMP.HIGH_WATER < n then d.set uTBE TBE_SUMP.HIGH_WATER n else d
  if old < mark ∧ mark ≤ n then d.raise uTBE 0x13 (leBytes 2 n) else d

/-- Count relocations. -/
def Dev.countMoves (d : Dev) (n : Nat) : Dev := (d.add uTBE TBE_RELOCATIONS.COUNT n).tallyQ uTBE 0x26 n (fun _ => true)

/-- A table is full: count it and raise TABLE_FULL, once per second for the engine (R160, R188). -/
def Dev.tableFull (d : Dev) (t : Nat) : Dev := (d.bump uTBE TBE_TABLE_FULL.COUNT).raiseOnce uTBE 0x12 0 (fun _ => leBytes 1 t)

/-- How an insert ends: placed (0 first choice, 1 second, 2 sump, 3 on-die) after so many relocations, or refused. -/
inductive Placing
  | done (place moves : Nat)
  | fail (status : Nat)
  deriving DecidableEq, Repr

/-- Place a new exact-match entry (R160). Beyond a limit that a lost channel has lowered nothing is placed (R187). -/
def Dev.emPlace (d : Dev) (k : Key) (e : Place → EmEntry) : Dev × Placing :=
  let w := emWidth k
  let put (d : Dev) (f : FwdState) (p : Place) : Dev := ({ d with fwd := { f with em := f.em.insert k (e p) } }).showEm
  let room : Bool := decide (d.emUsed + w ≤ d.get uTBE TBE_OCC1.EM_LIMIT)
  let whole : Bool := d.get uTBE TBE_OCC1.EM_LIMIT == 0x04000000
  let toSump : Dev × Placing :=
    if d.sumpOcc < 8192 then ((put d d.fwd .sump).bump uTBE TBE_SUMP_INSERTS.COUNT, .done 2 0)
    else (d.tableFull (k.getD 0 0), .fail stTABLE_FULL)
  if ¬ room then (if whole then toSump else (d.tableFull (k.getD 0 0), .fail stTABLE_FULL)) else
  match [false, true].findSome? (fun sec => (freeSlot d.fwd.em (d.emChoice k sec) w).map (fun s => (sec, s))) with
  | some (sec, s) => (put d d.fwd (.slot (d.emChoice k sec) s sec), .done sec.toNat 0)
  | none =>
    match d.cuckoo false k with
    | some (f, n, sec) =>
      (match freeSlot f.em (d.emChoice k sec) w with
      | some s => ((put d f (.slot (d.emChoice k sec) s sec)).countMoves n, .done sec.toNat n)
      | none => (d, .fail stTABLE_FULL))
    | none =>
      if (d.cuckoo true k).isSome then (d, .fail stRETRY_LATER) else toSump

/-- Which code an entry's place reads as. -/
def Place.code (p : Place) : Nat :=
  match p with
  | .slot _ _ sec => sec.toNat
  | .sump => 2

/-! ### LPM (R148–R156) -/

/-- Key of a prefix: VRF, family table, length, address. -/
def routeKey (vrf t len addr : Nat) : Key := [vrf, t, len, addr]

def Dev.vrfRec (d : Dev) (v : Nat) : Nat := d.ixAt tVRF v

/-- DIRECT_SLOT of a VRF: 0 none. -/
def Dev.directSlot (d : Dev) (v : Nat) : Nat := resAt (d.vrfRec v) 8 4 0

/-- Does a prefix live in the IPv4 direct table (R154)? -/
def Dev.isDirect (d : Dev) (k : Key) : Bool := k.getD 1 0 == 1 && decide (k.getD 2 0 ≤ 16) && d.directSlot (k.getD 0 0) != 0

/-- VRF number as it enters a CRC. -/
def vrfBytes (v : Nat) : List Byte := leBytes 2 v

/-- *VH* of a VRF (R148). -/
def Dev.vh (d : Dev) (v : Nat) : Nat := if v = 0 then 0 else crc32c (d.get uTBE TBE_HASH_SEED.SEED1) (vrfBytes v) % 2 ^ 20

/-- Region of an IPv4 address's high 20 bits, or of an IPv6 address's high 32 (R148). -/
def Dev.region (d : Dev) (v t hi : Nat) : Nat :=
  if t = 1 then (hi % 2 ^ 20) ^^^ d.vh v
  else crc32c (d.get uTBE TBE_HASH_SEED.SEED2) (vrfBytes v ++ beBytes 4 hi) % 2 ^ 20

/-- Bits of an address that its region is computed from. -/
def regionBits (t : Nat) : Nat := if t = 1 then 20 else 32

/-- The high words under a prefix: one, or those that a short prefix covers. -/
def highWords (t len addr : Nat) : List Nat :=
  let n := regionBits t
  let hi := addr / 2 ^ (addrBits t - n)
  if n ≤ len then [hi] else (List.range (2 ^ (n - len))).map (hi + ·)

/-- Prefixes that the LPM hash tables serve. -/
def Dev.hashRoutes (d : Dev) : List Key := (d.fwd.routes.map (·.1)).filter (fun k => !d.isDirect k)

/-- Does a prefix fall on a region entry? -/
def Dev.falls (d : Dev) (k : Key) (r : Nat) : Bool :=
  (highWords (k.getD 1 0) (k.getD 2 0) (k.getD 3 0)).any (fun h => d.region (k.getD 0 0) (k.getD 1 0) h == r)

/-- A candidate: length and family table. -/
abbrev Cand := Nat × Nat

/-- Candidates in descending length, no repeats. -/
def insertCand (c : Cand) : List Cand → List Cand
  | [] => [c]
  | x :: xs => if c = x then x :: xs else if x.1 < c.1 ∨ (x.1 = c.1 ∧ x.2 < c.2) then c :: x :: xs else x :: insertCand c xs

/-- Leave out the shortest candidate whose family lists a longer one, until four remain (R150); candidates come longest first. Of an IPv4 and
an IPv6 candidate of the same shortest length the IPv4 one is expanded first: the model's choice. -/
def keepFour : Nat → List Cand → List Cand
  | 0, cs => cs
  | n + 1, cs =>
    if cs.length ≤ 4 then cs else
    match (cs.reverse.find? (fun c => cs.any (fun x => x.2 == c.2 && decide (c.1 < x.1)))) with
    | none => cs
    | some c => keepFour n (cs.erase c)

/-- All lengths that prefixes of the hash tables have. -/
def Dev.allCands (d : Dev) : List Cand := d.hashRoutes.foldl (fun cs k => insertCand (k.getD 2 0, k.getD 1 0) cs) []

/-- A region entry's candidates (R149, R150). -/
def Dev.candidates (d : Dev) (r : Nat) : List Cand :=
  let cs := (d.hashRoutes.filter (fun k => d.falls k r)).foldl (fun cs k => insertCand (k.getD 2 0, k.getD 1 0) cs) []
  keepFour cs.length cs

/-- The longest inserted prefix that covers an address; lengths are tried from `n` down. -/
def longestFrom (routes : Tab Route) (v t addr : Nat) : Nat → Option (Key × Route)
  | 0 => none
  | n + 1 =>
    let k := routeKey v t (n + 1) (maskAddr (addrBits t) (n + 1) addr)
    match routes.get? k with
    | some r => some (k, r)
    | none => longestFrom routes v t addr n

def Dev.longest (d : Dev) (v t addr : Nat) : Option (Key × Route) := longestFrom d.fwd.routes v t addr (addrBits t - 1)

/-- Lengths that a packet's address is probed for (R151): through the candidate that holds the prefix found, or all of its family. -/
def Dev.probed (d : Dev) (v t addr : Nat) (found : Option Key) : List Nat :=
  if d.fwd.routes.isEmpty then [] else
  let cs := (d.candidates (d.region v t (addr / 2 ^ (addrBits t - regionBits t)))).filter (fun c => c.2 == t)
  let used : List Cand := match found with
    | none => cs
    | some k => cs.filter (fun c => decide (k.getD 2 0 ≤ c.1))
  used.map (fun c => c.1)

/-- Probes that a packet's address needs. -/
def Dev.probes (d : Dev) (v t addr : Nat) (found : Option Key) : Nat := (d.probed v t addr found).length

/-- The 33,554,432 buckets of the LPM hash tables (R145). -/
def lpmTotal : Nat := 33554432

/-- A bucket choice of a prefix: its length enters both seeds, and its table's place and size are the route compiler's (R147). -/
def Dev.lpmChoice (d : Dev) (k : Key) (second : Bool) : Nat :=
  let t := k.getD 1 0
  let len := k.getD 2 0
  let seed := if second then d.get uTBE TBE_HASH_SEED.SEED2 else d.get uTBE TBE_HASH_SEED.SEED1
  let a := if t = 1 then leBytes 4 (k.getD 3 0) else beBytes 16 (k.getD 3 0)
  (Config.lpmBase t len + crc32c (seed ^^^ len) (leBytes 2 (k.getD 0 0) ++ a) % max 1 (Config.lpmBuckets t len)) % lpmTotal

/-- Buckets that an LPM probe of an address at a length reads: both choices (R151). -/
def Dev.lpmReads (d : Dev) (v t addr len : Nat) : List Nat :=
  let k := routeKey v t len (maskAddr (addrBits t) len addr)
  [d.lpmChoice k false, d.lpmChoice k true]

/-- Addresses of the expansions of a prefix from length `m` to length `n` under one high word, less those a longer prefix of at most
`n` already supplies. -/
def expansions (routes : List Key) (k : Key) (hi n : Nat) : List Nat :=
  let v := k.getD 0 0
  let t := k.getD 1 0
  let m := k.getD 2 0
  let base := if regionBits t ≤ m then k.getD 3 0 else hi * 2 ^ (addrBits t - regionBits t)
  let span := n - max m (regionBits t)
  ((List.range (2 ^ span)).map (fun i => maskAddr (addrBits t) n (base + i * 2 ^ (addrBits t - n)))).filter (fun a =>
    !routes.any (fun x => x.getD 0 0 == v && x.getD 1 0 == t && decide (m < x.getD 2 0) && decide (x.getD 2 0 ≤ n)
      && maskAddr (addrBits t) (x.getD 2 0) a == x.getD 3 0))

/-- Entries one prefix takes after expansion: its own where some region keeps its length, and what replaces it elsewhere. -/
def Dev.entriesOf (d : Dev) (k : Key) : Nat :=
  let t := k.getD 1 0
  let m := k.getD 2 0
  let cs (h : Nat) := (d.candidates (d.region (k.getD 0 0) t h)).filter (fun c => c.2 == t)
  let hs := highWords t m (k.getD 3 0)
  (if hs.any (fun h => (cs h).contains (m, t)) then 1 else 0)
  + ((hs.filter (fun h => !(cs h).contains (m, t))).flatMap (fun h =>
      match ((cs h).filter (fun c => decide (m < c.1))).getLast? with
      | some c => (expansions d.hashRoutes k h c.1).map (fun a => (c.1, a))
      | none => [])).eraseDups.length

/-- LPM entries after expansion (LPM_USED). With at most four lengths in use nothing is expanded. -/
def Dev.lpmUsed (d : Dev) : Nat :=
  if d.allCands.length ≤ 4 then d.hashRoutes.length else (d.hashRoutes.map d.entriesOf).sum

/-- Keep LPM_USED and the sump's occupancy; how many of the entries that expansion makes lie in the sump is a free value. -/
def Dev.showLpm (d : Dev) : Dev :=
  let others := d.sumpOcc - d.fwd.sumpExp
  let n := min (8192 - others) (Config.sumpExpansions d.draws % (d.lpmUsed - d.hashRoutes.length + 1))
  let d := { d with draws := d.draws + 1, fwd := { d.fwd with sumpExp := n } }
  (d.set uTBE TBE_OCC0.LPM_USED d.lpmUsed).showEm

/-- Bytes that a prefix takes in a 32-byte bucket (R145). -/
def lpmSize (t : Nat) : Nat := if t = tLPM4 then 16 else 32

/-- Bytes of an LPM bucket in use, by prefixes and by the copies of those that move away. -/
def Dev.lpmBucketUsed (d : Dev) (b : Nat) : Nat :=
  (d.fwd.routes.map (fun e =>
    let n := lpmSize (e.1.getD 1 0)
    (if e.2.place < 2 ∧ e.2.bucket = b then n else 0)
    + (match e.2.leaving with
      | some p => if p < 2 ∧ d.lpmChoice e.1 (p == 1) = b then n else 0
      | none => 0))).sum

/-- Is there room for a prefix in a place: a bucket choice (0, 1), or the sump (2)? -/
def Dev.lpmRoom (d : Dev) (k : Key) (p : Nat) : Bool :=
  if p = 2 then decide (d.sumpOcc < 8192) else decide (d.lpmBucketUsed (d.lpmChoice k (p == 1)) + lpmSize (k.getD 1 0) ≤ 32)

/-- A prefix at a place. -/
def Dev.routeAt (d : Dev) (k : Key) (nextHop p : Nat) (leaving : Option Nat) : Route :=
  { nextHop := nextHop, place := p, bucket := if p < 2 then d.lpmChoice k (p == 1) else 0, leaving := leaving }

/-- A prefix newly placed, none where no place has room; which of the places with room it takes is a free value. -/
def Dev.placeRoute (d : Dev) (k : Key) (nextHop : Nat) : Option Route :=
  if d.isDirect k then some (d.routeAt k nextHop 3 none) else
  let ps := [0, 1, 2].filter (d.lpmRoom k)
  (ps[Config.lpmPlace d.draws % ps.length]?).map (fun p => d.routeAt k nextHop p none)

/-- Place of a prefix in walk order: buckets ascending, then the sump, then the direct table (R182). -/
def Route.rank (r : Route) (k : Key) : Key := if r.place < 2 then [0, r.bucket] ++ k else (r.place - 1) :: k

/-- Keep a cursor's promise as a prefix changes its place. -/
def Dev.moveRoute (d : Dev) (k : Key) (old new : Route) : Option Dev :=
  (d.fwd.crossing (k.getD 1 0) k (old.rank k) (new.rank k) false).map (fun cs =>
    { d with draws := d.draws + 1, fwd := { d.fwd with routes := d.fwd.routes.insert k new, cursors := cs } })

/-! ### Relocation (R161, R162) -/

/-- Where an exact-match entry may move: out of the sump into one of its buckets, or from one bucket to the other. -/
def Dev.nextPlace (d : Dev) (k : Key) (p : Place) : Option Place :=
  (match p with
  | .sump => [false, true]
  | .slot _ _ sec => [!sec]).findSome? (fun sec =>
    (freeSlot d.fwd.em (d.emChoice k sec) (emWidth k)).map (fun s => Place.slot (d.emChoice k sec) s sec))

/-- Where a prefix may move: out of the sump into a bucket with room, or from one bucket to the other. -/
def Dev.nextBucket (d : Dev) (k : Key) (r : Route) : Option Nat :=
  (match r.place with
  | 0 => [1]
  | 1 => [0]
  | 2 => [0, 1]
  | _ => []).find? (d.lpmRoom k)

/-- RELOCATION_START: the destination copy of an entry is written valid; the source stays for one lookup epoch. A key of four numbers names a
prefix (VRF, table, length, address). -/
def Dev.relocationStart (d : Dev) (k : Key) : Dev :=
  if k.length = 4 then
    match (d.fwd.routes.get? k).filter (fun r => r.leaving.isNone) with
    | none => d
    | some r =>
      match d.nextBucket k r with
      | none => d
      | some p => ((d.moveRoute k r (d.routeAt k r.nextHop p (some r.place))).getD d).showEm
  else
    match d.fwd.em.get? k with
    | none => d
    | some e =>
      match e.leaving, d.nextPlace k e.place with
      | none, some p =>
        (match d.fwd.shift k p false with
        | none => d
        | some f => ({ d with fwd := { f with em := f.em.insert k { e with place := p, leaving := some e.place } } }).showEm)
      | _, _ => d

/-- RELOCATION_FINISH: one lookup epoch later the source copy is cleared. -/
def Dev.relocationFinish (d : Dev) (k : Key) : Dev :=
  if k.length = 4 then
    match d.fwd.routes.get? k with
    | none => d
    | some r =>
      if r.leaving.isNone then d else
      (({ d with fwd := { d.fwd with routes := d.fwd.routes.insert k { r with leaving := none } } }).showEm).countMoves 1
  else
    match d.fwd.em.get? k with
    | none => d
    | some e =>
      if e.leaving.isNone then d else
      (({ d with fwd := { d.fwd with em := d.fwd.em.insert k { e with leaving := none } } }).showEm).countMoves 1

/-- A delete has freed room in a bucket: the sump entries that find room in one of theirs begin to move back (R161). -/
def Dev.backToBuckets (d : Dev) : Dev :=
  let em := (d.fwd.em.filter (fun e => e.2.place == .sump)).map (·.1)
  let lpm := (d.fwd.routes.filter (fun e => e.2.place == 2)).map (·.1)
  (em ++ lpm).foldl Dev.relocationStart d

/-! ### Route changes (R154–R156, R186) -/

/-- A route change as it takes effect, with the relocations it took; none where the prefix finds no room. -/
def Dev.applyRoute (d : Dev) (k : Key) (nh : Option Nat) : Option (Dev × Nat) :=
  match nh with
  | none => some (({ d with fwd := { d.fwd with routes := d.fwd.routes.erase k } } : Dev).backToBuckets, 0)
  | some n =>
    match d.fwd.routes.get? k with
    | some r => some ({ d with fwd := { d.fwd with routes := d.fwd.routes.insert k { r with nextHop := n } } }, 0)
    | none =>
      (d.placeRoute k n).map (fun r =>
        let moves := if r.place = 3 then 0 else Config.lpmMoves d.draws % 9
        let d := { d with draws := d.draws + 1, fwd := { d.fwd with routes := d.fwd.routes.insert k r } }
        ((if r.place = 2 then d.bump uTBE TBE_SUMP_INSERTS.COUNT else d).countMoves moves, moves))

/-- A VRF gains or loses its direct slot: its IPv4 prefixes of length 1–16 move to the direct table, or from it (R154). None where one finds no
room, or a full carry list bars its move. -/
def Dev.replaceRoutes (d : Dev) (v : Nat) : Option Dev :=
  let mine := d.fwd.routes.filter (fun e => e.1.getD 0 0 == v && d.isDirect e.1 != (e.2.place == 3)
    && e.1.getD 1 0 == 1 && decide (e.1.getD 2 0 ≤ 16))
  mine.foldl (fun o e => o.bind (fun d => (d.placeRoute e.1 e.2.nextHop).bind (fun r => d.moveRoute e.1 e.2 r))) (some d)

/-- Do the prefixes after a change fit: within the limit, or in no more than `was` entries (R186, R187)? -/
def Dev.lpmFits (d : Dev) (was : Nat) : Bool := decide (d.lpmUsed ≤ max was (d.get uTBE TBE_OCC1.LPM_LIMIT))

/-- Does a prefix exist, as a staged change sees it: every held change applied in order (R155)? -/
def Dev.stagedExists (d : Dev) (k : Key) : Bool :=
  d.fwd.staged.foldl (fun b s => if s.key = k then s.nextHop.isSome else b) (d.fwd.routes.get? k).isSome

/-- One LPM change of a command: insert (`nh` some) or delete (R155, R178, R179). -/
def Dev.lpmChange (d : Dev) (r : EntRec) (nh : Option Nat) : Dev × Placing :=
  let k := routeKey r.vrf r.table r.len (addrOf r.table r.key)
  let pending : Bool := d.fwd.staged.any (fun s => s.key == k)
  let here : Bool := if r.staged then d.stagedExists k else (d.fwd.routes.get? k).isSome
  if ¬ r.staged ∧ pending then (d, .fail stRETRY_LATER)
  else if nh.isNone ∧ ¬ here then (d, .fail stNOT_FOUND)
  else if nh.isSome ∧ here ∧ ¬ r.replace then (d, .fail stEXISTS)
  else if r.staged then
    if 1048576 ≤ d.fwd.staged.length then (d, .fail stNO_RESOURCE)
    else ({ d with fwd := { d.fwd with staged := d.fwd.staged ++ [⟨k, nh⟩] } }, .done 0 0)
  else
    match d.applyRoute k nh with
    | none => (d.tableFull r.table, .fail stTABLE_FULL)
    | some (d', moves) =>
      if nh.isSome ∧ ¬ here ∧ ¬ d'.lpmFits d.lpmUsed then (d.tableFull r.table, .fail stTABLE_FULL)
      else (d'.showLpm, .done (((d'.fwd.routes.get? k).map (·.place)).getD 0) moves)

/-! ### Inserting and deleting (R178, R179, R556) -/

/-- A host write of an ECMP member slot ends what R446 may restore there. -/
def Dev.memberTouched (d : Dev) (t i : Nat) : Dev :=
  if t = tMEMBER then { d with svcs := { d.svcs with withdrawn := d.svcs.withdrawn.erase [i] } } else d

/-- An indexed table's record is written: an ECMP member slot is the host's, and a VRF's short prefixes move to where its DIRECT_SLOT says. With
no cursor open a move that fails wants room, which answers TABLE_FULL; with one open it answers RETRY_LATER, also for a delete (DESIGN CHOICE:
R182 speaks of inserts). -/
def Dev.ixWrite (d : Dev) (t i result : Nat) : Dev × Placing :=
  let w := Dev.memberTouched { d with fwd := { d.fwd with indexed := d.fwd.indexed.setD 0 [t, i] result } } t i
  if t ≠ tVRF then (w, .done 3 0) else
  match w.replaceRoutes i with
  | some w => (w.showLpm, .done 3 0)
  | none => if d.fwd.cursors.isEmpty then (d.tableFull tLPM4, .fail stTABLE_FULL) else (d, .fail stRETRY_LATER)

/-- An indexed insert (R556). -/
def Dev.ixInsert (d : Dev) (r : EntRec) : Dev × Placing :=
  let slot := resAt r.result 8 4 0
  if r.table = 12 ∧ slot ≠ 0 ∧ d.fwd.indexed.any (fun e => e.1.headD 0 == 12 && e.1.getD 1 0 != r.vrf
      && resAt e.2 8 4 0 == slot) then (d, .fail stEXISTS)
  else d.ixWrite r.table r.index r.result

/-- An exact-match insert by command. -/
def Dev.emInsert (d : Dev) (r : EntRec) : Dev × Placing :=
  let k : Key := [r.table, r.vrf, r.key]
  match d.fwd.em.get? k with
  | some e =>
    if r.replace then
      ({ d with fwd := { d.fwd with em := d.fwd.em.insert k { e with result := r.result, static := r.static,
                                                                     learned := false } } }, .done e.place.code 0)
    else (d, .fail stEXISTS)
  | none => d.emPlace k (fun p => { place := p, result := r.result, static := r.static })

/-- Insert one record, already read. -/
def Dev.insertRec (d : Dev) (r : EntRec) : Dev × Placing :=
  if ¬ r.keyOk false ∨ ¬ d.resultOk r then (d, .fail stMALFORMED)
  else if isLpm r.table then d.lpmChange r (some (resAt r.result 0 19 0))
  else if isEm r.table then d.emInsert r
  else d.ixInsert r

/-- Take an exact-match entry out; sump entries move back to what it frees (R161). -/
def Dev.emRemove (d : Dev) (k : Key) : Dev := (({ d with fwd := { d.fwd with em := d.fwd.em.erase k } }).showEm).backToBuckets

/-- Delete one record, already read. -/
def Dev.deleteRec (d : Dev) (r : EntRec) : Dev × Placing :=
  if ¬ r.keyOk false then (d, .fail stMALFORMED)
  else if isLpm r.table then d.lpmChange r none
  else if isEm r.table then
    let k : Key := [r.table, r.vrf, r.key]
    if (d.fwd.em.get? k).isSome then (d.emRemove k, .done 0 0) else (d, .fail stNOT_FOUND)
  else d.ixWrite r.table r.index 0

/-- Is the table engine ready for commands? -/
def Dev.tbeReady (d : Dev) : Bool := d.svc uTBE == sACTIVE

/-- What a command with a record answers: MALFORMED of a record lies in its block (R410). -/
def placeReply (p : Placing) (result : Bool) : Reply :=
  match p with
  | .done pl m => .ok (if result then pl + 16 * m else 0)
  | .fail st => if st = stMALFORMED then .badBlock else .fail st

/-- A table command that reads one record: the address of the record lies at offset 8. -/
def Dev.tblCommand (d : Dev) (c : HCmd) (op : Nat) (ps : List Param) (body : Dev → Dev × Reply) (blk : Bool := true) : Dev :=
  d.commandNow c op (ps ++ [pAny 8 63 0]) (fun d =>
    if ¬ d.tbeReady then (d, .fail stUNIT_UNAVAILABLE)
    else if ¬ c.readOk then (d.dmaFailed, .fail stDATA_ERROR)
    else body d) blk

/-- TBL_INSERT (0x0101). -/
def Dev.tblInsert (d : Dev) (c : HCmd) : Dev :=
  d.tblCommand c 0x0101 [] (fun d => let r := d.insertRec (readRec c.block); (r.1, placeReply r.2 true))
    (blk := let r := readRec c.block; r.keyOk false && d.resultOk r)

/-- TBL_DELETE (0x0102). -/
def Dev.tblDelete (d : Dev) (c : HCmd) : Dev :=
  d.tblCommand c 0x0102 [] (fun d => let r := d.deleteRec (readRec c.block); (r.1, placeReply r.2 false))
    (blk := (readRec c.block).keyOk false)

/-! ### Searching and walking (R180–R182) -/

/-- The record returned for a prefix. -/
def routeRec (k : Key) (r : Route) (moved : Bool) : List Byte :=
  let t := k.getD 1 0
  recBytes t (k.getD 0 0) (k.getD 2 0) (if t = 2 then ofLe (beBytes 16 (k.getD 3 0)) else k.getD 3 0) r.nextHop false false false
    (r.place == 2) moved

/-- The record returned for an exact-match entry. -/
def emRec (k : Key) (e : EmEntry) (moved : Bool) : List Byte :=
  recBytes (k.getD 0 0) (k.getD 1 0) 0 (k.getD 2 0) e.result e.static e.active e.pendAge (e.place == .sump) moved

/-- What a search finds: prefix length, key, result and returned state. -/
def Dev.search (d : Dev) (r : EntRec) (longest : Bool) : Option (List Byte) :=
  if isLpm r.table then
    let found := if longest then d.longest r.vrf r.table (addrOf r.table r.key)
      else let k := routeKey r.vrf r.table r.len (addrOf r.table r.key)
           (d.fwd.routes.get? k).map (fun x => (k, x))
    found.map (fun f =>
      routeRec f.1 f.2 false)
  else if isEm r.table then
    (d.fwd.em.get? [r.table, r.vrf, r.key]).map (fun e => emRec [r.table, r.vrf, r.key] e false)
  else some (recBytes r.table r.vrf 0 r.key (d.ixAt r.table r.index) false false false false false)

/-- TBL_SEARCH (0x0103): the record is written back where it was read. -/
def Dev.tblSearch (d : Dev) (c : HCmd) : Dev :=
  let r := readRec c.block
  let longest : Bool := c.par 0 0 0 == 1
  d.tblCommand c 0x0103 [pAny 0 0 0, c.zero 0 7 1] (fun d =>
    match d.search r longest with
    | none => (d, .fail stNOT_FOUND)
    | some b => d.hostBlock c (c.par 8 63 0) b 0) (blk := r.keyOk longest && (!longest || isLpm r.table))

/-- A record in walk order: its rank, its key, and its bytes with MOVED clear or set. -/
structure Walked where
  rank : Key
  key : Key
  plain : List Byte
  moved : List Byte
  deriving DecidableEq, Repr

/-- Records of a hash table in walk order (R182). -/
def Dev.walk (d : Dev) (t : Nat) : List Walked :=
  if isLpm t then
    let es : Tab (Key × Route) := (d.fwd.routes.filter (fun e => e.1.getD 1 0 == t)).foldl (fun m e => m.insert (e.2.rank e.1) e) []
    es.map (fun e => ⟨e.1, e.2.1, routeRec e.2.1 e.2.2 false, routeRec e.2.1 e.2.2 true⟩)
  else
    let es : Tab (Key × EmEntry) := (d.fwd.em.filter (fun e => e.1.headD 0 == t)).foldl (fun m e => m.insert (e.2.place.rank e.1) e) []
    es.map (fun e => ⟨e.1, e.2.1, emRec e.2.1 e.2.2 false, emRec e.2.1 e.2.2 true⟩)

/-- Indexes of an indexed table, all of which exist (R145, R221, R556). -/
def ixCount (t : Nat) : Nat :=
  match t with
  | 8 | 9 => 1048576
  | 11 => 2097152
  | 13 => 524288
  | _ => 65536

/-- The record of one index. -/
def Dev.walkedIx (d : Dev) (t i : Nat) : Walked :=
  let key := if t = 12 ∨ t = 14 then 0 else if t = 13 then i / 4096 + i % 4096 * 2 ^ 16 else i
  let b := recBytes t (if t = 12 ∨ t = 14 then i else 0) 0 key (d.ixAt t i) false false false false false
  ⟨[t, i], [t, i], b, b⟩

/-- The next records of a walk, at most `n`, past a position, none at its start; true when none is left after them (R182). -/
def Dev.nextWalked (d : Dev) (t : Nat) (pos : Key) (n : Nat) : List Walked × Bool :=
  if isIndexed t then
    let i := if pos.isEmpty then 0 else pos.getD 1 0 + 1
    let m := min n (ixCount t - i)
    ((List.range m).map (fun j => d.walkedIx t (i + j)), decide (ixCount t ≤ i + m))
  else
    let ahead := (d.walk t).filter (fun e => pos.isEmpty || keyLt pos e.rank)
    (ahead.take n, decide (ahead.length ≤ n))

/-- Carry-list records that still exist. -/
def Dev.carried (d : Dev) (t : Nat) (ks : List Key) : List (List Byte) :=
  ks.filterMap (fun k => if isLpm t then (d.fwd.routes.get? k).map (fun r => routeRec k r true)
    else (d.fwd.em.get? k).map (fun e => emRec k e true))

/-- A cursor is open: listed, and used within 10 s. -/
def Dev.openCursor (d : Dev) (n : Nat) : Option Cursor :=
  (d.fwd.cursors.get? [n]).filter (fun c => decide (d.now < c.used + 10000000000))

/-- The lowest cursor number from `n` that is not in use. -/
def freeCursor (t : Tab Cursor) : Nat → Nat → Nat
  | 0, n => n
  | f + 1, n => if (t.get? [n]).isSome then freeCursor t f (n % 65535 + 1) else n

/-- Parameter table of TBL_NEXT (R181). -/
def HCmd.tblNextParams (c : HCmd) : List Param :=
  [c.must 0 7 0 (fun t => decide (1 ≤ t ∧ t ≤ 14)), c.zero 0 15 8, pAny 2 15 0,
   c.must 4 8 0 (fun m => decide (1 ≤ m ∧ m ≤ 256)), c.zero 4 31 9, pAny 8 63 0]

/-- TBL_NEXT (0x0104). That a cursor opened on another TABLE than the one given answers NOT_FOUND, and that a cursor closes as DONE is
returned, are the model's choices: R181 states neither. -/
def Dev.tblNext (d : Dev) (c : HCmd) : Dev :=
  let t := c.par 0 7 0
  let n := c.par 2 15 0
  let most := c.par 4 8 0
  d.commandNow c 0x0104 c.tblNextParams (fun d =>
    if ¬ d.tbeReady then (d, .fail stUNIT_UNAVAILABLE)
    else
      let d := { d with fwd := { d.fwd with cursors := d.fwd.cursors.filter (fun e =>
        decide (d.now < e.2.used + 10000000000)) } }
      let cur : Option (Nat × Cursor) :=
        if n = 0 then
          (if 64 ≤ d.fwd.cursors.length then none
           else some (freeCursor d.fwd.cursors 65 d.fwd.nextCursor, { table := t, used := d.now }))
        else ((d.openCursor n).filter (fun x => x.table == t)).map (fun x => (n, x))
      match cur with
      | none => (d, .fail (if n = 0 then stNO_RESOURCE else stNOT_FOUND))
      | some (id, x) =>
        let r := d.nextWalked t x.pos most
        let now := r.1
        let out := now.map (fun e => if x.again.contains e.key then e.moved else e.plain)
        let left := most - out.length
        let extra := if r.2 then x.carry.take left else []
        let out := out ++ d.carried t extra
        let x' := { x with pos := (now.getLast?.map (·.rank)).getD x.pos
                           again := x.again.filter (fun k => !now.any (fun e => e.key == k))
                           carry := x.carry.drop extra.length, used := d.now }
        let fin : Bool := r.2 && x'.carry.isEmpty
        if ¬ c.writeOk then (d.dmaFailed, .fail stDATA_ERROR) else
        let d := d.dataWrite c.ticket (c.par 8 63 0) out.flatten
        let d := { d with fwd := { d.fwd with
          cursors := d.fwd.cursors.put [id] (if fin then none else some x')
          nextCursor := if n = 0 then id % 65535 + 1 else d.fwd.nextCursor } }
        (d, .ok (id + out.length * 2 ^ 16 + fin.toNat * 2 ^ 31)))

/-- CURSOR_EXPIRE: a cursor idle for 10 s closes (R181). -/
def Dev.cursorExpire (d : Dev) (n : Nat) : Dev :=
  match d.fwd.cursors.get? [n] with
  | none => d
  | some x => if x.used + 10000000000 ≤ d.now then { d with fwd := { d.fwd with cursors := d.fwd.cursors.erase [n] } } else d

/-! ### Learning, moves and export (R169–R173, R447, R448) -/

/-- Hand an EM_L2 entry to the learn export, while LEARN_EXPORT is set (R448). -/
def Dev.exportL2 (d : Dev) (reason : Nat) (k : Key) (e : EmEntry) : Dev :=
  if ¬ d.flag uSVC SVC_CFG.LEARN_EXPORT then d else
  let w := d.fwd.exports.getD ([], d.now) [reason]
  { d with fwd := { d.fwd with exports := d.fwd.exports.insert [reason] (w.1 ++ [emRec k e false], if w.1.isEmpty then d.now else w.2) } }

/-- Does the device learn and age now: always, but while HEADLESS only with LEARN_EN (R392)? -/
def Dev.learning (d : Dev) : Bool := !d.flag 0 HDL_STATUS.HEADLESS || d.flag 0 HDL_CFG.LEARN_EN

/-- A flume's learn report (R169): merged, queued or discarded. -/
def Dev.reportLearn (d : Dev) (l : Learn) : Dev :=
  if d.get uTBE TBE_CFG.LEARN_MODE = 0 ∨ ¬ d.learning then d
  else if (d.fwd.learns.take 1024).any (fun x => x.bd == l.bd && x.mac == l.mac) then d.bump uTBE TBE_LEARN_MERGED.COUNT
  else if 16384 ≤ d.fwd.learns.length then
    let d := d.bump uTBE TBE_LEARN_DROP.COUNT
    d.raiseOnce uTBE 0x11 0 (fun _ => leBytes 4 (d.get uTBE TBE_LEARN_DROP.COUNT))
  else { d with fwd := { d.fwd with learns := d.fwd.learns ++ [l] } }

/-- Is a learn a move against a static entry (R171)? -/
def Dev.staticMove (d : Dev) (l : Learn) : Bool :=
  (d.fwd.em.get? [tL2, l.bd, l.mac]).any (fun e => e.static && resAt e.result 0 16 0 != l.sysport)

/-- Would a learn report be queued: made, not merged, and with room (R169)? -/
def Dev.queuesLearn (d : Dev) (l : Learn) : Bool :=
  d.get uTBE TBE_CFG.LEARN_MODE != 0 && d.learning && !(d.fwd.learns.take 1024).any (fun x => x.bd == l.bd && x.mac == l.mac)
    && decide (d.fwd.learns.length < 16384)

/-- A move reported against a static entry (R171). -/
def Dev.noteStaticMove (d : Dev) (l : Learn) : Dev :=
  (d.bump uTBE TBE_STATIC_MOVES.COUNT).raiseLimited uTBE 0x10 0 1000 (fun _ =>
    leBytes 6 l.mac ++ leBytes 2 l.bd ++ leBytes 3 l.sysport)

/-- Apply a learn (R160, R170, R171). -/
def Dev.applyLearn (d : Dev) (l : Learn) : Dev :=
  let k : Key := [tL2, l.bd, l.mac]
  match d.fwd.em.get? k with
  | some e =>
    if resAt e.result 0 16 0 = l.sysport then d
    else if e.static then d.noteStaticMove l
    else
      let e := { e with result := setBits e.result 16 0 l.sysport }
      let d := { d with fwd := { d.fwd with em := d.fwd.em.insert k e } }
      (((d.bump uTBE TBE_MOVES.COUNT).bump uTBE TBE_LEARNS.COUNT).tally uTBE 0x25 1).exportL2 0x40 k e
  | none =>
    let r := d.emPlace k (fun p => { place := p, result := l.sysport, active := true, learned := true })
    match r.1.fwd.em.get? k with
    | some e => ((r.1.bump uTBE TBE_LEARNS.COUNT).tally uTBE 0x25 1).exportL2 0x40 k e
    | none => r.1

/-- Bit of PERM that admits learn reports (R460). -/
def permLEARN : Nat := 7

/-- AGT_STATUS.STATE of a running agent. -/
def agRUNNING : Nat := 2

/-- LEARN_REPORT: the oldest report is applied by the table engine, or handed to an agent in mode 2 (R169, R447). -/
def Dev.learnReport (d : Dev) : Dev :=
  match d.fwd.learns with
  | [] => d
  | l :: rest =>
    let d := { d with fwd := { d.fwd with learns := rest } }
    let slot := (List.range 64).find? (fun s => d.getI uSVC AGT_STATUS.STATE s == agRUNNING && bit (d.agent s).perm permLEARN)
    if d.get uTBE TBE_CFG.LEARN_MODE = 2 then
      match slot with
      | some s => (if d.staticMove l then d.noteStaticMove l else d).pushMsg s 6 (recBytes tL2 l.bd 0 l.mac l.sysport false false false false false)
      | none => d.applyLearn l
    else d.applyLearn l

/-- Ask for an activity update of an entry that needs one (R173). -/
def Dev.askActivity (d : Dev) (k : Key) : Dev :=
  match d.fwd.em.get? k with
  | none => d
  | some e =>
    if (¬ e.active ∨ e.pendAge) ∧ ¬ d.fwd.activity.contains k then { d with fwd := { d.fwd with activity := d.fwd.activity ++ [k] } }
    else d

/-- Write an activity update of a key: ACTIVE sets and PEND_AGE clears, or it finds no entry. -/
def Dev.applyActivity (d : Dev) (k : Key) : Dev :=
  let d := { d with fwd := { d.fwd with activity := d.fwd.activity.erase k } }
  match d.fwd.em.get? k with
  | some e => { d with fwd := { d.fwd with em := d.fwd.em.insert k { e with active := true, pendAge := false } } }
  | none => d.bump uTBE TBE_ACT_LATE.COUNT

/-- ACTIVITY_UPDATE: the oldest update asked for. -/
def Dev.activityUpdate (d : Dev) : Dev :=
  match d.fwd.activity with
  | [] => d
  | k :: _ => d.applyActivity k

/-- AGE_TIME of a table, s (R172). -/
def Dev.ageTime (d : Dev) (t : Nat) : Nat := d.fwd.ageTime.getD (if t = tL2 then 300 else 0) [t]

/-- Does a table age? -/
def ages (t : Nat) : Bool := [tL2, tHOST4, tHOST6, tFLOW].contains t

/-- The sweep at one entry. With `updatesFirst` an update that waits for the entry reaches it before the delete does. -/
def Dev.ageEntry (d : Dev) (updatesFirst : Bool) (k : Key) : Dev :=
  match d.fwd.em.get? k with
  | none => d
  | some e =>
    let put (e' : EmEntry) : Dev := { d with fwd := { d.fwd with em := d.fwd.em.insert k e' } }
    if e.static then d
    else if e.active then put { e with active := false, pendAge := false }
    else if ¬ e.pendAge then put { e with pendAge := true }
    else if updatesFirst ∧ d.fwd.activity.contains k then (d.applyActivity k).bump uTBE TBE_AGE_CANCEL.COUNT
    else
      let d := ((d.emRemove k).bump uTBE TBE_AGED.COUNT).tally uTBE 0x27 1
      if k.getD 0 0 = tL2 then d.exportL2 0x41 k e else d

/-- AGE_SWEEP of one table, every AGE_TIME ÷ 2 (R172). -/
def Dev.ageSweep (d : Dev) (t : Nat) (updatesFirst : Bool) : Dev :=
  if ages t ∧ d.ageTime t ≠ 0 ∧ d.learning ∧ d.fwd.ageSwept.getD 0 [t] + d.ageTime t * 500000000 ≤ d.now then
    let d := { d with fwd := { d.fwd with ageSwept := d.fwd.ageSwept.insert [t] d.now } }
    ((d.fwd.em.filter (fun e => e.1.headD 0 == t)).map (·.1)).foldl (fun d k => d.ageEntry updatesFirst k) d
  else d

/-- Parameter table of TBL_AGE_CFG (R185). -/
def HCmd.tblAgeCfgParams (c : HCmd) : List Param :=
  [c.must 0 7 0 ages, c.zero 0 31 8, c.must 4 19 0 (fun n => decide (n ≤ 1000000)), c.zero 4 31 20]

/-- TBL_AGE_CFG (0x0107). -/
def Dev.tblAgeCfg (d : Dev) (c : HCmd) : Dev :=
  d.commandNow c 0x0107 c.tblAgeCfgParams (fun d =>
    if ¬ d.tbeReady then (d, .fail stUNIT_UNAVAILABLE)
    else ({ d with fwd := { d.fwd with ageTime := d.fwd.ageTime.insert [c.par 0 7 0] (c.par 4 19 0) } }, .ok))

/-! ### TBL_FLUSH_PORT, TBL_BULK_LOAD, LPM_COMMIT (R183, R184, R186) -/

/-- Parameter table of TBL_FLUSH_PORT (R183). -/
def HCmd.tblFlushPortParams (c : HCmd) : List Param :=
  [pAny 0 16 0, pAny 0 17 17, pAny 0 18 18, c.zero 0 31 19, pAny 4 15 0, c.zero 4 31 16]

/-- TBL_FLUSH_PORT (0x0105): the sweep begins; four run at once. -/
def Dev.tblFlushPort (d : Dev) (c : HCmd) : Dev :=
  d.command c 0x0105 c.tblFlushPortParams (fun d =>
    if ¬ d.tbeReady then (d, some (.fail stUNIT_UNAVAILABLE))
    else if 4 ≤ d.fwd.flushes.length then (d, some (.fail stRETRY_LATER))
    else
      let f : Flush := { ticket := c.ticket, sysport := c.par 0 16 0, bd := if c.par 0 17 17 = 1 then some (c.par 4 15 0) else none,
                         static := c.par 0 18 18 == 1, since := d.now }
      ({ d with fwd := { d.fwd with flushes := d.fwd.flushes ++ [f] } }, none))

/-- Where a sweep meets an entry: its bucket, or the sump after the last bucket. -/
def Place.swept (p : Place) : Nat :=
  match p with
  | .slot b _ _ => b
  | .sump => emBuckets

/-- Does a flush delete an entry of EM_L2? -/
def Flush.takes (f : Flush) (k : Key) (e : EmEntry) : Bool :=
  k.headD 0 == tL2 && resAt e.result 0 16 0 == f.sysport && f.bd.all (fun b => k.getD 1 0 == b) && (!e.static || f.static)

/-- A flush sweeps on, a free number of buckets in a nanosecond, and ends within 300 ms with the count deleted. An entry that lies, or comes to
lie, in a bucket the sweep has passed stays. -/
def Dev.flushOn (d : Dev) (f : Flush) : Dev :=
  let edge := if f.since + 300000000 ≤ d.now then emBuckets + 1 else min (emBuckets + 1) (f.pos + Config.flushPace d.draws)
  let d := { d with draws := d.draws + 1 }
  let gone := d.fwd.em.filter (fun e => f.takes e.1 e.2 && decide (f.pos ≤ e.2.place.swept) && decide (e.2.place.swept < edge))
  let d := gone.foldl (fun d e => (d.emRemove e.1).exportL2 0x41 e.1 e.2) d
  let n := f.count + gone.length
  if edge = emBuckets + 1 then
    ({ d with fwd := { d.fwd with flushes := d.fwd.flushes.filter (fun g => g.ticket != f.ticket) } } : Dev).finish f.ticket (.ok n)
  else { d with fwd := { d.fwd with flushes := d.fwd.flushes.map (fun g => if g.ticket = f.ticket then { f with pos := edge, count := n } else g) } }

/-- Every flush sweeps on. -/
def Dev.flushesOn (d : Dev) : Dev := d.fwd.flushes.foldl Dev.flushOn d

/-- What a bulk load has done so far. -/
structure Bulk where
  dev : Dev
  applied : Nat := 0
  first : Option (Nat × Nat) := none
  deriving DecidableEq, Repr

/-- Apply records in order; without `go` the first failure ends it (R184). -/
def bulkRun (del go : Bool) : Nat → Nat → List Byte → Bulk → Bulk
  | 0, _, _, b => b
  | n + 1, i, bytes, b =>
    if b.first.isSome ∧ ¬ go then b else
    let r := if del then b.dev.deleteRec (readRec (slice bytes 0 64)) else b.dev.insertRec (readRec (slice bytes 0 64))
    let b' : Bulk := match r.2 with
      | .done _ _ => { b with dev := r.1, applied := b.applied + 1 }
      | .fail st => { b with dev := r.1, first := b.first.orElse (fun _ => some (st, i)) }
    bulkRun del go n (i + 1) (bytes.drop 64) b'

/-- TBL_BULK_LOAD (0x0106). -/
def Dev.tblBulkLoad (d : Dev) (c : HCmd) : Dev :=
  d.tblCommand c 0x0106 [pAny 0 0 0, pAny 0 1 1, c.zero 0 31 2, c.must 4 16 0 (fun n => decide (1 ≤ n ∧ n ≤ 65536)), c.zero 4 31 17]
    (fun d =>
      let b := bulkRun (c.par 0 0 0 == 1) (c.par 0 1 1 == 1) (c.par 4 16 0) 0 c.block { dev := d }
      match b.first with
      | none => (b.dev, .ok b.applied)
      | some (st, i) =>
        (b.dev, ⟨st, b.applied + st * 2 ^ 32 + i * 2 ^ 40, if st = stMALFORMED then 0xFF else 0⟩))

/-- Parameter table of LPM_COMMIT (R186). -/
def HCmd.lpmCommitParams (c : HCmd) : List Param :=
  [pAny 0 15 0, pAny 0 16 16, pAny 0 17 17, c.zero 0 31 18]

/-- LPM_COMMIT (0x0108). The TABLE that TABLE_FULL names, that of the batch's first change, is the model's choice. -/
def Dev.lpmCommit (d : Dev) (c : HCmd) : Dev :=
  d.commandNow c 0x0108 c.lpmCommitParams (fun d =>
    if ¬ d.tbeReady then (d, .fail stUNIT_UNAVAILABLE)
    else
      let mine := d.fwd.staged.filter (fun s => c.par 0 16 16 == 1 || s.key.getD 0 0 == c.par 0 15 0)
      let keep (d : Dev) : Dev := { d with fwd := { d.fwd with staged := d.fwd.staged.filter (fun s => !mine.contains s) } }
      if c.par 0 17 17 = 1 then (keep d, .ok (d.get uTBE TBE_ROUTE_GEN.COUNT))
      else
        let all := mine.foldl (fun o s => o.bind (fun d => (d.applyRoute s.key s.nextHop).map (·.1))) (some d)
        match all.filter (fun d' => d'.lpmFits d.lpmUsed) with
        | none => (d.tableFull ((mine.head?.map (fun s => s.key.getD 1 0)).getD tLPM4), .fail stTABLE_FULL)
        | some d' =>
          let d' := ((keep d').showLpm).bump uTBE TBE_ROUTE_GEN.COUNT
          let g := d'.get uTBE TBE_ROUTE_GEN.COUNT
          (d'.raise uTBE 0x15 (leBytes 4 g), .ok g))

def execTblInsert (c : HCmd) (s : State) : Answer := s.go (·.tblInsert c)
def execTblDelete (c : HCmd) (s : State) : Answer := s.go (·.tblDelete c)
def execTblSearch (c : HCmd) (s : State) : Answer := s.go (·.tblSearch c)
def execTblNext (c : HCmd) (s : State) : Answer := s.go (·.tblNext c)
def execCursorExpire (cursor : Nat) (s : State) : Answer := s.go (·.cursorExpire cursor)
def execTblFlushPort (c : HCmd) (s : State) : Answer := s.go (·.tblFlushPort c)
def execTblBulkLoad (c : HCmd) (s : State) : Answer := s.go (·.tblBulkLoad c)
def execTblAgeCfg (c : HCmd) (s : State) : Answer := s.go (·.tblAgeCfg c)
def execLpmCommit (c : HCmd) (s : State) : Answer := s.go (·.lpmCommit c)
def execLearnReport (s : State) : Answer := s.go Dev.learnReport
def execActivityUpdate (s : State) : Answer := s.go Dev.activityUpdate
def execAgeSweep (table : Nat) (updatesFirst : Bool) (s : State) : Answer := s.go (·.ageSweep table updatesFirst)
def execRelocationStart (key : List Nat) (s : State) : Answer := s.go (·.relocationStart key)
def execRelocationFinish (key : List Nat) (s : State) : Answer := s.go (·.relocationFinish key)

end Sys2Proof.Machine
end

