-- ==== Sys2Proof/Machine/Pass.lean ====
section
/-! DEFINITION. One pass through a flume's eight stages: interfaces, kinds, lookups, the flow hash and the action stage
(R113, R118, R124, R152, R153, R164–R169, R194–R201, R272). -/
namespace Sys2Proof.Machine

/-- System port of a local port (R5). -/
def Dev.sysport (d : Dev) (port : Nat) : Nat := d.deviceId * 128 + port

/-- Stage unit *k* of a flume (R43). -/
def uStage (flume k : Nat) : Nat := 1024 + 8 * (flume - 32) + k

/-! ### Stage 0 -/

/-- What stages 0 and 1 find out about a pass. `later`: the packet is treated as a later fragment. -/
structure Seen where
  k : Pkt
  un : Nat
  body : List Byte
  frame : List Byte
  hs : List Hdr
  flags : Nat
  front : Front
  frag : Option Frag
  later : Bool
  dec : Option FragDecision
  iface : Option Nat
  act : ClsAction := {}
  missed : Bool := false
  deriving DecidableEq, Repr

/-- Lateral of a pass. -/
def Seen.lat (s : Seen) : Nat := s.k.lat

/-- The interface entry of a packet: that of its outer VLAN as received, else the port default (R194). -/
def Dev.ifaceOf (d : Dev) (port vlan : Nat) : Option Nat :=
  let r := d.ixAt tIFACE (port * 4096 + vlan)
  let q := d.ixAt tIFACE (port * 4096 + 0xFFF)
  if r ≠ 0 then some r else if q ≠ 0 then some q else none

/-- Count an exception flag in the packet's first pass that shows it. -/
def Dev.countFlags (d : Dev) (port new : Nat) : Dev :=
  let d := if new &&& fLEN ≠ 0 then d.bumpI uPRS PRS_LEN_CONFLICT.COUNT port else d
  let d := if new &&& fDEPTH ≠ 0 then d.bump uPRS PRS_DEPTH_CNT.COUNT else d
  if new &&& fUNKNOWN ≠ 0 then d.bump uPRS PRS_UNKNOWN_CNT.COUNT else d

/-- Stage 0. -/
def Dev.stage0 (d : Dev) (un : Nat) (k : Pkt) : Dev × Seen :=
  let body := d.bodyBytes k.hdr.handle
  let frame := windowOf body k.strip
  let p := d.parse body k.strip k.first k.counted k.proto
  let frag := d.findFrag frame p.hdrs none
  let en := d.flag uPRS PRS_FRAG_CFG.EN
  let later : Bool := frag.any (fun f => !f.firstFrag || !en)
  let look : Dev × Option FragDecision := match frag with
    | none => (d, none)
    | some f => if ¬ later then (d, none) else if en then d.fragLookup f.key else (d.bump uPRS FRAG_NO_ENTRY.COUNT, none)
  let flags := p.flags ||| (match frag with | none => 0 | some f => if f.firstFrag then fFIRST else fLATER)
    ||| (if look.2.isSome then fHIT else 0) ||| (if (d.ptpHdr p).isSome then fPTP else 0)
  let d := (look.1.tally uPRS 0x20 1).tally uPRS 0x21 p.hdrs.length
  let d := d.tallySel uPRS 0x22 1 (fun q => flags &&& (if q % 256 = 0 then 0x47 else q % 256) != 0)
  let d := d.countFlags k.hdr.port (clearBits flags k.seen)
  let front := frontOf frame p.hdrs
  let k := { k with vlan := if k.pass = 0 then front.vlan else k.vlan }
  (d, { k := { k with seen := k.seen ||| flags }, un := un, body := body, frame := frame, hs := p.hdrs, flags := flags,
        front := front, frag := frag, later := later, dec := look.2, iface := d.ifaceOf k.hdr.port k.vlan })

/-- Stage 1: a later fragment with an entry takes its recorded action; any other packet is searched (R118, R123). That the recorded action
stands also where the parse set UNKNOWN_NEXT or DEPTH_EXCEEDED, though such a fragment searched no partition (R124), is the model's choice. -/
def Dev.stage1 (d : Dev) (s : Seen) : Dev × Seen :=
  match s.dec with
  | some x => (d, { s with act := x.action })
  | none =>
    let r := d.classify s.k.parts s.lat s.k.stamp s.frame s.hs ⟨s.k.hdr.port, s.flags, s.k.stamp, s.k.pass, s.k.tag⟩
    (r.1, { s with act := r.2.1, missed := r.2.2 })

/-! ### Kinds (R195) -/

/-- Forwarding kinds. `routerMac`: to the router MAC but neither IP nor MPLS; `unfit`: none of the manual's rows. -/
inductive Kind
  | routed | tunnel (t : Nat) | label | bridged | routerMac | unfit
  deriving DecidableEq, Repr

def isIpType (t : Nat) : Bool := t == 0x0800 || t == 0x86DD

/-- The valid tunnel register whose node the parse found. Where the parse found the nodes of several, the lowest counts: the model's choice,
R195 says nothing of it. -/
def Dev.tunnelOf (d : Dev) (hs : List Hdr) : Option Nat :=
  ([1, 2, 3, 4].find? (fun t => d.flagI 67 DST_TUNNEL.VALID (t - 1)
    && hs.any (fun h => h.node == d.getI 67 DST_TUNNEL.NODE (t - 1))))

/-- Routed, or tunnel when the interface allows it. -/
def Dev.routedKind (d : Dev) (s : Seen) (i : Nat) : Kind :=
  match d.tunnelOf s.hs with
  | some t => if resAt i 4 2 2 = 1 then .tunnel t else .routed
  | none => .routed

/-- The bridge domain of a pass: the one R165 carries, or the interface's. -/
def Seen.bd (s : Seen) : Nat := s.k.bd.getD (resAt (s.iface.getD 0) 2 15 0)

/-- The VRF of a pass. -/
def Seen.vrf (s : Seen) : Nat := s.k.vrf.getD (resAt (s.iface.getD 0) 0 15 0)

/-- Forwarding kind of a packet with interface `i`. A packet that no longer begins with Ethernet has no MAC to test: IP is
routed and MPLS is looked up as a label. -/
def Dev.kindOf (d : Dev) (s : Seen) (i : Nat) : Kind :=
  let t := s.front.etype
  if s.k.proto ≠ .eth then
    (if isIpType t then d.routedKind s i else if t = 0x8847 then .label else .unfit)
  else
    let r := resAt i 4 6 3
    let rmac : Bool := d.flagI 67 DST_RMAC.VALID r && d.getI 67 DST_RMAC.MAC r == beAt s.frame s.k.strip 6
    if rmac ∧ resAt i 4 0 0 = 1 ∧ isIpType t then d.routedKind s i
    else if rmac ∧ resAt i 4 0 0 = 1 ∧ t = 0x8847 then .label
    else if rmac ∧ ¬ isIpType t ∧ t ≠ 0x8847 ∧ t ≠ 0x8848 then .routerMac
    else if s.bd ≠ 0 then .bridged
    else .unfit

/-! ### IP fields and the flow hash (R168) -/

/-- What is read of an IP header and of the transport header after it. -/
structure Ip where
  v6 : Bool
  off : Nat
  proto : Nat
  l4 : Nat
  ports : Bool
  deriving DecidableEq, Repr

/-- Protocols whose header begins with two ports. -/
def hasPorts (p : Nat) : Bool := [6, 17, 33, 132, 136].contains p

/-- An IP header, as the parse found it and the headers after it: IPv6 extension headers stand between it and its transport header
(R109). -/
def ipOf (f : List Byte) (h : Hdr) (rest : List Hdr) : Ip :=
  let exts := rest.takeWhile (fun e => e.proto == .ip6Ext)
  let l4 := (rest.drop exts.length).head?.filter (fun e => e.proto == .l4)
  let v6 : Bool := h.proto == .ip6
  let p := if v6 then (exts.getLast?.getD h).field else beAt f (h.off + 9) 1
  let later : Bool := if v6 then ((h :: exts).zip exts).any (fun e => e.1.field == 44 && beAt f (e.2.off + 2) 2 / 8 != 0)
    else beAt f (h.off + 6) 2 % 0x2000 != 0
  ⟨v6, h.off, p, (l4.map (·.off)).getD 0, l4.isSome && hasPorts p && !later⟩

def Hdr.isIp (h : Hdr) : Bool := h.proto == .ip4 || h.proto == .ip6

/-- The first IP header of a list of headers. -/
def firstIp (f : List Byte) : List Hdr → Option Ip
  | [] => none
  | h :: hs => if h.isIp then some (ipOf f h hs) else firstIp f hs

/-- The last IP header of a list of headers. -/
def lastIp (f : List Byte) : List Hdr → Option Ip
  | [] => none
  | h :: hs =>
    match lastIp f hs with
    | some x => some x
    | none => if h.isIp then some (ipOf f h hs) else none

/-- Address bytes of an IP header, in wire order. -/
def Ip.src (x : Ip) (f : List Byte) : List Byte := if x.v6 then slice f (x.off + 8) 16 else slice f (x.off + 12) 4
def Ip.dst (x : Ip) (f : List Byte) : List Byte := if x.v6 then slice f (x.off + 24) 16 else slice f (x.off + 16) 4

/-- An address as a KEY field holds it (R557): IPv4 a number, IPv6 its bytes in order. -/
def addrField (b : List Byte) : Nat := if b.length = 4 then ofBe b else ofLe b

/-- The headers from the one that stands after Ethernet and its tags, where the parse found it. -/
def Seen.after (s : Seen) : List Hdr := s.hs.dropWhile (fun h => h.off != s.front.l3)

/-- The outermost IP header of a pass: the one the outer EtherType names. -/
def Seen.outerIp (s : Seen) : Option Ip :=
  match s.after with
  | h :: hs => if h.isIp then some (ipOf s.frame h hs) else none
  | [] => none

/-- The labels of the outermost stack. -/
def Seen.labels (s : Seen) : List Hdr := s.after.takeWhile (fun h => h.proto == .mpls)

/-- The top label stack entry, where the parse found one. -/
def Seen.topLabel (s : Seen) : Option Hdr := s.labels.head?

/-- The innermost IP header parsed. -/
def Seen.innerIp (s : Seen) : Option Ip := lastIp s.frame s.hs

/-- The entropy label of a stack of parsed labels: the one after label 7. -/
def entropyOf (f : List Byte) : List Hdr → Option Nat
  | a :: b :: hs => if beAt f a.off 4 / 2 ^ 12 = 7 then some (beAt f b.off 4 / 2 ^ 12) else entropyOf f (b :: hs)
  | _ => none

/-- Bytes that FLOW_HASH is computed over. That ENTROPY takes a label only of a packet whose outer EtherType is 0x8847, and not of a stack behind
0x8848 or below an outer IP and UDP header, is the model's choice (R168 speaks of an MPLS packet). -/
def Dev.flowBytes (d : Dev) (s : Seen) : List Byte :=
  let on (f : Fld) : Bool := d.flag uTBE f
  let port := if on TBE_FLOW_HASH.INPUT_PORT then beBytes 1 s.k.hdr.port else []
  match (if on TBE_FLOW_HASH.ENTROPY ∧ s.front.etype = 0x8847 then entropyOf s.frame s.labels else none) with
  | some e => beBytes 3 e ++ port
  | none =>
    match s.innerIp with
    | none => port
    | some x =>
      (if on TBE_FLOW_HASH.SRC_ADDR then x.src s.frame else [])
      ++ (if on TBE_FLOW_HASH.DST_ADDR then x.dst s.frame else [])
      ++ (if on TBE_FLOW_HASH.PROTO then beBytes 1 x.proto else [])
      ++ (if on TBE_FLOW_HASH.SRC_PORT ∧ x.ports then slice s.frame x.l4 2 else [])
      ++ (if on TBE_FLOW_HASH.DST_PORT ∧ x.ports then slice s.frame (x.l4 + 2) 2 else [])
      ++ (if on TBE_FLOW_HASH.FLOW_LABEL ∧ x.v6 then beBytes 3 (beAt s.frame (x.off + 1) 3 % 2 ^ 20) else []) ++ port

/-- FLOW_HASH; a later fragment with an entry uses the recorded hash. -/
def Dev.flowHash (d : Dev) (s : Seen) : Nat :=
  match s.dec with
  | some x => x.hash
  | none => crc32c (d.get uTBE TBE_FLOW_HASH.FLOW_SEED) (d.flowBytes s)

/-! ### Stage 2: lookups (R151–R153, R159, R169, R173, R174, R189) -/

/-- Does a QUALIFIER select a lateral? -/
def selLat (l q : Nat) : Bool := bit q l

/-- Count accesses of the LOOKUP port made for a pass. -/
def Dev.countAccess (d : Dev) (s : Seen) (n : Nat) : Dev :=
  (d.tallyQ uTBE 0x24 n (selLat s.lat)).tally (uStage s.un 2) 0x21 n

/-- ALT_COUNT of a bucket (R158). -/
def Dev.altCount (d : Dev) (b : Nat) : Nat :=
  (d.fwd.em.filter (fun e => d.emChoice e.1 false == b && (match e.2.place with
    | .slot _ _ sec => sec
    | .sump => false))).length

/-- Is a place found by the first read of a lookup: the sump, or a slot of the first choice? -/
def Place.early (p : Place) : Bool :=
  match p with
  | .slot _ _ sec => !sec
  | .sump => true

/-- Does a lookup of a key read its second choice: the key, or the copy of it that moves away, is in neither the first nor the sump, and
ALT_COUNT of the first is not zero (R159)? -/
def Dev.readsSecond (d : Dev) (k : Key) : Bool :=
  !(d.fwd.em.get? k).any (fun e => e.place.early || e.leaving.any Place.early) && d.altCount (d.emChoice k false) != 0

/-- Buckets, with their table, that a lookup of a key reads (R159). -/
def Dev.emReads (d : Dev) (k : Key) : List (Nat × Nat) :=
  (k.headD 0, d.emChoice k false) :: (if d.readsSecond k then [(k.headD 0, d.emChoice k true)] else [])

/-- Reads of a channel that is lost and not yet remapped are counted (R364). -/
def Dev.lostReads (d : Dev) (c n : Nat) : Dev :=
  if d.channelLost c then d.add (uSTK (c / 16)) DRC_DEAD_ACCESS.COUNT n else d

/-- One exact-match probe. A hit on an entry not marked active asks for an activity update. -/
def Dev.emProbe (d : Dev) (s : Seen) (k : Key) : Dev × Option EmEntry :=
  let hit := d.fwd.em.get? k
  let second := d.readsSecond k
  let d := (d.tallyQ uTBE 0x21 1 (selLat s.lat)).countAccess s (if second then 8 else 4)
  let d := d.lostReads (emChannel (d.emChoice k false)) 4
  let d := if second then (d.lostReads (emChannel (d.emChoice k true)) 4).tallyQ uTBE 0x22 1 (selLat s.lat) else d
  let d := if hit.any (fun e => e.place == .sump || e.leaving == some .sump) then d.tallyQ uTBE 0x23 1 (selLat s.lat) else d
  (d.askActivity k, hit)

/-- HOST bit of the region an address falls in (R149). -/
def Dev.hostBit (d : Dev) (v t addr : Nat) : Bool :=
  let r (v a : Nat) : Nat := d.region v t (a / 2 ^ (addrBits t - regionBits t))
  d.fwd.em.any (fun e => e.1.headD 0 == t + 3 && r (e.1.getD 1 0) (addrOf (t + 3) (e.1.getD 2 0)) == r v addr)

/-- The next hop of an address: host hit, longest prefix, or the VRF's default (R151–R153). -/
def Dev.route (d : Dev) (s : Seen) (x : Ip) : Dev × Option Nat :=
  let t := if x.v6 then tLPM6 else tLPM4
  let v := s.vrf
  let addr := ofBe (x.dst s.frame)
  let found := d.longest v t addr
  let ns := d.probed v t addr ((found.filter (fun f => !d.isDirect f.1)).map (·.1))
  let n := ns.length
  let d := (d.tallyQ uTBE 0x20 n (selLat s.lat)).countAccess s (2 * n)
  let d := ns.foldl (fun d len => [false, true].foldl (fun d second =>
    d.lostReads (lpmChannel (d.lpmChoice (routeKey v t len (maskAddr (addrBits t) len addr)) second)) 1) d) d
  let d := if found.any (fun f => f.2.place == 2 || f.2.leaving == some 2) then d.tallyQ uTBE 0x23 1 (selLat s.lat) else d
  let h : Dev × Option EmEntry := if d.hostBit v t addr then d.emProbe s [t + 3, v, addrField (x.dst s.frame)] else (d, none)
  let r := d.vrfRec v
  let dflt : Option Nat := if x.v6 then (if resAt r 4 20 20 = 1 then some (resAt r 4 19 0) else none)
    else (if resAt r 0 20 20 = 1 then some (resAt r 0 19 0) else none)
  (h.1, match h.2, found with
    | some e, _ => some (resAt e.result 0 19 0)
    | none, some f => some f.2.nextHop
    | none, none => dflt)

/-- Key of a FLOW entry. -/
def flowKey (vrfBd : Nat) (f : List Byte) (x : Ip) : Key :=
  [tFLOW, vrfBd, addrField (x.src f) + addrField (x.dst f) * 2 ^ 128 + x.proto * 2 ^ 256 + x.v6.toNat * 2 ^ 264
    + (if x.ports then beAt f x.l4 2 * 2 ^ 272 + beAt f (x.l4 + 2) 2 * 2 ^ 288 else 0)]

/-- The last IP header parsed before the first header of a node. -/
def lastIpBefore (f : List Byte) (node : Nat) (hs : List Hdr) : Option Ip := lastIp f (hs.takeWhile (fun h => h.node != node))

/-- Key of a TUNNEL entry (R195). -/
def Dev.tunnelKey (d : Dev) (s : Seen) (t : Nat) : Key :=
  let m : Meta := ⟨s.k.hdr.port, s.flags, s.k.stamp, s.k.pass, s.k.tag⟩
  let vni := extract s.frame s.hs m (d.getI 67 DST_TUNNEL.EXTRACT_LO (t - 1))
    + extract s.frame s.hs m (d.getI 67 DST_TUNNEL.EXTRACT_HI (t - 1)) * 2 ^ 16
  match lastIpBefore s.frame (d.getI 67 DST_TUNNEL.NODE (t - 1)) s.hs with
  | none => [tTUNNEL, s.vrf, t + vni * 2 ^ 32]
  | some x =>
    [tTUNNEL, s.vrf, t + x.v6.toNat * 2 ^ 8 + vni * 2 ^ 32 + addrField (x.dst s.frame) * 2 ^ 64]

/-- Destination and source MAC of a bridged packet. -/
def Seen.dmac (s : Seen) : Nat := beAt s.frame s.k.strip 6
def Seen.smac (s : Seen) : Nat := beAt s.frame (s.k.strip + 6) 6

/-- Is a port's learning bit set (R169)? -/
def Dev.learns (d : Dev) (port : Nat) : Bool :=
  if port < 64 then bit (d.get uTBE TBE_LEARN_PORT0.EN) port else bit (d.get uTBE TBE_LEARN_PORT1.EN) (port - 64)

/-- What stage 2 brings back. `moved`: a static entry names another port for the source address (R171). -/
structure Found where
  route : Option Nat := none
  flow : Option Nat := none
  tunnel : Option Nat := none
  l2 : Option Nat := none
  src : Option Nat := none
  moved : Bool := false
  /-- a lookup met a lost channel -/
  lost : Bool := false
  deriving DecidableEq, Repr

/-- The FLOW probe of an interface with FLOW_EN. A packet without an IP header has the key's address, protocol and port fields 0. -/
def Dev.flowProbe (d : Dev) (s : Seen) (i vrfBd : Nat) : Dev × Option Nat :=
  if resAt i 4 1 1 = 0 then (d, none) else
  let r := d.emProbe s (match s.outerIp with
    | some x => flowKey vrfBd s.frame x
    | none => [tFLOW, vrfBd, 0])
  (r.1, r.2.map (·.result))

/-- Source probe of a bridged packet, with its learn report. A packet is dropped for a static move only where its own report is queued, and so
counted in TBE_STATIC_MOVES (R171). -/
def Dev.sourceProbe (d : Dev) (s : Seen) (f : Found) : Dev × Found :=
  if ¬ d.learns s.k.hdr.port then (d, f) else
  let own := d.sysport s.k.hdr.port
  let r := d.emProbe s [tL2, s.bd, s.smac]
  let moved : Bool := r.1.staticMove ⟨s.bd, s.smac, own⟩ && r.1.queuesLearn ⟨s.bd, s.smac, own⟩
  let other : Bool := r.2.all (fun e => resAt e.result 0 16 0 != own)
  let d := if other then r.1.reportLearn ⟨s.bd, s.smac, own⟩ else r.1
  (d, { f with src := r.2.map (·.result)
               moved := moved && d.flag uTBE TBE_CFG.STATIC_MOVE_DROP })

/-- Stage 2. -/
def Dev.stage2 (d : Dev) (s : Seen) (i : Nat) (k : Kind) : Dev × Found :=
  let routed (d : Dev) (f : Found) : Dev × Found :=
    match s.outerIp with
    | none => (d, f)
    | some x =>
      let r := d.route s x
      let w := r.1.flowProbe s i s.vrf
      (w.1, { f with route := r.2, flow := w.2 })
  match k with
  | .routed => routed d {}
  | .tunnel t =>
    let r := d.emProbe s (d.tunnelKey s t)
    routed r.1 { tunnel := r.2.map (·.result) }
  | .bridged =>
    let r := d.emProbe s [tL2, s.bd, s.dmac]
    let w := r.1.flowProbe s i s.bd
    w.1.sourceProbe s { flow := w.2, l2 := r.2.map (·.result) }
  | _ => (d, {})

/-! ### The action stage (R199) -/

/-- How a pass ends. -/
inductive Ending
  | drop (reason : Nat)
  | punt (queue reason : Nat)
  | again (k : Pkt)
  | unicast (dest encap : Nat) (valid : Bool) (edit : Nat)
  | multicast (group edit : Nat)
  deriving DecidableEq, Repr

/-- An exception action (R124): 0 drop, 1 punt, 2 forward as the lookups decide. -/
def excAct (act q puntReason dropReason : Nat) : Option Ending :=
  match act with
  | 0 => some (.drop dropReason)
  | 1 => some (.punt q puntReason)
  | _ => none

/-- Order 1 of R199: an ending, or, with none, whether an exception action forwards the packet past MISS_DISP. -/
def Dev.exceptions (d : Dev) (s : Seen) : Option Ending × Bool :=
  let c (f : Fld) : Nat := d.get uPRS f
  let noEntry : Bool := s.later && s.dec.isNone
  let len := excAct (c PRS_EXC_CFG.LEN_ACT) (c PRS_EXC_CFG.LEN_QUEUE) 0x03 0x02
  let frag := excAct (c PRS_EXC_CFG.FRAG_ACT) (c PRS_EXC_CFG.FRAG_QUEUE) 0x04 0x03
  if s.flags &&& fLEN ≠ 0 ∧ len.isSome then (len, false)
  else if s.missed ∧ s.flags &&& fLEN ≠ 0 then (none, true)
  else if noEntry then (frag, true)
  else if ¬ s.missed then (none, false)
  else if s.flags &&& fUNKNOWN ≠ 0 then
    (excAct (c PRS_EXC_CFG.UNKNOWN_ACT) (c PRS_EXC_CFG.UNKNOWN_QUEUE) 0x05 0x0D, true)
  else if s.flags &&& fDEPTH ≠ 0 then
    (excAct (c PRS_EXC_CFG.DEPTH_ACT) (c PRS_EXC_CFG.DEPTH_QUEUE) 0x02 0x0D, true)
  else (none, false)

/-- The packet of the next pass after its first `n` headers are stripped, to byte `o`: it begins with the header parsed next; where none was,
its node is a free value and `proto` what it is (R109, R111, R165). -/
def Dev.stripTo (d : Dev) (s : Seen) (n o : Nat) (proto : Proto) : Pkt :=
  let k := { s.k with strip := o, counted := s.k.counted + n }
  match s.hs[n]? with
  | some h => { k with first := h.node, proto := h.proto }
  | none => { k with first := (Config.strippedNode d.draws).toNat, proto := proto }

/-- How many headers stand before the first that a test holds of. -/
def headersBefore (hs : List Hdr) (p : Hdr → Bool) : Nat := (hs.takeWhile (fun h => !p h)).length

/-- What a packet stripped to `o` begins with, as the next pass's window shows it (R20, R111). -/
def Seen.bareAt (s : Seen) (o : Nat) : Proto := bareProto (windowOf s.body o) o

/-- The next pass of a rule's recirculation; a STRIP_NODE that was not parsed strips nothing (R111, R135). -/
def Dev.ruleAgain (d : Dev) (s : Seen) : Pkt :=
  let k := match s.act.strip.bind (fun n => s.hs.find? (fun h => h.node == n)) with
    | some h => d.stripTo s (headersBefore s.hs (fun g => g.node == h.node)) h.off h.proto
    | none => s.k
  { k with tag := s.act.tag }

/-- The next pass after a label with ACTION 3: the top label, as the parse found it, is stripped (R165). -/
def Dev.labelAgain (d : Dev) (s : Seen) (ent : Nat) : Pkt :=
  let k := match s.topLabel with
    | none => s.k
    | some h =>
      let p := if bit (beAt s.frame h.off 4) 8 then s.bareAt (h.off + 4) else .mpls
      d.stripTo s (headersBefore s.hs (fun g => g.off == h.off) + 1) (h.off + 4) p
  { k with tag := 0, vrf := some (resAt ent 2 15 0), bd := none }

/-- The next pass after a TUNNEL hit (R165): GRE and VXLAN headers go too; an inner IP or MPLS header stays. -/
def Dev.tunnelAgain (d : Dev) (s : Seen) (t ent : Nat) : Pkt :=
  let node := d.getI 67 DST_TUNNEL.NODE (t - 1)
  let h := s.hs.find? (fun h => h.node == node)
  let o := match h with
    | some h => if t ≤ 2 then h.off + h.len else h.off
    | none => s.k.strip
  let n := if h.isNone then 0 else headersBefore s.hs (fun g => g.node == node) + (if t ≤ 2 then 1 else 0)
  let l2 : Bool := resAt ent 4 0 0 == 1
  let k := d.stripTo s n o (if l2 then .eth else if t = 4 then .mpls else s.bareAt o)
  if l2 then { k with proto := .eth, tag := 0, vrf := none, bd := some (resAt ent 2 15 0) }
  else { k with tag := 0, vrf := some (resAt ent 0 15 0), bd := none }

/-- Drop for an invalid next hop. -/
def Dev.nhInvalid (d : Dev) : Dev × Ending := (d.bump uTBE TBE_NH_INVALID.COUNT, .drop 0x05)

/-- How a next hop that is no group acts (R166). -/
def Dev.byType (d : Dev) (n edit : Nat) : Dev × Ending :=
  let r := d.ixAt tNH n
  match resAt r 0 2 0 with
  | 1 => (d, .unicast (resAt r 4 16 0) (resAt r 8 21 0) (resAt r 8 22 22 == 1) edit)
  | 3 => (d.bump uTBE TBE_NH_DROP.COUNT, .drop 0x05)
  | 4 => (d, .punt (resAt r 1 5 0) 0x22)
  | 5 => (d, .multicast (resAt r 4 15 0) edit)
  | _ => d.nhInvalid

/-- How a next hop acts (R166, R167). -/
def Dev.useNextHop (d : Dev) (n hash edit : Nat) : Dev × Ending :=
  let r := d.ixAt tNH n
  if resAt r 0 2 0 ≠ 2 then d.byType n edit else
  let g := d.ixAt tGROUP (resAt r 4 15 0)
  let size := resAt g 4 10 0
  if size = 0 then d.nhInvalid
  else d.byType (resAt (d.ixAt tMEMBER (resAt g 0 20 0 + hash / 2 ^ 16 * size / 2 ^ 16)) 0 19 0) edit

/-- TTL or hop limit that order 7 tests. -/
def Seen.ttl (s : Seen) (label : Bool) : Option Nat :=
  if label then s.topLabel.map (fun h => beAt s.frame (h.off + 3) 1)
  else s.outerIp.map (fun x => beAt s.frame (x.off + (if x.v6 then 7 else 8)) 1)

/-- Has a packet's destination MAC the group bit? Such a packet follows UNKNOWN_ACT, whatever its destination probe finds, DROP_DEST apart
(R195, R196). -/
def Seen.group (s : Seen) : Bool := bit (s.dmac / 2 ^ 40) 0

/-- UNKNOWN_ACT of the packet's bridge domain (R196). -/
def Dev.unknownAct (d : Dev) (s : Seen) : Nat := resAt (d.ixAt tBD s.bd) 2 1 0

/-- Order 6 of R199. -/
def Dev.order6 (d : Dev) (s : Seen) (k : Kind) (f : Found) : Option Ending :=
  match k with
  | .routerMac =>
    some (if d.flag 67 DST_FWD_CFG.RMAC_PUNT then .punt (d.get 67 DST_FWD_CFG.RMAC_QUEUE) 0x31 else .drop 0x07)
  | .unfit => some (.drop 0x07)
  | .bridged =>
    if f.l2.any (fun r => resAt r 0 17 17 == 1) ∨ f.src.any (fun r => resAt r 0 18 18 == 1)
      ∨ ((f.l2.isNone ∨ s.group = true) ∧ d.unknownAct s = 2) then some (.drop 0x07)
    else if f.moved then some (.drop 0) else none
  | _ => none

/-- Order 8 without a redirect or a flow's next hop. -/
def Dev.byKind (d : Dev) (s : Seen) (k : Kind) (f : Found) (ent hash edit : Nat) : Dev × Ending :=
  match k with
  | .label =>
    (match resAt ent 0 2 0 with
    | 0 => if d.flag uTBE TBE_CFG.LABEL_MISS_PUNT then (d, .punt (d.get uTBE TBE_CFG.LABEL_MISS_QUEUE) 0x21)
           else (d.bump uTBE TBE_LABEL_MISS.COUNT, .drop 0x05)
    | 4 => (d, .punt (resAt ent 1 5 0) 0x23)
    | _ => d.useNextHop (resAt ent 4 19 0) hash edit)
  | .bridged =>
    (match f.l2.filter (fun _ => !s.group) with
    | some r => (d, .unicast (resAt r 0 16 0) 0 false 0)
    | none =>
      if d.unknownAct s = 1 then (d, .punt (resAt (d.ixAt tBD s.bd) 3 5 0) 0x32)
      else (d, .multicast (resAt (d.ixAt tBD s.bd) 0 15 0) 0))
  | _ =>
    match f.route with
    | some n => d.useNextHop n hash edit
    | none =>
      let r := d.vrfRec s.vrf
      if resAt r 9 0 0 = 1 then (d, .punt (resAt r 10 5 0) 0x20) else (d.bump uTBE TBE_NO_ROUTE.COUNT, .drop 0x05)

/-- The action stage, the exceptions apart. `past`: an exception action forwards the packet past MISS_DISP. -/
def Dev.actOn (d : Dev) (s : Seen) (past : Bool) (k : Kind) (f : Found) (colour hash : Nat) : Dev × Ending :=
  let disp := if past then 0 else s.act.disp
  let ent := if k = .label then (s.topLabel.map (fun h => d.ixAt tMPLS (beAt s.frame h.off 4 / 2 ^ 12))).getD 0 else 0
  let swap : Bool := k == .label && resAt ent 0 2 0 == 1
  let edit := match k with
    | .label => if swap then 3 else if resAt ent 0 2 0 = 2 then 4 else 0
    | .bridged => 0
    | _ => if s.front.etype = 0x86DD then 2 else 1
  let ip : Bool := match k with
    | .routed | .tunnel _ => true
    | _ => false
  if disp = 1 then (d, .drop (if s.act.failed then 0x0C else 0x01))
  else if disp = 2 then (d, .punt s.act.puntQ 0x01)
  else if disp = 3 then (d, .again (d.ruleAgain s))
  else if (colour = yellow ∧ d.flag 67 DST_FWD_CFG.YELLOW_ACT) ∨ (colour = red ∧ d.flag 67 DST_FWD_CFG.RED_ACT) then (d, .drop 0x06)
  else if k = .label ∧ resAt ent 0 2 0 = 3 then (d, .again (d.labelAgain s ent))
  else
    match k, f.tunnel with
    | .tunnel t, some r => (d, .again (d.tunnelAgain s t r))
    | _, _ =>
      match d.order6 s k f with
      | some e => (d, e)
      | none =>
        if (ip ∨ swap) ∧ (s.ttl swap).any (· ≤ 1) then
          (d, if d.flag 67 DST_FWD_CFG.TTL_PUNT then .punt (d.get 67 DST_FWD_CFG.TTL_QUEUE) 0x30 else .drop 0x08)
        else if disp = 4 then d.useNextHop s.act.nextHop hash edit
        else
          match f.flow.filter (fun r => resAt r 0 20 20 == 1) with
          | some r => d.useNextHop (resAt r 0 19 0) hash edit
          | none => d.byKind s k f ent hash edit

/-- A field of a FLOW result that has a valid bit. -/
def flowField (f : Option Nat) (off hi valid : Nat) : Option Nat :=
  f.bind (fun r => if resAt r off valid valid = 1 then some (resAt r off hi 0) else none)

/-- Bytes of a pass (R201). -/
def Seen.bytes (s : Seen) : Nat := s.body.length + 4 - s.k.strip

/-- Stage 5: the rule's meter, then the flow's (R198, R272). -/
def Dev.meterPass (d : Dev) (s : Seen) (f : Found) : Dev × Nat :=
  let one (a : Dev × Nat) (m : Option Nat) : Dev × Nat := match m with
    | none => a
    | some m => a.1.meterOp m a.2 s.bytes
  one (one (d, s.k.colour) s.act.meter) (flowField f.flow 8 19 20)

/-- The buckets, with their tables, that the lookups of a pass read (R151, R159). -/
def Dev.bucketReads (d : Dev) (s : Seen) (i : Nat) (k : Kind) : List (Nat × Nat) :=
  let flow (vb : Nat) : List (Nat × Nat) := if resAt i 4 1 1 = 1 then d.emReads (match s.outerIp with
    | some x => flowKey vb s.frame x
    | none => [tFLOW, vb, 0]) else []
  let routed : List (Nat × Nat) := match s.outerIp with
    | none => []
    | some x =>
      let t := if x.v6 then tLPM6 else tLPM4
      let addr := ofBe (x.dst s.frame)
      let found := d.longest s.vrf t addr
      ((d.probed s.vrf t addr ((found.filter (fun f => !d.isDirect f.1)).map (·.1))).map (fun l =>
        (d.lpmReads s.vrf t addr l).map (fun b => (t, b)))).flatten
      ++ (if d.hostBit s.vrf t addr then d.emReads [t + 3, s.vrf, addrField (x.dst s.frame)] else []) ++ flow s.vrf
  match k with
  | .routed => routed
  | .tunnel t => d.emReads (d.tunnelKey s t) ++ routed
  | .bridged => d.emReads [tL2, s.bd, s.dmac] ++ flow s.bd ++ (if d.learns s.k.hdr.port then d.emReads [tL2, s.bd, s.smac] else [])
  | _ => []

/-- F-side address of a bucket of a table. -/
def bucketAddr (x : Nat × Nat) : Nat := if isLpm x.1 then lpmAddr x.2 else emAddr x.2

/-- A bucket that a read has found uncorrectable is rebuilt: installed entries from the firmware's copy, the learned ones in it dropped (R163). -/
def Dev.rebuildBucket (d : Dev) (x : Nat × Nat) : Dev :=
  let gone (e : Key × EmEntry) : Bool := isEm x.1 && e.2.learned && (match e.2.place with
    | .slot b _ _ => b == x.2
    | .sump => false)
  let d := ({ d with fwd := { d.fwd with em := d.fwd.em.filter (fun e => !gone e) } }).showEm
  (d.sideWrite false (bucketAddr x) 3 (if isLpm x.1 then 1 else 4)).raise uTBE 0x16 (leBytes 4 x.2 ++ leBytes 1 x.1)

/-- Stages 0 to 2 of a pass. Buckets in a poisoned range that its lookups read are rebuilt (R163, R364). -/
def Dev.lookups (d : Dev) (un : Nat) (k : Pkt) : Dev × Seen × Kind × Found :=
  let r0 := d.stage0 un k
  let r1 := r0.1.stage1 r0.2
  let s := r1.2
  let i := s.iface.getD 0
  let kind := if s.iface.isSome then r1.1.kindOf s i else .unfit
  let r2 := r1.1.stage2 s i kind
  let bad := (r1.1.bucketReads s i kind).filter (fun x => r1.1.tableLost (bucketAddr x))
  ((bad.filter (fun x => r1.1.sidePoisoned false (bucketAddr x))).eraseDups.foldl Dev.rebuildBucket r2.1, s, kind, { r2.2 with lost := !bad.isEmpty })

/-- A pass as far as its ending: stages 0 to 7. `lost`: one of its lookups has met an uncorrectable bucket. A packet dropped for a bucket in a
lost channel raises no BUCKET_LOST, whose bucket no read has found uncorrectable: the model's choice (R163, R187). -/
def Dev.runPass (d : Dev) (un : Nat) (k : Pkt) (lost : Bool) : Dev × Seen × Kind × Found × Ending × Nat :=
  let l := d.lookups un k
  let s := l.2.1
  let kind := l.2.2.1
  let r2 : Dev × Found := (l.1, l.2.2.2)
  let hash := r2.1.flowHash s
  let r5 := r2.1.meterPass s r2.2
  let up := (s.act.counter.toList ++ (flowField r2.2.flow 4 24 25).toList).map (fun c => (c, s.bytes))
  let s := { s with k := { s.k with updates := up, colour := r5.2 } }
  let exc := r5.1.exceptions s
  let e : Dev × Ending := if lost ∨ r2.2.lost then (r5.1.bump uTBE TBE_LOOKUP_ECC.COUNT, .drop 0x09) else match exc.1 with
    | some e => (r5.1, e)
    | none => if s.iface.isNone ∧ ¬ (s.dec.isSome ∧ [1, 2, 3].contains s.act.disp) then (r5.1, .drop 0x04) else r5.1.actOn s exc.2 kind r2.2 r5.2 hash
  ({ e.1 with draws := e.1.draws + 1 }, s, kind, r2.2, e.2, hash)

end Sys2Proof.Machine
end

