-- ==== Sys2Proof/Machine/Ports.lean ====
section
/-! DEFINITION. The link state machine of the ports (R77–R88, R94, R106). -/
namespace Sys2Proof.Machine

def Dev.portX (d : Dev) (p : Nat) : PortX := d.panel.ports.getD {} [p]

def Dev.setPortX (d : Dev) (p : Nat) (x : PortX) : Dev := { d with panel := { d.panel with ports := d.panel.ports.setD {} [p] x } }

def Dev.slot (d : Dev) (s : Nat) : Slot := d.panel.slots.getD {} [s]

def Dev.setSlot (d : Dev) (s : Nat) (x : Slot) : Dev := { d with panel := { d.panel with slots := d.panel.slots.setD {} [s] x } }

/-! ### Cages (R89) -/

/-- Lanes of the cage at a slot, 0 for none. -/
def Dev.cageLanes (d : Dev) (s : Nat) : Nat :=
  match d.get (uPort s) PRT_CTRL.CAGE_WIDTH with
  | 1 => 1
  | 2 => 2
  | 3 => 4
  | 4 => 8
  | _ => 0

/-- The cage whose lanes hold a port's lanes. -/
def Dev.cageOf (d : Dev) (p : Nat) : Option Nat :=
  (List.range 8).map (leadOf p + ·) |>.find? (fun s => decide (s ≤ p ∧ p + d.portLanes p ≤ s + d.cageLanes s))

/-- The ports in use whose module is in a slot's cage. -/
def Dev.cagePorts (d : Dev) (s : Nat) : List Nat :=
  ((List.range 8).map (leadOf s + ·)).filter (fun p => d.portInUse p && d.cageOf p == some s)

/-- Is a port's module present and ready? -/
def Dev.moduleReady (d : Dev) (p : Nat) : Bool :=
  match d.cageOf p with
  | none => false
  | some s => (d.slot s).present && (d.slot s).ready

/-- The ports of an octet. -/
def octetPorts (p : Nat) : List Nat := (List.range 8).map (leadOf p + ·)

/-- The module bits of PRT_STATUS follow the slots, for the ports in use of the octet that holds a slot or port. -/
def Dev.showModule (d : Dev) (s : Nat) : Dev :=
  ((octetPorts s).filter (fun p => d.portInUse p)).foldl (fun d p =>
    let x := (d.cageOf p).map d.slot
    (d.setFlag (uPort p) PRT_STATUS.MODULE_PRESENT (x.any (·.present))).setFlag (uPort p) PRT_STATUS.MODULE_READY
      (x.any (fun x => x.present && x.ready))) d

/-! ### Conditions of R83 -/

/-- A map of eight 3-bit lanes that is a permutation (R78). -/
def laneMapOk (m : Nat) : Bool := (List.range 8).all (fun v => (List.range 8).any (fun i => bits m (3 * i + 2) (3 * i) == v))

def Dev.lanesOk (d : Dev) (p : Nat) : Bool :=
  laneMapOk (d.get (uPort (leadOf p)) PRT_LANE_MAP.TX_MAP) && laneMapOk (d.get (uPort (leadOf p)) PRT_LANE_MAP.RX_MAP)

/-- Does an egress editor in service serve a port's group (R214, R391)? -/
def Dev.editorServes (d : Dev) (p : Nat) : Bool :=
  (List.range 10).any (fun e => d.svc (80 + e) == sACTIVE && d.get (80 + e) EDT_STATUS.PORT_GROUP == p / 16)

def Dev.drainState (d : Dev) (p : Nat) : Nat := d.get (uPort p) PRT_STATUS.DRAIN_STATE

/-- Is a port released (R83)? -/
def Dev.released (d : Dev) (p : Nat) : Bool := d.drainState p != 3 && d.editorServes p

/-- DOWN_CAUSE of a port that is taken down: an invalid lane map of its octet keeps 11 (R78). -/
def Dev.causeAt (d : Dev) (p cause : Nat) : Nat := if d.portInUse p ∧ ¬ d.lanesOk p then 11 else cause

/-! ### Changes of LINK_STATE -/

/-- Does a state carry LINK_DOWN when it is entered from UP or UP_PENDING? -/
def downEntry (new : Nat) : Bool := new == lsDISABLED || new == lsNO_MODULE || new == lsTRAINING

/-- Enter a link state with a cause: LINK_DOWN and its count from UP or UP_PENDING, and the port hold (R83, R288). -/
def Dev.setLink (d : Dev) (p new cause : Nat) : Dev :=
  let old := d.linkState p
  let d := d.set (uPort p) PRT_STATUS.LINK_STATE new
  let d := if cause = 0 then d else d.set (uPort p) PRT_STATUS.DOWN_CAUSE cause
  let d := if (old = lsUP ∨ old = lsUP_PENDING) ∧ downEntry new then
      (d.bump (uPort p) PRT_LINK_DOWN.COUNT).raise (uPort p) 0x11 (leBytes 1 cause ++ leBytes 1 old)
    else d
  let d := if new = lsUP ∨ new = lsUP_PENDING then d else d.set (uPort p) PRT_STATUS.LANE_LOCK 0
  if old = lsUP ∧ new ≠ lsUP then d.holdLeaveUp p
  else if old ≠ lsUP ∧ new = lsUP then d.rises (uPort p) 0x26 else d

/-- Start attempt 1 (R83). -/
def Dev.startTraining (d : Dev) (p cause : Nat) : Dev :=
  let d := d.setPortX p { d.portX p with trainStart := d.now }
  (d.set (uPort p) PRT_STATUS.TRAIN_FAILS 0).setLink p lsTRAINING cause

/-- The rows that leave DISABLED and NO_MODULE, which act on levels (R83). -/
def Dev.settlePort (d : Dev) (p : Nat) : Dev :=
  if d.portInUse p ∧ d.flag (uPort p) PRT_CTRL.ADMIN_UP ∧ d.released p ∧ d.lanesOk p ∧ ¬ d.stopped (uPort p) then
    if d.linkState p = lsDISABLED then
      if d.moduleReady p ∨ d.get (uPort p) PRT_MODE.MEDIA = 2 then d.startTraining p 0
      else d.setLink p lsNO_MODULE 0
    else if d.linkState p = lsNO_MODULE ∧ d.moduleReady p then d.startTraining p 0
    else d
  else d

def Dev.settlePorts (d : Dev) (ps : List Nat) : Dev := ps.foldl (fun d p => d.settlePort p) d

/-- Take a port to DISABLED, leaving its episode (R83). -/
def Dev.disablePort (d : Dev) (p cause : Nat) : Dev :=
  let d := d.setPortX p { d.portX p with episode := false }
  if d.linkState p = lsDISABLED then d.set (uPort p) PRT_STATUS.DOWN_CAUSE cause else d.setLink p lsDISABLED cause

/-- Frames cut by a link loss: one being received, and the one being sent, which stands first at the port's editor
(R86, R87). -/
def Dev.cutFrames (d : Dev) (p : Nat) (rxCut txCut : Bool) : Dev :=
  let d := if rxCut then d.bump (uPort p) PRT_RX_TRUNCATED.COUNT else d
  match txCut, d.sch.editorQ.getD [] [p] with
  | true, _ :: rest =>
    ({ d with sch := { d.sch with editorQ := d.sch.editorQ.setD [] [p] rest } }).bump (uPort p) PRT_TX_ABORT.COUNT
  | _, _ => d

/-- Take an UP port's frames off it where no operand says which it meets: whether one is being received, and one sent, are free
values. With `finish` the one being sent, first at the port's editor, goes out all the same (R83, R86, R87). -/
def Dev.interrupt (d : Dev) (p : Nat) (finish : Bool) : Dev :=
  if d.linkState p ≠ lsUP then d else
  let rx := Config.receiving d.draws p
  let tx := Config.sending d.draws p
  let d := { d with draws := d.draws + 1 }
  if finish then (d.setPortX p { d.portX p with finishing := tx && !(d.sch.editorQ.getD [] [p]).isEmpty }).cutFrames p rx false
  else d.cutFrames p rx tx

/-- A frame being received when an UP link goes down is truncated; the one being sent is cut. -/
def Dev.downPort (d : Dev) (p cause : Nat) (finish : Bool) : Dev := (d.interrupt p finish).disablePort p (d.causeAt p cause)

/-! ### Commands and events of a link -/

/-- TRAINING_CONVERGED. Nothing reaches the wire while the port's NPLL has stopped (R507). -/
def Dev.trainingConverged (d : Dev) (p : Nat) : Dev :=
  if d.portInUse p ∧ d.linkState p = lsTRAINING ∧ ¬ d.pllStopped (780 + p / 32) then d.setLink p lsALIGNING 0 else d

/-- TRAIN_TIMEOUT: an attempt fails; `lanes` is the mask of lanes that failed (R83, R84, R106). -/
def Dev.trainTimeout (d : Dev) (p lanes : Nat) : Dev :=
  if d.portInUse p ∧ (d.linkState p = lsTRAINING ∨ d.linkState p = lsALIGNING) then
    let d := d.bumpSat (uPort p) PRT_STATUS.TRAIN_FAILS
    let fails := d.get (uPort p) PRT_STATUS.TRAIN_FAILS
    if fails < d.act (uPort p) PRT_TIMERS.TRAIN_ATTEMPTS then d.setLink p lsTRAINING 0
    else
      let d := d.setLink p lsTRAIN_FAILED 8
      if (d.portX p).episode then d
      else
        let d := (d.setPortX p { d.portX p with episode := true }).bump (uPort p) PRT_TRAIN_FAIL.COUNT
        d.raise (uPort p) 0x12 (leBytes 1 fails ++ leBytes 1 lanes)
  else d

/-- ALIGNMENT_LOCK: every lane of the port is locked, which needs its NPLL (R507). -/
def Dev.alignmentLock (d : Dev) (p : Nat) : Dev :=
  if d.portInUse p ∧ d.linkState p = lsALIGNING ∧ ¬ d.pllStopped (780 + p / 32) then
    let m := 2 ^ d.portLanes p - 1
    ((d.setLink p lsUP_PENDING 0).set (uPort p) PRT_STATUS.LANE_LOCK m).set (uPort p) PRT_STATUS.LANE_SD m
  else d

/-- UP_DEBOUNCE_EXPIRE: the port goes UP, raises LINK_UP and its hold ends (R83, R288). -/
def Dev.upDebounceExpire (d : Dev) (p : Nat) : Dev :=
  if d.portInUse p ∧ d.linkState p = lsUP_PENDING then
    let x := d.portX p
    let ms := (d.now - x.trainStart) / 1000000
    let d := d.setPortX p { x with episode := false }
    let d := (d.set (uPort p) PRT_STATUS.TRAIN_FAILS 0).setLink p lsUP 0
    let d := d.raise (uPort p) 0x10 (leBytes 1 (d.octetMode p) ++ leBytes 1 (d.laneRate p) ++ leBytes 2 ms)
    d.holdReachUp p
  else d

/-- LINK_LOSS: back to TRAINING with a cause (R83, R86, R87). -/
def Dev.linkLoss (d : Dev) (p cause : Nat) (rxCut txCut : Bool) : Dev :=
  if d.portInUse p ∧ (d.linkState p = lsUP ∨ d.linkState p = lsUP_PENDING) then
    let d := if d.linkState p = lsUP then d.cutFrames p rxCut txCut else d
    let d := d.setPortX p { d.portX p with trainStart := d.now }
    d.setLink p lsTRAINING cause
  else d

/-- TRAIN_RETRY_EXPIRE. -/
def Dev.trainRetryExpire (d : Dev) (p : Nat) : Dev :=
  if d.portInUse p ∧ d.linkState p = lsTRAIN_FAILED then d.startTraining p 0 else d

/-- RETRAIN: a write of the bit; it also lets the firmware try a faulty module again (R83, R92). -/
def Dev.retrain (d : Dev) (p : Nat) : Dev :=
  if d.portInUse p then
    let d := match d.cageOf p with
      | some s => if (d.slot s).fault then d.setSlot s { d.slot s with fault := false, tried := d.now } else d
      | none => d
    if d.linkState p = lsUP then (d.interrupt p false).startTraining p 1
    else if d.linkState p = lsTRAINING ∨ d.linkState p = lsTRAIN_FAILED then d.startTraining p 0
    else d
  else d

/-- PORT_ADMIN_UP: ADMIN_UP is set, and the level rows of R83 act. -/
def Dev.portAdminUp (d : Dev) (p : Nat) : Dev :=
  if p < 128 then (d.set (uPort p) PRT_CTRL.ADMIN_UP 1).settlePort p else d

/-- PORT_ADMIN_DOWN: ADMIN_UP is cleared and the port goes to DISABLED; a frame being sent is finished (R83, R87). -/
def Dev.portAdminDown (d : Dev) (p : Nat) : Dev :=
  if p < 128 then
    let d := d.set (uPort p) PRT_CTRL.ADMIN_UP 0
    if d.portInUse p then d.downPort p 1 true else d
  else d

/-- The ports of an octet after its lane map changed: an invalid one holds them in DISABLED with cause 11 (R78). -/
def Dev.mapChanged (d : Dev) (p : Nat) : Dev :=
  let ps := (octetPorts p).filter (fun q => d.portInUse q)
  if d.lanesOk p then d.settlePorts ps else ps.foldl (fun d q => d.downPort q 11 false) d

/-- LANE_MAP_WRITE: PRT_LANE_MAP of a lead port; elsewhere it reads 0 and ignores writes (R77, R78). -/
def Dev.laneMapWrite (d : Dev) (p v : Nat) : Dev :=
  if p < 128 ∧ p % 8 = 0 then
    let u := uPort p
    let d := (d.set u PRT_LANE_MAP.RX_INV (bits v 63 56)).set u PRT_LANE_MAP.TX_INV (bits v 55 48)
    ((d.set u PRT_LANE_MAP.RX_MAP (bits v 47 24)).set u PRT_LANE_MAP.TX_MAP (bits v 23 0)).mapChanged p
  else d

/-- MARGIN_LOW set or cleared and raised (R85). That it stays set when the link leaves UP, and that a further lane which falls while it is
set raises nothing, is the model's choice: the manual says neither. -/
def Dev.marginLow (d : Dev) (p lanes : Nat) (on : Bool) : Dev :=
  if d.portInUse p ∧ d.linkState p = lsUP ∧ d.flag (uPort p) PRT_STATUS.MARGIN_LOW ≠ on then
    (d.setFlag (uPort p) PRT_STATUS.MARGIN_LOW on).raise (uPort p) 0x14 (leBytes 1 lanes ++ leBytes 1 on.toNat)
  else d

/-- FEC_DEGRADED set or cleared and raised (R85). That it stays set when the link leaves UP is the model's choice. -/
def Dev.fecDegraded (d : Dev) (p : Nat) (on : Bool) : Dev :=
  if d.portInUse p ∧ d.linkState p = lsUP ∧ d.flag (uPort p) PRT_STATUS.FEC_DEGRADED ≠ on then
    (d.setFlag (uPort p) PRT_STATUS.FEC_DEGRADED on).raise (uPort p) 0x13 (leBytes 1 on.toNat)
  else d

/-! ### Reconfiguring an octet (R88, R94) -/

/-- Ports that an octet mode uses. -/
def modePorts (lead mode rate : Nat) : List Nat :=
  let n := lanesPer mode rate
  if n = 0 then [] else ((List.range 8).filter (fun k => k % n == 0)).map (lead + ·)

/-- A unit leaves the configuration: its turn is released, it is compared with nobody, a return under way and the commands that wait
for it end with UNIT_UNAVAILABLE, and it is OFF (R51). That those commands end so is the model's choice. -/
def Dev.notNeeded (d : Dev) (un : Nat) : Dev :=
  if d.svc un = sOFF ∨ d.svc un = sRETIRED then d else
  let waiting := d.rid.tests.get? [un, 1]
  let back : Option SelfTest := ((d.rid.tests.get? [un]).filter (fun t => t.why == .return_)).or waiting
  let waits : List Ticket := (back.bind (·.ticket)).toList ++ (d.rid.outs.filter (fun o => o.un == un)).map (·.ticket)
    ++ (d.rid.returns.filter (fun r => r.un == un)).map (·.ticket)
  let d := if waiting.isSome then { d with rid := { d.rid with tests := d.rid.tests.erase [un, 1] } }
    else if back.isSome then
      ({ d with rid := { d.rid with tests := d.rid.tests.erase [un] } }).setFlag un UF_CTRL.TEST_BUSY false else d
  let d := { d with rid := { d.rid with
    outs := d.rid.outs.filter (fun o => o.un != un), returns := d.rid.returns.filter (fun r => r.un != un)
    shadows := d.rid.shadows.erase [un], carried := d.rid.carried.erase [un] } }
  let d := (d.releaseTurn un).setSvc un sOFF
  waits.foldl (fun d t => d.finish t (.fail stUNIT_UNAVAILABLE)) d

/-- A port number the mode does not use is OFF (R51, R77). -/
def Dev.dropUnused (d : Dev) (p : Nat) : Dev := if d.portInUse p then d else d.notNeeded (uPort p)

/-- Give an octet a mode and lane rate. With `down`, every port in use goes down first with cause 10, a frame being sent is finished and one
being received discarded; the new ports start in DISABLED with ADMIN_UP clear and show the module of their cage (R83, R86–R88, R92, R94).
DRAIN_STATE and a COMMIT that waits are kept: the manual does not say what becomes of a drain when its octet is reconfigured. -/
def Dev.octetChange (d : Dev) (lead mode rate : Nat) (down : Bool) : Dev :=
  let ps := octetPorts lead
  let d := if down then ps.foldl (fun d p => if d.portInUse p then (d.interrupt p true).disablePort p 10 else d) d else d
  let d := ps.foldl (fun d p => d.set (uPort p) PRT_CTRL.ADMIN_UP 0) d
  let d := (d.set (uPort lead) PRT_MODE.OCTET_MODE mode).set (uPort lead) PRT_MODE.LANE_RATE rate
  (ps.foldl Dev.dropUnused d).showModule lead

/-- Is any port of an octet in use and not in DISABLED? -/
def Dev.octetBusy (d : Dev) (lead : Nat) : Bool := (octetPorts lead).any (fun p => d.portInUse p && d.linkState p != lsDISABLED)

/-- A port's registers go to reset: with those of a lead port its octet's mode is 0, so its ports leave the configuration as on a change of
mode, and the widths of its cages are as the registers now say (R48, R77, R92). That ports still up go down so is the model's choice. -/
def Dev.portReset (d : Dev) (p : Nat) (clear : Dev → Dev) : Dev :=
  let d := clear (if p % 8 = 0 then d.octetChange p 0 0 (d.octetBusy p) else d)
  (d.showModule p).settlePorts (octetPorts p)

/-- Parameter table of PORT_CFG (R94). -/
def HCmd.portCfgParams (c : HCmd) : List Param :=
  let mode := c.par 1 2 0
  [c.must 0 6 0 (fun p => p % 8 == 0), pAny 0 7 7, c.must 1 2 0 (· ≤ 4), c.must 1 4 4 (fun r => !(mode == 1 && r == 1)),
   c.must 2 1 0 (· ≤ 2), pAny 2 2 2, pAny 2 3 3, c.must 4 13 0 (fun m => decide (1518 ≤ m ∧ m ≤ 12288)),
   c.must 8 63 0 (fun m => laneMapOk (bits m 23 0) && laneMapOk (bits m 47 24))]

/-- PORT_CFG (0x0901). -/
def Dev.portCfg (d : Dev) (c : HCmd) : Dev :=
  let lead := c.par 0 6 0
  let mode := c.par 1 2 0
  d.commandNow c 0x0901 c.portCfgParams (fun d =>
    if d.octetBusy lead ∧ c.par 0 7 7 = 0 then
      (d, .fail stUNIT_UNAVAILABLE)
    else
      let d := d.octetChange lead mode (c.par 1 4 4) (c.par 0 7 7 == 1)
      let d := (octetPorts lead).foldl (fun d p =>
        ((((d.set (uPort p) PRT_MODE.MEDIA (c.par 2 1 0)).set (uPort p) PRT_MODE.AN_EN (c.par 2 2 2)).set (uPort p)
          PRT_MODE.LT_EN (c.par 2 3 3)).set (uPort p) PRT_MODE.MAX_FRAME (c.par 4 13 0))) d
      (d.laneMapWrite lead (c.par 8 63 0), .ok))

def execTrainingConverged (port : Nat) (s : State) : Answer := s.go (·.trainingConverged port)
def execTrainTimeout (port lanes : Nat) (s : State) : Answer := s.go (·.trainTimeout port lanes)
def execAlignmentLock (port : Nat) (s : State) : Answer := s.go (·.alignmentLock port)
def execUpDebounceExpire (port : Nat) (s : State) : Answer := s.go (·.upDebounceExpire port)
def execLinkLoss (port cause : Nat) (rxCut txCut : Bool) (s : State) : Answer := s.go (·.linkLoss port cause rxCut txCut)
def execTrainRetryExpire (port : Nat) (s : State) : Answer := s.go (·.trainRetryExpire port)
def execRetrain (port : Nat) (s : State) : Answer := s.go (·.retrain port)
def execPortAdminUp (port : Nat) (s : State) : Answer := s.go (·.portAdminUp port)
def execPortAdminDown (port : Nat) (s : State) : Answer := s.go (·.portAdminDown port)
def execLaneMapWrite (port value : Nat) (s : State) : Answer := s.go (·.laneMapWrite port value)
def execMarginLow (port lanes : Nat) (on : Bool) (s : State) : Answer := s.go (·.marginLow port lanes on)
def execFecDegraded (port : Nat) (on : Bool) (s : State) : Answer := s.go (·.fecDegraded port on)
def execPortCfg (c : HCmd) (s : State) : Answer := s.go (·.portCfg c)

end Sys2Proof.Machine
end

