-- ==== Sys2Proof/Machine/Riders.lean ====
section
/-! DEFINITION. Ditch riders: recognising a failure, declaring it, sparing and lost capacity, and leaving service (R376–R391). -/
namespace Sys2Proof.Machine

/-! ### Groups and spares (R382, R391) -/

def flumesOf (l : Nat) : List Nat := (List.range 5).map (uFLM l)
def editorUnits : List Nat := (List.range 10).map (80 + ·)
def coreUnits : List Nat := (List.range 26).map (704 + ·)
def bridgeUnits : List Nat := [4, 5, 6, 7]

/-- Units that can take one another's streams. -/
def peersOf (un : Nat) : List Nat :=
  match classOf un with
  | 0x11 => flumesOf (latOfFlume un)
  | 0x19 => editorUnits
  | 0x48 => coreUnits
  | 0x21 => [97, 98]
  | _ => []

/-- Designated spares (R51, R382). -/
def designatedSpare (un : Nat) : Bool :=
  match classOf un with
  | 0x11 => (un - 32) % 5 == 4
  | 0x19 => decide (88 ≤ un)
  | 0x48 => decide (728 ≤ un)
  | 0x21 => un == 98
  | _ => false

def Dev.watchOf (d : Dev) (un : Nat) : Watch := d.rid.watch.getD {} [un]
def Dev.setWatch (d : Dev) (un : Nat) (w : Watch) : Dev := { d with rid := { d.rid with watch := d.rid.watch.setD {} [un] w } }

/-- Is a spare already taking over for a declared unit? -/
def Dev.isTaking (d : Dev) (u : Nat) : Bool := d.rid.watch.any (fun e => e.2.state == .declared && e.2.taker == some u)

/-- The spare that would take a unit's work. The standby scheduler can only with its mirrored state (R289). -/
def Dev.spareOf (d : Dev) (un : Nat) : Option Nat :=
  (peersOf un).find? (fun u => u != un && d.svc u == sSPARE && !d.isTaking u
    && (classOf un != 0x21 || d.flag uSCH TMS_PAIR.STANDBY_SYNC))

/-- The stream a unit carries, named by the unit that carried it first. -/
def Dev.streamOf (d : Dev) (un : Nat) : Nat := d.rid.standsFor.getD un [un]

def Dev.setStream (d : Dev) (un st : Nat) : Dev := { d with rid := { d.rid with standsFor := d.rid.standsFor.setD un [un] st } }

def Dev.setCarried (d : Dev) (un : Nat) (o : Option Nat) : Dev := { d with rid := { d.rid with carried := d.rid.carried.put [un] o } }

/-- Has a returning unit taken an ACTIVE unit's stream back (R390)? -/
def Dev.relieved (d : Dev) (un : Nat) : Bool := d.rid.relieved.contains un

/-- The member of a unit's group that is ACTIVE with a stream. -/
def Dev.carrierOf (d : Dev) (un st : Nat) : Option Nat :=
  (peersOf un).find? (fun u => d.svc u == sACTIVE && !d.relieved u && d.streamOf u == st)

/-! ### Lost and regained capacity (R391) -/

/-- Is a member in service with a stream, or not yet brought up and no spare? -/
def Dev.counted (d : Dev) (u : Nat) : Bool := (d.svc u == sACTIVE && !d.relieved u) || (d.svc u == sOFF && !designatedSpare u)

/-- Members that a group's figure counts: before bring-up has judged a member, it is not lost. -/
def Dev.memberCount (d : Dev) (us : List Nat) : Nat := (us.filter d.counted).length

/-- Port groups that an editor serves, or will once it is brought up. -/
def Dev.servedGroups (d : Dev) : Nat :=
  ((List.range 8).filter (fun g => editorUnits.any (fun u => d.counted u && d.get u EDT_STATUS.PORT_GROUP == g))).length

/-- Ports of a port group. -/
def groupPorts (g : Nat) : List Nat := (List.range 16).map (16 * g + ·)

/-- Bring a unit's group to the figure its members in service give. R391 gives the die-to-die link's for one bridge lost; a quarter for each
bridge in service is the model's reading for more. -/
def Dev.showGroup (d : Dev) (un : Nat) : Dev :=
  match classOf un with
  | 0x11 => d.setCapacity (uLAT (latOfFlume un)) (250000 * min 4 (d.memberCount (flumesOf (latOfFlume un))))
  | 0x19 => d.setCapacity 1 (1000000 * (16 * d.servedGroups) / 128)
  | 0x48 => d.setCapacity 730 (1000000 * min 24 (d.memberCount coreUnits) / 24)
  | 0x04 => d.setCapacity 3 (250000 * d.memberCount bridgeUnits)
  | 0x15 => d.showBanks
  | _ => d

/-- The group that announces the loss of a unit. -/
def lossGroup (un : Nat) : Nat :=
  match classOf un with
  | 0x11 => uLAT (latOfFlume un)
  | 0x19 => 1
  | 0x48 => 730
  | 0x04 => 3
  | _ => un

/-- Classes whose loss without a spare leaves the die in service: their rows of R382 say what is lost. -/
def lossContained (cls : Nat) : Bool := [0x04, 0x11, 0x15, 0x19, 0x21, 0x22, 0x28, 0x30, 0x31, 0x38, 0x39, 0x41, 0x48].contains cls

/-- A group that can carry none of its work is declared FAILED (R53); no spare covers it (R382). The editors' group is the F-die. -/
def Dev.groupLost (d : Dev) (un : Nat) : Dev :=
  if classOf un = 0x11 ∧ d.memberCount (flumesOf (latOfFlume un)) = 0 ∧ d.svc (uLAT (latOfFlume un)) = sACTIVE then
    (d.failSelf (uLAT (latOfFlume un)) 0x0008).dieFail un 0x0008
  else if classOf un = 0x48 ∧ d.memberCount coreUnits = 0 ∧ d.svc 730 = sACTIVE then (d.failSelf 730 0x0008).dieFail un 0x0008
  else if classOf un = 0x04 ∧ d.memberCount bridgeUnits = 0 ∧ d.svc 3 = sACTIVE then (d.failSelf 3 0x0008).dieFail un 0x0008
  else if classOf un = 0x19 ∧ d.servedGroups = 0 then d.dieFail un 0x0008
  else d

/-- A unit is out of service with no spare to cover it. A pair without a standby is DEGRADED at 1,000,000 ppm. -/
def Dev.unitLost (d : Dev) (un : Nat) : Dev :=
  match classOf un with
  | 0x11 => ((d.showGroup un).sparesExhausted (lossGroup un) un).groupLost un
  | 0x48 => ((d.showGroup un).sparesExhausted (lossGroup un) un).groupLost un
  | 0x04 => ((d.showGroup un).sparesExhausted (lossGroup un) un).groupLost un
  | 0x15 => d.bankLost (latOfBank un) (bankOf un)
  | 0x19 =>
    let g := d.get un EDT_STATUS.PORT_GROUP
    let d := ((groupPorts g).filter (fun p => d.portInUse p && d.linkState p != lsDISABLED)).foldl (fun d p => d.downPort p 13 false) d
    ((d.showGroup un).sparesExhausted (lossGroup un) un).groupLost un
  | 0x21 => (d.setFigure un (some 1000000)).sparesExhausted un un
  | 0x22 => (d.setFigure un (some 1000000)).sparesExhausted un un
  | c => if lossContained c then d else d.dieFail un 0x0008

/-- The member that now schedules has no standby. -/
def Dev.noStandby (d : Dev) (un failed : Nat) : Dev := (d.setFigure un (some 1000000)).sparesExhausted un failed

/-! ### Fault records (R384) -/

/-- DETAIL of a declared unit's record. -/
def Watch.detail (w : Watch) (un now : Nat) : List Byte :=
  leBytes 2 (riderOf un) ++ leBytes 1 (w.inputs % 16 + w.hardKind * 16) ++ leBytes 1 0 ++ leBytes 4 w.turnSeq
  ++ leBytes 2 (w.taker.getD 0xFFFF) ++ leBytes 2 0 ++ leBytes 4 (if w.taker.isNone then 0 else now - w.declaredAt)
  ++ leBytes 8 w.firstSeq ++ leBytes 8 w.lastSeq ++ leBytes 4 w.replayed ++ leBytes 4 w.discarded ++ leBytes 8 0

/-- The takeover is complete, or there is none: the record is written, and a takeover raises TAKEOVER_DONE (R378). -/
def Dev.endDeclared (d : Dev) (un : Nat) : Dev :=
  let w := d.watchOf un
  let d := (d.setWatch un {}).writeFault un w.cause w.declaredAt (w.detail un d.now)
  let d := match w.taker with
    | none => d
    | some t =>
      let d := if classOf t = 0x11 then ((d.putTurn t un none).showTurn t).showHolder t else d
      d.raise (riderOf un) 0x11 (leBytes 2 un ++ leBytes 2 t ++ leBytes 4 (d.now - w.declaredAt) ++ leBytes 2 w.replayed
        ++ leBytes 2 w.discarded)
  d.retireIfDue un

/-! ### Declaring (R376–R378) -/

/-- Cause of a hard indicator (R384, R385): 1 uncorrectable ECC, 2 lapse, 3 no progress, 4 clock lost; 0 two soft inputs. -/
def hardCause (k : Nat) : Nat :=
  match k with
  | 1 => 0x0002
  | 2 => 0x0003
  | 3 => 0x0004
  | 4 => 0x0005
  | _ => 0x0001

/-- Is a unit watched: does it hold a turn (R376), and is its rider working? R51 lets a rider declare units in ACTIVE alone: a unit that
drains goes on to OUT. -/
def Dev.isWatched (d : Dev) (un : Nat) : Bool :=
  holdsTurns un && d.svc un == sACTIVE && (d.turn un 0).isSome
  && (d.watchOf un).state != .declared && !d.flag (riderOf un) RID_STATUS.FAILED

/-- Entries of a unit's replay window; none for other classes. -/
def Dev.heldBy (d : Dev) (un : Nat) : List Pkt := d.fwd.windows.getD [] [un]

/-- Put one packet in its place by LAT_SEQ, counted back from the lateral's next number. -/
def insertByAge (next : Nat) (k : Pkt) : List Pkt → List Pkt
  | [] => [k]
  | x :: xs =>
    if (k.latSeq + 2 ^ 32 - next) % 2 ^ 32 < (x.latSeq + 2 ^ 32 - next) % 2 ^ 32 then k :: x :: xs else x :: insertByAge next k xs

/-- The entries of a flume's replay window in LAT_SEQ order (R213, R379). -/
def Dev.inOrder (d : Dev) (un : Nat) : List Pkt :=
  (d.heldBy un).foldr (insertByAge (d.fwd.latSeq.getD 0 [latOfFlume un])) []

/-- Units in SHADOW that compared a failed unit's stream start again against its taker, or against another ACTIVE unit (R390). -/
def Dev.reshadow (d : Dev) (un : Nat) (taker : Option Nat) : Dev :=
  let next := match taker with
    | some t => t
    | none => ((peersOf un).find? (fun u => u != un && d.svc u == sACTIVE)).getD un
  { d with rid := { d.rid with shadows := d.rid.shadows.map (fun e => if e.2.of = un then (e.1, Shadow.mk next 0) else e) } }

/-- A watched unit is declared failed with inputs `inp` and a hard kind (R378). A member of the credit scheduler hands over to
the other while that is in step (R382). -/
def Dev.declare (d : Dev) (un inp hard : Nat) : Dev :=
  let held := d.inOrder un
  let inside : Bool := un == 99 && d.flag 99 CRD_PAIR.STANDBY_SYNC
  let taker := if inside then some un else d.spareOf un
  let waits : Bool := inside || taker.isSome || classOf un == 0x11
  let w : Watch :=
    { state := .declared, inputs := inp ||| (if hard = 0 then 0 else 8), cause := hardCause hard, hardKind := hard, declaredAt := d.now
      turnSeq := ((d.turn un 0).map (·.seq)).getD 0, taker := taker, firstSeq := (held.map (fun k => k.latSeq)).headD 0
      lastSeq := ((held.map (fun k => k.latSeq)).getLast?).getD 0, awaiting := true }
  let d := (d.setWatch un w).setCarried un (some (d.streamOf un))
  let d := if inside then (d.set 99 CRD_PAIR.STANDBY_SYNC 0) else d.setSvc un sFAILED
  let d := (d.bumpSat un UF_STATE.FAULT_COUNT).bump (riderOf un) RID_DECLARED.COUNT
  let d := (d.logDecision 6 un 0).reshadow un taker
  let d := if taker.isSome then d else d.unitLost un
  if waits then d else d.endDeclared un

/-- The decision window of a suspect unit has passed: it is watched again, and the rider says so (R377). -/
def Dev.endWindow (d : Dev) (un : Nat) : Dev :=
  let w := d.watchOf un
  if w.state = .suspect ∧ w.windowEnd ≤ d.now then
    let r := riderOf un
    ((d.setWatch un {}).bump r RID_CLEARED.COUNT).raise r 0x10 (leBytes 2 un ++ leBytes 1 w.inputs ++ leBytes 1 0)
  else d

/-- A soft input (0 renewal, 1 checker, 2 sentinel) against a watched unit; a second one declares it by `declare` (R377). -/
def Dev.softWith (d : Dev) (un i : Nat) (declare : Dev → Nat → Dev) : Dev :=
  if ¬ d.isWatched un ∨ 3 ≤ i then d else
  let d := d.endWindow un
  let w := d.watchOf un
  if w.state = .watched then
    let r := riderOf un
    let w := { w with state := .suspect, inputs := 2 ^ i, windowEnd := d.now + d.act r RID_CFG.DECIDE_WINDOW_US * 1000 }
    ((d.setWatch un w).bump r RID_SUSPECTS.COUNT).raise r 0x10 (leBytes 2 un ++ leBytes 1 w.inputs ++ leBytes 1 1)
  else if bit w.inputs i then d
  else declare d (w.inputs + 2 ^ i)

def Dev.softInput (d : Dev) (un i : Nat) : Dev := d.softWith un i (fun d inp => d.declare un inp 0)

/-- A hard indicator against a watched unit. -/
def Dev.hardInput (d : Dev) (un k : Nat) : Dev :=
  if d.isWatched un ∧ 1 ≤ k ∧ k ≤ 4 then (d.endWindow un).declare un ((d.endWindow un).watchOf un).inputs k else d

/-- DECIDE_WINDOW_EXPIRE. -/
def Dev.decideWindowExpire (d : Dev) (un : Nat) : Dev := d.endWindow un

/-! ### Leaving service (R51, R386) -/

/-- Descendants of a unit that hold turns. -/
def turnChildren (un : Nat) : List Nat := allUnits.filter (fun u => isUnder un u && holdsTurns u)

/-- Units below a unit that a request made of it is carried on to: those that hold turns, a flume's stages apart, which follow their
flume. -/
def askedUnder (un : Nat) : List Nat := (unitsUnder un).filter (fun u => holdsTurns u && classOf u != 0x12)

/-- Has a DRAINING unit finished its work: a flume's window is empty, and no unit below works or drains? -/
def Dev.drained (d : Dev) (un : Nat) : Bool :=
  (d.heldBy un).isEmpty && (askedUnder un).all (fun u => d.svc u != sDRAINING && d.svc u != sACTIVE)

/-- A unit's UNIT_OUT completes. -/
def Dev.endOuts (d : Dev) (un : Nat) (r : Reply) : Dev :=
  let w := d.rid.outs.filter (fun o => o.un == un)
  let d := { d with rid := { d.rid with outs := d.rid.outs.filter (fun o => !(o.un == un)) } }
  w.foldl (fun d o => d.finish o.ticket r) d

/-- Units that follow another's service state. -/
def followers (un : Nat) : List Nat := (childrenOf un).filter (fun u => classOf u == 0x12)

/-- The stages of a flume follow it out of service and back. -/
def Dev.follow (d : Dev) (un : Nat) : Dev :=
  (followers un).foldl (fun d u =>
    if d.svc un = sOUT ∧ d.svc u = sACTIVE then ((d.setSvc u sDRAINING).releaseTurn u).setSvc u sOUT
    else if d.svc un = sSHADOW ∧ d.svc u = sOUT then d.setSvc u sSHADOW
    else if d.svc un = sACTIVE ∧ d.svc u = sSHADOW then (d.setSvc u sACTIVE).grantTurn u 0 none
    else d) d

/-- A DRAINING unit that has finished releases its turn and is OUT, with a flume's stages; so may its ancestors be. -/
def Dev.settleOut (d : Dev) (un : Nat) : Dev :=
  (un :: ancestors un).foldl (fun d a =>
    if d.svc a = sDRAINING ∧ d.drained a then (((d.releaseTurn a).setSvc a sOUT).follow a).endOuts a .ok else d) d

/-- A stand-in whose stream is taken back releases its turn and is SPARE once its own items have committed (R51, R390). -/
def Dev.settleStandIn (d : Dev) (un : Nat) : Dev :=
  if d.relieved un ∧ (d.heldBy un).isEmpty then (d.releaseTurn un).setSvc un sSPARE else d

/-! ### Commands in flight (R383) -/

/-- The flushes of a table engine that fails end with the entries deleted so far. -/
def Dev.abortFlushes (d : Dev) : Dev :=
  d.fwd.flushes.foldl (fun d f => d.finish f.ticket ⟨stABORTED_FAULT, f.count, 0⟩) { d with fwd := { d.fwd with flushes := [] } }

/-- Commands end with ABORTED_FAULT. -/
def Dev.abortAll (d : Dev) (ts : List Ticket) : Dev := ts.foldl (fun d t => d.finish t (.fail stABORTED_FAULT)) d

/-- The commands that wait under a declared unit end: the swaps of the classifier controller, the flushes of the table engine and the settings of the meter engine; those of
an egress scheduler pass to the standby that takes over, which redoes them. -/
def Dev.abortWaiting (d : Dev) (un : Nat) (taken : Bool) : Dev :=
  if un = uCLS then ({ d with fwd := { d.fwd with swaps := [] } } : Dev).abortAll (d.fwd.swaps.map (fun s => s.ticket))
  else if un = uTBE then d.abortFlushes
  else if un = uMTR then
    ({ d with sch := { d.sch with meters := d.sch.meters.map (fun e => (e.1, { e.2 with sets := [] })) |>.filter (fun e => e.2 != {}) } } : Dev).abortAll
      (d.sch.meters.flatMap (fun e => e.2.sets.map (fun s => s.ticket)))
  else if classOf un = 0x21 ∧ ¬ taken then
    ({ d with sch := { d.sch with nodes := d.sch.nodes.map (fun e => (e.1, { e.2 with sets := [] })) |>.filter (fun e => e.2 != {}) } } : Dev).abortAll
      (d.sch.nodes.flatMap (fun e => e.2.sets.map (fun s => s.ticket)))
  else d

end Sys2Proof.Machine
end

