-- ==== Sys2Proof/Machine/Flume.lean ====
section
/-! DEFINITION. Distributors, commit, release, mirroring and statistics counters (R19, R38–R41, R131, R135, R136, R163,
R190–R193, R200–R213). -/
namespace Sys2Proof.Machine

/-! ### Stores and slots (R38, R39, R190) -/

def Dev.waiting (d : Dev) (l : Nat) : List HdrCopy := d.fwd.waiting.getD [] [l]
def Dev.setWaiting (d : Dev) (l : Nat) (w : List HdrCopy) : Dev :=
  { d with fwd := { d.fwd with waiting := d.fwd.waiting.setD [] [l] w } }
def Dev.window (d : Dev) (un : Nat) : List Pkt := d.fwd.windows.getD [] [un]
def Dev.siphonOf (d : Dev) (l : Nat) : List Pkt := d.fwd.siphon.getD [] [l]
def Dev.setSiphon (d : Dev) (l : Nat) (w : List Pkt) : Dev :=
  let waits (e : Dev) (q : Nat) : Bool := (List.range 4).any (fun l => (q == 0 || selLat l q) && !(e.siphonOf l).isEmpty)
  let e := { d with fwd := { d.fwd with siphon := d.fwd.siphon.setD [] [l] w } }
  e.tallyEdge uSIP 0x21 (waits d) (waits e)

/-- Flumes of a lateral. -/
def flumes (l : Nat) : List Nat := (List.range 5).map (uFLM l)

/-- Header copies in a lateral's store: those waiting and those of the replay windows (R190). -/
def Dev.storeUsed (d : Dev) (l : Nat) : Nat := (d.waiting l).length + ((flumes l).map (fun u => (d.window u).length)).sum

def storeSize : Nat := 16384

def Dev.showStore (d : Dev) (l : Nat) : Dev := d.set (uLAT l) LAT_STATUS.STORE_USED (d.storeUsed l)

def Dev.setWindow (d : Dev) (un : Nat) (w : List Pkt) : Dev :=
  let full : Bool := decide ((d.window un).length < 1024 ∧ 1024 ≤ w.length)
  let d := { d with fwd := { d.fwd with windows := d.fwd.windows.setD [] [un] w } }
  let d := if full then d.rises un 0x24 else d
  let d := (d.set un FLM_STATUS.WINDOW_USED w.length).showStore (latOfFlume un)
  if w.isEmpty then (d.settleOut un).settleStandIn un else d

def Dev.slotsUsed (d : Dev) (l : Nat) : Nat := d.get (uLAT l) LAT_STATUS.REORDER_USED

/-- May a lateral take a reorder slot (R38): within its guarantee, or below 65,536 with a shared slot free? -/
def Dev.slotFree (d : Dev) (l : Nat) : Bool :=
  decide (d.slotsUsed l < 16384)
  || (decide (d.slotsUsed l < 65536) && decide (((List.range 4).map (fun i => d.slotsUsed i - 16384)).sum < 65536))

/-- Stop or resume a lateral's dispatch (R39); a change raises REORDER_STALL. -/
def Dev.holdDispatch (d : Dev) (l : Nat) (hold : Bool) : Dev :=
  if d.flag (uLAT l) LAT_STATUS.DISPATCH_HELD = hold then d else
  (d.setFlag (uLAT l) LAT_STATUS.DISPATCH_HELD hold).raise (uLAT l) 0x10 (leBytes 1 hold.toNat ++ leBytes 4 (d.slotsUsed l))

/-- Packets that hold reorder slots. -/
def Dev.slotHolders (d : Dev) : List Pkt :=
  (d.fwd.windows.map (·.2)).flatten ++ (d.fwd.siphon.map (·.2)).flatten ++ d.fwd.ready.map (·.2)

/-- A free slot of the 131,072 (R38, R191). -/
def Dev.freshSlot (d : Dev) : Nat :=
  let used := d.slotHolders.map (·.slot)
  (((List.range (used.length + 1)).map (fun i => (Config.reorderSlot d.draws + i) % 131072)).find? (fun i => !used.contains i)).getD 0

/-- A packet's slot frees: every lateral that waits for one dispatches again (R38, R39). -/
def Dev.freeSlot (d : Dev) (l : Nat) : Dev :=
  (List.range 4).foldl (fun d i => if d.slotFree i then d.holdDispatch i false else d)
    (d.set (uLAT l) LAT_STATUS.REORDER_USED (d.slotsUsed l - 1))

/-! ### FRAME_RECEIVED (R19, R20, R41, R81, R82, R100, R101, R190, R192, R250) -/

/-- A signed number of 2^−16 ns added to a time, as ns and fraction. -/
def addFrac (t : Nat) (adj : Int) : Nat × Nat :=
  let v := ((t : Int) + adj).toNat
  (v / 65536 % 2 ^ 64, v % 65536)

/-- Ingress timestamp of a frame whose start crossed the balls at `sfd` (2^−16 ns). -/
def Dev.rxStamp (d : Dev) (port sfd : Nat) : Nat × Nat :=
  if d.flag (uPort port) PRT_PTP_CFG.RX_TS_EN then addFrac sfd (toSigned 32 (d.get (uPort port) PRT_PTP_ADJ.RX_ADJ))
  else let v := (Config.noTimestamp d.draws).toNat
       (v / 65536, v % 65536)

/-- Put a header copy into its lateral's store; false, with DIST_OVERRUN and REORDER_STALL, when that is full (R39, R190, R192). -/
def Dev.storeHdr (d : Dev) (h : HdrCopy) : Dev × Bool :=
  let l := latOf h.port
  if storeSize ≤ d.storeUsed l then
    let d := (d.bump (uLAT l) LAT_OVERRUN.COUNT).tally (uLAT l) 0x21 1
    let d := d.raise (uLAT l) 0x10 (leBytes 1 1 ++ leBytes 4 (d.slotsUsed l))
    (d.raiseOnce (uLAT l) 0x11 0 (fun _ => leBytes 4 (d.get (uLAT l) LAT_OVERRUN.COUNT)), false)
  else (((d.setWaiting l (d.waiting l ++ [h])).showStore l).tally (uLAT l) 0x20 1, true)

/-- A whole frame has arrived, `bytes` without its FCS. A port receives while it is UP. -/
def Dev.frameReceived (d : Dev) (port : Nat) (bytes : List Byte) (fcsOk : Bool) (sfd : Nat) : Dev :=
  let un := uPort port
  if ¬ d.portInUse port ∨ d.linkState port ≠ lsUP then d else
  let s := d.storeBody (reqLateral (latOf port)) 0 bytes 1
  match s.2 with
  | none => s.1.countDrop (.voq 0) 5
  | some h =>
    let d := s.1
    let n := bytes.length + 4
    if ¬ fcsOk then (d.dropRef h).bump un PRT_RX_FCS_ERR.COUNT
    else if n < 64 then (d.dropRef h).bump un PRT_RX_UNDERSIZE.COUNT
    else if d.act un PRT_MODE.MAX_FRAME < n then (d.dropRef h).bump un PRT_RX_OVERSIZE.COUNT
    else if beAt bytes 12 2 = 0x8808 then (d.dropRef h).bump un PRT_RX_MAC_CTRL.COUNT
    else
      let d := (d.bump un PRT_RX_FRAMES.COUNT).add un PRT_RX_BYTES.COUNT n
      let d := (d.tally un 0x20 1).tally un 0x21 n
      let d := d.setPortX port { d.portX port with lastFrame := some d.now }
      let t := d.rxStamp port sfd
      let r := ({ d with draws := d.draws + 1 }).storeHdr ⟨port, h, bytes.length, t.1, t.2⟩
      if r.2 then r.1 else r.1.dropRef h

/-! ### Statistics counters (R201–R207) -/

def uDSTG : Nat := 67

def Dev.pair (d : Dev) (i : Nat) : Pair := d.fwd.pairs.getD {} [i]
def Dev.setPair (d : Dev) (i : Nat) (p : Pair) : Dev := { d with fwd := { d.fwd with pairs := d.fwd.pairs.setD {} [i] p } }

/-- Flush a pair's delta into DRAM; with an uncorrectable DRAM copy, as in a DEAD channel, the pair restarts from the delta
(R203, R207, R364). -/
def Dev.flushPair (d : Dev) (i : Nat) (bad : Bool) : Dev :=
  let bad := bad || d.sideBad false (pairAddr i)
  let d := (d.access false (pairAddr i) 1).sideWrite false (pairAddr i) 2 1
  let p := d.pair i
  let base : Nat × Nat := if bad then (0, 0) else (p.packets, p.bytes)
  let d := d.setPair i { p with packets := (base.1 + p.dPackets) % 2 ^ 64, bytes := (base.2 + p.dBytes) % 2 ^ 64, dPackets := 0,
                                dBytes := 0, cached := false, lost := p.lost || bad }
  if bad then ((d.bump uDSTG DST_CNT_LOST.COUNT).tallyUp uDSTG 0x07 1).raise uDSTG 0x11 (leBytes 4 i) else d

/-- Count a flush and make it. -/
def Dev.flushCounted (d : Dev) (i : Nat) (bad : Bool) : Dev := (d.tally uDSTG 0x22 1).flushPair i bad

/-- Sets of the cache: 131,072 pairs, 8 ways. Which set a pair falls in is not stated; the low bits of its index are taken. -/
def cacheSets : Nat := 16384

/-- Pairs cached in a pair's set. -/
def Dev.cachedWith (d : Dev) (i : Nat) : List Nat :=
  (d.fwd.pairs.filter (fun e => e.2.cached && Config.counterSet (e.1.headD 0) % cacheSets == Config.counterSet i % cacheSets)).map (fun e => e.1.headD 0)

/-- Apply one counter update to the cache (R203). -/
def Dev.countUpdate (d : Dev) (u : Nat × Nat) : Dev :=
  let i := u.1
  let d := d.tally uDSTG 0x20 1
  let d := if (d.pair i).cached then d else
    let d := d.tally uDSTG 0x21 1
    let full := d.cachedWith i
    if full.length < 8 then d else
      ({ d with draws := d.draws + 1 }).flushCounted (full.getD (Config.evicted d.draws % 8) 0) false
  let p := d.pair i
  let p := { p with dPackets := p.dPackets + 1, dBytes := p.dBytes + u.2, cached := true }
  let d := d.setPair i p
  if 2 ^ 22 ≤ p.dPackets ∨ 2 ^ 38 ≤ p.dBytes then d.flushCounted i false else d

def Dev.applyUpdates (d : Dev) (us : List (Nat × Nat)) : Dev := us.foldl Dev.countUpdate d

/-- COUNTER_FLUSH of a cached pair. -/
def Dev.counterFlush (d : Dev) (i : Nat) (bad : Bool) : Dev := if (d.pair i).cached then d.flushCounted i bad else d

/-- Parameters of the CNT_ commands. -/
def HCmd.cntPars (c : HCmd) : List Param :=
  [c.must 4 16 0 (fun n => decide (1 ≤ n ∧ n ≤ 65536 ∧ c.par 0 24 0 + n ≤ 33554432)), c.zero 4 31 17]

/-- Read a pair: the flush its naming asks for, its record, and its lost mark, which the record carries away. -/
def Dev.readPair (d : Dev) (i : Nat) (bad clear : Bool) : Dev × List Byte × Bool :=
  let d := if (d.pair i).cached then d.flushCounted i bad else if bad ∨ d.sideBad false (pairAddr i) then d.flushPair i true else d
  let p := d.pair i
  let d := d.setPair i { p with lost := false, packets := if clear then 0 else p.packets, bytes := if clear then 0 else p.bytes }
  (d, leBytes 8 (p.packets % 2 ^ 63 + p.lost.toNat * 2 ^ 63) ++ leBytes 8 p.bytes, p.lost)

/-- Read `n` pairs from `i`: their records and how many were lost. -/
def Dev.readPairs : Nat → Dev → Nat → List Nat → Bool → Dev × List Byte × Nat
  | 0, d, _, _, _ => (d, [], 0)
  | n + 1, d, i, bad, clear =>
    let r := d.readPair i (bad.contains i) clear
    let w := Dev.readPairs n r.1 (i + 1) bad clear
    (w.1, r.2.1 ++ w.2.1, r.2.2.toNat + w.2.2)

/-- Parameter table of CNT_READ_BLOCK (R205). -/
def HCmd.cntReadBlockParams (c : HCmd) : List Param :=
  c.cntPars ++ [pAny 0 24 0, pAny 0 25 25, c.zero 0 31 26, pAny 8 63 0]

/-- CNT_READ_BLOCK (0x0501): `bad` are pairs found uncorrectable, `faultAfter` the records written before a fault stops the
walk. -/
def Dev.cntReadBlock (d : Dev) (c : HCmd) (bad : List Nat) (faultAfter : Option Nat) : Dev :=
  d.commandNow c 0x0501 c.cntReadBlockParams (fun d =>
    if d.svc uDSTG ≠ sACTIVE then (d, .fail stUNIT_UNAVAILABLE)
    else if ¬ c.writeOk then (d.dmaFailed, .fail stDATA_ERROR)
    else
      let all := c.par 4 16 0
      let n := min all (faultAfter.getD all)
      let r := Dev.readPairs n d (c.par 0 24 0) bad (c.par 0 25 25 == 1)
      let d := r.1.dataWrite c.ticket (c.par 8 63 0) r.2.1
      (d, ⟨if n < all then stABORTED_FAULT else stOK, n + r.2.2 * 2 ^ 17, 0⟩))

/-- Parameter table of CNT_CLEAR_BLOCK (R206). -/
def HCmd.cntClearBlockParams (c : HCmd) : List Param :=
  c.cntPars ++ [pAny 0 24 0, c.zero 0 31 25]

/-- Zero a pair: naming it flushes it first, and a lost mark stays for the next record returned (R203, R206, R207). -/
def Dev.clearPair (d : Dev) (i : Nat) : Dev :=
  let d := if (d.pair i).cached then d.flushCounted i false else d
  (d.sideWrite false (pairAddr i) 2 1).setPair i { d.pair i with packets := 0, bytes := 0 }

/-- CNT_CLEAR_BLOCK (0x0502). -/
def Dev.cntClearBlock (d : Dev) (c : HCmd) (faultAfter : Option Nat) : Dev :=
  d.commandNow c 0x0502 c.cntClearBlockParams (fun d =>
    if d.svc uDSTG ≠ sACTIVE then (d, .fail stUNIT_UNAVAILABLE)
    else
      let all := c.par 4 16 0
      let n := min all (faultAfter.getD all)
      let f := c.par 0 24 0
      let d := ((List.range n).map (f + ·)).foldl Dev.clearPair d
      (d, .fail (if n < all then stABORTED_FAULT else stOK)))

/-! ### HEADER_DISPATCH and SIPHON_SLOT_GRANT (R131, R136, R191) -/

/-- The flumes of a lateral that may take a pass: ACTIVE, not suspected, with room in the window. -/
def Dev.flumesFor (d : Dev) (l : Nat) : List Nat :=
  (flumes l).filter (fun u => d.svc u == sACTIVE && !d.relieved u && (d.rid.watch.getD {} [u]).state != .suspect && decide ((d.window u).length < 1024))

/-- The one with the fewest packets; a tie goes to the lowest position. -/
def Dev.pickFlume (d : Dev) (l : Nat) : Option Nat :=
  (d.flumesFor l).foldl (fun b u => match b with
    | none => some u
    | some x => if (d.window u).length < (d.window x).length then some u else b) none

/-- Acknowledgements that were on their way return: updates are applied and the entries leave (R203, R213). -/
def Dev.settleAcks (d : Dev) (un : Nat) : Dev :=
  let w := d.window un
  let done := w.filter (fun k => k.committed)
  if done.isEmpty then d else
  done.foldl (fun d k => (d.applyUpdates k.updates).tally un 0x21 1) (d.setWindow un (w.filter (fun k => !k.committed)))

def Dev.settleLateral (d : Dev) (l : Nat) : Dev := (flumes l).foldl Dev.settleAcks d

/-- Give a header copy its numbers and put it into a flume's window. -/
def Dev.dispatchTo (d : Dev) (l un : Nat) (h : HdrCopy) : Dev :=
  let ps := d.fwd.portSeq.getD 0 [h.port]
  let ls := d.fwd.latSeq.getD 0 [l]
  let k : Pkt := { hdr := h, lat := l, portSeq := ps, latSeq := ls, stamp := d.curEpoch, first := d.get uPRS PRS_CFG.ROOT_NODE
                   parts := d.partCfgs, slot := d.freshSlot }
  let d := { d with draws := d.draws + 1 }
  let d := { d with fwd := { d.fwd with portSeq := d.fwd.portSeq.setD 0 [h.port] ((ps + 1) % 2 ^ 17),
                                        latSeq := d.fwd.latSeq.setD 0 [l] ((ls + 1) % 2 ^ 32) } }
  let d := d.set (uLAT l) LAT_STATUS.REORDER_USED (d.slotsUsed l + 1)
  let d := d.setWindow un (d.window un ++ [k])
  ((d.tally un 0x20 1).tallyQ uTBE 0x28 1 (selLat l)).showEpoch

/-- HEADER_DISPATCH: the oldest waiting copy of a lateral. -/
def Dev.headerDispatch (d : Dev) (l : Nat) : Dev :=
  if 4 ≤ l then d else
  let d := d.settleLateral l
  match d.waiting l with
  | [] => d
  | h :: rest =>
    if ¬ d.slotFree l then d.holdDispatch l true else
    match d.pickFlume l with
    | none => d
    | some un => (((d.holdDispatch l false).setWaiting l rest).dispatchTo l un h).showStore l

/-- Flumes whose slots a lateral has: its ACTIVE ones, four at most (R136 bounds a lateral by 5 G slots per second). -/
def Dev.slotFlumes (d : Dev) (l : Nat) : Nat := min 4 (max 1 ((flumes l).filter (fun u => d.svc u == sACTIVE)).length)

/-- Siphon passes of the last 1,000 flume slots, which last 800 ns divided by the flumes: each takes a pass every 0.8 ns. -/
def Dev.recentSiphon (d : Dev) (l : Nat) : Nat :=
  ((d.fwd.sipTimes.getD [] [l]).filter (fun t => decide (d.slotFlumes l * (d.now - t) < 800))).length

/-- SIPHON_SLOT_GRANT: the oldest waiting siphon packet gets a slot while the siphon's share allows it and the header store has room for
its copy (R136, R190). -/
def Dev.siphonGrant (d : Dev) (l : Nat) : Dev :=
  if 4 ≤ l then d else
  let d := d.settleLateral l
  match d.siphonOf l, d.pickFlume l with
  | k :: rest, some un =>
    if d.act uSIP SIP_CFG.SHARE_PCT * 10 ≤ d.recentSiphon l ∨ storeSize ≤ d.storeUsed l then d else
    let times := (d.now :: d.fwd.sipTimes.getD [] [l]).take 100
    let d := { d with fwd := { d.fwd with sipTimes := d.fwd.sipTimes.insert [l] times } }
    let d := ((d.setSiphon l rest).bumpI uSIP SIP_PASSES.COUNT l).tallyQ uSIP 0x20 1 (selLat l)
    (d.setWindow un (d.window un ++ [k])).tally un 0x20 1
  | _, _ => d

/-! ### FLUME_PASS (R135, R197, R208) -/

/-- TURN_SEQ that a flume commits an item under (R208, R373). -/
def Dev.turnSeq (d : Dev) (un latSeq : Nat) : Nat := ((d.coveringTurn un latSeq).map (·.seq)).getD 0

/-- Replace a window's entry. -/
def Dev.putPkt (d : Dev) (un : Nat) (k : Pkt) : Dev :=
  d.setWindow un ((d.window un).map (fun x => if x.latSeq = k.latSeq then k else x))

/-- Take an entry out of a window. -/
def Dev.dropPkt (d : Dev) (un latSeq : Nat) : Dev := d.setWindow un ((d.window un).filter (fun x => !(x.latSeq == latSeq)))

/-- The result record's fields that every ending shares. -/
def Dev.resultOf (d : Dev) (s : Seen) (k : Kind) (f : Found) : Result :=
  let i := s.iface.getD 0
  let ptp := s.hs.find? (fun h => d.flagI uPRS PRS_NODE_LEN.PTP h.node)
  let tc : Bool := d.flag uDSTG DST_FWD_CFG.PTP_TC_EN
    && (match ptp with | some h => decide (beAt s.frame h.off 1 % 16 ≤ 3) | none => false)
  { disp := 2
    cls := match s.act.cls, flowField f.flow 12 2 3 with
      | some c, _ => c
      | none, some c => c
      | none, none => resAt i 4 9 7
    colour := s.k.colour
    egMeta := if k = .bridged then s.bd else s.vrf
    mirror := if resAt i 4 14 14 = 1 then some (resAt i 4 13 10) else none
    ptpOp := if tc then 1 else 0
    ptpOffset := match ptp with | some h => h.off - s.k.strip | none => 0 }

/-- The record of a pass that ends here; a punt that its policer refuses becomes a drop (R137). -/
def Dev.finalOf (d : Dev) (base : Result) (e : Ending) : Dev × Result :=
  match e with
  | .drop r => (d, { base with disp := 2, reason := r })
  | .punt q r =>
    let w := d.puntPolice q
    (w.1, if w.2 then { base with disp := 3, reason := r, puntQ := q } else { base with disp := 2, reason := 0x0B })
  | .unicast dest enc v ed => (d, { base with disp := 0, dest := dest, encapId := enc, encapValid := v, editKind := ed })
  | .multicast g ed => (d, { base with disp := 1, dest := g, editKind := ed })
  | .again _ => (d, base)

/-- A recirculation: past the fourth pass or with the store full the packet drops; otherwise its pass commits as the siphon
store takes it (R135, R209). -/
def Dev.recirculate (d : Dev) (un : Nat) (base : Result) (k : Pkt) : Dev × Option Result :=
  if 3 ≤ k.pass then
    ((d.bumpI uSIP SIP_PASS_LIMIT.COUNT k.lat).raiseOnce uSIP 0x10 0 (fun _ => leBytes 1 k.lat),
      some { base with disp := 2, reason := 0x0A })
  else if 2048 ≤ (d.siphonOf k.lat).length then
    ((d.bumpI uSIP SIP_OVERFLOW.COUNT k.lat).raiseOnce uSIP 0x11 0 (fun _ => leBytes 1 k.lat),
      some { base with disp := 2, reason := 0x0A })
  else
    let d := (d.dropPkt un k.latSeq).applyUpdates k.updates
    let d := ((d.set un FLM_STATUS.LAST_COMMIT k.latSeq).bump un FLM_PASSES.COUNT).tally un 0x21 1
    (d.setSiphon k.lat (d.siphonOf k.lat ++ [{ k with pass := k.pass + 1, updates := [] }]), none)

/-- The entry of a window whose pass has not ended yet. -/
def Dev.entryOf (d : Dev) (un latSeq : Nat) : Option Pkt := (d.window un).find? (fun k => k.latSeq == latSeq && !k.committed)

/-- The 64-byte result record of a packet's final pass (R208). -/
def Dev.recordBytes (d : Dev) (k : Pkt) (y : Result) : List Byte :=
  let first := if k.strip = 0 then d.get uPRS PRS_CFG.ROOT_NODE else k.first
  let b := leBytes 4 k.latSeq ++ leBytes 4 k.turn
    ++ leBytes 4 (k.slot + k.hdr.port * 2 ^ 17 + k.pass * 2 ^ 24 + first * 2 ^ 26)
    ++ leBytes 4 (k.portSeq + y.disp * 2 ^ 17 + y.cls * 2 ^ 20 + y.colour * 2 ^ 23)
    ++ leBytes 4 (y.dest + y.reason * 2 ^ 24)
    ++ leBytes 4 (y.encapId + y.encapValid.toNat * 2 ^ 22 + y.editKind * 2 ^ 23 + y.puntQ * 2 ^ 26)
    ++ leBytes 4 (k.strip + y.egMeta * 2 ^ 16)
    ++ leBytes 4 (k.hdr.len + y.mirror.getD 0 * 2 ^ 14 + y.mirror.isSome.toNat * 2 ^ 18 + y.ptpOp * 2 ^ 19)
    ++ leBytes 8 k.hdr.rxTime ++ leBytes 2 k.hdr.rxFrac ++ leBytes 2 y.ptpOffset ++ leBytes 4 (d.sysport k.hdr.port)
    ++ leBytes 4 k.hdr.handle ++ leBytes 8 0
  b ++ leBytes 4 (crc32cStd b)

/-- A pass has ended with a result: the packet waits in its window, its record under the flume's turn sent (R208). -/
def Dev.sendRecord (d : Dev) (un : Nat) (k : Pkt) (y : Result) : Dev :=
  let k := { k with result := some y, turn := d.turnSeq un k.latSeq }
  d.putPkt un { k with record := d.recordBytes k y }

/-- The banks in SHADOW of the partitions that a pass searched compare what they found (R389). -/
def Dev.bankItems (d : Dev) (s : Seen) (o : ShadowOut) : Dev :=
  if s.dec.isSome then d else
  (searched s.k.parts s.k.pass).foldl (fun d p => (d.partBanks p).foldl (fun d b => d.shadowOne (uBank s.lat b) o) d) d

/-- The entry of a flume's window that a pass can run on and end: the flume is in service, and the turn that covers the entry lets it send
(R372–R374). That a pass which cannot end leaves no trace is the model's choice. -/
def Dev.passOf (d : Dev) (un latSeq : Nat) : Option Pkt :=
  ((d.entryOf un latSeq).filter (fun k => k.result.isNone)).filter (fun _ =>
    (d.svc un == sACTIVE || d.svc un == sDRAINING) && (d.coveringTurn un latSeq).any (·.sends d.now))

/-- One pass of an entry, through all eight stages, to its record or its siphon store. A first fragment's entry is written by its final pass
(R117). That a drop for a lost lookup (R163) writes it too, as every other end of the final pass does, is the model's reading (log 269). -/
def Dev.passEnds (d : Dev) (un : Nat) (k0 : Pkt) (lost : Bool) (o : ShadowOut) : Dev :=
  let d := (List.range 8).foldl (fun d j => d.tally (uStage un j) 0x20 1) d
  let alone := (d.shadowsOf un).isEmpty
  let r := d.runPass un k0 lost
  let s := r.2.1
  let base := r.1.resultOf s r.2.2.1 r.2.2.2.1
  let w : Dev × Option (Pkt × Result) := match r.2.2.2.2.1 with
    | .again k =>
      let x := r.1.recirculate un base { k with updates := s.k.updates, colour := s.k.colour, seen := s.k.seen }
      (x.1, x.2.map (fun y => (s.k, y)))
    | e => let x := r.1.finalOf base e
           (x.1, some (s.k, x.2))
  let d := w.1
  let d := match w.2 with
    | none => d
    | some (k, y) =>
      let d := match s.frag with
        | some f => if f.firstFrag ∧ ¬ s.later then d.fragWrite f.key ⟨s.act, r.2.2.2.2.2⟩ else d
        | none => d
      d.sendRecord un { k with colour := k0.colour } y
  (d.bankItems s (if alone then o else .same)).shadowItem un o

/-- FLUME_PASS of one entry of a flume's window. -/
def Dev.flumePass (d : Dev) (un latSeq : Nat) (o : ShadowOut) : Dev :=
  match d.passOf un latSeq with
  | none => d
  | some k => d.passEnds un k false o

/-! ### RESULT_COMMIT (R208, R209, R374) -/

/-- Is a record's TURN_SEQ the turn that its rider holds current for the flume and LAT_SEQ (R209, R373)? -/
def Dev.turnCovers (d : Dev) (un latSeq seq : Nat) : Bool := (d.coveringTurn un latSeq).any (fun t => t.current d.now && t.seq == seq)

/-- Does a QUALIFIER of the lateral's DROP code select a reason (R223)? -/
def selReason (r q : Nat) : Bool := q % 16 == 0 || q % 16 == r

/-- Note that a replayed item of a watch has come to its end. -/
def Dev.replayEnded (d : Dev) (latSeq : Nat) (lat : Nat) : Dev :=
  { d with rid := { d.rid with watch := d.rid.watch.map (fun e =>
      if 32 ≤ e.1.headD 0 ∧ latOfFlume (e.1.headD 0) = lat ∧ e.1.headD 0 < 52 then
        (e.1, { e.2 with open_ := e.2.open_.filter (· != latSeq) })
      else e) } }

/-- Has a packet committed already: its record waits for release, or has been released? -/
def Dev.committedAlready (d : Dev) (k : Pkt) : Bool :=
  let ahead := (d.fwd.relSeq.getD 0 [k.hdr.port] + 2 ^ 17 - k.portSeq) % 2 ^ 17
  (d.fwd.ready.get? [k.hdr.port, k.portSeq]).isSome || (decide (1 ≤ ahead) && decide (ahead < 2 ^ 16))

/-- RESULT_COMMIT: an entry's record reaches the enqueue point; `ackNow` tells whether the acknowledgement has returned
within this step. -/
def Dev.resultCommit (d : Dev) (un latSeq : Nat) (checkOk ackNow : Bool) : Dev :=
  match (d.window un).find? (fun k => k.latSeq == latSeq && k.result.isSome) with
  | none => d
  | some k =>
    let y := k.result.getD { disp := 2 }
    if k.committed then d
    else if d.committedAlready k then
      (((d.bump (riderOf un) RID_REPLAY_DUP.COUNT).dropPkt un latSeq).replayEnded latSeq k.lat).showEpoch
    else if ¬ checkOk then ((d.rejectRecord un 0).putPkt un { k with result := none }).softInput un 1
    else if ¬ d.turnCovers un latSeq k.turn then (d.rejectRecord un 1).putPkt un { k with result := none }
    else
      let d := (d.bump un FLM_PASSES.COUNT).set un FLM_STATUS.LAST_COMMIT latSeq
      let l := uLAT k.lat
      let d := if y.disp = 2 ∧ y.reason ≠ 0 then (d.bumpI l LAT_DROP.COUNT y.reason).tallyQ l 0x23 1 (selReason y.reason) else d
      let d := { d with fwd := { d.fwd with ready := d.fwd.ready.insert [k.hdr.port, k.portSeq] { k with committed := true } } }
      let d := d.replayEnded latSeq k.lat
      let d := if ackNow then ((d.dropPkt un latSeq).applyUpdates k.updates).tally un 0x21 1
        else d.putPkt un { k with committed := true, acked := false }
      d.showEpoch

/-! ### PACKET_RELEASE (R36, R38, R209–R211, R215) -/

/-- The egress descriptor of a forwarded packet (R215). -/
def Dev.descOf (d : Dev) (k : Pkt) (y : Result) : EgrDesc :=
  { length := k.hdr.len, egressPort := y.dest % 128, cls := y.cls, colour := y.colour, encapId := y.encapId,
    encapValid := y.encapValid, editKind := y.editKind, ptpOp := y.ptpOp, rxTime := k.hdr.rxTime, rxFrac := k.hdr.rxFrac,
    ptpOffset := y.ptpOffset, srcSysport := d.sysport k.hdr.port, stripLen := k.strip,
    firstNode := if k.strip = 0 then d.get uPRS PRS_CFG.ROOT_NODE else k.first, egMeta := y.egMeta }

/-- A mirror session's copy length; TRUNCATE acts as 64 below that, 0 apart (R210, R554). -/
def Dev.mirLen (d : Dev) (s n : Nat) : Nat :=
  let t := d.getI uDSTG DST_MIRROR.TRUNCATE s
  if t = 0 then n else min n (min 12288 (max 64 t))

/-- The descriptor of a mirror copy of `n` bytes (R210). -/
def Dev.mirDesc (d : Dev) (s n : Nat) : EgrDesc :=
  let p := d.getI uDSTG DST_MIRROR.DEST_SYSPORT s
  { length := n, mirror := true, egressPort := p % 128, cls := d.getI uDSTG DST_MIRROR.CLASS s,
    srcSysport := setBit p 16 (!bit p 16), firstNode := d.get uPRS PRS_CFG.ROOT_NODE }

/-- A mirror copy was lost (R211). -/
def Dev.mirLost (d : Dev) (s : Nat) : Dev :=
  (d.bumpI uDSTG DST_MIR_DROP.COUNT s).raiseOnce uDSTG 0x10 0 (fun _ => leBytes 1 s)

/-- VOQ of a mirror session. -/
def Dev.mirVoq (d : Dev) (s : Nat) : Nat := d.getI uDSTG DST_MIRROR.DEST_SYSPORT s * 8 + d.getI uDSTG DST_MIRROR.CLASS s

/-- Does a session copy this packet? One draw in 2^SAMPLE_LOG2. -/
def Dev.mirTakes (d : Dev) (s : Nat) : Dev × Bool :=
  ({ d with draws := d.draws + 1 }, d.flagI uDSTG DST_MIRROR.EN s
    && (Config.mirrorDraw d.draws).toNat % 2 ^ min 16 (d.getI uDSTG DST_MIRROR.SAMPLE_LOG2 s) == 0)

/-- Queue a mirror copy whose body, with one use for the copy, is `h`. -/
def Dev.mirQueue (d : Dev) (s n h : Nat) : Dev :=
  let r := d.offerVoq (d.mirVoq s) (d.mirDesc s n) h
  if r.2 then r.1.tally uDSTG 0x23 1 else r.1.mirLost s

/-- The ingress copy of a released packet. -/
def Dev.mirrorIn (d : Dev) (k : Pkt) (y : Result) : Dev :=
  match y.mirror with
  | none => d
  | some s =>
    if y.disp = 2 ∧ ¬ d.flagI uDSTG DST_MIRROR.DROPPED_TOO s then d else
    let t := d.mirTakes s
    if ¬ t.2 then t.1 else
    match t.1.addRef k.hdr.handle with
    | none => t.1.mirLost s
    | some d => d.mirQueue s (d.mirLen s k.hdr.len) k.hdr.handle

/-- The VOQ that multicast packets of a class wait in (R331). -/
def Dev.mcVoq (d : Dev) (c : Nat) : Nat := (d.deviceId * 128 + d.get uZFP ZFP_MC_CFG.MC_PORT) * 8 + c

/-- A committed packet acts by its DISPOSITION (R209). -/
def Dev.actReleased (d : Dev) (k : Pkt) (y : Result) : Dev :=
  let h := k.hdr.handle
  let e := d.descOf k y
  match y.disp with
  | 0 => (d.offerVoq (y.dest * 8 + y.cls) e h).1
  | 1 => (d.admitTo (.voq (d.mcVoq y.cls)) { e with group := some (y.dest % 65536) } h).1
  | 3 =>
    let p : Punt := ⟨d.bodyBytes h, h, y.reason, y.puntQ, e.srcSysport, y.cls, k.hdr.rxTime, k.hdr.rxFrac, y.egMeta⟩
    { d with hif := { d.hif with punts := d.hif.punts ++ [p] } }
  | _ => d.dropRef h

/-- PACKET_RELEASE: the next packet of an input port, once it has committed. -/
def Dev.packetRelease (d : Dev) (port : Nat) : Dev :=
  let n := d.fwd.relSeq.getD 0 [port]
  match d.fwd.ready.get? [port, n] with
  | none => d
  | some k =>
    let l := k.lat
    let d := { d with fwd := { d.fwd with ready := d.fwd.ready.erase [port, n], relSeq := d.fwd.relSeq.setD 0 [port] ((n + 1) % 2 ^ 17) } }
    let d := d.freeSlot l
    let y := k.result.getD { disp := 2 }
    (d.mirrorIn k y).actReleased k y

/-! ### SENTINEL_INJECT (R212, R382, R383) and BUCKET_LOST (R163) -/

/-- What a sentinel's stages read: every enabled partition is searched and misses, and reserved buckets and a reserved counter pair are read, at
addresses reduced modulo their number (R202, R212). Nothing is changed. -/
def Dev.sentinelReads (d : Dev) (u l : Nat) : Dev :=
  let i (t : Nat) : Nat := Config.sentinelIndex u t d.draws
  let d := (searched d.partCfgs 0).foldl (fun d p => d.countSearch p l none) d
  ((d.access false (sentinelLpmAddr (i 0)) 2).access false (sentinelEmAddr (i 1)) 4).access false (sentinelPairAddr (i 2)) 1

/-- One sentinel of a lateral: every flume in ACTIVE or SHADOW runs one through its stages against the reserved entries, changing no user
entry, and its record goes to the rider; those named in `mismatch` return one that differs (R202, R212). -/
def Dev.sentinelInject (d : Dev) (l : Nat) (mismatch : List Nat) (bad : Dev → Nat → Dev) : Dev :=
  if 4 ≤ l then d else
  ((flumes l).filter (fun u => d.svc u == sACTIVE || d.svc u == sSHADOW)).foldl (fun d u =>
    let d := (List.range 8).foldl (fun d j => d.tally (uStage u j) 0x23 1) (d.bump u FLM_SENTINELS.COUNT)
    let d := d.sentinelReads u l
    let d := { d with rid := { d.rid with sentinel := d.rid.sentinel.insert [u] (Config.sentinelRecord u d.draws) }, draws := d.draws + 1 }
    if mismatch.contains u then bad d u else d) d

/-- BUCKET_LOST: a flume's lookup meets an uncorrectable bucket of a table; the pass runs through its stages, its packet is dropped and
the bucket rebuilt (R163, R174). -/
def Dev.bucketLost (d : Dev) (un latSeq bucket table : Nat) : Dev :=
  match d.passOf un latSeq with
  | none => d
  | some k =>
    if ¬ (isLpm table ∨ isEm table) then d else
    ((d.passEnds un k true .same).tallyUp uTBE 0x07 1).rebuildBucket (table, bucket)

def execFrameReceived (port : Nat) (bytes : List Byte) (fcsOk : Bool) (sfd : Nat) (s : State) : Answer :=
  s.go (·.frameReceived port bytes fcsOk sfd)
def execHeaderDispatch (lat : Nat) (s : State) : Answer := s.go (·.headerDispatch lat)
def execSiphonSlotGrant (lat : Nat) (s : State) : Answer := s.go (·.siphonGrant lat)
def execFlumePass (un latSeq : Nat) (shadow : ShadowOut) (s : State) : Answer := s.go (·.flumePass un latSeq shadow)
def execResultCommit (un latSeq : Nat) (checkOk ackNow : Bool) (s : State) : Answer :=
  s.go (·.resultCommit un latSeq checkOk ackNow)
def execPacketRelease (port : Nat) (s : State) : Answer := s.go (·.packetRelease port)
def execCounterFlush (pair : Nat) (uncorrectable : Bool) (s : State) : Answer := s.go (·.counterFlush pair uncorrectable)
def execCntReadBlock (c : HCmd) (uncorrectable : List Nat) (faultAfter : Option Nat) (s : State) : Answer :=
  s.go (·.cntReadBlock c uncorrectable faultAfter)
def execCntClearBlock (c : HCmd) (faultAfter : Option Nat) (s : State) : Answer := s.go (·.cntClearBlock c faultAfter)
def execBucketLost (un latSeq bucket table : Nat) (s : State) : Answer := s.go (·.bucketLost un latSeq bucket table)

end Sys2Proof.Machine
end

