-- ==== Sys2Proof/Machine/Editor.lean ====
section
/-! DEFINITION. Egress editors, encapsulation entries and the egress classifier (R24, R101, R214–R220, R249). -/
namespace Sys2Proof.Machine

/-- Unit of an editor. -/
def uEDT (e : Nat) : Nat := 80 + e

/-- The editor in service whose group holds a port. -/
def Dev.editorOf (d : Dev) (port : Nat) : Option Nat :=
  ((List.range 10).map uEDT).find? (fun u => d.mayCommit u && d.get u EDT_STATUS.PORT_GROUP == port / 16)

/-! ### Checksums -/

/-- Ones' complement sum of 16-bit words, folded. -/
def fold16 (v : Nat) : Nat :=
  let v := v % 65536 + v / 65536
  v % 65536 + v / 65536

def sumWords : Nat → List Byte → Nat → Nat
  | 0, _, _ => 0
  | n + 1, f, a => beAt f a 2 + sumWords n f (a + 2)

/-- Checksum of a header of `n` words at `a`, its own field taken as 0. -/
def headerSum (f : List Byte) (a n field : Nat) : Nat :=
  65535 - fold16 (fold16 (sumWords n (patch f field [0, 0]) a))

/-- The incremental update of a checksum when a word changes (RFC 1624). -/
def sumUpdate (c old new : Nat) : Nat := 65535 - fold16 ((65535 - c) + (65535 - old) + new)

/-- Change one byte of an IPv4 header and its checksum. -/
def editV4 (f : List Byte) (ip off : Nat) (v : Nat) : List Byte :=
  let w := (ip + off) - off % 2
  let g := patch f (ip + off) (leBytes 1 v)
  patch g (ip + 10) (beBytes 2 (sumUpdate (beAt f (ip + 10) 2) (beAt f w 2) (beAt g w 2)))

/-! ### The packet as the editor sees it -/

/-- What the first header after STRIP_LEN is, `b` being the bytes that are left: Ethernet if its node is; else EDIT_KIND says what the packet
begins with, and where it asks for no edit, the first nibble does. -/
def Dev.editProto (d : Dev) (e : EgrDesc) (b : List Byte) : Proto :=
  if d.etherNode e.firstNode then .eth
  else match e.editKind with
    | 1 => .ip4
    | 2 => .ip6
    | 3 => .mpls
    | 4 => .mpls
    | _ => bareProto b 0

/-- A packet under edit: its bytes, its headers at their offsets, and how many bytes it has grown by (R216 step 7). -/
structure Edit where
  bytes : List Byte
  hs : List Hdr
  grown : Int := 0
  deriving DecidableEq, Repr

/-- Headers that begin at `a` or later, moved by `n`. -/
def shiftHdrs (a : Nat) (n : Int) (hs : List Hdr) : List Hdr :=
  (hs.filter (fun h => decide (a ≤ h.off))).map (fun h => { h with off := (h.off + n).toNat })

/-- The outermost remaining IP header. -/
def Edit.ip (x : Edit) : Option Ip :=
  firstIp x.bytes x.hs

/-- The first header that is IP or MPLS. -/
def Edit.outer (x : Edit) : Option Hdr := x.hs.find? (fun h => h.proto == .ip4 || h.proto == .ip6 || h.proto == .mpls)

/-- Step 3: strip, and find the headers. -/
def Dev.editStart (d : Dev) (e : EgrDesc) (bytes : List Byte) : Edit :=
  let b := (bytes.take e.length).drop e.stripLen
  { bytes := b, hs := (d.parse b 0 e.firstNode 0 (d.editProto e b)).hdrs }

/-- Remove the top label. -/
def Edit.pop (x : Edit) : Edit :=
  match x.hs.find? (fun h => h.proto == .mpls) with
  | none => x
  | some h =>
    { bytes := x.bytes.take h.off ++ x.bytes.drop (h.off + 4), grown := x.grown - 4
      hs := x.hs.filter (fun g => decide (g.off < h.off)) ++ shiftHdrs (h.off + 4) (-4) x.hs }

/-- Step 4: EDIT_KIND. -/
def Edit.kind (x : Edit) (k : Nat) : Edit :=
  match k, x.ip with
  | 1, some i =>
    if i.v6 then x else { x with bytes := editV4 x.bytes i.off 8 ((beAt x.bytes (i.off + 8) 1 + 255) % 256) }
  | 2, some i =>
    if i.v6 then { x with bytes := patch x.bytes (i.off + 7) (leBytes 1 (beAt x.bytes (i.off + 7) 1 + 255)) } else x
  | 3, _ => x.pop
  | 4, _ => x.pop
  | _, _ => x

/-- Write the traffic-class byte of the outermost IP header. -/
def Edit.setTos (x : Edit) (i : Ip) (v : Nat) : Edit :=
  if i.v6 then
    { x with bytes := patch x.bytes i.off (beBytes 2 (setBits (beAt x.bytes i.off 2) 11 4 v)) }
  else { x with bytes := editV4 x.bytes i.off 1 v }

/-- Traffic-class byte of an IP header. -/
def Edit.tos (x : Edit) (i : Ip) : Nat := if i.v6 then bits (beAt x.bytes i.off 2) 11 4 else beAt x.bytes (i.off + 1) 1

/-- The CE mark (R249). -/
def Edit.markCe (x : Edit) (ce : Bool) : Edit :=
  match x.ip with
  | some i =>
    let t := x.tos i
    if ce ∧ (t % 4 = 1 ∨ t % 4 = 2) then x.setTos i (t / 4 * 4 + 3) else x
  | none => x

/-! ### The egress classifier (R219) -/

/-- The key of a packet after step 4. -/
def egressKey (e : EgrDesc) (x : Edit) (etype : Nat) : Nat :=
  let base := e.egressPort + e.cls * 2 ^ 7 + e.colour * 2 ^ 10 + e.egMeta * 2 ^ 12 + e.editKind * 2 ^ 28 + etype * 2 ^ 144
  match x.ip with
  | none => base
  | some i =>
    base + x.tos i / 4 * 2 ^ 32 + i.proto * 2 ^ 38
      + (if i.ports then beAt x.bytes i.l4 2 * 2 ^ 46 + beAt x.bytes (i.l4 + 2) 2 * 2 ^ 62 else 0)
      + i.v6.toNat * 2 ^ 78 + ofBe ((i.dst x.bytes).take 4) * 2 ^ 80 + ofBe ((i.src x.bytes).take 4) * 2 ^ 112

/-- The action of the lowest matching entry. -/
def Dev.egressSearch (d : Dev) (key : Nat) : Option (List Byte) :=
  (d.fwd.egress.find? (fun e => e.2.hits key)).map (fun e => e.2.action)

/-! ### Encapsulation (R217) -/

/-- The bytes of an entry: its SIZE + 1 units. -/
def Dev.encapEntry (d : Dev) (id : Nat) : List Byte :=
  let unit (i : Nat) : List Byte := d.fwd.encap.getD (List.replicate 32 0) [id + i]
  ((List.range ((leAt (unit 0) 0 1) % 4 + 1)).map unit).flatten

/-- Where the VLAN tags of an entry's header end, its EtherType included. -/
def skipTags : Nat → List Byte → Nat → Nat
  | 0, _, a => a + 2
  | n + 1, f, a => if isTpid (beAt f a 2) then skipTags n f (a + 4) else a + 2

/-- Labels that an entry pushes: from the end of its layer-2 header to LABEL_OFF. -/
def pushedLabels (hdr : List Byte) (labelOff : Nat) : List Nat :=
  if labelOff = 0xFF then [] else
  let from_ := if labelOff < 14 then 0 else skipTags 4 hdr 12
  ((List.range (labelOff + 1)).filter (fun o => decide (from_ ≤ o) && o % 4 == labelOff % 4))

/-- EtherType of the outermost remaining header. -/
def etypeOf (h : Option Hdr) : Option Nat :=
  h.map (fun h => match h.proto with | .ip4 => 0x0800 | .ip6 => 0x86DD | _ => 0x8847)

/-- Step 6 with a readable entry of HDR_LEN not 0: what lies beneath the last pushed label is the first header that the entry leaves, which is
Ethernet where the packet keeps its layer 2; `ttl` is the swapped label's TTL less 1. -/
def Edit.encap (x : Edit) (ent : List Byte) (ttl : Option Nat) : Edit :=
  let n := leAt ent 1 1
  let hdr := slice ent 8 n
  let o := x.outer
  let cut : Nat := if bit (leAt ent 0 1) 2 then (match o with | some h => h.off | none => 0) else 0
  let rest := x.bytes.drop cut
  let hdr := match (if bit (leAt ent 0 1) 3 then etypeOf o else none) with
    | some t => patch hdr (n - 2) (beBytes 2 t)
    | none => hdr
  let lab := leAt ent 4 1
  let hdr := match ttl with
    | some t => (pushedLabels hdr lab).foldl (fun f a => patch f (a + 3) (leBytes 1 t)) hdr
    | none => hdr
  let below := shiftHdrs cut ((n : Int) - cut) x.hs
  let mplsBelow : Bool := below.head?.any (fun h => h.proto == .mpls)
  let hdr := if lab ≠ 0xFF ∧ ¬ mplsBelow then patch hdr (lab + 2) (leBytes 1 (beAt hdr (lab + 2) 1 / 2 * 2 + 1)) else hdr
  let total := n + rest.length
  let ip := leAt ent 2 1
  let udp := leAt ent 3 1
  let hdr := if ip = 0xFF then hdr
    else if beAt hdr ip 1 / 16 = 6 then patch hdr (ip + 4) (beBytes 2 (total - ip - 40))
    else patch hdr (ip + 2) (beBytes 2 (total - ip))
  let hdr := if udp = 0xFF then hdr else patch (patch hdr (udp + 4) (beBytes 2 (total - udp))) (udp + 6) [0, 0]
  let hdr := if bit (leAt ent 0 1) 4 ∧ ip ≠ 0xFF then
      patch hdr (ip + 10) (beBytes 2 (headerSum hdr ip (beAt hdr ip 1 % 16 * 2) (ip + 10)))
    else hdr
  { bytes := hdr ++ rest, hs := below, grown := x.grown + n - cut }

/-! ### PTP at the MAC (R101, R216 step 7) -/

/-- Egress timestamp, 2^−16 ns. -/
def Dev.txStamp (d : Dev) (port : Nat) : Nat :=
  ((d.now * 65536 + d.frac : Nat) + toSigned 32 (d.get (uPort port) PRT_PTP_ADJ.TX_ADJ)).toNat

/-- Overwrite bytes of a PTP message at `a`, adjusting the checksum of a UDP header that ends where the message begins. -/
def ptpPatch (hs : List Hdr) (f : List Byte) (ptp a : Nat) (new : List Byte) : List Byte :=
  let g := patch f a new
  let udp : Bool := hs.any (fun h => h.proto == .l4 && h.off + 8 == ptp) && beAt f (ptp - 2) 2 != 0
  if udp then
    let words := new.length / 2
    let c := (List.range words).foldl (fun c i => sumUpdate c (beAt f (a + 2 * i) 2) (beAt g (a + 2 * i) 2)) (beAt f (ptp - 2) 2)
    patch g (ptp - 2) (beBytes 2 (if c = 0 then 0xFFFF else c))
  else g

/-- What the MAC is told of a frame's PTP message: the operation, the frame as edited, and where the message begins. -/
structure PtpMark where
  op : Nat
  edit : Edit
  at_ : Nat
  desc : EgrDesc
  deriving DecidableEq, Repr

/-- Step 7: the mark of a frame, none where PTP_OP asks for nothing. A field that ends beyond the first 256 bytes of the packet as it reached
the editor cannot be edited (R20), and an egress port without ONE_STEP_EN sends a PTP_OP 1 frame unchanged and counts it (R216). -/
def Dev.ptpMark (d : Dev) (un port : Nat) (e : EgrDesc) (x : Edit) : Dev × Option PtpMark :=
  let m : PtpMark := ⟨e.ptpOp, x, (e.ptpOffset + x.grown).toNat, e⟩
  match e.ptpOp with
  | 1 => if ¬ d.flag (uPort port) PRT_PTP_CFG.ONE_STEP_EN then (d.bump un EDT_PTP_SKIP.COUNT, none)
         else (d, if e.ptpOffset + 16 ≤ 256 then some m else none)
  | 2 => (d, if e.ptpOffset + 44 ≤ 256 then some m else none)
  | 3 => (d, some m)
  | _ => (d, none)

/-- What the MAC does as the frame leaves: it corrects or writes a time, or raises TX_TIMESTAMP (R101). -/
def Dev.ptpSend (d : Dev) (un port : Nat) (m : PtpMark) : Dev × List Byte :=
  let x := m.edit
  let t := d.txStamp port
  match m.op with
  | 1 =>
    let c : Int := toSigned 64 (beAt x.bytes (m.at_ + 8) 8) + t - (m.desc.rxTime * 65536 + m.desc.rxFrac : Nat)
    (d.tally un 0x24 1, ptpPatch x.hs x.bytes m.at_ (m.at_ + 8) (beBytes 8 (ofSigned 64 c)))
  | 2 =>
    let ns := t / 65536
    (d, ptpPatch x.hs x.bytes m.at_ (m.at_ + 34) (beBytes 6 (ns / 1000000000) ++ beBytes 4 (ns % 1000000000)))
  | 3 =>
    (if d.flag (uPort port) PRT_PTP_CFG.TX_TS_EN then
      d.raise (uPort port) 0x1B (leBytes 8 (t / 65536) ++ leBytes 2 (t % 65536) ++ leBytes 2 m.desc.tsId)
     else d, x.bytes)
  | _ => (d, x.bytes)

/-! ### EDITOR_PACKET -/

/-- Shortest frame, less its FCS. -/
def padded (b : List Byte) : List Byte := b ++ List.replicate (60 - b.length) 0

/-- Step 8: the MAC sends the frame, marked for PTP or not (R82, R101, R107). One that was being sent when its port was disabled is finished
(R87). -/
def Dev.macSend (d : Dev) (un port : Nat) (b : List Byte) (ptp : Option PtpMark) : Dev :=
  let p := uPort port
  let n := (padded b).length + 4
  let d := (d.tally un 0x20 1).tally un 0x21 (padded b).length
  if d.act p PRT_MODE.MAX_FRAME < n then d.bump p PRT_TX_OVERSIZE.COUNT
  else if d.linkState port ≠ lsUP ∧ ¬ (d.portX port).finishing then d.bump p PRT_TX_ABORT.COUNT
  else
    let w : Dev × List Byte := match ptp with
      | some m => d.ptpSend un port m
      | none => (d, b)
    let d := (w.1.bump p PRT_TX_FRAMES.COUNT).add p PRT_TX_BYTES.COUNT n
    let d := (d.tally p 0x22 1).tally p 0x23 n
    d.setPortX port { d.portX port with lastFrame := some d.now, lastTx := padded w.2 }

/-- An egress mirror copy of the edited packet (R210). -/
def Dev.mirrorOut (d : Dev) (s : Option Nat) (b : List Byte) : Dev :=
  match s with
  | none => d
  | some s =>
    let t := d.mirTakes s
    if ¬ t.2 then t.1 else
    let n := t.1.mirLen s b.length
    let w := t.1.storeBody reqEditor 0 (b.take n) 1
    match w.2 with
    | none => w.1.mirLost s
    | some h => w.1.mirQueue s n h

/-- The counter of an egress classifier hit takes the frame as sent. A packet that the hit's action or step 6 drops is counted as it stands
then (R201). -/
def Dev.countHit (d : Dev) (counter : Option Nat) (b : List Byte) : Dev :=
  match counter with
  | some c => d.countUpdate (c, (padded b).length + 4)
  | none => d

/-- Step 6 failed. -/
def Dev.encapFail (d : Dev) (un id : Nat) : Dev :=
  (d.bump un EDT_ENCAP_ERR.COUNT).raiseOnce un 0x10 0 (fun _ => leBytes 4 id)

/-- One unit of an entry is read. A poisoned one the service cluster's firmware rewrites from its copy: at once is the model's choice (R352). -/
def Dev.encapRead (d : Dev) (i : Nat) : Dev :=
  if d.sidePoisoned false (encapAddr i) then d.sideWrite false (encapAddr i) 1 1 else d.access false (encapAddr i) 1

/-- Steps 6 to 8. -/
def Dev.editFinish (d : Dev) (un port : Nat) (e : EgrDesc) (x : Edit) (ttl : Nat) (readable : Bool) (mirror : Option Nat)
    (counter : Option Nat) : Dev :=
  let ent := d.encapEntry e.encapId
  let units := leAt ent 0 1 % 4 + 1
  let d := if e.encapValid then
      ((d.tally un 0x22 units).tallyQ uTBE 0x24 units (selLat (latOf port)))
    else d
  let readable := readable && !(List.range units).any (fun i => d.sideBad false (encapAddr (e.encapId + i)))
  let d := if e.encapValid then (List.range units).foldl (fun d i => d.encapRead (e.encapId + i)) d else d
  if e.encapValid ∧ (¬ readable ∨ leAt ent 1 1 = 0) then (d.countHit counter x.bytes).encapFail un e.encapId
  else if ¬ e.encapValid ∧ e.editKind = 3 then (d.countHit counter x.bytes).encapFail un e.encapId
  else
    let x := if e.encapValid then x.encap ent (if e.editKind = 3 then some ttl else none) else x
    let d := (d.countHit counter x.bytes).mirrorOut mirror x.bytes
    let w := d.ptpMark un port e x
    w.1.macSend un port x.bytes w.2

/-- Steps 2 to 5 on a packet that is no mirror copy. -/
def Dev.editPacket (d : Dev) (un port : Nat) (e : EgrDesc) (bytes : List Byte) (readable : Bool) : Dev :=
  if e.editKind = 0 ∧ e.srcSysport = d.sysport port then d.bump un EDT_SRC_SUPPRESS.COUNT else
  let x0 := d.editStart e bytes
  let ttl := match x0.hs.find? (fun h => h.proto == .mpls) with
    | some h => (beAt x0.bytes (h.off + 3) 1 + 255) % 256
    | none => 0
  let x := (x0.kind e.editKind).markCe e.ecnCe
  let a := d.egressSearch (egressKey e x (frontOf x.bytes x.hs).etype)
  let act := a.getD []
  let d := if a.isSome then d.tally un 0x23 1 else d
  let counter := if bit (leAt act 4 4) 25 then some (leAt act 4 4 % 2 ^ 25) else none
  if bit (leAt act 0 1) 0 then (d.countHit counter x.bytes).bump un EDT_EG_DROP.COUNT
  else
    let x := if bit (leAt act 0 1) 1 then
        (match x.ip with
        | some i => x.setTos i (bits (leAt act 0 1) 7 2 * 4 + x.tos i % 4)
        | none => x)
      else x
    let mirror := if bit (leAt act 1 1) 4 then some (leAt act 1 1 % 16) else none
    d.editFinish un port e x ttl readable mirror counter

/-- EDITOR_PACKET: the editor serving a port works on the oldest packet scheduled for it. -/
def Dev.editorPacket (d : Dev) (port : Nat) (checkOk readable : Bool) (o : ShadowOut) : Dev :=
  match d.editorOf port, d.sch.editorQ.getD [] [port] with
  | some un, t :: rest =>
    let d := { d with sch := { d.sch with editorQ := d.sch.editorQ.setD [] [port] rest } }
    let d := if ¬ checkOk ∨ t.desc.badCheck then (d.bump un EDT_CHECK_ERR.COUNT).raiseOnce un 0x11 0 (fun _ => leBytes 1 port)
      else if t.desc.mirror then d.macSend un port (t.bytes.take t.desc.length) none
      else d.editPacket un port t.desc t.bytes readable
    let d := if (d.portX port).finishing then d.setPortX port { d.portX port with finishing := false } else d
    d.shadowItem un o
  | _, _ => d

/-! ### ENCAP_WRITE and EGR_RULE_WRITE (R218, R220) -/

/-- Checks of an entry's block. -/
def encapOk (id : Nat) (b : List Byte) : Bool :=
  let size := leAt b 0 1 % 4
  let n := leAt b 1 1
  let off (i : Nat) : Bool := leAt b i 1 == 0xFF || decide (leAt b i 1 < n)
  decide (id + size ≤ 4194303) && decide (n ≤ 32 * (size + 1) - 8) && off 2 && off 3 && off 4
  && decide (leAt b 0 1 < 32) && leAt b 5 3 == 0

/-- ENCAP_WRITE (0x0109). -/
def Dev.encapWrite (d : Dev) (c : HCmd) : Dev :=
  d.tblCommand c 0x0109 [pAny 0 21 0, c.zero 0 31 22] (fun d =>
    let id := c.par 0 21 0
    let put (d : Dev) (i : Nat) : Dev :=
      { d.sideWrite false (encapAddr (id + i)) 3 1 with fwd := { d.fwd with encap := d.fwd.encap.setD (List.replicate 32 0) [id + i] (slice c.block (32 * i) 32) } }
    ((List.range (leAt c.block 0 1 % 4 + 1)).foldl put d, .ok)) (blk := encapOk (c.par 0 21 0) c.block)

/-- Reserved bits of an egress action. -/
def egressOk (a : List Byte) : Bool := decide (leAt a 1 1 < 32) && leAt a 2 2 == 0 && decide (leAt a 4 4 < 2 ^ 26)

/-- Parameter table of EGR_RULE_WRITE (R220). -/
def HCmd.egrRuleWriteParams (c : HCmd) : List Param :=
  [pAny 0 14 0, pAny 0 15 15, c.zero 0 31 16, pAny 8 63 0]

/-- EGR_RULE_WRITE (0x0204). -/
def Dev.egrRuleWrite (d : Dev) (c : HCmd) : Dev :=
  let i := c.par 0 14 0
  let put (d : Dev) (e : Option ClsEntry) : Dev := { d with fwd := { d.fwd with egress := d.fwd.egress.put [i] e } }
  d.commandNow c 0x0204 c.egrRuleWriteParams (fun d =>
    if d.svc uCLS ≠ sACTIVE then (d, .fail stUNIT_UNAVAILABLE)
    else if c.par 0 15 15 = 1 then (put d none, .ok)
    else if ¬ c.readOk then (d.dmaFailed, .fail stDATA_ERROR)
    else (put d (some (ClsEntry.mk (leAt c.block 0 20) (leAt c.block 20 20) (slice c.block 40 8))), .ok))
    (blk := c.par 0 15 15 == 1 || egressOk (slice c.block 40 8))

def execEditorPacket (port : Nat) (checkOk encapReadable : Bool) (shadow : ShadowOut) (s : State) : Answer :=
  s.go (·.editorPacket port checkOk encapReadable shadow)
def execEncapWrite (c : HCmd) (s : State) : Answer := s.go (·.encapWrite c)
def execEgrRuleWrite (c : HCmd) (s : State) : Answer := s.go (·.egrRuleWrite c)

end Sys2Proof.Machine
end

