-- ==== Sys2Proof/Machine/Dram.lean ====
section
/-! DEFINITION. Stacked memory: refresh, errors, rotation, training, lost channels and deep-sleep (R339–R368), and the table
engine's remapping (R187). -/
namespace Sys2Proof.Machine

/-! ### Stacks and channels (R339–R341) -/

/-- The physical number of a channel unit in its stack. -/
def physOf (un : Nat) : Nat := (un - 520) % 17

def Dev.stack (d : Dev) (s : Nat) : Stack := d.dram.stackTab.getD {} [s]

def Dev.setStack (d : Dev) (s : Nat) (k : Stack) : Dev :=
  { d with dram := { d.dram with stackTab := d.dram.stackTab.setD {} [s] k } }

/-- DRC_CH_STATUS.ROLE. -/
def roSERVICE : Nat := 0
def roPARKED : Nat := 1
def roSOURCE : Nat := 2
def roTARGET : Nat := 3
def roTRAINING : Nat := 4
def roFAILED : Nat := 5
def roOFF : Nat := 6

def Dev.setRole (d : Dev) (s c role : Nat) : Dev := d.set (uCHN s c) DRC_CH_STATUS.ROLE role

/-- The logical channel behind which a physical channel stands (R341). -/
def Dev.logicalOf (d : Dev) (s c : Nat) : Option Nat :=
  (List.range 16).find? (fun l => d.getI (uSTK s) DRC_CH_MAP.PHYS l == c && !d.flagI (uSTK s) DRC_CH_MAP.DEAD l)

/-- A stack's channels that are neither OFF, FAILED nor RETIRED. -/
def Dev.liveChannel (d : Dev) (un : Nat) : Bool := d.svc un != sOFF && d.svc un != sFAILED && d.svc un != sRETIRED

/-- Does a side's stack rotate (R355)? Stacks 0–3 serve the F-side, 4–7 the Q-side. -/
def Dev.sideRotating (d : Dev) (s : Nat) : Bool := (List.range 4).any (fun i => (d.stack (s / 4 * 4 + i)).rot.isSome)

/-! ### Refresh, errors and scrub (R345, R349, R352, R353) -/

/-- DRAM_REFRESH: a per-bank refresh of a channel, forced or not (R349). -/
def Dev.dramRefresh (d : Dev) (un : Nat) (forced : Bool) : Dev :=
  if classOf un = 0x41 ∧ d.liveChannel un then
    let d := d.tally un 0x24 1
    if forced then d.bump (parentOf un) DRC_REFRESH_FORCED.COUNT else d
  else d

/-- Count a channel's corrected errors, by second of device time (R352, R355). -/
def Dev.addCe (d : Dev) (s c n : Nat) : Dev :=
  let un := uCHN s c
  let k := d.stack s
  let sec := d.now / 1000000000
  let e := k.ces.getD ⟨sec, 0, 0⟩ [c]
  let e : CeCount := if e.sec = sec then { e with count := e.count + n } else ⟨sec, n, if e.sec + 1 = sec then e.count else 0⟩
  let d := (d.add un DRC_CE.COUNT n).tallyUp un 0x06 n
  d.setStack s { d.stack s with ces := k.ces.insert [c] e }

/-- DRC_CE_LAST_S: a channel's corrected errors in the last whole second. -/
def Dev.ceLast (d : Dev) (s c : Nat) : Nat :=
  let sec := d.now / 1000000000
  match (d.stack s).ces.get? [c] with
  | none => 0
  | some e => if e.sec = sec then e.before else if e.sec + 1 = sec then e.count else 0

/-- ODECC_REPORT: what each die corrected on-die, and what the controller's SEC-DED corrected, since the last report (R352). -/
def Dev.odeccReport (d : Dev) (s : Nat) (onDie secDed : List Nat) : Dev :=
  if 8 ≤ s then d else
  (List.range 17).foldl (fun d c =>
    let n := onDie.getD c 0
    ((d.add (uCHN s c) DRC_ODECC_CE.COUNT n).tallyUp (uCHN s c) 0x06 n).addCe s c (secDed.getD c 0)) d

/-- The DRAM buffer whose first bytes stand at a Q-side address, with its pool (R233, R343). -/
def Dev.bufferAt (d : Dev) (a : Nat) : Option (Nat × Nat) :=
  if a < spillRegion.size then some (1, a / 2048) else
  ((List.range 30).map (· + 2)).findSome? (fun p =>
    if d.inDram p ∧ d.flagI uBPM BPM_POOL_CFG.EN p then
      ((List.range (d.poolCount p)).find? (fun b => poolAddr p (d.bufSize p) b == a)).map (fun b => (p, b))
    else none)

/-- A BPM-port read of a free buffer's link returns poisoned data: its sub-list is cut there (R354). -/
def Dev.cutList (d : Dev) (a : Nat) : Dev :=
  match d.bufferAt a with
  | none => d
  | some (p, b) =>
    let l := d.freeList p (b % 1024)
    if (d.tm.owners.get? [p, b]).isSome ∨ l.cache.contains b then d else
    d.setFreeList p (b % 1024) { l with cut := true, head := (l.head.takeWhile (· != b)) ++ l.head.filter (· == b) }

/-- ECC_UNCORR: a double-bit error at a side address, met by a port of its side (source 0), by scrub (1) or by a copy (2), which the CALIB
port makes (R344, R352, R353). The read of a DEAD channel is counted instead (R364). -/
def Dev.eccUncorr (d : Dev) (qSide : Bool) (addr port source : Nat) : Dev :=
  if 2 ^ 34 ≤ addr ∨ ¬ portOfSide qSide port ∨ 2 < source ∨ (source ≠ 0 ∧ port ≠ 8) then d else
  if d.sideDead qSide addr then d.access qSide addr 1 else
  let s := sideStack qSide addr
  let ph := d.getI (uSTK s) DRC_CH_MAP.PHYS (sideChannel qSide addr % 16)
  let un := uCHN s ph
  let k := d.stack s
  let d := d.setStack s { k with ues := k.ues.insert [ph] ((d.now :: k.ues.getD [] [ph]).take 255) }
  let d := (d.bump un DRC_UE.COUNT).tallyUp un 0x07 1
  let d := ((d.set (uSTK s) DRC_UE_LOG.PHYS ph).set (uSTK s) DRC_UE_LOG.PORT port).set (uSTK s) DRC_UE_LOG.SOURCE source
  let d := (d.set (uSTK s) DRC_UE_LOG.ADDR addr).set (uSTK s) DRC_UE_LOG.VALID 1
  let d := d.raiseKeyed [uSTK s, 0x11, 0] un 0x11 1000 (fun _ => leBytes 5 addr ++ leBytes 1 port ++ leBytes 1 source)
  if port = 5 then d.cutList addr else d

/-- SCRUB_PASS (R353). -/
def Dev.scrubPass (d : Dev) (s : Nat) : Dev :=
  if s < 8 ∧ d.act (uSTK s) DRC_STACK_CFG.SCRUB_HOURS ≠ 0 then d.bump (uSTK s) DRC_SCRUB_PASSES.COUNT else d

/-- REQUEST_OVERDUE: a request of a port to a channel (R344, R345). -/
def Dev.requestOverdue (d : Dev) (un port : Nat) : Dev :=
  let st := parentOf un
  if classOf un = 0x41 ∧ portOfSide (decide (516 ≤ st)) port then
    let d := (d.bumpI st DRC_OVERDUE.COUNT port).tallyQ un 0x25 1 (selDramPort port)
    d.raiseOnce st 0x16 port (fun n => leBytes 1 port ++ leBytes 4 n)
  else d

/-! ### Rotation (R355–R361) -/

/-- The channel trained longest ago among those neither parked nor trained by this rotation; the lowest of equals (R356). -/
def Dev.oldestTrained (d : Dev) (s p : Nat) (done : List Nat) : Option Nat :=
  (List.range 17).foldl (fun best c =>
    if c = p ∨ done.contains c ∨ (d.logicalOf s c).isNone then best else
    match best with
    | none => some c
    | some b => if d.get (uCHN s c) DRC_CH_TRAIN_TIME.TIME < d.get (uCHN s b) DRC_CH_TRAIN_TIME.TIME then some c else some b) none

/-- One step begins: the copy of X into P (R357). -/
def Dev.beginStep (d : Dev) (s : Nat) (r : Rotation) : Dev :=
  let d := (d.setRole s r.x roSOURCE).setRole s r.p roTARGET
  let d := d.set (uCHN s r.p) DRC_CH_STATUS.LOGICAL ((d.logicalOf s r.x).getD 0)
  let d := d.set (uSTK s) DRC_STACK_STATUS.STEP r.step
  d.setStack s { d.stack s with rot := some r }

/-- A rotation starts: ROTATING, ROTATION, and its first step (R356, R357). -/
def Dev.rotate (d : Dev) (s trigger p c : Nat) : Dev :=
  let x := if trigger = 2 ∧ c ≠ p ∧ (d.logicalOf s c).isSome then some c else d.oldestTrained s p []
  match x with
  | none => d
  | some x =>
    let d := (d.setFlag (uSTK s) DRC_STACK_STATUS.ROTATING true).rises (uSTK s) 0x21
    let d := d.raise (uSTK s) 0x10 (leBytes 1 1 ++ leBytes 1 trigger ++ leBytes 1 0)
    d.beginStep s { trigger := trigger, x := x, p := p, chan := c }

/-- May a stack rotate: it serves, is not held and not waiting for the end of a dip's 100 ms, for all but a return it has a good channel
parked, and for all but a periodic one or a return the first periodic trigger has come (R355, R361, R362, R363, R366). With TRIG_EN clear only
periodic rotations and the step of a returning channel start. -/
def Dev.mayRotate (d : Dev) (s trigger : Nat) : Bool :=
  !d.flag (uSTK s) DRC_STACK_CFG.ROT_HOLD && (d.stack s).up && (d.stack s).resume.isNone && d.get (uSTK s) UF_STATE.SLEEP_STATE != 2
  && (trigger == 4 || (!d.flag (uSTK s) DRC_STACK_STATUS.SPARE_DERATED && d.get (uSTK s) DRC_STACK_STATUS.SPARE_PHYS != 0x1F
      && (trigger == 0 || (d.flag (uSTK s) DRC_STACK_CFG.TRIG_EN && (d.stack s).begun))))

/-- Start a rotation that may start; the returning channel is the copy target of its first step (R365). -/
def Dev.launch (d : Dev) (s trigger c : Nat) : Dev :=
  if trigger = 4 then d.rotate s 4 c 0
  else (d.setStack s { d.stack s with begun := true }).rotate s trigger (d.get (uSTK s) DRC_STACK_STATUS.SPARE_PHYS) c

/-- Does a trigger of the environment stand (R355)? -/
def Dev.triggered (d : Dev) (s trigger c : Nat) : Bool :=
  let st := uSTK s
  match trigger with
  | 0 => d.act st DRC_STACK_CFG.ROT_PERIOD_S != 0
      && decide (d.get st DRC_ROT_TIME.TIME + 1000000000 * d.act st DRC_STACK_CFG.ROT_PERIOD_S ≤ d.now)
  | 1 => decide (d.act st DRC_STACK_CFG.TEMP_DELTA_C
          < (toSigned 8 (d.get st DRC_STACK_STATUS.TEMP_C) - toSigned 8 (d.get st DRC_STACK_STATUS.LAST_ROT_TEMP_C)).natAbs)
  | 2 => decide (c < 17) && decide (d.act st DRC_STACK_CFG.CE_RATE_TH < d.ceLast s c)
  | _ => false

/-- What starts next on a side where no stack rotates: the triggered rotation that has waited longest, else the periodic one of the lowest
stack (R355). -/
def Dev.nextRotation (d : Dev) (side : Nat) : Option (Nat × Nat × Nat) :=
  let can (w : Nat × Nat × Nat) : Bool := w.1 / 4 == side && d.mayRotate w.1 w.2.1
  match d.dram.waiting.find? (fun w => can w && w.2.1 != 0) with
  | some w => some w
  | none => (List.range 4).findSome? (fun i => d.dram.waiting.find? (fun w => can w && w.1 == 4 * side + i))

/-- The next rotation of a side starts, when no stack of the side rotates (R355). -/
def Dev.startWaiting (d : Dev) (side : Nat) : Dev :=
  if d.sideRotating (4 * side) then d else
  match d.nextRotation side with
  | none => d
  | some w => ({ d with dram := { d.dram with waiting := d.dram.waiting.filter (fun v => !(v == w)) } }).launch w.1 w.2.1 w.2.2

/-- A trigger comes: absorbed while its stack rotates or waits. A returning channel's step is not absorbed (R355, R365). -/
def Dev.await (d : Dev) (s trigger c : Nat) : Dev :=
  if trigger ≠ 4 ∧ ((d.stack s).rot.isSome ∨ d.dram.waiting.any (fun w => w.1 == s)) then d else
  { d with dram := { d.dram with waiting := d.dram.waiting ++ [(s, trigger, c)] } }

/-- A trigger starts its rotation, or waits for its turn (R355). -/
def Dev.trigger (d : Dev) (s trigger c : Nat) : Dev := (d.await s trigger c).startWaiting (s / 4)

/-- ROTATION_START by a periodic, temperature or error trigger. A periodic one finds every stack of its side that is due as well. -/
def Dev.rotationStart (d : Dev) (s trigger c : Nat) : Dev :=
  if s < 8 ∧ d.triggered s trigger c ∧ d.mayRotate s trigger then
    if trigger = 0 then
      ((List.range 4).foldl (fun d i =>
        let t := s / 4 * 4 + i
        if d.triggered t 0 0 ∧ d.mayRotate t 0 then d.await t 0 0 else d) d).startWaiting (s / 4)
    else d.trigger s trigger c
  else d

/-- A rotation is over: its line clears, and a waiting one of the side starts. -/
def Dev.endRotation (d : Dev) (s : Nat) : Dev :=
  let d := d.setStack s { d.stack s with rot := none }
  let d := (d.setFlag (uSTK s) DRC_STACK_STATUS.ROTATING false).set (uSTK s) DRC_STACK_STATUS.STEP 0
  d.startWaiting (s / 4)

/-- The stack stops rotating: ROTATION_STOPPED with its reason (R362, R363). Any step under way is given up. -/
def Dev.stopRotating (d : Dev) (s reason : Nat) : Dev :=
  let d := d.raise (uSTK s) 0x14 (leBytes 1 reason)
  let d := d.logDecision 8 (uSTK s) 0
  if (d.stack s).rot.isSome then d.endRotation s else d

/-- A returning channel's step waits to start again (R361, R365). -/
def Dev.awaitReturn (d : Dev) (s c : Nat) : Dev := if d.svc (uCHN s c) = sSHADOW then d.await s 4 c else d.setRole s c roPARKED

/-- The step in progress is aborted (R361). A returning channel waits for its step again. -/
def Dev.abortRotation (d : Dev) (s : Nat) : Dev :=
  match (d.stack s).rot with
  | none => d
  | some r =>
    let d := if r.training then
        (d.setRole s r.x roOFF).setStack s { d.stack s with untrained := some r.x }
      else
        (d.setRole s r.x roSERVICE).awaitReturn s r.p
    let d := d.bump (uSTK s) DRC_ROT_INFO.ABORTS
    let d := d.raise (uSTK s) 0x10 (leBytes 1 2 ++ leBytes 1 r.trigger ++ leBytes 1 (r.step - 1))
    d.endRotation s

/-- ROT_HOLD_SET (R355, R361). -/
def Dev.rotHoldSet (d : Dev) (s : Nat) : Dev :=
  if s < 8 then (d.setFlag (uSTK s) DRC_STACK_CFG.ROT_HOLD true).abortRotation s else d

/-- A supply dip aborts a rotation, which restarts 100 ms after the rail has recovered (R361, R519). -/
def Dev.dipRotation (d : Dev) (s : Nat) : Dev :=
  match (d.stack s).rot with
  | none => d
  | some r => (d.setStack s { d.stack s with resume := some (r.trigger, r.chan, d.now + 100000000) }).abortRotation s

/-- ROTATION_RESUME: the restart, from step 1; the step of a returning channel waits among the triggers. -/
def Dev.rotationResume (d : Dev) (s : Nat) : Dev :=
  match (d.stack s).resume with
  | none => d
  | some (t, c, at_) =>
    if d.now < at_ ∨ (d.stack s).untrained.isSome then d else
    let d := d.setStack s { d.stack s with resume := none }
    if t = 4 then d.startWaiting (s / 4) else d.trigger s t c

/-- Reads of the copy: the logical channel's bytes in bursts of the side's access (R339, R357). -/
def copyBursts (s : Nat) : Nat := logicalBytes / accessBytes (decide (4 ≤ s))

/-- One ns of a copy: its pointer moves on (R357, R358). -/
def Dev.copyTime (d : Dev) (s : Nat) : Dev :=
  match (d.stack s).rot with
  | none => d
  | some r =>
    if r.training then d else
    d.setStack s { d.stack s with rot := some { r with pointer := min logicalBytes (r.pointer + Config.copyPace s d.now % 6) } }

/-- A returning channel's comparison has failed: its step is given up, and the stack has no spare as before (R365). -/
def Dev.returnFailed (d : Dev) (s : Nat) (r : Rotation) : Dev :=
  let un := uCHN s r.p
  let d := ((d.bump (riderOf un) RID_SHADOW_MISMATCH.COUNT).failSelf un 0x0007).setRole s r.p roFAILED
  let d := d.setRole s r.x roSERVICE
  (d.endReturns un (.fail stABORTED_FAULT)).stopRotating s 0

/-- ROTATION_COPY_DONE: the logical channel switches to the copy target, which takes the turn; X goes OFF and trains (R357,
R360, R365). -/
def Dev.rotationCopyDone (d : Dev) (s : Nat) (o : ShadowOut) : Dev :=
  match (d.stack s).rot with
  | none => d
  | some r =>
    if r.training then d else
    let back : Bool := d.svc (uCHN s r.p) == sSHADOW
    if back ∧ o = .differs then d.returnFailed s r else
    let l := (d.logicalOf s r.x).getD 0
    let d := d.tally (uSTK s) 0x20 (copyBursts s)
    let d := (d.tallyQ (uCHN s r.x) 0x20 (copyBursts s) (selDramPort 8)).tallyQ (uCHN s r.p) 0x21 (copyBursts s) (selDramPort 8)
    let d := d.setI (uSTK s) DRC_CH_MAP.PHYS l r.p
    let d := (d.setSvc (uCHN s r.p) sACTIVE).grantTurn (uCHN s r.p) 0 none
    let d := (d.setRole s r.p roSERVICE).set (uCHN s r.p) DRC_CH_STATUS.LOGICAL l
    let d := ((d.releaseTurn (uCHN s r.x)).setSvc (uCHN s r.x) sOFF).setRole s r.x roTRAINING
    let d := if d.get (uSTK s) DRC_STACK_STATUS.SPARE_PHYS = r.p then d.set (uSTK s) DRC_STACK_STATUS.SPARE_PHYS 0x1F else d
    let d := d.setStack s { d.stack s with rot := some { r with training := true, pointer := logicalBytes } }
    if back then
      let d := { d with rid := { d.rid with shadows := d.rid.shadows.erase [uCHN s r.p] } }
      d.endReturns (uCHN s r.p) (.ok 1)
    else d

/-! ### Training (R362, R363, R366) -/

/-- What training leaves in a channel's registers. -/
def Dev.noteTraining (d : Dev) (s c rate margin : Nat) : Dev :=
  let un := uCHN s c
  let d := (d.set un DRC_CH_STATUS.RATE rate).setFlag un DRC_CH_STATUS.DERATED (rate != 0)
  let d := (d.set un DRC_CH_STATUS.MARGIN_PCT margin).set un DRC_CH_STATUS.TRAIN_TEMP_C (d.get (uSTK s) DRC_STACK_STATUS.TEMP_C)
  d.set un DRC_CH_TRAIN_TIME.TIME d.now

/-- A trained channel is parked. -/
def Dev.park (d : Dev) (s c : Nat) : Dev :=
  let d := (d.setSvc (uCHN s c) sSPARE).setRole s c roPARKED
  let d := (d.set (uSTK s) DRC_STACK_STATUS.SPARE_PHYS c).setFlag (uSTK s) DRC_STACK_STATUS.NO_SPARE false
  d.setFlag (uSTK s) DRC_STACK_STATUS.SPARE_DERATED (d.flag (uCHN s c) DRC_CH_STATUS.DERATED)

/-- A channel that trained only below 7.2 GT/s (R362). -/
def Dev.noteDerated (d : Dev) (s c : Nat) : Dev :=
  d.raise (uSTK s) 0x12 (leBytes 1 c ++ leBytes 1 (d.get (uCHN s c) DRC_CH_STATUS.RATE))

/-- A channel that trains at none of the rates; its logical channel is `replaced` (1), or DEAD (R363, R366). -/
def Dev.trainFailed (d : Dev) (s c replaced : Nat) : Dev :=
  let un := uCHN s c
  let d := d.bump un DRC_TRAIN_FAIL.COUNT
  let d := (d.failSelf un 0x0040).setRole s c roFAILED
  d.raise (uSTK s) 0x13 (leBytes 1 c ++ leBytes 1 0 ++ leBytes 1 replaced)

/-- A stack with logical channels lost shows what it still carries (R364, R391). -/
def Dev.showStack (d : Dev) (s : Nat) : Dev :=
  d.setCapacity (uSTK s) (937500 + 62500 - 62500 * popCount (d.get (uSTK s) DRC_STACK_STATUS.DEAD_MASK) 16)

/-- A Q-side channel is lost: its blocks leave pool 1 and its free lists (R253). -/
def Dev.loseBlocks (d : Dev) : Dev :=
  let live (b : Nat) : Bool := !d.deadBlock 1 b
  let lists : Tab FreeList := d.tm.lists.map (fun e => if e.1.headD 0 = 1 then (e.1, { e.2 with cache := e.2.cache.filter live, head := e.2.head.filter live }) else e)
  let d := { d with tm := { d.tm with lists := lists.filter (fun e => e.2 ≠ ({} : FreeList)) } }
  d.showSpillCount.setFree 1 (d.freeNow 1)

/-- A logical channel goes DEAD (R341, R364, R253): of a Q-side stack, its blocks leave pool 1. A stack without any channel
can carry none of its work and is FAILED (R53); no spare covers it (R382). -/
def Dev.goDead (d : Dev) (s l c : Nat) : Dev :=
  let d := d.setI (uSTK s) DRC_CH_MAP.DEAD l 1
  let d := d.set (uSTK s) DRC_STACK_STATUS.DEAD_MASK (setBit (d.get (uSTK s) DRC_STACK_STATUS.DEAD_MASK) l true)
  let d := if 4 ≤ s ∧ d.flagI uBPM BPM_POOL_STATUS.READY 1 then d.loseBlocks else d
  let d := (d.showStack s).sparesExhausted (uSTK s) (uCHN s c)
  let d := if d.get (uSTK s) DRC_STACK_STATUS.DEAD_MASK = 0xFFFF ∧ d.svc (uSTK s) = sACTIVE then
      (d.failSelf (uSTK s) 0x0008).dieFail (uSTK s) 0x0008 else d
  d.logDecision 8 (uCHN s c) 0

/-- Take logical channel `l` into service on physical channel `c`. -/
def Dev.serveOn (d : Dev) (s l c : Nat) : Dev :=
  let d := (d.setI (uSTK s) DRC_CH_MAP.PHYS l c).set (uCHN s c) DRC_CH_STATUS.LOGICAL l
  (((d.setRole s c roSERVICE).setSvc (uCHN s c) sACTIVE).grantTurn (uCHN s c) 0 none)

/-- The order in which bring-up takes channels for the logical ones that have no home: best rate first, then number. -/
def Dev.bringOrder (d : Dev) (s : Nat) : List Nat :=
  ((List.range 4).map (fun rate => (List.range 17).filter (fun c =>
    d.svc (uCHN s c) == sOFF && d.get (uCHN s c) DRC_CH_STATUS.RATE == rate))).flatten

/-- Every channel of a stack has been trained: the logical channels take their homes where those trained at 7.2 GT/s, the
others what is left, and the last channel left is parked; a logical channel without one is DEAD (R366). -/
def Dev.bringUpDone (d : Dev) (s : Nat) : Dev :=
  let d := d.setStack s { d.stack s with up := true }
  let good := fun (c : Nat) => d.svc (uCHN s c) == sOFF && d.get (uCHN s c) DRC_CH_STATUS.RATE == 0
  let homes := (List.range 16).filter good
  let rest := (d.bringOrder s).filter (fun c => !homes.contains c)
  let homeless := (List.range 16).filter (fun l => !homes.contains l)
  let d := homes.foldl (fun d l => d.serveOn s l l) d
  let d := (homeless.zip rest).foldl (fun d e => d.serveOn s e.1 e.2) d
  let d := (homeless.drop rest.length).foldl (fun d l => d.goDead s l l) d
  match rest.drop homeless.length with
  | c :: _ =>
    let d := d.park s c
    if d.flag (uCHN s c) DRC_CH_STATUS.DERATED then d.stopRotating s 1 else d
  | [] => ((d.set (uSTK s) DRC_STACK_STATUS.SPARE_PHYS 0x1F).setFlag (uSTK s) DRC_STACK_STATUS.NO_SPARE true).stopRotating s 0

/-- Training at bring-up of one channel, and the end of bring-up once all 17 are done. -/
def Dev.bringUpTrained (d : Dev) (s c : Nat) (rate : Option Nat) (margin : Nat) : Dev :=
  let k := d.stack s
  if k.brought.contains c then d else
  let d := match rate with
    | none => d.trainFailed s c (k.brought.all (fun x => d.svc (uCHN s x) != sFAILED)).toNat
    | some n =>
      let d := d.noteTraining s c n margin
      if n = 0 then d else d.noteDerated s c
  let d := d.setStack s { d.stack s with brought := k.brought ++ [c] }
  if (d.stack s).brought.length = 17 then d.bringUpDone s else d

/-- The next step of a rotation, or its end (R357). -/
def Dev.nextStep (d : Dev) (s : Nat) (r : Rotation) : Dev :=
  let done := r.trained ++ [r.x]
  match (if done.length < 17 then d.oldestTrained s r.x done else none) with
  | some x => d.beginStep s { r with x := x, p := r.x, training := false, pointer := 0, trained := done, step := r.step + 1 }
  | none =>
    let st := uSTK s
    let d := (d.set st DRC_ROT_TIME.TIME d.now).set st DRC_STACK_STATUS.LAST_ROT_TEMP_C (d.get st DRC_STACK_STATUS.TEMP_C)
    let d := d.bump st DRC_ROT_INFO.ROTATIONS
    let d := d.raise st 0x10 (leBytes 1 0 ++ leBytes 1 r.trigger ++ leBytes 1 done.length)
    d.endRotation s

/-- A vacated channel has been trained: parked and on to `go`, or derated, or failed (R357, R362, R363). -/
def Dev.vacatedTrained (d : Dev) (s c : Nat) (rate : Option Nat) (margin : Nat) (go : Dev → Dev) : Dev :=
  match rate with
  | none =>
    let d := (d.trainFailed s c 1).setFlag (uSTK s) DRC_STACK_STATUS.NO_SPARE true
    (d.set (uSTK s) DRC_STACK_STATUS.SPARE_PHYS 0x1F).stopRotating s 0
  | some n =>
    let d := (d.noteTraining s c n margin).park s c
    if n = 0 then go d else (d.noteDerated s c).stopRotating s 1

/-- The self-test of a returning channel is its training (R365): a pass takes it to SHADOW as the copy target of a step that
starts as soon as its side lets it; one that trains only at a lower rate is parked under R362. -/
def Dev.returnTrained (d : Dev) (s c : Nat) (rate : Option Nat) (margin : Nat) (t : SelfTest) : Dev :=
  let un := uCHN s c
  let d := { d with rid := { d.rid with tests := d.rid.tests.erase [un] } }
  let pass := rate.isSome
  let d := (d.setFlag un UF_CTRL.TEST_BUSY false).setFlag un UF_CTRL.TEST_PASS pass
  let d := d.raise un 0x03 (leBytes 1 pass.toNat)
  let reply (d : Dev) (r : Reply) : Dev := match t.ticket with
    | some k => d.finish k r
    | none => d
  match rate with
  | none => reply (d.trainFailed s c 1) (.fail stABORTED_FAULT)
  | some n =>
    let d := d.noteTraining s c n margin
    if n ≠ 0 then reply (((d.park s c).noteDerated s c).stopRotating s 1) (.ok 1) else
    let d := ((d.setSvc un sSHADOW).setRole s c roTARGET)
    let d := match t.ticket, t.waitActive with
      | some k, true => { d with rid := { d.rid with returns := d.rid.returns ++ [ReturnWait.mk un k] } }
      | some k, false => d.finish k (.ok 1)
      | none, _ => d
    d.trigger s 4 c

/-- CHANNEL_TRAINED: training of a channel ends at a rate, 0 for 7.2 GT/s, or finds no setting. -/
def Dev.channelTrained (d : Dev) (un : Nat) (rate : Option Nat) (margin : Nat) : Dev :=
  if classOf un ≠ 0x41 ∨ 3 < rate.getD 0 ∨ 100 < margin then d else
  let s := (un - 520) / 17
  let c := physOf un
  if d.get (uSTK s) UF_STATE.SLEEP_STATE = 2 then d else
  match d.rid.tests.get? [un] with
  | some t => if t.why = .return_ then d.returnTrained s c rate margin t else d
  | none =>
    if ¬ (d.stack s).up then (if d.svc un = sOFF ∧ d.fw.sideband.contains s then d.bringUpTrained s c rate margin else d) else
    match (d.stack s).rot with
    | some r => if r.training ∧ r.x = c then d.vacatedTrained s c rate margin (fun d => d.nextStep s r) else d
    | none =>
      if (d.stack s).untrained = some c then
        let d := d.setStack s { d.stack s with untrained := none }
        d.vacatedTrained s c rate margin (fun d => d.startWaiting (s / 4))
      else d

/-! ### Lost channels (R364) -/

/-- The declaration of a channel by its rider; the parked channel, when there is one, is its taker (R364, R378). -/
def Dev.declareChannel (d : Dev) (un inp hard : Nat) (taker : Option Nat) : Dev :=
  let w : Watch :=
    { state := .declared, inputs := inp ||| (if hard = 0 then 0 else 8), cause := hardCause hard, hardKind := hard, declaredAt := d.now
      turnSeq := d.get un UF_TURN.TURN_SEQ, taker := taker }
  let d := (d.setWatch un w).setSvc un sFAILED
  let d := (d.bumpSat un UF_STATE.FAULT_COUNT).bump (riderOf un) RID_DECLARED.COUNT
  d.logDecision 6 un 0

/-- A rotation step in which a failing channel or its replacement takes part is given up: X serves on while its copy is not done, and a
returning channel waits for its step again (R365). -/
def Dev.leaveStep (d : Dev) (s : Nat) : Dev :=
  match (d.stack s).rot with
  | none => d
  | some r => if r.training then d else (d.setRole s r.x roSERVICE).awaitReturn s r.p

/-- A channel that cannot be read leaves the whole range of its logical channel poisoned (R364). -/
def Dev.poisonRange (d : Dev) (s l : Nat) : Dev :=
  { d with dram := { d.dram with poison := d.dram.poison.insert (poisonKey (decide (4 ≤ s)) (16 * (s % 4) + l)) [] } }

/-- An in-service channel is lost: the parked channel takes its logical channel, or that goes DEAD (R364). `cause` is
CHANNEL_FAILED's: 1 lock lost, 2 uncorrectable errors. With its lock lost it cannot be read, and its logical channel's whole range is reported
as poisoned; else it is copied, and the words that cannot be corrected are met at their next reads. -/
def Dev.loseChannel (d : Dev) (un cause inp hard : Nat) : Dev :=
  let s := (un - 520) / 17
  let c := physOf un
  match d.logicalOf s c with
  | none => d
  | some l =>
    let p := d.get (uSTK s) DRC_STACK_STATUS.SPARE_PHYS
    let fails (d : Dev) (replaced : Nat) : Dev :=
      (d.setRole s c roFAILED).raise (uSTK s) 0x13 (leBytes 1 c ++ leBytes 1 cause ++ leBytes 1 replaced)
    if p < 17 ∧ d.svc (uCHN s p) = sSPARE then
      let d := d.leaveStep s
      let d := fails (d.declareChannel un inp hard (some (uCHN s p))) 1
      let d := if cause = 1 then (d.serveOn s l p).poisonRange s l else d.serveOn s l p
      let d := (d.set (uSTK s) DRC_STACK_STATUS.SPARE_PHYS 0x1F).setFlag (uSTK s) DRC_STACK_STATUS.NO_SPARE true
      let d := d.setFlag (uSTK s) DRC_STACK_STATUS.SPARE_DERATED false
      (d.stopRotating s 0).endDeclared un
    else
      let d := d.leaveStep s
      let d := fails (d.declareChannel un inp hard none) 0
      let d := (d.goDead s l c).endDeclared un
      if ((d.stack s).rot.any (fun r => !r.training)) then d.stopRotating s 0 else d

/-- CHANNEL_FAILED (R364): PHY lock lost, or UE_FAIL_TH uncorrectable errors within 1 s. -/
def Dev.channelFailed (d : Dev) (un cause : Nat) : Dev :=
  if classOf un ≠ 0x41 ∨ (d.svc un ≠ sACTIVE ∧ d.svc un ≠ sDRAINING) then d else
  let s := (un - 520) / 17
  let recent := ((d.stack s).ues.getD [] [physOf un]).filter (fun t => decide (d.now < t + 1000000000))
  if cause = 1 then d.loseChannel un 1 0 4
  else if cause = 2 ∧ d.act (uSTK s) DRC_STACK_CFG.UE_FAIL_TH ≤ recent.length then d.loseChannel un 2 0 1
  else d

/-! ### Deep-sleep (R350, R351) -/

/-- Is a packet's body on the spillway? -/
def QPkt.spilled (p : QPkt) : Bool := match p.loc with
  | .spill _ => true
  | .cells _ => false

/-- The spillway comes back empty: its packets are lost as those behind a lost link (R243), its blocks go free, and pool 1 is
threaded again before it grants any (R351). -/
def Dev.emptySpillway (d : Dev) : Dev :=
  let clear (d : Dev) (r : QRef) : Dev :=
    let q := d.queue r
    let lost := q.pkts.filter QPkt.spilled
    if lost.isEmpty then d.settleSpill r else
    let n := (lost.map (fun x => x.desc.length)).sum
    let d := d.setQueue r (lost.foldl (fun q p => q.left p (q.pkts.filter (fun x => !x.spilled)) d.now) q)
    let d := (d.add uSPW SPW_LOST_BYTES.COUNT n).bump uSPW SPW_READ_ERR.COUNT
    let d := (d.countDrop r 8).raise uSPW 0x11 (leBytes 4 (q.blockAt ((lost.headD ⟨{}, .cells 0, 0, none⟩).stream.getD (0, 0)).1) ++ leBytes 4 n)
    d.settleSpill r
  let d := d.tm.voqs.foldl (fun d e => clear d (.voq (e.1.headD 0))) d
  let d := d.tm.eqs.foldl (fun d e => clear d (.eq (e.1.headD 0))) d
  d.setI uBPM BPM_POOL_STATUS.READY 1 0

/-- Put a stack and its channels to a sleep state (R513). -/
def Dev.sleepStack (d : Dev) (s v : Nat) : Dev :=
  (List.range 17).foldl (fun d c => d.set (uCHN s c) UF_STATE.SLEEP_STATE (if v = 0 ∧ d.svc (uCHN s c) = sSPARE then 1 else v))
    (d.set (uSTK s) UF_STATE.SLEEP_STATE v)

/-- Standby is reached once every stack is in deep-sleep, and left once none is (R527). -/
def Dev.settleStandby (d : Dev) : Dev :=
  let asleep (s : Nat) : Bool := d.get (uSTK s) UF_STATE.SLEEP_STATE == 2
  if d.get 0 PWR_CTRL.STBY_STATE = 1 ∧ (List.range 8).all asleep then d.set 0 PWR_CTRL.STBY_STATE 2
  else if d.get 0 PWR_CTRL.STBY_STATE = 3 ∧ (List.range 8).all (fun s => !asleep s) then d.set 0 PWR_CTRL.STBY_STATE 0
  else d

/-- Does deep-sleep lose a side address of a stack: it lies in the stack, in an eighth outside PASR_MASK (R350)? -/
def Dev.rowLost (d : Dev) (s addr : Nat) : Bool :=
  sideStack (decide (4 ≤ s)) addr == s
  && !bit (d.get (uSTK s) DRC_STACK_CFG.PASR_MASK) ((sidePlace (decide (4 ≤ s)) addr).row / 1024)

/-- Entries of a table at side addresses, where `new` gives what a lost one becomes; a default is not listed. -/
def Dev.loseEntries {α : Type} [DecidableEq α] (d : Dev) (s : Nat) (default : α) (at_ : Nat → Nat) (new : Nat → α → α)
    (t : Tab α) : Tab α :=
  t.filterMap (fun e =>
    let a := at_ (e.1.headD 0)
    if d.rowLost s a then (if new a e.2 = default then none else some (e.1, new a e.2)) else some e)

/-- Is an eighth of a stack outside its PASR_MASK (R350)? -/
def Dev.eighthLost (d : Dev) (s e : Nat) : Bool := !bit (d.get (uSTK s) DRC_STACK_CFG.PASR_MASK) e

/-- Entries of a list in a region of a stack whose rows were not kept: which of them lay in the stack is not known, so each is gone or stays
by a free draw `v`. -/
def loseSome {α : Type} (lost : Bool) (v : Nat → Nat) (xs : List α) : List α :=
  if lost then (xs.zipIdx.filter (fun e => v e.2 % 2 == 0)).map (·.1) else xs

/-- The rows of an F-side stack that were not kept: the table engine's workspace loses staged changes, learn reports and carry lists; prefixes, exact-match entries, counter pairs and encapsulations in them are gone
or hold any value (R342, R350). -/
def Dev.loseRowsF (d : Dev) (s : Nat) : Dev :=
  let v := Config.rowData d.draws
  let work := d.eighthLost s (workRegion.base / 2 ^ 31)
  { d with draws := d.draws + 1, fwd := { d.fwd with
    staged := loseSome work v d.fwd.staged
    learns := loseSome work v d.fwd.learns
    cursors := d.fwd.cursors.map (fun e => (e.1, { e.2 with carry := loseSome work v e.2.carry }))
    routes := d.fwd.routes.zipIdx.filterMap (fun e =>
      if 2 ≤ e.1.2.place ∨ ¬ d.rowLost s (lpmAddr e.1.2.bucket) then some e.1
      else if v e.2 % 2 = 0 then none else some (e.1.1, { e.1.2 with nextHop := v e.2 / 2 % 2 ^ 20 }))
    em := d.fwd.em.filterMap (fun e => match e.2.place with
      | .slot b first _ =>
        let a := emAddr b
        if ¬ d.rowLost s a then some e
        else if v (a + first) % 2 = 0 then none else some (e.1, { e.2 with result := v (a + first) / 2 % 2 ^ 128 })
      | .sump => some e)
    pairs := d.loseEntries s {} pairAddr
      (fun a p => { p with packets := v a % 2 ^ 64, bytes := v (a + 8) % 2 ^ 64 }) d.fwd.pairs
    encap := d.loseEntries s (List.replicate 32 0) encapAddr (fun a _ => leBytes 32 (v a)) d.fwd.encap } }

/-- The rows of a Q-side stack that were not kept, the spillway's apart: member slots, fabric groups and egress groups in them hold any
value (R343, R350). -/
def Dev.loseRowsQ (d : Dev) (s : Nat) : Dev :=
  let v := Config.rowData d.draws
  { d with draws := d.draws + 1, fab := { d.fab with
    slots := d.loseEntries s 0 slotAddr (fun a _ => v a % 2 ^ 32) d.fab.slots
    groups := d.loseEntries s {} groupAddr
      (fun a x => { x with members := v a % 2 ^ 1024, egr := v (a + 128) % 2 ^ 17, egrValid := bit (v (a + 130)) 0 }) d.fab.groups
    egrGroups := d.loseEntries s {} egrAddr
      (fun a x => { x with base := v a % 2 ^ 24, count := v (a + 4) % 2 ^ 13 }) d.fab.egrGroups } }

/-- Bodies in DRAM pools 2 to 31 whose buffers lie in rows of a stack that were not kept hold any bytes (R343, R350). -/
def Dev.loseBodies (d : Dev) (s : Nat) : Dev :=
  let gone (x : Nat × Nat) : Bool := decide (2 ≤ x.1) && d.inDram x.1 && (d.bufUnits x.1 x.2).any (d.rowLost s)
  let v := Config.rowData d.draws
  { d with draws := d.draws + 1, tm := { d.tm with
    bodies := d.tm.bodies.map (fun e => if e.2.bufs.any gone then
      (e.1, { e.2 with bytes := e.2.bytes.zipIdx.map (fun b => BitVec.ofNat 8 (v (4096 * e.1.headD 0 + b.2))) }) else e) } }

/-- What a stack that wakes has lost (R350); the copies of classifier entries and meters in lost rows are met when they are needed. -/
def Dev.loseRows (d : Dev) (s : Nat) : Dev :=
  let d := { d with dram := { d.dram with
    lostRows := d.dram.lostRows ++ ((List.range 8).filter (d.eighthLost s)).map (fun e => (s, e)) } }
  if s < 4 then (d.loseRowsF s).showLpm.showEm else (d.loseRowsQ s).loseBodies s

/-- DRAM_DEEP_SLEEP_ENTER, while the device enters standby: a rotation is aborted, then self-refresh (R351, R361, R527). -/
def Dev.dramDeepSleepEnter (d : Dev) (s : Nat) : Dev :=
  if s < 8 ∧ d.get 0 PWR_CTRL.STBY_STATE = 1 ∧ d.get (uSTK s) UF_STATE.SLEEP_STATE ≠ 2 then
    let d := (d.sleepStack s 2).abortRotation s
    (d.setStack s { d.stack s with resume := none }).settleStandby
  else d

/-- DRAM_DEEP_SLEEP_EXIT, while the device leaves standby: rows that were not kept are lost, requests are served again, a rotation
starts, and once no Q-side stack sleeps the spillway comes back empty (R350, R351). -/
def Dev.dramDeepSleepExit (d : Dev) (s : Nat) : Dev :=
  if s < 8 ∧ d.get 0 PWR_CTRL.STBY_STATE = 3 ∧ d.get (uSTK s) UF_STATE.SLEEP_STATE = 2 then
    let d := (d.sleepStack s 0).loseRows s
    let d := if 4 ≤ s ∧ (List.range 4).all (fun i => d.get (uSTK (4 + i)) UF_STATE.SLEEP_STATE != 2) then d.emptySpillway else d
    (if d.flag (uSTK s) DRC_STACK_CFG.TRIG_EN then d.trigger s 3 0 else d.startWaiting (s / 4)).settleStandby
  else d

/-! ### The table engine's remapping (R187) -/

/-- Does an exact-match entry lie in logical channel `c` (R340, R342)? -/
def EmEntry.inChannel (e : EmEntry) (c : Nat) : Bool :=
  match e.place with
  | .slot b _ _ => emChannel b == c
  | .sump => false

/-- A table's limit falls by 1/64 when its installed entries no longer fit in what is left. That each lost channel takes 1/64 of the space, that
the relief region gives none back, and that a second lost channel takes as much again, is the model's choice (R187, R342). -/
def Dev.shrink (d : Dev) (f : Fld) (full used lost : Nat) (tables : List Nat) : Dev :=
  if used ≤ full - full / 64 * lost then d else
  let new := d.get uTBE f - full / 64
  tables.foldl (fun d t => d.raise uTBE 0x14 (leBytes 1 t ++ leBytes 4 new)) (d.set uTBE f new)

/-- TABLE_REMAP: the lowest dead channel not yet dealt with. Entries installed by command are loaded again from the firmware's
copy; learned ones in the channel are dropped. -/
def Dev.tableRemap (d : Dev) : Dev :=
  match d.deadF.find? (fun c => !d.dram.remapped.contains c) with
  | none => d
  | some c =>
    let d := { d with
      dram := { d.dram with remapped := d.dram.remapped ++ [c] }
      fwd := { d.fwd with em := d.fwd.em.filter (fun e => !(e.2.learned && e.2.inChannel c)) } }
    let d := d.showEm
    let lost := d.dram.remapped.length
    let d := d.shrink TBE_OCC1.EM_LIMIT 0x04000000 d.emUsed lost [tL2, tHOST4, tHOST6, tTUNNEL, tFLOW]
    d.shrink TBE_OCC1.LPM_LIMIT 0x00A00000 d.lpmUsed lost [tLPM4, tLPM6]

def execDramRefresh (un : Nat) (forced : Bool) (s : State) : Answer := s.go (·.dramRefresh un forced)
def execOdeccReport (stack : Nat) (onDie secDed : List Nat) (s : State) : Answer := s.go (·.odeccReport stack onDie secDed)
def execEccUncorr (qSide : Bool) (addr port source : Nat) (s : State) : Answer := s.go (·.eccUncorr qSide addr port source)
def execScrubPass (stack : Nat) (s : State) : Answer := s.go (·.scrubPass stack)
def execRequestOverdue (un port : Nat) (s : State) : Answer := s.go (·.requestOverdue un port)
def execRotationStart (stack trigger chan : Nat) (s : State) : Answer := s.go (·.rotationStart stack trigger chan)
def execRotationCopyDone (stack : Nat) (shadow : ShadowOut) (s : State) : Answer := s.go (·.rotationCopyDone stack shadow)
def execChannelTrained (un : Nat) (rate : Option Nat) (margin : Nat) (s : State) : Answer := s.go (·.channelTrained un rate margin)
def execRotationResume (stack : Nat) (s : State) : Answer := s.go (·.rotationResume stack)
def execChannelFailed (un cause : Nat) (s : State) : Answer := s.go (·.channelFailed un cause)
def execDramDeepSleepEnter (stack : Nat) (s : State) : Answer := s.go (·.dramDeepSleepEnter stack)
def execDramDeepSleepExit (stack : Nat) (s : State) : Answer := s.go (·.dramDeepSleepExit stack)
def execRotHoldSet (stack : Nat) (s : State) : Answer := s.go (·.rotHoldSet stack)
def execTableRemap (s : State) : Answer := s.go Dev.tableRemap

end Sys2Proof.Machine
end

