-- ==== Sys2Proof/Machine/Links.lean ====
section
/-! DEFINITION. Fabric links: their state machine, cells, link-level retry, reachability and spraying (R301–R318). -/
namespace Sys2Proof.Machine

/-! ### Cells on the wire (R304, R305) -/

/-- The 12 header bytes that precede CRC, for a cell sent with an LSEQ, carrying an acknowledgement. -/
def cellHead (c : Cell) (lseq ack : Nat) (ackValid nak unseq : Bool) : List Byte :=
  leBytes 2 (c.dest + c.cls * 2 ^ 10 + c.kind * 2 ^ 13)
  ++ leBytes 2 (c.src + c.first.toNat * 2 ^ 10 + c.last.toNat * 2 ^ 11 + (c.payload.length / 32 - 1) * 2 ^ 12)
  ++ leBytes 2 c.seq ++ leBytes 2 c.group ++ leBytes 1 lseq ++ leBytes 1 ack
  ++ leBytes 1 (ackValid.toNat + 2 * nak.toNat + 4 * unseq.toNat + 8 * c.resync.toNat) ++ leBytes 1 c.epoch

/-- A whole cell. -/
def cellBytes (c : Cell) (lseq ack : Nat) (ackValid nak unseq : Bool) : List Byte :=
  let h := cellHead c lseq ack ackValid nak unseq
  h ++ leBytes 4 (crc32cStd (h ++ c.payload)) ++ c.payload

/-- A cell as it arrives. -/
def readCell (b : List Byte) : Cell :=
  let w0 := leAt b 0 2
  let w2 := leAt b 2 2
  { kind := bits w0 14 13, dest := bits w0 9 0, cls := bits w0 12 10, src := bits w2 9 0, first := bit w2 10, last := bit w2 11,
    seq := leAt b 4 2, group := leAt b 6 2, resync := bit (leAt b 10 1) 3, epoch := leAt b 11 1,
    payload := slice b 16 (32 * (bits w2 14 12 + 1)) }

/-- CRC of a cell. -/
def cellCrcOk (b : List Byte) : Bool := leAt b 12 4 == crc32cStd (slice b 0 12 ++ (readCell b).payload)

/-- KIND of a control cell. -/
def Cell.ctl (c : Cell) : Nat := leAt c.payload 0 1

/-! ### Changes of reach (R314, R317) -/

/-- After a change of reach from `before`: DEST_UNREACH for devices lost or regained, and the capacity. -/
def Dev.showReach (d : Dev) (before : Nat) : Dev :=
  let now := d.reached
  let d := (List.range 1024).foldl (fun d x =>
    if bit before x ∧ ¬ bit now x then
      ({ d with fab := { d.fab with unreach := setBit d.fab.unreach x true } }).raise uZFP 0x11 (leBytes 2 x ++ leBytes 1 1)
    else if bit now x ∧ bit d.fab.unreach x then
      ({ d with fab := { d.fab with unreach := setBit d.fab.unreach x false } }).raise uZFP 0x11 (leBytes 2 x ++ leBytes 1 0)
    else d) d
  d.showCapacity

/-! ### Sending cells (R309, R318) -/

/-- A cell goes out on a link's lane with these bytes. -/
def Dev.cellSent (d : Dev) (n : Nat) (bytes : List Byte) : Dev :=
  let d := d.setFabLink n { d.fabLink n with wire := bytes }
  (d.bump (uLNK n) ZFP_CELLS_TX.COUNT).tally (uLNK n) 0x20 1

/-- ACK_SEQ of the cells a link sends: the last LSEQ it has delivered (R309). -/
def FabLink.ackSeq (x : FabLink) : Nat := (x.rxSeq + 255) % 256

/-- A sequenced cell as a link sends it: every one carries the acknowledgement of the reverse direction (R309). -/
def FabLink.bytesOf (x : FabLink) (c : Cell) (lseq : Nat) : List Byte := cellBytes c lseq x.ackSeq true false false

/-- A cell leaves on a link: it takes the next LSEQ and is held. The acknowledgement it carries settles what was due. -/
def Dev.transmit (d : Dev) (n : Nat) (c : Cell) : Dev :=
  let x := d.fabLink n
  let y := { x with held := x.held ++ [⟨c, x.txSeq, 1, d.now⟩], txSeq := (x.txSeq + 1) % 256, ackDue := none }
  (d.setFabLink n y).cellSent n (x.bytesOf c x.txSeq)

/-- A control cell of the link itself: unsequenced, addressed to device 0, without an EPOCH (R304, R307). -/
def Dev.linkCell (d : Dev) (payload : List Byte) : Cell := { kind := 2, src := d.deviceId, payload := payload }

/-- A LINK_INIT of a device: ROLE 0, its ID, and version 1 (R307). No numbering runs yet, so it carries no acknowledgement. -/
def Dev.initBytes (d : Dev) : List Byte :=
  cellBytes (d.linkCell (leBytes 1 6 ++ leBytes 1 0 ++ leBytes 2 d.deviceId ++ leBytes 1 1 ++ List.replicate 27 0)) 0 0 false false true

/-- A LINK_ACK, which as a NAK names the LSEQ to be sent again (R307, R309, R310). -/
def Dev.ackBytes (d : Dev) (n : Nat) (nak : Bool) : List Byte :=
  let x := d.fabLink n
  cellBytes (d.linkCell (leBytes 1 5 ++ List.replicate 31 0)) 0 (if nak then x.rxSeq else x.ackSeq) true nak true

/-- Send queued cells while the link may hold more. -/
def Dev.pump : Nat → Dev → Nat → Dev
  | 0, d, _ => d
  | f + 1, d, n =>
    let x := d.fabLink n
    match x.queue with
    | [] => d
    | c :: rest =>
      if 128 ≤ x.held.length then d else Dev.pump f ((d.setFabLink n { x with queue := rest }).transmit n c) n

def Dev.pumpAll (d : Dev) (n : Nat) : Dev := d.pump (d.fabLink n).queue.length n

/-- The first of a list of links at or after the rotating pointer. -/
def afterPointer (p : Nat) (ns : List Nat) : Option Nat :=
  match ns.find? (fun n => decide (p ≤ n)) with
  | some n => some n
  | none => ns.head?

/-- The link of a set that a cell goes on: one with room, with the shortest queue, ties by the pointer. -/
def Dev.pickLink (d : Dev) (ns : List Nat) : Option Nat :=
  let room := ns.filter (fun n => decide ((d.fabLink n).held.length < 128))
  let ns := if room.isEmpty then ns else room
  let q (n : Nat) : Nat := (d.fabLink n).queue.length
  match ns with
  | [] => none
  | x :: xs =>
    let m := xs.foldl (fun m n => min m (q n)) (q x)
    afterPointer d.fab.pointer (ns.filter (fun n => q n == m))

/-- Spray one cell over a set, counted by the fabric interface controller; false when the set is empty. -/
def Dev.spray (d : Dev) (c : Cell) (ns : List Nat) : Dev × Bool :=
  match d.pickLink ns with
  | none => (d, false)
  | some n =>
    let d := { d with fab := { d.fab with pointer := (d.fab.pointer + 1) % 160 } }
    let d := d.tally uZFP (if c.kind < 2 then 0x20 else 0x21) 1
    let x := d.fabLink n
    let d := d.setFabLink n { x with queue := x.queue ++ [c] }
    (d.pumpAll n, true)

/-- Links a cell may go on. `mc` gives a group's spray set. -/
def Dev.linksFor (d : Dev) (c : Cell) (mc : Dev → Nat → List Nat) : List Nat :=
  match c.kind with
  | 1 => mc d c.group
  | 3 => allLinks.filter (fun n => d.linkSt n == fUP)
  | _ => d.reachSet c.dest

/-- Members of a fabric group other than the device itself. -/
def Dev.farMembers (d : Dev) (g : Nat) : Nat := setBit (d.fab.groups.getD {} [g]).members d.deviceId false

/-- L0 of a fabric group: the one cached, or the link that covers the most members (R330). -/
def Dev.leadLink (d : Dev) (g : Nat) : Option Nat :=
  let cover (n : Nat) : Nat := popCount (d.linkDevices n &&& d.farMembers g) 1024
  let best := allLinks.foldl (fun m n => max m (cover n)) 0
  if best = 0 then none else
  match d.fab.leads.get? [g] with
  | some n => some n
  | none => afterPointer d.fab.pointer (allLinks.filter (fun n => cover n == best))

/-- The spray set of a fabric group, and the members it covers (R330). -/
def Dev.spraySet (d : Dev) (g : Nat) : List Nat × Nat :=
  let want := d.farMembers g
  match d.leadLink g with
  | none => ([], 0)
  | some l0 =>
    let m0 := d.linkDevices l0 &&& want
    (allLinks.filter (fun n => d.linkDevices n &&& m0 == m0), m0)

/-- The next SEQ of a stream, and whether it is its first since reset (R306). -/
def Dev.takeSeq (d : Dev) (k : Key) : Dev × Nat × Bool :=
  let s := d.fab.seqs.get? k
  ({ d with fab := { d.fab with seqs := d.fab.seqs.insert k ((s.getD 0 + 1) % 65536) } }, s.getD 0, s.isNone)

/-- Send a control cell of a kind to a device (R313). -/
def Dev.sendCtrl (d : Dev) (dev : Nat) (payload : List Byte) : Dev :=
  let s := d.takeSeq [2, dev]
  let c : Cell := { kind := 2, dest := dev, src := d.deviceId, seq := s.2.1, epoch := d.fab.epoch, payload := payload }
  let r := s.1.spray c (d.reachSet dev)
  if r.2 then r.1 else d

/-! ### Leaving UP (R302, R312) -/

/-- Spray a dead link's cells again. -/
def Dev.respray (d : Dev) (n : Nat) (cs : List Cell) : Dev :=
  cs.foldl (fun d c =>
    let r := d.spray c (d.linksFor c (fun d g => (d.spraySet g).1))
    if r.2 then r.1.bump (uLNK n) ZFP_RESPRAYED.COUNT
    else
      let d := d.bump uZFP ZFP_RESPRAY_DROP.COUNT
      d.raiseOnce uZFP 0x12 0 (fun _ => leBytes 4 (d.get uZFP ZFP_RESPRAY_DROP.COUNT))) d

/-- Exits from UP within the last 60 s. -/
def recentDeaths (now : Nat) (ts : List Nat) : List Nat := ts.filter (fun t => decide (now < t + 60000000000))

/-- DEATHS of a link, as it reads now. -/
def Dev.deathsOf (d : Dev) (n : Nat) : Nat := min 255 (recentDeaths d.now (d.fabLink n).deaths).length

/-- Enter a link state. -/
def Dev.enterLink (d : Dev) (n st : Nat) (f : FabLink → FabLink) : Dev :=
  let d := d.set (uLNK n) ZFP_LINK_STATUS.LINK_STATE st
  d.setFabLink n { f (d.fabLink n) with since := d.now }

/-- Start attempt 1. -/
def Dev.startLink (d : Dev) (n : Nat) : Dev := d.enterLink n fTRAINING (fun x => { x with attempt := 1, initSeen := false })

/-- A link in UP is released: its cells are sprayed again, LINK_DOWN is raised, and its death counted; on the DEATH_MAX-th
within 60 s the link is retired, and otherwise it enters `next` (R302, R312). Its events come in the order of their types (R60). -/
def Dev.leaveUp (d : Dev) (n cause : Nat) (next : Dev → Dev) : Dev :=
  let before := d.reached
  let x := d.fabLink n
  let cells := x.held.map (·.cell) ++ x.queue
  let deaths := d.now :: recentDeaths d.now x.deaths
  let d := d.setFabLink n { x with held := [], queue := [], reachLost := true, ackDue := none, naked := false, deaths := deaths }
  let d := (d.set (uLNK n) ZFP_LINK_STATUS.LINK_STATE fTRAINING).set (uLNK n) ZFP_LINK_STATUS.DOWN_CAUSE cause
  let d := ({ d with fab := { d.fab with leads := [] } }).bump (uLNK n) ZFP_LINK_DOWN.COUNT
  let r0 := d.get (uLNK n) ZFP_RESPRAYED.COUNT
  let d := d.respray n cells
  let dead : Bool := decide (d.act uZFP ZFP_DEV_CFG.DEATH_MAX ≤ deaths.length)
  let d := if dead then ((d.enterLink n fRETIRED id).set (uLNK n) ZFP_LINK_STATUS.DOWN_CAUSE 7).failSelf (uLNK n) 0x0031 else d
  let d := d.raise (uLNK n) 0x11 (leBytes 1 cause ++ leBytes 1 fUP
    ++ leBytes 2 (d.get (uLNK n) ZFP_RESPRAYED.COUNT - r0))
  let d := if dead then
      ((d.raise (uLNK n) 0x13 (leBytes 1 deaths.length)).logDecision 3 (uLNK n) 0).sparesExhausted uZFP (uLNK n)
    else next d
  d.showReach before

/-- Setting ADMIN_UP while the fabric is enabled starts a DISABLED link, unless its unit is out of service (R51, R52). -/
def Dev.settleLink (d : Dev) (n : Nat) : Dev :=
  if d.linkSt n = fDISABLED ∧ d.flag (uLNK n) ZFP_LINK_CFG.ADMIN_UP ∧ d.flag uZFP ZFP_DEV_CFG.EN ∧ ¬ d.stopped (uLNK n) then
    d.startLink n
  else d

/-- FAB_ADMIN_UP. -/
def Dev.fabAdminUp (d : Dev) (n : Nat) : Dev :=
  if 160 ≤ n then d else (d.set (uLNK n) ZFP_LINK_CFG.ADMIN_UP 1).settleLink n

/-- A link goes to DISABLED with cause 1 (R302). -/
def Dev.releaseLink (d : Dev) (n : Nat) : Dev :=
  let off (d : Dev) : Dev := (d.enterLink n fDISABLED (fun x => { x with failedAt := none })).set (uLNK n) ZFP_LINK_STATUS.DOWN_CAUSE 1
  if d.linkSt n = fUP then d.leaveUp n 1 off else if d.linkSt n = fDISABLED then d else off d

/-- FAB_ADMIN_DOWN. -/
def Dev.fabAdminDown (d : Dev) (n : Nat) : Dev :=
  if 160 ≤ n then d else (d.set (uLNK n) ZFP_LINK_CFG.ADMIN_UP 0).releaseLink n

/-- FAB_TRAINING_CONVERGED. Nothing reaches the wire while the link's FPLL has stopped (R507). -/
def Dev.fabConverged (d : Dev) (n : Nat) : Dev :=
  if n < 160 ∧ d.linkSt n = fTRAINING ∧ ¬ d.pllStopped (791 + n / 32) then d.enterLink n fALIGNING id else d

/-- FAB_ALIGNMENT_LOCK, which needs the link's FPLL (R507). -/
def Dev.fabLock (d : Dev) (n : Nat) : Dev :=
  if n < 160 ∧ d.linkSt n = fALIGNING ∧ ¬ d.pllStopped (791 + n / 32) then d.enterLink n fINIT (fun x => { x with initSeen := false }) else d

/-- LINK_INIT_TX: every 10 µs in INIT. The cell is not sequenced and not held. -/
def Dev.linkInitTx (d : Dev) (n : Nat) : Dev :=
  if n < 160 ∧ d.linkSt n = fINIT then (d.cellSent n d.initBytes).tally uZFP 0x21 1 else d

/-- Training has failed: TRAIN_FAILED once per episode (R302, R303). -/
def Dev.linkFailed (d : Dev) (n cause : Nat) : Dev :=
  let x := d.fabLink n
  let d := (d.enterLink n fFAILED (fun x => { x with failedAt := some (x.failedAt.getD d.now) })).set (uLNK n)
    ZFP_LINK_STATUS.DOWN_CAUSE cause
  if x.failedAt.isSome then d else d.raise (uLNK n) 0x12 (leBytes 1 x.attempt ++ leBytes 1 cause)

/-- Limit of a training state, ns. -/
def Dev.trainLimit (d : Dev) (n : Nat) : Nat :=
  if d.linkSt n = fTRAINING then d.act (uLNK n) ZFP_LINK_CFG.TRAIN_TIMEOUT_MS * 1000000
  else if d.linkSt n = fALIGNING then 100000000 else 1000000

/-- FAB_TRAIN_TIMEOUT. -/
def Dev.fabTrainTimeout (d : Dev) (n : Nat) : Dev :=
  let x := d.fabLink n
  if n < 160 ∧ (d.linkSt n = fTRAINING ∨ d.linkSt n = fALIGNING ∨ d.linkSt n = fINIT) ∧ x.since + d.trainLimit n ≤ d.now then
    if x.attempt < d.act (uLNK n) ZFP_LINK_CFG.TRAIN_ATTEMPTS then
      d.enterLink n fTRAINING (fun x => { x with attempt := x.attempt + 1, initSeen := false })
    else (d.linkFailed n 8).bump (uLNK n) ZFP_TRAIN_FAIL.COUNT
  else d

/-- FAB_RETRY_EXPIRE. -/
def Dev.fabRetryExpire (d : Dev) (n : Nat) : Dev :=
  if n < 160 ∧ d.linkSt n = fFAILED ∧ (d.fabLink n).since + d.act (uLNK n) ZFP_LINK_CFG.RETRY_MS * 1000000 ≤ d.now then d.startLink n
  else d

/-- FAB_LINK_FAULT: a link in UP meets cause 2, 3 or 4. -/
def Dev.fabLinkFault (d : Dev) (n cause : Nat) : Dev :=
  if n < 160 ∧ d.linkSt n = fUP ∧ 2 ≤ cause ∧ cause ≤ 4 then d.leaveUp n cause (fun d => d.startLink n) else d

/-! ### REACH (R302, R314) -/

/-- A link in INIT that has seen an element's LINK_INIT comes UP at its first REACH. -/
def Dev.linkUp (d : Dev) (n : Nat) : Dev :=
  let d := d.enterLink n fUP (fun x => { x with txSeq := 0, rxSeq := 0, naked := false, ackDue := none, failedAt := none })
  let d := d.rises (uLNK n) 0x24
  d.raise (uLNK n) 0x10 (leBytes 2 (d.get (uLNK n) ZFP_LINK_STATUS.PEER_ID))

/-- The reach of a link is no longer `was`: cached spray sets are worked out anew (R330). -/
def Dev.reachMoved (d : Dev) (n was : Nat) : Dev :=
  if d.linkDevices n = was then d else { d with fab := { d.fab with leads := [] } }

/-- A REACH cell acts. -/
def Dev.takeReach (d : Dev) (n : Nat) (p : List Byte) : Dev :=
  let before := d.reached
  let was := d.linkDevices n
  let x := d.fabLink n
  let d := if d.linkSt n = fINIT ∧ x.initSeen then d.linkUp n else d
  if d.linkSt n ≠ fUP then d else
  let d := (List.range 16).foldl (fun d i => d.setI (uLNK n) ZFP_LINK_REACH.VECTOR i (leAt p (0x20 + 8 * i) 8)) d
  let y := d.fabLink n
  let d := (d.setFabLink n { y with reachAt := d.now, reachLost := false, timedOut := false }).reachMoved n was
  (if x.timedOut then d.raise (uLNK n) 0x14 (leBytes 1 0) else d).showReach before

/-- REACH_TIMEOUT. -/
def Dev.reachTimeout (d : Dev) (n : Nat) : Dev :=
  let x := d.fabLink n
  if n < 160 ∧ d.linkSt n = fUP ∧ ¬ x.reachLost ∧ x.reachAt + d.act uZFP ZFP_DEV_CFG.REACH_TIMEOUT_US * 1000 ≤ d.now then
    let before := d.reached
    let was := d.linkDevices n
    (((d.setFabLink n { x with reachLost := true, timedOut := true }).reachMoved n was).raise (uLNK n) 0x14 (leBytes 1 1)).showReach before
  else d

/-- A LINK_INIT acts in INIT: an element is noted; a device fails training with cause 6. -/
def Dev.takeInit (d : Dev) (n : Nat) (p : List Byte) : Dev :=
  if d.linkSt n ≠ fINIT then d
  else if leAt p 1 1 = 1 then
    (d.setFabLink n { d.fabLink n with initSeen := true }).set (uLNK n) ZFP_LINK_STATUS.PEER_ID (leAt p 2 2)
  else d.linkFailed n 6

/-! ### Acknowledgement and retry (R309–R311) -/

/-- Held cells after an acknowledgement of `a`: through it, or, for a NAK, up to it; a NAK of `next`, the LSEQ that follows, acknowledges
them all. Unknown numbers acknowledge nothing. -/
def acked (held : List Held) (a next : Nat) (nak : Bool) : List Held :=
  match held.findIdx? (fun h => h.lseq == a) with
  | some i => held.drop (if nak then i else i + 1)
  | none => if nak ∧ a = next then [] else held

def Dev.takeAck (d : Dev) (n a : Nat) (nak : Bool) : Dev :=
  let x := d.fabLink n
  (d.setFabLink n { x with held := acked x.held a x.txSeq nak }).pumpAll n

/-- Send every held cell again. -/
def Dev.resend (d : Dev) (n : Nat) : Dev :=
  let x := d.fabLink n
  let k := x.held.length
  let last : List Byte := ((x.held.getLast?).map (fun h => x.bytesOf h.cell h.lseq)).getD x.wire
  let d := d.setFabLink n
    { x with held := x.held.map (fun h => { h with times := h.times + 1, sent := d.now }), ackDue := none, wire := last }
  (((d.add (uLNK n) ZFP_RETRY_CELLS.COUNT k).add (uLNK n) ZFP_CELLS_TX.COUNT k).tally (uLNK n) 0x22 k).tally (uLNK n) 0x20 k

/-- A NAK: what precedes ACK_SEQ is acknowledged, the rest is sent again, unless its first cell has been sent RETRY_MAX times (R310,
R311). -/
def Dev.takeNak (d : Dev) (n a : Nat) : Dev :=
  let x := d.fabLink n
  let d := d.bump (uLNK n) ZFP_NAK_RX.COUNT
  let held := acked x.held a x.txSeq true
  let d := d.setFabLink n { x with held := held }
  match held with
  | [] => d.pumpAll n
  | h :: _ =>
    if d.act uZFP ZFP_DEV_CFG.RETRY_MAX ≤ h.times then d.leaveUp n 5 (fun d => d.startLink n) else (d.resend n).pumpAll n

/-- RETRY_TIMEOUT. -/
def Dev.retryTimeout (d : Dev) (n : Nat) : Dev :=
  if 160 ≤ n ∨ d.linkSt n ≠ fUP then d else
  match (d.fabLink n).held with
  | [] => d
  | h :: _ =>
    if d.now < h.sent + d.act uZFP ZFP_DEV_CFG.RETRY_TIMEOUT_NS then d
    else if d.act uZFP ZFP_DEV_CFG.RETRY_MAX ≤ h.times then d.leaveUp n 5 (fun d => d.startLink n)
    else d.resend n

/-- LINK_ACK_TX: nothing was sent within 100 ns of a delivery. -/
def Dev.linkAckTx (d : Dev) (n : Nat) : Dev :=
  if 160 ≤ n ∨ d.linkSt n ≠ fUP then d else
  match (d.fabLink n).ackDue with
  | none => d
  | some t =>
    if d.now < t + 100 then d
    else ((d.setFabLink n { d.fabLink n with ackDue := none }).cellSent n (d.ackBytes n false)).tally uZFP 0x21 1

/-- A damaged cell: counted, and one NAK sent (R310), in a LINK_ACK. -/
def Dev.damaged (d : Dev) (n : Nat) (fecOk : Bool) : Dev :=
  let x := d.fabLink n
  let d := if fecOk then d.bump (uLNK n) ZFP_CRC_ERR.COUNT else (d.bump (uLNK n) ZFP_FEC_UNCORR.COUNT).tallyUp (uLNK n) 0x07 1
  if x.naked ∨ d.linkSt n ≠ fUP then d
  else
    let d := (d.setFabLink n { x with naked := true, ackDue := none }).bump (uLNK n) ZFP_NAK_TX.COUNT
    (d.cellSent n (d.ackBytes n true)).tally uZFP 0x21 1

/-- What the link makes of an arriving cell: the cell when it is delivered. A REACH in INIT precedes the numbering. -/
def Dev.linkReceive (d : Dev) (n : Nat) (b : List Byte) (fecOk : Bool) : Dev × Option Cell :=
  if 160 ≤ n ∨ (d.linkSt n ≠ fUP ∧ d.linkSt n ≠ fINIT) then (d, none)
  else if ¬ fecOk ∨ ¬ cellCrcOk b then (d.damaged n fecOk, none)
  else
    let c := readCell b
    let f := leAt b 10 1
    let up : Bool := d.linkSt n == fUP
    let d := if up ∧ bit f 0 then (if bit f 1 then d.takeNak n (leAt b 9 1) else d.takeAck n (leAt b 9 1) false) else d
    if up ∧ d.linkSt n ≠ fUP then (d, none) else
    let got (d : Dev) : Dev × Option Cell := ((d.bump (uLNK n) ZFP_CELLS_RX.COUNT).tally (uLNK n) 0x21 1, some c)
    if bit f 2 ∨ ¬ up then got d
    else
      let x := d.fabLink n
      if leAt b 8 1 = x.rxSeq then
        got (d.setFabLink n { x with rxSeq := (x.rxSeq + 1) % 256, naked := false, ackDue := some (x.ackDue.getD d.now) })
      else
        ((d.setFabLink n { x with ackDue := some (x.ackDue.getD d.now) }).bump (uLNK n) ZFP_OOS_DISCARD.COUNT, none)

def execFabAdminUp (link : Nat) (s : State) : Answer := s.go (·.fabAdminUp link)
def execFabAdminDown (link : Nat) (s : State) : Answer := s.go (·.fabAdminDown link)
def execFabTrainingConverged (link : Nat) (s : State) : Answer := s.go (·.fabConverged link)
def execFabAlignmentLock (link : Nat) (s : State) : Answer := s.go (·.fabLock link)
def execLinkInitTx (link : Nat) (s : State) : Answer := s.go (·.linkInitTx link)
def execReachTimeout (link : Nat) (s : State) : Answer := s.go (·.reachTimeout link)
def execFabTrainTimeout (link : Nat) (s : State) : Answer := s.go (·.fabTrainTimeout link)
def execFabRetryExpire (link : Nat) (s : State) : Answer := s.go (·.fabRetryExpire link)
def execFabLinkFault (link cause : Nat) (s : State) : Answer := s.go (·.fabLinkFault link cause)
def execLinkAckTx (link : Nat) (s : State) : Answer := s.go (·.linkAckTx link)
def execRetryTimeout (link : Nat) (s : State) : Answer := s.go (·.retryTimeout link)

end Sys2Proof.Machine
end

