-- ==== Sys2Proof/Machine/Reseq.lean ====
section
/-! DEFINITION. The resequencer, reassembly and the turnout (R324–R329, R332, R333). -/
namespace Sys2Proof.Machine

def uCRD : Nat := 99
def uRSQ : Nat := 102
def uTRN : Nat := 103

/-! ### Egress descriptors as bytes (R215) -/

/-- The 32 bytes of an egress descriptor. -/
def EgrDesc.bytes (e : EgrDesc) : List Byte :=
  let b := leBytes 2 (e.length % 2 ^ 14 + e.ecnCe.toNat * 2 ^ 14 + e.mirror.toNat * 2 ^ 15)
    ++ leBytes 2 (e.egressPort % 128 + e.cls % 8 * 2 ^ 7 + e.colour % 4 * 2 ^ 10)
    ++ leBytes 4 (e.encapId % 2 ^ 22 + e.encapValid.toNat * 2 ^ 22 + e.editKind % 8 * 2 ^ 23 + e.ptpOp % 4 * 2 ^ 26)
    ++ leBytes 8 e.rxTime ++ leBytes 2 e.rxFrac ++ leBytes 2 e.ptpOffset
    ++ leBytes 4 (e.srcSysport % 2 ^ 17 + e.stripLen % 2 ^ 9 * 2 ^ 17 + e.firstNode % 2 ^ 6 * 2 ^ 26)
    ++ leBytes 2 e.egMeta ++ leBytes 2 e.tsId
  b ++ leBytes 4 (crc32cStd b)

/-- The egress descriptor that 32 bytes spell. -/
def readDesc (b : List Byte) : EgrDesc :=
  let w0 := leAt b 0 2
  let w2 := leAt b 2 2
  let w4 := leAt b 4 4
  let w14 := leAt b 0x14 4
  { length := bits w0 13 0, ecnCe := bit w0 14, mirror := bit w0 15, egressPort := bits w2 6 0, cls := bits w2 9 7,
    colour := bits w2 11 10, encapId := bits w4 21 0, encapValid := bit w4 22, editKind := bits w4 25 23,
    ptpOp := bits w4 27 26, rxTime := leAt b 8 8, rxFrac := leAt b 0x10 2, ptpOffset := leAt b 0x12 2,
    srcSysport := bits w14 16 0, stripLen := bits w14 25 17, firstNode := bits w14 31 26, egMeta := leAt b 0x18 2,
    tsId := leAt b 0x1A 2, badCheck := leAt b 0x1C 4 != crc32cStd (slice b 0 28) }

/-! ### Unicast contexts (R325, R326) -/

def Dev.ctx (d : Dev) (src cls : Nat) : Ctx := d.fab.ctxs.getD {} [src, cls]
def Dev.setCtx (d : Dev) (src cls : Nat) (x : Ctx) : Dev := { d with fab := { d.fab with ctxs := d.fab.ctxs.setD {} [src, cls] x } }
def Dev.mctx (d : Dev) (src cls : Nat) : Ctx := d.fab.mctxs.getD {} [src, cls]
def Dev.setMctx (d : Dev) (src cls : Nat) (x : Ctx) : Dev := { d with fab := { d.fab with mctxs := d.fab.mctxs.setD {} [src, cls] x } }

/-- How far a SEQ lies ahead of another, modulo 2^16. -/
def seqDiff (a b : Nat) : Nat := (a + 65536 - b) % 65536

/-- The held cell that lies first after NEXT. -/
def Ctx.lowest (x : Ctx) : Option HeldCell :=
  x.held.foldl (fun b h => match b with
    | none => some h
    | some y => if seqDiff h.cell.seq x.next < seqDiff y.cell.seq x.next then some h else b) none

/-- Release a cell that is at NEXT. -/
def Ctx.release (x : Ctx) (c : Cell) : Ctx :=
  { x with next := (x.next + 1) % 65536, out := x.out ++ [(c, x.cut)], cut := false }

/-- Release held cells while NEXT is held. -/
def Dev.drainCtx : Nat → Dev → Nat → Nat → Dev
  | 0, d, _, _ => d
  | n + 1, d, src, cls =>
    let x := d.ctx src cls
    match x.held.find? (fun h => h.cell.seq == x.next) with
    | none => d
    | some h =>
      let y := { x with held := x.held.filter (fun g => !(g == h)) }
      Dev.drainCtx n (((d.dropRef h.handle).setCtx src cls (y.release h.cell)).tally uRSQ 0x20 1) src cls

def Dev.drainAll (d : Dev) (src cls : Nat) : Dev := d.drainCtx (d.ctx src cls).held.length src cls

/-- A cell at NEXT is released, and what follows it (R325). -/
def Dev.releaseCell (d : Dev) (src cls : Nat) (c : Cell) : Dev :=
  ((d.setCtx src cls ((d.ctx src cls).release c)).tally uRSQ 0x20 1).drainAll src cls

/-- Declare the gap before SEQ `nxt` lost (R326). -/
def Dev.declareGap (d : Dev) (src cls nxt : Nat) : Dev :=
  let x := d.ctx src cls
  let skipped := seqDiff nxt x.next
  let d := d.setCtx src cls { x with next := nxt, cut := true }
  let d := (d.add uRSQ RSQ_LOST_CELLS.COUNT skipped).bump uRSQ RSQ_TIMEOUTS.COUNT
  let d := d.raiseLimited uRSQ 0x10 0 1000 (fun _ => leBytes 2 src ++ leBytes 1 cls ++ leBytes 1 0 ++ leBytes 4 skipped)
  d.drainAll src cls

/-- The SEQ rows of R325; `n` bounds the gaps that refused cells declare. -/
def Dev.seqCell : Nat → Dev → Cell → Dev
  | 0, d, _ => d
  | n + 1, d, c =>
    let x := d.ctx c.src c.cls
    let ahead := seqDiff c.seq x.next
    if ahead = 0 then d.releaseCell c.src c.cls c
    else if 32768 ≤ ahead ∨ x.held.any (fun h => h.cell.seq == c.seq) then
      (d.bump uRSQ RSQ_DUP.COUNT).tally uRSQ 0x22 1
    else
      let s := d.storeBody reqReseq 0 c.payload 1
      match s.2, x.lowest with
      | some h, _ =>
        let x := s.1.ctx c.src c.cls
        let d := s.1.setCtx c.src c.cls { x with held := x.held ++ [⟨c, d.now, h⟩] }
        (match (d.ctx c.src c.cls).lowest with
        | some l =>
          if d.act uRSQ RSQ_CFG.CTX_MAX ≤ (d.ctx c.src c.cls).held.length then d.declareGap c.src c.cls l.cell.seq else d
        | none => d)
      | none, some l => Dev.seqCell n (s.1.declareGap c.src c.cls l.cell.seq) c
      | none, none => Dev.seqCell n (s.1.declareGap c.src c.cls c.seq) c

/-- Free the pool 0 cells of held cells. -/
def Dev.dropHeld (d : Dev) (hs : List HeldCell) : Dev := hs.foldl (fun d h => d.dropRef h.handle) d

/-- How an EPOCH stands to the one held, modulo 256: 0 the same, 1 to 127 ahead, 128 to 255 behind. -/
def epochDiff (new old : Nat) : Nat := (new + 256 - old) % 256

/-- NEXT of a context that takes its first EPOCH. -/
def Dev.firstNext (d : Dev) (seq : Nat) : Nat := if seq < d.act uRSQ RSQ_CFG.CTX_MAX then 0 else seq

/-- A unicast data cell reaches its context (R325). -/
def Dev.uniCell (d : Dev) (c : Cell) : Dev :=
  let x := d.ctx c.src c.cls
  let go (d : Dev) : Dev := d.seqCell (x.held.length + 3) c
  match x.epoch with
  | none => go (d.setCtx c.src c.cls { x with epoch := some c.epoch, next := d.firstNext c.seq })
  | some e =>
    if epochDiff c.epoch e = 0 then go d
    else if epochDiff c.epoch e ≤ 127 then
      let d := (d.add uRSQ RSQ_LOST_CELLS.COUNT x.held.length).dropHeld x.held
      let d := d.setCtx c.src c.cls { x with epoch := some c.epoch, next := 0, held := [], cut := true }
      go (d.bump uRSQ RSQ_RESYNC.COUNT)
    else d.bump uRSQ RSQ_STALE.COUNT

/-- RESEQ_TIMEOUT: the oldest held cell has waited TIMEOUT_US (R326). -/
def Dev.reseqTimeout (d : Dev) (src cls : Nat) : Dev :=
  let x := d.ctx src cls
  match x.lowest with
  | none => d
  | some l =>
    if x.held.any (fun h => decide (h.at_ + d.act uRSQ RSQ_CFG.TIMEOUT_US * 1000 ≤ d.now)) then d.declareGap src cls l.cell.seq
    else d

/-! ### Multicast contexts (R329) -/

/-- Packets discarded from a source (R327). -/
def Dev.discardPkts (d : Dev) (src n : Nat) : Dev := (d.add uRSQ RSQ_DISCARD.COUNT n).addI uRSQ RSQ_SRC_LOST.COUNT src n

/-- Insert a held cell by its distance from NEXT. -/
def insertBySeq (next : Nat) (h : HeldCell) : List HeldCell → List HeldCell
  | [] => [h]
  | g :: gs => if seqDiff h.cell.seq next < seqDiff g.cell.seq next then h :: g :: gs else g :: insertBySeq next h gs

def sortHeld (next : Nat) (hs : List HeldCell) : List HeldCell := hs.foldr (insertBySeq next) []

/-- Last SEQ of the packet that begins with a FIRST cell, by its descriptor's LENGTH (R305). -/
def lastSeqOf (c : Cell) : Nat := (c.seq + ((readDesc c.payload).length + 32 + 255) / 256 - 1) % 65536

/-- Does a held cell belong to the packet of the one before it, whose last SEQ is known where its FIRST cell is held? With one cell missing
between two that neither end nor begin a packet, both are of one packet. -/
def joins (fin : Option Nat) (a b : HeldCell) : Bool :=
  !a.cell.last && !b.cell.first
  && (seqDiff b.cell.seq a.cell.seq == 1
    || (match fin with | some e => decide (seqDiff e b.cell.seq < 32768) | none => seqDiff b.cell.seq a.cell.seq == 2))

/-- Held cells, in SEQ order, as runs that belong to one packet each: `run` is the one begun, its last cell first. -/
def runsFrom (fin : Option Nat) (run : List HeldCell) : List HeldCell → List (List HeldCell)
  | [] => [run.reverse]
  | h :: hs =>
    match run with
    | [] => runsFrom (if h.cell.first then some (lastSeqOf h.cell) else none) [h] hs
    | a :: _ =>
      if joins fin a h then runsFrom fin (h :: run) hs
      else run.reverse :: runsFrom (if h.cell.first then some (lastSeqOf h.cell) else none) [h] hs

def runs (hs : List HeldCell) : List (List HeldCell) := if hs.isEmpty then [] else runsFrom none [] hs

/-- Is a run a whole packet: from FIRST to LAST with consecutive SEQ? -/
def runWhole (r : List HeldCell) : Bool :=
  match r.head?, r.getLast? with
  | some a, some b => a.cell.first && b.cell.last && seqDiff b.cell.seq a.cell.seq + 1 == r.length
  | _, _ => false

def runSeq (r : List HeldCell) : Nat := match r.head? with | some h => h.cell.seq | none => 0
def runEnd (r : List HeldCell) : Nat := match r.getLast? with | some h => h.cell.seq | none => 0

/-- Move whole packets out to reassembly. -/
def Dev.releaseRuns (d : Dev) (src cls : Nat) (rs : List (List HeldCell)) : Dev :=
  let gone := rs.flatten
  let x := d.mctx src cls
  let d := d.setMctx src cls
    { x with held := x.held.filter (fun h => !gone.contains h), out := x.out ++ gone.map (fun h => (h.cell, false)) }
  (d.dropHeld gone).tally uRSQ 0x20 gone.length

/-- Discard runs as packets. -/
def Dev.discardRuns (d : Dev) (src cls : Nat) (rs : List (List HeldCell)) : Dev :=
  let gone := rs.flatten
  let x := d.mctx src cls
  ((d.setMctx src cls { x with held := x.held.filter (fun h => !gone.contains h) }).dropHeld gone).discardPkts src rs.length

/-- Runs that a context holds. -/
def Dev.heldRuns (d : Dev) (src cls : Nat) : List (List HeldCell) :=
  let x := d.mctx src cls
  runs (sortHeld x.next x.held)

/-- Release whole packets whose FIRST cell is at NEXT. -/
def Dev.settleMc : Nat → Dev → Nat → Nat → Dev
  | 0, d, _, _ => d
  | n + 1, d, src, cls =>
    let x := d.mctx src cls
    match (d.heldRuns src cls).find? (fun r => runWhole r && runSeq r == x.next) with
    | none => d
    | some r =>
      let d := d.releaseRuns src cls [r]
      Dev.settleMc n (d.setMctx src cls { d.mctx src cls with next := (runEnd r + 1) % 65536 }) src cls

/-- Does a held cell belong to the packet of a late cell? -/
def sameAsLate (c : Cell) (r : List HeldCell) : Bool :=
  match r.head? with
  | none => false
  | some h =>
    !c.last && !h.cell.first
    && (seqDiff h.cell.seq c.seq == 1 || (c.first && decide (seqDiff (lastSeqOf c) h.cell.seq < 32768)))

/-- A cell behind NEXT is discarded, together with what is held of its packet. The packet is counted as discarded with its FIRST cell, or
with the cells it loses here. -/
def Dev.dropLate (d : Dev) (c : Cell) : Dev :=
  let gone := ((d.heldRuns c.src c.cls).filter (sameAsLate c)).flatten
  let x := d.mctx c.src c.cls
  let d := (d.setMctx c.src c.cls { x with held := x.held.filter (fun h => !gone.contains h) }).dropHeld gone
  if c.first ∨ ¬ gone.isEmpty then d.discardPkts c.src 1 else d

/-- The SEQ rules of R329. -/
def Dev.mcSeq (d : Dev) (c : Cell) : Dev :=
  let x := d.mctx c.src c.cls
  if 32768 ≤ seqDiff c.seq x.next then
    (d.bump uRSQ RSQ_MC_LATE.COUNT).dropLate c
  else if x.held.any (fun h => h.cell.seq == c.seq) then d.bump uRSQ RSQ_MC_LATE.COUNT
  else
    let s := d.storeBody reqReseq 0 c.payload 1
    match s.2 with
    | none => s.1.countDrop (.eq 0) 5
    | some h =>
      let x := s.1.mctx c.src c.cls
      let d := s.1.setMctx c.src c.cls { x with held := x.held ++ [⟨c, d.now, h⟩] }
      d.settleMc (d.mctx c.src c.cls).held.length c.src c.cls

/-- A multicast data cell reaches its context (R329). -/
def Dev.mcCell (d : Dev) (c : Cell) : Dev :=
  let x := d.mctx c.src c.cls
  match x.epoch with
  | none => (d.setMctx c.src c.cls { x with epoch := some c.epoch, next := d.firstNext c.seq }).mcSeq c
  | some e =>
    if epochDiff c.epoch e = 0 then d.mcSeq c
    else if epochDiff c.epoch e ≤ 127 then
      let d := d.add uRSQ RSQ_LOST_CELLS.COUNT x.held.length
      let d := d.discardRuns c.src c.cls (d.heldRuns c.src c.cls)
      ((d.setMctx c.src c.cls { d.mctx c.src c.cls with epoch := some c.epoch, next := 0 }).bump uRSQ RSQ_RESYNC.COUNT).mcSeq c
    else d.bump uRSQ RSQ_STALE.COUNT

/-- Has a run's hold run out: from its LAST cell when it is whole, from its first arrival otherwise? -/
def Dev.runExpired (d : Dev) (r : List HeldCell) : Bool :=
  let t := d.act uRSQ RSQ_CFG.MC_HOLD_NS
  if runWhole r then (match r.getLast? with | some h => decide (h.at_ + t ≤ d.now) | none => false)
  else r.any (fun h => decide (h.at_ + t ≤ d.now))

/-- MC_HOLD_EXPIRE: the first run whose hold has run out is released, with what lies before it, or discarded. -/
def Dev.mcHoldExpire (d : Dev) (src cls : Nat) : Dev :=
  let rs := d.heldRuns src cls
  match rs.find? d.runExpired with
  | none => d
  | some r =>
    if runWhole r then
      let upTo := rs.filter (fun q => decide (seqDiff (runSeq q) (d.mctx src cls).next ≤ seqDiff (runSeq r) (d.mctx src cls).next))
      let d := (d.releaseRuns src cls (upTo.filter runWhole)).discardRuns src cls (upTo.filter (fun q => !runWhole q))
      let d := d.setMctx src cls { d.mctx src cls with next := (runEnd r + 1) % 65536 }
      d.settleMc (d.mctx src cls).held.length src cls
    else d.discardRuns src cls [r]

/-! ### Reassembly (R327, R328) -/

/-- What the head of a context's released cells makes. -/
inductive Taken
  | whole (cells : List Cell) (rest : List (Cell × Bool))
  | cut (rest : List (Cell × Bool))
  | part
  deriving DecidableEq, Repr

/-- Take cells after a FIRST cell up to LAST; a gap or another FIRST cuts the packet. -/
def takePkt : List (Cell × Bool) → List Cell → Taken
  | [], _ => .part
  | (c, gap) :: rest, acc =>
    if gap ∨ c.first then .cut ((c, gap) :: rest)
    else if c.last then .whole (acc ++ [c]) rest
    else takePkt rest (acc ++ [c])

/-- As `takePkt`, from the FIRST cell itself. -/
def takeFirst (c : Cell) (rest : List (Cell × Bool)) : Taken := if c.last then .whole [c] rest else takePkt rest [c]

def Dev.anyCtx (d : Dev) (src cls : Nat) (mc : Bool) : Ctx := if mc then d.mctx src cls else d.ctx src cls
def Dev.setAnyCtx (d : Dev) (src cls : Nat) (mc : Bool) (x : Ctx) : Dev := if mc then d.setMctx src cls x else d.setCtx src cls x

/-- A completed packet: to its egress queue, or to the turnout with its fabric group. -/
def Dev.deliver (d : Dev) (mc : Option Nat) (payload : List Byte) : Dev :=
  let e := readDesc (slice payload 0 32)
  let s := d.storeBody reqReseq 0 (slice payload 32 e.length) 1
  match s.2, mc with
  | none, _ => s.1.countDrop (.eq 0) 5
  | some h, none => (s.1.enqueueEq e h).1
  | some h, some g => { s.1 with fab := { s.1.fab with turnout := s.1.fab.turnout ++ [⟨g, e, h⟩] } }

/-- Work on a context's released cells until one packet is whole or none is left to look at. -/
def Dev.assemble : Nat → Dev → Nat → Nat → Bool → Dev
  | 0, d, _, _, _ => d
  | n + 1, d, src, cls, mc =>
    let x := d.anyCtx src cls mc
    match x.out with
    | [] => d
    | (c, gap) :: rest =>
      if c.first then
        match takeFirst c rest with
        | .whole cells rest =>
          (d.setAnyCtx src cls mc { x with out := rest, skip := false, cutTo := none }).deliver
            (if mc then some c.group else none) (cells.map (fun c => c.payload)).flatten
        | .cut rest =>
          Dev.assemble n ((d.setAnyCtx src cls mc { x with out := rest, skip := false, cutTo := some (lastSeqOf c, c.epoch) }).discardPkts src 1)
            src cls mc
        | .part => d
      else
        let same : Bool := (x.skip && !gap) || x.cutTo.any (fun t => t.2 == c.epoch && decide (seqDiff t.1 c.seq < 32768))
        let d := d.setAnyCtx src cls mc { x with out := rest, skip := !c.last }
        Dev.assemble n (if same then d else d.discardPkts src 1) src cls mc

/-- REASSEMBLY. -/
def Dev.reassembly (d : Dev) (src cls : Nat) (mc : Bool) : Dev := d.assemble ((d.anyCtx src cls mc).out.length + 1) src cls mc

/-! ### The turnout (R332, R333) -/

def Dev.mcGroup (d : Dev) (g : Nat) : McGroup := d.fab.groups.getD {} [g]
def Dev.setMcGroup (d : Dev) (g : Nat) (x : McGroup) : Dev := { d with fab := { d.fab with groups := d.fab.groups.setD {} [g] x } }
def Dev.egrGroup (d : Dev) (e : Nat) : EgrGroup := d.fab.egrGroups.getD {} [e]
def Dev.setEgrGroup (d : Dev) (e : Nat) (x : EgrGroup) : Dev := { d with fab := { d.fab with egrGroups := d.fab.egrGroups.setD {} [e] x } }

/-- A 32-bit saturating count. -/
def sat32 (a b : Nat) : Nat := satAdd (2 ^ 32 - 1) a b

/-- Copies of an egress group that are missing under a cause. -/
def Dev.missCopies (d : Dev) (e cause n : Nat) : Dev :=
  if n = 0 then d else
  let x := d.egrGroup e
  let d := if cause = 2 then (d.setEgrGroup e { x with missDown := sat32 x.missDown n }).add uTRN TRN_MISS_DOWN.COUNT n
    else (d.setEgrGroup e { x with missOther := sat32 x.missOther n }).add uTRN
      (if cause = 3 then TRN_MISS_LIMIT.COUNT else TRN_MISS_READ.COUNT) n
  (d.tally uTRN 0x21 n).raiseOnce uTRN 0x10 0 (fun _ => leBytes 4 e ++ leBytes 1 cause)

/-- Can a member take a copy: VALID, and its port not DOWN? -/
def Dev.memberUp (d : Dev) (m : Nat) : Bool := bit m 7 && d.holdState (m % 128) != hDOWN

/-- The descriptor of a member's copy. -/
def memberDesc (e : EgrDesc) (m : Nat) : EgrDesc :=
  let e := { e with egressPort := m % 128, badCheck := false }
  if bit m 30 then { e with encapId := bits m 29 8, encapValid := true } else e

/-- Set a body's reference count in one write. -/
def Dev.setUses (d : Dev) (h n : Nat) : Dev :=
  match d.body h with
  | none => d
  | some b =>
    if n = 0 then d.dropRef h else d.setRefs h b n

/-- One copy is released. -/
def Dev.turnCopy (e : EgrDesc) (h : Nat) (d : Dev) (m : Nat) : Dev :=
  (((d.bump uTRN TRN_COPIES.COUNT).tally uTRN 0x20 1).enqueueEq (memberDesc e m) h).1

/-- Side addresses that the turnout reads for a fabric group: its record, its egress group's, and the member slots (R333). -/
def Dev.turnoutReads (d : Dev) (g : Nat) : List Nat :=
  let e := (d.mcGroup g).egr
  let x := d.egrGroup e
  groupAddr g :: egrAddr e :: (List.range x.count).map (fun i => slotAddr (x.base + i))

/-- TURNOUT_REPLICATE: the oldest packet at the turnout. A record or block in a DEAD channel cannot be read (R352, R364). -/
def Dev.turnoutReplicate (d : Dev) (readError : Bool) : Dev :=
  match d.fab.turnout with
  | [] => d
  | p :: rest =>
    let reads := d.turnoutReads p.group
    let readError := readError || reads.any (d.sideBad true)
    let d : Dev := reads.foldl (fun (d : Dev) a => d.access true a 1) { d with fab := { d.fab with turnout := rest } }
    let g := d.mcGroup p.group
    if ¬ g.egrValid then (d.bump uTRN TRN_NO_GROUP.COUNT).dropRef p.handle
    else
      let x := d.egrGroup g.egr
      if readError then (d.missCopies g.egr 4 x.count).dropRef p.handle
      else
        let all := (List.range x.count).map (fun i => d.fab.slots.getD 0 [x.base + i])
        let up := all.filter d.memberUp
        let copies := up.take refMax
        let d := (d.missCopies g.egr 2 (all.length - up.length)).missCopies g.egr 3 (up.length - copies.length)
        copies.foldl (Dev.turnCopy p.desc p.handle) (d.setUses p.handle copies.length)

def execReseqTimeout (src cls : Nat) (s : State) : Answer := s.go (·.reseqTimeout src cls)
def execMcHoldExpire (src cls : Nat) (s : State) : Answer := s.go (·.mcHoldExpire src cls)
def execReassembly (src cls : Nat) (multicast : Bool) (s : State) : Answer := s.go (·.reassembly src cls multicast)
def execTurnoutReplicate (readError : Bool) (s : State) : Answer := s.go (·.turnoutReplicate readError)

end Sys2Proof.Machine
end

