-- ==== Sys2Proof/Machine/Credits.lean ====
section
/-! DEFINITION. Credits, port states, and what leaves the VOQs (R305, R315, R316, R318–R323, R330, R331). -/
namespace Sys2Proof.Machine

/-! ### Port states (R323) -/

/-- State of an own port as PORT_STATE reports it: its hold state, or 3 when the octet mode does not use it. -/
def Dev.ownState (d : Dev) (p : Nat) : Nat := if d.portInUse p then d.holdState p else 3

/-- State of a destination port: its own for this device, HOLD while none is known. -/
def Dev.destState (d : Dev) (dev port : Nat) : Nat :=
  if dev = d.deviceId then d.ownState port else (d.remoteState dev port).getD 1

/-- Own states, two bits a port. -/
def Dev.ownStates (d : Dev) : Nat := (List.range 128).foldl (fun v p => v + d.ownState p * 2 ^ (2 * p)) 0

/-- PORT_STATE_TX: when a state has changed, and every 100 µs. -/
def Dev.portStateTx (d : Dev) : Dev :=
  let st := d.ownStates
  let up := allLinks.filter (fun n => d.linkSt n == fUP)
  if up.isEmpty ∨ (d.fab.stateSeq ≠ 0 ∧ st = d.fab.statesSent ∧ d.now < d.fab.statesAt + 100000) then d else
  let seq := (d.fab.stateSeq + 1) % 2 ^ 32
  let d := { d with fab := { d.fab with stateSeq := seq, statesSent := st, statesAt := d.now } }
  let p := leBytes 1 4 ++ leBytes 3 0 ++ leBytes 4 seq ++ leBytes 24 0 ++ leBytes 32 st
  let c : Cell := { kind := 3, src := d.deviceId, epoch := d.fab.epoch, payload := p }
  let r := d.spray c up
  r.1.bump uCRD CRD_PORT_STATE_TX.COUNT

/-- VOQs listed for a device. -/
def Dev.voqsOf (d : Dev) (dev : Nat) : List Nat :=
  (d.tm.voqs.filter (fun e => e.1.headD 0 / 1024 == dev)).map (fun e => e.1.headD 0)

/-- A VOQ whose port is reported DOWN or not in use drops its packets under cause 0x09 and its balance. -/
def Dev.closeVoq (d : Dev) (n : Nat) : Dev :=
  let d := d.flushQueue (.voq n) 9
  d.setQueue (.voq n) { d.queue (.voq n) with credit := 0 }

/-- PORT_STATE of another device. -/
def Dev.takePortState (d : Dev) (c : Cell) : Dev :=
  let seq := leAt c.payload 4 4
  let new : Remote := ⟨c.epoch, seq, leAt c.payload 0x20 32⟩
  let ok : Bool := match d.fab.remote.get? [c.src] with
    | none => true
    | some r =>
      if epochDiff c.epoch r.epoch = 0 then r.stateSeq != seq && decide ((seq + 2 ^ 32 - r.stateSeq) % 2 ^ 32 < 2 ^ 31)
      else decide (epochDiff c.epoch r.epoch ≤ 127)
  if ¬ ok ∨ c.src = d.deviceId then d else
  let d := { d with fab := { d.fab with remote := d.fab.remote.insert [c.src] new } }
  (d.voqsOf c.src).foldl (fun d n => if 2 ≤ d.destState c.src (n / 8 % 128) then d.closeVoq n else d) d

/-! ### Credit at the source (R319, R320) -/

/-- Credit arrives at a VOQ: above 2,047 it is discarded, and above one credit when the VOQ is empty. -/
def Dev.addCredit (d : Dev) (n units : Nat) : Dev :=
  let q := d.queue (.voq n)
  let b := q.credit + units
  let d := d.setQueue (.voq n) { q with credit := min b 2047 }
  let d := if 2047 < b then d.add uZFP ZFP_CREDIT_WASTE.COUNT (b - 2047).toNat else d
  d.settleBalance (.voq n)

/-- Units that a packet's sending subtracts. -/
def EgrDesc.sendUnits (e : EgrDesc) : Nat := (e.length + 32 + 63) / 64

/-- Is a VOQ one of the eight that multicast packets wait in (R331)? -/
def Dev.isMcVoq (d : Dev) (n : Nat) : Bool := n / 8 == d.deviceId * 128 + d.get uZFP ZFP_MC_CFG.MC_PORT

/-- What a VOQ wants: DEPTH − CREDIT while positive and its port is UP; at an MC_PORT VOQ, for a unicast head only (R320, R331). -/
def Dev.wantOf (d : Dev) (n : Nat) : Option Nat :=
  let q := d.queue (.voq n)
  let depth : Nat := if d.isMcVoq n then
      (match q.pkts with
      | p :: _ => if p.desc.group.isSome then 0 else p.desc.units
      | [] => 0)
    else q.depth
  if d.destState (n / 1024) (n / 8 % 128) = hUP ∧ q.credit < depth then some ((depth : Int) - q.credit).toNat else none

/-- Must a VOQ's entry be sent: its figure for ON, none for OFF? -/
def Dev.entryDue (d : Dev) (n : Nat) : Option (Option Nat) :=
  match d.wantOf n, d.fab.wants.get? [n] with
  | none, none => none
  | none, some _ => some none
  | some f, none => some (some f)
  | some f, some w => if d.creditUnits ≤ (max f w.figure) - (min f w.figure) then some (some f) else none

/-- Note what a VOQ's entry said. -/
def Dev.noteEntrySent (d : Dev) (n : Nat) (o : Option Nat) : Dev :=
  { d with fab := { d.fab with wants := d.fab.wants.put [n] (o.map (fun f => Want.mk f d.now)) } }

/-- A CREDIT_REQ entry (R315). -/
def reqEntry (n : Nat) (o : Option Nat) : List Byte :=
  leBytes 4 (n / 8 % 128 + n % 8 * 2 ^ 7 + o.isSome.toNat * 2 ^ 10 + min (o.getD 0) 0xFFFFF * 2 ^ 12)

/-- The payload of a CREDIT_REQ or CREDIT_GRANT. -/
def creditPayload (kind : Nat) (es : List (List Byte)) : List Byte :=
  slice (leBytes 1 kind ++ leBytes 1 es.length ++ leBytes 2 0 ++ es.flatten) 0 32

/-- The credit scheduler takes one entry (R321, R322). A port that nothing asked has not saved the time meanwhile. -/
def Dev.takeReqEntry (d : Dev) (src : Nat) (e : Nat) : Dev :=
  let depth := if bit e 10 then bits e 31 12 else 0
  let p := bits e 6 0
  let d := if depth ≠ 0 ∧ d.fab.reqs.all (fun r => r.1.headD 0 != p) then
      { d with fab := { d.fab with grantAt := d.fab.grantAt.insert [p] (max (d.fab.grantAt.getD 0 [p]) (d.now * 65536)) } } else d
  let d := { d with fab := { d.fab with reqs := d.fab.reqs.setD 0 [p, src, bits e 9 7] depth } }
  (d.bump uCRD CRD_REQ_RX.COUNT).tally uCRD 0x21 1

/-- The entries of a CREDIT_REQ or CREDIT_GRANT. -/
def creditEntries (p : List Byte) : List Nat := (List.range (min 7 (leAt p 1 1))).map (fun i => leAt p (4 + 4 * i) 4)

def Dev.takeReq (d : Dev) (c : Cell) : Dev := (creditEntries c.payload).foldl (fun d e => d.takeReqEntry c.src e) d

/-- Send entries to a device: in a CREDIT_REQ, or inside the Q-die. -/
def Dev.sendEntries (d : Dev) (dev : Nat) (es : List (Nat × Option Nat)) : Dev :=
  let bytes := es.map (fun e => reqEntry e.1 e.2)
  let d := es.foldl (fun d e => d.noteEntrySent e.1 e.2) d
  if dev = d.deviceId then bytes.foldl (fun d b => d.takeReqEntry dev (leAt b 0 4)) d
  else d.sendCtrl dev (creditPayload 1 bytes)

/-- Can credit cells go to a device? -/
def Dev.ctrlReaches (d : Dev) (dev : Nat) : Bool := dev == d.deviceId || !(d.reachSet dev).isEmpty

/-- CREDIT_REQ_TX: up to seven entries that are due. -/
def Dev.creditReqTx (d : Dev) (dev : Nat) : Dev :=
  if ¬ d.ctrlReaches dev then d else
  let asked := (d.fab.wants.filter (fun e => e.1.headD 0 / 1024 == dev)).map (fun e => e.1.headD 0)
  let ns := d.voqsOf dev ++ asked.filter (fun n => !(d.voqsOf dev).contains n)
  let due := (ns.filterMap (fun n => (d.entryDue n).map (fun o => (n, o)))).take 7
  if due.isEmpty then d else d.sendEntries dev due

/-- CREDIT_REFRESH: a VOQ that has wanted credit for REFRESH_US sends its entry again. -/
def Dev.creditRefresh (d : Dev) (n : Nat) : Dev :=
  match d.wantOf n, d.fab.wants.get? [n] with
  | some f, some w =>
    if d.ctrlReaches (n / 1024) ∧ w.sent + d.act uCRD CRD_CFG.REFRESH_US * 1000 ≤ d.now then d.sendEntries (n / 1024) [(n, some f)]
    else d
  | _, _ => d

/-- A CREDIT_GRANT reaches the source (R316, R319). -/
def Dev.takeGrantEntry (d : Dev) (src : Nat) (e : Nat) : Dev :=
  d.addCredit ((src * 128 + bits e 6 0) * 8 + bits e 9 7) (bits e 13 10 * d.creditUnits)

def Dev.takeGrant (d : Dev) (c : Cell) : Dev := (creditEntries c.payload).foldl (fun d e => d.takeGrantEntry c.src e) d

/-! ### The credit scheduler (R321) -/

/-- Sources that ask for a class of a port and can be granted, ascending. -/
def Dev.asking (d : Dev) (p c : Nat) : List Nat :=
  (d.fab.reqs.filterMap (fun e => match e.1 with
    | [p', s, c'] => if p' = p ∧ c' = c ∧ e.2 ≠ 0 then some s else none
    | _ => none)).filter d.ctrlReaches

/-- Bytes queued for a class in a port's egress queues. -/
def Dev.classBytes (d : Dev) (p c : Nat) : Nat :=
  ((d.portQueues p).map (fun q => if q % 8 = c then ((d.queue (.eq q)).pkts.map (fun k => k.desc.length)).sum else 0)).sum

/-- May a class of a port be granted now? -/
def Dev.classOpen (d : Dev) (p c : Nat) : Bool :=
  !(d.asking p c).isEmpty && decide (d.classBytes p c ≤ d.get uCRD CRD_CFG.EQ_LIMIT_KIB * 1024)

/-- The class that gets the next credit and what its turn has left after it. -/
def Dev.pickClass (d : Dev) (p : Nat) : Option (Nat × Nat) :=
  let t := d.fab.crdTurn.getD (7, 0) [p]
  if t.2 ≠ 0 ∧ d.classOpen p t.1 then some (t.1, t.2 - 1)
  else (((List.range 8).map (fun i => (t.1 + 1 + i) % 8)).find? (d.classOpen p)).map
    (fun c => (c, max 1 (d.getI uCRD CRD_CLASS_WT.WT c) - 1))

/-- The source served after the last one, in round-robin. -/
def nextSource (last : Option Nat) (ss : List Nat) : Nat :=
  match last with
  | none => ss.headD 0
  | some l => (ss.find? (fun s => decide (l < s))).getD (ss.headD 0)

/-- 2^−16 ns that one credit of a port takes. -/
def Dev.creditTime (d : Dev) (p : Nat) : Nat :=
  d.act uCRD CRD_CFG.CREDIT_KIB * 1024 * 8 * 100 * 65536 / max 1 (d.portRate p * d.act uCRD CRD_CFG.RATE_PCT)

/-- One credit is taken for a source of a class. -/
def Dev.takeCredit (d : Dev) (p c s : Nat) : Dev :=
  { d with fab := { d.fab with
    reqs := d.fab.reqs.setD 0 [p, s, c] (d.fab.reqs.getD 0 [p, s, c] - d.creditUnits), crdSrc := d.fab.crdSrc.insert [p, c] s } }

/-- The credits of a port that are due, oldest first, as (source, class); `n` bounds them. -/
def Dev.issueCredits : Nat → Dev → Nat → Dev × List (Nat × Nat)
  | 0, d, _ => (d, [])
  | n + 1, d, p =>
    let at_ := d.fab.grantAt.getD 0 [p]
    if d.now * 65536 < at_ then (d, []) else
    match d.pickClass p with
    | none => ({ d with fab := { d.fab with grantAt := d.fab.grantAt.insert [p] (d.now * 65536) } }, [])
    | some (c, left) =>
      let s := nextSource (d.fab.crdSrc.get? [p, c]) (d.asking p c)
      let d := { d with fab := { d.fab with crdTurn := d.fab.crdTurn.insert [p] (c, left),
                                            grantAt := d.fab.grantAt.insert [p] (at_ + d.creditTime p) } }
      let r := Dev.issueCredits n (d.takeCredit p c s) p
      (r.1, (s, c) :: r.2)

/-- Add a credit of a class to a cell's entries (class, credits): at most 15 to an entry (R321). -/
def addToEntry (c : Nat) : List (Nat × Nat) → List (Nat × Nat)
  | [] => [(c, 1)]
  | e :: es => if e.1 = c ∧ e.2 < 15 then (c, e.2 + 1) :: es else e :: addToEntry c es

/-- A CREDIT_GRANT entry (R316). -/
def grantEntry (p : Nat) (e : Nat × Nat) : Nat := p % 128 + e.1 % 8 * 2 ^ 7 + e.2 % 16 * 2 ^ 10

/-- Entries in cells of seven; `n` bounds the cells. -/
def packs : Nat → List Nat → List (List Nat)
  | 0, _ => []
  | n + 1, es => if es.isEmpty then [] else es.take 7 :: packs n (es.drop 7)

/-- The credits of a port for one source go to it, packed up to seven entries and 15 credits to an entry (R321). -/
def Dev.sendGrants (p : Nat) (gs : List (Nat × Nat)) (d : Dev) (s : Nat) : Dev :=
  let es := ((gs.filter (fun g => g.1 == s)).foldl (fun es g => addToEntry g.2 es) []).map (grantEntry p)
  if s = d.deviceId then es.foldl (fun d e => d.takeGrantEntry s e) d
  else (packs es.length es).foldl (fun d c => d.sendCtrl s (creditPayload 2 (c.map (leBytes 4)))) d

/-- CREDIT_GRANT_TX: the credits of a port whose time has come are issued, and packed by source, in the order their sources were first
served. -/
def Dev.creditGrantTx (d : Dev) (p : Nat) : Dev :=
  if ¬ d.portInUse p ∨ d.holdState p ≠ hUP ∨ ¬ d.mayCommit uCRD then d else
  let r := Dev.issueCredits 105 d p
  if r.2.isEmpty then r.1 else
  let d := (r.1.add uCRD CRD_GRANTS.COUNT r.2.length).tally uCRD 0x20 r.2.length
  (r.2.map (fun g => g.1)).eraseDups.foldl (Dev.sendGrants p r.2) d

/-! ### Sending packets (R305, R306, R318, R319) -/

/-- Pad to a 32-byte step. -/
def pad32 (b : List Byte) : List Byte := b ++ List.replicate ((32 - b.length % 32) % 32) 0

/-- Payloads of a packet's cells; `n` bounds their number. -/
def payloads : Nat → List Byte → List (List Byte)
  | 0, _ => []
  | n + 1, b => if b.length ≤ 256 then [pad32 b] else b.take 256 :: payloads n (b.drop 256)

/-- Send a packet's cells over a set of links: `c` carries what all of them share, `k` is the stream's key. -/
def Dev.sendCells (k : Key) (c : Cell) (ns : List Nat) : List (List Byte) → Bool → Dev → Dev
  | [], _, d => d
  | p :: ps, first, d =>
    let s := d.takeSeq k
    let cell := { c with first := first, last := ps.isEmpty, seq := s.2.1, resync := s.2.2, payload := p }
    Dev.sendCells k c ns ps false (s.1.spray cell ns).1

/-- What a packet is sent as: its descriptor, then its LENGTH bytes. -/
def wirePacket (e : EgrDesc) (body : List Byte) : List Byte := e.bytes ++ slice body 0 e.length

def Dev.sendOver (d : Dev) (k : Key) (c : Cell) (ns : List Nat) (e : EgrDesc) (body : List Byte) : Dev :=
  let w := wirePacket e body
  Dev.sendCells k c ns (payloads (w.length / 256 + 1) w) true d

/-- Hand a packet's cells over inside the Q-die: they are released in their own device's context as they arrive, past no gap check (R21,
R328). `k` is the key of the numbering they take. -/
def Dev.loopCells (k : Key) (c : Cell) (mc : Bool) : List (List Byte) → Bool → Dev → Dev
  | [], _, d => d
  | p :: ps, first, d =>
    let s := d.takeSeq k
    let cell := { c with first := first, last := ps.isEmpty, seq := s.2.1, payload := p }
    let x := s.1.anyCtx c.src c.cls mc
    let y := { x with next := (s.2.1 + 1) % 65536, out := x.out ++ [(cell, false)] }
    Dev.loopCells k c mc ps false ((s.1.setAnyCtx c.src c.cls mc y).tally uRSQ 0x20 1)

/-- A packet takes the local loop: its cells wait for REASSEMBLY in the context of the own device ID. -/
def Dev.sendLoop (d : Dev) (k : Key) (c : Cell) (mc : Bool) (e : EgrDesc) (body : List Byte) : Dev :=
  let w := wirePacket e body
  Dev.loopCells k c mc (payloads (w.length / 256 + 1) w) true d

/-- Bytes of a packet's body. -/
def Dev.locBytes (d : Dev) : Loc → List Byte
  | .cells h => d.bodyBytes h
  | .spill b => b

/-- The head of a VOQ that may leave: on-die, with credit, its port UP and its device reached. -/
def Dev.voqHead (d : Dev) (n : Nat) : Option QPkt :=
  let dev := n / 1024
  match d.headReady (.voq n) with
  | none => none
  | some h =>
    if h.desc.group.isNone ∧ 0 < (d.queue (.voq n)).credit ∧ d.destState dev (n / 8 % 128) = hUP ∧ d.ctrlReaches dev then some h
    else none

/-- VOQ_SEND: one unicast packet leaves a VOQ (R21, R319). -/
def Dev.voqSend (d : Dev) (n : Nat) : Dev :=
  let d := if (d.voqHead n).isSome then d.ageCheck (.voq n) else d
  match d.voqHead n with
  | none => d
  | some h =>
    let dev := n / 1024
    let body := d.locBytes h.loc
    let q := d.queue (.voq n)
    let d := d.setQueue (.voq n) { q with credit := q.credit - h.desc.sendUnits }
    let d := (d.popHead (.voq n)).dropLoc h.loc
    let d := d.noteUse [dev]
    let c : Cell := { kind := 0, dest := dev, cls := n % 8, src := d.deviceId, epoch := d.fab.epoch }
    if dev = d.deviceId then d.sendLoop [0, dev, n % 8] c false h.desc body
    else d.sendOver [0, dev, n % 8] c (d.reachSet dev) h.desc body

/-! ### Multicast (R330, R331) -/

/-- Multicast fabric class of a packet class. -/
def Dev.mcClass (d : Dev) (c : Nat) : Nat := if d.get uZFP ZFP_MC_CFG.MC_HI_CLASS ≤ c then 1 else 0

/-- Rate of a multicast fabric class, Gb/s. -/
def Dev.mcRate (d : Dev) (m : Nat) : Nat :=
  if m = 1 then d.get uZFP ZFP_MC_CFG.MC_RATE_HI else d.get uZFP ZFP_MC_CFG.MC_RATE_LO

/-- Count the members that a group's packet cannot reach. -/
def Dev.missMembers (d : Dev) (g n : Nat) : Dev :=
  if n = 0 then d else
  let x := d.mcGroup g
  let d := (d.setMcGroup g { x with missed := sat32 x.missed n }).add uZFP ZFP_MC_UNREACH.COUNT n
  d.raiseOnce uZFP 0x13 0 (fun _ => leBytes 2 g ++ leBytes 2 n)

/-- Cache L0 of a group (R330). -/
def Dev.noteLead (d : Dev) (g : Nat) : Dev :=
  match d.leadLink g with
  | none => d
  | some n => { d with fab := { d.fab with leads := d.fab.leads.insert [g] n } }

/-- A packet goes to its group. -/
def Dev.sendGroup (d : Dev) (g m : Nat) (e : EgrDesc) (body : List Byte) : Dev :=
  let own := bit (d.mcGroup g).members d.deviceId
  let others := setBit (d.mcGroup g).members d.deviceId false
  if others = 0 ∧ ¬ own then d.bump uTRN TRN_NO_GROUP.COUNT else
  let s := d.spraySet g
  let d := d.missMembers g (popCount others 1024 - popCount s.2 1024)
  let d := d.noteLead g
  let d := d.noteUse ((List.range 1024).filter (bit others))
  let c : Cell := { kind := 1, cls := m, src := d.deviceId, group := g, epoch := d.fab.epoch }
  let d := if s.1.isEmpty then d else d.sendOver [1, m] c s.1 e body
  if own then d.sendLoop [3, m] c true e body else d

/-- MC_SEND: the multicast head of a class's VOQ leaves under its fabric class shaper. -/
def Dev.mcSend (d : Dev) (c : Nat) : Dev :=
  let r : QRef := .voq (d.mcVoq c)
  let m := d.mcClass c
  let rate := d.mcRate m
  let t := d.now * 65536
  let at_ := d.fab.mcAt.getD 0 [m]
  if 8 ≤ c ∨ rate = 0 ∨ t < at_ then d else
  let d := d.ageCheck r
  match d.headReady r with
  | none => d
  | some h =>
    match h.desc.group with
    | none => d
    | some g =>
      let body := d.locBytes h.loc
      let iv := h.desc.length * 8 * 65536 / rate
      let d := (d.popHead r).dropLoc h.loc
      let d := { d with fab := { d.fab with mcAt := d.fab.mcAt.insert [m] ((if t < at_ + iv then at_ else t) + iv) } }
      d.sendGroup g m h.desc body

def execVoqSend (voq : Nat) (s : State) : Answer := s.go (·.voqSend voq)
def execMcSend (cls : Nat) (s : State) : Answer := s.go (·.mcSend cls)
def execCreditReqTx (dev : Nat) (s : State) : Answer := s.go (·.creditReqTx dev)
def execCreditRefresh (voq : Nat) (s : State) : Answer := s.go (·.creditRefresh voq)
def execCreditGrantTx (port : Nat) (s : State) : Answer := s.go (·.creditGrantTx port)
def execPortStateTx (s : State) : Answer := s.go Dev.portStateTx

end Sys2Proof.Machine
end

