-- ==== Sys2Proof/Machine/Fabric.lean ====
section
/-! DEFINITION. Cells received on the fabric, and the FAB_ commands (R307, R309, R313, R334–R336). -/
namespace Sys2Proof.Machine

/-! ### Receiving (R307, R313) -/

/-- Is a control cell's KIND sent in its TYPE? -/
def ctlOk (c : Cell) (unseq : Bool) : Bool :=
  match c.ctl with
  | 1 => c.kind == 2 && !unseq
  | 2 => c.kind == 2 && !unseq
  | 3 => c.kind == 2 && !unseq
  | 4 => c.kind == 3 && !unseq
  | 5 => c.kind == 2 && unseq
  | 6 => c.kind == 2 && unseq
  | _ => false

/-- The duplicate check of a control stream: the kept state, and whether the cell acts. -/
def ctrlCheck (x : Option CtrlRx) (epoch seq : Nat) : Option CtrlRx × Bool :=
  match x with
  | none => (some ⟨epoch, seq, 1⟩, true)
  | some x =>
    let e := epochDiff epoch x.epoch
    let ahead := seqDiff seq x.high
    let behind := seqDiff x.high seq
    if 1 ≤ e ∧ e ≤ 127 then (some ⟨epoch, seq, 1⟩, true)
    else if e ≠ 0 then (some x, false)
    else if 1 ≤ ahead ∧ ahead ≤ 32767 then (some { x with high := seq, map := (x.map * 2 ^ ahead + 1) % 2 ^ 1024 }, true)
    else if behind < 1024 ∧ ¬ bit x.map behind then (some { x with map := setBit x.map behind true }, true)
    else (some x, false)

/-- A CREDIT_REQ or CREDIT_GRANT acts unless it is a copy. -/
def Dev.ctrlStream (d : Dev) (c : Cell) (act : Dev → Cell → Dev) : Dev :=
  let r := ctrlCheck (d.fab.ctrl.get? [c.src]) c.epoch c.seq
  let d := { d with fab := { d.fab with ctrl := d.fab.ctrl.put [c.src] r.1 } }
  if r.2 then act d c else d.bump uZFP ZFP_CTRL_DUP.COUNT

/-- A delivered cell acts. A link that is not UP takes LINK_INIT and REACH alone. -/
def Dev.dispatchCell (d : Dev) (n : Nat) (c : Cell) (unseq : Bool) : Dev :=
  if c.kind < 2 then
    (if d.linkSt n ≠ fUP then d else if c.kind = 0 then d.uniCell c else d.mcCell c)
  else if ¬ ctlOk c unseq then d.bump uZFP ZFP_CTRL_BAD.COUNT
  else if d.linkSt n ≠ fUP ∧ c.ctl ≠ 3 ∧ c.ctl ≠ 6 then d
  else match c.ctl with
    | 1 => d.ctrlStream c Dev.takeReq
    | 2 => d.ctrlStream c Dev.takeGrant
    | 3 => d.takeReach n c.payload
    | 4 => d.takePortState c
    | 6 => d.takeInit n c.payload
    | _ => d

/-- A cell arrives on a link. -/
def Dev.receiveCell (d : Dev) (n : Nat) (b : List Byte) (fecOk : Bool) : Dev :=
  let r := d.linkReceive n b fecOk
  match r.2 with
  | none => r.1
  | some c => r.1.dispatchCell n c (bit (leAt b 10 1) 2)

/-- As `receiveCell`, for a command that names what arrives: another cell than that has no effect under its name. -/
def Dev.receiveIf (d : Dev) (p : List Byte → Bool) (n : Nat) (b : List Byte) (fecOk : Bool) : Dev :=
  if p b then d.receiveCell n b fecOk else d

/-- Is this a control cell of a KIND? -/
def isCtl (k : Nat) (b : List Byte) : Bool := decide (2 ≤ (readCell b).kind) && (readCell b).ctl == k

/-- Does a cell carry a NAK? -/
def isNak (b : List Byte) : Bool := leAt b 10 1 % 4 == 3

/-! ### Commands (R334–R336) -/

/-- May the FAB_ commands run? -/
def Dev.fabReady (d : Dev) : Bool := d.svc uZFP == sACTIVE && d.svc uTRN == sACTIVE

/-- Parameter table of FAB_MC_GROUP_SET (R334). -/
def HCmd.fabMcGroupSetParams (c : HCmd) : List Param :=
  [pAny 0 17 0, c.zero 0 31 18, pAny 4 17 0, c.zero 4 31 18, pAny 8 63 0]

/-- FAB_MC_GROUP_SET (0x0801). -/
def Dev.fabMcGroupSet (d : Dev) (c : HCmd) : Dev :=
  let g := c.par 0 15 0
  d.commandNow c 0x0801 c.fabMcGroupSetParams (fun d =>
    if ¬ d.fabReady then (d, .fail stUNIT_UNAVAILABLE)
    else
      let x := d.mcGroup g
      if c.par 0 16 16 = 1 then
        let b := leBytes 128 x.members ++ leBytes 4 (x.egr + x.egrValid.toNat * 2 ^ 17) ++ leBytes 4 x.missed ++ leBytes 8 0
        let r := d.hostBlock c (c.par 8 63 0) b 0
        (if c.par 0 17 17 = 1 ∧ r.2.status = stOK then r.1.setMcGroup g { x with missed := 0 } else r.1, r.2)
      else if ¬ c.readOk then (d.dmaFailed, .fail stDATA_ERROR)
      else
        let d := { d with fab := { d.fab with leads := d.fab.leads.erase [g] } }
        ((d.sideWrite true (groupAddr g) 4 4).setMcGroup g { x with members := leAt c.block 0 128, egr := c.par 4 16 0, egrValid := c.par 4 17 17 == 1 }, .ok))

/-- Put `n` member slots from a block. -/
def Dev.putSlots : Nat → Dev → Nat → List Byte → Dev
  | 0, d, _, _ => d
  | n + 1, d, a, b =>
    Dev.putSlots n { d.sideWrite true (slotAddr a) 4 1 with fab := { d.fab with slots := d.fab.slots.setD 0 [a] (leAt b 0 4) } } (a + 1) (b.drop 4)

/-- Parameter table of FAB_EGR_GROUP_SET (R335). -/
def HCmd.fabEgrGroupSetParams (c : HCmd) : List Param :=
  let n := c.par 4 12 0
  [pAny 0 18 0, c.zero 0 31 19, c.must 4 12 0 (· ≤ 4096), c.zero 4 31 13,
   c.must 8 23 0 (fun b => decide (b + n ≤ 16777216)), c.zero 8 31 24, pAny 16 63 0]

/-- FAB_EGR_GROUP_SET (0x0803). -/
def Dev.fabEgrGroupSet (d : Dev) (c : HCmd) : Dev :=
  let e := c.par 0 16 0
  let n := c.par 4 12 0
  let base := c.par 8 23 0
  d.commandNow c 0x0803 c.fabEgrGroupSetParams (fun d =>
    if ¬ d.fabReady then (d, .fail stUNIT_UNAVAILABLE)
    else
      let x := d.egrGroup e
      if c.par 0 17 17 = 1 then
        let slots := ((List.range x.count).map (fun i => leBytes 4 (d.fab.slots.getD 0 [x.base + i]))).flatten
        let b := leBytes 4 x.base ++ leBytes 4 x.count ++ leBytes 4 x.missDown ++ leBytes 4 x.missOther ++ slots
        let r := d.hostBlock c (c.par 16 63 0) b 0
        (if c.par 0 18 18 = 1 ∧ r.2.status = stOK then r.1.setEgrGroup e { x with missDown := 0, missOther := 0 } else r.1, r.2)
      else if ¬ c.readOk then (d.dmaFailed, .fail stDATA_ERROR)
      else (((Dev.putSlots n d base c.block).sideWrite true (egrAddr e) 4 1).setEgrGroup e { x with base := base, count := n }, .ok))
    (blk := c.par 0 17 17 == 1 || !(List.range n).any (fun i => bit (leAt c.block (4 * i) 4) 31))

/-- The 64 bytes of a device's reach record. -/
def Dev.reachRecord (d : Dev) (dev : Nat) : List Byte :=
  let ns := d.reachSet dev
  let r := d.fab.remote.get? [dev]
  leBytes 20 (ns.foldl (fun m n => m + 2 ^ n) 0) ++ leBytes 1 ns.length ++ leBytes 1 r.isSome.toNat ++ leBytes 2 0
  ++ leBytes 4 (match r with | some r => r.stateSeq | none => 0) ++ leBytes 4 0
  ++ leBytes 32 (match r with | some r => r.states | none => 0)

/-- Parameter table of FAB_REACH_QUERY (R336). -/
def HCmd.fabReachQueryParams (c : HCmd) : List Param :=
  let f := c.par 0 9 0
  [pAny 0 9 0, c.zero 0 31 10, c.must 4 10 0 (fun n => decide (1 ≤ n ∧ f + n ≤ 1024)), c.zero 4 31 11, pAny 8 63 0]

/-- FAB_REACH_QUERY (0x0802). -/
def Dev.fabReachQuery (d : Dev) (c : HCmd) : Dev :=
  let f := c.par 0 9 0
  d.commandNow c 0x0802 c.fabReachQueryParams (fun d =>
    if ¬ d.fabReady then (d, .fail stUNIT_UNAVAILABLE)
    else d.hostBlock c (c.par 8 63 0) (((List.range (c.par 4 10 0)).map (fun i => d.reachRecord (f + i))).flatten) 0)

def execCellReceived (link : Nat) (bytes : List Byte) (fecOk : Bool) (s : State) : Answer := s.go (·.receiveCell link bytes fecOk)
def execLinkInitRx (link : Nat) (bytes : List Byte) (fecOk : Bool) (s : State) : Answer := s.go (·.receiveIf (isCtl 6) link bytes fecOk)
def execReachRx (link : Nat) (bytes : List Byte) (fecOk : Bool) (s : State) : Answer := s.go (·.receiveIf (isCtl 3) link bytes fecOk)
def execNakRx (link : Nat) (bytes : List Byte) (fecOk : Bool) (s : State) : Answer := s.go (·.receiveIf isNak link bytes fecOk)
def execCreditReqRx (link : Nat) (bytes : List Byte) (fecOk : Bool) (s : State) : Answer := s.go (·.receiveIf (isCtl 1) link bytes fecOk)
def execCreditGrantRx (link : Nat) (bytes : List Byte) (fecOk : Bool) (s : State) : Answer := s.go (·.receiveIf (isCtl 2) link bytes fecOk)
def execPortStateRx (link : Nat) (bytes : List Byte) (fecOk : Bool) (s : State) : Answer := s.go (·.receiveIf (isCtl 4) link bytes fecOk)
def execFabMcGroupSet (c : HCmd) (s : State) : Answer := s.go (·.fabMcGroupSet c)
def execFabEgrGroupSet (c : HCmd) (s : State) : Answer := s.go (·.fabEgrGroupSet c)
def execFabReachQuery (c : HCmd) (s : State) : Answer := s.go (·.fabReachQuery c)

end Sys2Proof.Machine
end

