-- ==== Sys2Proof/Machine/Sampler.lean ====
section
/-! DEFINITION. The sampler: visits, sweeps, sojourn values and posted buffers (R283–R287, R297, R298), and the
telemetry histograms that its records feed (R449). -/
namespace Sys2Proof.Machine

/-- Sampler indexes: the VOQs, then the egress queues (R285). -/
def samplerCount : Nat := 1310720

def samplerRef (i : Nat) : QRef := if i < 1048576 then .voq i else .eq (i - 1048576)

def cap32 (n : Nat) : Nat := min n 0xFFFFFFFF

/-- Sojourn of a queue's head, 0 when empty. -/
def Queue.headSojourn (q : Queue) (now : Nat) : Nat :=
  match q.pkts with
  | p :: _ => cap32 (p.sojourn now)
  | [] => 0

/-- DEPTH_BYTES of a queue. -/
def Queue.depthBytes (q : Queue) : Nat := cap32 (q.depth * 64)

/-- Bucket of a sojourn (R449). -/
def histBucket (ns : Nat) : Nat := ((List.range 15).filter (fun k => decide (2 ^ (k + 6) ≤ ns))).length

/-- Add 1 to element `i` of a list of 16. -/
def bumpAt (l : List Nat) (i : Nat) : List Nat :=
  let l := if l.isEmpty then List.replicate 16 0 else l
  l.set i (l.getD i 0 + 1)

/-- A record reaches the telemetry service (R287, R449). -/
def Dev.telemRecord (d : Dev) (i sojourn depth : Nat) : Dev :=
  let h := d.telem.cur.getD {} [i]
  { d with telem := { d.telem with
      cur := d.telem.cur.insert [i] { h with buckets := bumpAt h.buckets (histBucket sojourn), maxDepth := max h.maxDepth depth } } }

def Dev.hostMiss (d : Dev) : Dev := (d.bump uSMP SMP_HOST_MISS.COUNT).raiseOnce uSMP 0x11 0 (fun n => leBytes 4 n)

def Dev.setBufs (d : Dev) (bs : List SampleBuf) : Dev := { d with sch := { d.sch with bufs := bs } }

/-- The posted buffer that takes part in this visit, begun if its FIRST is reached now (R298). -/
def SampleBuf.begun (b : SampleBuf) (i sweep : Nat) : SampleBuf :=
  if b.sweep = 0 ∧ i = b.first ∧ b.after ≠ sweep then { b with sweep := sweep } else b

/-- The oldest posted buffer is done: those behind it take later sweeps. -/
def Dev.nextBuf (d : Dev) (rest : List SampleBuf) (sweep : Nat) : Dev := d.setBufs (rest.map (fun b => { b with after := sweep }))

/-- A visit meets the posted buffers: the oldest takes its record in its own sweep, and completes as that passes its range; a record
without a buffer is missed (R287, R298). With HOST_EN clear no record goes to the host, and a buffer's sweep passes it all the same. -/
def Dev.hostRecord (d : Dev) (i sweep : Nat) (row : List Byte) (hostOk : Bool) : Dev :=
  let on := d.flag uSMP SMP_CFG.HOST_EN
  let miss (d : Dev) : Dev := if on then d.hostMiss else d
  match d.sch.bufs with
  | [] => miss d
  | b :: rest =>
    let b := b.begun i sweep
    if b.sweep = sweep ∧ b.first ≤ i ∧ i < b.first + b.count then
      let fits : Bool := on && decide ((b.written + 1) * 16 ≤ b.length)
      if fits ∧ ¬ hostOk then ((d.nextBuf rest sweep).dmaFailed).finish b.ticket (.fail stDATA_ERROR)
      else
        let d := if fits then (d.dataWrite b.ticket (b.addr + 16 * b.written) row).tally uSMP 0x21 1 else miss d
        let b := if fits then { b with written := b.written + 1 } else { b with missed := b.missed + on.toNat }
        if i + 1 = b.first + b.count then (d.nextBuf rest sweep).finish b.ticket (.ok (b.written + b.missed * 2 ^ 21))
        else d.setBufs (b :: rest)
    else miss (d.setBufs (b :: rest))

/-- SAMPLER_VISIT: the next queue of the sweep (R283–R287). A sampler out of service visits nothing (R382). -/
def Dev.samplerVisit (d : Dev) (hostOk : Bool) : Dev :=
  let i := d.get uSMP SMP_STATUS.POSITION
  if d.flag uSMP SMP_CFG.EN ∧ i < samplerCount ∧ ¬ d.stopped uSMP then
    let d := if d.get uSMP SMP_STATUS.SWEEP = 0 then d.set uSMP SMP_STATUS.SWEEP 1 else d
    let r := samplerRef i
    let d := d.ageCheck r
    let q := d.queue r
    let s := q.headSojourn d.now
    let d := d.setQueue r { q with maxSojourn := max q.maxSojourn s }
    let held : Bool := match r with
      | .voq _ => false
      | .eq n => d.holdState (d.path n).port == hHOLD
    let sweep := d.get uSMP SMP_STATUS.SWEEP
    let row : List Byte := leBytes 4 (i + q.spilled.toNat * 2 ^ 21 + held.toNat * 2 ^ 22) ++ leBytes 4 q.depthBytes
      ++ leBytes 4 s ++ leBytes 4 sweep
    let d := (d.set uSMP SMP_STATUS.POSITION (i + 1)).tally uSMP 0x20 1
    let d := if d.flag uSMP SMP_CFG.CLUSTER_EN then d.telemRecord i s q.depthBytes else d
    d.hostRecord i sweep row hostOk
  else d

/-- SWEEP_DONE: every queue has been visited; the next sweep begins (R285, R287). -/
def Dev.sweepDone (d : Dev) : Dev :=
  if d.get uSMP SMP_STATUS.POSITION = samplerCount ∧ ¬ d.stopped uSMP then
    let sweep := d.get uSMP SMP_STATUS.SWEEP
    let d := (d.set uSMP SMP_STATUS.POSITION 0).set uSMP SMP_STATUS.SWEEP (sweep + 1)
    let d := { d with telem := { d.telem with sweeps := d.telem.sweeps + 1 } }
    if d.flag uSMP SMP_CFG.SWEEP_EVT then d.raise uSMP 0x10 (leBytes 4 sweep) else d
  else d

/-- The sampler fails: the buffers posted to it end, each with what it has taken (R382, R383). -/
def Dev.samplerLost (d : Dev) : Dev :=
  d.sch.bufs.foldl (fun d b => d.finish b.ticket (.fail stABORTED_FAULT (b.written + b.missed * 2 ^ 21))) (d.setBufs [])

/-- Parameter table of SOJOURN_READ (R297). -/
def HCmd.sojournReadParams (c : HCmd) : List Param :=
  let first := c.par 0 20 0
  [c.must 0 20 0 (fun f => decide (f < samplerCount)), pAny 0 21 21, c.zero 0 31 22,
   c.must 4 16 0 (fun n => decide (1 ≤ n ∧ n ≤ 65536 ∧ first + n ≤ samplerCount)), c.zero 4 31 17, pAny 8 63 0]

/-- SOJOURN_READ (0x0308, R297). -/
def Dev.sojournRead (d : Dev) (c : HCmd) : Dev :=
  let first := c.par 0 20 0
  let n := c.par 4 16 0
  d.commandNow c 0x0308 c.sojournReadParams (fun d =>
    if d.svc uSMP ≠ sACTIVE then (d, .fail stUNIT_UNAVAILABLE)
    else
      let ixs := (List.range n).map (· + first)
      let bytes := (ixs.map (fun i => leBytes 4 (cap32 (d.queue (samplerRef i)).maxSojourn))).flatten
      let d := if c.par 0 21 21 = 1 then
          ixs.foldl (fun d i => d.setQueue (samplerRef i) { d.queue (samplerRef i) with maxSojourn := 0 }) d
        else d
      d.hostBlock c (c.par 8 63 0) bytes 0)

/-- Parameter table of SAMPLE_STREAM (R298). -/
def HCmd.sampleStreamParams (c : HCmd) : List Param :=
  let first := c.par 0 20 0
  [c.must 0 20 0 (fun f => decide (f < samplerCount)), c.zero 0 31 21,
   c.must 4 20 0 (fun n => decide (1 ≤ n ∧ first + n ≤ samplerCount)), c.zero 4 31 21, pAny 8 63 0,
   c.must 16 31 0 (fun l => decide (16 ≤ l))]

/-- SAMPLE_STREAM (0x0309, R298). -/
def Dev.sampleStream (d : Dev) (c : HCmd) : Dev :=
  let first := c.par 0 20 0
  let n := c.par 4 20 0
  d.command c 0x0309 c.sampleStreamParams (fun d =>
    if d.svc uSMP ≠ sACTIVE then (d, some (.fail stUNIT_UNAVAILABLE))
    else if 4 ≤ d.sch.bufs.length then (d, some (.fail stRETRY_LATER))
    else (d.setBufs (d.sch.bufs ++ [⟨c.ticket, first, n, c.par 8 63 0, c.par 16 31 0, 0, 0, 0, 0⟩]), none))

def execSamplerVisit (hostOk : Bool) (s : State) : Answer := s.go (·.samplerVisit hostOk)
def execSweepDone (s : State) : Answer := s.go Dev.sweepDone
def execSojournRead (c : HCmd) (s : State) : Answer := s.go (·.sojournRead c)
def execSampleStream (c : HCmd) (s : State) : Answer := s.go (·.sampleStream c)

end Sys2Proof.Machine
end

