-- ==== Sys2Proof/Machine/Requests.lean ====
section
/-! DEFINITION. Turns over time, takeovers, leaving and returning to service, and headless operation (R51, R370–R395, R521). -/
namespace Sys2Proof.Machine

/-! ### Inputs against any unit (R376–R378) -/

/-- A declared classifier bank stays ACTIVE on its lateral's spare array, which is no unit and so no taker, or fails and its partitions with
it (R129, R130). -/
def Dev.declareBank (d : Dev) (un inp hard : Nat) : Dev :=
  if d.flagI uCLS CLS_SPARE.USED (latOfBank un) then d.declare un inp hard
  else
    let w : Watch := { inputs := inp ||| (if hard = 0 then 0 else 8), hardKind := hard, turnSeq := ((d.turn un 0).map (·.seq)).getD 0 }
    let d := (((d.setWatch un {}).bump (riderOf un) RID_DECLARED.COUNT).logDecision 6 un 0).bankSpare (latOfBank un) (bankOf un)
    (d.bumpSat un UF_STATE.FAULT_COUNT).writeFault un (hardCause hard) d.now (w.detail un d.now)

/-- A declared fabric link carries no cells: it leaves UP, and stands RETIRED while its unit is FAILED (R312, R317, R382). -/
def Dev.declareLink (d : Dev) (un inp hard : Nat) : Dev :=
  let n := un - 256
  let d := d.declare un inp hard
  let d := if d.linkSt n = fUP then d.leaveUp n 7 (fun d => d.enterLink n fRETIRED id)
    else if d.linkSt n = fDISABLED ∨ d.linkSt n = fRETIRED then d
    else (d.enterLink n fRETIRED id).set un ZFP_LINK_STATUS.DOWN_CAUSE 7
  d.sparesExhausted uZFP un

/-- Declare a unit: a DRAM channel is lost as R364 lays down, a classifier bank spared as R129 does; a port and a fabric link go down, the
sampler's buffers end, and commands that wait under the unit end unless its taker redoes them (R382, R383). A declared bridge is one that its
spare wires cannot repair; that it is FAILED, and RETIRED only as R18 retires it, is the model's choice. -/
def Dev.declareAny (d : Dev) (un inp hard : Nat) : Dev :=
  if classOf un = 0x41 then d.loseChannel un (if hard = 1 then 2 else 1) inp hard
  else if classOf un = 0x15 then d.declareBank un inp hard
  else if classOf un = 0x31 then d.declareLink un inp hard
  else if classOf un = 0x30 then (d.declare un inp hard).downPort (un - 128) 7 false
  else if un = uSMP then (d.declare un inp hard).samplerLost
  else
    let d := d.declare un inp hard
    d.abortWaiting un (d.watchOf un).taker.isSome

def Dev.softAny (d : Dev) (un i : Nat) : Dev := d.softWith un i (fun d inp => d.declareAny un inp 0)

def Dev.hardAny (d : Dev) (un k : Nat) : Dev :=
  if d.isWatched un ∧ 1 ≤ k ∧ k ≤ 4 then (d.endWindow un).declareAny un ((d.endWindow un).watchOf un).inputs k else d

/-! ### Turns over time (R371, R372) -/

/-- Renew one turn of a unit. -/
def Dev.renewTurn (d : Dev) (un kind : Nat) : Dev :=
  match d.turn un kind with
  | none => d
  | some t =>
    if ¬ t.current d.now then d else
    let e := d.now + d.turnLen (riderOf un)
    (d.putTurn un kind (some { t with expiry := e, last := d.now })).showTurn un

/-- TURN_RENEWAL: the rider renews what the unit holds and counts a late request, which is a soft input. It renews nothing of a
unit it has declared or that is out of service (R378). R397's RENEWAL counts each turn that is renewed. -/
def Dev.turnRenewal (d : Dev) (un : Nat) : Dev :=
  match d.turn un 0 with
  | none => d
  | some t =>
    let r := riderOf un
    if (d.watchOf un).state = .declared ∨ d.stopped un ∨ d.flag r RID_STATUS.FAILED ∨ ¬ t.current d.now then d else
    let late : Bool := decide (d.turnLen r / 2 < d.now - t.last)
    let held := (d.turnKinds un).filter (fun k => (d.turn un k).any (fun t => t.current d.now))
    let d := (held.foldl (fun d k => d.renewTurn un k) d).tally r 0x21 held.length
    let d := d.tallyUp un 0x04 1
    if late then (d.tallyUp un 0x05 1).softAny un 0 else d

/-- One turn of a unit lapses. -/
def Dev.lapse (d : Dev) (un kind : Nat) : Dev :=
  match d.turn un kind with
  | none => d
  | some t =>
    if t.lapsed ∨ d.now < t.expiry then d else
    let d := (d.putTurn un kind (some { t with lapsed := true })).showHolder un
    (d.bump (riderOf un) RID_LAPSES.COUNT).raise un 0x02 (leBytes 4 t.seq)

/-- TURN_LAPSED: what a unit holds past its expiry lapses, its own turn or a replay turn, which is a hard indicator (R372, R376). -/
def Dev.turnLapsed (d : Dev) (un : Nat) : Dev :=
  let w := (d.turnKinds un).foldl (fun d k => d.lapse un k) d
  if w.rid.turns ≠ d.rid.turns then w.hardAny un 2 else w

/-- The unit a SPARE takes over from. -/
def Dev.failedOf (d : Dev) (un : Nat) : Option Nat :=
  (d.rid.watch.find? (fun e => e.2.state == .declared && e.2.taker == some un)).map (fun e => e.1.headD 0)

/-- TURN_GRANT: a unit in service without a turn gets one; a woken spare flume takes over new work at once, and a spare core
once the guard has passed (R371, R375, R379, R382). -/
def Dev.turnGrant (d : Dev) (un : Nat) : Dev :=
  if ¬ holdsTurns un ∨ d.flag (riderOf un) RID_STATUS.FAILED then d
  else if d.svc un = sACTIVE then
    if (d.watchOf un).state ≠ .declared ∧ (d.turn un 0).all (fun t => t.lapsed) then d.grantTurn un 0 none else d
  else if d.svc un = sSPARE then
    match d.failedOf un with
    | none => d
    | some f =>
      if classOf un = 0x11 ∨ (classOf un = 0x48 ∧ d.guardPassed f) then
        let d := ((d.setSvc un sACTIVE).setStream un (d.streamOf f)).grantTurn un 0 none
        (if classOf un = 0x48 then d.setWatch f { d.watchOf f with awaiting := false } else d).showGroup un
      else d
  else d

/-! ### Takeovers (R378–R383) -/

/-- An entry as it was before its pass. -/
def Pkt.again (k : Pkt) : Pkt := { k with result := none, committed := false, acked := true, updates := [] }

/-- An entry whose replay cannot be made: discarded, counted at the failed flume, and released as a dropped packet (R383). -/
def Dev.discardEntry (d : Dev) (un : Nat) (k : Pkt) : Dev :=
  if k.committed then d else
  let k := { k with result := some { disp := 2 }, committed := true, updates := [] }
  let d := d.bump un FLM_FAULT_DISCARD.COUNT
  { d with fwd := { d.fwd with ready := d.fwd.ready.insert [k.hdr.port, k.portSeq] k } }

/-- The ACTIVE flume of a lateral with the fewest packets in its window (R379). -/
def Dev.leastFlume (d : Dev) (un : Nat) : Option Nat :=
  (flumesOf (latOfFlume un)).foldl (fun b u =>
    if u = un ∨ d.svc u ≠ sACTIVE ∨ d.relieved u then b else
    match b with
    | none => some u
    | some x => if (d.window u).length < (d.window x).length then some u else b) none

/-- REPLAY_TURN_GRANT of a failed flume: every entry without an acknowledgement goes to the taker, in LAT_SEQ order and ahead of
its own; `unreadable` are those whose header copy cannot be read back (R379, R380, R383). -/
def Dev.replayTurnGrant (d : Dev) (un : Nat) (unreadable : List Nat) : Dev :=
  let w := d.watchOf un
  if classOf un ≠ 0x11 ∨ w.state ≠ .declared ∨ ¬ w.awaiting ∨ ¬ d.guardPassed un then d else
  let taker := match w.taker with
    | some t => if d.svc t = sACTIVE then some t else d.leastFlume un
    | none => d.leastFlume un
  let held := d.inOrder un
  let bad := held.filter (fun k => taker.isNone || unreadable.contains k.latSeq)
  let good := held.filter (fun k => !(taker.isNone || unreadable.contains k.latSeq))
  let d := held.foldl (fun d k => if k.committed then d.applyUpdates k.updates else d) d
  let d := bad.foldl (fun d k => d.discardEntry un k) d
  let lost := (bad.filter (fun k => !k.committed)).length
  let seqs := good.map (fun k => k.latSeq)
  let d := d.setWatch un { w with taker := taker, awaiting := false, open_ := seqs, replayed := good.length, discarded := lost,
                                  replayFirst := seqs.headD 0 }
  let d := ((d.releaseTurn un).setWindow un []).showEpoch
  match taker with
  | none => d
  | some t =>
    let d := d.grantTurn t un (some seqs)
    let d := (d.add t FLM_REPLAYED.COUNT good.length).tally t 0x22 good.length
    (d.setWindow t (good.map Pkt.again ++ d.window t)).showEpoch

/-- TAKEOVER_DONE: the last replayed item has committed (R378, R381). -/
def Dev.takeoverDone (d : Dev) (un : Nat) : Dev :=
  let w := d.watchOf un
  if w.state ≠ .declared ∨ w.awaiting ∨ ¬ w.open_.isEmpty then d else
  let d := match w.taker with
    | some t => if classOf un = 0x11 then d.raise t 0x10 (leBytes 4 w.replayFirst ++ leBytes 2 w.replayed) else d
    | none => d
  d.endDeclared un

/-- Packets that an editor holds for a port group's ports. -/
def Dev.heldForGroup (d : Dev) (g : Nat) : Nat := ((groupPorts g).map (fun p => (d.sch.editorQ.getD [] [p]).length)).sum

/-- Move a port group from one editor to another. -/
def Dev.moveGroup (d : Dev) (a b : Nat) : Dev :=
  let g := d.get a EDT_STATUS.PORT_GROUP
  (d.set a EDT_STATUS.PORT_GROUP 0xF).set b EDT_STATUS.PORT_GROUP g

/-- EDITOR_TAKEOVER of a failed editor: the spare takes its port group, and the packets the MACs have not accepted follow in
order (R382). -/
def Dev.editorTakeover (d : Dev) (un : Nat) : Dev :=
  let w := d.watchOf un
  match w.taker with
  | none => d
  | some t =>
    if classOf un ≠ 0x19 ∨ w.state ≠ .declared ∨ ¬ d.guardPassed un ∨ d.svc t ≠ sSPARE then d else
    let d := d.setWatch un { w with awaiting := false, replayed := d.heldForGroup (d.get un EDT_STATUS.PORT_GROUP) }
    let d := ((d.releaseTurn un).moveGroup un t).setSvc t sACTIVE
    let d := (d.setStream t (d.streamOf un)).grantTurn t 0 none
    ((d.showGroup t).endDeclared un).settlePorts (groupPorts (d.get t EDT_STATUS.PORT_GROUP))

/-- SCHEDULER_TAKEOVER: the standby, with mirrored state, goes on from the last committed decision after the guard; `pause` is
how long dequeues paused, ns (R290, R291). -/
def Dev.schedulerTakeover (d : Dev) (pause : Nat) : Dev :=
  let a := d.activeSched
  let b := if a = 97 then 98 else 97
  let w := d.watchOf a
  if w.state ≠ .declared ∨ w.taker ≠ some b ∨ ¬ d.guardPassed a ∨ d.svc b ≠ sSPARE then d else
  let d := d.setWatch a { w with awaiting := false }
  let d := (d.set uSCH TMS_PAIR.ACTIVE_UN b).bump uSCH TMS_PAIR.TAKEOVERS
  let d := (d.set uSCH TMS_PAIR.STANDBY_SYNC 0).releaseTurn a
  let d := ((d.setSvc b sACTIVE).setStream b (d.streamOf a)).grantTurn b 0 none
  let d := d.raise b 0x10 (leBytes 2 b ++ leBytes 4 pause)
  (d.endDeclared a).noStandby b a

/-- CREDIT_TAKEOVER: the standby member within UN 99 takes the turn (R382). -/
def Dev.creditTakeover (d : Dev) : Dev :=
  let w := d.watchOf 99
  if w.state ≠ .declared ∨ w.taker ≠ some 99 ∨ ¬ d.guardPassed 99 then d else
  let d := d.setWatch 99 { w with awaiting := false }
  let d := (d.set 99 CRD_PAIR.ACTIVE_MEMBER (1 - d.get 99 CRD_PAIR.ACTIVE_MEMBER)).bump 99 CRD_PAIR.TAKEOVERS
  ((d.grantTurn 99 0 none).endDeclared 99).noStandby 99 99

/-- SENTINEL_INJECT of one distributor: a sentinel that differs or does not return is a soft input (R212, R376). -/
def Dev.sentinels (d : Dev) (l : Nat) (mismatch : List Nat) : Dev :=
  if 4 ≤ l ∨ ¬ d.flag 8 RID_CFG.SENTINEL_EN then d else
  let n := ((flumes l).filter (fun u => d.svc u == sACTIVE || d.svc u == sSHADOW)).length
  (d.tally 8 0x22 n).sentinelInject l mismatch (fun d u => (d.tally 8 0x23 1).softInput u 2)

/-- A rider copy is resynchronised. -/
def Dev.noteResync (d : Dev) (rider copy : Nat) : Dev :=
  ({ d with rid := { d.rid with resync := d.rid.resync.insert [rider, copy] d.now } }).bump rider RID_RESYNC.COUNT

/-- RIDER_COPY: one copy disagrees with the vote (R370). -/
def Dev.riderCopy (d : Dev) (rider copy : Nat) : Dev :=
  let ok := d.get rider RID_STATUS.COPIES_OK
  if classOf rider ≠ 0x05 ∨ 3 ≤ copy ∨ ¬ bit ok copy ∨ d.flag rider RID_STATUS.FAILED then d else
  let ev (d : Dev) (o : Nat) : Dev := d.raise rider 0x14 (leBytes 1 copy ++ leBytes 1 o)
  if d.flag rider RID_STATUS.DUPLEX then
    ev ((d.setFlag rider RID_STATUS.FAILED true).dieFail (if rider = 8 then 1 else 2) 0x0009) 2
  else
    match d.rid.resync.get? [rider, copy] with
    | some t =>
      if d.now < t + 1000000000 then
        let d := (d.set rider RID_STATUS.COPIES_OK (setBit ok copy false)).setFlag rider RID_STATUS.DUPLEX true
        ev (d.setFigure rider (some 1000000)) 1
      else ev (d.noteResync rider copy) 0
    | none => ev (d.noteResync rider copy) 0

/-! ### Stages and groups (R42, R53) -/

/-- The units a request made of a unit is carried on to: its children that hold turns, a flume's stages apart, which follow
their flume. -/
def askedChildren (un : Nat) : List Nat := (childrenOf un).filter (fun u => holdsTurns u && classOf u != 0x12)

/-! ### UNIT_OUT and OUT_REQ (R51, R386) -/

/-- How a request ends: at once, refused by R51, refused for want of a taker, or later. -/
inductive Asked
  | ok (result : Nat)
  | refused
  | noTaker
  | later
  deriving DecidableEq, Repr

/-- Announce what going out loses (R391). -/
def Dev.announceLoss (d : Dev) (un : Nat) : Dev := if lossContained (classOf un) then d.unitLost un else d

/-- The successor takes an ACTIVE unit's work at a sequence boundary. -/
def Dev.handOver (d : Dev) (un s : Nat) : Dev :=
  let d := d.setCarried un (some (d.streamOf un))
  let d := ((d.setSvc s sACTIVE).setStream s (d.streamOf un)).grantTurn s 0 none
  let d := (d.setStream un un).setSvc un sDRAINING
  match classOf un with
  | 0x19 => (d.moveGroup un s).showGroup s
  | 0x21 => (((d.set uSCH TMS_PAIR.ACTIVE_UN s).set uSCH TMS_PAIR.STANDBY_SYNC 0)).noStandby s un
  | _ => d.showGroup un

/-- An in-service channel hands its logical channel to the parked one. -/
def Dev.handChannel (d : Dev) (un : Nat) : Dev :=
  let s := (un - 520) / 17
  let d := d.abortRotation s
  let p := d.get (uSTK s) DRC_STACK_STATUS.SPARE_PHYS
  match d.logicalOf s (physOf un) with
  | none => d
  | some l =>
    let d := (d.setSvc un sDRAINING).serveOn s l p
    let d := d.setRole s (physOf un) roOFF
    let d := (d.set (uSTK s) DRC_STACK_STATUS.SPARE_PHYS 0x1F).setFlag (uSTK s) DRC_STACK_STATUS.NO_SPARE true
    (d.setFlag (uSTK s) DRC_STACK_STATUS.SPARE_DERATED false).stopRotating s 0

/-- Would a spare or a standby take an ACTIVE unit's work? -/
def Dev.successor (d : Dev) (un : Nat) : Option Nat :=
  if classOf un = 0x41 then
    let p := d.get (uSTK ((un - 520) / 17)) DRC_STACK_STATUS.SPARE_PHYS
    if p < 17 ∧ d.svc (uCHN ((un - 520) / 17) p) = sSPARE ∧ ¬ (d.stack ((un - 520) / 17)).rot.any (fun r => r.training) then
      some (uCHN ((un - 520) / 17) p) else none
  else d.spareOf un

/-- A parked channel goes out: the stack has no spare. -/
def Dev.unpark (d : Dev) (un : Nat) : Dev :=
  let s := (un - 520) / 17
  if classOf un ≠ 0x41 ∨ d.get (uSTK s) DRC_STACK_STATUS.SPARE_PHYS ≠ physOf un then d else
  let d := (d.abortRotation s).setRole s (physOf un) roOFF
  let d := (d.set (uSTK s) DRC_STACK_STATUS.SPARE_PHYS 0x1F).setFlag (uSTK s) DRC_STACK_STATUS.NO_SPARE true
  (d.setFlag (uSTK s) DRC_STACK_STATUS.SPARE_DERATED false).stopRotating s 0

/-- A unit in SPARE stands ready no more: a parked channel leaves its stack without a spare, and a standby scheduler the pair without
mirrored state (R291, R364). -/
def Dev.standDown (d : Dev) (un : Nat) : Dev :=
  let d := d.unpark un
  if classOf un = 0x21 then (d.set uSCH TMS_PAIR.STANDBY_SYNC 0).setFigure (if un = 97 then 98 else 97) (some 1000000) else d

/-- A DRAINING unit's own work ends without a taker. -/
def Dev.dropWork (d : Dev) (un : Nat) : Dev :=
  match classOf un with
  | 0x41 =>
    let s := (un - 520) / 17
    let d := (d.abortRotation s).setRole s (physOf un) roOFF
    (match d.logicalOf s (physOf un) with
    | some l => d.goDead s l (physOf un)
    | none => d)
  | 0x30 => d.downPort (un - 128) 1 false
  | 0x31 => (d.releaseLink (un - 256)).sparesExhausted uZFP un
  | _ => d.announceLoss un

/-- A bank hands its entries to its lateral's spare array (R382, R386). That BANK_SPARED is raised as in R129 is the model's choice. -/
def Dev.handBank (d : Dev) (un : Nat) : Dev :=
  ((d.bankSpare (latOfBank un) (bankOf un)).setCarried un (some un)).setSvc un sDRAINING

/-- One unit is asked to leave service. One whose stream a returning unit has taken back has nothing to hand over. -/
def Dev.leave (d : Dev) (un : Nat) (allowLoss : Bool) : Dev × Asked :=
  let s := d.svc un
  let drained (d : Dev) : Dev × Asked :=
    let d := d.settleOut un
    (d, if d.svc un = sOUT then .ok 0 else .later)
  if s = sDRAINING ∨ s = sOUT then (d, .ok 0)
  else if s = sSPARE then ((d.standDown un).setSvc un sOUT, .ok 0)
  else if s ≠ sACTIVE then (d, .refused)
  else if d.relieved un then drained (d.setSvc un sDRAINING)
  else if classOf un = 0x15 ∧ ¬ d.flagI uCLS CLS_SPARE.USED (latOfBank un) then drained (d.handBank un)
  else
    match d.successor un with
    | some t =>
      drained (if classOf un = 0x41 then d.handChannel un else d.handOver un t)
    | none => if ¬ allowLoss then (d, .noTaker) else drained ((d.setSvc un sDRAINING).dropWork un)

/-- A request to leave made of a unit: a group drains, its children leave, those in SPARE first, and it is OUT with the last (R42). -/
def Dev.leaveAll : Nat → Dev → Nat → Bool → Dev × Asked
  | 0, d, un, al => d.leave un al
  | n + 1, d, un, al =>
    let cs := askedChildren un
    if cs.isEmpty ∨ d.svc un ≠ sACTIVE then d.leave un al
    else if ¬ al then (d, .noTaker)
    else
      let spares := cs.filter (fun u => d.svc u == sSPARE)
      let busy := cs.filter (fun u => d.svc u == sACTIVE)
      let d := (spares ++ busy).foldl (fun d u => (Dev.leaveAll n d u true).1) (d.setSvc un sDRAINING)
      let d := if d.svc un = sDRAINING then (d.dropWork un).settleOut un else d.announceLoss un
      (d, if d.svc un = sOUT then .ok 0 else .later)

/-- UNIT_OUT's and OUT_REQ's effect. -/
def Dev.askOut (d : Dev) (un : Nat) (allowLoss : Bool) : Dev × Asked := Dev.leaveAll 4 d un allowLoss

/-! ### UNIT_RETURN, UNIT_TEST, and RESET_REQ (R51, R387, R388, R521) -/

/-- A self-test starts. -/
def Dev.startTest (d : Dev) (un : Nat) (t : SelfTest) : Dev :=
  ({ d with rid := { d.rid with tests := d.rid.tests.insert [un] t } }).setFlag un UF_CTRL.TEST_BUSY true

/-- Is a unit's return under way: does its self-test run, or wait for one that UNIT_TEST asked for? -/
def Dev.returning (d : Dev) (un : Nat) : Bool :=
  (d.rid.tests.get? [un]).any (fun x => x.why == .return_) || (d.rid.tests.get? [un, 1]).isSome

/-- The self-test of a return starts, after one that runs alone. -/
def Dev.returnTest (d : Dev) (un : Nat) (t : SelfTest) : Dev :=
  if (d.rid.tests.get? [un]).isSome then { d with rid := { d.rid with tests := d.rid.tests.insert [un, 1] t } } else d.startTest un t

/-- A unit's test has ended: a return that waited for it starts its own. -/
def Dev.nextTest (d : Dev) (un : Nat) : Dev :=
  match d.rid.tests.get? [un, 1] with
  | none => d
  | some t => ({ d with rid := { d.rid with tests := d.rid.tests.erase [un, 1] } } : Dev).startTest un t

/-- A request to return made of one unit; a second one finds the first under way, or the unit in ACTIVE (R51). A group's goes on to
every unit below it (R42). -/
def Dev.askReturn (d : Dev) (un : Nat) (t : Option Ticket) (waitActive : Bool) : Dev × Asked :=
  let s := d.svc un
  if s = sSHADOW then
    match t, waitActive with
    | some k, true => ({ d with rid := { d.rid with returns := d.rid.returns ++ [ReturnWait.mk un k] } }, .later)
    | _, _ => (d, .ok 1)
  else if s = sACTIVE then (d, .ok 1)
  else if s ≠ sOUT ∧ s ≠ sFAILED then (d, .refused)
  else if d.returning un then (d, .ok 0)
  else
    let d := (askedUnder un).foldl (fun d u =>
      if (d.svc u = sOUT ∨ d.svc u = sFAILED) ∧ ¬ d.returning u then d.returnTest u { why := .return_ } else d) d
    (d.returnTest un { why := .return_, ticket := t, waitActive := waitActive }, .later)

/-- May a unit be tested: is it in OFF, SPARE, OUT or FAILED (R51, R388)? That a unit whose self-test runs already refuses a second one is
the model's choice: the manual does not say what becomes of it. -/
def Dev.mayTest (d : Dev) (un : Nat) : Bool :=
  (d.svc un == sOFF || d.svc un == sSPARE || d.svc un == sOUT || d.svc un == sFAILED) && (d.rid.tests.get? [un]).isNone

/-- A request to test; a group tests its children that may be tested as well (R42, R388). -/
def Dev.askTest (d : Dev) (un : Nat) (t : Option Ticket) : Dev × Asked :=
  if d.mayTest un then
    let d := (unitsUnder un).foldl (fun d u => if d.mayTest u then d.startTest u { why := .alone } else d) d
    (d.startTest un { why := .alone, ticket := t }, .later)
  else (d, .refused)

/-- Registers that RESET_REQ leaves: identity, tree and service state, the event and counter registers and the error log (R48). -/
def keptByReset (off : Nat) : Bool := decide (off ≤ 0x20 ∨ (0x80 ≤ off ∧ off < 0x400))

/-- May a unit be reset: is it in OFF, OUT or FAILED (R51)? -/
def Dev.mayReset (d : Dev) (un : Nat) : Bool := d.svc un == sOFF || d.svc un == sOUT || d.svc un == sFAILED

/-- Does a unit's reset reach a class register: one of its own, or of the egress schedulers' shared registers unless the other scheduler
may still schedule by them (R289, R290)? That the shared registers stay then is the model's choice. -/
def Dev.resetsKey (d : Dev) (un : Nat) (k : Key) : Bool :=
  let u := k.headD 0
  let off := k.getD 1 0
  if 0x400 ≤ off ∧ (un = 97 ∨ un = 98) then u == uSCH && d.mayReset (195 - un) else u == un && !keptByReset off

/-- One unit's registers go to reset, those that R48 keeps apart. -/
def Dev.resetUnit (d : Dev) (un : Nat) : Dev :=
  let clear (d : Dev) : Dev :=
    let busy := d.flag un UF_CTRL.TEST_BUSY
    ({ d with fields := d.fields.filter (fun e => !d.resetsKey un e.1) }).setFlag un UF_CTRL.TEST_BUSY busy
  if classOf un = 0x30 then d.portReset (un - 128) clear else clear d

/-- RESET_REQ of a unit in OFF, OUT or FAILED (R51, R521); a group resets its children that may be reset as well (R42). -/
def Dev.askReset (d : Dev) (un : Nat) : Dev × Asked :=
  if d.mayReset un then
    ((unitsUnder un).foldl (fun d u => if d.mayReset u then d.resetUnit u else d) (d.resetUnit un), .ok 0)
  else (d, .refused)

/-- A write of UF_CTRL with request bits (0 out, 1 return, 2 test, 3 reset): one is made, several are refused together, and a
refusal is reported with its code (R51). -/
def Dev.unitRequest (d : Dev) (un reqs : Nat) : Dev :=
  if ¬ populated un then d else
  let ask (code : Nat) (r : Dev × Asked) : Dev := match r.2 with
    | .refused => r.1.refuseReq un code
    | .noTaker => r.1.refuseReq un code
    | _ => r.1
  match reqs % 16 with
  | 0 => d
  | 1 => if holdsTurns un then ask 0 (d.askOut un false) else d.refuseReq un 0
  | 2 => if holdsTurns un then ask 1 (d.askReturn un none false) else d.refuseReq un 1
  | 4 => ask 2 (d.askTest un none)
  | 8 => ask 3 (d.askReset un)
  | _ => d.refuseReq un 0xFF

/-! #### The commands -/

/-- UN of a unit command, which must name a unit that can hold turns, and the rest of the area. -/
def HCmd.unitPars (c : HCmd) (flag : Bool) : List Param :=
  [c.must 0 15 0 holdsTurns] ++ (if flag then [pAny 2 0 0] else [])

/-- Parameter table of UNIT_OUT (R386). -/
def HCmd.unitOutParams (c : HCmd) : List Param :=
  c.unitPars true

/-- UNIT_OUT (0x0401). -/
def Dev.unitOut (d : Dev) (c : HCmd) : Dev :=
  let un := c.par 0 15 0
  d.command c 0x0401 c.unitOutParams (fun d =>
    let r := d.askOut un (c.par 2 0 0 == 1)
    match r.2 with
    | .ok _ => (r.1, some .ok)
    | .refused => (r.1.refuseReq un 0, some (.fail stUNIT_UNAVAILABLE))
    | .noTaker => (r.1, some (.fail stUNIT_UNAVAILABLE))
    | .later => ({ r.1 with rid := { r.1.rid with outs := r.1.rid.outs ++ [OutWait.mk un c.ticket d.now] } }, none))

/-- Parameter table of UNIT_RETURN (R387). -/
def HCmd.unitReturnParams (c : HCmd) : List Param :=
  c.unitPars true

/-- UNIT_RETURN (0x0402). -/
def Dev.unitReturn (d : Dev) (c : HCmd) : Dev :=
  let un := c.par 0 15 0
  d.command c 0x0402 c.unitReturnParams (fun d =>
    let r := d.askReturn un (some c.ticket) (c.par 2 0 0 == 1)
    match r.2 with
    | .ok v => (r.1, some (.ok v))
    | .later => (r.1, none)
    | _ => (r.1.refuseReq un 1, some (.fail stUNIT_UNAVAILABLE)))

/-- Parameter table of UNIT_TEST (R388). -/
def HCmd.unitTestParams (c : HCmd) : List Param :=
  c.unitPars false

/-- UNIT_TEST (0x0403). -/
def Dev.unitTest (d : Dev) (c : HCmd) : Dev :=
  let un := c.par 0 15 0
  d.command c 0x0403 c.unitTestParams (fun d =>
    let r := d.askTest un (some c.ticket)
    match r.2 with
    | .later => (r.1, none)
    | _ => (r.1.refuseReq un 2, some (.fail stUNIT_UNAVAILABLE)))

/-- UNIT_OUT_TIMEOUT: a unit that has not drained in 100 ms goes on draining. -/
def Dev.unitOutTimeout (d : Dev) (un : Nat) : Dev :=
  let late := d.rid.outs.filter (fun o => o.un == un && decide (o.since + 100000000 ≤ d.now))
  let d := { d with rid := { d.rid with outs := d.rid.outs.filter (fun o => !(o.un == un && decide (o.since + 100000000 ≤ d.now))) } }
  late.foldl (fun d o => d.finish o.ticket (.fail stTIMEOUT)) d

/-! ### The end of a self-test (R51, R387, R388) -/

/-- The unit whose stream a returning one compares: the carrier of the stream it left with, else the lowest ACTIVE of its group (R390); a
bank is compared with the spare array in its own place. That a unit whose own stream nobody carries compares its group's lowest ACTIVE unit's,
and a bank that nothing replaces compares nothing, is the model's choice. -/
def Dev.toShadow (d : Dev) (un : Nat) : Option Nat :=
  if classOf un = 0x15 then (if d.bankReplaced (latOfBank un) (bankOf un) then some un else none) else
  match (d.rid.carried.get? [un]).bind (fun st => d.carrierOf un st) with
  | some u => some u
  | none => (peersOf un).find? (fun u => u != un && d.svc u == sACTIVE)

/-- A unit that passes its bring-up self-test: a designated spare is SPARE, one in use ACTIVE, one not in use stays OFF. -/
def Dev.bringUp (d : Dev) (un : Nat) : Dev :=
  if classOf un = 0x30 ∧ ¬ d.portInUse (un - 128) then d
  else if designatedSpare un then
    let d := d.setSvc un sSPARE
    if un = 98 ∧ d.svc 97 = sACTIVE then d.set uSCH TMS_PAIR.STANDBY_SYNC 1 else d
  else
    let d := d.setSvc un sACTIVE
    let d := if holdsTurns un then d.grantTurn un 0 none else d
    match classOf un with
    | 0x19 => (d.showGroup un).settlePorts (groupPorts (d.get un EDT_STATUS.PORT_GROUP))
    | 0x22 => d.set un CRD_PAIR.STANDBY_SYNC 1
    | 0x30 => d.settlePort (un - 128)
    | 0x10 => d.groupLost (uFLM (un - 16) 0)
    | 0x49 => d.groupLost 704
    | 0x21 => if d.svc 98 = sSPARE then d.set uSCH TMS_PAIR.STANDBY_SYNC 1 else d
    | _ => d

/-- A returning unit passes: it goes to SHADOW; with WAIT_ACTIVE its command waits on. A link takes up training again (R302). -/
def Dev.enterShadow (d : Dev) (un : Nat) (t : SelfTest) : Dev :=
  let d := (d.setSvc un sSHADOW).follow un
  let d := if classOf un = 0x31 ∧ d.linkSt (un - 256) = fRETIRED then d.startLink (un - 256) else d
  let d := match d.toShadow un with
    | some u => { d with rid := { d.rid with shadows := d.rid.shadows.insert [un] (Shadow.mk u 0) } }
    | none => d
  match t.ticket, t.waitActive with
  | some k, true => { d with rid := { d.rid with returns := d.rid.returns ++ [ReturnWait.mk un k] } }
  | some k, false => d.finish k (.ok 1)
  | none, _ => d

/-- Does a unit go on from a bring-up or return test? It does by passing, and a classifier bank also by failing while its lateral's spare
array is free, which then takes its place (R129). -/
def Dev.testPasses (d : Dev) (un : Nat) (pass : Bool) : Bool :=
  pass || (classOf un == 0x15 && !d.flagI uCLS CLS_SPARE.USED (latOfBank un))

/-- The spare array takes the place of a bank whose test failed. -/
def Dev.spareIfFailed (d : Dev) (un : Nat) (pass : Bool) : Dev :=
  if pass then d else (d.bankSpare (latOfBank un) (bankOf un)).ownFault un 0x0006

/-- A unit fails its bring-up or return test; a bank's partitions fail with it, once (R51, R130), and its group's figure follows (R53). -/
def Dev.failTest (d : Dev) (un : Nat) : Dev :=
  let was := d.svc un
  let d := d.failSelf un 0x0006
  if classOf un ≠ 0x15 then (d.showGroup un).groupLost un
  else if was = sFAILED ∨ d.bankReplaced (latOfBank un) (bankOf un) then d else d.bankLost (latOfBank un) (bankOf un)

/-- SELF_TEST_DONE. TEST_DONE follows the STATE_CHANGE it brings: R60 numbers events of one clock by type. A unit in OFF with no test
asked for is being brought up; a stack once its sideband has been read (R55). A channel is brought up and returned by its training (R365,
R366). The test of a unit whose takeover is still open ends after it (DESIGN CHOICE). -/
def Dev.selfTestDone (d : Dev) (un : Nat) (pass : Bool) : Dev :=
  if ¬ populated un then d else
  let done (d : Dev) : Dev :=
    (((d.setFlag un UF_CTRL.TEST_BUSY false).setFlag un UF_CTRL.TEST_PASS pass).raise un 0x03 (leBytes 1 pass.toNat))
  match d.rid.tests.get? [un] with
  | some t =>
    let gone : Dev := { d with rid := { d.rid with tests := d.rid.tests.erase [un] } }
    match t.why with
    | .alone =>
      let d := (done gone).nextTest un
      (match t.ticket with
      | some k => d.finish k (.ok pass.toNat)
      | none => d)
    | .return_ =>
      if classOf un = 0x41 ∨ (d.watchOf un).state = .declared then d else
      if d.testPasses un pass then done ((gone.spareIfFailed un pass).enterShadow un t)
      else
        let d := done (gone.failTest un)
        (match t.ticket with
        | some k => d.finish k (.fail stABORTED_FAULT)
        | none => d)
    | .bringUp => d
  | none =>
    if d.svc un ≠ sOFF ∨ classOf un = 0x41 ∨ (classOf un = 0x30 ∧ ¬ d.portInUse (un - 128))
        ∨ (classOf un = 0x40 ∧ ¬ d.fw.sideband.contains (un - 512)) then d else
    done (if d.testPasses un pass then (d.spareIfFailed un pass).bringUp un else d.failTest un)

/-- SPARE_TEST: the firmware's test of a spare; one that fails goes OUT (R377). -/
def Dev.spareTest (d : Dev) (un : Nat) (pass : Bool) : Dev :=
  if d.svc un ≠ sSPARE ∨ d.isTaking un then d else
  let d := d.setFlag un UF_CTRL.TEST_PASS pass
  (if pass then d else (d.standDown un).setSvc un sOUT).raise un 0x03 (leBytes 1 pass.toNat)

/-! ### SHADOW_COMPLETE (R389, R390) -/

/-- The unit that a returning one relieves takes no new work, and goes to SPARE once its own items have committed (R390). -/
def Dev.relieve (d : Dev) (u : Nat) : Dev :=
  let d := d.setStream u u
  ({ d with rid := { d.rid with relieved := d.rid.relieved ++ [u] } } : Dev).settleStandIn u

/-- Has a returning unit compared as many items as R51 asks for, or has it nothing to compare? -/
def Dev.shadowReady (d : Dev) (un : Nat) : Bool :=
  match d.rid.shadows.get? [un] with
  | some s => decide (65536 ≤ s.items)
  | none => true

/-- An editor whose port group nobody serves takes it again, and its ports may leave DISABLED (R83, R391). -/
def Dev.restoreGroup (d : Dev) (un : Nat) : Dev :=
  let g := if d.get un EDT_STATUS.PORT_GROUP < 8 then d.get un EDT_STATUS.PORT_GROUP
    else ((List.range 8).find? (fun g => !d.editorServes (16 * g))).getD 0xF
  let d := d.set un EDT_STATUS.PORT_GROUP g
  if g < 8 then d.settlePorts (groupPorts g) else d

/-- SHADOW_COMPLETE: the returning unit takes the stream it carried when it left, though nobody carried it meanwhile; one that carried none
takes that of the unit it compared (R390). -/
def Dev.shadowComplete (d : Dev) (un : Nat) : Dev :=
  if d.svc un ≠ sSHADOW ∨ classOf un = 0x41 ∨ ¬ d.shadowReady un then d else
  let of := (d.rid.shadows.get? [un]).map (fun s => s.of)
  let st : Nat := match d.rid.carried.get? [un], of with
    | some st, _ => st
    | none, some u => d.streamOf u
    | none, none => un
  let standIn := d.carrierOf un st
  let replaced := classOf un = 0x15 ∧ d.bankReplaced (latOfBank un) (bankOf un)
  let d := { d with rid := { d.rid with shadows := d.rid.shadows.erase [un], carried := d.rid.carried.erase [un] } }
  let d := d.setWatch un {}
  let d := ((d.setSvc un sACTIVE).setStream un st).grantTurn un 0 none
  let d := match standIn with
    | none => d
    | some u => (if classOf un = 0x19 then d.moveGroup u un else d).relieve u
  let d := match classOf un, standIn with
    | 0x15, _ => if replaced then d.spareFreed (latOfBank un) else d
    | 0x19, none => d.restoreGroup un
    | 0x21, _ => ((d.set uSCH TMS_PAIR.ACTIVE_UN un).setFlag uSCH TMS_PAIR.STANDBY_SYNC
        (d.svc (if un = 97 then 98 else 97) == sSPARE)).setFigure 97 none |>.setFigure 98 none
    | 0x22, _ => (d.set 99 CRD_PAIR.STANDBY_SYNC 1).setFigure 99 none
    | 0x30, _ => d.settlePort (un - 128)
    | 0x31, _ => d.settleLink (un - 256)
    | _, _ => d
  ((d.showGroup un).follow un).endReturns un (.ok 1)

/-! ### Headless operation (R392–R395) -/

/-- A change between ATTENDED and HEADLESS. -/
def Dev.setHeadless (d : Dev) (on : Bool) : Dev :=
  if d.flag 0 HDL_STATUS.HEADLESS = on then d else
  let spent := if on then d.hdl.spent else d.hdl.spent + (d.now - max d.hdl.cleared (d.get 0 HDL_SINCE.TIME))
  let d := { d with hdl := { d.hdl with spent := spent } }
  let d := (d.setFlag 0 HDL_STATUS.HEADLESS on).set 0 HDL_SINCE.TIME d.now
  d.raise 0 0x18 (leBytes 1 on.toNat ++ leBytes 2 d.hdl.log.length)

/-- HEADLESS_TIMEOUT. -/
def Dev.headlessTimeout (d : Dev) : Dev :=
  match d.hdl.alive with
  | none => d
  | some t =>
    let s := d.act 0 HDL_CFG.TIMEOUT_S
    if s ≠ 0 ∧ t + 1000000000 * s ≤ d.now then d.setHeadless true else d

/-- A sign of the host: the timer restarts and the device is ATTENDED. -/
def Dev.attended (d : Dev) : Dev :=
  let d := { d with hdl := { d.hdl with
    alive := if d.flag uHIF HIF_STATUS.FW_READY ∨ d.hdl.alive.isSome then some d.now else none } }
  d.setHeadless false

/-- HOST_ALIVE (0x0004). -/
def Dev.hostAlive (d : Dev) (c : HCmd) : Dev :=
  d.commandNow c 0x0004 [] (fun d =>
    let was := d.flag 0 HDL_STATUS.HEADLESS
    let d := d.attended
    ({ d with hdl := { d.hdl with host := true } }, .ok (was.toNat + 2 ^ 16 * d.hdl.log.length)))

/-- AUTO_RETURN (R393). -/
def Dev.autoReturn (d : Dev) (un : Nat) : Dev :=
  match d.rid.failedAt.get? [un] with
  | none => d
  | some t =>
    if d.flag 0 HDL_STATUS.HEADLESS ∧ d.flag 0 HDL_CFG.AUTO_RETURN ∧ holdsTurns un ∧ d.svc un = sFAILED
        ∧ d.get un UF_STATE.FAULT_COUNT < 3 ∧ t + 1000000000 * d.act 0 HDL_CFG.RETURN_DELAY_S ≤ d.now
        ∧ (d.rid.tests.get? [un]).isNone then
      let r := d.askReturn un none false
      if r.2 = .later then r.1.logDecision 5 un 0 else d
    else d

/-- FAB_HEADLESS_RETIRE: a link that has stayed in TRAIN_FAILED for 10 minutes (R393). -/
def Dev.fabHeadlessRetire (d : Dev) (n : Nat) : Dev :=
  match (d.fabLink n).failedAt with
  | none => d
  | some t =>
    if n < 160 ∧ d.flag 0 HDL_STATUS.HEADLESS ∧ d.flag 0 HDL_CFG.FAB_RETIRE ∧ d.linkSt n = fFAILED
        ∧ t + 600000000000 ≤ d.now then
      let d := (d.enterLink n fRETIRED id).set (uLNK n) ZFP_LINK_STATUS.DOWN_CAUSE 7
      (((d.failSelf (uLNK n) 0x0031).raise (uLNK n) 0x13 (leBytes 1 (d.deathsOf n))).logDecision 3 (uLNK n) 0).sparesExhausted uZFP (uLNK n)
    else d

def execTurnGrant (un : Nat) (s : State) : Answer := s.go (·.turnGrant un)
def execDecideWindowExpire (un : Nat) (s : State) : Answer := s.go (·.decideWindowExpire un)
def execReplayTurnGrant (un : Nat) (unreadable : List Nat) (s : State) : Answer := s.go (·.replayTurnGrant un unreadable)
def execTakeoverDone (un : Nat) (s : State) : Answer := s.go (·.takeoverDone un)
def execEditorTakeover (un : Nat) (s : State) : Answer := s.go (·.editorTakeover un)
def execSchedulerTakeover (pause : Nat) (s : State) : Answer := s.go (·.schedulerTakeover pause)
def execCreditTakeover (s : State) : Answer := s.go Dev.creditTakeover
def execSentinelInject (lat : Nat) (mismatch : List Nat) (s : State) : Answer := s.go (·.sentinels lat mismatch)
def execRiderCopy (rider copy : Nat) (s : State) : Answer := s.go (·.riderCopy rider copy)
def execSpareTest (un : Nat) (pass : Bool) (s : State) : Answer := s.go (·.spareTest un pass)
def execShadowComplete (un : Nat) (s : State) : Answer := s.go (·.shadowComplete un)
def execSelfTestDone (un : Nat) (pass : Bool) (s : State) : Answer := s.go (·.selfTestDone un pass)
def execUnitOut (c : HCmd) (s : State) : Answer := s.go (·.unitOut c)
def execUnitReturn (c : HCmd) (s : State) : Answer := s.go (·.unitReturn c)
def execUnitTest (c : HCmd) (s : State) : Answer := s.go (·.unitTest c)
def execUnitOutTimeout (un : Nat) (s : State) : Answer := s.go (·.unitOutTimeout un)
def execOutReq (un reqs : Nat) (s : State) : Answer := s.go (fun d => if bit reqs 0 then d.unitRequest un reqs else d)
def execReturnReq (un reqs : Nat) (s : State) : Answer := s.go (fun d => if bit reqs 1 then d.unitRequest un reqs else d)
def execTestReq (un reqs : Nat) (s : State) : Answer := s.go (fun d => if bit reqs 2 then d.unitRequest un reqs else d)
def execResetReq (un reqs : Nat) (s : State) : Answer := s.go (fun d => if bit reqs 3 then d.unitRequest un reqs else d)
def execHeadlessTimeout (s : State) : Answer := s.go Dev.headlessTimeout
def execHeartbeat (s : State) : Answer := s.go Dev.attended
def execHostAlive (c : HCmd) (s : State) : Answer := s.go (·.hostAlive c)
def execAutoReturn (un : Nat) (s : State) : Answer := s.go (·.autoReturn un)
def execFabHeadlessRetire (link : Nat) (s : State) : Answer := s.go (·.fabHeadlessRetire link)

end Sys2Proof.Machine
end

