-- ==== Sys2Proof/Machine/Host.lean ====
section
/-! DEFINITION. The host interface: its link, rings, doorbells, fetching, chains, receive queues, PKT_TX, NOP and FENCE
(R398–R429, R434, R560). SUMMARY and HIF_RESYNC stand in Summary.lean. -/
namespace Sys2Proof.Machine

/-! ### Receive queues (R421–R424) -/

/-- Bytes of a receive header (R423). -/
def rxHeader (p : Punt) (cut : Bool) : List Byte :=
  leBytes 2 (p.bytes.length % 16384 + cut.toNat * 2 ^ 14) ++ leBytes 1 p.reason ++ leBytes 1 p.queue
  ++ leBytes 4 (p.srcSysport % 2 ^ 17 + p.cls * 2 ^ 17) ++ leBytes 8 p.rxTime ++ leBytes 2 p.rxFrac ++ leBytes 2 p.egMeta
  ++ leBytes 12 0

/-- Posted buffers and held packets of an RXQ, as HIF_RING_STATE shows them. -/
def Dev.showRxq (d : Dev) (q : Nat) : Dev :=
  let k := ringIx kRXQ q
  (d.setI uHIF HIF_RING_STATE.COUNT k ((d.hif.posted.filter (fun p => p.rxq == q)).length)).setI uHIF HIF_RING_STATE.HEAD k
    ((d.hif.rxHeld.filter (fun h => h.1 == q)).length)

/-- A posted buffer completes on its RXQ's CQ. -/
def Dev.finishPosted (d : Dev) (p : Posted) (r : Reply) : Dev :=
  let d := d.finishCore p.ticket r (some p.rxq)
  (({ d with hif := { d.hif with posted := d.hif.posted.erase p } }).showRxq p.rxq).goOn

/-- A packet fills a posted buffer (R422–R424). -/
def Dev.fillBuffer (d : Dev) (p : Posted) (k : Punt) (writeOk : Bool) : Dev :=
  let cut : Bool := decide (p.length - 32 < k.bytes.length)
  if writeOk then
    let d := d.hostWrite p.addr (rxHeader k cut ++ k.bytes.take (p.length - 32))
    let d := (d.bump uHIF HIF_RX_PACKETS.COUNT).tally uHIF 0x26 1
    d.finishPosted p (.ok (k.bytes.length % 16384 + cut.toNat * 2 ^ 14 + k.reason * 2 ^ 16 + k.queue * 2 ^ 24))
  else d.dmaFailed.finishPosted p (.fail stDATA_ERROR)

/-- A packet for an RXQ is dropped for want of a buffer (R422). -/
def Dev.rxDrop (d : Dev) (q : Nat) : Dev :=
  (d.bump uHIF HIF_RX_NOBUF.COUNT).raiseOnce uHIF 0x13 0 (fun n => leBytes 1 q ++ leBytes 4 n)

/-- Oldest buffer posted to an RXQ. -/
def Dev.postedTo (d : Dev) (q : Nat) : Option Posted := d.hif.posted.find? (fun p => p.rxq == q)

/-- HOLD of an RXQ: packets that may wait for a buffer. -/
def Dev.rxHold (d : Dev) (q : Nat) : Nat := min 1024 (d.getI uHIF HIF_RING_CFG.TIME (ringIx kRXQ q))

/-- A punted packet reaches its RXQ (R422): it fills a buffer, waits in its cells, or is dropped. -/
def Dev.deliverRx (d : Dev) (q : Nat) (k : Punt) (writeOk : Bool) : Dev :=
  if d.ringState (ringIx kRXQ q) ≠ rENABLED then (d.dropRef k.handle).rxDrop q
  else
    match d.postedTo q with
    | some p => (d.dropRef k.handle).fillBuffer p k writeOk
    | none =>
      if (d.hif.rxHeld.filter (fun h => h.1 == q)).length < d.rxHold q then
        ({ d with hif := { d.hif with rxHeld := d.hif.rxHeld ++ [(q, k)] } }).showRxq q
      else (d.dropRef k.handle).rxDrop q

/-- Bytes that the device itself delivers to an RXQ (R448, R466): false when no buffer takes them. -/
def Dev.deliverOwn (d : Dev) (q reason egMeta : Nat) (bytes : List Byte) (writeOk : Bool) : Dev × Bool :=
  match (if d.ringState (ringIx kRXQ q) = rENABLED then d.postedTo q else none) with
  | some p => (d.fillBuffer p ⟨bytes, 0, reason, 0, 0, 0, d.now, d.frac, egMeta⟩ writeOk, true)
  | none => (d, false)

/-- Drop the packets held for an RXQ. -/
def Dev.dropRxHeld (d : Dev) (q : Nat) : Dev :=
  let hs := d.hif.rxHeld.filter (fun h => h.1 == q)
  let d := { d with hif := { d.hif with rxHeld := d.hif.rxHeld.filter (fun h => !(h.1 == q)) } }
  (hs.foldl (fun d h => (d.dropRef h.2.handle).bump uHIF HIF_RX_NOBUF.COUNT) d).showRxq q

/-! ### The host link (R402, R435) -/

/-- Registers of the ring windows. -/
def isRingKey (k : Key) : Bool :=
  match k with
  | [un, off, _, _] => un == uHIF && [HIF_RING_BASE.BASE.off, HIF_RING_CFG.CQ.off, HIF_RING_STATE.STATE.off,
      HIF_RING_CTRL.REFUSED.off].contains off
  | _ => false

/-- Take every ring to DISABLED and cut every host command off (R402, R433). A command that has taken effect and waits only
for its chain, and a FENCE, end here; the others run on, and their completions will be discarded. -/
def Dev.cutHost (d : Dev) : Dev :=
  let mine (t : Ticket) : Bool := t.sq.isSome
  let done (t : Ticket) : Bool := d.hif.parked.any (fun p => p.ticket == t) || d.hif.fences.any (fun f => f.ticket == t)
  let cut := (d.hif.inflight.filter (fun f => mine f.ticket)).map (·.ticket)
  let filled := d.hif.parked.filter (fun p => mine p.ticket && p.rxq.isSome)
  let n := (cut.filter done).length + d.hif.posted.length + filled.length
  let qs := (d.hif.rxHeld.map (·.1)).eraseDups
  let d := qs.foldl Dev.dropRxHeld d
  let d := { d with
    fields := d.fields.filter (fun e => !isRingKey e.1)
    hif := { d.hif with
      inflight := d.hif.inflight.filter (fun f => !mine f.ticket)
      lost := d.hif.lost ++ cut.filter (fun t => !done t)
      parked := d.hif.parked.filter (fun p => !mine p.ticket)
      fences := d.hif.fences.filter (fun f => !mine f.ticket)
      chainNext := d.hif.chainNext.filter (fun c => !mine c.1), posted := [], unsig := [], turn := (0, 0) } }
  (d.add uHIF HIF_CPL_LOST.COUNT n).showInFlight

/-- HOST_LINK_RESET, with its cause: 1 PERST_N, 2 FLR, 3 Hot Reset or link lost. All but FLR take the link down. -/
def Dev.hostLinkReset (d : Dev) (cause : Nat) : Dev :=
  let d := d.cutHost
  let d := { d with hif := { d.hif with msix := [], pba := 0 } }
  let d := d.set uHIF HIF_STATUS.HIF_EPOCH (d.get uHIF HIF_STATUS.HIF_EPOCH + 1)
  if cause = 2 then d
  else ((d.set uHIF HIF_STATUS.RATE 0).set uHIF HIF_STATUS.WIDTH 0).set uHIF HIF_STATUS.FLIT 0

/-- A step in which the host interface fails loses the host link (R382). -/
def Dev.hostAfter (d : Dev) (f : Dev → Dev) : Dev :=
  let e := f d
  if d.svc uHIF = sACTIVE ∧ e.svc uHIF = sFAILED then e.hostLinkReset 3 else e

/-- PCIE_LINK: the link has trained, or has returned after a reset (R435). -/
def Dev.pcieLink (d : Dev) (rate width flit cause : Nat) : Dev :=
  (((d.set uHIF HIF_STATUS.RATE rate).set uHIF HIF_STATUS.WIDTH width).set uHIF HIF_STATUS.FLIT flit).raise uHIF 0x10
    (leBytes 1 rate ++ leBytes 1 width ++ leBytes 1 flit ++ leBytes 1 cause)

/-! ### Ring control (R403, R404) -/

/-- The ring that HIF_RING_SEL names, none beyond the kind's range. -/
def Dev.selRing (d : Dev) : Option (Nat × Nat) :=
  let kind := d.get uHIF HIF_RING_SEL.KIND
  let n := d.get uHIF HIF_RING_SEL.INDEX
  if n < ringCount kind then some (kind, n) else none

def Dev.refuseRing (d : Dev) (k : Nat) : Dev := d.setI uHIF HIF_RING_CTRL.REFUSED k 1

/-- May a DISABLED ring be enabled? -/
def Dev.ringReady (d : Dev) (kind k : Nat) : Bool :=
  let size := d.getI uHIF HIF_RING_CFG.SIZE_LOG2 k
  let base := d.getI uHIF HIF_RING_BASE.BASE k
  (kind == kRXQ || (decide (4 ≤ size) && base % (if kind = kSQ then 64 else 32) == 0))
  && ((kind != kSQ && kind != kRXQ) || d.ringState (d.cqOf k) == rENABLED)

/-- RING_ENABLE of a ring. No ring runs in recovery mode (R487). -/
def Dev.enableRing (d : Dev) (kind n : Nat) : Dev :=
  let k := ringIx kind n
  if d.ringState k ≠ rDISABLED ∨ ¬ d.ringReady kind k ∨ d.flag 0 FW_STATUS.RECOVERY then d.refuseRing k else
  let d := if kind = kRXQ then d else
    let d := (d.setI uHIF HIF_RING_STATE.HEAD k 0).setI uHIF HIF_RING_STATE.TAIL k 0
    let d := (d.setI uHIF HIF_RING_STATE.PHASE k 1).setI uHIF HIF_RING_STATE.ARMED k 1
    { d with hif := { d.hif with unsig := d.hif.unsig.erase [k] } }
  d.setI uHIF HIF_RING_STATE.STATE k rENABLED

/-- The rings of a kind that are listed in a state other than DISABLED, ascending. -/
def Dev.liveRings (d : Dev) (kind : Nat) : List Nat :=
  d.fields.filterMap (fun e =>
    match e.1 with
    | [un, off, lo, k] =>
      if un = uHIF ∧ off = HIF_RING_STATE.STATE.off ∧ lo = HIF_RING_STATE.STATE.lo ∧ k / 4096 = kind ∧ e.2 ≠ rDISABLED then
        some (k % 4096)
      else none
    | _ => none)

/-- Does an SQ or RXQ that is not DISABLED name this CQ? -/
def Dev.cqNamed (d : Dev) (n : Nat) : Bool :=
  (d.liveRings kSQ).any (fun s => d.getI uHIF HIF_RING_CFG.CQ (ringIx kSQ s) == n)
  || (d.liveRings kRXQ).any (fun q => d.getI uHIF HIF_RING_CFG.CQ (ringIx kRXQ q) == n)

/-- Is a command of an SQ in flight, or a chain of it still to be read? -/
def Dev.sqBusy (d : Dev) (n : Nat) : Bool :=
  d.getI uHIF HIF_RING_STATE.COUNT (ringIx kSQ n) != 0 || d.hif.chainNext.any (fun c => c.1.sq == some n)

/-- DISABLE from ENABLED, and ERR_CLEAR from ERROR: `need` is the state the request acts in. -/
def Dev.disableRing (d : Dev) (kind n need : Nat) : Dev :=
  let k := ringIx kind n
  if d.ringState k ≠ need ∨ (kind = kCQ ∧ d.cqNamed n) then d.refuseRing k
  else if kind = kSQ then d.setI uHIF HIF_RING_STATE.STATE k (if d.sqBusy n then rDISABLING else rDISABLED)
  else if kind = kRXQ then
    let d := (d.hif.posted.filter (fun p => p.rxq == n)).foldl (fun d p => d.finishPosted p (.fail stUNIT_UNAVAILABLE)) d
    (d.dropRxHeld n).setI uHIF HIF_RING_STATE.STATE k rDISABLED
  else d.setI uHIF HIF_RING_STATE.STATE k rDISABLED

/-- A request of HIF_RING_CTRL on the selected ring. -/
def Dev.onSelected (d : Dev) (f : Dev → Nat → Nat → Dev) : Dev :=
  match d.selRing with
  | some (kind, n) => f d kind n
  | none => d

def Dev.ringEnable (d : Dev) : Dev := d.onSelected Dev.enableRing
def Dev.ringDisable (d : Dev) : Dev := d.onSelected (fun d kind n => d.disableRing kind n rENABLED)
def Dev.ringErrClear (d : Dev) : Dev := d.onSelected (fun d kind n => d.disableRing kind n rERROR)

/-- RING_DRAINED: a DISABLING SQ has nothing in flight any more. -/
def Dev.ringDrained (d : Dev) (n : Nat) : Dev :=
  let k := ringIx kSQ n
  if n < 4096 ∧ d.ringState k = rDISABLING ∧ ¬ d.sqBusy n then d.setI uHIF HIF_RING_STATE.STATE k rDISABLED else d

/-- RING_ERROR: the device's next access to a ring's memory fails (R404, R435). What that access was for meets the ring in
ERROR: an SQ fetches no more, a CQ discards its completions, an EQ's sources hold their records. -/
def Dev.ringError (d : Dev) (kind n : Nat) : Dev :=
  let k := ringIx kind n
  if kind = kRXQ ∨ 3 < kind ∨ ringCount kind ≤ n ∨ ¬ (d.ringState k = rENABLED ∨ d.ringState k = rDISABLING) then d
  else (d.dmaFailed.setI uHIF HIF_RING_STATE.STATE k rERROR).raise uHIF 0x12
    (leBytes 2 (n + kind * 2 ^ 12) ++ leBytes 1 (if kind = kSQ then 0 else 1))

/-! ### Doorbells (R405–R407, R416) -/

/-- A doorbell that fails its test, and why: 0 distance, 1 ring not ENABLED. -/
def Dev.doorbellBad (d : Dev) (kind n v why : Nat) : Dev :=
  (d.bump uHIF HIF_DOORBELL_BAD.COUNT).raiseLimited uHIF 0x11 0 1000 (fun _ =>
    leBytes 2 (n + kind * 2 ^ 12) ++ leBytes 2 v ++ leBytes 2 (d.getI uHIF HIF_RING_STATE.HEAD (ringIx kind n)) ++ leBytes 1 why)

/-- A doorbell write, at most 17 bits of which act. -/
def Dev.doorbell (d : Dev) (kind n value : Nat) : Dev :=
  let k := ringIx kind n
  let v := value % 65536
  if ringCount kind ≤ n then d
  else if d.ringState k ≠ rENABLED then d.doorbellBad kind n v 1
  else
    let dist := (v + 65536 - d.getI uHIF HIF_RING_STATE.HEAD k) % 65536
    if kind = kSQ then
      (if d.ringUsed k ≤ dist ∧ dist ≤ d.ringSize k then d.setI uHIF HIF_RING_STATE.TAIL k v else d.doorbellBad kind n v 0)
    else if dist ≤ d.ringUsed k then
      let d := d.setI uHIF HIF_RING_STATE.HEAD k v
      let left := d.ringUsed k
      let u := d.hif.unsig.getD [] [k]
      let d := { d with hif := { d.hif with unsig := d.hif.unsig.setD [] [k] (u.drop (u.length - left)) } }
      if bit value 16 then
        let d := d.setI uHIF HIF_RING_STATE.ARMED k 1
        (if left = 0 then d else d.signalRing k).goOn
      else d.goOn
    else d.doorbellBad kind n v 0

/-- Offset of a ring's doorbell in BAR2, and the ring whose doorbell stands at an offset (R406). -/
def bar2Off (kind n : Nat) : Nat := (if kind = kSQ then 0 else if kind = kCQ then 0x8000 else 0xA000) + 8 * n

def bar2Ring (off : Nat) : Option (Nat × Nat) :=
  if off % 8 ≠ 0 then none
  else if off < 0x8000 then some (kSQ, off / 8)
  else if off < 0xA000 then some (kCQ, (off - 0x8000) / 8)
  else if off < 0xA200 then some (kEQ, (off - 0xA000) / 8)
  else none

/-- A write to BAR2: of a doorbell, or of its low half; a write of a high half or to another offset is ignored. A read returns 0 (R406). -/
def Dev.bar2Write (d : Dev) (off : Nat) (h : Half) (value : Nat) : Dev :=
  match h, bar2Ring off with
  | .high, _ => d
  | _, none => d
  | _, some (kind, n) => d.doorbell kind n value

/-- The doorbell row of a ring: a write of all of its doorbell. -/
def Dev.ringDoorbell (d : Dev) (kind n value : Nat) : Dev :=
  if ringCount kind ≤ n then d else d.bar2Write (bar2Off kind n) .both value

/-- COAL_TIMER: COAL_US has passed since the oldest unsignalled entry of an armed ring (R416). -/
def Dev.coalTimer (d : Dev) (kind n : Nat) : Dev :=
  let k := ringIx kind n
  let t := d.getI uHIF HIF_RING_CFG.TIME k
  match (d.hif.unsig.getD [] [k]).head? with
  | some o =>
    if (kind = kCQ ∨ kind = kEQ) ∧ d.flagI uHIF HIF_RING_STATE.ARMED k ∧ t ≠ 0 ∧ o + 1000 * t ≤ d.now then d.signalRing k else d
  | none => d

/-! ### Fetching and chains (R408, R411, R417–R419) -/

/-- May the device fetch from an SQ (R411)? -/
def Dev.fetchable (d : Dev) (sq : Nat) : Bool :=
  let k := ringIx kSQ sq
  d.flag uHIF HIF_STATUS.FW_READY && d.ringState k == rENABLED && d.ringUsed k != 0 && d.hasRoom sq

/-- The SQ whose turn it is, and the entries left of the turn: the one being served while its turn lasts, then the next ready
one round the circle, with WEIGHT entries. -/
def Dev.nextSq (d : Dev) : Option (Nat × Nat) :=
  let rs := (d.liveRings kSQ).filter d.fetchable
  let cur := d.hif.turn
  if 0 < cur.2 ∧ rs.contains cur.1 then some cur
  else
    match (rs.find? (fun s => decide (cur.1 < s))).or rs.head? with
    | some s => some (s, max 1 (d.getI uHIF HIF_RING_CFG.WEIGHT (ringIx kSQ s)))
    | none => none

/-- SQ_FETCH. A read of the ring's memory that fails takes the ring to ERROR. -/
def Dev.sqFetch (d : Dev) (desc : List Byte) (readOk : Bool) : Dev :=
  match d.nextSq with
  | none => d
  | some (sq, left) =>
    if ¬ readOk then d.ringError kSQ sq else
    let k := ringIx kSQ sq
    let h := d.getI uHIF HIF_RING_STATE.HEAD k
    let d := { d with hif := { d.hif with turn := (sq, left - 1) } }
    let d := d.setI uHIF HIF_RING_STATE.HEAD k (h + 1)
    let t : Ticket := ⟨.ring sq h, slice desc 0 64⟩
    ((d.begin t none).screen t).goOn

/-- A chain ends at a descriptor that has taken effect. -/
def Dev.endChain (d : Dev) (p : Parked) (bad cs : Nat) : Dev :=
  ((d.writeCpl p.ticket ⟨p.status, p.result, bad⟩ p.rxq true cs).releaseFills d.hif.parked.length p.rxq).goOn

/-- Does a parked completion await its own read: a posted buffer's does once those filled earlier are written (R422)? -/
def Dev.awaitsRead (d : Dev) (p : Parked) : Bool :=
  p.done.isNone && (p.rxq.isNone || d.hif.parked.find? (fun x => x.rxq == p.rxq) == some p)

/-- CHAIN_NEXT_READ for the `i`-th descriptor that waits for it: its NEXT is followed, or read again, 8 bytes, when it was 0. `closing`
is what the closing read finds. The next descriptor is read before the completion is written, and starts when there is
room (R417–R419). -/
def Dev.chainNextRead (d : Dev) (i : Nat) (desc : List Byte) (closing : Nat) (readOk closeOk : Bool) : Dev :=
  match d.hif.parked[i]? with
  | none => d
  | some p =>
    if ¬ d.awaitsRead p then d else
    let root := p.root
    let d := if p.ticket.next = 0 ∧ p.ticket.sq.isSome then d.tally uHIF 0x23 8 else d
    let next (a : Nat) : Origin := match p.ticket.agent? with
      | some slot => .agentChained slot a root
      | none => .chained (p.ticket.sq.getD 0) a root
    let d := { d with hif := { d.hif with parked := d.hif.parked.erase p } }
    let failed (d : Dev) : Dev := (match p.ticket.sq with
      | some sq => d.dmaFailed.raise uHIF 0x12 (leBytes 2 sq ++ leBytes 1 2)
      | none => d).endChain p p.bad stDATA_ERROR
    let target := if p.ticket.next = 0 then closing else p.ticket.next
    if p.ticket.next = 0 ∧ ¬ closeOk then failed d
    else if target = 0 then d.endChain p p.bad stCHAIN_ENDED_EARLY
    else if target % 64 ≠ 0 then d.endChain p 0x08 stMALFORMED
    else if ¬ readOk then failed d
    else
      let d := { d with hif := { d.hif with chainNext := d.hif.chainNext ++ [(Ticket.mk (next target) (slice desc 0 64), root)] } }
      ((d.writeCpl p.ticket ⟨p.status, p.result, p.bad⟩ p.rxq false 0).releaseFills d.hif.parked.length p.rxq).goOn

/-! ### NOP, FENCE, RX_BUF_POST (R424, R428, R429) -/

/-- NOP (0x0001). -/
def Dev.nop (d : Dev) (c : HCmd) : Dev := d.commandNow c 0x0001 [] (fun d => (d, .ok d.now))

/-- Parameter table of FENCE (R429). -/
def fenceParams : List Param :=
  [pAny 0 0 0]

/-- FENCE (0x0002): it waits until everything earlier in its scope has completed. An agent's acts as SCOPE 0 (R460). -/
def Dev.fence (d : Dev) (c : HCmd) : Dev :=
  let d := d.command c 0x0002 fenceParams (fun d =>
    let e := d.hif.inflight.find? (fun f => f.ticket == c.ticket)
    let no := (e.map (·.no)).getD d.hif.nextNo
    let f : Fence := ⟨c.ticket, no, (e.map (·.root)).getD no, if c.ticket.agent?.isSome then 0 else c.par 0 0 0⟩
    ({ d with hif := { d.hif with fences := d.hif.fences ++ [f] } }, none))
  d.goOn

/-- MAX_POSTED of an RXQ: 0 acts as 4,096. -/
def Dev.maxPosted (d : Dev) (q : Nat) : Nat :=
  let m := d.getI uHIF HIF_RING_CFG.LIMIT (ringIx kRXQ q)
  if m = 0 then 4096 else min m 4096

/-- Buffers posted to the device at most (R421). -/
def postLimit : Nat := 8192

/-- Has the RXQ's CQ a slot for the post? The SQ's own reservation moves, so one CQ for both always has (R421). -/
def Dev.postSlot (d : Dev) (t : Ticket) (q : Nat) : Bool :=
  let c := d.cqOf (ringIx kRXQ q)
  (t.sq.any (fun sq => d.cqOf (ringIx kSQ sq) == c) && d.inFlight t)
  || decide (d.ringUsed c + d.getI uHIF HIF_RING_STATE.COUNT c < d.ringSize c)

/-- Parameter table of RX_BUF_POST (R424). -/
def HCmd.rxBufPostParams (c : HCmd) : List Param :=
  [pAny 0 5 0, c.zero 0 31 6, c.must 4 15 0 (fun n => decide (256 ≤ n ∧ n ≤ 16384)), c.zero 4 31 16,
   c.must 8 63 0 (· % 64 == 0)]

/-- RX_BUF_POST (0x0702). Accepted, it leaves its SQ; a packet that waits fills it at once. -/
def Dev.rxBufPost (d : Dev) (c : HCmd) : Dev :=
  let q := c.par 0 5 0
  d.command c 0x0702 c.rxBufPostParams (fun d =>
    if d.isLost c.ticket ∨ d.ringState (ringIx kRXQ q) ≠ rENABLED then (d, some (.fail stUNIT_UNAVAILABLE))
    else if d.maxPosted q ≤ (d.hif.posted.filter (fun p => p.rxq == q)).length ∨ postLimit ≤ d.hif.posted.length
        ∨ ¬ d.postSlot c.ticket q then (d, some (.fail stNO_RESOURCE))
    else
      let root := d.rootOf c.ticket
      let d := d.retire c.ticket
      let cq := d.cqOf (ringIx kRXQ q)
      let d := d.setI uHIF HIF_RING_STATE.COUNT cq (d.getI uHIF HIF_RING_STATE.COUNT cq + 1)
      let p : Posted := ⟨q, c.ticket, c.par 4 15 0, c.par 8 63 0, root⟩
      let d := ({ d with hif := { d.hif with posted := d.hif.posted ++ [p] } }).showRxq q
      match d.hif.rxHeld.find? (fun h => h.1 == q) with
      | some h =>
        let d := { d with hif := { d.hif with rxHeld := d.hif.rxHeld.erase h } }
        ((d.dropRef h.2.handle).fillBuffer p h.2 c.writeOk, none)
      | none => (d.goOn, none))

/-! ### PKT_TX (R425) -/

/-- How a packet that the device or the host sends fares. -/
inductive Sent
  | queued (dropped : Bool) (cause : Nat)
  | injected
  | noCell
  | storeFull
  deriving DecidableEq, Repr

/-- Queue a packet in VOQ `dest` × 8 + `cls`, unforwarded, for a requester. -/
def Dev.sendQueued (d : Dev) (req pool : Nat) (bytes : List Byte) (dest cls : Nat) (e : EgrDesc) : Dev × Sent :=
  let s := d.storeBody req pool bytes 1
  match s.2 with
  | none => (s.1, .noCell)
  | some h =>
    let d := s.1
    let e := { e with length := bytes.length, egressPort := dest % 128, cls := cls, rxTime := d.now, rxFrac := d.frac,
                      srcSysport := setBit dest 16 (!bit dest 16), firstNode := d.get uPRS PRS_CFG.ROOT_NODE }
    let r := d.offerVoq (dest * 8 + cls) e h
    (r.1, .queued (!r.2) (if r.2 then 0 else r.1.tm.lastDrop))

/-- Hand a packet to the distributor of an input port as a frame received there; a full store takes nothing and counts
nothing. -/
def Dev.sendInjected (d : Dev) (req pool : Nat) (bytes : List Byte) (port : Nat) : Dev × Sent :=
  if storeSize ≤ d.storeUsed (latOf port) then (d, .storeFull) else
  let s := d.storeBody req pool bytes 1
  match s.2 with
  | none => (s.1, .noCell)
  | some h => ((s.1.storeHdr ⟨port, h, bytes.length, s.1.now, s.1.frac⟩).1, .injected)

/-- May PKT_TX take its body from this pool: pool 0, or an enabled on-die pool of 256-byte buffers? -/
def Dev.txPool (d : Dev) (p : Nat) : Bool :=
  p == 0 || (d.flagI uBPM BPM_POOL_CFG.EN p && d.getI uBPM BPM_POOL_CFG.HOME p == 0 && d.sizeLog2 p == 8)

/-- Requester and pool of a PKT_TX: the host's, or the agent's (R234, R459). -/
def Dev.txOwner (d : Dev) (c : HCmd) : Nat × Nat :=
  match c.ticket.agent? with
  | some slot => (32 + slot % 32, (d.agent slot).pool)
  | none => (8, c.par 1 4 0)

/-- Parameter table of PKT_TX (R425). -/
def Dev.pktTxParams (d : Dev) (c : HCmd) : List Param :=
  let kind := c.par 0 0 0
  [pAny 0 0 0, pAny 0 3 1, c.must 0 5 4 (fun p => kind == 1 || p != 1), pAny 0 6 6, c.zero 0 7 7,
   c.must 1 4 0 d.txPool, c.zero 1 7 5, pAny 2 15 0, pAny 4 16 0, c.zero 4 31 17,
   c.must 8 13 0 (fun n => decide (14 ≤ n ∧ n ≤ 12284)), c.zero 8 15 14, pAny 10 15 0, pAny 12 21 0, c.zero 12 31 22,
   pAny 16 63 0]

/-- PKT_TX (0x0701). -/
def Dev.pktTx (d : Dev) (c : HCmd) : Dev :=
  let kind := c.par 0 0 0
  let dest := c.par 4 16 0
  let port := dest % 128
  d.commandNow c 0x0701 (d.pktTxParams c) (fun d =>
    if kind = 1 ∧ (¬ d.portInUse port ∨ (flumes (latOf port)).all (fun u => d.svc u != sACTIVE)) then
      (d, .fail stUNIT_UNAVAILABLE)
    else if ¬ c.readOk then (d.dmaFailed, .fail stDATA_ERROR)
    else
      let bytes := padded (slice c.block 0 (c.par 8 13 0))
      let o := d.txOwner c
      let r := if kind = 1 then d.sendInjected o.1 o.2 bytes port
        else d.sendQueued o.1 o.2 bytes dest (c.par 0 3 1)
          { ptpOp := c.par 0 5 4, encapId := c.par 12 21 0, encapValid := c.par 0 6 6 == 1, ptpOffset := c.par 10 15 0,
            tsId := c.par 2 15 0 }
      match r.2 with
      | .queued dropped cause => (r.1, .ok (dropped.toNat + cause * 2 ^ 4))
      | .injected => (r.1, .ok)
      | .noCell => (r.1, .fail stNO_RESOURCE)
      | .storeFull => (r.1, .fail stRETRY_LATER))

/-! ### PUNT_DELIVER (R137, R393, R421–R423, R443, R451, R466, R468, R483) -/

/-- A punt that nothing takes is counted in PNT_DROP of its queue. -/
def Dev.puntDrop (d : Dev) (k : Punt) : Dev := (d.dropRef k.handle).bumpI uCLS PNT_DROP.COUNT k.queue

/-- A kind-2 message for an agent: the receive header, then the packet. A slot with no instance takes none. -/
def Dev.puntToAgent (d : Dev) (slot : Nat) (k : Punt) : Dev :=
  let st := d.getI uSVC AGT_STATUS.STATE slot
  let d := d.dropRef k.handle
  if 1 ≤ st ∧ st ≤ 3 then d.pushMsg slot 2 (rxHeader k false ++ k.bytes) else d.bumpI uSVC AGT_COUNTS.INBOX_DROP slot

/-- The service cluster's control pause: no firmware runs between ACT_TIME and FW_READY (R483). -/
def Dev.fwPaused (d : Dev) : Bool := d.fw.act.any (fun a => a.stage != 0)

/-- A punt redirected to the cluster while HEADLESS (R468). -/
def Dev.puntRedirect (d : Dev) (k : Punt) : Dev :=
  let slot := d.get uSVC SVC_CFG.HDL_AGENT
  if d.flag uSVC SVC_CFG.HDL_AGENT_EN ∧ d.getI uSVC AGT_STATUS.STATE slot = agRUNNING then d.puntToAgent slot k
  else (d.dropRef k.handle).bump uSVC SVC_REDIRECT_DROP.COUNT

/-- TARGET of the liveness engine's and of the PTP service's punt queues. -/
def tgtBFD : Nat := 0xFF
def tgtPTP : Nat := 0xFE

/-- PUNT_DELIVER: the oldest punt goes where its queue sends it. -/
def Dev.puntDeliver (d : Dev) (writeOk : Bool) : Dev :=
  match d.hif.punts with
  | [] => d
  | k :: rest =>
    let d := { d with hif := { d.hif with punts := rest } }
    let target := d.getI uCLS PNT_Q_CFG.TARGET k.queue
    match d.getI uCLS PNT_Q_CFG.DEST k.queue with
    | 0 =>
      if d.flag 0 HDL_STATUS.HEADLESS then
        (if d.get 0 HDL_CFG.HOST_PUNT_ACT = 1 ∧ ¬ d.fwPaused then d.puntRedirect k else d.puntDrop k)
      else d.deliverRx (target % 64) k writeOk
    | 1 =>
      if target = tgtBFD then { d.dropRef k.handle with svcs := { d.svcs with bfdIn := d.svcs.bfdIn ++ [k] } }
      else if d.fwPaused then d.puntDrop k
      else if target = tgtPTP then
        { d.dropRef k.handle with svcs := { d.svcs with ptp := { d.svcs.ptp with inbox := d.svcs.ptp.inbox ++ [k] } } }
      else d.dropRef k.handle
    | 2 => if d.fwPaused then d.puntDrop k else d.puntToAgent (target % 64) k
    | _ => d.puntDrop k

def execTurnRenewal (un : Nat) (s : State) : Answer := s.go (·.hostAfter (·.turnRenewal un))
def execTurnLapsed (un : Nat) (s : State) : Answer := s.go (·.hostAfter (·.turnLapsed un))
def execSuspect (un input : Nat) (s : State) : Answer := s.go (·.hostAfter (·.softAny un input))
def execFaultDeclare (un hard : Nat) (s : State) : Answer := s.go (·.hostAfter (·.hardAny un hard))
def execHostLinkReset (cause : Nat) (s : State) : Answer := s.go (·.hostLinkReset cause)
def execPcieLink (rate width flit cause : Nat) (s : State) : Answer := s.go (·.pcieLink rate width flit cause)
def execRingEnable (s : State) : Answer := s.go Dev.ringEnable
def execRingDisable (s : State) : Answer := s.go Dev.ringDisable
def execRingErrClear (s : State) : Answer := s.go Dev.ringErrClear
def execRingDrained (sq : Nat) (s : State) : Answer := s.go (·.ringDrained sq)
def execRingError (kind n : Nat) (s : State) : Answer := s.go (·.ringError kind n)
def execSqDoorbell (sq value : Nat) (s : State) : Answer := s.go (·.ringDoorbell kSQ sq value)
def execCqDoorbell (cq value : Nat) (s : State) : Answer := s.go (·.ringDoorbell kCQ cq value)
def execEqDoorbell (eq value : Nat) (s : State) : Answer := s.go (·.ringDoorbell kEQ eq value)
def execSqFetch (desc : List Byte) (readOk : Bool) (s : State) : Answer := s.go (·.sqFetch desc readOk)
def execChainNextRead (i : Nat) (desc : List Byte) (closing : Nat) (readOk closeOk : Bool) (s : State) : Answer :=
  s.go (·.chainNextRead i desc closing readOk closeOk)
def execCoalTimer (kind n : Nat) (s : State) : Answer := s.go (·.coalTimer kind n)
def execNop (c : HCmd) (s : State) : Answer := s.go (·.nop c)
def execFence (c : HCmd) (s : State) : Answer := s.go (·.fence c)
def execPuntDeliver (writeOk : Bool) (s : State) : Answer := s.go (·.puntDeliver writeOk)
def execPktTx (c : HCmd) (s : State) : Answer := s.go (·.pktTx c)
def execRxBufPost (c : HCmd) (s : State) : Answer := s.go (·.rxBufPost c)

end Sys2Proof.Machine
end

