-- ==== Sys2Proof/Machine/Sluices.lean ====
section
/-! DEFINITION. Loading, starting and stopping sluice lists (R275–R279, R295). -/
namespace Sys2Proof.Machine

/-- States of R279. -/
def Sluice.state (x : Sluice) : Nat :=
  match x.active, x.pending, x.stopAt with
  | none, none, _ => 0
  | none, some _, _ => 1
  | some _, some _, _ => 3
  | some _, none, some _ => 4
  | some _, none, none => 2

/-- The registers that show a port's lists: STATE, GATES and CUR_ENTRY as device time gives them (R276, R279). -/
def Dev.showSluice (d : Dev) (p : Nat) : Dev :=
  let x := d.sluice p
  let d := d.setI uSLC SLC_PORT_STATUS.STATE p x.state
  match x.active with
  | none => (d.setI uSLC SLC_PORT_STATUS.GATES p 0xFF).setI uSLC SLC_PORT_STATUS.CUR_ENTRY p 0
  | some l =>
    let r := l.at d.now
    (d.setI uSLC SLC_PORT_STATUS.GATES p r.2.1).setI uSLC SLC_PORT_STATUS.CUR_ENTRY p r.1

/-- First of `base + k × step`, k ≥ 0, that is at least `t`. -/
def firstAtOrAfter (base step t : Nat) : Nat :=
  if t ≤ base then base else base + (t - base + step - 1) / max 1 step * step

/-- A list's next cycle boundary at or after `t` (R278). -/
def SluiceList.boundary (l : SluiceList) (t : Nat) : Nat := firstAtOrAfter l.start l.cycle t

/-- A port's lists are put in place. -/
def Dev.putSluice (d : Dev) (p : Nat) (x : Sluice) : Dev := (d.setSluice p x).showSluice p

/-- Is a start, switch or stop under way less than 1 µs away (R279)? -/
def Sluice.near (x : Sluice) (now : Nat) : Bool :=
  match x.pending, x.stopAt with
  | some (_, t), _ => decide (t < now + 1000)
  | none, some t => decide (t < now + 1000)
  | none, none => false

/-- What a SLUICE_LOAD without STOP does in IDLE or RUNNING: the new list waits for its start or for the switch. -/
def Sluice.load (x : Sluice) (l : SluiceList) : Sluice :=
  match x.active with
  | none => { x with pending := some (l, l.start), stopAt := none }
  | some a => { x with pending := some (l, a.boundary l.start), stopAt := none }

/-- What STOP does in RUNNING; elsewhere nothing is left to stop. -/
def Sluice.stop (x : Sluice) (now : Nat) : Sluice :=
  match x.active with
  | none => { x with pending := none, stopAt := none }
  | some a => { x with pending := none, stopAt := some (a.boundary (now + 1)) }

/-- The entries of a SLUICE_LOAD block, none when one is bad (R276, R295). -/
def readEntries (block : List Byte) (count : Nat) : Option (List (Nat × Nat)) :=
  (List.range count).foldr (fun i acc =>
    match acc with
    | none => none
    | some es =>
      let iv := leAt block (8 * i + 4) 4
      if leAt block (8 * i + 1) 3 = 0 ∧ 32 ≤ iv ∧ iv ≤ 1000000000 then some ((leAt block (8 * i) 1, iv) :: es) else none) (some [])

/-- SLUICE_LOAD under R279, once its parameters are good. `new` is the list to load, none for STOP. -/
def Dev.sluiceAct (d : Dev) (p : Nat) (replace : Bool) (new : Option SluiceList) : Dev × Reply :=
  let x := d.sluice p
  let disc (d : Dev) : Dev := d.raise uSLC 0x11 (leBytes 1 p)
  let start : Nat := match new with
    | some l => l.start
    | none => 0
  if x.near d.now then (d, .fail stRETRY_LATER)
  else match x.state, new with
    | 0, none => (d, .ok)
    | 0, some l => (d.putSluice p (x.load l), .ok start)
    | 1, none => (disc (d.putSluice p { x with pending := none }), .ok)
    | 1, some l => if replace then (disc (d.putSluice p (({ x with pending := none } : Sluice).load l)), .ok start)
                   else (d, .fail stRETRY_LATER)
    | 2, none => (d.putSluice p (x.stop d.now), .ok)
    | 2, some l => (d.putSluice p (x.load l), .ok start)
    | _, n =>
      if replace then
        let y : Sluice := { x with pending := none, stopAt := none }
        (disc (d.putSluice p (match n with | some l => y.load l | none => y.stop d.now)), .ok start)
      else (d, .fail stRETRY_LATER)

/-- Parameter table of SLUICE_LOAD (R279). -/
def Dev.sluiceLoadParams (d : Dev) (c : HCmd) : List Param :=
  [c.must 0 6 0 (fun p => d.portInUse p), pAny 0 7 7, pAny 1 0 0, c.zero 1 7 1,
   c.must 2 10 0 (fun n => decide (1 ≤ n ∧ n ≤ 1024)), c.zero 2 15 11, pAny 8 63 0,
   c.must 16 31 0 (fun n => decide (1000 ≤ n ∧ n ≤ 1000000000)), pAny 24 63 0]

/-- SLUICE_LOAD (0x0305). -/
def Dev.sluiceLoad (d : Dev) (c : HCmd) : Dev :=
  let stop : Bool := c.par 0 7 7 == 1
  let p := c.par 0 6 0
  let count := c.par 2 10 0
  let cycle := c.par 16 31 0
  d.commandNow c 0x0305 (d.sluiceLoadParams c) (fun d =>
    let replace : Bool := c.par 1 0 0 == 1
    if d.svc uSLC ≠ sACTIVE then (d, .fail stUNIT_UNAVAILABLE)
    else if ¬ c.readOk then (d.dmaFailed, .fail stDATA_ERROR)
    else d.sluiceAct p replace (if stop then none else some ⟨(readEntries c.block count).getD [], cycle,
      firstAtOrAfter (c.par 8 63 0) cycle (d.now + 1000)⟩)) (blk := (readEntries c.block count).isSome)

/-- SLUICE_SWITCHED (R278, R279). -/
def Dev.switched (d : Dev) (p time kind : Nat) : Dev :=
  (d.raise uSLC 0x10 (leBytes 8 time ++ leBytes 1 p ++ leBytes 1 kind)).tally uSLC 0x22 1

/-- SLUICE_START: device time reached the pending list's start or switch time. -/
def Dev.sluiceStart (d : Dev) (p : Nat) : Dev :=
  let x := d.sluice p
  match x.pending with
  | some (l, t) => if t ≤ d.now then (d.putSluice p { x with active := some l, pending := none }).switched p t 0 else d
  | none => d

/-- SLUICE_STOP: the stopping list's cycle ended. -/
def Dev.sluiceStop (d : Dev) (p : Nat) : Dev :=
  match (d.sluice p).stopAt with
  | some t => if t ≤ d.now then (d.putSluice p {}).switched p t 1 else d
  | none => d

/-- SLUICE_ENTRY_CHANGE: the entry that device time gives takes force (R276). -/
def Dev.sluiceEntryChange (d : Dev) (p : Nat) : Dev := if p < 128 then d.showSluice p else d

def execSluiceLoad (c : HCmd) (s : State) : Answer := s.go (·.sluiceLoad c)
def execSluiceStart (port : Nat) (s : State) : Answer := s.go (·.sluiceStart port)
def execSluiceStop (port : Nat) (s : State) : Answer := s.go (·.sluiceStop port)
def execSluiceEntryChange (port : Nat) (s : State) : Answer := s.go (·.sluiceEntryChange port)

end Sys2Proof.Machine
end

