-- ==== Sys2Proof/Machine/Svc.lean ====
section
/-! DEFINITION. The service cluster's firmware services: task restarts, BFD sessions, learn export and telemetry
(R437–R450). -/
namespace Sys2Proof.Machine

/-! ### Commands that end from outside (R439, R464, R483) -/

/-- Take a command off everything that would complete it later. -/
def Dev.forget (d : Dev) (t : Ticket) : Dev :=
  let no (o : Option Ticket) : Option Ticket := if o = some t then none else o
  { d with
    hif := { d.hif with fences := d.hif.fences.filter (fun f => !(f.ticket == t))
                        parked := d.hif.parked.filter (fun p => !(p.ticket == t)) }
    sch := { d.sch with
      nodes := d.sch.nodes.map (fun e => (e.1, { e.2 with sets := e.2.sets.filter (fun x => !(x.ticket == t)) }))
      meters := d.sch.meters.map (fun e => (e.1, { e.2 with sets := e.2.sets.filter (fun x => !(x.ticket == t)) }))
      bufs := d.sch.bufs.filter (fun b => !(b.ticket == t)) }
    fwd := { d.fwd with swaps := d.fwd.swaps.filter (fun x => !(x.ticket == t))
                        flushes := d.fwd.flushes.filter (fun x => !(x.ticket == t)) }
    fw := { d.fw with held := d.fw.held.filter (fun c => !(c.ticket == t)), burn := d.fw.burn.map (fun b => (b.1, no b.2)) }
    rid := { d.rid with
      outs := d.rid.outs.filter (fun o => !(o.ticket == t))
      returns := d.rid.returns.filter (fun o => !(o.ticket == t))
      tests := d.rid.tests.map (fun e => (e.1, { e.2 with ticket := no e.2.ticket })) }
    panel := { d.panel with ports := d.panel.ports.map (fun e => (e.1, { e.2 with commit := no e.2.commit })) }
    agents := d.agents.map (fun e => (e.1, { e.2 with waiting := no e.2.waiting })) }

/-- A command in flight ends with this reply, whatever it waited for. -/
def Dev.abort (d : Dev) (t : Ticket) (r : Reply) : Dev :=
  if d.inFlight t then (d.forget t).finish t r else d

/-- TASK_RESTART: a firmware task restarts, 0 for poisoned data and 1 for a lost core, and the commands it was carrying out
end with ABORTED_FAULT (R439). -/
def Dev.taskRestart (d : Dev) (task why : Nat) (cs : List Ticket) : Dev :=
  let d := (d.bump uSVC SVC_TASK_RESTART.COUNT).raise uSVC 0x10 (leBytes 1 task ++ leBytes 1 why)
  cs.foldl (fun d t => d.abort t (.fail stABORTED_FAULT)) d

/-! ### BFD sessions (R441–R446) -/

def uLSE : Nat := 731

def Dev.bfd (d : Dev) (n : Nat) : Option Bfd := d.svcs.bfd.get? [n]

/-- Store or remove a session; LSE_STATUS counts those enabled and those Up. -/
def Dev.setBfd (d : Dev) (n : Nat) (b : Option Bfd) : Dev :=
  let t := d.svcs.bfd.put [n] b
  let d := { d with svcs := { d.svcs with bfd := t } }
  (d.set uLSE LSE_STATUS.SESSIONS_EN ((t.filter (fun e => e.2.leaving.isNone)).length)).set uLSE LSE_STATUS.SESSIONS_UP
    ((t.filter (fun e => e.2.state == 3)).length)

def bfdADMIN : Nat := 0
def bfdDOWN : Nat := 1
def bfdINIT : Nat := 2
def bfdUP : Nat := 3

/-- Desired Min TX Interval as sent: at least 1 s while the session is not Up (RFC 5880, 6.8.3). -/
def Bfd.desired (b : Bfd) : Nat := if b.state = bfdUP then b.desMinTx else max 1000000 b.desMinTx

/-- Interval of periodic packets, µs, 0 for none: the longer of this side's in force and the peer's Required Min RX
(RFC 5880, 6.8.7). -/
def Bfd.txEvery (b : Bfd) : Nat := if b.remoteRx = 0 then 0 else max (b.oldTx.getD b.desired) b.remoteRx

/-- Detection time, ns (RFC 5880, 6.8.4). -/
def Bfd.detectTime (b : Bfd) : Nat := b.remoteMult * max (b.oldRx.getD b.reqMinRx) b.remoteTx * 1000

/-- Authentication type of a session with AUTH_EN: 4 Keyed SHA1, 5 Meticulous Keyed SHA1. -/
def Bfd.authType (b : Bfd) : Nat := if b.meticulous then 5 else 4

/-- The authentication section, whose last 20 bytes are `tail` (RFC 5880, 4.4). -/
def Bfd.auth (b : Bfd) (tail : List Byte) : List Byte :=
  leBytes 1 b.authType ++ leBytes 1 28 ++ leBytes 1 b.keyId ++ leBytes 1 0 ++ beBytes 4 b.authSeq ++ slice tail 0 20

/-- The control packet (RFC 5880, 4.1), with its hash when the session authenticates. -/
def Bfd.control (b : Bfd) (final : Bool) : List Byte :=
  let flags := b.state * 64 + (b.poll && !final).toNat * 32 + final.toNat * 16 + b.authEn.toNat * 4
  let p := leBytes 1 (32 + b.diag) ++ leBytes 1 flags ++ leBytes 1 b.mult ++ leBytes 1 (if b.authEn then 52 else 24)
    ++ beBytes 4 b.localDisc ++ beBytes 4 b.remoteDisc ++ beBytes 4 b.desired ++ beBytes 4 b.reqMinRx ++ beBytes 4 0
  if b.authEn then p ++ b.auth (sha1 (p ++ b.auth b.key)) else p

/-- Where the IP header of an Ethernet frame begins, past any VLAN tags, and whether it is IPv6. -/
def ipStart : Nat → List Byte → Nat → Option (Bool × Nat)
  | 0, _, _ => none
  | n + 1, f, a =>
    match beAt f a 2 with
    | 0x0800 => some (false, a + 2)
    | 0x86DD => some (true, a + 2)
    | t => if isTpid t then ipStart n f (a + 4) else none

/-- Where the header after an IP header without extensions begins. -/
def ipNext (f : List Byte) (v6 : Bool) (a : Nat) : Nat := if v6 then a + 40 else a + 4 * (beAt f a 1 % 16)

/-- Checksum of an upper-layer header and its data over the IPv6 pseudo-header. -/
def v6Sum (f : List Byte) (ip up proto field : Nat) : Nat :=
  let g := patch f field [0, 0]
  let n := f.length - up
  65535 - fold16 (fold16 (sumWords 16 g (ip + 8) + n + proto + sumWords ((n + 1) / 2) g up))

/-- Fill the lengths and checksums of a UDP frame (R444). -/
def fillUdp (f : List Byte) : List Byte :=
  match ipStart 5 f 12 with
  | none => f
  | some (v6, ip) =>
    let udp := ipNext f v6 ip
    let f := patch f (udp + 4) (beBytes 2 (f.length - udp))
    if v6 then
      let f := patch f (ip + 4) (beBytes 2 (f.length - ip - 40))
      let c := v6Sum f ip udp 17 (udp + 6)
      patch f (udp + 6) (beBytes 2 (if c = 0 then 65535 else c))
    else
      let f := patch f (ip + 2) (beBytes 2 (f.length - ip))
      patch f (ip + 10) (beBytes 2 (headerSum f ip ((udp - ip) / 2) (ip + 10)))

/-- Has the packet left its sender: not one that found no cell, or the distributor's store full? -/
def Sent.left : Sent → Bool
  | .queued _ _ => true
  | .injected => true
  | .noCell => false
  | .storeFull => false

/-- Send one packet of a session, queued for a system port or injected at an input port; a packet that is sent counts (R444). -/
def Dev.bfdSend (d : Dev) (n : Nat) (b : Bfd) (final : Bool) : Dev :=
  let b := { b with authSeq := if b.authEn then (b.authSeq + 1) % 2 ^ 32 else b.authSeq }
  let bytes := padded (fillUdp (b.template ++ b.control final))
  let port := b.dest % 128
  let r := if b.destKind = 0 then d.sendQueued 9 0 bytes b.dest b.cls {}
    else if d.portInUse port ∧ (flumes (latOf port)).any (fun u => d.svc u == sACTIVE) then d.sendInjected 9 0 bytes port
    else (d, .storeFull)
  if r.2.left then ((r.1.setBfd n (some { b with tx := (b.tx + 1) % 2 ^ 32 })).bump uLSE LSE_TX.COUNT).tally uLSE 0x20 1
  else r.1.setBfd n (some b)

/-- A session changes state (R442): BFD_STATE, UP_SINCE and DOWN_COUNT. A session that comes Up with an interval below 1 s
starts a Poll sequence; one that goes Down while HEADLESS with BFD_WITHDRAW set has its next hop to be withdrawn (R446). -/
def Dev.bfdTo (d : Dev) (n : Nat) (b : Bfd) (new diag : Nat) : Dev :=
  if b.state = new then d.setBfd n (some b) else
  let b' : Bfd := { b with
    state := new, diag := diag
    upSince := if new = bfdUP then d.now else b.upSince
    downs := if b.state = bfdUP then (b.downs + 1) % 2 ^ 32 else b.downs
    poll := new == bfdUP && decide (b.desMinTx < 1000000)
    oldTx := none, oldRx := none
    toWithdraw := new == bfdDOWN && d.flag 0 HDL_STATUS.HEADLESS && d.flag 0 HDL_CFG.BFD_WITHDRAW
    nextTx := if new = bfdUP then min b.nextTx (d.now + 1000 * b.desMinTx) else b.nextTx }
  (d.setBfd n (some b')).raise uLSE 0x10 (leBytes 2 n ++ leBytes 1 b.state ++ leBytes 1 new ++ leBytes 1 diag)

/-- BFD_TX: a session's periodic packet is due. The interval is cut by the jitter of RFC 5880, 6.8.7: up to 25 %, and at
least 10 % with a multiplier of 1. A session that is being removed goes with its third AdminDown packet (R445). -/
def Dev.bfdTx (d : Dev) (n : Nat) : Dev :=
  match d.bfd n with
  | none => d
  | some b =>
    if d.svc uLSE ≠ sACTIVE ∨ d.now < b.nextTx ∨ (b.txEvery = 0 ∧ b.leaving.isNone) then d else
    let j := Config.bfdJitter d.draws
    let cut := if b.mult = 1 then 10 + j % 16 else j % 26
    let every := if b.txEvery = 0 then b.desired else b.txEvery
    let b := { b with nextTx := d.now + every * 10 * (100 - cut) }
    let d := { d with draws := d.draws + 1 }
    match b.leaving with
    | none => d.bfdSend n b false
    | some k =>
      let d := d.bfdSend n { b with leaving := some (k - 1) } false
      if k ≤ 1 then d.setBfd n none else d

/-- What the engine reads from a frame: the IP version and header, TTL, UDP destination port and control packet. -/
structure BfdFrame where
  v6 : Bool
  ip : Nat
  ttl : Nat
  dport : Nat
  ctl : List Byte
  deriving DecidableEq, Repr

def bfdFrame (f : List Byte) : Option BfdFrame :=
  match ipStart 5 f 12 with
  | none => none
  | some (v6, ip) =>
    let udp := ipNext f v6 ip
    let proto := if v6 then beAt f (ip + 6) 1 else beAt f (ip + 9) 1
    let ulen := beAt f (udp + 4) 2
    if proto ≠ 17 ∨ f.length < udp + ulen ∨ ulen < 8 then none
    else some ⟨v6, ip, beAt f (if v6 then ip + 7 else ip + 8) 1, beAt f (udp + 2) 2, slice f (udp + 8) (ulen - 8)⟩

/-- The checks of RFC 5880, 6.8.6, that need no session. -/
def bfdCtlOk (c : List Byte) : Bool :=
  let len := beAt c 3 1
  let auth := bit (beAt c 1 1) 2
  beAt c 0 1 / 32 == 1 && decide ((if auth then 26 else 24) ≤ len) && decide (len ≤ c.length)
  && beAt c 2 1 != 0 && !bit (beAt c 1 1) 0 && beAt c 4 4 != 0
  && (beAt c 8 4 != 0 || decide (beAt c 1 1 / 64 ≤ bfdDOWN))

/-- A session's destination address, from its template, and a frame's source address. -/
def Bfd.peer (b : Bfd) : Option (List Byte) :=
  (ipStart 5 b.template 12).map (fun x => if x.1 then slice b.template (x.2 + 24) 16 else slice b.template (x.2 + 16) 4)
def BfdFrame.source (x : BfdFrame) (f : List Byte) : List Byte := if x.v6 then slice f (x.ip + 8) 16 else slice f (x.ip + 12) 4

/-- The session a packet belongs to (R443). -/
def Dev.bfdMatch (d : Dev) (k : Punt) (x : BfdFrame) : Option (Nat × Bfd) :=
  let your := beAt x.ctl 8 4
  (d.svcs.bfd.find? (fun e =>
    if your = 0 then e.2.peer == some (x.source k.bytes) && (e.2.multihop || e.2.dest == k.srcSysport)
    else e.2.localDisc == your)).map (fun e => (e.1.headD 0, e.2))

/-- May a packet's sequence number follow the last one accepted (RFC 5880, 6.7.4)? -/
def Bfd.seqOk (b : Bfd) (seq : Nat) : Bool :=
  match b.rcvSeq with
  | none => true
  | some last =>
    let step := (seq + 2 ^ 32 - last) % 2 ^ 32
    decide (step ≤ 3 * b.mult) && (!b.meticulous || decide (1 ≤ step))

/-- The session as a packet finds it: the sequence number is forgotten once two detection times have passed without a packet
(RFC 5880, 6.8.1). -/
def Bfd.heard (b : Bfd) (now : Nat) : Bfd := if b.rcvAt + 2 * b.detectTime ≤ now then { b with rcvSeq := none } else b

/-- The checks that need the session: TTL and port by R441, authentication by RFC 5880, 6.7.4. -/
def Bfd.accepts (b : Bfd) (x : BfdFrame) : Bool :=
  let a := x.ctl.drop 24
  (if b.multihop then x.dport == 4784 else x.dport == 3784 && x.ttl == 255)
  && (if bit (beAt x.ctl 1 1) 2 then
        b.authEn && beAt x.ctl 3 1 == 52 && beAt a 0 1 == b.authType && beAt a 1 1 == 28 && beAt a 2 1 == b.keyId
        && b.seqOk (beAt a 4 4)
        && slice a 8 20 == sha1 (slice x.ctl 0 24 ++ slice a 0 8 ++ slice b.key 0 20)
      else !b.authEn)

/-- The state a packet takes a session to (RFC 5880, 6.8.6), with the diagnostic. -/
def Bfd.next (b : Bfd) (sta : Nat) : Nat × Nat :=
  if sta = bfdADMIN then (if b.state = bfdDOWN then (b.state, b.diag) else (bfdDOWN, 3))
  else if b.state = bfdDOWN then
    (if sta = bfdDOWN then (bfdINIT, 0) else if sta = bfdINIT then (bfdUP, 0) else (b.state, b.diag))
  else if b.state = bfdINIT then (if bfdINIT ≤ sta then (bfdUP, 0) else (b.state, b.diag))
  else if sta = bfdDOWN then (bfdDOWN, 3) else (b.state, b.diag)

/-- BFD_RX: the oldest packet that waits for the engine. -/
def Dev.bfdRx (d : Dev) : Dev :=
  match d.svcs.bfdIn with
  | [] => d
  | k :: rest =>
    let d := { d with svcs := { d.svcs with bfdIn := rest } }
    if d.svc uLSE ≠ sACTIVE then d else
    match (bfdFrame k.bytes).filter (fun x => bfdCtlOk x.ctl) with
    | none => d.bump uLSE LSE_RX_BAD.COUNT
    | some x =>
      match d.bfdMatch k x with
      | none => d.bump uLSE LSE_RX_NOMATCH.COUNT
      | some (n, b) =>
        if ¬ (b.heard d.now).accepts x then d.bump uLSE LSE_RX_BAD.COUNT
        else if b.state = bfdADMIN then d
        else
          let c := x.ctl
          let fin := bit (beAt c 1 1) 4
          let b := { b with
            rx := (b.rx + 1) % 2 ^ 32
            remote := beAt c 1 1 / 64, remoteDiag := beAt c 0 1 % 32, remoteDisc := beAt c 4 4, remoteMult := beAt c 2 1
            remoteTx := beAt c 12 4, remoteRx := beAt c 16 4
            rcvSeq := if b.authEn then some (beAt c 28 4) else none
            rcvAt := d.now
            poll := b.poll && !fin
            oldTx := if fin then none else b.oldTx
            oldRx := if fin then none else b.oldRx }
          let b := { b with detectAt := some (d.now + b.detectTime) }
          let s := b.next (beAt c 1 1 / 64)
          let d := (d.tally uLSE 0x21 1).bfdTo n b s.1 s.2
          if bit (beAt c 1 1) 5 then
            match d.bfd n with
            | some b => d.bfdSend n b true
            | none => d
          else d

/-- BFD_DETECT_EXPIRE: no packet within the detection time; the session goes Down with diagnostic 1 (R442). -/
def Dev.bfdDetectExpire (d : Dev) (n : Nat) : Dev :=
  match d.bfd n with
  | none => d
  | some b =>
    match b.detectAt with
    | none => d
    | some t =>
      if d.svc uLSE = sACTIVE ∧ t ≤ d.now then
        let b := { b with detectAt := none, remoteDisc := 0 }
        if b.state = bfdINIT ∨ b.state = bfdUP then d.bfdTo n b bfdDOWN 1 else d.setBfd n (some b)
      else d

/-- The 32 bytes of a session's READ record (R445). -/
def Bfd.record (b : Bfd) : List Byte :=
  leBytes 1 (b.state + b.remote * 4) ++ leBytes 1 b.diag ++ leBytes 1 b.remoteDiag ++ leBytes 1 0 ++ leBytes 4 b.remoteDisc
  ++ leBytes 4 b.tx ++ leBytes 4 b.rx ++ leBytes 8 b.upSince ++ leBytes 4 b.downs ++ leBytes 4 0

/-- A session with the parameters of a BFD_SESSION_SET. -/
def HCmd.bfdParams (c : HCmd) (b : Bfd) : Bfd :=
  let len := c.par 24 7 0
  { b with
    multihop := c.par 2 0 0 == 1, destKind := c.par 2 1 1, authEn := c.par 2 2 2 == 1, mult := c.par 3 7 0
    localDisc := c.par 4 31 0, desMinTx := c.par 8 31 0, reqMinRx := c.par 12 31 0
    dest := c.par 16 16 0, cls := c.par 16 19 17
    withdraw := if c.par 20 20 20 = 1 then some (c.par 20 19 0) else none
    template := slice c.block 0 len, keyId := c.par 25 7 0, key := slice c.block len 20 }

/-- An interval R441 allows, µs; 10 ms or more with authentication. -/
def bfdInterval (auth : Bool) (v : Nat) : Bool := decide ((if auth then 10000 else 3300) ≤ v ∧ v ≤ 10000000)

/-- Parameter table of BFD_SESSION_SET (R445). -/
def HCmd.bfdSessionSetParams (c : HCmd) : List Param :=
  let read : Bool := c.par 0 14 14 == 1
  let en : Bool := c.par 0 15 15 == 1 && !read
  let auth : Bool := c.par 2 2 2 == 1
  let ok (f : Nat → Bool) (v : Nat) : Bool := !en || f v
  [pAny 0 15 0, pAny 2 2 0, c.zero 2 7 3, c.must 3 7 0 (ok (· != 0)), c.must 4 31 0 (ok (· != 0)),
   c.must 8 31 0 (ok (bfdInterval auth)), c.must 12 31 0 (ok (bfdInterval auth)), pAny 16 19 0, c.zero 16 31 20,
   pAny 20 20 0, c.zero 20 31 21, c.must 24 7 0 (ok (fun l => decide (42 ≤ l ∧ l ≤ 160))), pAny 25 7 0, c.zero 26 47 0,
   pAny 32 63 0, pAny 40 63 0]

/-- BFD_SESSION_SET (0x0608). The block is the template, then the key. A change to an Up session takes effect through a Poll
sequence: a transmit interval longer, and a receive interval shorter, than the one in force waits for its end. -/
def Dev.bfdSessionSet (d : Dev) (c : HCmd) : Dev :=
  let n := c.par 0 13 0
  let read : Bool := c.par 0 14 14 == 1
  let en : Bool := c.par 0 15 15 == 1 && !read
  d.commandNow c 0x0608 c.bfdSessionSetParams (fun d =>
    if d.svc uLSE ≠ sACTIVE then (d, .fail stUNIT_UNAVAILABLE)
    else if read then d.hostBlock c (c.par 32 63 0) ((d.bfd n).map Bfd.record |>.getD (List.replicate 32 0)) 0
    else if ¬ en then
      match d.bfd n with
      | none => (d, .ok)
      | some b => (d.bfdTo n { b with leaving := some 3, nextTx := d.now, detectAt := none } bfdADMIN 7, .ok)
    else if ¬ c.readOk then (d.dmaFailed, .fail stDATA_ERROR)
    else if d.svcs.bfd.any (fun e => e.1 != [n] && e.2.localDisc == c.par 4 31 0) then (d, .fail stEXISTS)
    else
      match (d.bfd n).filter (fun b => b.leaving.isNone) with
      | none =>
        let b := c.bfdParams
          { nextTx := d.now, authSeq := (Config.bfdAuthSeq d.draws).toNat, meticulous := Config.bfdMeticulous d.draws }
        ({ d with draws := d.draws + 1 }.setBfd n (some b), .ok)
      | some old =>
        let b := c.bfdParams old
        let up : Bool := old.state == bfdUP
        let changed : Bool := old.desMinTx != b.desMinTx || old.reqMinRx != b.reqMinRx || old.mult != b.mult
        let tx := old.oldTx.getD old.desMinTx
        let rx := old.oldRx.getD old.reqMinRx
        let b := { b with
          poll := old.poll || (up && changed)
          oldTx := if up ∧ tx < b.desMinTx then some tx else none
          oldRx := if up ∧ b.reqMinRx < rx then some rx else none }
        (d.setBfd n (some b), .ok))

/-! #### Withdrawing next hops (R446) -/

/-- ECMP groups: BASE and SIZE. -/
def Dev.ecmpGroups (d : Dev) : List (Nat × Nat) :=
  (d.fwd.indexed.filter (fun e => e.1.headD 0 == tGROUP)).map (fun e => (resAt e.2 0 20 0, resAt e.2 4 10 0))

/-- Next hop that a member slot names. -/
def Dev.memberNh (d : Dev) (i : Nat) : Nat := resAt (d.ixAt tMEMBER i) 0 19 0

def Dev.putMember (d : Dev) (i nh : Nat) : Dev :=
  { d with fwd := { d.fwd with indexed := d.fwd.indexed.setD 0 [tMEMBER, i] (setBits (d.ixAt tMEMBER i) 19 0 nh) } }

/-- Is this next hop that of a session that is not Up but Down? -/
def Dev.nhDown (d : Dev) (nh : Nat) : Bool := d.svcs.bfd.any (fun e => e.2.withdraw == some nh && e.2.state == bfdDOWN)

/-- Withdraw a next hop from one group: its slots take the group's other members whose sessions are not Down, in turn. A group
with none keeps its slots. -/
def Dev.withdrawFrom (d : Dev) (nh : Nat) (g : Nat × Nat) : Dev :=
  let slots := (List.range g.2).map (· + g.1)
  let others := ((slots.map d.memberNh).eraseDups).filter (fun m => m != nh && !d.nhDown m)
  let mine := slots.filter (fun i => d.memberNh i == nh)
  match others with
  | [] => d
  | o :: os =>
    ((mine.zip (List.range mine.length)).foldl (fun (d : Dev) x =>
      let m := (o :: os).getD (x.2 % (os.length + 1)) o
      let d := d.putMember x.1 m
      { d with svcs := { d.svcs with withdrawn := d.svcs.withdrawn.insert [x.1] (nh :: d.svcs.withdrawn.getD [] [x.1]) } }) d)

/-- What is left of a slot's withdrawals, newest first, once `nh` is restored: those older than its own. -/
def olderThan (nh : Nat) : List Nat → List Nat
  | [] => []
  | x :: xs => if x = nh then xs else olderThan nh xs

/-- Restore a next hop to every slot it was withdrawn from. -/
def Dev.restoreNh (d : Dev) (nh : Nat) : Dev :=
  (d.svcs.withdrawn.filter (fun e => e.2.contains nh)).foldl (fun (d : Dev) e =>
    let i := e.1.headD 0
    let d := d.putMember i nh
    { d with svcs := { d.svcs with withdrawn := d.svcs.withdrawn.setD [] [i] (olderThan nh e.2) } }) d

/-- BFD_WITHDRAW of a session: one that went Down while HEADLESS has its next hop withdrawn, one that is Up has it restored, and each that
changed a slot is logged (R393, R446). -/
def Dev.bfdWithdraw (d : Dev) (n : Nat) : Dev :=
  match d.bfd n with
  | none => d
  | some b =>
    match b.withdraw with
    | none => d
    | some nh =>
      let gone : Bool := d.svcs.withdrawn.any (fun e => e.2.contains nh)
      if b.state = bfdDOWN ∧ b.toWithdraw ∧ ¬ gone then
        let e := (d.ecmpGroups).foldl (fun d g => d.withdrawFrom nh g) (d.setBfd n (some { b with toWithdraw := false }))
        if e.svcs.withdrawn = d.svcs.withdrawn then e else e.writeDecision 4 uLSE nh
      else if b.state = bfdUP ∧ gone then (d.restoreNh nh).writeDecision 4 uLSE nh
      else d

/-! ### Learn export (R448) -/

/-- LEARN_EXPORT_DELIVER of one REASON: a full buffer, or what 1 ms has gathered. Entries that find no buffer are dropped. -/
def Dev.learnExportDeliver (d : Dev) (reason : Nat) (writeOk : Bool) : Dev :=
  match d.fwd.exports.get? [reason] with
  | none => d
  | some (rs, since) =>
    let q := d.get uSVC SVC_CFG.LEARN_RXQ
    let put (d : Dev) (l : List (List Byte)) : Dev :=
      { d with fwd := { d.fwd with exports := d.fwd.exports.put [reason] (if l.isEmpty then none else some (l, d.now)) } }
    let late : Bool := decide (since + 1000000 ≤ d.now)
    match (if d.ringState (ringIx kRXQ q) = rENABLED then d.postedTo q else none) with
    | some p =>
      let cap := (p.length - 32) / 64
      if cap ≤ rs.length ∨ late then
        let out := rs.take cap
        ((put d (rs.drop cap)).add uSVC SVC_LEARN_EXPORTED.COUNT out.length |>.deliverOwn q reason 0 out.flatten writeOk).1
      else d
    | none =>
      if late then
        let d := (put d []).add uSVC SVC_LEARN_EXPORT_DROP.COUNT rs.length
        d.raiseOnce uSVC 0x12 0 (fun _ => leBytes 4 (d.get uSVC SVC_LEARN_EXPORT_DROP.COUNT))
      else d

/-! ### Telemetry (R449, R450) -/

/-- TELEM_WINDOW: TELEM_SWEEPS sweeps have ended. -/
def Dev.telemWindow (d : Dev) : Dev :=
  if max 1 (d.get uSVC SVC_CFG.TELEM_SWEEPS) ≤ d.telem.sweeps then
    let w := (d.telem.window + 1) % 2 ^ 32
    ({ d with telem := { cur := [], frozen := d.telem.cur, sweeps := 0, window := w } }).raise uSVC 0x11 (leBytes 4 w)
  else d

/-- Smallest bucket at which the running count reaches `pct` per cent of `all`. -/
def percentile (buckets : List Nat) (all pct : Nat) : Nat :=
  ((List.range 16).find? (fun b => decide (all * pct ≤ 100 * (buckets.take (b + 1)).sum))).getD 15

/-- Highest bucket reached. -/
def topBucket (buckets : List Nat) : Nat :=
  (List.range 16).foldl (fun m b => if 0 < buckets.getD b 0 then b else m) 0

/-- A 16-byte telemetry record (R450). -/
def Hist.record (h : Hist) (i : Nat) : List Byte :=
  let n := h.buckets.sum
  leBytes 4 i ++ leBytes 2 (min n 0xFFFF) ++ leBytes 1 (percentile h.buckets n 50) ++ leBytes 1 (percentile h.buckets n 90)
  ++ leBytes 1 (percentile h.buckets n 99) ++ leBytes 1 (topBucket h.buckets) ++ leBytes 2 0 ++ leBytes 4 (cap32 h.maxDepth)

/-- Parameter table of TELEM_READ (R450). -/
def HCmd.telemReadParams (c : HCmd) : List Param :=
  let first := c.par 0 20 0
  [c.must 0 20 0 (fun f => decide (f < samplerCount)), c.zero 0 31 21,
   c.must 4 16 0 (fun n => decide (1 ≤ n ∧ n ≤ 65536 ∧ first + n ≤ samplerCount)), c.zero 4 31 17, pAny 8 63 0]

/-- TELEM_READ (0x0609). -/
def Dev.telemRead (d : Dev) (c : HCmd) : Dev :=
  let first := c.par 0 20 0
  let n := c.par 4 16 0
  d.commandNow c 0x0609 c.telemReadParams (fun d =>
    if d.telem.window = 0 then (d, .fail stRETRY_LATER)
    else d.hostBlock c (c.par 8 63 0)
      (((List.range n).map (fun i => (d.telem.frozen.getD {} [first + i]).record (first + i))).flatten) d.telem.window)

def execTaskRestart (task why : Nat) (commands : List Ticket) (s : State) : Answer := s.go (·.taskRestart task why commands)
def execBfdTx (session : Nat) (s : State) : Answer := s.go (·.bfdTx session)
def execBfdRx (s : State) : Answer := s.go Dev.bfdRx
def execBfdDetectExpire (session : Nat) (s : State) : Answer := s.go (·.bfdDetectExpire session)
def execBfdSessionSet (c : HCmd) (s : State) : Answer := s.go (·.bfdSessionSet c)
def execBfdWithdraw (session : Nat) (s : State) : Answer := s.go (·.bfdWithdraw session)
def execLearnExportDeliver (reason : Nat) (writeOk : Bool) (s : State) : Answer := s.go (·.learnExportDeliver reason writeOk)
def execTelemWindow (s : State) : Answer := s.go Dev.telemWindow
def execTelemRead (c : HCmd) (s : State) : Answer := s.go (·.telemRead c)

end Sys2Proof.Machine
end

