-- ==== Sys2Proof/Machine/Agents.lean ====
section
/-! DEFINITION. Agents: loading, stopping, traps and restarts, and the calls of the Heneno Agent Interface but
hai_reg_read, which stands in RegAccess.lean (R454–R466). -/
namespace Sys2Proof.Machine

def agEMPTY : Nat := 0
def agLOADING : Nat := 1
def agRESTARTING : Nat := 3
def agSTOPPING : Nat := 4
def agFAILED : Nat := 5

def Dev.agState (d : Dev) (slot : Nat) : Nat := d.getI uSVC AGT_STATUS.STATE slot

/-- Slots whose quotas are taken (R459, R463). -/
def Dev.usedSlots (d : Dev) : List Nat := (List.range 64).filter (fun s => d.agState s != agEMPTY)

/-- SVC_STATUS shows the quotas taken. -/
def Dev.showQuotas (d : Dev) : Dev :=
  let us := d.usedSlots
  (d.set uSVC SVC_STATUS.AGENT_MEM_MIB (us.map (fun s => (d.agent s).memMib)).sum).set uSVC SVC_STATUS.SHARE_USED
    (us.map (fun s => (d.agent s).share)).sum

/-- A slot changes state: AGENT_STATE (R463, R467). -/
def Dev.agTo (d : Dev) (slot new : Nat) : Dev :=
  let old := d.agState slot
  let d := (d.setI uSVC AGT_STATUS.STATE slot new).showQuotas
  d.raise uSVC 0x13 (leBytes 1 slot ++ leBytes 1 old ++ leBytes 1 new)

/-- Change what a slot holds. -/
def Dev.onAgent (d : Dev) (slot : Nat) (f : Agent → Agent) : Dev := d.setAgent slot (f (d.agent slot))

/-! ### Loading (R457, R461) -/

/-- R457 over an image's header and module. -/
def Dev.agentImageBad (d : Dev) (img : List Byte) : Option Reply :=
  let h := slice img 0 256
  let key := d.store.keys.get? [leAt h 0x0C 1]
  let m := slice img 256 (leAt h 0x18 4)
  if leAt h 0 4 ≠ 0x54474148 ∨ leAt h 4 2 ≠ 1 ∨ 64 * 2 ^ 20 - 256 < leAt h 0x18 4 then some .badBlock
  else if leAt h 8 2 ≠ 0x2560 ∨ ¬ bit (leAt h 0x0A 2) d.majorStepping then some (.fail stBINDING_MISMATCH)
  else if leAt h 6 2 ≠ 1 then some (.fail stVERSION_REJECTED)
  else match key with
    | none => some (.fail stAUTH_FAILED)
    | some k =>
      if ¬ Config.ecdsaOk k (slice h 0 0xC0) (slice h 0xC0 64) then some (.fail stAUTH_FAILED)
      else if sha256 m ≠ slice h 0x40 32 then some (.fail stAUTH_FAILED)
      else if ¬ Config.moduleValid m then some .badBlock
      else none

/-- An agent's call begins: agent_start or agent_run (R455). -/
def Dev.callBegins (d : Dev) (slot : Nat) : Dev := (d.onAgent slot (fun a => { a with running := true, callFrom := d.now })).tally uSVC 0x20 1

/-- The slot takes the image: quotas reserved, agent_start called (R463). -/
def Dev.loadAgent (d : Dev) (slot : Nat) (c : HCmd) : Dev :=
  let img := slice c.block 0 (c.par 8 31 0)
  let h := slice img 0 256
  let a : Agent := {
    perm := c.par 2 15 0, pool := c.par 1 4 0, memMib := c.par 4 8 0, share := c.par 6 9 0, callMs := c.par 0x0C 9 0
    maxCmds := c.par 0x0E 8 0, inboxKib := c.par 0x1A 15 0, logRxq := c.par 0x18 5 0, logEn := c.par 0x18 6 6 == 1
    waiting := some c.ticket, hash := leAt (sha256 img) 0 8, keySlot := leAt h 0x0C 1, moduleSha := slice h 0x40 32
    image := img }
  let d := (d.setAgent slot a).setI uSVC AGT_STATUS.VERSION slot (leAt h 0x10 4)
  (d.agTo slot agLOADING).callBegins slot

/-- Would the sums of R459 be passed, the slot's own quotas apart? -/
def Dev.quotasPassed (d : Dev) (slot : Nat) (c : HCmd) : Bool :=
  let us := d.usedSlots.filter (fun s => s != slot)
  decide (2048 < (us.map (fun s => (d.agent s).memMib)).sum + c.par 4 8 0)
  || decide (18000 < (us.map (fun s => (d.agent s).share)).sum + c.par 6 9 0)

/-! ### Settling an agent's commands (R464) -/

/-- Has a command's unit started it? -/
def Dev.isStarted (d : Dev) (t : Ticket) : Bool :=
  d.fwd.swaps.any (fun w => w.ticket == t) || d.fwd.flushes.any (fun f => f.ticket == t)

/-- Settle the commands of an agent that traps or stops: those under way run on; those that have taken effect and wait for
their chain, and those not started, complete now. -/
def Dev.settleAgent (d : Dev) (slot : Nat) : Dev :=
  let mine (t : Ticket) : Bool := t.agent? == some slot
  let ps := d.hif.parked.filter (fun p => mine p.ticket)
  let d := { d with hif := { d.hif with
    chainNext := d.hif.chainNext.filter (fun c => !mine c.1)
    parked := d.hif.parked.filter (fun p => !mine p.ticket) } }
  let ts := (d.hif.inflight.filter (fun f => mine f.ticket)).map (·.ticket)
  let d := d.onAgent slot (fun a => if d.agState slot = agSTOPPING then a else { a with settling := ts })
  let d := ps.foldl (fun d p => d.finishCore p.ticket (.fail stABORTED_FAULT p.result) none) d
  let d := ((ts.filter (fun t => !d.isStarted t && !ps.any (fun p => p.ticket == t)))).foldl
    (fun d t => (d.forget t).finishCore t (.fail stABORTED_FAULT) none) d
  d.goOn

/-- An agent's slot goes to STOPPING (R463): no call begins any more, and the commands aborted are counted anew; those that an earlier
trap left running were counted by it. -/
def Dev.stopAgent (d : Dev) (slot : Nat) (waiting : Option Ticket) (next : Option HCmd) : Dev :=
  let d := d.onAgent slot (fun a => { a with waiting := waiting, replacing := next, timers := [], subs := [], aborted := 0 })
  (d.agTo slot agSTOPPING).settleAgent slot

/-- Parameter table of AGENT_LOAD (R461). -/
def HCmd.agentLoadParams (c : HCmd) : List Param :=
  let rng (off hi lo a b : Nat) : Param := c.must off hi lo (fun v => decide (a ≤ v ∧ v ≤ b))
  [pAny 0 6 0, c.zero 0 7 7, pAny 1 4 0, c.zero 1 7 5, c.must 2 15 0 (· < 256), rng 4 8 0 1 256, c.zero 4 15 9,
   rng 6 9 0 1 1000, c.zero 6 15 10, c.must 8 31 0 (fun n => decide (256 ≤ n ∧ n ≤ 64 * 2 ^ 20)), rng 0x0C 9 0 1 1000,
   c.zero 0x0C 15 10, rng 0x0E 8 0 1 256, c.zero 0x0E 15 9, pAny 0x10 63 0, pAny 0x18 6 0, c.zero 0x18 7 7,
   rng 0x1A 15 0 16 4096]

/-- AGENT_LOAD (0x0605). With REPLACE, R457 is checked before the occupant is stopped. -/
def Dev.agentLoad (d : Dev) (c : HCmd) : Dev :=
  let slot := c.par 0 5 0
  let replace : Bool := c.par 0 6 6 == 1
  d.command c 0x0605 c.agentLoadParams (fun d =>
    let st := d.agState slot
    if d.svc uSVC ≠ sACTIVE then (d, some (.fail stUNIT_UNAVAILABLE))
    else if st = agLOADING ∨ st = agSTOPPING then (d, some (.fail stRETRY_LATER))
    else if st ≠ agEMPTY ∧ ¬ replace then (d, some (.fail stEXISTS))
    else if d.quotasPassed slot c then (d, some (.fail stNO_RESOURCE))
    else if ¬ c.readOk then (d.dmaFailed, some (.fail stDATA_ERROR))
    else match d.agentImageBad (slice c.block 0 (c.par 8 31 0)) with
      | some r => (d, some r)
      | none => if st = agEMPTY then (d.loadAgent slot c, none) else (d.stopAgent slot none (some c), none))
    (blk := d.agentImageBad (slice c.block 0 (c.par 8 31 0)) != some .badBlock)

/-- Parameter table of AGENT_STOP (R462). -/
def HCmd.agentStopParams (c : HCmd) : List Param :=
  [pAny 0 5 0, c.zero 0 31 6]

/-- AGENT_STOP (0x0606). -/
def Dev.agentStop (d : Dev) (c : HCmd) : Dev :=
  let slot := c.par 0 5 0
  d.command c 0x0606 c.agentStopParams (fun d =>
    let st := d.agState slot
    if d.svc uSVC ≠ sACTIVE then (d, some (.fail stUNIT_UNAVAILABLE))
    else if st = agEMPTY then (d, some (.fail stNOT_FOUND))
    else if st = agLOADING ∨ st = agSTOPPING then (d, some (.fail stRETRY_LATER))
    else (d.stopAgent slot (some c.ticket) none, none))

/-- The slot is freed. -/
def Dev.freeAgent (d : Dev) (slot : Nat) : Dev := ({ d with agents := d.agents.erase [slot] }).agTo slot agEMPTY

/-- AGENT_STOPPED: the call has ended and every command has completed. A replacement load begins where the sums of R459 still have room for
it. -/
def Dev.agentStopped (d : Dev) (slot : Nat) : Dev :=
  let a := d.agent slot
  if d.agState slot ≠ agSTOPPING ∨ a.running ∨ d.agentInflight slot ≠ 0 then d else
  let d := d.freeAgent slot
  let d := match a.waiting with
    | some t => d.finish t (.ok (a.aborted % 65536))
    | none => d
  match a.replacing with
  | some c =>
    if ¬ d.isLost c.ticket ∧ ¬ d.inFlight c.ticket then d
    else if d.quotasPassed slot c then d.finish c.ticket (.fail stNO_RESOURCE)
    else d.loadAgent slot c
  | none => d

/-! ### Keys (R458) -/

/-- Parameter table of AGENT_KEY_SET (R458). -/
def HCmd.agentKeySetParams (c : HCmd) : List Param :=
  [pAny 0 3 0, c.zero 0 63 4, pAny 8 63 0]

/-- AGENT_KEY_SET (0x0607). -/
def Dev.agentKeySet (d : Dev) (c : HCmd) : Dev :=
  let slot := c.par 0 2 0
  let clear : Bool := c.par 0 3 3 == 1
  d.command c 0x0607 c.agentKeySetParams (fun d =>
    let key := slice c.block 0 64
    let keys := d.store.keys
    let signs (i : Nat) : Bool := match keys.get? [i] with
      | some k => Config.ecdsaOk k (key ++ leBytes 1 slot) (slice c.block 64 64)
      | none => false
    let free : Bool := slot == 0 && !clear && (keys.get? [0]).isNone
    if d.svc uSVC ≠ sACTIVE then (d, some (.fail stUNIT_UNAVAILABLE))
    else if ¬ c.readOk then (d.dmaFailed, some (.fail stDATA_ERROR))
    else if ¬ free ∧ ¬ signs 0 ∧ ¬ signs slot then (d, some (.fail stPERMISSION))
    else if d.flashHeld then ({ d with fw := { d.fw with held := d.fw.held ++ [c] } }, none)
    else (d.putStore { d.store with keys := keys.put [slot] (if clear then none else some key) }, some .ok))
    (blk := clear || Config.onCurve (slice c.block 0 64))

/-! ### Calls, traps and restarts (R455, R463, R464) -/

/-- A load fails: the slot is released and AGENT_LOAD completes with ABORTED_FAULT and the trap code or return value. -/
def Dev.loadFails (d : Dev) (slot code : Nat) : Dev :=
  let a := d.agent slot
  let d := ((d.onAgent slot (fun a => { a with running := false })).settleAgent slot).freeAgent slot
  match a.waiting with
  | some t => d.finish t (.fail stABORTED_FAULT (code % 256 * 256))
  | none => d

/-- Traps of a slot within 60 s, this one counted unless its core failed (code 9). -/
def Dev.recentTraps (d : Dev) (slot code : Nat) : List Nat :=
  let old := (d.agent slot).traps.filter (fun t => decide (d.now < t + 60000000000))
  if code = 9 then old else d.now :: old

/-- Has the call under way run for longer than CALL_MS (R455)? -/
def Agent.overdue (a : Agent) (now : Nat) : Bool := decide (a.callFrom + 1000000 * a.callMs < now)

/-- May the call under way trap with this code? Code 5 is a call that has run for longer than CALL_MS (R455, R464). -/
def Agent.mayTrap (a : Agent) (now code : Nat) : Bool :=
  a.running && decide (1 ≤ code ∧ code ≤ 9) && (code != 5 || a.overdue now)

/-- AGENT_TRAP: the call under way traps in function `func`, or its core fails. -/
def Dev.agentTrap (d : Dev) (slot code func : Nat) : Dev :=
  let a := d.agent slot
  if ¬ a.mayTrap d.now code then d
  else if d.agState slot = agLOADING then (d.setI uSVC AGT_STATUS.LAST_TRAP slot code).loadFails slot code
  else if d.agState slot ≠ agRUNNING then d.onAgent slot (fun a => { a with running := false })
  else
    let traps := d.recentTraps slot code
    let n := d.agentInflight slot - a.settling.length
    let dropped := a.inbox.length
    let d := d.onAgent slot (fun a => { a with
      running := false, inbox := [], timers := [], subs := [], traps := traps, mem := [], aborted := n
      restartAt := d.now + 100000000 * 2 ^ (traps.length - 1) })
    let d := (d.addI uSVC AGT_COUNTS.INBOX_DROP slot dropped).addI uSVC AGT_COUNTS.ABORTED slot n
    let d := (d.setI uSVC AGT_STATUS.LAST_TRAP slot code).settleAgent slot
    let d := d.raise uSVC 0x14 (leBytes 1 slot ++ leBytes 1 code ++ leBytes 2 0 ++ leBytes 4 func ++ leBytes 4 n)
    d.agTo slot (if 5 ≤ traps.length ∧ code ≠ 9 then agFAILED else agRESTARTING)

/-- The call under way has run longer than CALL_MS: it traps with code 5, in a function that is a free value. -/
def Dev.outrun (d : Dev) (slot : Nat) : Dev :=
  ({ d with draws := d.draws + 1 } : Dev).agentTrap slot 5 (Config.trapFunc d.draws).toNat

/-- AGENT_RUN: with no value, a call of agent_run begins on a runnable agent; with a value, the call under way returns it, unless it ran longer
than CALL_MS, which traps it (R455). -/
def Dev.agentRun (d : Dev) (slot : Nat) (ret : Option Int) : Dev :=
  let a := d.agent slot
  match ret with
  | none =>
    if slot < 64 ∧ d.svc uSVC = sACTIVE ∧ ¬ d.fwPaused ∧ d.agState slot = agRUNNING ∧ ¬ a.running ∧ a.inbox ≠ [] then
      d.callBegins slot
    else d
  | some r =>
    if ¬ a.running then d
    else if a.overdue d.now then d.outrun slot
    else if d.agState slot = agLOADING then
      if r = 0 then
        let d := d.onAgent slot (fun a => { a with running := false, waiting := none })
        let d := (d.bumpI uSVC AGT_STATUS.GENERATION slot).agTo slot agRUNNING
        match a.waiting with
        | some t => d.finish t (.ok (d.getI uSVC AGT_STATUS.GENERATION slot))
        | none => d
      else d.loadFails slot (ofSigned 8 r)
    else d.onAgent slot (fun a => { a with running := false })

/-- A fresh instance begins: the restart message stands first in its inbox, and agent_start is called (R463, R466). -/
def Dev.freshInstance (d : Dev) (slot code : Nat) : Dev :=
  let d := d.onAgent slot (fun a => { a with
    inbox := ⟨5, false, leBytes 1 code ++ leBytes 3 0 ++ leBytes 4 a.aborted⟩ :: a.inbox, aborted := 0 })
  ((d.bumpSatI uSVC AGT_STATUS.RESTARTS slot).agTo slot agRUNNING).callBegins slot

/-- AGENT_RESTART: the backoff has elapsed. -/
def Dev.agentRestart (d : Dev) (slot : Nat) : Dev :=
  if d.svc uSVC = sACTIVE ∧ ¬ d.fwPaused ∧ d.agState slot = agRESTARTING ∧ (d.agent slot).restartAt ≤ d.now then
    d.freshInstance slot (d.getI uSVC AGT_STATUS.LAST_TRAP slot)
  else d

/-- AGENT_TIMER: a timer falls due. -/
def Dev.agentTimer (d : Dev) (slot id : Nat) : Dev :=
  let a := d.agent slot
  match a.timers.find? (fun t => t.1 == id) with
  | none => d
  | some t =>
    if d.now < t.2.1 then d else
    let rest := a.timers.filter (fun x => x.1 != id)
    let d := d.onAgent slot (fun a => { a with timers := if t.2.2 = 0 then rest else rest ++ [(id, t.2.1 + t.2.2, t.2.2)] })
    d.pushMsg slot 4 (leBytes 8 t.2.1 ++ leBytes 1 id)

/-! ### The Heneno Agent Interface (R465, R466) -/

/-- Return values of the interface. -/
def haiBAD_POINTER : Int := -0x20
def haiEMPTY : Int := -0x21
def haiBAD_ARG : Int := -0x22

/-- A Heneno status as a return value. -/
def haiStatus (st : Nat) : Int := -(st : Int)

/-- A call of the interface by a running agent whose memory has `memLen` bytes: its effect and its return value. No memory is larger than
MEM_MIB (R454), and a call that has run longer than CALL_MS traps (R455). -/
def Dev.hai (d : Dev) (slot memLen : Nat) (f : Dev → Dev × Int) : Dev :=
  let a := d.agent slot
  if ¬ a.running ∨ a.memMib * 2 ^ 20 < memLen then d
  else if a.overdue d.now then d.outrun slot
  else
  let r := f (d.onAgent slot (fun a => { a with memLen := memLen }))
  r.1.onAgent slot (fun a => { a with ret := r.2 })

/-- Write into an agent's memory. -/
def Dev.agentWrite (d : Dev) (slot addr : Nat) (bytes : List Byte) : Dev :=
  d.onAgent slot (fun a => { a with mem := hostPuts a.mem addr bytes })

/-- hai_cmd_submit: `desc` is the 64 bytes at `ptr`. -/
def Dev.haiCmdSubmit (d : Dev) (slot ptr memLen : Nat) (desc : List Byte) : Dev :=
  d.hai slot memLen (fun d =>
    let t : Ticket := ⟨.agent slot, slice desc 0 64⟩
    if memLen < ptr + 64 then (d, haiBAD_POINTER)
    else if ¬ permits (d.agent slot).perm t.opcode then (d, haiStatus stPERMISSION)
    else if ¬ d.agentRoom slot then (d, haiStatus stRETRY_LATER)
    else ((((d.begin t none).tally uSVC 0x22 1).screen t).goOn, 0))

/-- hai_recv. -/
def Dev.haiRecv (d : Dev) (slot buf len memLen : Nat) : Dev :=
  d.hai slot memLen (fun d =>
    match (d.agent slot).inbox with
    | [] => (d, haiEMPTY)
    | m :: rest =>
      if len < m.size then (d, haiBAD_ARG)
      else if memLen < buf + m.size then (d, haiBAD_POINTER)
      else
        let hdr := leBytes 2 m.kind ++ leBytes 2 m.body.length ++ leBytes 1 m.dropped.toNat ++ leBytes 3 0
        ((d.onAgent slot (fun a => { a with inbox := rest })).agentWrite slot buf (hdr ++ m.body) |>.goOn, (m.size : Int)))

/-- hai_timer_set. -/
def Dev.haiTimerSet (d : Dev) (slot id due period : Nat) : Dev :=
  d.hai slot (d.agent slot).memLen (fun d =>
    if 64 ≤ id ∨ (period ≠ 0 ∧ period < 10000) ∨ 2 ^ 63 ≤ period then (d, haiBAD_ARG)
    else (d.onAgent slot (fun a => { a with timers := a.timers.filter (fun t => t.1 != id) ++ [(id, due % 2 ^ 64, period)] }), 0))

/-- hai_timer_cancel. -/
def Dev.haiTimerCancel (d : Dev) (slot id : Nat) : Dev :=
  d.hai slot (d.agent slot).memLen (fun d =>
    if 64 ≤ id then (d, haiBAD_ARG)
    else (d.onAgent slot (fun a => { a with timers := a.timers.filter (fun t => t.1 != id) }), 0))

/-- hai_time_now. -/
def Dev.haiTimeNow (d : Dev) (slot out memLen : Nat) : Dev :=
  d.hai slot memLen (fun d =>
    if memLen < out + 8 then (d, haiBAD_POINTER) else (d.agentWrite slot out (leBytes 8 d.now), 0))

/-- The calls of a rate-limited kind within the last second. -/
def Dev.lastSecond (d : Dev) (l : List Nat) : List Nat := l.filter (fun t => decide (d.now < t + 1000000000))

/-- hai_event_raise: `payload` is the 12 bytes at `ptr`. -/
def Dev.haiEventRaise (d : Dev) (slot type ptr memLen : Nat) (payload : List Byte) : Dev :=
  d.hai slot memLen (fun d =>
    let l := d.lastSecond (d.agent slot).raised
    if type < 0x20 ∨ 0x3E < type then (d, haiBAD_ARG)
    else if memLen < ptr + 12 then (d, haiBAD_POINTER)
    else if 1000 ≤ l.length then (d, haiStatus stRETRY_LATER)
    else
      let d := d.onAgent slot (fun a => { a with raised := d.now :: l })
      ((d.raiseOn (0x1C0 + slot) uSVC type (slice payload 0 12)).countRaised uSVC, 0))

/-- hai_event_subscribe. -/
def Dev.haiEventSubscribe (d : Dev) (slot source : Nat) (on : Bool) : Dev :=
  d.hai slot (d.agent slot).memLen (fun d =>
    if 512 ≤ source then (d, haiBAD_ARG)
    else
      (d.onAgent slot (fun a =>
        let l := a.subs.filter (fun x => x != source)
        { a with subs := if on then l ++ [source] else l }), 0))

/-- hai_log: `line` is the bytes at `ptr`. -/
def Dev.haiLog (d : Dev) (slot level ptr len memLen : Nat) (line : List Byte) (writeOk : Bool) : Dev :=
  d.hai slot memLen (fun d =>
    let a := d.agent slot
    let l := d.lastSecond a.lines
    if 7 < level ∨ len = 0 ∨ 256 < len then (d, haiBAD_ARG)
    else if memLen < ptr + len then (d, haiBAD_POINTER)
    else if ¬ a.logEn then (d, haiStatus stUNIT_UNAVAILABLE)
    else if 100 ≤ l.length then (d, haiStatus stRETRY_LATER)
    else
      let d := d.onAgent slot (fun a => { a with lines := d.now :: l })
      let r := d.deliverOwn a.logRxq 0x42 (slot + level * 2 ^ 8) (slice line 0 len) writeOk
      (if r.2 then r.1 else r.1.rxDrop a.logRxq, 0))

def execAgentLoad (c : HCmd) (s : State) : Answer := s.go (·.agentLoad c)
def execAgentStop (c : HCmd) (s : State) : Answer := s.go (·.agentStop c)
def execAgentStopped (slot : Nat) (s : State) : Answer := s.go (·.agentStopped slot)
def execAgentKeySet (c : HCmd) (s : State) : Answer := s.go (·.agentKeySet c)
def execAgentRun (slot : Nat) (ret : Option Int) (s : State) : Answer := s.go (·.agentRun slot ret)
def execAgentTrap (slot code func : Nat) (s : State) : Answer := s.go (·.agentTrap slot code func)
def execAgentRestart (slot : Nat) (s : State) : Answer := s.go (·.agentRestart slot)
def execAgentTimer (slot id : Nat) (s : State) : Answer := s.go (·.agentTimer slot id)
def execHaiCmdSubmit (slot ptr memLen : Nat) (desc : List Byte) (s : State) : Answer :=
  s.go (·.haiCmdSubmit slot ptr memLen desc)
def execHaiRecv (slot buf len memLen : Nat) (s : State) : Answer := s.go (·.haiRecv slot buf len memLen)
def execHaiTimerSet (slot id due period : Nat) (s : State) : Answer := s.go (·.haiTimerSet slot id due period)
def execHaiTimerCancel (slot id : Nat) (s : State) : Answer := s.go (·.haiTimerCancel slot id)
def execHaiTimeNow (slot out memLen : Nat) (s : State) : Answer := s.go (·.haiTimeNow slot out memLen)
def execHaiEventRaise (slot type ptr memLen : Nat) (payload : List Byte) (s : State) : Answer :=
  s.go (·.haiEventRaise slot type ptr memLen payload)
def execHaiEventSubscribe (slot source : Nat) (on : Bool) (s : State) : Answer := s.go (·.haiEventSubscribe slot source on)
def execHaiLog (slot level ptr len memLen : Nat) (line : List Byte) (writeOk : Bool) (s : State) : Answer :=
  s.go (·.haiLog slot level ptr len memLen line writeOk)

end Sys2Proof.Machine
end

