-- ==== Sys2Proof/Machine/Events.lean ====
section
/-! DEFINITION. Event commands: mask, pending bits and delivery (R62–R65). -/
namespace Sys2Proof.Machine

/-- Write UF_EVT_MASK: bits of non-maskable types stay 0; each type unmasked while pending issues one record for its latest
occurrence (R62, R65). -/
def Dev.evtMaskWrite (d : Dev) (un mask : Nat) : Dev :=
  if populated un then
    let old := d.get un UF_EVT_MASK.MASK
    let nm := nmiMask (classOf un)
    let new := bits mask 62 0 - (bits mask 62 0 &&& nm)
    let pend := d.get un UF_EVT_PEND.PEND
    let d := d.set un UF_EVT_MASK.MASK new
    (List.range 63).foldl (fun d t =>
      if bit old t ∧ ¬ bit new t ∧ bit pend t then
        let l := (d.ev.latest.get? [un, t]).getD (d.now, [])
        d.issue (sourceOf un t) un t l.1 l.2
      else d) d
  else d

/-- Release NMI_N when no non-maskable PEND bit is left (R65). -/
def Dev.settleNmi (d : Dev) : Dev :=
  if d.ev.nmi ∧ ¬ d.nmiPending then { d with ev := { d.ev with nmi := false } } else d

/-- W1C of UF_EVT_PEND (R62, R65). -/
def Dev.evtPendClear (d : Dev) (un clear : Nat) : Dev :=
  if populated un then
    let p := d.get un UF_EVT_PEND.PEND
    (d.set un UF_EVT_PEND.PEND (p - (p &&& bits clear 62 0))).settleNmi
  else d

/-- A source delivers the oldest record it holds, once that record's ring has room (R64, R420). That
the ring is the one EVT_RING names at the delivery is the model's choice: the manual does not say what a write of EVT_RING does to
records already held. -/
def Dev.eventDeliver (d : Dev) (src : Nat) : Dev :=
  let s := d.source src
  match s.held with
  | [] => d
  | r :: rest =>
    if d.ringHasRoom (d.evtRing r.un) then (d.setSource src { s with held := rest }).deliverRec r
    else d

def execEvtMaskWrite (un mask : Nat) (s : State) : Answer := s.go (·.evtMaskWrite un mask)
def execEvtPendClear (un clear : Nat) (s : State) : Answer := s.go (·.evtPendClear un clear)
def execEventDeliver (src : Nat) (s : State) : Answer := s.go (·.eventDeliver src)

end Sys2Proof.Machine
end

