-- ==== Sys2Proof/Machine/Resets.lean ====
section
/-! DEFINITION. Cold, warm and soft device reset (R52, R521–R523). -/
namespace Sys2Proof.Machine

/-- Fields of an always-on register: PWR_STRAPS is held until the next cold reset (R524). -/
def isStrapKey (k : Key) : Bool := k.take 2 == [0, PWR_STRAPS.TEST.off]

/-- Fields of the host interface's class registers, which soft device reset keeps; firmware's readiness is not among them. Its frame header
takes its reset values (R48). -/
def isHifKey (k : Key) : Bool :=
  k.headD 0 == uHIF && decide (0x400 ≤ k.getD 1 0) && k != HIF_STATUS.FW_READY.key uHIF 0 && k != HIF_STATUS.FWD_READY.key uHIF 0

/-- What every reset keeps: flash, fuses and OTP. -/
def FwState.kept (f : FwState) : FwState :=
  { rec0 := f.rec0, rec1 := f.rec1, slotA := f.slotA, slotB := f.slotB, store0 := f.store0, store1 := f.store1, otp := f.otp }

/-- The lock bit of the PCIe PLL, whose link soft device reset keeps. -/
def isPciePllKey (k : Key) : Bool := k == CLK_PLL_STATUS.LOCKED.key 775 0

/-- Registers that show fuses, OTP and the boot record. -/
def Dev.showFuses (d : Dev) : Dev :=
  ((d.set 0 FW_STATUS.SV_FUSED d.fw.otp.svFused).set 0 FW_STATUS.COMMITTED_SV d.bootRec.committedSv).set uMGT MGT_MAC.MAC
    d.fw.otp.mgtMac

/-- RETIRED units stay RETIRED (R52). -/
def Dev.restoreRetired (d : Dev) : Dev := d.rid.retired.foldl (fun d u => d.set u UF_STATE.SVC_STATE sRETIRED) d

/-- Record a reset's cause; the previous one moves to PREV_CAUSE (R522). -/
def Dev.recordCause (d : Dev) (prev cause : Nat) : Dev :=
  (d.set 0 PWR_RESET_CAUSE.PREV_CAUSE prev).set 0 PWR_RESET_CAUSE.CAUSE cause

/-- COLD_RESET: PWRGD falls, or VDD_AON reaches its reset level (`aonLost`), which loses PREV_CAUSE as well. -/
def Dev.coldReset (d : Dev) (aonLost : Bool) : Dev :=
  let prev := if aonLost then 0 else d.get 0 PWR_RESET_CAUSE.CAUSE
  let n : Dev := { draws := d.draws, hif := { dma := d.hif.dma }, fw := d.fw.kept }
  n.showFuses.recordCause prev 1

/-- What warm and soft device reset keep: the always-on fault log, the retired list, the straps, what the always-on domain runs on, and an
asserted THERM_TRIP_N. -/
def Dev.warmKept (d : Dev) (keep : Key → Bool) (hif : HifState) : Dev :=
  { draws := d.draws, hif := hif, fw := d.fw.kept
    fields := d.fields.filter (fun e => isStrapKey e.1 || keep e.1)
    rid := { log := d.rid.log, logNext := d.rid.logNext, retired := d.rid.retired }
    pwr := { goodAt := d.pwr.goodAt.map (fun _ => 0), tripped := d.pwr.tripped, aside := d.pwr.aside } }

/-- The oscillators run, the straps say XTAL_EXTRA, and the PCIe PLL has its own reference (R501, R502). FOSC and SOSC read good while
nothing has failed them. -/
def Dev.startClocks (d : Dev) : Dev :=
  let extra := match d.get 0 PWR_STRAPS.XTAL with
    | 0 => d.fw.otp.xtalExtra
    | 1 => 0
    | 2 => 50
    | _ => 255
  let d := [768, 784].foldl (fun d r =>
    ((d.set r CLK_SRC_CFG.XTAL_EXTRA_MS extra).set r CLK_SRC_STATUS.FOSC_OK 1).set r CLK_SRC_STATUS.SOSC_OK 1) d
  d.set 775 CLK_PLL_STATUS.REF 3

/-- After a warm or soft device reset the clocks start again, unless power is not good. -/
def Dev.restartClocks (d : Dev) : Dev := if d.pwr.goodAt.isSome then d.startClocks else d

/-- A warm reset with this cause. -/
def Dev.warm (d : Dev) (cause : Nat) : Dev :=
  ((d.warmKept (fun _ => false) { dma := d.hif.dma }).restartClocks.showFuses.recordCause (d.get 0 PWR_RESET_CAUSE.CAUSE)
    cause).restoreRetired

/-- WARM_RESET from outside: 1 SYS_RST_N, 5 a die failed with DIE_FAIL_ACT 1, 7 a die's always-on clock is lost. The other
causes have rows of their own. -/
def Dev.warmReset (d : Dev) (bitNo : Nat) : Dev :=
  let dieFailed : Bool := ((d.svc 1 == sFAILED && d.flag 8 RID_CFG.DIE_FAIL_ACT)
    || (d.svc 2 == sFAILED && d.flag 9 RID_CFG.DIE_FAIL_ACT))
  if bitNo = 1 ∨ bitNo = 7 ∨ (bitNo = 5 ∧ dieFailed) then d.warm (2 ^ bitNo) else d

/-- SOFT_RESET with KEY 0xA5: as warm reset, but the host interface, its link and its address assignments stay; rings go to
DISABLED, and the completions of commands in flight are counted in HIF_CPL_LOST. -/
def Dev.softReset (d : Dev) (key : Nat) : Dev :=
  if key ≠ 0xA5 then d else
  let c := d.cutHost
  let c := c.add uHIF HIF_CPL_LOST.COUNT c.hif.lost.length
  let n := c.warmKept (fun k => isHifKey k || isPciePllKey k) { dma := c.hif.dma, msix := c.hif.msix, pba := c.hif.pba }
  ((n.restartClocks.showInFlight.showFuses).recordCause (d.get 0 PWR_RESET_CAUSE.CAUSE) 4).restoreRetired

def execColdReset (aonLost : Bool) (s : State) : Answer := s.go (·.coldReset aonLost)
def execWarmReset (cause : Nat) (s : State) : Answer := s.go (·.warmReset cause)
def execSoftReset (key : Nat) (s : State) : Answer := s.go (·.softReset key)

end Sys2Proof.Machine
end

