-- ==== Sys2Proof/Machine/Firmware.lean ====
section
/-! DEFINITION. Booting, staging, activating, committing and attesting firmware, and the recovery transfer through BAR4
(R470–R488, R495, R496). -/
namespace Sys2Proof.Machine

/-! ### The boot ROM (R471, R486) -/

/-- Does the ROM boot a slot: checks 1–7, 9 and 10? -/
def Dev.slotBoots (d : Dev) (slot : Nat) : Bool :=
  let img := d.slotImage slot
  (d.checkHeader (slice img 0 512) none false).isNone && (d.checkPayload img).isNone

/-- FABRIC's reset epoch, as the ROM sets it (R306). -/
def Dev.setFabEpoch (d : Dev) : Dev := { d with fab := { d.fab with epoch := d.bootRec.bootCount % 256 } }

/-- Speed-bin voltages (R517). -/
def Dev.setBins (d : Dev) : Dev :=
  (d.set 800 PWR_MON_STATUS.TARGET_MV (max 650 (min 800 d.fw.otp.binF))).set 808 PWR_MON_STATUS.TARGET_MV
    (max 650 (min 800 d.fw.otp.binQ))

/-- Step 6: BOOT_COUNT and CONFIG_EPOCH go up, and the firmware starts from a slot. -/
def Dev.startSlot (d : Dev) (slot cause : Nat) : Dev :=
  let r := d.bootRec
  let d := d.putBoot { r with bootCount := (r.bootCount + 1) % 2 ^ 32, configEpoch := (r.configEpoch + 1) % 2 ^ 32 }
  ((d.set 0 FW_STATUS.BOOT_CAUSE cause).showRunning (mkImage slot (d.slotImage slot)) (d.codeOf (d.slotImage slot))).setFabEpoch.loadStore

/-- Recovery mode (R487); the ROM reads the management port's records of the store. -/
def Dev.enterRecovery (d : Dev) (cause : Nat) : Dev :=
  ((d.set 0 FW_STATUS.BOOT_CAUSE cause).set 0 FW_STATUS.RECOVERY 1).setFabEpoch.loadStore

/-- The first cold boot makes the two key pairs, whose private keys stand in OTP (R477). -/
def Dev.firstKeys (d : Dev) : Dev :=
  if d.fw.otp.attestKey = [] then
    { d with draws := d.draws + 2
             fw := { d.fw with otp := { d.fw.otp with
               attestKey := slice (Config.newKey d.draws) 0 32, wrapKey := slice (Config.newKey (d.draws + 1)) 0 32 } } }
  else d

/-- BOOT_ROM, after a reset: the counter catches up with COMMITTED_SV, a trial ends, and a slot is chosen. The slot that was
on trial is not tried. Its burns and boot records wait out a supply dip (R519). -/
def Dev.bootRom (d : Dev) : Dev :=
  if d.fw.running.isSome ∨ d.flag 0 FW_STATUS.RECOVERY ∨ d.pwr.goodAt.isNone ∨ d.pwr.tripped ∨ d.flashHeld then d else
  let d := d.setBins.firstKeys
  let r := d.bootRec
  let sv := d.fw.otp.svFused
  let d := if sv < r.committedSv then
      ({ d with fw := { d.fw with otp := { d.fw.otp with svFused := r.committedSv } } }.showFuses).raise uSVC 0x1A
        (leBytes 1 r.committedSv)
    else d.showFuses
  let d := if r.trial then d.putBoot { r with trial := false } else d
  let d := { d with fw := { d.fw with trialLost := r.trial } }
  if ¬ d.flag 0 PWR_STRAPS.RECOVERY_N then d.enterRecovery 4
  else if d.slotBoots r.slot then d.startSlot r.slot (if r.trial then 2 else 0)
  else if ¬ r.trial ∧ d.slotBoots (1 - r.slot) then d.startSlot (1 - r.slot) 1
  else d.enterRecovery 5

/-- Read the stacks' sidebands at bring-up; a stack that cannot be read goes from OFF to FAILED, as one that fails its bring-up test does
(R51, R55). One read before is known. -/
def Dev.readSidebands (d : Dev) (bad : List Nat) : Dev :=
  let lost (s : Nat) : Bool := bad.contains s && !d.fw.sideband.contains s
  let e := { d with fw := { d.fw with sideband := (List.range 8).filter (fun s => !lost s) } }
  ((List.range 8).filter (fun s => lost s && d.svc (512 + s) == sOFF)).foldl (fun e s => e.failSelf (512 + s) 0x0006) e

/-- FW_READY: the firmware that the ROM started is ready; `badStacks` are the stacks whose sideband cannot be read. -/
def Dev.fwReady (d : Dev) (badStacks : List Nat) : Dev :=
  match d.fw.running with
  | none => d
  | some i =>
    if d.flag uHIF HIF_STATUS.FW_READY ∨ d.fwPaused then d else
    let d := d.set uHIF HIF_STATUS.FW_READY 1
    let d := { d with hdl := { d.hdl with alive := some d.now } }
    let d := d.readSidebands badStacks
    let d := d.raise uSVC 0x15 (leBytes 1 i.slot ++ leBytes 1 (d.get 0 FW_STATUS.BOOT_CAUSE) ++ leBytes 2 0
      ++ leBytes 4 (hdrVersion i.header))
    let d := d.raise 0 0x10 (leBytes 2 (d.get 0 PWR_RESET_CAUSE.CAUSE) ++ leBytes 2 (d.get 0 PWR_RESET_CAUSE.PREV_CAUSE))
    if d.fw.trialLost then { d.raise uSVC 0x18 (leBytes 1 2) with fw := { d.fw with trialLost := false } } else d

/-- FWD_READY: every stack is trained (R366, R434); one that is FAILED or RETIRED is not waited for, which is the model's choice. -/
def Dev.fwdReady (d : Dev) : Dev :=
  if d.flag uHIF HIF_STATUS.FW_READY ∧ (List.range 8).all (fun s => (d.stack s).up || d.svc (512 + s) == sFAILED || d.svc (512 + s) == sRETIRED) then d.set uHIF HIF_STATUS.FWD_READY 1 else d

/-! ### Staging (R481) -/

/-- Does a staging, an activation or a trial exclude another staging? -/
def Dev.stagingBusy (d : Dev) : Bool :=
  d.fw.act.isSome || d.flag 0 FW_STATUS.TRIAL || d.fw.held.any (fun c => c.ticket.opcode == 0x0601)

/-- The slot that is not running. -/
def Dev.otherSlot (d : Dev) : Nat := 1 - d.get 0 FW_STATUS.SLOT

/-- Erase the slot that is not running. -/
def Dev.eraseOther (d : Dev) : Dev := (d.putSlot d.otherSlot []).showStaged none

/-- The staged image is in its slot and verified. -/
def Dev.stagedNow (d : Dev) (img : List Byte) (defaults : Bool) : Dev :=
  let slot := d.otherSlot
  let d := (d.putSlot slot img).showStaged (some (mkImage slot img))
  let d := { d with fw := { d.fw with stagedDefaults := defaults } }
  d.raise uSVC 0x16 (leBytes 1 slot ++ leBytes 1 (hdrSv img) ++ leBytes 2 0 ++ leBytes 4 (hdrVersion img))

/-- Parameter table of FW_STAGE (R481). -/
def HCmd.fwStageParams (c : HCmd) : List Param :=
  [pAny 0 0 0, c.zero 0 31 1, pAny 4 24 0, c.zero 4 31 25, pAny 8 63 0]

/-- FW_STAGE (0x0601). A read that fails before the header is complete leaves the slot; any later failure leaves it empty.
`writeOk` false is a flash write or read-back that fails. -/
def Dev.fwStage (d : Dev) (c : HCmd) : Dev :=
  let defaults : Bool := c.par 0 0 0 == 1
  let len := c.par 4 24 0
  d.command c 0x0601 c.fwStageParams (fun d =>
    let h := slice c.block 0 512
    let img := slice c.block 0 len
    if d.svc uSVC ≠ sACTIVE then (d, some (.fail stUNIT_UNAVAILABLE))
    else if d.stagingBusy ∨ (d.fw.hgp.state ≠ 0 ∧ d.fw.hgp.state ≠ 4) then (d, some (.fail stRETRY_LATER))
    else if ¬ c.readOk ∧ c.block.length < 512 then (d.dmaFailed, some (.fail stDATA_ERROR))
    else match d.checkHeader h d.storeSchema defaults with
      | some r => (d, some r)
      | none =>
        if len ≠ 512 + hdrPayload h then (d, some ⟨stMALFORMED, 0, 16 + 4⟩)
        else if d.flashHeld then ({ d with fw := { d.fw with held := d.fw.held ++ [c] } }, none)
        else
          let d := d.eraseOther
          if ¬ c.readOk then (d.dmaFailed, some (.fail stDATA_ERROR))
          else if ¬ c.writeOk then (d, some (.fail stDATA_ERROR))
          else match d.checkPayload img with
            | some r => (d, some r)
            | none =>
              (d.stagedNow img defaults, some (.ok (hdrVersion img + hdrSv img * 2 ^ 32 + d.otherSlot * 2 ^ 40))))
    (blk := hdrFormOk (slice c.block 0 512))

/-! ### Activation (R480, R482–R484) -/

/-- The pending activation is over. -/
def Dev.endAct (d : Dev) : Dev :=
  (({ d with fw := { d.fw with act := none } }).set 0 FW_STATUS.ACT_PENDING 0).set 0 FW_ACT_TIME.TIME 0

/-- Parameter table of FW_ACTIVATE (R482). -/
def HCmd.fwActivateParams (c : HCmd) : List Param :=
  [pAny 0 0 0, c.zero 0 63 1, pAny 8 63 0]

/-- FW_ACTIVATE (0x0602). -/
def Dev.fwActivate (d : Dev) (c : HCmd) : Dev :=
  let cancel : Bool := c.par 0 0 0 == 1
  let time := c.par 8 63 0
  d.command c 0x0602 c.fwActivateParams (fun d =>
    if d.svc uSVC ≠ sACTIVE then (d, some (.fail stUNIT_UNAVAILABLE))
    else if cancel then
      match d.fw.act.filter (fun a => !a.revert) with
      | none => (d, some (.fail stNOT_FOUND))
      | some a =>
        if a.stage ≠ 0 ∨ a.time < d.now + 1000000 then (d, some (.fail stUNIT_UNAVAILABLE))
        else (d.endAct.finish a.ticket (.fail stABORTED_FAULT), some .ok)
    else if time < d.now + 10000000 ∨ d.now + 3600000000000 < time then (d, some ⟨stMALFORMED, 0, 16 + 8⟩)
    else match d.fw.staged with
      | none => (d, some (.fail stNOT_FOUND))
      | some i =>
        if d.fw.act.isSome then (d, some (.fail stEXISTS))
        else
          let img := d.slotImage i.slot
          match (d.checkHeader (slice img 0 512) d.storeSchema d.fw.stagedDefaults).or (d.checkPayload img) with
          | some r => (d, some r)
          | none =>
            ((({ d with fw := { d.fw with act := some { ticket := c.ticket, time := time } } }).set 0 FW_STATUS.ACT_PENDING 1).set 0
              FW_ACT_TIME.TIME time, none))

/-- An agent is stopped for a switch of the image: its commands settle, and it waits to be reloaded (step 3 of R483). One that
is loading is released. -/
def Dev.pauseAgent (d : Dev) (slot : Nat) : Dev :=
  let st := d.agState slot
  let a := d.agent slot
  if st = agRUNNING ∨ st = agRESTARTING then
    let n := d.agentInflight slot - a.settling.length
    let kept := if st = agRUNNING then [] else a.inbox
    let d := d.onAgent slot (fun a => { a with
      running := false, inbox := kept, timers := [], subs := [], mem := [], aborted := a.aborted + n })
    let d := (d.addI uSVC AGT_COUNTS.INBOX_DROP slot (if st = agRUNNING then a.inbox.length else 0)).addI uSVC AGT_COUNTS.ABORTED slot n
    let d := d.settleAgent slot
    if st = agRUNNING then d.agTo slot agRESTARTING else d
  else if st = agLOADING then ((d.onAgent slot (fun a => { a with running := false })).settleAgent slot).freeAgent slot
  else if st = agSTOPPING then (d.onAgent slot (fun a => { a with running := false })).settleAgent slot
  else d

/-- Agents reloaded from their images; their restart messages carry trap code 0, which R463 does not count. -/
def Dev.reloadAgents (d : Dev) : Dev :=
  ((List.range 64).filter (fun s => d.agState s == agRESTARTING)).foldl (fun d s =>
    (d.freshInstance s 0).setI uSVC AGT_STATUS.RESTARTS s (d.getI uSVC AGT_STATUS.RESTARTS s)) d

/-- A command still running 10 ms into the pause ends with TIMEOUT, its result the items done; one that has taken effect and waits for its
chain keeps its own status. -/
def Dev.timeOut (d : Dev) (t : Ticket) : Dev :=
  match d.hif.parked.find? (fun p => p.ticket == t) with
  | some p =>
    (({ d with hif := { d.hif with parked := d.hif.parked.erase p } }).writeCpl t ⟨p.status, p.result, p.bad⟩ p.rxq true stTIMEOUT).releaseFills
      d.hif.parked.length p.rxq
  | none =>
    let done := ((d.fwd.flushes.find? (fun f => f.ticket == t)).map (·.count)).getD 0
    (d.forget t).writeCpl t (.fail stTIMEOUT done) none (t.chain || t.chained) stTIMEOUT

/-- Steps 2 and 3 of R483, 10 ms into the pause: host commands still running end, cursors close, agents stop. The command that
asked for the switch goes on. -/
def Dev.settleSwitch (d : Dev) (a : Activation) : Dev :=
  let host (t : Ticket) : Bool := t.sq.isSome && t != a.ticket
  let d := { d with hif := { d.hif with chainNext := d.hif.chainNext.filter (fun c => !host c.1) } }
  let ts := (d.hif.inflight.filter (fun f => host f.ticket)).map (·.ticket) ++ d.hif.lost.filter (fun t => t != a.ticket)
  let d := ts.foldl Dev.timeOut d
  let d := { d with fwd := { d.fwd with cursors := [] } }
  (List.range 64).foldl Dev.pauseAgent d

/-- The store at the first start of a newly activated image: migrated, unchanged, or left for defaults (R480). -/
def Dev.migrate (d : Dev) (new : Nat) : Dev :=
  let old := d.latestStore.map (·.2.schema) |>.getD 0
  let r : Dev × Nat := match d.storeCopy with
    | some c =>
      if c.2.schema = new then (d, 1)
      else (d.putStore { c.2 with schema := new }, 0)
    | none => (d.loadStore, 2)
  r.1.raise uSVC 0x1B (leBytes 2 old ++ leBytes 2 new ++ leBytes 1 r.2)

/-- The staged image takes over (steps 4 and 5 of R483). -/
def Dev.switchTo (d : Dev) (a : Activation) (i : Image) : Dev :=
  let prev := d.fw.running
  let d := (d.showStaged none).showRunning i (d.codeOf (d.slotImage i.slot))
  let d := { d with fw := { d.fw with previous := prev } }
  let d := d.migrate (hdrSchema i.header)
  let d := d.set uHIF HIF_STATUS.FW_READY 1
  let r := d.bootRec
  let d := d.putBoot { r with configEpoch := (r.configEpoch + 1) % 2 ^ 32, trial := true }
  let d := d.endAct.finish a.ticket (.ok a.time)
  (d.raise uSVC 0x17 (leBytes 8 a.time ++ leBytes 4 ((d.now - a.time) / 1000))).reloadAgents

/-- The previous image takes over again, after FW_COMMIT with REVERT, with the store copy that it knows: changes to a migrated
store are lost (R480). -/
def Dev.switchBack (d : Dev) (a : Activation) (i : Image) : Dev :=
  let d := (d.showRunning i (d.codeOf (d.slotImage i.slot))).loadStore
  let d := { d with fw := { d.fw with previous := none } }
  let d := d.set uHIF HIF_STATUS.FW_READY 1
  let r := d.bootRec
  let d := d.putBoot { r with configEpoch := (r.configEpoch + 1) % 2 ^ 32, trial := false }
  ((d.endAct.raise uSVC 0x18 (leBytes 1 1)).finish a.ticket .ok).reloadAgents

/-- ACTIVATION_SWITCH: device time reaches ACT_TIME and the pause begins; 10 ms later commands and agents have settled; then
the image that takes over sets FW_READY, its boot record written once no supply dip holds the flash (R519). -/
def Dev.activationSwitch (d : Dev) : Dev :=
  match d.fw.act with
  | none => d
  | some a =>
    if a.stage = 0 then
      (if a.time ≤ d.now then
        ({ d with fw := { d.fw with act := some { a with stage := 1 } } }).set uHIF HIF_STATUS.FW_READY 0
       else d)
    else if a.stage = 1 then
      (if a.time + 10000000 ≤ d.now then
        let d := d.settleSwitch a
        { d with fw := { d.fw with act := some { a with stage := 2 } } }
       else d)
    else if d.flashHeld then d
    else match (if a.revert then d.fw.previous else d.fw.staged) with
      | some i => if a.revert then d.switchBack a i else d.switchTo a i
      | none => d

/-- FW_REVERTED: the new firmware has not set FW_READY within 2 s of ACT_TIME, or traps before it does; the previous image
takes over (R484). -/
def Dev.fwReverted (d : Dev) (trapped : Bool) : Dev :=
  match d.fw.act with
  | none => d
  | some a =>
    if a.stage ≠ 2 ∨ a.revert ∨ d.flashHeld ∨ (¬ trapped ∧ d.now < a.time + 2000000000) then d else
    let d := (d.set uHIF HIF_STATUS.FW_READY 1).raiseEpoch.endAct
    ((d.finish a.ticket (.fail stABORTED_FAULT 1)).raise uSVC 0x18 (leBytes 1 0)).reloadAgents

/-! ### Committing (R478, R485) -/

/-- The commit is done. -/
def Dev.committed (d : Dev) : Dev :=
  ({ d with fw := { d.fw with previous := none } }).raise uSVC 0x19 (leBytes 1 d.bootRec.committedSv)

/-- Parameter table of FW_COMMIT (R485). -/
def HCmd.fwCommitParams (c : HCmd) : List Param :=
  [pAny 0 0 0, c.zero 0 63 1]

/-- FW_COMMIT (0x0603). -/
def Dev.fwCommit (d : Dev) (c : HCmd) : Dev :=
  let revert : Bool := c.par 0 0 0 == 1
  d.command c 0x0603 c.fwCommitParams (fun d =>
    if d.svc uSVC ≠ sACTIVE ∨ ¬ d.flag 0 FW_STATUS.TRIAL then (d, some (.fail stUNIT_UNAVAILABLE))
    else if d.fw.act.isSome then (d, some (.fail stRETRY_LATER))
    else if revert then
      ({ d with fw := { d.fw with act := some { ticket := c.ticket, time := d.now, revert := true } } }, none)
    else if d.flag 0 FW_STATUS.DIAGNOSTIC then (d, some (.fail stPERMISSION))
    else if d.flashHeld then ({ d with fw := { d.fw with held := d.fw.held ++ [c] } }, none)
    else
      let r := d.bootRec
      let sv := max r.committedSv (match d.fw.running with | some i => hdrSv i.header | none => 0)
      let d := d.putBoot { r with slot := d.get 0 FW_STATUS.SLOT, trial := false, committedSv := sv }
      if d.fw.otp.svFused < sv then ({ d with fw := { d.fw with burn := some (sv, some c.ticket) } }, none)
      else (d.committed, some .ok))

/-- One ns of the fuses: a burn may come one fuse further, and a running diagnostic image may burn revocation bits; both wait out a supply dip
(R477, R478). -/
def Dev.fuseTime (d : Dev) : Dev :=
  if d.flashHeld then d else
  let o := d.fw.otp
  let d := if d.flag 0 FW_STATUS.DIAGNOSTIC then
      { d with fw := { d.fw with otp := { o with
        rootRevoked := o.rootRevoked ||| (Config.revokeRoots d.now).toNat
        signerRevoked := o.signerRevoked ||| (Config.revokeSigners d.now).toNat } } }
    else d
  match d.fw.burn with
  | none => d
  | some (n, _) =>
    if o.svFused < n ∧ Config.fuseBurns d.now then
      ({ d with fw := { d.fw with otp := { d.fw.otp with svFused := o.svFused + 1 } } }).set 0 FW_STATUS.SV_FUSED (o.svFused + 1)
    else d

/-- FUSE_BURNT: the counter reaches its target, and the FW_COMMIT that burns it completes. -/
def Dev.fuseBurnt (d : Dev) : Dev :=
  match d.fw.burn with
  | none => d
  | some (n, t) =>
    if d.flashHeld then d else
    let d := { d with fw := { d.fw with burn := none, otp := { d.fw.otp with svFused := n } } }
    let d := (d.set 0 FW_STATUS.SV_FUSED n).raise uSVC 0x1A (leBytes 1 n)
    match t with
    | some t => d.committed.finish t .ok
    | none => d

/-- BURN_AND_WRITE_RESUME: 100 ms after a supply dip, what waited goes on (R519). -/
def Dev.burnAndWriteResume (d : Dev) : Dev :=
  if d.fw.holdUntil = 0 ∨ d.flashHeld then d else
  let cs := d.fw.held
  let dirty := d.fw.dirty
  let d := { d with fw := { d.fw with holdUntil := 0, held := [], dirty := false } }
  let d := if dirty then d.saveStore else d
  cs.foldl (fun d c =>
    match c.ticket.opcode with
    | 0x0601 => d.fwStage c
    | 0x0603 => d.fwCommit c
    | _ => d.agentKeySet c) d

/-! ### Attestation (R495, R496) -/

/-- SHA-256 of a header, 0 when there is none. -/
def measure (i : Option Image) : List Byte := match i with | some i => sha256 i.header | none => List.replicate 32 0

/-- An agent entry of the report. -/
def Dev.attestAgent (d : Dev) (s : Nat) : List Byte :=
  let a := d.agent s
  leBytes 1 s ++ leBytes 1 (d.agState s) ++ leBytes 1 (d.getI uSVC AGT_STATUS.GENERATION s) ++ leBytes 1 a.keySlot
  ++ leBytes 4 (d.getI uSVC AGT_STATUS.VERSION s) ++ leBytes 2 a.perm ++ leBytes 6 0 ++ slice a.moduleSha 0 32

/-- The report without its signature. -/
def Dev.attestBody (d : Dev) (nonce : List Byte) : List Byte :=
  let slots := d.usedSlots
  let h := (d.fw.running.map (·.header)).getD []
  leBytes 4 0x54414B5A ++ leBytes 2 1 ++ leBytes 2 (400 + 48 * slots.length) ++ leBytes 1 slots.length
  ++ leBytes 1 (d.get 0 FW_STATUS.TRIAL + 2 * d.get 0 FW_STATUS.DIAGNOSTIC + 4 * d.get 0 HDL_STATUS.HEADLESS)
  ++ leBytes 1 d.fw.otp.svFused ++ leBytes 1 (d.get 0 FW_STATUS.ROOT_SLOT) ++ leBytes 4 d.bootRec.bootCount ++ leBytes 8 d.now
  ++ slice nonce 0 32 ++ slice d.fw.otp.serial 0 12 ++ leBytes 4 d.bootRec.configEpoch
  ++ (([1, 2] ++ (List.range 8).map (· + 512)).map d.identBytes).flatten
  ++ leBytes 4 (hdrVersion h) ++ leBytes 1 (hdrSv h) ++ leBytes 1 (d.get 0 FW_STATUS.SLOT) ++ leBytes 2 0
  ++ measure d.fw.running ++ measure d.fw.staged
  ++ (match d.storeCopy with | some c => sha256 c.2.bytes | none => slice Config.noStoreMeasure 0 32)
  ++ (slots.map d.attestAgent).flatten

/-- Parameter table of ATTEST (R495). -/
def attestParams : List Param :=
  [pAny 0 63 0, pAny 8 63 0, pAny 0x10 63 0, pAny 0x18 63 0, pAny 0x20 63 0, pAny 0x28 15 0, pAny 0x2A 0 0]

/-- ATTEST (0x0604). -/
def Dev.attest (d : Dev) (c : HCmd) : Dev :=
  let len := c.par 0x28 15 0
  let certs : Bool := c.par 0x2A 0 0 == 1
  d.commandNow c 0x0604 attestParams (fun d =>
    if d.svc uSVC ≠ sACTIVE then (d, .fail stUNIT_UNAVAILABLE) else
    let body := d.attestBody (slice c.area 0 32)
    let report := body ++ slice (Config.attestSign d.fw.otp.attestKey d.draws body) 0 64
    let d := { d with draws := d.draws + 1 }
    let cert (b : List Byte) : List Byte := leBytes 4 b.length ++ b
    let all := report ++ (if certs then cert d.fw.otp.deviceCert ++ cert d.fw.otp.authorityCert else [])
    let res := report.length + all.length * 2 ^ 16
    if len < all.length then (d, .fail stNO_RESOURCE res) else d.hostBlock c (c.par 0x20 63 0) all res)

/-! ### Recovery through BAR4 (R487, R488) -/

/-- The image runs from memory: nothing is written to flash. -/
def Dev.runFromMemory (d : Dev) (img : List Byte) : Dev :=
  (((d.set 0 FW_STATUS.RECOVERY 0).set 0 FW_STATUS.BOOT_CAUSE 3).showRunning (mkImage 0 img) (d.codeOf img)).loadStore

/-- Boot record naming a slot, TRIAL clear, after a recovery. -/
def Dev.nameSlot (d : Dev) (slot : Nat) : Dev := d.putBoot { d.bootRec with slot := slot, trial := false }

/-- REC_HDR_CHECK: `header` is the first 512 bytes of BAR4. -/
def Dev.recHdrCheck (d : Dev) (header : List Byte) : Dev :=
  if ¬ d.flag 0 FW_STATUS.RECOVERY ∨ d.flag 0 FW_REC_STATUS.BUSY then d else
  let r := (d.checkHeader (slice header 0 512) none false).getD .ok
  (d.set 0 FW_REC_STATUS.DONE 0).set 0 FW_REC_STATUS.STATUS r.status

/-- REC_GO: the transfer of the first LENGTH bytes of BAR4 begins. -/
def Dev.recGo (d : Dev) (bar4 : List Byte) : Dev :=
  if ¬ d.flag 0 FW_STATUS.RECOVERY ∨ d.flag 0 FW_REC_STATUS.BUSY then d else
  let img := slice bar4 0 (min (28 * 2 ^ 20) (d.get 0 FW_REC_CTRL.LENGTH))
  let d := { d with fw := { d.fw with bar4 := some (d.get 0 FW_REC_CTRL.TARGET, img) } }
  ((d.set 0 FW_REC_STATUS.DONE 0).set 0 FW_REC_STATUS.BUSY 1).set 0 FW_REC_STATUS.PROGRESS 0

/-- Why a whole image is refused by the ROM. -/
def Dev.recBad (d : Dev) (img : List Byte) : Option Reply :=
  let h := slice img 0 512
  match d.checkHeader h none false with
  | some r => some r
  | none => if img.length ≠ 512 + hdrPayload h then some .badBlock else d.checkPayload img

/-- REC_TRANSFER_DONE; `writeOk` false is a flash write or read-back that fails. -/
def Dev.recTransferDone (d : Dev) (writeOk : Bool) : Dev :=
  match d.fw.bar4 with
  | none => d
  | some (target, img) =>
    if d.flashHeld then d else
    let d := { d with fw := { d.fw with bar4 := none } }
    let r : Dev × Nat := match d.recBad img with
      | some r => (d, r.status)
      | none =>
        if 2 ≤ target then (d.runFromMemory img, stOK)
        else if ¬ writeOk then (d.putSlot target [], stDATA_ERROR)
        else ((d.putSlot target img).nameSlot target, stOK)
    (((r.1.set 0 FW_REC_STATUS.STATUS r.2).set 0 FW_REC_STATUS.BUSY 0).set 0 FW_REC_STATUS.DONE 1).set 0 FW_REC_STATUS.PROGRESS 100

/-- The first `n` bytes of BAR4's buffer as the host has left them: a free value for a write of FW_REC_CTRL that does not bring them. -/
def Dev.bar4Bytes (d : Dev) (n : Nat) : List Byte := (List.range (min n (28 * 2 ^ 20))).map (Config.bar4Byte d.draws)

/-- A write of FW_REC_CTRL with its fields stored: HDR_CHECK and GO act on what BAR4 holds (R488). Both together are taken in that
order. -/
def Dev.recCtrlWrite (d : Dev) (check go : Bool) : Dev :=
  let d := if check then { d with draws := d.draws + 1 }.recHdrCheck (d.bar4Bytes 512) else d
  if go then { d with draws := d.draws + 1 }.recGo (d.bar4Bytes (d.get 0 FW_REC_CTRL.LENGTH)) else d

def execBootRom (s : State) : Answer := s.go Dev.bootRom
def execFwReady (badStacks : List Nat) (s : State) : Answer := s.go (·.fwReady badStacks)
def execFwdReady (s : State) : Answer := s.go Dev.fwdReady
def execFwStage (c : HCmd) (s : State) : Answer := s.go (·.fwStage c)
def execFwActivate (c : HCmd) (s : State) : Answer := s.go (·.fwActivate c)
def execActivationSwitch (s : State) : Answer := s.go Dev.activationSwitch
def execFwReverted (trapped : Bool) (s : State) : Answer := s.go (·.fwReverted trapped)
def execFwCommit (c : HCmd) (s : State) : Answer := s.go (·.fwCommit c)
def execFuseBurnt (s : State) : Answer := s.go Dev.fuseBurnt
def execBurnAndWriteResume (s : State) : Answer := s.go Dev.burnAndWriteResume
def execAttest (c : HCmd) (s : State) : Answer := s.go (·.attest c)
def execRecHdrCheck (header : List Byte) (s : State) : Answer := s.go (·.recHdrCheck header)
def execRecGo (bar4 : List Byte) (s : State) : Answer := s.go (·.recGo bar4)
def execRecTransferDone (writeOk : Bool) (s : State) : Answer := s.go (·.recTransferDone writeOk)

end Sys2Proof.Machine
end

