-- ==== Sys2Proof/Machine/Headgate.lean ====
section
/-! DEFINITION. The management Ethernet port and the headgate protocol (R489–R494, R497, R498). -/
namespace Sys2Proof.Machine

/-! ### Addresses and frames (R489) -/

/-- IPv4 address of the management port. -/
def Dev.mgtV4 (d : Dev) : List Byte :=
  if d.flag uMGT MGT_IPV4.VALID then beBytes 4 (d.get uMGT MGT_IPV4.ADDR)
  else
    let h := sha256 (slice d.fw.otp.serial 0 12)
    beBytes 2 0xA9FE ++ beBytes 1 (1 + beAt h 0 1 % 254) ++ slice h 1 1

/-- MGT_MAC as bytes, the first in [47:40]. -/
def Dev.mgtMac (d : Dev) : List Byte := beBytes 6 (d.get uMGT MGT_MAC.MAC)

/-- IPv6 link-local address, by modified EUI-64. -/
def Dev.mgtV6 (d : Dev) : List Byte :=
  let m := d.mgtMac
  beBytes 8 0xFE80000000000000 ++ beBytes 1 (beAt m 0 1 ^^^ 2) ++ slice m 1 2 ++ beBytes 2 0xFFFE ++ slice m 3 3

/-- Does the management port answer: the ROM in recovery mode, or firmware that runs? A failed port's function stops (R382). -/
def Dev.mgtRuns (d : Dev) : Bool :=
  (d.flag 0 FW_STATUS.RECOVERY || (d.fw.running.isSome && d.flag uHIF HIF_STATUS.FW_READY)) && !d.stopped uMGT

/-- A frame arrives. -/
def Dev.mgtRx (d : Dev) : Dev := (d.bump uMGT MGT_RX_FRAMES.COUNT).tally uMGT 0x20 1

/-- The port sends a frame, padded to the Ethernet minimum. -/
def Dev.mgtSend (d : Dev) (f : List Byte) : Dev :=
  ({ d with fw := { d.fw with mgtTx := padded f } }.bump uMGT MGT_TX_FRAMES.COUNT).tally uMGT 0x21 1

/-- Ethernet header of a reply. -/
def Dev.ethReply (d : Dev) (f : List Byte) (type : Nat) : List Byte := slice f 6 6 ++ d.mgtMac ++ beBytes 2 type

/-- An IP packet back to the sender of `f`, whose IP header begins at `ip`: protocol and payload, whose checksum the caller
has filled for IPv4. -/
def Dev.ipReply (d : Dev) (f : List Byte) (v6 : Bool) (ip proto : Nat) (body : List Byte) : List Byte :=
  if v6 then
    d.ethReply f 0x86DD ++ beBytes 4 0x60000000 ++ beBytes 2 body.length ++ beBytes 1 proto ++ beBytes 1 255 ++ d.mgtV6
    ++ slice f (ip + 8) 16 ++ body
  else
    let h := beBytes 2 0x4500 ++ beBytes 2 (20 + body.length) ++ beBytes 4 0 ++ beBytes 1 64 ++ beBytes 1 proto ++ beBytes 2 0
      ++ d.mgtV4 ++ slice f (ip + 12) 4
    d.ethReply f 0x0800 ++ patch h 10 (beBytes 2 (headerSum h 0 10 10)) ++ body

/-- Checksum of a whole message, its checksum field 0. -/
def sumOf (l : List Byte) : Nat := 65535 - fold16 (fold16 (sumWords ((l.length + 1) / 2) l 0))

/-- ICMPv6 checksum filled into a reply frame (the upper layer begins at 54). -/
def fillIcmp6 (f : List Byte) : List Byte := patch f 56 (beBytes 2 (v6Sum f 14 54 58 56))

/-- The answer to a frame, if it is an ARP request, a neighbour solicitation or an ICMP echo for this port. -/
def Dev.mgtAnswer (d : Dev) (f : List Byte) : Option (List Byte) :=
  if beAt f 12 2 = 0x0806 then
    if beAt f 14 8 = 0x0001080006040001 ∧ slice f 38 4 = d.mgtV4 then
      some (d.ethReply f 0x0806 ++ beBytes 8 0x0001080006040002 ++ d.mgtMac ++ d.mgtV4 ++ slice f 22 10)
    else none
  else match ipStart 5 f 12 with
    | none => none
    | some (true, ip) =>
      let up := ip + 40
      if beAt f (ip + 6) 1 ≠ 58 then none
      else if beAt f up 1 = 135 ∧ slice f (up + 8) 16 = d.mgtV6 then
        let asked : Bool := allZero (slice f (ip + 8) 16)
        let g := if asked then patch f (ip + 8) (beBytes 8 0xFF02000000000000 ++ beBytes 8 1) else f
        some (fillIcmp6 (d.ipReply g true ip 58 (beBytes 4 0x88000000 ++ beBytes 4 (if asked then 0x20000000 else 0x60000000)
          ++ d.mgtV6 ++ beBytes 2 0x0201 ++ d.mgtMac)))
      else if beAt f up 1 = 128 ∧ slice f (ip + 24) 16 = d.mgtV6 then
        some (fillIcmp6 (d.ipReply f true ip 58 (beBytes 4 0x81000000 ++ slice f (up + 4) (beAt f (ip + 4) 2 - 4))))
      else none
    | some (false, ip) =>
      let up := ipNext f false ip
      let n := beAt f (ip + 2) 2 - (up - ip)
      if beAt f (ip + 9) 1 = 1 ∧ beAt f up 1 = 8 ∧ slice f (ip + 16) 4 = d.mgtV4 then
        let m := beBytes 4 0 ++ slice f (up + 4) (n - 4)
        some (d.ipReply f false ip 1 (patch m 2 (beBytes 2 (sumOf m))))
      else none

/-- MGT_FRAME_RECEIVED: counted, and answered where R489 has an answer. -/
def Dev.mgtFrameReceived (d : Dev) (frame : List Byte) : Dev :=
  if ¬ d.flag uMGT MGT_STATUS.LINK_UP then d else
  let d := d.mgtRx
  match (if d.mgtRuns then d.mgtAnswer frame else none) with
  | some g => d.mgtSend g
  | none => d

/-- MGT_LINK_CHANGE. -/
def Dev.mgtLinkChange (d : Dev) (up : Bool) : Dev :=
  if up = d.flag uMGT MGT_STATUS.LINK_UP ∨ (up ∧ ¬ d.flag uMGT MGT_CFG.ADMIN_UP) then d else
  let speed := if up then d.get uMGT MGT_CFG.SPEED else d.get uMGT MGT_STATUS.SPEED
  ((d.setFlag uMGT MGT_STATUS.LINK_UP up).set uMGT MGT_STATUS.SPEED speed).raise uMGT 0x10
    (leBytes 1 up.toNat ++ leBytes 1 speed)

/-! ### Messages (R490) -/

/-- A headgate message taken out of its frame. -/
structure HgMsg where
  type : Nat
  session : Nat
  seq : Nat
  status : Nat
  payload : List Byte
  deriving DecidableEq, Repr

/-- Is a destination address one that the port listens on? DISCOVER comes to the broadcast addresses too. -/
def Dev.hgForUs (d : Dev) (f : List Byte) (v6 : Bool) (ip type : Nat) : Bool :=
  if v6 then
    let a := slice f (ip + 24) 16
    a == d.mgtV6 || (type == 1 && a == beBytes 8 0xFF02000000000000 ++ beBytes 8 1)
  else
    let a := slice f (ip + 16) 4
    a == d.mgtV4 || (type == 1 && a == beBytes 4 0xFFFFFFFF)

/-- The UDP payload that a frame carries to port 6561 of this port. -/
def Dev.hgPayload (d : Dev) (f : List Byte) : Option (List Byte) :=
  match ipStart 5 f 12 with
  | none => none
  | some (v6, ip) =>
    let udp := ipNext f v6 ip
    let proto := beAt f (if v6 then ip + 6 else ip + 9) 1
    let n := beAt f (udp + 4) 2
    if proto = 17 ∧ beAt f (udp + 2) 2 = 6561 ∧ 8 ≤ n ∧ udp + n ≤ f.length ∧ d.hgForUs f v6 ip (beAt f (udp + 11) 1) then
      some (slice f (udp + 8) (n - 8))
    else none

/-- R490's checks of a message, SESSION apart. -/
def hgParse (m : List Byte) : Option HgMsg :=
  if 20 ≤ m.length ∧ leAt m 0 2 = 0x4847 ∧ leAt m 2 1 = 1 ∧ leAt m 0x0C 2 = m.length - 20
      ∧ leAt m 0x10 4 = crc32cStd (patch m 0x10 (leBytes 4 0)) then
    some ⟨leAt m 3 1, leAt m 4 4, leAt m 8 4, leAt m 0x0E 1, slice m 20 (m.length - 20)⟩
  else none

/-- A message is discarded. -/
def Dev.hgBad (d : Dev) : Dev := (d.bump uMGT MGT_HGP_BAD.COUNT).tally uMGT 0x22 1

/-- Send a message to the sender of `f`. -/
def Dev.hgSend (d : Dev) (f : List Byte) (type session seq status : Nat) (payload : List Byte) : Dev :=
  match ipStart 5 f 12 with
  | none => d
  | some (v6, ip) =>
    let udp := ipNext f v6 ip
    let m := leBytes 2 0x4847 ++ leBytes 1 1 ++ leBytes 1 type ++ leBytes 4 session ++ leBytes 4 seq ++ leBytes 2 payload.length
      ++ leBytes 1 status ++ leBytes 1 0 ++ leBytes 4 0 ++ payload
    let m := patch m 0x10 (leBytes 4 (crc32cStd m))
    let u := beBytes 2 6561 ++ slice f udp 2 ++ beBytes 2 (8 + m.length) ++ beBytes 2 0 ++ m
    d.mgtSend (fillUdp (d.ipReply f v6 ip 17 u))

/-- ABORT and RESULT. -/
def Dev.hgAbort (d : Dev) (f : List Byte) (session status : Nat) : Dev := d.hgSend f 8 session 0 status []
def Dev.hgResult (d : Dev) (f : List Byte) (session status progress : Nat) : Dev :=
  d.hgSend f 7 session 0 status (leBytes 1 progress)

/-- RESULT while the device verifies or writes. -/
def Dev.hgBusy (d : Dev) (f : List Byte) (session : Nat) : Dev :=
  { d with draws := d.draws + 1 }.hgResult f session stRETRY_LATER (Config.hgpProgress d.draws % 101)

/-- A frame with a headgate message of a type reaches a device that answers: the message, or what becomes of the frame. -/
def Dev.hgTake (d : Dev) (f : List Byte) (type : Nat) (act : Dev → HgMsg → Dev) : Dev :=
  if ¬ d.flag uMGT MGT_STATUS.LINK_UP then d else
  let d := d.mgtRx
  if ¬ d.mgtRuns then d else
  match d.hgPayload f with
  | none => d
  | some m =>
    match hgParse m with
    | none => d.hgBad
    | some m => if m.type = type then act d m else d

/-! ### Sessions (R491, R492, R494) -/

def hgIDLE : Nat := 0
def hgRECEIVING : Nat := 1
def hgVERIFYING : Nat := 2
def hgWRITING : Nat := 3
def hgDONE : Nat := 4

def Dev.setHg (d : Dev) (h : Headgate) : Dev := { d with fw := { d.fw with hgp := h } }

/-- The session ends with a status: MGT_SESSION; an END repeated for it still finds the status. -/
def Dev.hgEnd (d : Dev) (status : Nat) : Dev :=
  let s := d.fw.hgp.session
  ((d.setHg { final := some (s, status) }).set uMGT MGT_STATUS.SESSION 0).raise uMGT 0x11
    (leBytes 1 0 ++ leBytes 1 status ++ leBytes 2 0 ++ leBytes 4 s)

/-- Is this message one of the open session? -/
def Dev.hgMine (d : Dev) (m : HgMsg) : Bool := d.fw.hgp.state != hgIDLE && m.session == d.fw.hgp.session

/-- The peer is heard from. -/
def Dev.hgHeard (d : Dev) (f : List Byte) : Dev := d.setHg { d.fw.hgp with lastMsg := d.now, peer := f }

/-- Chunks of the image, and the bytes of chunk `n`. -/
def Headgate.count (h : Headgate) : Nat := (h.length + 1023) / 1024
def Headgate.size (h : Headgate) (n : Nat) : Nat := if n = h.count then h.length - 1024 * (n - 1) else 1024

/-- The highest chunk received with every earlier one. -/
def Headgate.whole (h : Headgate) : Nat → Nat → Nat
  | 0, n => n
  | fuel + 1, n => if (h.chunks.get? [n + 1]).isSome then h.whole fuel (n + 1) else n

def Headgate.seq (h : Headgate) : Nat := h.whole h.chunks.length 0

/-- Send ACK. -/
def Dev.hgAck (d : Dev) (f : List Byte) : Dev :=
  let h := d.fw.hgp
  let s := h.seq
  let map := (List.range 32).foldl (fun m i => if (h.chunks.get? [s + 1 + i]).isSome then m + 2 ^ i else m) 0
  (d.setHg { h with acked := s, since := 0 }).hgSend f 4 h.session s 0 (leBytes 4 map)

/-- HGP_DISCOVER: answered with OFFER. -/
def Dev.hgpDiscover (d : Dev) (frame : List Byte) : Dev :=
  d.hgTake frame 1 (fun d m =>
    if m.session ≠ 0 then d.hgBad else
    let mode : Nat := if d.flag 0 FW_STATUS.RECOVERY then 0 else 1
    let ver := match d.fw.running with | some i => hdrVersion i.header | none => 0
    d.hgSend frame 2 0 0 0 (slice (slice d.fw.otp.serial 0 12 ++ d.identBytes 1 ++ leBytes 1 mode ++ leBytes 1 d.fw.otp.svFused
      ++ leBytes 2 1024 ++ leBytes 2 32 ++ d.mgtMac ++ leBytes 4 ver) 0 64))

/-- Why a START opens no session, in recovery mode or in service (R491, R494). -/
def Dev.hgRefuse (d : Dev) (target : Nat) : Option Nat :=
  if d.flag 0 FW_STATUS.RECOVERY then (if target = 3 then some stMALFORMED else none)
  else if ¬ d.flag uMGT MGT_CFG.NET_STAGE_EN then some stPERMISSION
  else if target ≠ d.otherSlot then some stMALFORMED
  else if d.stagingBusy then some stRETRY_LATER
  else none

/-- HGP_START. -/
def Dev.hgpStart (d : Dev) (frame : List Byte) : Dev :=
  d.hgTake frame 3 (fun d m =>
    if m.session = 0 ∨ m.payload.length ≠ 8 then d.hgBad
    else if d.fw.hgp.state = hgRECEIVING ∧ m.session = d.fw.hgp.session then (d.hgHeard frame).hgAck frame
    else if d.fw.hgp.state ≠ hgIDLE then d.hgAbort frame m.session stRETRY_LATER
    else
      let target := leAt m.payload 4 1 % 4
      match d.hgRefuse target with
      | some st => d.hgAbort frame m.session st
      | none =>
        let d := d.setHg { state := hgRECEIVING, session := m.session, target := target
                           allow := bit (leAt m.payload 4 1) 2, length := leAt m.payload 0 4, lastMsg := d.now, peer := frame }
        let d := ((d.set uMGT MGT_STATUS.SESSION 1).bump uMGT MGT_SESSIONS.COUNT).raise uMGT 0x11
          (leBytes 1 1 ++ leBytes 1 0 ++ leBytes 2 0 ++ leBytes 4 m.session)
        d.hgAck frame)

/-- Schema for check 8 of a headgate image: the ROM skips it. -/
def Dev.hgSchema (d : Dev) : Option Nat := if d.flag 0 FW_STATUS.RECOVERY then none else d.storeSchema

/-- What chunk 1 is refused for. -/
def Dev.hgHeaderBad (d : Dev) : Option Nat :=
  let h := d.fw.hgp
  let hdr := slice (h.chunks.getD [] [1]) 0 512
  match d.checkHeader hdr d.hgSchema h.allow with
  | some r => some r.status
  | none => if h.length ≠ 512 + hdrPayload hdr then some stMALFORMED else none

/-- HGP_DATA. A chunk of the wrong size counts as a wrong LENGTH. -/
def Dev.hgpData (d : Dev) (frame : List Byte) : Dev :=
  d.hgTake frame 5 (fun d m =>
    let h := d.fw.hgp
    if ¬ d.hgMine m then d.hgBad
    else if h.state ≠ hgRECEIVING then d.hgHeard frame
    else
      let d := d.hgHeard frame
      if m.seq < h.acked + 1 ∨ h.acked + 32 < m.seq ∨ (h.chunks.get? [m.seq]).isSome then d.hgAck frame
      else if h.count < m.seq ∨ m.payload.length ≠ h.size m.seq then d.hgBad
      else
        let h := d.fw.hgp
        let d := d.setHg { h with chunks := h.chunks.insert [m.seq] m.payload, since := h.since + 1, timer := true, lastData := d.now }
        match (if m.seq = 1 then d.hgHeaderBad else none) with
        | some st => (d.hgAbort frame h.session st).hgEnd st
        | none => if 8 ≤ d.fw.hgp.since then d.hgAck frame else d)

/-- HGP_ACK_TIMER: 2 ms after the last DATA. -/
def Dev.hgpAckTimer (d : Dev) : Dev :=
  let h := d.fw.hgp
  if h.state = hgRECEIVING ∧ h.timer ∧ h.lastData + 2000000 ≤ d.now then
    (d.setHg { h with timer := false }).hgAck h.peer
  else d

/-- Is every chunk present? -/
def Headgate.complete (h : Headgate) : Bool := h.seq == h.count

/-- HGP_END. -/
def Dev.hgpEnd (d : Dev) (frame : List Byte) : Dev :=
  d.hgTake frame 6 (fun d m =>
    let h := d.fw.hgp
    if h.state = hgIDLE ∧ h.final.any (fun x => x.1 == m.session) then
      d.hgResult frame m.session ((h.final.map (·.2)).getD 0) 100
    else if ¬ d.hgMine m then d.hgBad
    else
      let d := d.hgHeard frame
      if h.state = hgDONE then d.hgResult frame h.session stOK 100
      else if h.state ≠ hgRECEIVING then d.hgBusy frame h.session
      else if h.complete then (d.setHg { d.fw.hgp with state := hgVERIFYING }).hgBusy frame h.session
      else d.hgAck frame)

/-- The image received. -/
def Headgate.image (h : Headgate) : List Byte := (h.chunks.map (·.2)).flatten

/-- A session that ends with RESULT. -/
def Dev.hgFail (d : Dev) (status : Nat) : Dev :=
  (d.hgResult d.fw.hgp.peer d.fw.hgp.session status 100).hgEnd status

/-- What keeps a session in service from writing its slot: a staging, an activation or a trial begun since its START, or another slot that
runs now (R481, R494). -/
def Dev.hgBarred (d : Dev) (target : Nat) : Option Nat :=
  if d.flag 0 FW_STATUS.RECOVERY then none
  else if d.stagingBusy then some stRETRY_LATER
  else if target ≠ d.otherSlot then some stMALFORMED
  else none

/-- HGP_VERIFIED: checks 9 and 10 end. The slot is erased before the write begins. -/
def Dev.hgpVerified (d : Dev) : Dev :=
  let h := d.fw.hgp
  if h.state ≠ hgVERIFYING then d else
  match (d.checkPayload h.image).map (·.status) with
  | some st => d.hgFail st
  | none =>
    match d.hgBarred h.target with
    | some st => d.hgFail st
    | none =>
    if h.target = 2 then (d.hgFail stOK).runFromMemory h.image
    else if d.flashHeld then d
    else
      let d := if d.flag 0 FW_STATUS.RECOVERY then d.putSlot h.target [] else d.eraseOther
      d.setHg { d.fw.hgp with state := hgWRITING }

/-- HGP_WRITTEN; `writeOk` false is a flash write or read-back that fails. -/
def Dev.hgpWritten (d : Dev) (writeOk : Bool) : Dev :=
  let h := d.fw.hgp
  if h.state ≠ hgWRITING ∨ d.flashHeld then d
  else if ¬ writeOk then d.hgFail stDATA_ERROR
  else
    let d := if d.flag 0 FW_STATUS.RECOVERY then (d.putSlot h.target h.image).nameSlot h.target
      else d.stagedNow h.image h.allow
    (d.setHg { d.fw.hgp with state := hgDONE, lastMsg := d.now }).hgResult h.peer h.session stOK 100

/-- HGP_ABORT from the peer. -/
def Dev.hgpAbort (d : Dev) (frame : List Byte) : Dev :=
  d.hgTake frame 8 (fun d m => if d.hgMine m then d.hgEnd m.status else d.hgBad)

/-- HGP_BOOT. -/
def Dev.hgpBoot (d : Dev) (frame : List Byte) : Dev :=
  d.hgTake frame 9 (fun d m =>
    if ¬ d.flag 0 FW_STATUS.RECOVERY then d.hgResult frame m.session stPERMISSION 0
    else if ¬ d.hgMine m then d.hgBad
    else if d.fw.hgp.state = hgDONE then (d.hgResult frame m.session stOK 100).warm (2 ^ 6)
    else d.hgHeard frame)

/-- HGP_SESSION_TIMEOUT: 10 s without a valid message. -/
def Dev.hgpSessionTimeout (d : Dev) : Dev :=
  let h := d.fw.hgp
  if h.state = hgIDLE ∨ d.now < h.lastMsg + 10000000000 then d
  else if h.state = hgDONE then d.hgEnd stOK
  else (d.hgAbort h.peer h.session stTIMEOUT).hgEnd stTIMEOUT

def execMgtFrameReceived (frame : List Byte) (s : State) : Answer := s.go (·.mgtFrameReceived frame)
def execMgtLinkChange (up : Bool) (s : State) : Answer := s.go (·.mgtLinkChange up)
def execHgpDiscover (frame : List Byte) (s : State) : Answer := s.go (·.hgpDiscover frame)
def execHgpStart (frame : List Byte) (s : State) : Answer := s.go (·.hgpStart frame)
def execHgpData (frame : List Byte) (s : State) : Answer := s.go (·.hgpData frame)
def execHgpAckTimer (s : State) : Answer := s.go Dev.hgpAckTimer
def execHgpEnd (frame : List Byte) (s : State) : Answer := s.go (·.hgpEnd frame)
def execHgpVerified (s : State) : Answer := s.go Dev.hgpVerified
def execHgpWritten (writeOk : Bool) (s : State) : Answer := s.go (·.hgpWritten writeOk)
def execHgpAbort (frame : List Byte) (s : State) : Answer := s.go (·.hgpAbort frame)
def execHgpBoot (frame : List Byte) (s : State) : Answer := s.go (·.hgpBoot frame)
def execHgpSessionTimeout (s : State) : Answer := s.go Dev.hgpSessionTimeout

end Sys2Proof.Machine
end

