-- ==== Sys2Proof/Machine/Panel.lean ====
section
/-! DEFINITION. Cages and modules, drains, the LED stream, and time at the ports (R89–R105). -/
namespace Sys2Proof.Machine

/-- Raise an event on every port of a cage. -/
def Dev.raiseCage (d : Dev) (s type : Nat) (payload : List Byte) : Dev :=
  (d.cagePorts s).foldl (fun d p => d.raise (uPort p) type payload) d

/-! ### Draining (R95, R97) -/

/-- A drain state changes, with its outcome. -/
def Dev.setDrain (d : Dev) (p new outcome : Nat) : Dev :=
  let old := d.drainState p
  (d.set (uPort p) PRT_STATUS.DRAIN_STATE new).raise (uPort p) 0x1A (leBytes 1 old ++ leBytes 1 new ++ leBytes 1 outcome)

/-- The pending COMMIT of a port completes. -/
def Dev.endCommit (d : Dev) (p : Nat) (r : Reply) : Dev :=
  let x := d.portX p
  match x.commit with
  | none => d
  | some t => (d.setPortX p { x with commit := none }).finish t r

def Dev.setLpmode (d : Dev) (p : Nat) (b : Bool) : Dev :=
  match d.cageOf p with
  | none => d
  | some s => d.setSlot s { d.slot s with lpmode := b }

/-- Begin the quiet watch. -/
def Dev.beginWatch (d : Dev) (p : Nat) : Dev := (d.setPortX p { d.portX p with watchFrom := d.now }).setDrain p 2 0

/-- Reach DRAINED: LPMODE asserted, the link to DISABLED with cause 9, and the pending COMMIT completes. -/
def Dev.reachDrained (d : Dev) (p outcome : Nat) (r : Reply) : Dev :=
  (((d.setLpmode p true).downPort p 9 true).setDrain p 3 outcome).endCommit p r

/-- Leave DRAINED: the port is released. -/
def Dev.releaseDrain (d : Dev) (p : Nat) : Dev := ((d.setLpmode p false).setDrain p 0 0).settlePort p

/-- A drain is cancelled. -/
def Dev.cancelDrain (d : Dev) (p outcome : Nat) : Dev := (d.setDrain p 0 outcome).endCommit p (.fail stUNIT_UNAVAILABLE)

/-- A button press on one port (R97). -/
def Dev.drainButton (d : Dev) (p s : Nat) : Dev :=
  if d.flag (uPort p) PRT_DRAIN.BUTTON_EN then
    match d.drainState p with
    | 0 => d.setDrain p 1 0
    | 1 => d.cancelDrain p 1
    | 2 => d.cancelDrain p 1
    | _ => if (d.slot s).present then d.releaseDrain p else d
  else d

/-- Parameter table of PORT_DRAIN (R95). -/
def HCmd.portDrainParams (c : HCmd) : List Param :=
  [pAny 0 6 0, c.zero 0 7 7, pAny 1 1 0, c.zero 1 7 2]

/-- PORT_DRAIN (0x0902). A COMMIT completes when the port is DRAINED. -/
def Dev.portDrain (d : Dev) (c : HCmd) : Dev :=
  d.command c 0x0902 c.portDrainParams (fun d =>
    let p := c.par 0 6 0
    let no : Dev × Option Reply := (d, some (.fail stUNIT_UNAVAILABLE))
    if ¬ d.portInUse p then no
    else match c.par 1 1 0, d.drainState p with
      | 0, 0 => (d.setDrain p 1 0, some .ok)
      | 1, 0 => ((d.setPortX p { d.portX p with commit := some c.ticket }).beginWatch p, none)
      | 1, 1 => ((d.setPortX p { d.portX p with commit := some c.ticket }).beginWatch p, none)
      | 2, 1 => (d.cancelDrain p 1, some .ok)
      | 2, 2 => (d.cancelDrain p 1, some .ok)
      | 3, 3 => (d.releaseDrain p, some .ok)
      | _, _ => no)

/-- DRAIN_HOST_WAIT_EXPIRE: the device has been HEADLESS for HOST_WAIT_S. -/
def Dev.drainHostWaitExpire (d : Dev) (p : Nat) : Dev :=
  if d.portInUse p ∧ d.drainState p = 1 ∧ d.flag 0 HDL_STATUS.HEADLESS
      ∧ d.get 0 HDL_SINCE.TIME + d.act (uPort p) PRT_DRAIN.HOST_WAIT_S * 1000000000 ≤ d.now then
    if d.flag (uPort p) PRT_DRAIN.HEADLESS_ACT then (d.beginWatch p).logDecision 1 (uPort p) 0
    else (d.cancelDrain p 4).logDecision 1 (uPort p) 4
  else d

/-- DRAIN_QUIET: the queues are empty and nothing was enqueued for QUIET_MS. -/
def Dev.drainQuiet (d : Dev) (p : Nat) : Dev :=
  let since := max (d.portX p).watchFrom (d.sch.lastEnq.getD 0 [p])
  if d.portInUse p ∧ d.drainState p = 2 ∧ (d.portQueues p).isEmpty
      ∧ since + d.act (uPort p) PRT_DRAIN.QUIET_MS * 1000000 ≤ d.now then d.reachDrained p 0 .ok
  else d

/-- DRAIN_MAX_EXPIRE: DRAIN_MAX_S since COMMIT. -/
def Dev.drainMaxExpire (d : Dev) (p : Nat) : Dev :=
  if d.portInUse p ∧ d.drainState p = 2
      ∧ (d.portX p).watchFrom + d.act (uPort p) PRT_DRAIN.DRAIN_MAX_S * 1000000000 ≤ d.now then
    d.reachDrained p 3 (.fail stTIMEOUT)
  else d

/-! ### The serial-GPIO chains (R89–R91) -/

/-- One slot takes its 4 input bits of a good scan. -/
def Slot.latch (x : Slot) (b now : Nat) : Slot :=
  let pn := bit b 0
  let bn := bit b 2
  { x with
    presentN := pn, intN := bit b 1, buttonN := bn
    highScans := if pn then x.highScans + 1 else 0
    lowFrom := if x.presentN then now else x.lowFrom
    pressedFrom := if x.buttonN then now else x.pressedFrom
    pressed := if bn then false else x.pressed }

/-- The 4 output bits of a slot: RESET_N, LPMODE, SELECT_N and 1. -/
def Slot.outBits (x : Slot) : Nat := x.resetN.toNat + 2 * x.lpmode.toNat + 4 * x.selectN.toNat + 8

/-- SGPIO_SCAN: 260 bits each way; bit 0 is the first bit received (R89, R90). -/
def Dev.sgpioScan (d : Dev) (chain stream : Nat) : Dev :=
  if chain < 2 ∧ d.flag 1 FP_SGPIO_CFG.EN then
    let base := 64 * chain
    let out := ((List.range 64).map (fun i => (d.slot (base + i)).outBits * 16 ^ (i + 1))).sum
    let d := { d with panel := { d.panel with sgOut := d.panel.sgOut.insert [chain] out } }
    if stream % 16 = 5 then
      let d := { d with panel := { d.panel with badRun := d.panel.badRun.erase [chain] } }
      let d := if chain = 0 then d.set 1 FP_SGPIO_CFG.CHAIN_A_FAILED 0 else d.set 1 FP_SGPIO_CFG.CHAIN_B_FAILED 0
      (List.range 64).foldl (fun d i => d.setSlot (base + i) ((d.slot (base + i)).latch (bits stream (4 * i + 7) (4 * i + 4)) d.now)) d
    else
      let d := { d with panel := { d.panel with badRun := d.panel.badRun.insert [chain] (d.panel.badRun.getD 0 [chain] + 1) } }
      if chain = 0 then d.bump 1 FP_SGPIO_BAD.CHAIN_A_BAD else d.bump 1 FP_SGPIO_BAD.CHAIN_B_BAD
  else d

def Dev.chainFailed (d : Dev) (chain : Nat) : Bool :=
  if chain = 0 then d.flag 1 FP_SGPIO_CFG.CHAIN_A_FAILED else d.flag 1 FP_SGPIO_CFG.CHAIN_B_FAILED

/-- CHAIN_FAILED: 16 discarded scans in a row (R90). -/
def Dev.declareChain (d : Dev) (chain : Nat) : Dev :=
  if chain < 2 ∧ 16 ≤ d.panel.badRun.getD 0 [chain] ∧ ¬ d.chainFailed chain then
    let d := if chain = 0 then d.set 1 FP_SGPIO_CFG.CHAIN_A_FAILED 1 else d.set 1 FP_SGPIO_CFG.CHAIN_B_FAILED 1
    (((List.range 64).map (· + 64 * chain)).filter (fun p => d.portInUse p)).foldl
      (fun d p => d.raise (uPort p) 0x1C (leBytes 1 chain)) d
  else d

/-- One port of a cage whose module was removed (R83, R91, R97). -/
def Dev.removePort (d : Dev) (p : Nat) (rxCut txCut : Bool) : Dev :=
  let d := if d.linkState p = lsDISABLED then d
    else
      let d := if d.linkState p = lsUP then d.cutFrames p rxCut txCut else d
      (d.setPortX p { d.portX p with episode := false }).setLink p lsNO_MODULE 2
  if d.drainState p = 2 then d.reachDrained p 2 .ok else d

/-- MODULE_REMOVED: PRESENT_N high in 2 scans in a row (R91). -/
def Dev.moduleRemoved (d : Dev) (s : Nat) (rxCut txCut : Bool) : Dev :=
  let x := d.slot s
  if s < 128 ∧ x.present ∧ 2 ≤ x.highScans then
    let d := (d.setSlot s { x with present := false, ready := false, fault := false }).showModule s
    let d := d.raiseCage s 0x16 (leBytes 1 s)
    (d.cagePorts s).foldl (fun d p => d.removePort p rxCut txCut) d
  else d

/-- MODULE_INSERTED: PRESENT_N low in every scan for 200 ms (R91); insertion releases a drained port (R97). -/
def Dev.moduleInserted (d : Dev) (s : Nat) : Dev :=
  let x := d.slot s
  if s < 128 ∧ ¬ x.present ∧ ¬ x.presentN ∧ x.lowFrom + 200000000 ≤ d.now then
    let d := (d.setSlot s { x with present := true, ready := false, fault := false, tried := d.now }).showModule s
    let d := d.raiseCage s 0x15 (leBytes 1 s)
    (d.cagePorts s).foldl (fun d p =>
      if d.drainState p = 3 ∧ d.flag (uPort p) PRT_DRAIN.AUTO_RELEASE then d.releaseDrain p else d) d
  else d

/-- BUTTON_PRESSED: BUTTON_N low for 20 ms after reading high; presses on a failed chain are ignored (R90, R91). -/
def Dev.buttonPressed (d : Dev) (s : Nat) : Dev :=
  let x := d.slot s
  if s < 128 ∧ ¬ x.buttonN ∧ ¬ x.pressed ∧ x.pressedFrom + 20000000 ≤ d.now ∧ ¬ d.chainFailed (s / 64) then
    let d := (d.setSlot s { x with pressed := true }).raiseCage s 0x19 (leBytes 1 s)
    (d.cagePorts s).foldl (fun d p => d.drainButton p s) d
  else d

/-- Does the firmware manage a slot's module (R92)? -/
def Dev.fwManages (d : Dev) (s : Nat) : Bool := !d.flag (uPort s) PRT_CTRL.HOST_MODULE

/-- An I2C master begins a transaction with a slot: the slot is the one it selects, and with MUX_EN the switch's channel is written (R93).
That the slot stays selected until the master selects another is the model's choice. -/
def Dev.i2cBegin (d : Dev) (s : Nat) : Dev :=
  let m := s / 16
  let d := (List.range 16).foldl (fun d i =>
    let x := d.slot (16 * m + i)
    if x.selectN = (16 * m + i != s) then d else d.setSlot (16 * m + i) { x with selectN := 16 * m + i != s }) d
  if d.getI 1 FP_I2C_CFG.MUX_EN m = 1 then
    let mux := d.panel.mux.insert [m] (d.getI 1 FP_I2C_CFG.MUX_ADDR m + (bit s 3).toNat, s % 8)
    { d with panel := { d.panel with mux := mux } }
  else d

/-- MODULE_INT: the firmware reads and clears the module's flags (R91). -/
def Dev.moduleInt (d : Dev) (s : Nat) (flags : List Byte) (state : Nat) : Dev :=
  if s < 128 ∧ (d.slot s).present ∧ ¬ (d.slot s).intN ∧ d.fwManages s then
    let d := d.i2cBegin s
    (d.setSlot s { d.slot s with intN := true }).raiseCage s 0x17 (slice flags 0 8 ++ leBytes 1 state)
  else d

/-- MODULE_READY: the module reached ModuleReady, by the firmware or by the host (R92). -/
def Dev.moduleBecomesReady (d : Dev) (s : Nat) : Dev :=
  let x := d.slot s
  if s < 128 ∧ x.present ∧ ¬ x.fault then
    let d := if d.fwManages s then d.i2cBegin s else d
    let d := (d.setSlot s { d.slot s with ready := true }).showModule s
    d.settlePorts (d.cagePorts s)
  else d

/-- MODULE_FAULT of a module the firmware manages: not ready 10 s after it was inserted or tried again (0), in a CMIS fault state (1), or
no answer (2) (R92, R106). What it reads or tries to read takes a transaction with the slot (R93). -/
def Dev.moduleFault (d : Dev) (s why : Nat) : Dev :=
  let x := d.slot s
  if s < 128 ∧ x.present ∧ d.fwManages s ∧ (why = 0 → ¬ x.ready ∧ x.tried + 10000000000 ≤ d.now) then
    let d := if why = 0 then d else d.i2cBegin s
    let d := (d.setSlot s { d.slot s with ready := false, fault := true }).showModule s
    let d := d.raiseCage s 0x18 (leBytes 1 why)
    (d.cagePorts s).foldl (fun d p =>
      if d.linkState p = lsDISABLED then d
      else
        let d := d.interrupt p false
        (d.setPortX p { d.portX p with episode := false }).setLink p lsNO_MODULE 12) d
  else d

/-- Does a write need HOST_MODULE (R96): lower-page bytes 26–31, or page 0x10? -/
def guardedRun (page off len : Nat) : Bool :=
  if off < 128 then decide (off ≤ 31 ∧ 26 < off + len) else page == 0x10

/-- Parameter table of MODULE_ACCESS (R96). -/
def HCmd.moduleAccessParams (c : HCmd) : List Param :=
  let off := c.par 3 7 0
  [pAny 0 7 0, pAny 1 7 0, pAny 2 7 0, pAny 3 7 0,
   c.must 4 7 0 (fun n => decide (1 ≤ n ∧ n ≤ 128 ∧ off + n ≤ 256 ∧ (128 ≤ off ∨ off + n ≤ 128))), pAny 8 63 0]

/-- MODULE_ACCESS (0x0903). The module's answer comes from outside the device. Of the statuses that apply together, the order here
(PERMISSION, then UNIT_UNAVAILABLE) is the model's choice: R96 lists them without one. -/
def Dev.moduleAccess (d : Dev) (c : HCmd) (a : I2cAnswer) : Dev :=
  let s := c.par 0 6 0
  let off := c.par 3 7 0
  let len := c.par 4 7 0
  let write : Bool := c.par 0 7 7 == 1
  d.commandNow c 0x0903 c.moduleAccessParams (fun d =>
    if write ∧ guardedRun (c.par 2 7 0) off len ∧ d.fwManages s then (d, .fail stPERMISSION)
    else if ¬ (d.slot s).present then (d, .fail stUNIT_UNAVAILABLE)
    else if a = .busy then (d, .fail stRETRY_LATER)
    else
      let d := d.i2cBegin s
      match a with
      | .busy => (d, .fail stRETRY_LATER)
      | .refused => (d, .fail stDATA_ERROR)
      | .stretched => (d, .fail stTIMEOUT)
      | .done bytes =>
        if write then (if c.readOk then (d, .ok) else (d.dmaFailed, .fail stDATA_ERROR))
        else d.hostBlock c (c.par 8 63 0) (slice bytes 0 len) 0)

/-! ### The LED stream (R98, R99) -/

/-- SPEED of a port's byte. -/
def Dev.ledSpeed (d : Dev) (p : Nat) : Nat :=
  if ¬ d.portInUse p ∨ d.linkState p ≠ lsUP then 0
  else if d.laneRate p = 1 then 1
  else if d.octetMode p = 3 ∨ d.octetMode p = 4 then 2 else 3

/-- FAULT_DRAIN of a port's byte: REQUESTED and DRAINING blink, faults are steady. That a port which both drains and is faulty blinks is the
model's choice: R98 gives no precedence. -/
def Dev.ledFault (d : Dev) (p : Nat) : Nat :=
  if d.drainState p = 1 ∨ d.drainState p = 2 then 2
  else if d.linkState p = lsTRAIN_FAILED ∨ d.chainFailed (p / 64) ∨ ((d.cageOf p).any (fun s => (d.slot s).fault)) = true then 1
  else 0

/-- ACT of a port's byte: it toggles at 8 Hz, in a phase that R98 leaves open, while a frame passed in the last 100 ms. -/
def Dev.ledAct (d : Dev) (p : Nat) : Bool :=
  match (d.portX p).lastFrame with
  | none => false
  | some t => decide (d.now ≤ t + 100000000) && (d.now + Config.ledPhase p) / 62500000 % 2 == 1

def Dev.ledByte (d : Dev) (p : Nat) : Nat :=
  if d.flag 1 FP_LED_CFG.LAMP_TEST then 0xFF
  else if d.drainState p = 3 ∨ ¬ d.portInUse p then 0
  else (d.linkState p == lsUP).toNat + 2 * (d.ledAct p).toNat + 4 * d.ledSpeed p + 16 * d.ledFault p

/-- LED_FRAME: the 1,024-bit stream goes out, port 127's byte first. -/
def Dev.ledFrame (d : Dev) : Dev :=
  if d.flag 1 FP_LED_CFG.EN then
    { d with panel := { d.panel with leds := ((List.range 128).map (fun p => d.ledByte p * 256 ^ p)).sum } }
  else d

/-! ### Pulses and time of day (R102–R105) -/

/-- Is device time within 4 ns of a whole second plus OUT_OFFSET (2^−16 ns, signed) (R102)? -/
def Dev.atSecond (d : Dev) : Bool :=
  let second : Nat := 1000000000 * 65536
  let x := (((d.now * 65536 + d.frac : Nat) : Int) - toSigned 32 (d.get 1 FP_PPS_CFG.OUT_OFFSET)) % second
  decide (x ≤ 4 * 65536 ∨ second - 4 * 65536 ≤ x)

/-- PPS_OUT_EDGE: PPS_OUT rises. -/
def Dev.ppsOutEdge (d : Dev) : Dev :=
  if d.flag 1 FP_PPS_CFG.OUT_EN ∧ d.atSecond then { d with panel := { d.panel with ppsOut := some d.now } } else d

/-- Level of PPS_OUT: high for OUT_WIDTH_US from its rise (R102). -/
def Dev.ppsLevel (d : Dev) : Bool :=
  d.panel.ppsOut.any (fun t => decide (d.now < t + d.act 1 FP_PPS_CFG.OUT_WIDTH_US * 1000))

/-- Device time is loaded at a PPS_IN edge: SECONDS, less the capture delay (R104). -/
def Dev.loadTime (d : Dev) (seconds : Nat) : Dev :=
  { d with now := (seconds * 1000000000 + 2 ^ 64 - Config.ppsInDelay % 2 ^ 64) % 2 ^ 64, frac := 0 }

/-- PPS_IN_EDGE: the selected edge is captured; a message that ended at least 1 ms before loads device time, and a later one
is discarded (R102, R104, R105). -/
def Dev.ppsInEdge (d : Dev) (rising : Bool) : Dev :=
  if d.flag 1 FP_PPS_CFG.IN_EN ∧ (d.get 1 FP_PPS_CFG.IN_EDGE = 0 ↔ rising = true) then
    let now := d.now
    let d := ((d.set 1 FP_PPS_IN_TS.TIME d.now).set 1 FP_PPS_IN_INFO.FRAC d.frac).bump 1 FP_PPS_IN_INFO.COUNT
    match d.panel.tod with
    | none => d
    | some m =>
      let d := { d with panel := { d.panel with tod := none } }
      if now < m.stop + 1000000 then d.bump 1 FP_TOD_ERR.TOD_LATE
      else if d.flag 1 FP_TOD_CFG.IN_LOAD then d.loadTime m.seconds
      else d
  else d

/-- CRC-16 of R103: polynomial 0x1021, initial value 0xFFFF, no reflection and no final XOR. -/
def crc16Byte (crc b : Nat) : Nat :=
  (List.range 8).foldl (fun c _ =>
    if bit c 15 then (c * 2 % 65536) ^^^ 0x1021 else c * 2 % 65536) (crc ^^^ (b * 256))

def crc16 (bs : List Byte) : Nat := bs.foldl (fun c b => crc16Byte c b.toNat) 0xFFFF

/-- The 24 bytes of a time-of-day message (R103). -/
def todBytes (seconds utc flags cls acc src var seq : Nat) : List Byte :=
  let b := leBytes 2 0x4B5A ++ leBytes 1 1 ++ leBytes 1 24 ++ leBytes 6 seconds ++ leBytes 2 utc ++ leBytes 1 flags
    ++ leBytes 1 cls ++ leBytes 1 acc ++ leBytes 1 src ++ leBytes 2 var ++ leBytes 2 seq ++ leBytes 2 0
  b ++ leBytes 2 (crc16 b)

/-- TOD_OUT_MESSAGE: the message names the second that begins at the next PPS edge; FLAGS bit 3 reads 1 while the PTP
service is LOCKED (R103, R104, R452). -/
def Dev.todOutMessage (d : Dev) : Dev :=
  if d.flag 1 FP_TOD_CFG.OUT_EN then
    let locked : Bool := d.get 730 SVC_PTP_STATUS.STATE == 2 && d.get 730 SVC_PTP_CFG.SOURCE != 2
    let flags := d.get 1 FP_TOD_OUT_INFO.FLAGS % 64
    let b := todBytes (d.now / 1000000000 + 1) (d.get 1 FP_TOD_OUT_INFO.UTC_OFFSET) (setBit flags 3 (bit flags 3 || locked))
      (d.get 1 FP_TOD_OUT_INFO.CLOCK_CLASS) (d.get 1 FP_TOD_OUT_INFO.CLOCK_ACCURACY) (d.get 1 FP_TOD_OUT_INFO.TIME_SOURCE)
      (d.get 1 FP_TOD_OUT_INFO.OFFSET_VARIANCE) d.panel.todSeq
    { d with panel := { d.panel with todOut := b, todSeq := (d.panel.todSeq + 1) % 65536 } }
  else d

/-- Is a received message whole and right (R104)? -/
def todOk (b : List Byte) : Bool :=
  b.length == 24 && leAt b 0 2 == 0x4B5A && leAt b 2 1 == 1 && leAt b 3 1 == 24 && leAt b 0x16 2 == crc16 (b.take 22)

/-- TOD_IN_MESSAGE: a good message is kept for the next edge; another is counted in TOD_BAD (R104). -/
def Dev.todInMessage (d : Dev) (b : List Byte) : Dev :=
  if d.flag 1 FP_TOD_CFG.IN_EN then
    if todOk b then
      let d := (d.set 1 FP_TOD_IN.SECONDS (leAt b 4 6)).set 1 FP_TOD_IN.SEQ (leAt b 0x12 2)
      { d with panel := { d.panel with tod := some ⟨leAt b 4 6, d.now⟩ } }
    else d.bump 1 FP_TOD_ERR.TOD_BAD
  else d

def execSgpioScan (chain stream : Nat) (s : State) : Answer := s.go (·.sgpioScan chain stream)
def execChainFailed (chain : Nat) (s : State) : Answer := s.go (·.declareChain chain)
def execModuleRemoved (slot : Nat) (rxCut txCut : Bool) (s : State) : Answer := s.go (·.moduleRemoved slot rxCut txCut)
def execModuleInserted (slot : Nat) (s : State) : Answer := s.go (·.moduleInserted slot)
def execButtonPressed (slot : Nat) (s : State) : Answer := s.go (·.buttonPressed slot)
def execModuleInt (slot : Nat) (flags : List Byte) (state : Nat) (s : State) : Answer := s.go (·.moduleInt slot flags state)
def execModuleReady (slot : Nat) (s : State) : Answer := s.go (·.moduleBecomesReady slot)
def execModuleFault (slot why : Nat) (s : State) : Answer := s.go (·.moduleFault slot why)
def execPortDrain (c : HCmd) (s : State) : Answer := s.go (·.portDrain c)
def execModuleAccess (c : HCmd) (answer : I2cAnswer) (s : State) : Answer := s.go (·.moduleAccess c answer)
def execDrainHostWaitExpire (port : Nat) (s : State) : Answer := s.go (·.drainHostWaitExpire port)
def execDrainQuiet (port : Nat) (s : State) : Answer := s.go (·.drainQuiet port)
def execDrainMaxExpire (port : Nat) (s : State) : Answer := s.go (·.drainMaxExpire port)
def execLedFrame (s : State) : Answer := s.go Dev.ledFrame
def execPpsOutEdge (s : State) : Answer := s.go Dev.ppsOutEdge
def execPpsInEdge (rising : Bool) (s : State) : Answer := s.go (·.ppsInEdge rising)
def execTodOutMessage (s : State) : Answer := s.go Dev.todOutMessage
def execTodInMessage (bytes : List Byte) (s : State) : Answer := s.go (·.todInMessage bytes)

end Sys2Proof.Machine
end

