-- ==== Sys2Proof/Machine/Clocks.lean ====
section
/-! DEFINITION. The clock domains of the units, and the cycles they have run (R66, R501, R529). -/
namespace Sys2Proof.Machine

/-- Is a DRAM-side number of the Q-die's: stacks 4 to 7 (R16)? -/
def qStack (s : Nat) : Bool := decide (4 ≤ s)

/-- The clock unit that clocks a unit (R501). The always-on units, the riders among them (R370), run on their die's FOSC, and so do the
package root, the clock units, the supply monitors and the sensors. -/
def clockOf (un : Nat) : Nat :=
  match classOf un with
  | 0x02 => if un = 1 then 771 else 786
  | 0x03 => 771
  | 0x04 => 796 + (un - 4)
  | 0x05 => if un = 8 then 769 else 785
  | 0x30 => 780 + (un - 128) / 32
  | 0x31 => 791 + (un - 256) / 32
  | 0x38 => 775
  | 0x39 => 774
  | 0x40 => if qStack (un - 512) then 787 + (un - 516) else 776 + (un - 512)
  | 0x41 => if qStack ((un - 520) / 17) then 787 + ((un - 520) / 17 - 4) else 776 + (un - 520) / 17
  | 0x48 => 772
  | 0x49 => 772
  | 0x4A => 772
  | 0x50 => if un < 784 then 769 else 785
  | 0x51 => if un < 808 then 769 else 785
  | 0x52 => if un < 832 ∨ (848 ≤ un ∧ un < 852) then 769 else 785
  | 0x01 => 769
  | _ => if decide (96 ≤ un ∧ un ≤ 105) || un == 416 then 786 else 771

/-- Cycles of a unit's clock domain since reset, from what the clocks have run. -/
def cyclesOf (clocks : Tab Nat) (un : Nat) : Nat := clocks.getD 0 [clockOf un] / 48000

/-- UF_PMC_CYCLE: the cycles of a unit's clock domain since it was last zeroed (R66). -/
def cyclesShown (clocks base : Tab Nat) (un : Nat) : Nat := (cyclesOf clocks un - base.getD 0 [un]) % 2 ^ 64

/-- Do the always-on domain and the FOSC users of a die run on its core PLL, since its FOSC failed (R505)? `c` is the oscillator's clock
unit. -/
def Dev.foscAside (d : Dev) (c : Nat) : Bool := d.pwr.aside.contains (if c < 784 then 768 else 784, 2)

/-- Does a PLL's clock run: while it is locked, holds over, or has lost lock by itself (R66, R506)? -/
def Dev.pllRuns (d : Dev) (c : Nat) : Bool :=
  d.flag c CLK_PLL_STATUS.LOCKED || d.flag c CLK_PLL_STATUS.HOLDOVER || d.pwr.unlocked.contains c

/-- The core PLL of an oscillator's die. -/
def coreBeside (c : Nat) : Nat := if c < 784 then 771 else 786

/-- Does a clock run? FOSC of a die does while it is not replaced; its users then run on the die's core PLL (R505). -/
def Dev.clockRuns (d : Dev) (c : Nat) : Bool :=
  if c = 769 ∨ c = 785 then (if d.foscAside c then d.pllRuns (coreBeside c) else true) else d.pllRuns c

/-- Depth of a PLL's spread, in steps of 0.05 %: CPLL_F, SPLL and CPLL_Q alone have one (R510). -/
def Dev.spread (d : Dev) (c : Nat) : Nat :=
  if (c = 771 ∨ c = 772 ∨ c = 786) ∧ d.flag c CLK_PLL_CFG.SSC_EN then d.act c CLK_PLL_CFG.SSC_DEPTH else 0

/-- 1/48,000 cycles that a PLL's clock makes in one ns: R501's figures, less one sixteenth for each throttle step (R529), 98 % of them on
FOSC (R507), and half the depth of the spread below (R511). Clocks to which the manual gives no figure have a free one. -/
def Dev.pllRate (d : Dev) (c : Nat) : Nat :=
  let steps := 16 - min 16 (d.get c CLK_PLL_STATUS.THROTTLE)
  (if d.get c CLK_PLL_STATUS.REF = 2 then 98 else 100) * (4000 - d.spread c) * (match c with
  | 771 => 3750 * steps
  | 772 => 6000 * steps
  | 773 => 48000
  | 786 => 3600 * steps
  | _ =>
    if (776 ≤ c ∧ c ≤ 779) ∨ (787 ≤ c ∧ c ≤ 790) then 172800
    else if 791 ≤ c ∧ c ≤ 795 then 5100000
    else Config.clockRate c d.now) / 400000

/-- 1/48,000 cycles that a clock makes in one ns: FOSC's 400 MHz, a third of the core PLL's rate in its place (R505), and a PLL's rate. -/
def Dev.clockRate (d : Dev) (c : Nat) : Nat :=
  if c = 769 ∨ c = 785 then (if d.foscAside c then d.pllRate (coreBeside c) / 3 else 19200) else d.pllRate c

/-- The clocks run on for one ns. -/
def Dev.runClocks (d : Dev) : Dev :=
  ((List.range 32).map (768 + ·)).foldl (fun d c =>
    if d.clockRuns c then
      { d with pwr := { d.pwr with clocks := d.pwr.clocks.setD 0 [c] (d.pwr.clocks.getD 0 [c] + d.clockRate c) } }
    else d) d

/-- Count a lasting signal's cycles in a unit's counters that count levels: those of `ns` that lie behind. -/
def Dev.tallyLevel (d : Dev) (un code ns : Nat) : Dev :=
  let c := ns * d.clockRate (clockOf un) / 48000
  let r := (List.range 8).foldl (fun (acc : Dev × Nat) n =>
    if d.pmcOn un n && d.pmcLevel un n && d.getI un UF_PMC_SEL.CODE n == code then
      let x := Dev.pmcAdd 8 acc.1 un n c
      (x.1, acc.2 ||| x.2)
    else acc) (d, 0)
  if r.2 = 0 then r.1 else r.1.raise un 0x04 (leBytes 1 r.2)

end Sys2Proof.Machine
end

