-- ==== Sys2Proof/Machine/Pmc.lean ====
section
/-! DEFINITION. Performance-counter commands and the device-wide snapshot (R66–R76). -/
namespace Sys2Proof.Machine

/-- CYCLE_CLEAR zeroes UF_PMC_CYCLE, which goes on from the cycle its clock domain is in (R66). -/
def Dev.pmcCycleClear (d : Dev) (un : Nat) : Dev :=
  if populated un then { d with cycleBase := d.cycleBase.setD 0 [un] (cyclesOf d.pwr.clocks un) } else d

/-- CNT_CLEAR zeroes UF_PMC_CNT0–7 and OVF (R70). -/
def Dev.pmcCntClear (d : Dev) (un : Nat) : Dev :=
  if populated un then
    ((List.range 8).foldl (fun d n => d.setI un UF_PMC_CNT.COUNT n 0) d).set un UF_PMC_CTRL.OVF 0
  else d

/-- Counter `n` wraps to 0: unchained it sets OVF and raises PMC_OVERFLOW; chained it carries (R68, R69). -/
def Dev.pmcOverflow (d : Dev) (un n : Nat) : Dev :=
  if populated un ∧ n < 8 then
    let r := Dev.pmcAdd 8 d un n (pmcMax - d.getI un UF_PMC_CNT.COUNT n)
    if r.2 = 0 then r.1 else r.1.raise un 0x04 (leBytes 1 r.2)
  else d

/-- Is this a counter field that a snapshot copies (R73)? -/
def isCounterKey (k : Key) : Bool :=
  match k with
  | [_, off, _, _] => off == UF_PMC_CNT.COUNT.off
  | _ => false

/-- Start a snapshot: every frame's counters are copied, and the ID counts up from 1 (R73, R75). That 0 follows 0xFFFF_FFFF is the
model's choice: R75 gives no wrap. -/
def Dev.startSnapshot (d : Dev) : Dev :=
  let id := (d.get 0 HIF_SNAP_CTRL.LAST_ID + 1) % 2 ^ 32
  let d := (d.set 0 HIF_SNAP_CTRL.LAST_ID id).set 0 HIF_SNAP_CTRL.BUSY 1
  { d with
    snap := some ⟨id, d.now, d.draws, d.fields.filter (fun e => isCounterKey e.1), d.pwr.clocks, d.cycleBase⟩, draws := d.draws + 1 }

/-- SNAPSHOT (0x0005): RETRY_LATER while one is in progress (R76); the completion returns the ID (R75). -/
def Dev.snapshotCmd (d : Dev) (c : HCmd) : Dev :=
  d.commandNow c 0x0005 [] (fun d =>
    if d.flag 0 HIF_SNAP_CTRL.BUSY then (d, .fail stRETRY_LATER)
    else let d := d.startSnapshot; (d, .ok (d.get 0 HIF_SNAP_CTRL.LAST_ID)))

/-- A write of TRIGGER: REFUSED sets while a snapshot is in progress (R76). -/
def Dev.snapTrigger (d : Dev) : Dev :=
  if d.flag 0 HIF_SNAP_CTRL.BUSY then d.set 0 HIF_SNAP_CTRL.REFUSED 1 else d.startSnapshot

/-- The snapshot in progress completes: UN 0 raises SNAPSHOT_DONE with its ID (R75). -/
def Dev.snapshotDone (d : Dev) : Dev :=
  if d.flag 0 HIF_SNAP_CTRL.BUSY then
    (d.set 0 HIF_SNAP_CTRL.BUSY 0).raise 0 0x07 (leBytes 4 (d.get 0 HIF_SNAP_CTRL.LAST_ID))
  else d

def execPmcCycleClear (un : Nat) (s : State) : Answer := s.go (·.pmcCycleClear un)
def execPmcCntClear (un : Nat) (s : State) : Answer := s.go (·.pmcCntClear un)
def execPmcOverflow (un n : Nat) (s : State) : Answer := s.go (·.pmcOverflow un n)
def execSnapshot (c : HCmd) (s : State) : Answer := s.go (·.snapshotCmd c)
def execSnapTrigger (s : State) : Answer := s.go Dev.snapTrigger
def execSnapshotDone (s : State) : Answer := s.go Dev.snapshotDone

end Sys2Proof.Machine
end

