-- ==== Sys2Proof/Machine/Ptp.lean ====
section
/-! DEFINITION. The PTP service, the servo and the time counter (R451–R453). -/
namespace Sys2Proof.Machine

/-! ### PTP and device time (R451–R453) -/

def ptpFREE : Nat := 0
def ptpACQ : Nat := 1
def ptpLOCKED : Nat := 2
def ptpHOLD : Nat := 3
def ptpFOSC : Nat := 4

def Dev.ptpState (d : Dev) : Nat := d.get uSVC SVC_PTP_STATUS.STATE

def Dev.setPtp (d : Dev) (p : Ptp) : Dev := { d with svcs := { d.svcs with ptp := p } }

/-- A change of STATE, which raises PTP_STATE (R452). -/
def Dev.ptpTo (d : Dev) (new : Nat) : Dev :=
  let old := d.ptpState
  if old = new then d else
  let d := (d.set uSVC SVC_PTP_STATUS.STATE new).setPtp { d.svcs.ptp with below := 0, above := 0 }
  d.raise uSVC 0x1C (leBytes 1 old ++ leBytes 1 new ++ leBytes 1 (d.get uSVC SVC_PTP_STATUS.PORT) ++ leBytes 1 0
    ++ leBytes 4 (d.get uSVC SVC_PTP_STATUS.OFFSET_NS))

/-- Does the service follow a source? -/
def Dev.ptpRuns (d : Dev) : Bool := d.flag uSVC SVC_PTP_CFG.EN && decide (d.get uSVC SVC_PTP_CFG.SOURCE ≤ 1)

/-- Select a source: a port, or 255 for PPS_IN; none takes the selection away. -/
def Dev.ptpSelect (d : Dev) (s : Option Nat) : Dev :=
  (d.setPtp { d.svcs.ptp with selected := s, measured := d.svcs.ptp.measured && s == d.svcs.ptp.selected }).set uSVC
    SVC_PTP_STATUS.PORT (match s with | some p => p | none => 0xFF)

/-- Acquire a source that is selected, from FREE_RUN or HOLDOVER. -/
def Dev.ptpAcquire (d : Dev) : Dev :=
  if d.svcs.ptp.selected.isSome ∧ (d.ptpState = ptpFREE ∨ d.ptpState = ptpHOLD) then d.ptpTo ptpACQ else d

/-- The value that a write gives one field. -/
def fieldOfWrite (f : Fld) (v : Nat) : Nat := v / 2 ^ f.lo % 2 ^ f.width

/-- PTP_CFG_WRITE: SVC_PTP_CFG is written; reserved codes of PROFILE and SOURCE leave their fields. With EN clear or SOURCE 2
the last rate correction stands in FREE_RUN (R452, R555). -/
def Dev.ptpCfgWrite (d : Dev) (v : Nat) : Dev :=
  let src := d.get uSVC SVC_PTP_CFG.SOURCE
  let put (d : Dev) (f : Fld) : Dev := d.set uSVC f (fieldOfWrite f v)
  let d := [SVC_PTP_CFG.DOMAIN, SVC_PTP_CFG.PRIORITY1, SVC_PTP_CFG.PRIORITY2, SVC_PTP_CFG.BOUNDARY, SVC_PTP_CFG.EN,
    SVC_PTP_CFG.STEP_NS, SVC_PTP_CFG.HOLDOVER_AVG_S, SVC_PTP_CFG.LOOP_BW].foldl put d
  let d := if fieldOfWrite SVC_PTP_CFG.PROFILE v ≤ 3 then put d SVC_PTP_CFG.PROFILE else d
  let d := if fieldOfWrite SVC_PTP_CFG.SOURCE v ≤ 2 then put d SVC_PTP_CFG.SOURCE else d
  let d := if d.get uSVC SVC_PTP_CFG.SOURCE = src then d else d.ptpSelect none
  if d.ptpRuns then d.ptpAcquire else (d.ptpSelect none).ptpTo ptpFREE

/-- Is a port set in SVC_PTP_PORTS0/1? -/
def Dev.ptpSet (d : Dev) (p : Nat) : Bool :=
  decide (p < 128) && bit (if p < 64 then d.get uSVC SVC_PTP_PORTS0.EN else d.get uSVC SVC_PTP_PORTS1.EN) (p % 64)

/-- Does a port run PTP: every port that is set of a boundary clock, the lowest of an ordinary one (R451)? -/
def Dev.ptpRunsOn (d : Dev) (p : Nat) : Bool :=
  d.ptpSet p && (d.flag uSVC SVC_PTP_CFG.BOUNDARY || (List.range p).all (fun q => !d.ptpSet q))

/-- A PTP message in an IEEE 802.3 frame, past any VLAN tags. PRESUMED (IEEE 1588-2019, annex E): EtherType 0x88F7. -/
def ptpInEther : Nat → List Byte → Nat → Option (List Byte)
  | 0, _, _ => none
  | n + 1, f, a =>
    if beAt f a 2 = 0x88F7 then some (f.drop (a + 2)) else if isTpid (beAt f a 2) then ptpInEther n f (a + 4) else none

/-- A PTP message over UDP and IP. PRESUMED (IEEE 1588-2019, annexes C and D): ports 319 and 320. -/
def ptpInUdp (f : List Byte) : Option (List Byte) :=
  match ipStart 5 f 12 with
  | none => none
  | some (v6, ip) =>
    let udp := ipNext f v6 ip
    if beAt f (if v6 then ip + 6 else ip + 9) 1 = 17 ∧ (beAt f (udp + 2) 2 = 319 ∨ beAt f (udp + 2) 2 = 320) then some (f.drop (udp + 8))
    else none

/-- The PTP message of a frame on the transport of a profile, the first row of R451 taking either one. -/
def ptpCarried (profile : Nat) (f : List Byte) : Option (List Byte) :=
  let multicast : Bool := bit (beAt f 0 1) 0
  match profile with
  | 0 => (ptpInEther 5 f 12).or (ptpInUdp f)
  | 1 => ptpInEther 5 f 12
  | 2 => if multicast then ptpInEther 5 f 12 else none
  | _ => if multicast then none else ptpInUdp f

/-- The service's message of a frame: of its profile's transport, with version 2, and of its domain (R451; the header's fields are those of
IEEE 1588-2019, PRESUMED). -/
def Dev.ptpMessage (d : Dev) (f : List Byte) : Option (List Byte) :=
  (ptpCarried (d.get uSVC SVC_PTP_CFG.PROFILE) f).filter (fun m =>
    decide (34 ≤ m.length) && beAt m 1 1 % 16 == 2 && beAt m 4 1 == d.get uSVC SVC_PTP_CFG.DOMAIN)

/-- Unicast negotiation of PROFILE 3: a Signaling message's first TLV asks for a grant, which is given while fewer than 512 are held, or gives
one back (R451; the TLVs are those of IEEE 1588-2019, PRESUMED). -/
def Dev.ptpGrant (d : Dev) (p : Nat) (m : List Byte) : Dev :=
  if d.get uSVC SVC_PTP_CFG.PROFILE ≠ 3 ∨ beAt m 0 1 % 16 ≠ 0xC then d else
  let ptp := d.svcs.ptp
  let peer := slice m 20 10
  let type := beAt m 48 1 / 16
  let live := ptp.grants.filter (fun g => decide (d.now < g.until_))
  let others := live.filter (fun g => !(g.port == p && g.peer == peer && g.type == type))
  match beAt m 44 2 with
  | 4 => if others.length < 512 then
           d.setPtp { ptp with grants := others ++ [⟨p, peer, type, d.now + 1000000000 * beAt m 50 4⟩] }
         else d.setPtp { ptp with grants := live }
  | 6 => d.setPtp { ptp with grants := others }
  | _ => d

def ptpMASTER : Nat := 6
def ptpPASSIVE : Nat := 7
def ptpSLAVE : Nat := 9

/-- The clock quality that describes the local clock (R451): FP_TOD_OUT_INFO's class, accuracy and variance. -/
def Dev.clockQuality (d : Dev) : Nat :=
  d.get 1 FP_TOD_OUT_INFO.CLOCK_CLASS * 2 ^ 24 + d.get 1 FP_TOD_OUT_INFO.CLOCK_ACCURACY * 2 ^ 16 + d.get 1 FP_TOD_OUT_INFO.OFFSET_VARIANCE

/-- Every port that runs PTP takes the state that the best master clock algorithm gives it: SLAVE the one selected (R451). -/
def Dev.ptpStates (d : Dev) (selected : Option Nat) : Dev :=
  let f (x : Fld) : Nat := d.get uSVC x
  let of (p : Nat) : Nat :=
    if selected = some p then ptpSLAVE
    else if Config.ptpMaster (f SVC_PTP_CFG.PROFILE) (f SVC_PTP_CFG.PRIORITY1) (f SVC_PTP_CFG.PRIORITY2) d.clockQuality p d.draws
    then ptpMASTER else ptpPASSIVE
  let ps := (List.range 128).filter d.ptpRunsOn
  ({ d with draws := d.draws + 1 } : Dev).setPtp { d.svcs.ptp with portStates := ps.foldl (fun t p => t.put [p] (some (of p))) [] }

/-- PTP_MESSAGE_RX: the service takes the oldest PTP message; `selected` is the port that the best master clock algorithm of
IEEE 1588 then selects, if any. A message of another transport, domain or port is not the service's. -/
def Dev.ptpMessageRx (d : Dev) (selected : Option Nat) : Dev :=
  match d.svcs.ptp.inbox with
  | [] => d
  | k :: rest =>
    let d := d.setPtp { d.svcs.ptp with inbox := rest }
    match (List.range 128).find? (fun p => d.ptpRunsOn p && d.sysport p == k.srcSysport), d.ptpMessage k.bytes with
    | some p, some m =>
      if ¬ d.flag uSVC SVC_PTP_CFG.EN then d else
      let s := (selected.filter d.ptpRunsOn).filter (fun _ => d.get uSVC SVC_PTP_CFG.SOURCE == 0)
      let d := (d.ptpGrant p m).ptpStates s
      if s.isSome then (d.ptpSelect s).ptpAcquire else d
    | _, _ => d

/-- Device time steps by `delta` ns: a start, switch or stop of a sluice list that the step jumps over takes effect at once
(R452, "When device time steps"). -/
def Dev.timeStep (d : Dev) (delta : Int) : Dev :=
  let d := { d with now := (((d.now : Int) + delta) % ((2 ^ 64 : Nat) : Int)).toNat }
  (d.sch.sluices.map (fun e => e.1.headD 0)).foldl (fun d p => (d.sluiceStart p).sluiceStop p) d

/-- The correction the servo chooses, within ±500 ppm, in 2^−16 ppb; a LOOP_BW of 0 acts as 1. -/
def Dev.servoChoice (d : Dev) (offset : Int) : Int :=
  max (-32768000000) (min 32768000000
    (Config.servoRate offset d.svcs.ptp.rate (max 1 (d.get uSVC SVC_PTP_CFG.LOOP_BW)) d.draws))

/-- A measured offset moves STATE: 16 in a row below 100 ns lock, 4 in a row above 1,000 ns unlock. -/
def Dev.ptpCount (d : Dev) (a : Nat) : Dev :=
  let p := d.svcs.ptp
  if d.ptpState = ptpACQ then
    let n := if a < 100 then p.below + 1 else 0
    let d := d.setPtp { p with below := n }
    if 16 ≤ n then d.ptpTo ptpLOCKED else d
  else if d.ptpState = ptpLOCKED then
    let n := if 1000 < a then p.above + 1 else 0
    let d := d.setPtp { p with above := n }
    if 4 ≤ n then d.ptpTo ptpACQ else d
  else d

/-- PTP_SERVO_UPDATE: the servo measures its offset from the source, local less source time, and steps or trims. With SOURCE 1
the measurement itself is a PPS_IN edge, which selects the source. -/
def Dev.ptpServoUpdate (d : Dev) (offset : Int) : Dev :=
  if ¬ d.ptpRuns ∨ d.ptpState = ptpFOSC then d else
  let d := if d.get uSVC SVC_PTP_CFG.SOURCE = 1 ∧ d.svcs.ptp.selected.isNone then d.ptpSelect (some 0xFF) else d
  if d.svcs.ptp.selected.isNone then d else
  let d := d.ptpAcquire
  let d := d.set uSVC SVC_PTP_STATUS.OFFSET_NS (ofSigned 32 (max (-(2 ^ 31)) (min (2 ^ 31 - 1) offset)))
  let step := d.get uSVC SVC_PTP_CFG.STEP_NS
  let d := if step ≠ 0 ∧ step < offset.natAbs then
      (d.timeStep (-offset)).set uSVC SVC_PTP_STATUS.STEPS (min 0xFFFF (d.get uSVC SVC_PTP_STATUS.STEPS + 1))
    else
      let r := d.servoChoice offset
      ({ d with draws := d.draws + 1 } : Dev).setPtp { d.svcs.ptp with rate := r }
  (d.setPtp { d.svcs.ptp with measured := true }).ptpCount offset.natAbs

/-- The ns of a history's last `n`, and the sum of the correction over them. -/
def lastNs : Nat → List (Nat × Int) → Nat × Int
  | _, [] => (0, 0)
  | n, (k, r) :: rest =>
    let m := min n k
    let x := lastNs (n - m) rest
    (m + x.1, (m : Int) * r + x.2)

/-- Mean of the correction over the last HOLDOVER_AVG_S seconds of LOCKED operation; the last correction where there was none. A
HOLDOVER_AVG_S of 0 acts as 1. -/
def Dev.meanRate (d : Dev) : Int :=
  let x := lastNs (1000000000 * max 1 (d.get uSVC SVC_PTP_CFG.HOLDOVER_AVG_S)) d.svcs.ptp.history
  if x.1 = 0 then d.svcs.ptp.rate else x.2 / x.1

/-- PTP_SOURCE_LOST: announce receipt times out (`announce`), the selected port leaves UP, or PPS_IN has been silent for 3 s
(R453). -/
def Dev.ptpSourceLost (d : Dev) (announce : Bool) : Dev :=
  let src := d.get uSVC SVC_PTP_CFG.SOURCE
  let gone : Bool := match d.svcs.ptp.selected with
    | none => false
    | some p =>
      if src = 0 then announce || d.linkState p != lsUP
      else decide (d.get 1 FP_PPS_IN_TS.TIME + 3000000000 ≤ d.now)
  if ¬ d.ptpRuns ∨ ¬ gone then d
  else
    let d := d.setPtp { d.svcs.ptp with
      portStates := d.svcs.ptp.portStates.filter (fun e => !(e.2 == ptpSLAVE))
      rate := if d.ptpState = ptpACQ ∨ d.ptpState = ptpLOCKED then d.meanRate else d.svcs.ptp.rate }
    let e := d.ptpSelect none
    if d.ptpState = ptpACQ ∨ d.ptpState = ptpLOCKED then e.ptpTo ptpHOLD else e

/-- Both references of the F-die have failed (`lost`), or one is good again and the PLLs have relocked (R452). -/
def Dev.ptpFosc (d : Dev) (lost : Bool) : Dev :=
  let s := d.ptpState
  if lost then (if s = ptpACQ ∨ s = ptpLOCKED ∨ s = ptpHOLD then d.ptpTo ptpFOSC else d)
  else if s = ptpFOSC then d.ptpTo (if d.svcs.ptp.selected.isSome then ptpACQ else ptpHOLD) else d

/-- The correction of the time counter, 2^−16 ppb: the servo's or the mean held, and in HOLDOVER_FOSC what FOSC drifts (R452, R453). Time
never runs back. -/
def Dev.timeRate (d : Dev) : Int :=
  if d.ptpState = ptpFOSC then max (-65536000000000) (Config.foscDrift d.now) else d.svcs.ptp.rate

/-- LOCKED operation goes on for one ns under a correction. -/
def lockedNs (r : Int) : List (Nat × Int) → List (Nat × Int)
  | (k, x) :: rest => if x = r then (k + 1, x) :: rest else (1, r) :: (k, x) :: rest
  | [] => [(1, r)]

/-- The time counter counts one ns of its clock, corrected, in 2^−16 ns (R6, R452, R453). -/
def Dev.countNs (d : Dev) : Dev :=
  let p := d.svcs.ptp
  let x := p.part + d.timeRate
  let t := ((d.now + 1) * 65536 + d.frac : Nat) + x / 1000000000
  let e := d.setPtp { p with
    part := x % 1000000000
    history := if d.ptpState = ptpLOCKED then lockedNs p.rate p.history else p.history }
  { e with now := (t / 65536).toNat % 2 ^ 64, frac := (t % 65536).toNat }

/-- May a port in this state send this message type: a SLAVE or PASSIVE port no Sync, Follow_Up, Delay_Resp or Announce, and a MASTER or
PASSIVE one no Delay_Req (IEEE 1588-2019, PRESUMED)? -/
def ptpMaySend (state type : Nat) : Bool :=
  match type with
  | 0 => state != ptpSLAVE && state != ptpPASSIVE
  | 8 => state != ptpSLAVE && state != ptpPASSIVE
  | 9 => state != ptpSLAVE && state != ptpPASSIVE
  | 0xB => state != ptpSLAVE && state != ptpPASSIVE
  | 1 => state != ptpMASTER && state != ptpPASSIVE
  | _ => true

/-- PTP_MESSAGE_TX: the service sends a message of IEEE 1588 on one of its ports, on its profile's transport and in its
domain; event messages, types 0 to 3, go one-step where ONE_STEP_EN of the port is set, and two-step otherwise (R101, R451). -/
def Dev.ptpMessageTx (d : Dev) (port cls offset tsId : Nat) (event : Bool) (bytes : List Byte) : Dev :=
  let may : Bool := match d.ptpMessage bytes with
    | none => false
    | some m =>
      let type := beAt m 0 1 % 16
      event == decide (type < 4) && ptpMaySend (d.svcs.ptp.portStates.getD 0 [port]) type
  if ¬ d.flag uSVC SVC_PTP_CFG.EN ∨ ¬ d.ptpRunsOn port ∨ ¬ may ∨ ¬ d.portInUse port ∨ 8 ≤ cls then d else
  let op := if ¬ event then 0 else if d.flag (uPort port) PRT_PTP_CFG.ONE_STEP_EN then 2 else 3
  (d.sendQueued 9 0 (padded bytes) (d.sysport port) cls { ptpOp := op, ptpOffset := offset % 65536, tsId := tsId % 65536 }).1

def execPtpCfgWrite (value : Nat) (s : State) : Answer := s.go (·.ptpCfgWrite value)
def execPtpMessageRx (selected : Option Nat) (s : State) : Answer := s.go (·.ptpMessageRx selected)
def execPtpServoUpdate (offset : Int) (s : State) : Answer := s.go (·.ptpServoUpdate offset)
def execPtpSourceLost (announce : Bool) (s : State) : Answer := s.go (·.ptpSourceLost announce)
def execPtpMessageTx (port cls offset tsId : Nat) (event : Bool) (bytes : List Byte) (s : State) : Answer :=
  s.go (·.ptpMessageTx port cls offset tsId event bytes)

end Sys2Proof.Machine
end

