-- ==== Sys2Proof/Machine/Power.lean ====
section
/-! DEFINITION. Clocks, supply monitors, regulators, clock gates, standby, temperature and the bridges (R18, R499–R532,
R549). -/
namespace Sys2Proof.Machine

/-! ### Reference blocks and PLLs (R501–R509) -/

def uREF_F : Nat := 768
def uREF_Q : Nat := 784

/-- Sources of a reference block: 0 REFA, 1 REFB, 2 FOSC, 3 SOSC, 4 PCIE_REFCLK. -/
def okField (src : Nat) : Fld :=
  match src with
  | 0 => CLK_SRC_STATUS.REFA_OK
  | 1 => CLK_SRC_STATUS.REFB_OK
  | 2 => CLK_SRC_STATUS.FOSC_OK
  | 3 => CLK_SRC_STATUS.SOSC_OK
  | _ => CLK_SRC_STATUS.PCIE_OK

/-- PLLs of a die that scale with FOSC when both references are lost: core PLL, SPLL, TPLL and DPLLs. -/
def corePlls (ref : Nat) : List Nat := if ref = uREF_F then [771, 772, 773, 776, 777, 778, 779] else [786, 787, 788, 789, 790]

/-- SerDes PLLs of a die: HPLL and NPLL groups, or FPLL groups. -/
def serdesPlls (ref : Nat) : List Nat := if ref = uREF_F then [774, 780, 781, 782, 783] else [791, 792, 793, 794, 795]

/-- PLLs of a die that run on its references. -/
def plls (ref : Nat) : List Nat := corePlls ref ++ serdesPlls ref

/-- The core PLL of a die. -/
def coreOf (ref : Nat) : Nat := if ref = uREF_F then 771 else 786

/-- The reference block of a PLL's die. -/
def refOf (un : Nat) : Nat := if un < 784 then uREF_F else uREF_Q

def Dev.clkBlock (d : Dev) (ref : Nat) : ClkBlock := d.pwr.blocks.getD {} [ref]

def Dev.setClkBlock (d : Dev) (ref : Nat) (b : ClkBlock) : Dev :=
  { d with pwr := { d.pwr with blocks := d.pwr.blocks.setD {} [ref] b } }

/-- Has a source been declared failed? -/
def Dev.srcFailed (d : Dev) (ref src : Nat) : Bool := ((d.clkBlock ref).good.get? [src]).isSome

/-- CORE_REF shows the core PLL's reference. -/
def Dev.showCoreRef (d : Dev) (ref : Nat) : Dev := d.set ref CLK_SRC_STATUS.CORE_REF (d.get (coreOf ref) CLK_PLL_STATUS.REF)

/-- A PLL is in holdover, which HOLDOVER shows and its counters see rise (R506, R532). -/
def Dev.holdsOver (d : Dev) (un : Nat) : Dev :=
  let was := d.flag un CLK_PLL_STATUS.HOLDOVER
  let d := d.set un CLK_PLL_STATUS.HOLDOVER 1
  if was then d else d.rises un 0x21

/-- A PLL changes its reference: it holds over until it relocks, and its multiplexer leaves the old source (R506, R508). -/
def Dev.moveTo (d : Dev) (un ref : Nat) : Dev :=
  let old := d.get un CLK_PLL_STATUS.REF
  if old = ref then d else
  let d := (d.set un CLK_PLL_STATUS.REF ref).holdsOver un
  { d with pwr := { d.pwr with leaving := d.pwr.leaving.insert [un] old } }

/-- A SerDes PLL holds over without a reference from now on (R507). -/
def Dev.serdesHold (d : Dev) (un : Nat) : Dev :=
  let d := d.holdsOver un
  { d with pwr := { d.pwr with heldSince := d.pwr.heldSince.insert [un] d.now } }

/-- SRC_FAIL of a block. -/
def Dev.srcFail (d : Dev) (ref src failed : Nat) : Dev :=
  let d := d.showCoreRef ref
  d.raise ref 0x10 (leBytes 1 src ++ leBytes 1 failed ++ leBytes 1 (d.get ref CLK_SRC_STATUS.CORE_REF))

/-- Every PLL that uses a failed reference moves: to the other one, or, with both failed, core PLLs to FOSC while SerDes PLLs
hold over (R505, R507). -/
def Dev.leaveRef (d : Dev) (ref src : Nat) : Dev :=
  if d.srcFailed ref (1 - src) then
    let d := (corePlls ref).foldl (fun d u => d.moveTo u 2) d
    let d := (serdesPlls ref).foldl Dev.serdesHold d
    if ref = uREF_F then d.ptpFosc true else d
  else (plls ref).foldl (fun d u => if d.get u CLK_PLL_STATUS.REF = src then d.moveTo u (1 - src) else d) d

/-- The users of a failed FOSC move to their die's core PLL divided by 3, and the always-on timers of a failed SOSC to FOSC ÷ 12,500;
nothing moves back (R505). -/
def Dev.setAside (d : Dev) (ref src : Nat) : Dev :=
  if d.pwr.aside.contains (ref, src) then d else { d with pwr := { d.pwr with aside := d.pwr.aside ++ [(ref, src)] } }

/-- The PCIe PLL locks on PCIE_REFCLK, or loses it. -/
def Dev.pciePll (d : Dev) (good : Bool) : Dev := d.setFlag 775 CLK_PLL_STATUS.LOCKED good

/-- The bridges' clocks are forwarded between the dies' cores: they show lock while both core PLLs do (R501). That they do is the model's
choice. -/
def Dev.forwarded (d : Dev) : Dev :=
  let on : Bool := d.flag 771 CLK_PLL_STATUS.LOCKED && d.flag 786 CLK_PLL_STATUS.LOCKED
  (List.range 4).foldl (fun d i => d.setFlag (796 + i) CLK_PLL_STATUS.LOCKED on) d

/-- A source is declared failed. -/
def Dev.declareSrc (d : Dev) (ref src : Nat) : Dev :=
  if d.srcFailed ref src then d else
  let b := d.clkBlock ref
  let d := (d.setClkBlock ref { b with good := b.good.insert [src] 0 }).set ref (okField src) 0
  let d := if src ≤ 1 then d.leaveRef ref src else if src = 4 then (d.pciePll false).hostLinkReset 3 else d.setAside ref src
  d.srcFail ref src 1

/-- PLLs left without a reference take the one that is good again: those on FOSC, and SerDes PLLs (R453, R507). -/
def Dev.regain (d : Dev) (ref src : Nat) : Dev :=
  let d := (corePlls ref).foldl (fun d u => if d.get u CLK_PLL_STATUS.REF = 2 then d.moveTo u src else d) d
  (serdesPlls ref).foldl (fun d u =>
    if (d.pwr.heldSince.get? [u]).isSome then
      let d := { d with pwr := { d.pwr with heldSince := d.pwr.heldSince.erase [u] } }
      (d.set u CLK_PLL_STATUS.REF src).holdsOver u
    else d) d

/-- A failed source is marked good again. -/
def Dev.srcGood (d : Dev) (ref src : Nat) : Dev :=
  let b := d.clkBlock ref
  let d := (d.setClkBlock ref { b with good := b.good.erase [src] }).set ref (okField src) 1
  let d := if src ≤ 1 ∧ d.srcFailed ref (1 - src) then d.regain ref src else if src = 4 then d.pciePll true else d
  d.srcFail ref src 0

/-- The pairs of a source: bit 0 REFA–REFB, bit 1 REFB–FOSC, bit 2 FOSC–SOSC. -/
def pairsOf (src : Nat) : Nat :=
  match src with
  | 0 => 1
  | 1 => 3
  | 2 => 6
  | 3 => 4
  | _ => 8

/-- Have all pairs of a source been calibrated? -/
def Dev.calibrated (d : Dev) (ref src : Nat) : Bool :=
  (List.range 4).all (fun i => !bit (pairsOf src) i || ((d.clkBlock ref).ratio.get? [i]).isSome)

/-- May an input be judged stable: a crystal waits for XTAL_EXTRA, an oscillator does not (R502)? -/
def Dev.xtalDue (d : Dev) (ref src : Nat) : Bool :=
  match d.pwr.goodAt.filter (fun _ => !d.pwr.tripped) with
  | none => false
  | some t => d.flag 0 (if src = 0 then PWR_STRAPS.REFA_OSC else PWR_STRAPS.REFB_OSC)
    || decide (t + 1000000 * d.get ref CLK_SRC_CFG.XTAL_EXTRA_MS ≤ d.now)

/-- XTAL_STABLE of REFA (0) or REFB (1): the block takes the count ratios of its pairs, those with a source still at rest
apart, and PLLs that wait for this reference lock. An input first stable after it was declared failed gives its pairs their calibrated
ratios and is watched on (R504, R505). -/
def Dev.xtalStable (d : Dev) (ref src : Nat) (counts : List (Nat × Nat)) : Dev :=
  if (ref ≠ uREF_F ∧ ref ≠ uREF_Q) ∨ 1 < src ∨ ¬ d.xtalDue ref src ∨ d.flag ref (okField src)
      ∨ (d.srcFailed ref src ∧ d.calibrated ref src) then d else
  let b := d.clkBlock ref
  let ratio := ((List.range 3).zip counts).foldl (fun (t : Tab (Nat × Nat)) x =>
    if x.2.1 = 0 ∨ x.2.2 = 0 then t else t.insert [x.1] x.2) b.ratio
  let d := d.setClkBlock ref { b with ratio := ratio }
  if d.srcFailed ref src then d else
  let d := d.set ref (okField src) 1
  let d := (plls ref).foldl (fun d u =>
    if d.get u CLK_PLL_STATUS.REF = src then (d.set u CLK_PLL_STATUS.LOCKED 1).set u CLK_PLL_STATUS.HOLDOVER 0 else d) d
  (d.showCoreRef ref).forwarded

/-- XTAL_START_TIMEOUT: an input is not stable within 100 ms plus XTAL_EXTRA of PWRGD (R503). -/
def Dev.xtalStartTimeout (d : Dev) (ref src : Nat) : Dev :=
  match d.pwr.goodAt with
  | none => d
  | some t =>
    if (ref ≠ uREF_F ∧ ref ≠ uREF_Q) ∨ 1 < src ∨ d.flag ref (okField src)
        ∨ d.now < t + 1000000 * (100 + d.get ref CLK_SRC_CFG.XTAL_EXTRA_MS) ∨ d.pwr.tripped then d
    else d.declareSrc ref src

/-- Does a pair's count ratio differ from its calibrated ratio by more than the tolerance? A pair not yet calibrated does
not. -/
def pairOut (cal : Option (Nat × Nat)) (c : Nat × Nat) (tol : Nat) : Bool :=
  match cal with
  | none => false
  | some r =>
    let a := c.1 * r.2
    let b := r.1 * c.2
    c.2 == 0 || decide (tol * b < 1000 * ((a - b) + (b - a)))

/-- The source that a window's pairs out of tolerance declare failed; 7 for a set of pairs that names none (R504). -/
def decideSrc (out : Nat) : Option Nat :=
  match out with
  | 0 => none
  | 1 => some 0
  | 3 => some 1
  | 6 => some 2
  | 4 => some 3
  | _ => some 7

/-- A failed source has one more window in tolerance, or starts again. A pair without a calibrated ratio is not in tolerance. -/
def Dev.watchSrc (d : Dev) (ref out src : Nat) : Dev :=
  let b := d.clkBlock ref
  match b.good.get? [src] with
  | none => d
  | some n =>
    let n := if out &&& pairsOf src = 0 ∧ d.calibrated ref src then n + 1 else 0
    if 100 ≤ n then d.srcGood ref src else d.setClkBlock ref { b with good := b.good.insert [src] n }

/-- MONITOR_WINDOW: the counts of the three pairs, and on the F-die of PCIE_REFCLK against FOSC, whose calibrated ratio is the
first window's. -/
def Dev.monitorWindow (d : Dev) (ref : Nat) (counts : List (Nat × Nat)) : Dev :=
  if (ref ≠ uREF_F ∧ ref ≠ uREF_Q) ∨ ¬ d.flag ref CLK_SRC_CFG.MON_EN ∨ d.pwr.goodAt.isNone ∨ d.pwr.tripped then d else
  let b := d.clkBlock ref
  let tol := d.act ref CLK_SRC_CFG.TOL_PERMIL
  let at_ (i : Nat) : Nat × Nat := counts.getD i (0, 0)
  let o (i : Nat) : Nat := if pairOut (b.ratio.get? [i]) (at_ i) tol then 2 ^ i else 0
  let out := o 0 + o 1 + o 2
  let pcie := if ref = uREF_F then o 3 else 0
  let d := d.set ref CLK_SRC_STATUS.PAIR_OUT out
  let d := if ref = uREF_F ∧ (b.ratio.get? [3]).isNone ∧ (at_ 3).1 ≠ 0 ∧ (at_ 3).2 ≠ 0 then
      ((d.setClkBlock ref { b with ratio := b.ratio.insert [3] (at_ 3) }).set ref CLK_SRC_STATUS.PCIE_OK 1).pciePll true
    else d
  let d := match decideSrc out with
    | none => d.setClkBlock ref { d.clkBlock ref with ambig := 0 }
    | some 7 =>
      let n := (d.clkBlock ref).ambig + 1
      let d := (d.setClkBlock ref { d.clkBlock ref with ambig := n }).bump ref CLK_MON_AMBIG.COUNT
      if n = 10 then d.srcFail ref 7 1 else d
    | some s => (d.setClkBlock ref { d.clkBlock ref with ambig := 0 }).declareSrc ref s
  let d := if pcie ≠ 0 then d.declareSrc ref 4 else d
  [0, 1, 2, 3, 4].foldl (fun d s => d.watchSrc ref (out + pcie) s) d

/-- FORCED_SWITCH: no edge of the old clock has come within 8 cycles of the new one (R508). -/
def Dev.forcedSwitch (d : Dev) (un : Nat) : Dev :=
  match d.pwr.leaving.get? [un] with
  | none => d
  | some s =>
    let d := { d with pwr := { d.pwr with leaving := d.pwr.leaving.erase [un] } }
    (((d.bump un CLK_FORCED_SWITCH.COUNT).tally un 0x20 1)).raise un 0x12 (leBytes 1 s)

/-- PLL_RELOCK: a PLL relocks on its reference. With the time counter's PLL back on a reference, the PTP service leaves
HOLDOVER_FOSC (R452, R506). -/
def Dev.pllRelock (d : Dev) (un : Nat) : Dev :=
  let r := d.get un CLK_PLL_STATUS.REF
  if ¬ (plls (refOf un)).contains un ∨ ¬ d.flag un CLK_PLL_STATUS.HOLDOVER ∨ (d.pwr.heldSince.get? [un]).isSome
      ∨ (r < 2 ∧ ¬ d.flag (refOf un) (okField r)) then d
  else
    let d := (d.set un CLK_PLL_STATUS.HOLDOVER 0).set un CLK_PLL_STATUS.LOCKED 1
    let d := { d with pwr := { d.pwr with leaving := d.pwr.leaving.erase [un] } }.forwarded
    if un = 773 ∧ r < 2 then d.ptpFosc false else d

/-- A PLL is off: it does not run on unlocked. -/
def Dev.pllOff (d : Dev) (un : Nat) : Dev :=
  { d with pwr := { d.pwr with unlocked := d.pwr.unlocked.filter (fun c => !(c == un)) } }

/-- SERDES_PLL_STOP: a SerDes PLL has held over for 100 µs without a reference, and its links go down (R507). -/
def Dev.serdesPllStop (d : Dev) (un : Nat) : Dev :=
  match d.pwr.heldSince.get? [un] with
  | none => d
  | some t =>
    if d.now < t + 100000 ∨ (¬ d.flag un CLK_PLL_STATUS.HOLDOVER ∧ ¬ d.flag un CLK_PLL_STATUS.LOCKED) then d else
    let d := ((d.set un CLK_PLL_STATUS.HOLDOVER 0).set un CLK_PLL_STATUS.LOCKED 0).pllOff un
    if un = 774 then d.mgtLinkChange false
    else if un < 784 then (List.range 32).foldl (fun d i => (d.interrupt (32 * (un - 780) + i) false).linkLoss (32 * (un - 780) + i) 14 false false) d
    else (List.range 32).foldl (fun d i =>
      let n := 32 * (un - 791) + i
      if d.linkSt n = fUP then d.leaveUp n 9 (fun d => d.startLink n) else d) d

/-- REF_RETURN of a reference block. -/
def Dev.refReturn (d : Dev) (ref : Nat) : Dev :=
  if (ref = uREF_F ∨ ref = uREF_Q) ∧ d.flag ref CLK_SRC_STATUS.REFA_OK then
    ((plls ref).foldl (fun d u => d.moveTo u 0) d).showCoreRef ref
  else d

/-- PLL_LOCK_LOSS: a PLL loses (`lost`) or regains lock by itself. One that is off, or that never lost lock so, regains none. -/
def Dev.pllLockLoss (d : Dev) (un : Nat) (lost : Bool) : Dev :=
  if ¬ (classOf un == 0x50) ∨ [768, 769, 770, 784, 785].contains un ∨ d.flag un CLK_PLL_STATUS.LOCKED ≠ lost
      ∨ (¬ lost ∧ ¬ d.pwr.unlocked.contains un) then d
  else
    let d := if lost then { d with pwr := { d.pwr with unlocked := un :: d.pwr.unlocked } } else d.pllOff un
    (d.setFlag un CLK_PLL_STATUS.LOCKED (!lost)).raise un 0x11 (leBytes 1 lost.toNat)

/-- POWER_GOOD: the straps are sampled and bring-up starts (R502, R524, R525). -/
def Dev.powerGood (d : Dev) (straps : Nat) : Dev :=
  if d.pwr.goodAt.isSome then d else
  let d := { d with pwr := { d.pwr with goodAt := some d.now } }
  let d := (((d.set 0 PWR_STRAPS.XTAL (straps % 4)).set 0 PWR_STRAPS.REFA_OSC (straps / 4)).set 0 PWR_STRAPS.REFB_OSC
    (straps / 8)).set 0 PWR_STRAPS.RECOVERY_N (straps / 16)
  let d := d.set 0 PWR_STRAPS.TEST (straps / 32)
  d.startClocks

/-! ### Regulators and supply monitors (R516–R520, R549) -/

/-- AVS_STEP: the firmware moves VDD_F (800) or VDD_Q (808). While a step is under way the monitor's levels follow the lower of
the old and new targets. -/
def Dev.avsStep (d : Dev) (un mv : Nat) : Dev :=
  let old := d.get un PWR_MON_STATUS.TARGET_MV
  let due : Bool := match d.pwr.avsAt.get? [un] with
    | some t => decide (t + 10000000 ≤ d.now)
    | none => true
  if (un ≠ 800 ∧ un ≠ 808) ∨ d.fw.running.isNone ∨ (d.pwr.avsPending.get? [un]).isSome ∨ ¬ due ∨ mv < 650 ∨ 800 < mv
      ∨ 5 < (mv - old) + (old - mv) then d
  else
    let d := { d with pwr := { d.pwr with avsAt := d.pwr.avsAt.insert [un] d.now
                                          avsPending := d.pwr.avsPending.insert [un] (old, mv) } }
    d.set un PWR_MON_STATUS.TARGET_MV (min old mv)

/-- The step under way ends at this target. -/
def Dev.endStep (d : Dev) (un mv : Nat) : Dev :=
  { d.set un PWR_MON_STATUS.TARGET_MV mv with pwr := { d.pwr with avsPending := d.pwr.avsPending.erase [un] } }

/-- REGULATOR_SETTLED. -/
def Dev.regulatorSettled (d : Dev) (un : Nat) : Dev :=
  match d.pwr.avsPending.get? [un] with
  | some p => d.endStep un p.2
  | none => d

/-- REGULATOR_FAULT: 0 no answer, 1 not settled, within 2 ms of a step; the rail holds its last target. -/
def Dev.regulatorFault (d : Dev) (un why : Nat) : Dev :=
  match d.pwr.avsPending.get? [un], d.pwr.avsAt.get? [un] with
  | some p, some t => if t + 2000000 ≤ d.now then (d.endStep un p.1).raise un 0x11 (leBytes 1 (why % 2)) else d
  | _, _ => d

/-- Is this a supply monitor? -/
def isMonitor (un : Nat) : Bool := decide (800 ≤ un ∧ un ≤ 815)

/-- A monitor's level, mV × 1,000. -/
def Dev.warnLevel (d : Dev) (un : Nat) : Nat := d.get un PWR_MON_STATUS.TARGET_MV * (1000 - d.act un PWR_MON_CFG.WARN_PM)
def Dev.overLevel (d : Dev) (un : Nat) : Nat := d.get un PWR_MON_STATUS.TARGET_MV * (1000 + d.act un PWR_MON_CFG.OV_PM)

/-- SUPPLY_WARN, at most 1,000 times per second. -/
def Dev.supplyWarn (d : Dev) (un dir extreme duration : Nat) : Dev :=
  d.raiseLimited un 0x10 0 1000 (fun _ => leBytes 1 dir ++ leBytes 2 extreme ++ leBytes 1 0 ++ leBytes 4 duration)

/-- The present reading of a monitor. -/
def Dev.reading (d : Dev) (un low mv : Nat) : Dev :=
  (d.set un PWR_MON_STATUS.MV mv).set un PWR_MON_STATUS.MIN_MV (min (d.get un PWR_MON_STATUS.MIN_MV) (min low mv))

/-- SUPPLY_DIP, at its end: lowest voltage, duration in ns, core-clock cycles that the droop detector stretched meanwhile, and
the reading it leaves (R518, R519). -/
def Dev.supplyDip (d : Dev) (un lowest duration cycles mv : Nat) : Dev :=
  if ¬ isMonitor un ∨ d.warnLevel un ≤ 1000 * lowest ∨ duration ≤ 50 then d else
  let d := (((d.reading un lowest mv).rises un 0x20).tallyLevel un 0x20 duration).bump un PWR_DIP_COUNT.COUNT
  let die := if un = 800 then 1 else if un = 808 then 2 else 0
  let d := if die = 0 then d else (d.add die PWR_DROOP_CYCLES.COUNT cycles).tally die 0x20 cycles
  let d := (List.range 8).foldl Dev.dipRotation d
  let d := { d with fw := { d.fw with holdUntil := d.now + 100000000 } }
  d.supplyWarn un 0 lowest duration

/-- SUPPLY_OVERVOLTAGE: highest voltage, duration, and the reading it leaves. -/
def Dev.supplyOvervoltage (d : Dev) (un highest duration mv : Nat) : Dev :=
  if ¬ isMonitor un ∨ 1000 * highest ≤ d.overLevel un ∨ duration ≤ 50 then d
  else (d.reading un mv mv).supplyWarn un 1 highest duration

/-- SUPPLY_RESET_LEVEL: a rail has stayed below its reset level for longer than RST_FILTER_NS. -/
def Dev.supplyResetLevel (d : Dev) (un : Nat) : Dev :=
  if ¬ isMonitor un then d
  else if un = 802 ∨ un = 810 then d.coldReset true
  else d.warm (2 ^ 3 + (un - 800) * 2 ^ 12)

/-- One PMBus read of a device: its values, or none where it fails. -/
def Dev.pmbRead (d : Dev) (i : Nat) (o : Option (Dev → Dev)) : Dev :=
  match o with
  | some f => f ({ d with pwr := { d.pwr with pmbFails := d.pwr.pmbFails.erase [i] } }.setI 0 PMB_DEV.NO_ANSWER i 0)
  | none =>
    let n := d.pwr.pmbFails.getD 0 [i] + 1
    let d := { d with pwr := { d.pwr with pmbFails := d.pwr.pmbFails.insert [i] n } }
    if 3 ≤ n then d.setI 0 PMB_DEV.NO_ANSWER i 1 else d

/-- Does the firmware read this device? -/
def Dev.pmbOn (d : Dev) (i : Nat) : Bool :=
  d.flag uHIF HIF_STATUS.FW_READY && decide (i < 16) && d.flagI 0 PMB_DEV.EN i

/-- PMB_POLL: READ_VOUT in mV, READ_IOUT in 0.01 A and STATUS_WORD of each device, none where its read fails. -/
def Dev.pmbPoll (d : Dev) (rs : List (Nat × Option (Nat × Nat × Nat))) : Dev :=
  if ¬ d.flag 0 PMB_CFG.EN then d else
  rs.foldl (fun d r =>
    if d.pmbOn r.1 then
      d.pmbRead r.1 (r.2.map (fun v d => ((d.setI 0 PMB_DEV.VOUT_MV r.1 v.1).setI 0 PMB_DEV.IOUT_CA r.1 v.2.1).setI 0
        PMB_DEV.STATUS_WORD r.1 v.2.2))
    else d) d

/-- PMB_ALERT: STATUS_WORD of each device. -/
def Dev.pmbAlert (d : Dev) (rs : List (Nat × Option Nat)) : Dev :=
  rs.foldl (fun d r =>
    if d.pmbOn r.1 then d.pmbRead r.1 (r.2.map (fun v d => d.setI 0 PMB_DEV.STATUS_WORD r.1 v)) else d) d

/-! ### Clock gates and standby (R513–R515, R527) -/

/-- The die of a unit, 1 or 2; units of neither count with the F-die. -/
def dieOf (un : Nat) : Nat :=
  if un = 2 ∨ isUnder 2 un ∨ (516 ≤ un ∧ un ≤ 519) ∨ (588 ≤ un ∧ un ≤ 655) ∨ (852 ≤ un ∧ un ≤ 855) then 2 else 1

/-- Is a unit's clock gated: is the enable of its present sleep state clear? -/
def Dev.gated (d : Dev) (un : Nat) : Bool :=
  match d.get un UF_STATE.SLEEP_STATE with
  | 0 => !d.flag un UF_CLKEN.RUN_EN
  | 1 => !d.flag un UF_CLKEN.SLEEP_EN
  | _ => !d.flag un UF_CLKEN.DEEP_EN

/-- GATED_CLASS_ACCESS: an access to the class region of a unit whose clock is gated ends with an error. -/
def Dev.gatedClassAccess (d : Dev) (un : Nat) : Dev :=
  if populated un ∧ d.gated un then d.bump (dieOf un) PWR_GATED_ACCESS.COUNT else d

/-- CLKEN_WRITE of UF_CLKEN: clearing RUN_EN of a unit that holds a turn is refused with request code 4. -/
def Dev.clkenWrite (d : Dev) (un v : Nat) : Dev :=
  if ¬ populated un then d else
  let put (d : Dev) (f : Fld) : Dev := d.set un f (fieldOfWrite f v)
  let d := put (if un = 98 then d else put d UF_CLKEN.SLEEP_EN) UF_CLKEN.DEEP_EN
  if fieldOfWrite UF_CLKEN.RUN_EN v = 0 ∧ d.flag un UF_STATE.TURN_HOLDER then d.refuseReq un 4 else put d UF_CLKEN.RUN_EN

/-- GATE_CLOSE: a gate closes, by force when the unit has not acknowledged within 1,024 cycles. -/
def Dev.gateClose (d : Dev) (un : Nat) (acknowledged : Bool) : Dev :=
  if populated un ∧ d.gated un ∧ ¬ acknowledged then d.bump (dieOf un) PWR_GATE_FORCED.COUNT else d

/-- Units that run on in standby: the riders, the host interface, the management port, service cores 0 and 1 (R527), and the
always-on units: the package root, clocks, supply monitors and thermal sensors. -/
def runsInStandby (un : Nat) : Bool := un == 0 || [8, 9, 448, 449, 704, 705].contains un || decide (768 ≤ un ∧ un ≤ 855)

/-- Units that standby itself sends to deep-sleep; stacks and channels follow as their controllers enter it (R351). -/
def standbyUnits : List Nat := allUnits.filter (fun u => !runsInStandby u && !(decide (512 ≤ u ∧ u ≤ 655)))

/-- STANDBY_ENTER: STANDBY is set. -/
def Dev.standbyEnter (d : Dev) : Dev :=
  if d.flag 0 PWR_CTRL.STANDBY then d
  else if (List.range 128).any (fun p => d.portInUse p && d.linkState p != lsDISABLED) ∨ d.flag uZFP ZFP_DEV_CFG.EN
      ∨ d.get 0 PWR_CTRL.STBY_STATE ≠ 0 then d.set 0 PWR_CTRL.REFUSED 1
  else
    let d := (d.set 0 PWR_CTRL.STANDBY 1).set 0 PWR_CTRL.STBY_STATE 1
    let d := standbyUnits.foldl (fun d u => d.set u UF_STATE.SLEEP_STATE 2) d
    let d := ([780, 781, 782, 783, 791, 792, 793, 794, 795]).foldl (fun d u => (d.set u CLK_PLL_STATUS.LOCKED 0).pllOff u) d
    d.settleStandby

/-- STANDBY_LEAVE: STANDBY is cleared; the SerDes PLLs lock again on a reference that is good. -/
def Dev.standbyLeave (d : Dev) : Dev :=
  if ¬ d.flag 0 PWR_CTRL.STANDBY then d else
  let d := (d.set 0 PWR_CTRL.STANDBY 0).set 0 PWR_CTRL.STBY_STATE 3
  let d := standbyUnits.foldl (fun d u => d.set u UF_STATE.SLEEP_STATE (if d.svc u = sSPARE then 1 else 0)) d
  let good (u : Nat) : Nat := (d.flag (refOf u) (okField (d.get u CLK_PLL_STATUS.REF))).toNat
  let d := ([780, 781, 782, 783, 791, 792, 793, 794, 795]).foldl (fun e u => e.set u CLK_PLL_STATUS.LOCKED (good u)) d
  d.settleStandby

/-! ### Temperature (R528–R530) -/

/-- Thermal sensors of a die, its stacks' among them. -/
def sensorsOf (die : Nat) : List Nat :=
  if die = 1 then (List.range 16).map (· + 816) ++ (List.range 4).map (· + 848)
  else (List.range 16).map (· + 832) ++ (List.range 4).map (· + 852)

def Dev.tempC (d : Dev) (un : Nat) : Int := toSigned 8 (d.get un PWR_TEMP.TEMP_C)

/-- A stack's sensor sets its controller's reading and its refresh rate (R349). -/
def Dev.stackTemp (d : Dev) (s : Nat) (t : Int) : Dev :=
  let d := d.set (uSTK s) DRC_STACK_STATUS.TEMP_C (ofSigned 8 t)
  let fast := d.flag (uSTK s) DRC_STACK_STATUS.REFRESH_2X
  if ¬ fast ∧ 85 < t then (d.set (uSTK s) DRC_STACK_STATUS.REFRESH_2X 1).raise (uSTK s) 0x15 (leBytes 1 1 ++ leBytes 1 (ofSigned 8 t))
  else if fast ∧ t ≤ 83 then
    (d.set (uSTK s) DRC_STACK_STATUS.REFRESH_2X 0).raise (uSTK s) 0x15 (leBytes 1 0 ++ leBytes 1 (ofSigned 8 t))
  else d

/-- TEMP_READ of a sensor, °C. -/
def Dev.tempRead (d : Dev) (un : Nat) (t : Int) : Dev :=
  if un < 816 ∨ 855 < un then d else
  let t := max (-128) (min 127 t)
  let v := ofSigned 8 t
  let warn := d.flag un PWR_TEMP.WARN
  let hot : Bool := decide (100 ≤ d.tempC un)
  let d := d.set un PWR_TEMP.TEMP_C v
  let d := if ¬ hot ∧ 100 ≤ t then d.rises un 0x20 else d
  let d := if toSigned 8 (d.get un PWR_TEMP.MAX_C) < t then d.set un PWR_TEMP.MAX_C v else d
  let d := if ¬ warn ∧ 100 ≤ t then (d.set un PWR_TEMP.WARN 1).raise un 0x10 (leBytes 1 v ++ leBytes 1 1)
    else if warn ∧ t ≤ 98 then (d.set un PWR_TEMP.WARN 0).raise un 0x10 (leBytes 1 v ++ leBytes 1 0)
    else d
  if 848 ≤ un then d.stackTemp (un - 848) t else d

/-- A die's throttle steps go to `n`: THROTTLE is raised on its first sensor, and while HEADLESS the first step on and the last
one off are logged. -/
def Dev.throttleTo (d : Dev) (die n : Nat) (first : Bool) : Dev :=
  let un := (sensorsOf die).headD 816
  let d := if first ∧ 0 < n then d.rises die 0x21 else d
  let d := (if die = 1 then [771, 772] else [786]).foldl (fun d u => d.set u CLK_PLL_STATUS.THROTTLE n) d
  let d := { d with pwr := { d.pwr with throttledAt := d.pwr.throttledAt.insert [die] d.now } }
  let d := d.raise un 0x11 (leBytes 1 die ++ leBytes 1 n)
  if first then d.logDecision 7 un 0 else d

/-- THROTTLE of a die. -/
def Dev.throttle (d : Dev) (die : Nat) : Dev :=
  if die ≠ 1 ∧ die ≠ 2 then d else
  let n := d.get (if die = 1 then 771 else 786) CLK_PLL_STATUS.THROTTLE
  let after (ns : Nat) : Bool := match d.pwr.throttledAt.get? [die] with
    | some t => decide (t + ns ≤ d.now)
    | none => true
  if (sensorsOf die).any (fun s => decide (105 ≤ d.tempC s)) then
    (if d.flag die PWR_DIE_CFG.THROTTLE_EN ∧ n < 8 ∧ after 1000000 then d.throttleTo die (n + 1) (n == 0) else d)
  else if (sensorsOf die).all (fun s => decide (d.tempC s ≤ 102)) ∧ 0 < n ∧ after 10000000 then d.throttleTo die (n - 1) (n == 1)
  else d

/-- THERM_TRIP: a sensor at 115 °C or above; the device holds itself in warm reset until cold reset. -/
def Dev.thermTrip (d : Dev) : Dev :=
  if (sensorsOf 1 ++ sensorsOf 2).any (fun s => decide (115 ≤ d.tempC s)) then
    { d with pwr := { d.pwr with tripped := true } }.warm (2 ^ 4)
  else d

/-! ### Bridges (R18) -/

/-- BRIDGE_WIRE_REPAIR: a wire fails and a spare takes its place, or, with none left, the bridge is retired and the die-to-die
link runs on. -/
def Dev.bridgeWireRepair (d : Dev) (bridge : Nat) (spare : Bool) : Dev :=
  let un := 4 + bridge
  if 4 ≤ bridge ∨ spare ∨ d.svc un = sRETIRED then d
  else (d.setSvc un sRETIRED).unitLost un

def execXtalStable (ref input : Nat) (counts : List (Nat × Nat)) (s : State) : Answer := s.go (·.xtalStable ref input counts)
def execXtalStartTimeout (ref input : Nat) (s : State) : Answer := s.go (·.xtalStartTimeout ref input)
def execMonitorWindow (ref : Nat) (counts : List (Nat × Nat)) (s : State) : Answer := s.go (·.monitorWindow ref counts)
def execSerdesPllStop (un : Nat) (s : State) : Answer := s.go (·.serdesPllStop un)
def execForcedSwitch (un : Nat) (s : State) : Answer := s.go (·.forcedSwitch un)
def execPllRelock (un : Nat) (s : State) : Answer := s.go (·.pllRelock un)
def execRefReturn (ref : Nat) (s : State) : Answer := s.go (·.refReturn ref)
def execPllLockLoss (un : Nat) (lost : Bool) (s : State) : Answer := s.go (·.pllLockLoss un lost)
def execPowerGood (straps : Nat) (s : State) : Answer := s.go (·.powerGood straps)
def execAvsStep (un mv : Nat) (s : State) : Answer := s.go (·.avsStep un mv)
def execRegulatorSettled (un : Nat) (s : State) : Answer := s.go (·.regulatorSettled un)
def execRegulatorFault (un why : Nat) (s : State) : Answer := s.go (·.regulatorFault un why)
def execSupplyDip (un lowest duration cycles mv : Nat) (s : State) : Answer :=
  s.go (·.supplyDip un lowest duration cycles mv)
def execSupplyOvervoltage (un highest duration mv : Nat) (s : State) : Answer :=
  s.go (·.supplyOvervoltage un highest duration mv)
def execSupplyResetLevel (un : Nat) (s : State) : Answer := s.go (·.supplyResetLevel un)
def execPmbPoll (readings : List (Nat × Option (Nat × Nat × Nat))) (s : State) : Answer := s.go (·.pmbPoll readings)
def execPmbAlert (readings : List (Nat × Option Nat)) (s : State) : Answer := s.go (·.pmbAlert readings)
def execGatedClassAccess (un : Nat) (s : State) : Answer := s.go (·.gatedClassAccess un)
def execClkenWrite (un value : Nat) (s : State) : Answer := s.go (·.clkenWrite un value)
def execGateClose (un : Nat) (acknowledged : Bool) (s : State) : Answer := s.go (·.gateClose un acknowledged)
def execStandbyEnter (s : State) : Answer := s.go Dev.standbyEnter
def execStandbyLeave (s : State) : Answer := s.go Dev.standbyLeave
def execTempRead (un : Nat) (celsius : Int) (s : State) : Answer := s.go (·.tempRead un celsius)
def execThrottle (die : Nat) (s : State) : Answer := s.go (·.throttle die)
def execThermTrip (s : State) : Answer := s.go Dev.thermTrip
def execBridgeWireRepair (bridge : Nat) (spare : Bool) (s : State) : Answer := s.go (·.bridgeWireRepair bridge spare)

end Sys2Proof.Machine
end

