-- ==== Sys2Proof/Machine/Signals.lean ====
section
/-! DEFINITION. The signals and quantities that performance counters see while time passes (R67, R71, R72 and the class chapters'
tables). -/
namespace Sys2Proof.Machine

/-! ### Signals of R71 -/

/-- Descendants of a group that have no children of their own. -/
def leavesUnder (un : Nat) : List Nat := (unitsUnder un).filter (fun u => (childrenOf u).isEmpty)

/-- Is a leaf unit in this state of work (0 busy, 1 stalled, 2 idle)? A gated one is in none (R72). -/
def Dev.leafWorks (d : Dev) (un k : Nat) : Bool := !d.gated un && Config.workState un d.now % 3 == k

/-- The state of work of a unit: a leaf's own; a group is busy if any of its leaves is, else stalled if any is, else idle (R72). -/
def Dev.works (d : Dev) (un k : Nat) : Bool :=
  let ls := leavesUnder un
  if ls.isEmpty then d.leafWorks un k
  else
    let busy := ls.any (fun u => d.leafWorks u 0)
    let stalled := !busy && ls.any (fun u => d.leafWorks u 1)
    match k with
    | 0 => busy
    | 1 => stalled
    | _ => !busy && !stalled

/-- Is the output of a unit that holds turns fenced: is it failed or declared, or has its turn expired (R374, R378)? -/
def Dev.fencedOne (d : Dev) (un : Nat) : Bool :=
  d.svc un == sFAILED || (d.watchOf un).state == .declared || (d.turn un 0).any (fun t => !t.current d.now)

/-- FENCED: of a group that holds no turn, when every unit below it that does is fenced (R72). -/
def Dev.fenced (d : Dev) (un : Nat) : Bool :=
  if holdsTurns un then d.fencedOne un
  else !(turnChildren un).isEmpty && (turnChildren un).all d.fencedOne

/-! ### Signals and quantities of the classes -/

/-- Does a port's list hold back a head frame by R280? -/
def Dev.guardHeld (d : Dev) : Bool :=
  d.sch.sluices.any (fun e =>
    let p := e.1.headD 0
    (d.portQueues p).any (fun q => (d.headReady (.eq q)).any (fun h => !d.gateOk p (q % 8) h.desc)))

/-- Is a lasting signal asserted for a counter with this QUALIFIER (R71 and the class chapters' tables)? BELOW_WARN is not held from step to
step: a dip's cycles are counted at its end. -/
def Dev.signal (d : Dev) (un code q : Nat) : Bool :=
  match code with
  | 0x01 => d.works un 0
  | 0x02 => d.works un 1
  | 0x03 => d.works un 2
  | 0x08 => d.fenced un
  | 0x09 => d.gated un
  | 0x0C => true
  | _ =>
    match classOf un, code with
    | 0x02, 0x21 => d.get (if un = 1 then 771 else 786) CLK_PLL_STATUS.THROTTLE != 0
    | 0x11, 0x24 => decide (1024 ≤ (d.window un).length)
    | 0x12, 0x22 => Config.signal un code d.now
    | 0x18, 0x21 => (List.range 4).any (fun l => (q == 0 || selLat l q) && !(d.siphonOf l).isEmpty)
    | 0x21, 0x23 => un == d.activeSched && d.heldSignal q
    | 0x24, 0x23 => d.get uSPW SPW_STATUS.SHARE_PCT != 100
    | 0x27, 0x20 => d.guardHeld
    | 0x30, 0x26 => d.linkState (un - 128) == lsUP
    | 0x31, 0x24 => d.linkSt (un - 256) == fUP
    | 0x40, 0x21 => d.flag un DRC_STACK_STATUS.ROTATING
    | 0x41, 0x23 => d.svc un != sOFF && Config.signal un code d.now
    | 0x49, 0x21 => d.agents.any (fun e => e.2.running)
    | 0x50, 0x21 => d.flag un CLK_PLL_STATUS.HOLDOVER
    | 0x52, 0x20 => decide (100 ≤ d.tempC un)
    | _, _ => false

/-- A quantity that counts in every cycle. -/
def Dev.quantity (d : Dev) (un code : Nat) : Nat :=
  match classOf un, code with
  | 0x05, 0x24 => d.turnsHeld un
  | 0x10, 0x22 => d.slotsUsed (un - 16)
  | 0x11, 0x23 => (d.window un).length
  | 0x25, 0x21 => (d.fab.ctxs.map (fun e => e.2.held.length)).sum + (d.fab.mctxs.map (fun e => e.2.held.length)).sum
  | 0x31, 0x23 => d.get un ZFP_LINK_STATUS.UNACKED
  | 0x38, 0x22 => d.get uHIF HIF_STATUS.IN_FLIGHT
  | _, _ => 0

/-- Channels of a DRAM unit's port qualifier, and the other units of codes that no row commands. -/
def hapPorts (cls : Nat) : Nat := if cls = 0x40 ∨ cls = 0x41 then 9 else 1

/-- Does a code count what no row of the table commands: bursts, activates and urgent requests of the memory's requesters, and operations
that wait for a meter bank (R300, R368)? -/
def uncommanded (cls code : Nat) : Bool :=
  [(0x29, 0x23), (0x40, 0x22), (0x41, 0x20), (0x41, 0x21), (0x41, 0x22)].contains (cls, code)

/-- How often it happens in one ns, for a counter's QUALIFIER: never in a unit that is OFF. -/
def Dev.happening (d : Dev) (un code q : Nat) : Nat :=
  if d.svc un = sOFF then 0 else
  (((List.range (hapPorts (classOf un))).filter (fun p => hapPorts (classOf un) == 1 || code == 0x22 && classOf un == 0x41 || selDramPort p q)).map
    (fun p => Config.happens un code p d.now)).sum

/-! ### Counting -/

/-- Does counter `n` see the transitions of its signal as time passes? -/
def Dev.watchesEdge (d : Dev) (un n : Nat) : Bool :=
  let code := d.getI un UF_PMC_SEL.CODE n
  d.pmcOn un n && lasting (classOf un) code && !d.pmcLevel un n && !edgeKnown (classOf un) code

/-- The signal that counter `n` selects. -/
def Dev.counterSignal (d : Dev) (un n : Nat) : Bool :=
  d.signal un (d.getI un UF_PMC_SEL.CODE n) (d.getI un UF_PMC_SEL.QUALIFIER n)

/-- Counters of a unit that see transitions note their signals as they stand. -/
def Dev.pmcSample (d : Dev) (un : Nat) : Dev :=
  { d with sigPrev := (List.range 8).foldl (fun t n =>
      t.setD 0 [un, n] (d.watchesEdge un n && d.counterSignal un n).toNat) d.sigPrev }

/-- What counter `n` of a unit gains in one ns, in which its clock domain makes `c` cycles (R67). -/
def Dev.cycleGain (d : Dev) (un n c : Nat) : Nat :=
  let cls := classOf un
  let code := d.getI un UF_PMC_SEL.CODE n
  if ¬ d.pmcOn un n then 0
  else if d.pmcLevel un n then (if d.counterSignal un n then c else 0)
  else if d.watchesEdge un n then (if d.counterSignal un n ∧ d.sigPrev.getD 0 [un, n] = 0 then 1 else 0)
  else if perCycle cls code then c * d.quantity un code
  else if uncommanded cls code then d.happening un code (d.getI un UF_PMC_SEL.QUALIFIER n)
  else 0

/-- The counters of a unit count for one ns; a wrap without a chain raises PMC_OVERFLOW (R67–R69). -/
def Dev.countCycles (d : Dev) (un c : Nat) : Dev :=
  let r := (List.range 8).foldl (fun (acc : Dev × Nat) n =>
    let g := d.cycleGain un n c
    if g = 0 then acc else
    let x := Dev.pmcAdd 8 acc.1 un n g
    (x.1, acc.2 ||| x.2)) (d, 0)
  let e := r.1.pmcSample un
  if r.2 = 0 then e else e.raise un 0x04 (leBytes 1 r.2)

/-- Units with a counter enabled, ascending. -/
def Dev.countingUnits (d : Dev) : List Nat :=
  (d.fields.filter (fun e => (e.1.drop 1).take 2 == [UF_PMC_CTRL.CNT_EN.off, UF_PMC_CTRL.CNT_EN.lo])).map (fun e => e.1.headD 0)

end Sys2Proof.Machine
end

