-- ==== Sys2Proof/Machine/Summary.lean ====
section
/-! DEFINITION. SUMMARY and HIF_RESYNC (R430–R433). -/
namespace Sys2Proof.Machine

/-! ### Sections (R432) -/

/-- An SQ, CQ or EQ. -/
def Dev.sumRing (d : Dev) (kind n : Nat) : List Byte :=
  let k := ringIx kind n
  leBytes 2 (n + d.ringState k * 2 ^ 12) ++ leBytes 2 (d.getI uHIF HIF_RING_STATE.HEAD k)
  ++ leBytes 2 (d.getI uHIF HIF_RING_STATE.TAIL k) ++ leBytes 2 (d.getI uHIF HIF_RING_STATE.COUNT k)

/-- An RXQ: buffers posted, packets held. -/
def Dev.sumRxq (d : Dev) (n : Nat) : List Byte :=
  let k := ringIx kRXQ n
  leBytes 2 (n + d.ringState k * 2 ^ 12) ++ leBytes 2 (d.getI uHIF HIF_RING_STATE.COUNT k)
  ++ leBytes 2 (d.getI uHIF HIF_RING_STATE.HEAD k) ++ leBytes 2 0

/-- A populated unit. -/
def Dev.sumUnit (d : Dev) (un : Nat) : List Byte :=
  leBytes 2 un ++ leBytes 1 (d.svc un + d.get un UF_STATE.DEGRADED * 2 ^ 4 + d.get un UF_STATE.TURN_HOLDER * 2 ^ 5)
  ++ leBytes 1 (d.get un UF_STATE.FAULT_COUNT) ++ leBytes 4 (d.get un UF_TURN.TURN_SEQ)

/-- A UF_ERR_LOG slot (R50). -/
def ErrSlot.bytes (e : ErrSlot) : List Byte :=
  leBytes 8 e.time ++ leBytes 4 e.recordNo ++ leBytes 2 e.cause ++ leBytes 2 e.valid.toNat ++ slice e.detail 0 48

/-- The newest record of a unit: the valid slot with the highest RECORD_NO. -/
def Dev.newestSlot (d : Dev) (un : Nat) : Option ErrSlot :=
  (List.range 4).foldl (fun (b : Option ErrSlot) i => match d.errLog.get? [un, i], b with
    | some e, none => if e.valid then some e else none
    | some e, some x => if e.valid ∧ x.recordNo < e.recordNo then some e else some x
    | none, b => b) none

/-- Put a record among others, oldest first. -/
def byTime (x : Nat × ErrSlot) : List (Nat × ErrSlot) → List (Nat × ErrSlot)
  | [] => [x]
  | y :: ys => if x.2.time < y.2.time then x :: y :: ys else y :: byTime x ys

/-- The pending faults, oldest first. -/
def Dev.pendingFaults (d : Dev) : List (Nat × ErrSlot) :=
  (allUnits.filterMap (fun u =>
    if d.svc u = sFAILED ∨ d.svc u = sRETIRED then (d.newestSlot u).map (fun e => (u, e)) else none)).foldl (fun l x => byTime x l) []

/-- A pending fault's record. -/
def sumFault (x : Nat × ErrSlot) : List Byte := leBytes 2 x.1 ++ leBytes 6 0 ++ x.2.bytes

/-- A rule partition. -/
def Dev.sumPart (d : Dev) (p : Nat) : List Byte :=
  leBytes 4 (d.getI 65 CLS_PART_STATE.ACT_EPOCH p + d.getI 65 CLS_PART_STATE.ACT_SLOT p * 2 ^ 4
    + d.getI 65 CLS_PART_STATE.DRAINING p * 2 ^ 5 + d.getI 65 CLS_PART_STATE.FAILED p * 2 ^ 6)

/-- A version record. -/
def sumVersion (kind slot state version : Nat) (sha : List Byte) : List Byte :=
  leBytes 1 kind ++ leBytes 1 slot ++ leBytes 2 state ++ leBytes 4 version ++ slice sha 0 8

/-- Versions of the running and the staged firmware and of the agents. -/
def Dev.sumVersions (d : Dev) : List (List Byte) :=
  (match d.fw.running with
    | some i => [sumVersion 0 i.slot (d.get 0 FW_STATUS.TRIAL) (hdrVersion i.header) i.sha]
    | none => [])
  ++ (match d.fw.staged with
    | some i => [sumVersion 1 i.slot (if d.flag 0 FW_STATUS.ACT_PENDING then 3 else 2) (hdrVersion i.header) i.sha]
    | none => [])
  ++ d.usedSlots.map (fun s =>
    sumVersion 2 s (d.agState s) (d.getI uSVC AGT_STATUS.VERSION s) (leBytes 8 (d.agent s).hash))

/-- A record of the headless log (R394). -/
def Decision.bytes (x : Decision) : List Byte :=
  leBytes 8 x.time ++ leBytes 1 x.kind ++ leBytes 1 0 ++ leBytes 2 x.un ++ leBytes 4 x.detail

/-- The sections: type, record size, records. -/
def Dev.sections (d : Dev) : List (Nat × Nat × List (List Byte)) :=
  [(1, 8, (d.liveRings kSQ).map (d.sumRing kSQ)), (2, 8, (d.liveRings kCQ).map (d.sumRing kCQ)),
   (3, 8, (d.liveRings kEQ).map (d.sumRing kEQ)), (4, 8, (d.liveRings kRXQ).map d.sumRxq),
   (5, 4, (List.range 512).map (fun i => leBytes 4 (d.source i).lastSeq)), (6, 8, allUnits.map d.sumUnit),
   (7, 72, (d.pendingFaults.drop (d.pendingFaults.length - 64)).map sumFault),
   (8, 8, d.rid.figure.map (fun e => leBytes 2 (e.1.headD 0) ++ leBytes 2 0 ++ leBytes 4 e.2)),
   (9, 4, (List.range 16).map d.sumPart), (10, 16, d.sumVersions), (11, 16, d.hdl.log.map Decision.bytes)]

/-! ### The block (R431) -/

/-- Time spent HEADLESS since the log last cleared. -/
def Dev.headlessNs (d : Dev) : Nat :=
  d.hdl.spent + (if d.flag 0 HDL_STATUS.HEADLESS then d.now - max d.hdl.cleared (d.get 0 HDL_SINCE.TIME) else 0)

/-- The directory from an offset on. -/
def directory : Nat → List (Nat × Nat × List (List Byte)) → List Byte
  | _, [] => []
  | off, s :: ss =>
    leBytes 1 s.1 ++ leBytes 1 s.2.1 ++ leBytes 2 s.2.2.length ++ leBytes 4 off ++ directory (off + s.2.1 * s.2.2.length) ss

/-- The 64-byte header of a block of `len` bytes. -/
def Dev.sumHeader (d : Dev) (len : Nat) (fromResync : Bool) : List Byte :=
  let r := d.bootRec
  leBytes 4 0x4D555348 ++ leBytes 2 1 ++ leBytes 2 d.sections.length ++ leBytes 4 len ++ leBytes 4 r.bootCount
  ++ leBytes 4 r.configEpoch ++ leBytes 4 (d.get uHIF HIF_STATUS.HIF_EPOCH) ++ leBytes 8 d.now ++ leBytes 8 d.now
  ++ leBytes 4 (d.get 66 TBE_ROUTE_GEN.COUNT) ++ leBytes 2 (d.get 65 CLS_EPOCH.CUR_EPOCH) ++ leBytes 2 (d.get 0 PWR_RESET_CAUSE.CAUSE)
  ++ leBytes 4 (d.get 0 HDL_STATUS.HEADLESS + d.get uHIF HIF_STATUS.FW_READY * 2 + d.get uHIF HIF_STATUS.FWD_READY * 4
    + fromResync.toNat * 8 + (if 64 < d.pendingFaults.length then 16 else 0))
  ++ leBytes 4 0 ++ leBytes 8 d.headlessNs

/-- The summary block. -/
def Dev.sumBlock (d : Dev) (fromResync : Bool) : List Byte :=
  let body := (d.sections.map (fun s => s.2.2.flatten)).flatten
  d.sumHeader (0xC0 + body.length) fromResync ++ slice (directory 0xC0 d.sections) 0 128 ++ body

/-- A summary has been written: after HOST_ALIVE, the headless log and its time clear (R394, R431). -/
def Dev.sumWritten (d : Dev) : Dev :=
  if d.hdl.host then
    let d := { d with hdl := { d.hdl with log := [], spent := 0, cleared := d.now, host := false } }
    (d.set 0 HDL_STATUS.LOGGED 0).set 0 HDL_STATUS.UNLOGGED 0
  else d

/-- Parameter table of SUMMARY (R430). -/
def HCmd.summaryParams (c : HCmd) : List Param :=
  [c.must 0 16 0 (fun n => decide (64 ≤ n ∧ n ≤ 65536)), c.zero 0 63 17, c.must 8 63 0 (· % 64 == 0)]

/-- SUMMARY (0x0003). -/
def Dev.summary (d : Dev) (c : HCmd) : Dev :=
  let len := c.par 0 16 0
  d.commandNow c 0x0003 c.summaryParams (fun d =>
    let b := d.sumBlock false
    if len < b.length then
      let r := d.hostBlock c (c.par 8 63 0) (b.take 64) b.length
      if c.writeOk then (r.1, .fail stNO_RESOURCE b.length) else r
    else
      let r := d.hostBlock c (c.par 8 63 0) b b.length
      if c.writeOk then (r.1.sumWritten, r.2) else r)

/-! ### HIF_RESYNC (R433) -/

/-- RESYNC_TRIGGER. -/
def Dev.resyncTrigger (d : Dev) : Dev :=
  if d.flag 0 HIF_RESYNC.BUSY then d else
  (({ d with hif := { d.hif with resync := some false } }.set 0 HIF_RESYNC.BUSY 1).set 0 HIF_RESYNC.DONE 0).set 0 HIF_RESYNC.ERROR 0

/-- RESYNC_ABANDON: every ring goes to DISABLED, and the block waits for the commands in flight to end. -/
def Dev.resyncAbandon (d : Dev) : Dev :=
  if d.flag 0 HIF_RESYNC.BUSY then d else
  let d := d.cutHost
  (({ d with hif := { d.hif with resync := some true } }.set 0 HIF_RESYNC.BUSY 1).set 0 HIF_RESYNC.DONE 0).set 0 HIF_RESYNC.ERROR 0

/-- RESYNC_DONE: the block is in host memory, or its write has failed. -/
def Dev.resyncDone (d : Dev) (writeOk : Bool) : Dev :=
  match d.hif.resync with
  | none => d
  | some waits =>
    if waits ∧ d.hif.lost ≠ [] then d else
    let d := { d with hif := { d.hif with resync := none } }
    let b := d.sumBlock true
    let d := d.set 0 HIF_RESYNC.BUSY 0
    let d := if writeOk then
        ((d.hostWrite (d.get 0 HIF_RESYNC_ADDR.ADDR * 2 ^ 12) b).sumWritten.set 0 HIF_RESYNC.DONE 1).set 0 HIF_RESYNC.LENGTH b.length
      else d.dmaFailed.set 0 HIF_RESYNC.ERROR 1
    d.raise uHIF 0x14 (leBytes 4 b.length ++ leBytes 1 (!writeOk).toNat)

def execSummary (c : HCmd) (s : State) : Answer := s.go (·.summary c)
def execResyncTrigger (s : State) : Answer := s.go Dev.resyncTrigger
def execResyncAbandon (s : State) : Answer := s.go Dev.resyncAbandon
def execResyncDone (writeOk : Bool) (s : State) : Answer := s.go (·.resyncDone writeOk)

end Sys2Proof.Machine
end

