-- ==== Sys2Proof/Machine/RegAccess.lean ====
section
/-! DEFINITION. A register read or written whole, by its frame offset: access codes, halves, ranges and codes (R8–R11, R44–R46,
R554, R555), and what the write of a field with a behaviour of its own does. -/
namespace Sys2Proof.Machine

/-! ### Finding a register -/

/-- Index of the array element at an offset, none where the register does not lie there. -/
def RegDesc.index? (r : RegDesc) (off : Nat) : Option Nat :=
  if off < r.off then none
  else if r.stride = 0 then (if off = r.off then some 0 else none)
  else
    let i := (off - r.off) / r.stride
    if (off - r.off) % r.stride = 0 ∧ r.first ≤ i ∧ i < r.count ∧ (r.sub = 0 ∨ i % 16 < r.sub) then some i else none

/-- The register at an offset of a unit's frame. -/
def findReg (un off : Nat) : Option (RegDesc × Nat) :=
  (regsOf un).findSome? (fun r => (r.index? off).map (fun i => (r, i)))

/-- The index that a window register shows, none when its selector names nothing (R235, R403). -/
def Dev.windowIx (d : Dev) (r : RegDesc) (i : Nat) : Option Nat :=
  match r.window with
  | .none => some i
  | .quota => some (quotaIx (d.get uBPM BPM_QUOTA_SEL.REQ) (d.get uBPM BPM_QUOTA_SEL.POOL))
  | .ring => (d.selRing).map (fun k => ringIx k.1 k.2)

/-! ### Reading -/

/-- Does a descendant have an unmasked pending type (CHILD_PEND)? -/
def Dev.childPend (d : Dev) (un : Nat) : Bool :=
  d.fields.any (fun e =>
    match e.1 with
    | [u, off, lo, _] => off == UF_EVT_PEND.PEND.off && lo == UF_EVT_PEND.PEND.lo && u != un && isUnder un u
      && e.2 != (e.2 &&& d.get u UF_EVT_MASK.MASK)
    | _ => false)

/-- The 64 bytes of a UF_ERR_LOG slot; an empty slot reads 0 (R50). -/
def Dev.errBytes (d : Dev) (un slot : Nat) : List Byte :=
  match d.errLog.get? [un, slot] with
  | none => List.replicate 64 0
  | some e => leBytes 8 e.time ++ leBytes 4 e.recordNo ++ leBytes 2 e.cause ++ leBytes 2 e.valid.toNat ++ slice e.detail 0 48

/-- The 64 bytes of record `i` of the always-on fault log (R523). -/
def Dev.aonBytes (d : Dev) (i : Nat) : List Byte :=
  match d.rid.log[i]? with
  | none => List.replicate 64 0
  | some e => leBytes 8 e.time ++ leBytes 4 e.recordNo ++ leBytes 2 e.cause ++ leBytes 2 e.un ++ slice e.detail 0 48

/-- A word of the retired list: bit *u* mod 64 of word *u* ÷ 64. -/
def Dev.retiredWord (d : Dev) (w : Nat) : Nat :=
  d.rid.retired.foldl (fun v u => if u / 64 = w then setBit v (u % 64) true else v) 0

/-- A 32-bit word of the MSI-X table; control resets to masked. -/
def Dev.msixWord (d : Dev) (v k : Nat) : Nat := d.hif.msix.getD (if k = 3 then 1 else 0) [v, k]

/-- A counter as the last snapshot copied it. -/
def Dev.shadow (d : Dev) (un : Nat) (f : Fld) (i : Nat) : Nat :=
  match d.snap with
  | none => 0
  | some s => s.counts.getD 0 (f.key un i)

/-- Time left in a port's hold, in whole ms begun; 0 outside HOLD (R288). -/
def Dev.holdLeftMs (d : Dev) (p : Nat) : Nat :=
  if d.holdState p = hHOLD then
    min 0x3FFF ((d.sch.holdStart.getD 0 [p] + d.getI uSCH TMS_PORT_CFG.HOLD_MS p * 1000000 - d.now + 999999) / 1000000)
  else 0

/-- UF_PMC_CYCLE as the last snapshot copied it. -/
def Dev.shadowCycle (d : Dev) (un : Nat) : Nat :=
  match d.snap with
  | none => 0
  | some s => cyclesShown s.clocks s.base un

/-- When a frame took its copy: up to 40 ns after the first, and within 2 cycles of the core clock, less than 2 ns, of the other frames of
its die (R74). -/
def Snap.timeOf (s : Snap) (un : Nat) : Nat :=
  s.time + Config.snapSkew s.draw (identOwner un) % 39 + Config.frameSkew s.draw un % 3

/-- The unit under whose number a frame's registers are held: the class registers of the two egress schedulers are one set (R289). -/
def frameUn (un off : Nat) : Nat := if un = 98 ∧ 0x400 ≤ off then uSCH else un

/-- Fields whose value follows other state: they are put into the word that the stored fields give. -/
def Dev.liveBits (d : Dev) (un off : Nat) : Nat :=
  if off = UF_EVT_PEND.PEND.off then 2 ^ 63 * (d.childPend un).toNat
  else if off = UF_EVT_SEQ.LAST_SEQ.off then (d.source (commonSource un)).lastSeq
  else if off = 0x10 then (d.ident un).1
  else if off = 0x18 then (d.ident un).2
  else if UF_PMC_SHADOW.COUNT.off ≤ off ∧ off < UF_PMC_SHADOW_CYCLE.CYCLES.off then
    d.shadow un UF_PMC_CNT.COUNT ((off - UF_PMC_SHADOW.COUNT.off) / 8)
  else if off = UF_PMC_SHADOW_CYCLE.CYCLES.off then d.shadowCycle un
  else if off = UF_PMC_CYCLE.CYCLES.off then cyclesShown d.pwr.clocks d.cycleBase un
  else if off = UF_PMC_SNAP_ID.SNAP_ID.off then (match d.snap with | none => 0 | some s => 2 ^ 32 + s.id)
  else if off = UF_PMC_SNAP_TIME.TIME.off then (match d.snap with | none => 0 | some s => s.timeOf un)
  else if un = uSCH ∧ TMS_PORT_STATUS.HOLD_LEFT_MS.off ≤ off ∧ off < TMS_PORT_STATUS.HOLD_LEFT_MS.off + 1024 then
    d.holdLeftMs ((off - TMS_PORT_STATUS.HOLD_LEFT_MS.off) / 8)
  else if un = uHIF ∧ off = HIF_ID.REVISION.off then bits (d.ident 1).2 39 32 * 2 ^ HIF_ID.REVISION.lo
  else if un = uSPW ∧ off = SPW_STATUS.IN_DEBT.off then
    2 ^ SPW_STATUS.IN_DEBT.lo * d.inDebt.toNat
  else if (un = 8 ∨ un = 9) ∧ off = RID_STATUS.TURNS_HELD.off then 2 ^ RID_STATUS.TURNS_HELD.lo * (d.turnsHeld un % 2 ^ 16)
  else if classOf un = 0x41 ∧ off = DRC_CE_LAST_S.COUNT.off then d.ceLast ((un - 520) / 17) (physOf un)
  else if classOf un = 0x31 ∧ off = ZFP_LINK_STATUS.DEATHS.off then 2 ^ ZFP_LINK_STATUS.DEATHS.lo * d.deathsOf (un - 256)
  else 0

/-- Does BAR0 hold a unit's frame: that of a populated unit, and in recovery mode of UN 0, 448 and 449 alone (R44, R487)? -/
def Dev.served (d : Dev) (un : Nat) : Bool :=
  populated un && (!d.flag 0 FW_STATUS.RECOVERY || [0, 448, 449].contains un)

/-- The 64-bit word at an offset of a unit's frame, as a read finds it: 0 where no register lies and in absent frames (R44,
R46). -/
def Dev.regRead (d : Dev) (un off : Nat) : Nat :=
  if ¬ d.served un ∨ off % 8 ≠ 0 then 0
  else if 0x300 ≤ off ∧ off < 0x400 then leAt (d.errBytes un ((off - 0x300) / 64)) (off % 64) 8
  else if un = 0 ∧ 0x1000 ≤ off ∧ off < 0x2000 then leAt (d.aonBytes ((off - 0x1000) / 64)) (off % 64) 8
  else if un = 0 ∧ 0x2000 ≤ off ∧ off < 0x2200 then d.retiredWord ((off - 0x2000) / 8)
  else if un = uHIF ∧ 0x2000 ≤ off ∧ off < 0x2400 then
    let v := (off - 0x2000) / 16
    let k := off % 16 / 4
    d.msixWord v k + 2 ^ 32 * d.msixWord v (k + 1)
  else if un = uHIF ∧ off = 0x3000 then d.hif.pba % 2 ^ 64
  else match findReg un off with
    | none => 0
    | some (r, i) =>
      match d.windowIx r i with
      | none => 0
      | some j => d.wordOf (frameUn un off) r j + d.liveBits (frameUn un off) off

/-! ### Writing -/

/-- Counter event codes that a class names from 0x20 on (R107, R144, R189, R223, R258, R300, R338, R368, R397, R436, R498, R532 and the
tables of the service cluster). -/
def classCodes (cls : Nat) : Nat :=
  match cls with
  | 0x02 | 0x18 | 0x22 | 0x26 | 0x28 | 0x32 | 0x4A | 0x50 => 2
  | 0x15 | 0x25 | 0x27 | 0x39 | 0x40 | 0x49 => 3
  | 0x10 | 0x12 | 0x13 | 0x17 | 0x20 | 0x21 | 0x24 | 0x29 => 4
  | 0x11 | 0x19 | 0x23 | 0x31 => 5
  | 0x05 | 0x41 => 6
  | 0x30 | 0x38 => 7
  | 0x16 => 9
  | 0x51 | 0x52 => 1
  | _ => 0

/-- Does the manual name a counter event code for a class (R71, R555)? -/
def namedCode (cls code : Nat) : Bool := decide (code ≤ 0x0C ∨ (0x20 ≤ code ∧ code < 0x20 + classCodes cls))

/-- May a field be written in this unit and state, and with this value (R77, R78, R510, R555)? -/
def Dev.takes (d : Dev) (un : Nat) (f : FieldDesc) (v : Nat) : Bool :=
  (match f.codes with | some m => decide (v ≤ m) | none => true)
  && (match f.special with
    | .plain => true
    | .leadPort => isLeadUn un
    | .spread => [771, 772, 786].contains un
    | .rail => decide (v ≤ 9) || v == 15
    | .poolCount => true
    | .deviceId => !d.flag uZFP ZFP_DEV_CFG.EN
    | .evtMask => true
    | .pmcCode => namedCode (classOf un) v)

/-- Store a word into the fields of a register: RW fields that take the value keep it, W1C fields lose the bits written 1
(R8). -/
def Dev.storeWord (d : Dev) (un : Nat) (r : RegDesc) (i w : Nat) : Dev :=
  let d0 := d
  r.fields.foldl (fun d f =>
    (List.range f.rep).foldl (fun d j =>
      let v := f.of j w
      match f.acc with
      | .rw => if d0.takes un f v then d.setI un f.fld (f.ix i j) v else d
      | .w1c => let old := d.getI un f.fld (f.ix i j); d.setI un f.fld (f.ix i j) (old - (old &&& v))
      | _ => d) d) d

/-- The word with which a write of one half meets the other half: the RW fields as stored, everything else 0 (R46). -/
def Dev.rwWord (d : Dev) (un : Nat) (r : RegDesc) (i : Nat) : Nat :=
  r.fields.foldl (fun v f =>
    if f.acc = .rw then (List.range f.rep).foldl (fun v j => v + d.getI un f.fld (f.ix i j) * 2 ^ f.at j) v else v) 0

/-- A write's full word: the half addressed from the value, the other half as it stands. -/
def halfWord (h : Half) (old v : Nat) : Nat :=
  match h with
  | .both => v % 2 ^ 64
  | .low => old / 2 ^ 32 * 2 ^ 32 + v % 2 ^ 32
  | .high => v % 2 ^ 32 * 2 ^ 32 + old % 2 ^ 32

/-- Did a write put a 1 into this field? -/
def wrote (f : Fld) (w : Nat) : Bool := fieldOfWrite f w != 0

/-- Writes of a header register (R49, R51, R62, R66, R70, R514). -/
def Dev.headerWrite (d : Dev) (un : Nat) (r : RegDesc) (i w : Nat) : Dev :=
  if r.off = UF_CTRL.OUT_REQ.off then (d.storeWord un r i w).unitRequest un (w % 16)
  else if r.off = UF_CLKEN.RUN_EN.off then d.clkenWrite un w
  else if r.off = UF_EVT_PEND.PEND.off then d.evtPendClear un w
  else if r.off = UF_EVT_MASK.MASK.off then d.evtMaskWrite un w
  else if r.off = UF_PMC_CTRL.CNT_EN.off then
    let d := d.storeWord un r i w
    let d := if wrote UF_PMC_CTRL.CYCLE_CLEAR w then d.pmcCycleClear un else d
    if wrote UF_PMC_CTRL.CNT_CLEAR w then d.pmcCntClear un else d
  else d.storeWord un r i w

/-- Writes of the package root's registers. -/
def Dev.rootWrite (d : Dev) (r : RegDesc) (i w : Nat) : Dev :=
  let s := d.storeWord 0 r i w
  if r.off = HIF_SNAP_CTRL.TRIGGER.off then (if wrote HIF_SNAP_CTRL.TRIGGER w then s.snapTrigger else s)
  else if r.off = HDL_CFG.TIMEOUT_S.off then s.saveStore
  else if r.off = HDL_HEARTBEAT.BEAT.off then (if wrote HDL_HEARTBEAT.BEAT w then d.attended else d)
  else if r.off = HIF_RESYNC.TRIGGER.off then
    (if ¬ wrote HIF_RESYNC.TRIGGER w then d else if wrote HIF_RESYNC.ABANDON w then d.resyncAbandon else d.resyncTrigger)
  else if r.off = FW_REC_CTRL.LENGTH.off then s.recCtrlWrite (wrote FW_REC_CTRL.HDR_CHECK w) (wrote FW_REC_CTRL.GO w)
  else if r.off = PWR_CTRL.STANDBY.off then
    let c := if wrote PWR_CTRL.REFUSED w then d.set 0 PWR_CTRL.REFUSED 0 else d
    let c := if wrote PWR_CTRL.STANDBY w then c.standbyEnter else c.standbyLeave
    if wrote PWR_CTRL.SOFT_RESET w then c.softReset (fieldOfWrite PWR_CTRL.KEY w) else c
  else s

/-- Writes of a network port's registers. A change of OCTET_MODE or LANE_RATE takes the octet's ports down, as PORT_CFG with
FORCE does (R77, R88). -/
def Dev.portWrite (d : Dev) (p : Nat) (r : RegDesc) (i w : Nat) : Dev :=
  let s := d.storeWord (uPort p) r i w
  if r.off = PRT_MODE.MEDIA.off then
    let mode := fieldOfWrite PRT_MODE.OCTET_MODE w
    let rate := fieldOfWrite PRT_MODE.LANE_RATE w
    let s := s.set (uPort p) PRT_MODE.OCTET_MODE (d.get (uPort p) PRT_MODE.OCTET_MODE)
    let s := s.set (uPort p) PRT_MODE.LANE_RATE (d.get (uPort p) PRT_MODE.LANE_RATE)
    let mode := if mode ≤ 4 then mode else d.get (uPort p) PRT_MODE.OCTET_MODE
    if p % 8 = 0 ∧ (mode ≠ d.get (uPort p) PRT_MODE.OCTET_MODE ∨ rate ≠ d.get (uPort p) PRT_MODE.LANE_RATE) then
      (s.octetChange p mode rate (s.octetBusy p)).mapChanged p
    else s.settlePort p
  else if r.off = PRT_LANE_MAP.TX_MAP.off then d.laneMapWrite p w
  else if r.off = PRT_CTRL.ADMIN_UP.off then
    let s := s.set (uPort p) PRT_CTRL.ADMIN_UP (d.get (uPort p) PRT_CTRL.ADMIN_UP)
    let s := if d.get (uPort p) PRT_CTRL.CAGE_WIDTH = s.get (uPort p) PRT_CTRL.CAGE_WIDTH then s
      else (s.showModule p).settlePorts (octetPorts p)
    let s := if wrote PRT_CTRL.ADMIN_UP w then s.portAdminUp p
      else if d.flag (uPort p) PRT_CTRL.ADMIN_UP then s.portAdminDown p else s
    if wrote PRT_CTRL.RETRAIN w then s.retrain p else s
  else s

/-- The pending MSI-X messages of vectors that are no longer masked are sent. -/
def Dev.msixSettle (d : Dev) (v : Nat) : Dev :=
  if bit d.hif.pba v ∧ ¬ bit (d.msixWord v 3) 0 then
    ({ d with hif := { d.hif with pba := setBit d.hif.pba v false } }).sendMsix v
  else d

/-- A write of the MSI-X table (R416, R560). -/
def Dev.msixWrite (d : Dev) (off : Nat) (h : Half) (v : Nat) : Dev :=
  let e := (off - 0x2000) / 16
  let k := off % 16 / 4
  let old := d.msixWord e k + 2 ^ 32 * d.msixWord e (k + 1)
  let w := halfWord h old v
  let put (d : Dev) (k x : Nat) : Dev :=
    { d with hif := { d.hif with msix := d.hif.msix.setD (if k = 3 then 1 else 0) [e, k] x } }
  ((put (put d k (w % 2 ^ 32)) (k + 1) (w / 2 ^ 32))).msixSettle e

/-- Writes of the host interface's ring registers: BASE and CFG only while the ring is DISABLED (R403, R404). -/
def Dev.hifWrite (d : Dev) (r : RegDesc) (i w : Nat) : Dev :=
  if r.off = HIF_RING_CTRL.ENABLE.off then
    let d := d.storeWord uHIF r i w
    let d := if wrote HIF_RING_CTRL.ENABLE w then d.ringEnable else d
    let d := if wrote HIF_RING_CTRL.DISABLE w then d.ringDisable else d
    if wrote HIF_RING_CTRL.ERR_CLEAR w then d.ringErrClear else d
  else if r.window = .ring then (if d.ringState i = rDISABLED then d.storeWord uHIF r i w else d)
  else d.storeWord uHIF r i w

/-- A write of a class register: fields with a behaviour of their own act as the commands named after them do. -/
def Dev.classWrite (d : Dev) (un : Nat) (r : RegDesc) (i w : Nat) : Dev :=
  let s := d.storeWord un r i w
  match classOf un with
  | 0x01 => d.rootWrite r i w
  | 0x30 => d.portWrite (un - 128) r i w
  | 0x13 =>
    if r.off = PRS_CFG.ROOT_NODE.off ∨ 0x1000 ≤ r.off then d.graphWrite (r.off + i * r.stride) w else s
  | 0x14 =>
    if r.off = CLS_PART_CFG.BANK_MASK.off then d.partCfgWrite i w
    else if r.off = PNT_Q_CFG.EN.off then d.puntCfgWrite i w
    else s
  | 0x16 =>
    if r.off = TBE_HASH_SEED.SEED1.off then (if d.fwd.em.isEmpty ∧ d.hashRoutes.isEmpty then s else d) else s
  | 0x23 =>
    if r.off = BPM_QUOTA.GUAR.off then d.quotaWrite w
    else if r.off = BPM_POOL_CFG.EN.off then d.poolCfgWrite i w
    else s
  | 0x20 =>
    if r.off = TMQ_CFG.GLOBAL_SPILL_PCT.off ∨ r.off = TMQ_AP_SPILL.SPILL_ON.off then s.spillRecheck else s
  | 0x24 => if r.off = SPW_CFG.BUDGET.off then d.spwCfgWrite s else s
  | 0x31 =>
    if r.off = ZFP_LINK_CFG.ADMIN_UP.off then
      let s := s.set un ZFP_LINK_CFG.ADMIN_UP (d.get un ZFP_LINK_CFG.ADMIN_UP)
      if wrote ZFP_LINK_CFG.ADMIN_UP w then s.fabAdminUp (un - 256)
      else if d.flag un ZFP_LINK_CFG.ADMIN_UP then s.fabAdminDown (un - 256) else s
    else s
  | 0x32 =>
    if r.off ≠ ZFP_DEV_CFG.EN.off then s else
    let s := if wrote ZFP_DEV_CFG.EN w then (List.range 160).foldl Dev.settleLink s else s
    if s.inUse.isEmpty then s else s.showCapacity
  | 0x40 =>
    if r.off ≠ DRC_STACK_CFG.ROT_HOLD.off then s
    else if wrote DRC_STACK_CFG.ROT_HOLD w then s.rotHoldSet (un - 512)
    else s.startWaiting ((un - 512) / 4)
  | 0x38 => d.hifWrite r i w
  | 0x49 => if r.off = SVC_PTP_CFG.EN.off then d.ptpCfgWrite w else s
  | 0x39 =>
    if r.off = MGT_CFG.ADMIN_UP.off then (if wrote MGT_CFG.ADMIN_UP w then s else s.mgtLinkChange false).saveStore
    else if r.off = MGT_IPV4.ADDR.off then s.saveStore
    else s
  | 0x50 => if r.off = CLK_SRC_CFG.REF_RETURN.off ∧ wrote CLK_SRC_CFG.REF_RETURN w then s.refReturn un else s
  | _ => s

/-- A write of UF_ERR_LOG: a 1 in VALID of a slot empties it (R49). -/
def Dev.errLogWrite (d : Dev) (un off w : Nat) : Dev :=
  let k : Key := [un, (off - 0x300) / 64]
  if off % 64 = 8 ∧ bit w 48 then
    match d.errLog.get? k with
    | none => d
    | some e => { d with errLog := d.errLog.insert k { e with valid := false } }
  else d

/-- An access to a unit's frame counts FRAME_ACCESS (R71). -/
def Dev.accessed (d : Dev) (un : Nat) : Dev := d.tally un 0x0B 1

/-- Offsets of the registers that say what counts. -/
def isPmcOff (off : Nat) : Bool := decide (UF_PMC_CTRL.CNT_EN.off ≤ off ∧ off < UF_PMC_CNT.COUNT.off + 64)

/-- A write of the register at an offset of a populated frame. -/
def Dev.writeReg (d : Dev) (un off : Nat) (h : Half) (value : Nat) : Dev :=
  if 0x400 ≤ off ∧ d.gated un then d.gatedClassAccess un
  else if 0x300 ≤ off ∧ off < 0x400 then d.errLogWrite un off (halfWord h 0 value)
  else if un = uHIF ∧ 0x2000 ≤ off ∧ off < 0x2400 then d.msixWrite off h value
  else match findReg un off with
    | none => d
    | some (r, i) =>
      match d.windowIx r i with
      | none => d
      | some j =>
        let u := frameUn un off
        let w := halfWord h (d.rwWord u r j) value
        let d := if off < 0x400 then d.headerWrite un r j w else d.classWrite u r j w
        if isPmcOff off then d.pmcSample un else d

/-- REGISTER_WRITE: a host write of a register or of one half of it. -/
def Dev.registerWrite (d : Dev) (un off : Nat) (h : Half) (value : Nat) : Dev :=
  if ¬ d.served un ∨ off % 8 ≠ 0 then d else (d.accessed un).writeReg un off h value

/-! ### RC fields -/

/-- Does a read of this half of a register take in a field whose lowest bit is `lo` (R46)? -/
def Half.takes : Half → Nat → Bool
  | .both, _ => true
  | .low, lo => decide (lo < 32)
  | .high, lo => decide (32 ≤ lo)

/-- The half of a register's word that a read returns (R46). -/
def Half.of : Half → Nat → Nat
  | .both, w => w
  | .low, w => w % 2 ^ 32
  | .high, w => w / 2 ^ 32

/-- The RC fields read in the register at an offset return to their reset values, or hold what the hardware puts into them in the
same clock (R8, R10). -/
def Dev.rcDone (d : Dev) (un off : Nat) (h : Half) (update : Option Nat) : Dev :=
  match findReg un off with
  | none => d
  | some (r, i) =>
    match d.windowIx r i with
    | none => d
    | some j =>
      r.fields.foldl (fun d f =>
        if f.acc = .rc ∧ h.takes f.fld.lo then
          match update with
          | none => d.clearFldI (frameUn un off) f.fld j
          | some v => d.setI (frameUn un off) f.fld j v
        else d) d

/-- RC_FIELD_READ: the word read, or the half of it asked for, is kept for the reader, and the RC fields read return to their reset
values. `update` is what the hardware puts into the field in the same clock: the field then holds that alone (R8, R10, R46). -/
def Dev.rcFieldRead (d : Dev) (un off : Nat) (h : Half) (update : Option Nat) : Dev :=
  if ¬ d.served un then { d with lastRead := 0 } else
  let d := d.accessed un
  if 0x400 ≤ off ∧ d.gated un then d.gatedClassAccess un
  else ({ d with lastRead := h.of (d.regRead un off) }).rcDone un off h update

/-! ### hai_reg_read (R465) -/

/-- hai_reg_read: the word goes into the agent's memory; an access to a gated class region fails and is counted. -/
def Dev.haiRegRead (d : Dev) (slot un off out memLen : Nat) : Dev :=
  d.hai slot memLen (fun d =>
    if ¬ bit (d.agent slot).perm 2 then (d, haiStatus stPERMISSION)
    else if off % 8 ≠ 0 then (d, haiBAD_ARG)
    else if memLen < out + 8 then (d, haiBAD_POINTER)
    else
      let d := if populated un then d.accessed un else d
      if populated un ∧ 0x400 ≤ off ∧ d.gated un then (d.gatedClassAccess un, haiStatus stUNIT_UNAVAILABLE)
      else ((d.rcDone un off .both none).agentWrite slot out (leBytes 8 (d.regRead un off)), 0))

def execRegisterWrite (un off : Nat) (half : Half) (value : Nat) (s : State) : Answer := s.go (·.registerWrite un off half value)
def execRcFieldRead (un off : Nat) (update : RcUpdate) (s : State) : Answer :=
  s.go (·.rcFieldRead un off update.half update.value)
def execHaiRegRead (slot un offset out memLen : Nat) (s : State) : Answer := s.go (·.haiRegRead slot un offset out memLen)

end Sys2Proof.Machine
end

