-- ==== Sys2Proof/Machine/Dispatch.lean ====
section
/-! DEFINITION. One arm per command: a direct call of its meaning. -/
namespace Sys2Proof.Machine
open Sys2Proof

def exec (i : Instr) (s : State) : Host.Outcome State Fault Refusal :=
  match i with
  | .registerWrite un off half value => Sys2Proof.Machine.execRegisterWrite un off half value s
  | .rcFieldRead un off update => Sys2Proof.Machine.execRcFieldRead un off update s
  | .gatedClassAccess un => Sys2Proof.Machine.execGatedClassAccess un s
  | .outReq un reqs => Sys2Proof.Machine.execOutReq un reqs s
  | .returnReq un reqs => Sys2Proof.Machine.execReturnReq un reqs s
  | .testReq un reqs => Sys2Proof.Machine.execTestReq un reqs s
  | .resetReq un reqs => Sys2Proof.Machine.execResetReq un reqs s
  | .selfTestDone un pass => Sys2Proof.Machine.execSelfTestDone un pass s
  | .clkenWrite un value => Sys2Proof.Machine.execClkenWrite un value s
  | .evtMaskWrite un mask => Sys2Proof.Machine.execEvtMaskWrite un mask s
  | .evtPendClear un clear => Sys2Proof.Machine.execEvtPendClear un clear s
  | .eventDeliver src => Sys2Proof.Machine.execEventDeliver src s
  | .pmcCycleClear un => Sys2Proof.Machine.execPmcCycleClear un s
  | .pmcCntClear un => Sys2Proof.Machine.execPmcCntClear un s
  | .pmcOverflow un n => Sys2Proof.Machine.execPmcOverflow un n s
  | .snapshot c => Sys2Proof.Machine.execSnapshot c s
  | .snapTrigger => Sys2Proof.Machine.execSnapTrigger s
  | .snapshotDone => Sys2Proof.Machine.execSnapshotDone s
  | .frameReceived port bytes fcsOk sfd => Sys2Proof.Machine.execFrameReceived port bytes fcsOk sfd s
  | .trainingConverged port => Sys2Proof.Machine.execTrainingConverged port s
  | .trainTimeout port lanes => Sys2Proof.Machine.execTrainTimeout port lanes s
  | .alignmentLock port => Sys2Proof.Machine.execAlignmentLock port s
  | .upDebounceExpire port => Sys2Proof.Machine.execUpDebounceExpire port s
  | .linkLoss port cause rxCut txCut => Sys2Proof.Machine.execLinkLoss port cause rxCut txCut s
  | .trainRetryExpire port => Sys2Proof.Machine.execTrainRetryExpire port s
  | .retrain port => Sys2Proof.Machine.execRetrain port s
  | .portAdminUp port => Sys2Proof.Machine.execPortAdminUp port s
  | .portAdminDown port => Sys2Proof.Machine.execPortAdminDown port s
  | .laneMapWrite port value => Sys2Proof.Machine.execLaneMapWrite port value s
  | .marginLow port lanes on => Sys2Proof.Machine.execMarginLow port lanes on s
  | .fecDegraded port on => Sys2Proof.Machine.execFecDegraded port on s
  | .sgpioScan chain stream => Sys2Proof.Machine.execSgpioScan chain stream s
  | .chainFailed chain => Sys2Proof.Machine.execChainFailed chain s
  | .moduleRemoved slot rxCut txCut => Sys2Proof.Machine.execModuleRemoved slot rxCut txCut s
  | .moduleInserted slot => Sys2Proof.Machine.execModuleInserted slot s
  | .buttonPressed slot => Sys2Proof.Machine.execButtonPressed slot s
  | .moduleInt slot flags state => Sys2Proof.Machine.execModuleInt slot flags state s
  | .moduleReady slot => Sys2Proof.Machine.execModuleReady slot s
  | .moduleFault slot why => Sys2Proof.Machine.execModuleFault slot why s
  | .portCfg c => Sys2Proof.Machine.execPortCfg c s
  | .portDrain c => Sys2Proof.Machine.execPortDrain c s
  | .moduleAccess c answer => Sys2Proof.Machine.execModuleAccess c answer s
  | .drainHostWaitExpire port => Sys2Proof.Machine.execDrainHostWaitExpire port s
  | .drainQuiet port => Sys2Proof.Machine.execDrainQuiet port s
  | .drainMaxExpire port => Sys2Proof.Machine.execDrainMaxExpire port s
  | .ledFrame => Sys2Proof.Machine.execLedFrame s
  | .ppsOutEdge => Sys2Proof.Machine.execPpsOutEdge s
  | .ppsInEdge rising => Sys2Proof.Machine.execPpsInEdge rising s
  | .todOutMessage => Sys2Proof.Machine.execTodOutMessage s
  | .todInMessage bytes => Sys2Proof.Machine.execTodInMessage bytes s
  | .graphWrite off value => Sys2Proof.Machine.execGraphWrite off value s
  | .headerDispatch lat => Sys2Proof.Machine.execHeaderDispatch lat s
  | .siphonSlotGrant lat => Sys2Proof.Machine.execSiphonSlotGrant lat s
  | .flumePass un latSeq shadow => Sys2Proof.Machine.execFlumePass un latSeq shadow s
  | .clsEntryRepair lat bank index => Sys2Proof.Machine.execClsEntryRepair lat bank index s
  | .bankSpared lat bank selfTest => Sys2Proof.Machine.execBankSpared lat bank selfTest s
  | .partitionFailed lat bank selfTest => Sys2Proof.Machine.execPartitionFailed lat bank selfTest s
  | .ruleWrite c => Sys2Proof.Machine.execRuleWrite c s
  | .ruleInvalidate c => Sys2Proof.Machine.execRuleInvalidate c s
  | .rulesetSwap c => Sys2Proof.Machine.execRulesetSwap c s
  | .swapDone part => Sys2Proof.Machine.execSwapDone part s
  | .partCfgWrite part value => Sys2Proof.Machine.execPartCfgWrite part value s
  | .puntQueueCfgWrite queue value => Sys2Proof.Machine.execPuntQueueCfgWrite queue value s
  | .fragSweep => Sys2Proof.Machine.execFragSweep s
  | .sentinelInject lat mismatch => Sys2Proof.Machine.execSentinelInject lat mismatch s
  | .resultCommit un latSeq checkOk ackNow => Sys2Proof.Machine.execResultCommit un latSeq checkOk ackNow s
  | .packetRelease port => Sys2Proof.Machine.execPacketRelease port s
  | .counterFlush pair uncorrectable => Sys2Proof.Machine.execCounterFlush pair uncorrectable s
  | .cntReadBlock c uncorrectable faultAfter => Sys2Proof.Machine.execCntReadBlock c uncorrectable faultAfter s
  | .cntClearBlock c faultAfter => Sys2Proof.Machine.execCntClearBlock c faultAfter s
  | .editorPacket port checkOk encapReadable shadow => Sys2Proof.Machine.execEditorPacket port checkOk encapReadable shadow s
  | .encapWrite c => Sys2Proof.Machine.execEncapWrite c s
  | .egrRuleWrite c => Sys2Proof.Machine.execEgrRuleWrite c s
  | .tblInsert c => Sys2Proof.Machine.execTblInsert c s
  | .tblDelete c => Sys2Proof.Machine.execTblDelete c s
  | .tblSearch c => Sys2Proof.Machine.execTblSearch c s
  | .tblNext c => Sys2Proof.Machine.execTblNext c s
  | .cursorExpire cursor => Sys2Proof.Machine.execCursorExpire cursor s
  | .tblFlushPort c => Sys2Proof.Machine.execTblFlushPort c s
  | .tblBulkLoad c => Sys2Proof.Machine.execTblBulkLoad c s
  | .tblAgeCfg c => Sys2Proof.Machine.execTblAgeCfg c s
  | .lpmCommit c => Sys2Proof.Machine.execLpmCommit c s
  | .learnReport => Sys2Proof.Machine.execLearnReport s
  | .activityUpdate => Sys2Proof.Machine.execActivityUpdate s
  | .ageSweep table updatesFirst => Sys2Proof.Machine.execAgeSweep table updatesFirst s
  | .relocationStart key => Sys2Proof.Machine.execRelocationStart key s
  | .relocationFinish key => Sys2Proof.Machine.execRelocationFinish key s
  | .bucketLost un latSeq bucket table => Sys2Proof.Machine.execBucketLost un latSeq bucket table s
  | .tableRemap => Sys2Proof.Machine.execTableRemap s
  | .bufferRequest req pool n => Sys2Proof.Machine.execBufferRequest req pool n s
  | .bufferFree pool bufs req => Sys2Proof.Machine.execBufferFree pool bufs req s
  | .stashReturn req pool => Sys2Proof.Machine.execStashReturn req pool s
  | .poolCfgWrite pool value => Sys2Proof.Machine.execPoolCfgWrite pool value s
  | .poolReady pool => Sys2Proof.Machine.execPoolReady pool s
  | .quotaWrite value => Sys2Proof.Machine.execQuotaWrite value s
  | .freeListRebuild pool sub => Sys2Proof.Machine.execFreeListRebuild pool sub s
  | .spillUnitFlush q => Sys2Proof.Machine.execSpillUnitFlush q s
  | .spillReadAhead q outcome => Sys2Proof.Machine.execSpillReadAhead q outcome s
  | .spillCut => Sys2Proof.Machine.execSpillCut s
  | .queueCfg c => Sys2Proof.Machine.execQueueCfg c s
  | .queueRead c => Sys2Proof.Machine.execQueueRead c s
  | .dequeueDecision port shadow => Sys2Proof.Machine.execDequeueDecision port shadow s
  | .shaperRefill level => Sys2Proof.Machine.execShaperRefill level s
  | .meterRefill => Sys2Proof.Machine.execMeterRefill s
  | .meterRepaired m => Sys2Proof.Machine.execMeterRepaired m s
  | .nodeCfg c => Sys2Proof.Machine.execNodeCfg c s
  | .shaperSet c => Sys2Proof.Machine.execShaperSet c s
  | .meterSet c => Sys2Proof.Machine.execMeterSet c s
  | .sluiceLoad c => Sys2Proof.Machine.execSluiceLoad c s
  | .sluiceStart port => Sys2Proof.Machine.execSluiceStart port s
  | .sluiceStop port => Sys2Proof.Machine.execSluiceStop port s
  | .sluiceEntryChange port => Sys2Proof.Machine.execSluiceEntryChange port s
  | .portHoldSet c => Sys2Proof.Machine.execPortHoldSet c s
  | .portHoldExpire port => Sys2Proof.Machine.execPortHoldExpire port s
  | .holdAgeCheck port => Sys2Proof.Machine.execHoldAgeCheck port s
  | .samplerVisit hostOk => Sys2Proof.Machine.execSamplerVisit hostOk s
  | .sweepDone => Sys2Proof.Machine.execSweepDone s
  | .sojournRead c => Sys2Proof.Machine.execSojournRead c s
  | .sampleStream c => Sys2Proof.Machine.execSampleStream c s
  | .schedulerTakeover pause => Sys2Proof.Machine.execSchedulerTakeover pause s
  | .fabAdminUp link => Sys2Proof.Machine.execFabAdminUp link s
  | .fabAdminDown link => Sys2Proof.Machine.execFabAdminDown link s
  | .fabTrainingConverged link => Sys2Proof.Machine.execFabTrainingConverged link s
  | .fabAlignmentLock link => Sys2Proof.Machine.execFabAlignmentLock link s
  | .linkInitTx link => Sys2Proof.Machine.execLinkInitTx link s
  | .linkInitRx link bytes fecOk => Sys2Proof.Machine.execLinkInitRx link bytes fecOk s
  | .reachRx link bytes fecOk => Sys2Proof.Machine.execReachRx link bytes fecOk s
  | .reachTimeout link => Sys2Proof.Machine.execReachTimeout link s
  | .fabTrainTimeout link => Sys2Proof.Machine.execFabTrainTimeout link s
  | .fabRetryExpire link => Sys2Proof.Machine.execFabRetryExpire link s
  | .fabLinkFault link cause => Sys2Proof.Machine.execFabLinkFault link cause s
  | .fabHeadlessRetire link => Sys2Proof.Machine.execFabHeadlessRetire link s
  | .cellReceived link bytes fecOk => Sys2Proof.Machine.execCellReceived link bytes fecOk s
  | .nakRx link bytes fecOk => Sys2Proof.Machine.execNakRx link bytes fecOk s
  | .linkAckTx link => Sys2Proof.Machine.execLinkAckTx link s
  | .retryTimeout link => Sys2Proof.Machine.execRetryTimeout link s
  | .voqSend voq => Sys2Proof.Machine.execVoqSend voq s
  | .mcSend cls => Sys2Proof.Machine.execMcSend cls s
  | .creditReqTx dev => Sys2Proof.Machine.execCreditReqTx dev s
  | .creditRefresh voq => Sys2Proof.Machine.execCreditRefresh voq s
  | .creditReqRx link bytes fecOk => Sys2Proof.Machine.execCreditReqRx link bytes fecOk s
  | .creditGrantTx port => Sys2Proof.Machine.execCreditGrantTx port s
  | .creditGrantRx link bytes fecOk => Sys2Proof.Machine.execCreditGrantRx link bytes fecOk s
  | .portStateTx => Sys2Proof.Machine.execPortStateTx s
  | .portStateRx link bytes fecOk => Sys2Proof.Machine.execPortStateRx link bytes fecOk s
  | .creditTakeover => Sys2Proof.Machine.execCreditTakeover s
  | .reseqTimeout src cls => Sys2Proof.Machine.execReseqTimeout src cls s
  | .mcHoldExpire src cls => Sys2Proof.Machine.execMcHoldExpire src cls s
  | .reassembly src cls multicast => Sys2Proof.Machine.execReassembly src cls multicast s
  | .turnoutReplicate readError => Sys2Proof.Machine.execTurnoutReplicate readError s
  | .fabMcGroupSet c => Sys2Proof.Machine.execFabMcGroupSet c s
  | .fabReachQuery c => Sys2Proof.Machine.execFabReachQuery c s
  | .fabEgrGroupSet c => Sys2Proof.Machine.execFabEgrGroupSet c s
  | .dramRefresh un forced => Sys2Proof.Machine.execDramRefresh un forced s
  | .odeccReport stack onDie secDed => Sys2Proof.Machine.execOdeccReport stack onDie secDed s
  | .eccUncorr qSide addr port source => Sys2Proof.Machine.execEccUncorr qSide addr port source s
  | .scrubPass stack => Sys2Proof.Machine.execScrubPass stack s
  | .rotationStart stack trigger chan => Sys2Proof.Machine.execRotationStart stack trigger chan s
  | .rotationCopyDone stack shadow => Sys2Proof.Machine.execRotationCopyDone stack shadow s
  | .channelTrained un rate margin => Sys2Proof.Machine.execChannelTrained un rate margin s
  | .rotationResume stack => Sys2Proof.Machine.execRotationResume stack s
  | .channelFailed un cause => Sys2Proof.Machine.execChannelFailed un cause s
  | .dramDeepSleepEnter stack => Sys2Proof.Machine.execDramDeepSleepEnter stack s
  | .dramDeepSleepExit stack => Sys2Proof.Machine.execDramDeepSleepExit stack s
  | .turnGrant un => Sys2Proof.Machine.execTurnGrant un s
  | .turnRenewal un => Sys2Proof.Machine.execTurnRenewal un s
  | .turnLapsed un => Sys2Proof.Machine.execTurnLapsed un s
  | .suspect un input => Sys2Proof.Machine.execSuspect un input s
  | .decideWindowExpire un => Sys2Proof.Machine.execDecideWindowExpire un s
  | .faultDeclare un hard => Sys2Proof.Machine.execFaultDeclare un hard s
  | .replayTurnGrant un unreadable => Sys2Proof.Machine.execReplayTurnGrant un unreadable s
  | .takeoverDone un => Sys2Proof.Machine.execTakeoverDone un s
  | .editorTakeover un => Sys2Proof.Machine.execEditorTakeover un s
  | .riderCopy rider copy => Sys2Proof.Machine.execRiderCopy rider copy s
  | .spareTest un pass => Sys2Proof.Machine.execSpareTest un pass s
  | .shadowComplete un => Sys2Proof.Machine.execShadowComplete un s
  | .unitOut c => Sys2Proof.Machine.execUnitOut c s
  | .unitReturn c => Sys2Proof.Machine.execUnitReturn c s
  | .unitTest c => Sys2Proof.Machine.execUnitTest c s
  | .headlessTimeout => Sys2Proof.Machine.execHeadlessTimeout s
  | .heartbeat => Sys2Proof.Machine.execHeartbeat s
  | .hostAlive c => Sys2Proof.Machine.execHostAlive c s
  | .autoReturn un => Sys2Proof.Machine.execAutoReturn un s
  | .hostLinkReset cause => Sys2Proof.Machine.execHostLinkReset cause s
  | .pcieLink rate width flit cause => Sys2Proof.Machine.execPcieLink rate width flit cause s
  | .ringEnable => Sys2Proof.Machine.execRingEnable s
  | .ringDisable => Sys2Proof.Machine.execRingDisable s
  | .ringErrClear => Sys2Proof.Machine.execRingErrClear s
  | .ringDrained sq => Sys2Proof.Machine.execRingDrained sq s
  | .ringError kind n => Sys2Proof.Machine.execRingError kind n s
  | .sqDoorbell sq value => Sys2Proof.Machine.execSqDoorbell sq value s
  | .cqDoorbell cq value => Sys2Proof.Machine.execCqDoorbell cq value s
  | .eqDoorbell eq value => Sys2Proof.Machine.execEqDoorbell eq value s
  | .sqFetch desc readOk => Sys2Proof.Machine.execSqFetch desc readOk s
  | .chainNextRead q desc closing readOk closeOk => Sys2Proof.Machine.execChainNextRead q desc closing readOk closeOk s
  | .coalTimer kind n => Sys2Proof.Machine.execCoalTimer kind n s
  | .nop c => Sys2Proof.Machine.execNop c s
  | .fence c => Sys2Proof.Machine.execFence c s
  | .summary c => Sys2Proof.Machine.execSummary c s
  | .resyncTrigger => Sys2Proof.Machine.execResyncTrigger s
  | .resyncAbandon => Sys2Proof.Machine.execResyncAbandon s
  | .resyncDone writeOk => Sys2Proof.Machine.execResyncDone writeOk s
  | .puntDeliver writeOk => Sys2Proof.Machine.execPuntDeliver writeOk s
  | .pktTx c => Sys2Proof.Machine.execPktTx c s
  | .rxBufPost c => Sys2Proof.Machine.execRxBufPost c s
  | .taskRestart task why commands => Sys2Proof.Machine.execTaskRestart task why commands s
  | .bfdTx session => Sys2Proof.Machine.execBfdTx session s
  | .bfdRx => Sys2Proof.Machine.execBfdRx s
  | .bfdDetectExpire session => Sys2Proof.Machine.execBfdDetectExpire session s
  | .bfdSessionSet c => Sys2Proof.Machine.execBfdSessionSet c s
  | .bfdWithdraw session => Sys2Proof.Machine.execBfdWithdraw session s
  | .learnExportDeliver reason writeOk => Sys2Proof.Machine.execLearnExportDeliver reason writeOk s
  | .telemWindow => Sys2Proof.Machine.execTelemWindow s
  | .telemRead c => Sys2Proof.Machine.execTelemRead c s
  | .ptpCfgWrite value => Sys2Proof.Machine.execPtpCfgWrite value s
  | .ptpMessageRx selected => Sys2Proof.Machine.execPtpMessageRx selected s
  | .ptpServoUpdate offset => Sys2Proof.Machine.execPtpServoUpdate offset s
  | .ptpSourceLost announce => Sys2Proof.Machine.execPtpSourceLost announce s
  | .agentLoad c => Sys2Proof.Machine.execAgentLoad c s
  | .agentStop c => Sys2Proof.Machine.execAgentStop c s
  | .agentStopped slot => Sys2Proof.Machine.execAgentStopped slot s
  | .agentKeySet c => Sys2Proof.Machine.execAgentKeySet c s
  | .agentRun slot ret => Sys2Proof.Machine.execAgentRun slot ret s
  | .agentTrap slot code func => Sys2Proof.Machine.execAgentTrap slot code func s
  | .agentRestart slot => Sys2Proof.Machine.execAgentRestart slot s
  | .agentTimer slot id => Sys2Proof.Machine.execAgentTimer slot id s
  | .haiCmdSubmit slot ptr memLen desc => Sys2Proof.Machine.execHaiCmdSubmit slot ptr memLen desc s
  | .haiRecv slot buf len memLen => Sys2Proof.Machine.execHaiRecv slot buf len memLen s
  | .haiTimerSet slot id due period => Sys2Proof.Machine.execHaiTimerSet slot id due period s
  | .haiTimerCancel slot id => Sys2Proof.Machine.execHaiTimerCancel slot id s
  | .haiTimeNow slot out memLen => Sys2Proof.Machine.execHaiTimeNow slot out memLen s
  | .haiRegRead slot un offset out memLen => Sys2Proof.Machine.execHaiRegRead slot un offset out memLen s
  | .haiEventRaise slot type ptr memLen payload => Sys2Proof.Machine.execHaiEventRaise slot type ptr memLen payload s
  | .haiEventSubscribe slot source on => Sys2Proof.Machine.execHaiEventSubscribe slot source on s
  | .haiLog slot level ptr len memLen line writeOk => Sys2Proof.Machine.execHaiLog slot level ptr len memLen line writeOk s
  | .bootRom => Sys2Proof.Machine.execBootRom s
  | .fwReady badStacks => Sys2Proof.Machine.execFwReady badStacks s
  | .fwdReady => Sys2Proof.Machine.execFwdReady s
  | .fwStage c => Sys2Proof.Machine.execFwStage c s
  | .fwActivate c => Sys2Proof.Machine.execFwActivate c s
  | .activationSwitch => Sys2Proof.Machine.execActivationSwitch s
  | .fwReverted trapped => Sys2Proof.Machine.execFwReverted trapped s
  | .fwCommit c => Sys2Proof.Machine.execFwCommit c s
  | .fuseBurnt => Sys2Proof.Machine.execFuseBurnt s
  | .attest c => Sys2Proof.Machine.execAttest c s
  | .recHdrCheck header => Sys2Proof.Machine.execRecHdrCheck header s
  | .recGo bar4 => Sys2Proof.Machine.execRecGo bar4 s
  | .recTransferDone writeOk => Sys2Proof.Machine.execRecTransferDone writeOk s
  | .hgpDiscover frame => Sys2Proof.Machine.execHgpDiscover frame s
  | .hgpStart frame => Sys2Proof.Machine.execHgpStart frame s
  | .hgpData frame => Sys2Proof.Machine.execHgpData frame s
  | .hgpAckTimer => Sys2Proof.Machine.execHgpAckTimer s
  | .hgpEnd frame => Sys2Proof.Machine.execHgpEnd frame s
  | .hgpVerified => Sys2Proof.Machine.execHgpVerified s
  | .hgpWritten writeOk => Sys2Proof.Machine.execHgpWritten writeOk s
  | .hgpAbort frame => Sys2Proof.Machine.execHgpAbort frame s
  | .hgpBoot frame => Sys2Proof.Machine.execHgpBoot frame s
  | .hgpSessionTimeout => Sys2Proof.Machine.execHgpSessionTimeout s
  | .xtalStable ref input counts => Sys2Proof.Machine.execXtalStable ref input counts s
  | .xtalStartTimeout ref input => Sys2Proof.Machine.execXtalStartTimeout ref input s
  | .monitorWindow ref counts => Sys2Proof.Machine.execMonitorWindow ref counts s
  | .serdesPllStop un => Sys2Proof.Machine.execSerdesPllStop un s
  | .forcedSwitch un => Sys2Proof.Machine.execForcedSwitch un s
  | .pllRelock un => Sys2Proof.Machine.execPllRelock un s
  | .refReturn ref => Sys2Proof.Machine.execRefReturn ref s
  | .avsStep un mv => Sys2Proof.Machine.execAvsStep un mv s
  | .regulatorFault un why => Sys2Proof.Machine.execRegulatorFault un why s
  | .supplyDip un lowest duration cycles mv => Sys2Proof.Machine.execSupplyDip un lowest duration cycles mv s
  | .supplyOvervoltage un highest duration mv => Sys2Proof.Machine.execSupplyOvervoltage un highest duration mv s
  | .supplyResetLevel un => Sys2Proof.Machine.execSupplyResetLevel un s
  | .powerGood straps => Sys2Proof.Machine.execPowerGood straps s
  | .coldReset aonLost => Sys2Proof.Machine.execColdReset aonLost s
  | .warmReset cause => Sys2Proof.Machine.execWarmReset cause s
  | .softReset key => Sys2Proof.Machine.execSoftReset key s
  | .standbyEnter => Sys2Proof.Machine.execStandbyEnter s
  | .standbyLeave => Sys2Proof.Machine.execStandbyLeave s
  | .gateClose un acknowledged => Sys2Proof.Machine.execGateClose un acknowledged s
  | .tempRead un celsius => Sys2Proof.Machine.execTempRead un celsius s
  | .throttle die => Sys2Proof.Machine.execThrottle die s
  | .thermTrip => Sys2Proof.Machine.execThermTrip s
  | .pmbPoll readings => Sys2Proof.Machine.execPmbPoll readings s
  | .pmbAlert readings => Sys2Proof.Machine.execPmbAlert readings s
  | .bridgeWireRepair bridge spare => Sys2Proof.Machine.execBridgeWireRepair bridge spare s
  | .mgtLinkChange up => Sys2Proof.Machine.execMgtLinkChange up s
  | .mgtFrameReceived frame => Sys2Proof.Machine.execMgtFrameReceived frame s
  | .unitOutTimeout un => Sys2Proof.Machine.execUnitOutTimeout un s
  | .requestOverdue un port => Sys2Proof.Machine.execRequestOverdue un port s
  | .rotHoldSet stack => Sys2Proof.Machine.execRotHoldSet stack s
  | .regulatorSettled un => Sys2Proof.Machine.execRegulatorSettled un s
  | .burnAndWriteResume => Sys2Proof.Machine.execBurnAndWriteResume s
  | .pllLockLoss un lost => Sys2Proof.Machine.execPllLockLoss un lost s
  | .ptpMessageTx port cls offset tsId event bytes => Sys2Proof.Machine.execPtpMessageTx port cls offset tsId event bytes s

end Sys2Proof.Machine
end

