-- ==== Sys2Proof/Machine/Time.lean ====
section
/-! DEFINITION. The passage of device time (R6), and what the lines, the memories and the clocks do in it. -/
namespace Sys2Proof.Machine

/-- One ns of a port in UP: FEC corrects symbols and codewords and finds codewords it cannot correct, by free amounts, which the port's
counts, its counters and ERR_CORRECTED and ERR_UNCORRECTED take (R71, R72, R107). -/
def Dev.fecTime (d : Dev) (p : Nat) : Dev :=
  let un := uPort p
  let new (off : Nat) : Nat := Config.fecErrors un off d.now
  let sym (i : Nat) : Nat := new (PRT_FEC_SYM_CORR.COUNT.off + 8 * i)
  let cw := new PRT_FEC_CW_CORR.COUNT.off
  let bad := new PRT_FEC_CW_UNCORR.COUNT.off
  let d := (d.add un PRT_FEC_CW_CORR.COUNT cw).add un PRT_FEC_CW_UNCORR.COUNT bad
  let d := (List.range 8).foldl (fun d i => d.addI un PRT_FEC_SYM_CORR.COUNT i (sym i)) d
  let d := if cw = 0 then d else
    (d.tallySel un 0x24 cw (fun q => q % 256 == 0 || q % 256 &&& Config.fecLanes un d.now != 0)).tallyUp un 0x06 cw
  let d := if bad = 0 then d else d.tallyUp un 0x07 bad
  (List.range 8).foldl (fun d i => if sym i = 0 then d else d.tallySel un 0x25 (sym i) (fun q => q % 256 == 0 || bit q i)) d

/-- One ns of a fabric link in UP: what its FEC corrects, a free amount (R301). -/
def Dev.linkTime (d : Dev) (n : Nat) : Dev :=
  let c := Config.happens (uLNK n) 0x06 0 d.now
  if c = 0 then d else d.tallyUp (uLNK n) 0x06 c

/-- One ns of a DRAM channel in ACTIVE: entries to in-order mode, a free amount (R347). -/
def Dev.channelTime (d : Dev) (un : Nat) : Dev := d.add un DRC_INORDER.COUNT (Config.inorderEntries un d.now)

/-- Units whose field at an offset and bit holds a value, ascending. -/
def Dev.unitsWith (d : Dev) (f : Fld) (v : Nat) : List Nat :=
  (d.fields.filter (fun e => (e.1.drop 1).take 2 == [f.off, f.lo] && e.2 == v)).map (fun e => e.1.headD 0)

/-- One ns of a service core in SHADOW: it may meet a task of the check set, which counts as an item or fails it (R389). -/
def Dev.coreTime (d : Dev) (un : Nat) : Dev :=
  match Config.coreTask un d.now % 3 with
  | 0 => d
  | 1 => d.shadowOne un .same
  | _ => d.shadowOne un .differs

/-- What the lines and the memories do in one ns. -/
def Dev.lineTime (d : Dev) : Dev :=
  let ports := (d.unitsWith PRT_STATUS.LINK_STATE lsUP).filter (fun u => classOf u == 0x30)
  let links := (d.unitsWith ZFP_LINK_STATUS.LINK_STATE fUP).filter (fun u => classOf u == 0x31)
  let chans := (d.unitsWith UF_STATE.SVC_STATE sACTIVE).filter (fun u => classOf u == 0x41)
  let d := ports.foldl (fun d u => d.fecTime (u - 128)) d
  let d := links.foldl (fun d u => d.linkTime (u - 256)) d
  let d := chans.foldl Dev.channelTime d
  let cores := (d.unitsWith UF_STATE.SVC_STATE sSHADOW).filter (fun u => classOf u == 0x0048)
  let d := cores.foldl Dev.coreTime d
  let d := (List.range 8).foldl Dev.copyTime d
  if d.useLapses then d.showCapacity else d

/-- The enabled counters of every unit count the cycles that its domain has made since the clocks stood at `was`. -/
def Dev.countTime (d : Dev) (was : Tab Nat) : Dev :=
  d.countingUnits.foldl (fun d u => d.countCycles u (cyclesOf d.pwr.clocks u - cyclesOf was u)) d

/-- One nanosecond passes: device time, a 64-bit count, the clocks, the lines, and the counters. -/
def Dev.tick (d : Dev) : Dev :=
  (d.countNs.runClocks.lineTime.flushesOn.fuseTime).countTime d.pwr.clocks

end Sys2Proof.Machine
end

