-- ==== Sys2Proof/WellFormed.lean ====
section
/-! DEFINITION. Well-formed commands: every operand is one that the manual's numbering admits (units, ports, links, rings,
descriptors of 64 bytes and so on). A meaning answers for other operands too, mostly by changing nothing. -/
namespace Sys2Proof.Machine

/-- A descriptor is 64 bytes, and its origin is a ring or an agent slot that exists (R403, R409, R454). -/
def Ticket.wf (t : Ticket) : Bool :=
  decide (t.desc.length = 64) && (match t.origin with
    | .ring sq idx => decide (sq < 4096 ∧ idx < 65536)
    | .chained sq addr _ => decide (sq < 4096 ∧ addr < 2 ^ 64)
    | .agent slot => decide (slot < 64)
    | .agentChained slot addr _ => decide (slot < 64 ∧ addr < 2 ^ 64))

def HCmd.wf (c : HCmd) : Bool := c.ticket.wf

/-- There are 1,048,576 VOQs and 262,144 egress queues (R224, R227). -/
def QRef.wf : QRef → Bool
  | .voq n => decide (n < 1048576)
  | .eq n => decide (n < 262144)

end Sys2Proof.Machine

namespace Sys2Proof

/-- The check of a command's operands. -/
def Instr.wf (i : Instr) : Bool :=
  match i with
  | .registerWrite un off _ value => decide (un < 2 ^ 16) && decide (off < 0x4000) && decide (value < 2 ^ 64)
  | .rcFieldRead un off _ => decide (un < 2 ^ 16) && decide (off < 0x4000)
  | .gatedClassAccess un => decide (un < 2 ^ 16)
  | .outReq un reqs => decide (un < 2 ^ 16) && decide (reqs < 16)
  | .returnReq un reqs => decide (un < 2 ^ 16) && decide (reqs < 16)
  | .testReq un reqs => decide (un < 2 ^ 16) && decide (reqs < 16)
  | .resetReq un reqs => decide (un < 2 ^ 16) && decide (reqs < 16)
  | .selfTestDone un _ => decide (un < 2 ^ 16)
  | .clkenWrite un value => decide (un < 2 ^ 16) && decide (value < 2 ^ 64)
  | .evtMaskWrite un mask => decide (un < 2 ^ 16) && decide (mask < 2 ^ 64)
  | .evtPendClear un clear => decide (un < 2 ^ 16) && decide (clear < 2 ^ 64)
  | .eventDeliver src => decide (src < 512)
  | .pmcCycleClear un => decide (un < 2 ^ 16)
  | .pmcCntClear un => decide (un < 2 ^ 16)
  | .pmcOverflow un n => decide (un < 2 ^ 16) && decide (n < 8)
  | .snapshot c => c.wf
  | .snapTrigger => true
  | .snapshotDone => true
  | .frameReceived port _ _ _ => decide (port < 128)
  | .trainingConverged port => decide (port < 128)
  | .trainTimeout port lanes => decide (port < 128) && decide (lanes < 256)
  | .alignmentLock port => decide (port < 128)
  | .upDebounceExpire port => decide (port < 128)
  | .linkLoss port _ _ _ => decide (port < 128)
  | .trainRetryExpire port => decide (port < 128)
  | .retrain port => decide (port < 128)
  | .portAdminUp port => decide (port < 128)
  | .portAdminDown port => decide (port < 128)
  | .laneMapWrite port value => decide (port < 128) && decide (value < 2 ^ 64)
  | .marginLow port lanes _ => decide (port < 128) && decide (lanes < 256)
  | .fecDegraded port _ => decide (port < 128)
  | .sgpioScan chain _ => decide (chain < 2)
  | .chainFailed chain => decide (chain < 2)
  | .moduleRemoved slot _ _ => decide (slot < 128)
  | .moduleInserted slot => decide (slot < 128)
  | .buttonPressed slot => decide (slot < 128)
  | .moduleInt slot _ _ => decide (slot < 128)
  | .moduleReady slot => decide (slot < 128)
  | .moduleFault slot _ => decide (slot < 128)
  | .portCfg c => c.wf
  | .portDrain c => c.wf
  | .moduleAccess c _ => c.wf
  | .drainHostWaitExpire port => decide (port < 128)
  | .drainQuiet port => decide (port < 128)
  | .drainMaxExpire port => decide (port < 128)
  | .ledFrame => true
  | .ppsOutEdge => true
  | .ppsInEdge _ => true
  | .todOutMessage => true
  | .todInMessage _ => true
  | .graphWrite off value => decide (off < 0x4000) && decide (value < 2 ^ 64)
  | .headerDispatch lat => decide (lat < 4)
  | .siphonSlotGrant lat => decide (lat < 4)
  | .flumePass un latSeq _ => decide (un < 2 ^ 16) && decide (latSeq < 2 ^ 32)
  | .clsEntryRepair lat bank index => decide (lat ≤ 4) && decide (bank < if lat = 4 then 8 else 12) && decide (index < 4096)
  | .bankSpared lat bank _ => decide (lat < 4) && decide (bank < 12)
  | .partitionFailed lat bank _ => decide (lat < 4) && decide (bank < 12)
  | .ruleWrite c => c.wf
  | .ruleInvalidate c => c.wf
  | .rulesetSwap c => c.wf
  | .swapDone part => decide (part < 16)
  | .partCfgWrite part value => decide (part < 16) && decide (value < 2 ^ 64)
  | .puntQueueCfgWrite queue value => decide (queue < 64) && decide (value < 2 ^ 64)
  | .fragSweep => true
  | .sentinelInject lat _ => decide (lat < 4)
  | .resultCommit un latSeq _ _ => decide (un < 2 ^ 16) && decide (latSeq < 2 ^ 32)
  | .packetRelease port => decide (port < 128)
  | .counterFlush pair _ => decide (pair < 2 ^ 25)
  | .cntReadBlock c _ _ => c.wf
  | .cntClearBlock c _ => c.wf
  | .editorPacket port _ _ _ => decide (port < 128)
  | .encapWrite c => c.wf
  | .egrRuleWrite c => c.wf
  | .tblInsert c => c.wf
  | .tblDelete c => c.wf
  | .tblSearch c => c.wf
  | .tblNext c => c.wf
  | .cursorExpire cursor => decide (cursor < 65536)
  | .tblFlushPort c => c.wf
  | .tblBulkLoad c => c.wf
  | .tblAgeCfg c => c.wf
  | .lpmCommit c => c.wf
  | .learnReport => true
  | .activityUpdate => true
  | .ageSweep table _ => decide (table < 16)
  | .relocationStart _ => true
  | .relocationFinish _ => true
  | .bucketLost un latSeq _ table => decide (un < 2 ^ 16) && decide (latSeq < 2 ^ 32) && decide (table < 16)
  | .tableRemap => true
  | .bufferRequest req pool _ => decide (req < 64) && decide (pool < 32)
  | .bufferFree pool _ req => decide (pool < 32) && decide (req < 64)
  | .stashReturn req pool => decide (req < 64) && decide (pool < 32)
  | .poolCfgWrite pool value => decide (pool < 32) && decide (value < 2 ^ 64)
  | .poolReady pool => decide (pool < 32)
  | .quotaWrite value => decide (value < 2 ^ 64)
  | .freeListRebuild pool sub => decide (pool < 32) && decide (sub < 64)
  | .spillUnitFlush q => q.wf
  | .spillReadAhead q _ => q.wf
  | .spillCut => true
  | .queueCfg c => c.wf
  | .queueRead c => c.wf
  | .dequeueDecision port _ => decide (port < 128)
  | .shaperRefill level => decide (1 ≤ level ∧ level ≤ 5)
  | .meterRefill => true
  | .meterRepaired m => decide (m < 1048576)
  | .nodeCfg c => c.wf
  | .shaperSet c => c.wf
  | .meterSet c => c.wf
  | .sluiceLoad c => c.wf
  | .sluiceStart port => decide (port < 128)
  | .sluiceStop port => decide (port < 128)
  | .sluiceEntryChange port => decide (port < 128)
  | .portHoldSet c => c.wf
  | .portHoldExpire port => decide (port < 128)
  | .holdAgeCheck port => decide (port < 128)
  | .samplerVisit _ => true
  | .sweepDone => true
  | .sojournRead c => c.wf
  | .sampleStream c => c.wf
  | .schedulerTakeover _ => true
  | .fabAdminUp link => decide (link < 160)
  | .fabAdminDown link => decide (link < 160)
  | .fabTrainingConverged link => decide (link < 160)
  | .fabAlignmentLock link => decide (link < 160)
  | .linkInitTx link => decide (link < 160)
  | .linkInitRx link _ _ => decide (link < 160)
  | .reachRx link _ _ => decide (link < 160)
  | .reachTimeout link => decide (link < 160)
  | .fabTrainTimeout link => decide (link < 160)
  | .fabRetryExpire link => decide (link < 160)
  | .fabLinkFault link _ => decide (link < 160)
  | .fabHeadlessRetire link => decide (link < 160)
  | .cellReceived link _ _ => decide (link < 160)
  | .nakRx link _ _ => decide (link < 160)
  | .linkAckTx link => decide (link < 160)
  | .retryTimeout link => decide (link < 160)
  | .voqSend voq => decide (voq < 1048576)
  | .mcSend cls => decide (cls < 8)
  | .creditReqTx dev => decide (dev < 1024)
  | .creditRefresh voq => decide (voq < 1048576)
  | .creditReqRx link _ _ => decide (link < 160)
  | .creditGrantTx port => decide (port < 128)
  | .creditGrantRx link _ _ => decide (link < 160)
  | .portStateTx => true
  | .portStateRx link _ _ => decide (link < 160)
  | .creditTakeover => true
  | .reseqTimeout src cls => decide (src < 1024) && decide (cls < 8)
  | .mcHoldExpire src cls => decide (src < 1024) && decide (cls < 8)
  | .reassembly src cls _ => decide (src < 1024) && decide (cls < 8)
  | .turnoutReplicate _ => true
  | .fabMcGroupSet c => c.wf
  | .fabReachQuery c => c.wf
  | .fabEgrGroupSet c => c.wf
  | .dramRefresh un _ => decide (un < 2 ^ 16)
  | .odeccReport stack _ _ => decide (stack < 8)
  | .eccUncorr _ _ port _ => decide (port < 128)
  | .scrubPass stack => decide (stack < 8)
  | .rotationStart stack _ _ => decide (stack < 8)
  | .rotationCopyDone stack _ => decide (stack < 8)
  | .channelTrained un _ _ => decide (un < 2 ^ 16)
  | .rotationResume stack => decide (stack < 8)
  | .channelFailed un _ => decide (un < 2 ^ 16)
  | .dramDeepSleepEnter stack => decide (stack < 8)
  | .dramDeepSleepExit stack => decide (stack < 8)
  | .turnGrant un => decide (un < 2 ^ 16)
  | .turnRenewal un => decide (un < 2 ^ 16)
  | .turnLapsed un => decide (un < 2 ^ 16)
  | .suspect un _ => decide (un < 2 ^ 16)
  | .decideWindowExpire un => decide (un < 2 ^ 16)
  | .faultDeclare un _ => decide (un < 2 ^ 16)
  | .replayTurnGrant un _ => decide (un < 2 ^ 16)
  | .takeoverDone un => decide (un < 2 ^ 16)
  | .editorTakeover un => decide (un < 2 ^ 16)
  | .riderCopy rider copy => decide (rider = 8 ∨ rider = 9) && decide (copy < 3)
  | .spareTest un _ => decide (un < 2 ^ 16)
  | .shadowComplete un => decide (un < 2 ^ 16)
  | .unitOut c => c.wf
  | .unitReturn c => c.wf
  | .unitTest c => c.wf
  | .headlessTimeout => true
  | .heartbeat => true
  | .hostAlive c => c.wf
  | .autoReturn un => decide (un < 2 ^ 16)
  | .hostLinkReset _ => true
  | .pcieLink _ _ _ _ => true
  | .ringEnable => true
  | .ringDisable => true
  | .ringErrClear => true
  | .ringDrained sq => decide (sq < 4096)
  | .ringError kind n => decide (kind < 4) && decide (n < 4096)
  | .sqDoorbell sq value => decide (sq < 4096) && decide (value < 2 ^ 17)
  | .cqDoorbell cq value => decide (cq < 1024) && decide (value < 2 ^ 17)
  | .eqDoorbell eq value => decide (eq < 64) && decide (value < 2 ^ 17)
  | .sqFetch desc _ => decide (desc.length = 64)
  | .chainNextRead _ desc _ _ _ => decide (desc.length = 64)
  | .coalTimer kind n => decide (kind < 4) && decide (n < 4096)
  | .nop c => c.wf
  | .fence c => c.wf
  | .summary c => c.wf
  | .resyncTrigger => true
  | .resyncAbandon => true
  | .resyncDone _ => true
  | .puntDeliver _ => true
  | .pktTx c => c.wf
  | .rxBufPost c => c.wf
  | .taskRestart task _ commands => decide (task < 256) && commands.all Machine.Ticket.wf
  | .bfdTx session => decide (session < 16384)
  | .bfdRx => true
  | .bfdDetectExpire session => decide (session < 16384)
  | .bfdSessionSet c => c.wf
  | .bfdWithdraw session => decide (session < 16384)
  | .learnExportDeliver _ _ => true
  | .telemWindow => true
  | .telemRead c => c.wf
  | .ptpCfgWrite value => decide (value < 2 ^ 64)
  | .ptpMessageRx _ => true
  | .ptpServoUpdate _ => true
  | .ptpSourceLost _ => true
  | .agentLoad c => c.wf
  | .agentStop c => c.wf
  | .agentStopped slot => decide (slot < 64)
  | .agentKeySet c => c.wf
  | .agentRun slot _ => decide (slot < 64)
  | .agentTrap slot _ _ => decide (slot < 64)
  | .agentRestart slot => decide (slot < 64)
  | .agentTimer slot _ => decide (slot < 64)
  | .haiCmdSubmit slot _ _ desc => decide (slot < 64) && decide (desc.length = 64)
  | .haiRecv slot _ _ _ => decide (slot < 64)
  | .haiTimerSet slot _ _ _ => decide (slot < 64)
  | .haiTimerCancel slot _ => decide (slot < 64)
  | .haiTimeNow slot _ _ => decide (slot < 64)
  | .haiRegRead slot un offset _ _ => decide (slot < 64) && decide (un < 2 ^ 16) && decide (offset < 0x4000)
  | .haiEventRaise slot _ _ _ payload => decide (slot < 64) && decide (payload.length = 12)
  | .haiEventSubscribe slot _ _ => decide (slot < 64)
  | .haiLog slot _ _ _ _ _ _ => decide (slot < 64)
  | .bootRom => true
  | .fwReady _ => true
  | .fwdReady => true
  | .fwStage c => c.wf
  | .fwActivate c => c.wf
  | .activationSwitch => true
  | .fwReverted _ => true
  | .fwCommit c => c.wf
  | .fuseBurnt => true
  | .attest c => c.wf
  | .recHdrCheck _ => true
  | .recGo _ => true
  | .recTransferDone _ => true
  | .hgpDiscover _ => true
  | .hgpStart _ => true
  | .hgpData _ => true
  | .hgpAckTimer => true
  | .hgpEnd _ => true
  | .hgpVerified => true
  | .hgpWritten _ => true
  | .hgpAbort _ => true
  | .hgpBoot _ => true
  | .hgpSessionTimeout => true
  | .xtalStable ref input _ => decide (ref = 768 ∨ ref = 784) && decide (input < 2)
  | .xtalStartTimeout ref input => decide (ref = 768 ∨ ref = 784) && decide (input < 2)
  | .monitorWindow ref _ => decide (ref = 768 ∨ ref = 784)
  | .serdesPllStop un => decide (un < 2 ^ 16)
  | .forcedSwitch un => decide (un < 2 ^ 16)
  | .pllRelock un => decide (un < 2 ^ 16)
  | .refReturn ref => decide (ref = 768 ∨ ref = 784)
  | .avsStep un _ => decide (un < 2 ^ 16)
  | .regulatorFault un _ => decide (un < 2 ^ 16)
  | .supplyDip un _ _ _ _ => decide (un < 2 ^ 16)
  | .supplyOvervoltage un _ _ _ => decide (un < 2 ^ 16)
  | .supplyResetLevel un => decide (un < 2 ^ 16)
  | .powerGood straps => decide (straps < 64)
  | .coldReset _ => true
  | .warmReset _ => true
  | .softReset _ => true
  | .standbyEnter => true
  | .standbyLeave => true
  | .gateClose un _ => decide (un < 2 ^ 16)
  | .tempRead un _ => decide (un < 2 ^ 16)
  | .throttle die => decide (die = 1 ∨ die = 2)
  | .thermTrip => true
  | .pmbPoll _ => true
  | .pmbAlert _ => true
  | .bridgeWireRepair bridge _ => decide (bridge < 4)
  | .mgtLinkChange _ => true
  | .mgtFrameReceived _ => true
  | .unitOutTimeout un => decide (un < 2 ^ 16)
  | .requestOverdue un port => decide (un < 2 ^ 16) && decide (port < 128)
  | .rotHoldSet stack => decide (stack < 8)
  | .regulatorSettled un => decide (un < 2 ^ 16)
  | .burnAndWriteResume => true
  | .pllLockLoss un _ => decide (un < 2 ^ 16)
  | .ptpMessageTx port cls _ _ _ _ => decide (port < 128) && decide (cls < 8)

end Sys2Proof
end

