-- ==== Sys2Proof/Safety.lean ====
section
/-! DEFINITION. What counts as a sound state, and the terms in which statements about commands are made: what a command makes
of the device, beside what raising events and counting leave behind, and how a Heneno command completes. -/
namespace Sys2Proof.Machine
open Sys2Proof

/-! ### Sound states -/

/-- Host memory is in canonical form, and between commands no write is on its way to it. -/
def State.Sound (s : State) : Prop := hostWf s.host = true ∧ s.dev.hif.dma = []

/-! ### What raising events leaves behind (R58–R72, R405, R415, R416, R466) -/

/-- Register fields that raising an event or counting may change: UF_EVT_PEND, the PMC counters and OVF of any unit; ARMED,
PHASE and TAIL of a ring; INBOX_DROP of an agent. -/
def noteKey : Key → Bool
  | [un, off, lo, _] =>
    (off == UF_EVT_PEND.PEND.off && lo == UF_EVT_PEND.PEND.lo)
    || (off == UF_PMC_CNT.COUNT.off && lo == UF_PMC_CNT.COUNT.lo)
    || (off == UF_PMC_CTRL.OVF.off && lo == UF_PMC_CTRL.OVF.lo)
    || (un == uHIF && off == HIF_RING_STATE.ARMED.off
        && (lo == HIF_RING_STATE.ARMED.lo || lo == HIF_RING_STATE.PHASE.lo || lo == HIF_RING_STATE.TAIL.lo))
    || (un == uSVC && off == AGT_COUNTS.INBOX_DROP.off && lo == AGT_COUNTS.INBOX_DROP.lo)
  | _ => false

/-- Is a write of `n` bytes at an address one of the two that make an entry of a ring: bytes 4 to 31, or the first four (R414)? -/
def Dev.entryPlace (d : Dev) (k addr n : Nat) : Prop :=
  ∃ i, (addr = d.ringAddr k i 32 + 4 ∧ n = 28) ∨ (addr = d.ringAddr k i 32 ∧ n = 4)

/-- Where events make the device write to host memory: `n` bytes at an address are part of an entry of an event ring, or an MSI-X
message. -/
def Dev.evtPlace (d : Dev) (addr n : Nat) : Prop :=
  (∃ q, d.entryPlace (ringIx kEQ q) addr n)
  ∨ (∃ v, addr = d.hif.msix.getD 0 [v, 0] + 2 ^ 32 * d.hif.msix.getD 0 [v, 1] ∧ n = 4)

/-- `b` is `a` beside what raising events and counting leave behind: note fields, the event state, the signalling of rings,
agents' inboxes, and writes to event rings and of MSI-X messages. Everything else is as in `a`. -/
def Dev.Noted (a b : Dev) : Prop :=
  (∀ k, noteKey k = false → b.fields.get? k = a.fields.get? k)
  ∧ b = { a with fields := b.fields, ev := b.ev, agents := b.agents
                 hif := { a.hif with dma := b.hif.dma, unsig := b.hif.unsig, pba := b.hif.pba } }
  ∧ (∀ slot, b.agent slot = { a.agent slot with inbox := (b.agent slot).inbox, lost := (b.agent slot).lost })
  ∧ ∃ ws, b.hif.dma = a.hif.dma ++ ws ∧ ∀ w ∈ ws, a.evtPlace w.1 w.2.length

/-- Types that reporting may raise again by itself: PMC_OVERFLOW of any unit, and NMI_ASSERTED of UN 0 (R65, R69). -/
def ownType (un type : Nat) : Bool := type == 0x04 || (un == 0 && type == 0x1A)

/-- The last occurrence of an event type of a unit is now, with this payload, and its PEND bit is set (R62). -/
def Dev.hasRaised (d : Dev) (un type : Nat) (payload : List Byte) : Prop :=
  d.ev.latest.get? [un, type] = some (d.now, payload) ∧ bit (d.get un UF_EVT_PEND.PEND) type = true

/-! ### What a command does -/

/-- The command answers the next state in which the device has become `d`, its posted writes are in host memory, and the
queue is as it was. -/
def Makes (i : Instr) (s : State) (d : Dev) : Prop := exec i s = .next (s.becomes d)

/-- The command makes of the device a `b` that is `d` beside what events leave behind, and that meets `p`. -/
def Notes (i : Instr) (s : State) (d : Dev) (p : Dev → Prop) : Prop := ∃ b, Makes i s b ∧ d.Noted b ∧ p b

/-- The Heneno command ends at once with reply `r`: before its completion the device is `d`, beside what events leave behind. -/
def Completes (i : Instr) (s : State) (t : Ticket) (r : Reply) (d : Dev) : Prop :=
  ∃ b, Makes i s (b.finish t r) ∧ d.Noted b

/-- The Heneno command has taken effect and goes on: the device is `d`, beside what events leave behind, and no completion has
been written. -/
def GoesOn (i : Instr) (s : State) (d : Dev) : Prop := Notes i s d (fun _ => True)

/-- A Heneno command of opcode `op` that the checks every command meets let through (R409, R410, R412, R429, R434, R460, R464): its
descriptor spells that opcode, no FENCE and no earlier command comes first, no trap has cancelled it, its header, its parameters `ps` and its
block (`blk`) are in order, its agent may issue it, and, where it waits for FWD_READY, the device forwards and is not in standby. -/
abbrev HCmd.accepted (c : HCmd) (d : Dev) (op : Nat) (ps : List Param) (blk : Bool := true) : Prop :=
  d.heldBack op c.ticket = false ∧ hdrBad c.ticket = none ∧ areaBad c.area ps = none ∧ d.agentBad c = none
  ∧ (c.readOk = true → blk = true)
  ∧ (fwdWaits op = true → d.flag uHIF HIF_STATUS.FWD_READY = true ∧ d.get 0 PWR_CTRL.STBY_STATE = 0)

/-! ### What completing a command leaves behind (R402, R411–R421, R427, R429, R464–R466) -/

/-- Register fields that a completion may change beside the note fields: states of rings, the counts of commands in flight, and
the counters of malformed, unsupported and lost ones. -/
def cplKey (k : Key) : Bool :=
  noteKey k || (k.headD 0 == uHIF
    && [HIF_RING_STATE.COUNT.off, HIF_STATUS.IN_FLIGHT.off, HIF_MALFORMED.COUNT.off, HIF_UNSUPPORTED.COUNT.off,
        HIF_CPL_LOST.COUNT.off].contains (k.getD 1 0))

/-- Where completions make the device write to host memory: part of an entry of some ring, or an MSI-X message. -/
def Dev.cplPlace (d : Dev) (addr n : Nat) : Prop :=
  (∃ k, d.entryPlace k addr n)
  ∨ (∃ v, addr = d.hif.msix.getD 0 [v, 0] + 2 ^ 32 * d.hif.msix.getD 0 [v, 1] ∧ n = 4)

/-- `b` is `a` beside what completing commands, and starting those that waited for it, leaves behind. -/
def Dev.Completed (a b : Dev) : Prop :=
  (∀ k, cplKey k = false → b.fields.get? k = a.fields.get? k)
  ∧ b = { a with fields := b.fields, ev := b.ev, agents := b.agents, hif := b.hif }
  ∧ b.hif.msix = a.hif.msix
  ∧ (∀ slot, b.agent slot = { a.agent slot with
      inbox := (b.agent slot).inbox, lost := (b.agent slot).lost, settling := (b.agent slot).settling
      aborted := (b.agent slot).aborted })
  ∧ ∃ ws, b.hif.dma = a.hif.dma ++ ws ∧ ∀ w ∈ ws, a.cplPlace w.1 w.2.length

end Sys2Proof.Machine
end

