-- ==== Sys2Proof/Certificates/Slice0/Obligations.lean ====
section
/-! DEFINITION. The statements for the provers. Each says of some commands, or of the whole machine, what the manual's rules
say. A device written as the argument of `Makes`, `Notes` or `Completes` says the frame as well: everything it does not name is
as before. -/
open Sys2Proof Sys2Proof.Machine

/-! ### The whole machine -/

/-- For every command and state: a step of a state with the command at the front of its queue is `exec` of that command on the
state with the queue's rest. -/
def Obligations.StepRunsFrontCommand : Prop :=
  ∀ (s : State) (c : Instr) (rest : List Instr), s.pending = c :: rest → step s = exec c { s with pending := rest }

/-- On an empty queue a step lets one nanosecond of device time pass and stops at nothing, the queue empty as before. Where the
time has no correction, no counter is enabled, no port, link or DRAM channel is up, no core is in SHADOW, no rotation copies, no
flush sweeps, no fuse burns, no diagnostic image runs and no use of a fabric device lapses, then device time counts one
nanosecond, modulo 2^64, each clock unit that runs adds a nanosecond of its cycles and every other keeps its own, and nothing
else changes. That the model's idle step is a tick is its own choice (assumption 1). -/
def Obligations.EmptyQueueLetsTimePass : Prop :=
  ∀ s : State, s.pending = [] →
    (∃ t, step s = .next t ∧ t.pending = [])
    ∧ (s.Sound →
      s.dev.timeRate = 0 → s.dev.svcs.ptp.part = 0 → s.dev.ptpState ≠ ptpLOCKED → s.dev.frac < 65536 →
      s.dev.countingUnits = [] →
      (∀ u ∈ s.dev.unitsWith PRT_STATUS.LINK_STATE lsUP, classOf u ≠ 0x30) →
      (∀ u ∈ s.dev.unitsWith ZFP_LINK_STATUS.LINK_STATE fUP, classOf u ≠ 0x31) →
      (∀ u ∈ s.dev.unitsWith UF_STATE.SVC_STATE sACTIVE, classOf u ≠ 0x41) →
      (∀ u ∈ s.dev.unitsWith UF_STATE.SVC_STATE sSHADOW, classOf u ≠ 0x48) →
      (∀ k < 8, (s.dev.stack k).rot = none) →
      s.dev.fwd.flushes = [] → s.dev.fw.burn = none → s.dev.flag 0 FW_STATUS.DIAGNOSTIC = false →
      let d := { s.dev with now := (s.dev.now + 1) % 2 ^ 64 }
      d.useLapses = false →
      ∃ clocks : Tab Nat,
        step s = .next { s with dev := { d with pwr := { d.pwr with clocks := clocks } } }
        ∧ ∀ c, 768 ≤ c → c < 800 →
          clocks.getD 0 [c] = d.pwr.clocks.getD 0 [c] + (if d.clockRuns c then d.clockRate c else 0))

/-- At reset every field of every unit reads its reset value, every unit is OFF, every source's first event will be numbered 1, no
command waits, host memory holds nothing the device wrote, and the state is sound. -/
def Obligations.ResetState : Prop :=
  (∀ un f i, State.reset.dev.getI un f i = resetVal un f.rst i)
  ∧ (∀ un, State.reset.dev.svc un = sOFF)
  ∧ (∀ src, nextSeq (State.reset.dev.source src).lastSeq = 1)
  ∧ State.reset.pending = [] ∧ (∀ a, hostGet State.reset.host a = none) ∧ State.reset.Sound

/-- Whatever the state, if it is sound and a step answers a next state, that state is sound: the cells the device has written lie
at strictly rising addresses, and every write a command posted has reached host memory. -/
def Obligations.StepKeepsSound : Prop :=
  ∀ s t : State, s.Sound → step s = .next t → t.Sound

/-- Every command answers a next state; it leaves the queue as it was; and what it makes of the device follows from the device
alone, so two states with equal devices end with equal devices, whatever host memory and the queue hold. -/
def Obligations.CommandsAnswerFromDeviceAlone : Prop :=
  ∀ (i : Instr) (s s' : State), s'.dev = s.dev →
    ∃ t t', exec i s = .next t ∧ exec i s' = .next t' ∧ t'.dev = t.dev ∧ t.pending = s.pending ∧ t'.pending = s'.pending

/-- A field written at an index reads the value written modulo its width; every field with another key reads as before; a field
put back reads its reset value; and writing keeps the register file in canonical form. -/
def Obligations.RegisterFieldsKeepApart : Prop :=
  ∀ (d : Dev) (un : Nat) (f : Fld) (i v : Nat),
    (d.setI un f i v).getI un f i = v % 2 ^ f.width
    ∧ (∀ un' g j, g.key un' j ≠ f.key un i → (d.setI un f i v).getI un' g j = d.getI un' g j)
    ∧ (d.clearFldI un f i).getI un f i = resetVal un f.rst i
    ∧ (d.fields.wf = true → (d.setI un f i v).fields.wf = true)
    ∧ d.setI un f i v = { d with fields := (d.setI un f i v).fields }

/-! ### What reporting leaves behind -/

/-- Raising a type of a unit (PMC_OVERFLOW and NMI_ASSERTED, which reporting may raise again by itself, apart) sets its PEND bit and
becomes the latest occurrence, with its payload and the device time; everything but note fields, event state, inboxes, and writes
of parts of event-ring entries and of MSI-X messages stays. A masked type issues no record and consumes no sequence number; an unmasked one
takes the number after its source's last (of a source on which the host interface and its groups report PMC_OVERFLOW, while the
host interface counts nothing: delivering the record counts, and a counter that wraps is reported there too). -/
def Obligations.RaisingReportsAndNothingElse : Prop :=
  ∀ (d : Dev) (un type : Nat) (p : List Byte), type < 63 →
    d.Noted (d.raise un type p)
    ∧ (ownType un type = false → (d.raise un type p).hasRaised un type p)
    ∧ (bit (d.get un UF_EVT_MASK.MASK) type = true →
        (d.raiseCore (sourceOf un type) un type p).ev.sources = d.ev.sources
        ∧ (d.raiseCore (sourceOf un type) un type p).hif = d.hif)
    ∧ (bit (d.get un UF_EVT_MASK.MASK) type = false →
        (∀ u ∈ uHIF :: ancestors uHIF, sourceOf un type ≠ sourceOf u 0x04) ∨ d.get uHIF UF_PMC_CTRL.CNT_EN = 0 →
        ((d.raiseCore (sourceOf un type) un type p).source (sourceOf un type)).lastSeq
          = nextSeq (d.source (sourceOf un type)).lastSeq)

/-- Where a sound state's device becomes one that differs by reporting alone, every byte of host memory outside event-ring entries
and the vectors' message addresses reads as before. -/
def Obligations.ReportsWriteOnlyRingsAndMessages : Prop :=
  ∀ (s : State) (b : Dev), s.Sound → s.dev.Noted b →
    ∀ x, (∀ addr n, s.dev.evtPlace addr n → x < addr ∨ addr + n ≤ x) →
      hostGet (s.becomes b).host x = hostGet s.host x

/-- Completing any command with any reply leaves every register outside the host interface's counts and states, and everything
else of the device but that account, event state and agents' inboxes; host memory changes only in ring entries and MSI-X
messages. -/
def Obligations.CompletingLeavesTheRest : Prop :=
  ∀ (s : State) (t : Ticket) (r : Reply), s.Sound →
    s.dev.Completed (s.dev.finish t r)
    ∧ ∀ x, (∀ addr n, s.dev.cplPlace addr n → x < addr ∨ addr + n ≤ x) →
        hostGet (s.becomes (s.dev.finish t r)).host x = hostGet s.host x

/-- An unchained command of SQ `sq`, not cut off from the host, whose CQ is ENABLED: completing it posts the 32 bytes of the
completion at the address of the CQ's TAIL in two writes, bytes 4 to 31 and after them bytes 0 to 3 (R414), with PHASE by R415,
TAG, STATUS, OPCODE, RESULT and the SQ's HEAD in place. -/
def Obligations.CompletionRecordPosted : Prop :=
  ∀ (d : Dev) (sq ix : Nat) (desc : List Byte) (r : Reply),
    let t : Ticket := ⟨.ring sq ix, desc⟩
    let k := d.cqOf (ringIx kSQ sq)
    t.chain = false → d.isLost t = false → d.ringState k = rENABLED →
    let bytes := cplBytes t r sq false (d.getI uHIF HIF_RING_STATE.HEAD (ringIx kSQ sq)) false 0
    let entry := patch bytes 3 (leBytes 1 (setBit (leAt bytes 3 1) 7 (d.ringPhase k (d.getI uHIF HIF_RING_STATE.TAIL k))))
    let a := d.ringAddr k (d.getI uHIF HIF_RING_STATE.TAIL k) 32
    ∃ before after, (d.finish t r).hif.dma = before ++ [(a + 4, entry.drop 4), (a, entry.take 4)] ++ after

/-! ### Registers, units and service states -/

/-- An access to a served unit's frame counts FRAME_ACCESS there. REGISTER_WRITE of UF_EVT_ROUTE sets EVT_RING and COPY_CLUSTER and
nothing else, and the register then reads them back; a write of a header register without a behaviour of its own, or of a class
register of a class without one, stores its word, the half not written as it stood (UN 98's class registers are UN 97's, R289); a write to a unit that is not served or at
a misaligned offset changes nothing, and one at an offset no register occupies nothing but that count. RC_FIELD_READ of an ungated
register keeps the word or the half read, and the RC fields read then hold their reset values, or what the hardware put there in
the same clock.
Forms said to complete, each with the next state it answers: registerWrite, rcFieldRead. -/
def Obligations.RegisterWritesAndRcReads : Prop :=
  (∀ (d : Dev) (un : Nat), d.Noted (d.accessed un))
  ∧ (∀ (s : State) (un v : Nat), s.dev.served un = true → let e := s.dev.accessed un
    ∃ b, Makes (.registerWrite un UF_EVT_ROUTE.EVT_RING.off .both v) s b
      ∧ b.get un UF_EVT_ROUTE.EVT_RING = bits v 5 0 ∧ b.get un UF_EVT_ROUTE.COPY_CLUSTER = bits v 8 8
      ∧ b.regRead un UF_EVT_ROUTE.EVT_RING.off = bits v 5 0 + bits v 8 8 * 2 ^ 8
      ∧ b = { e with fields := b.fields }
      ∧ ∀ k, k ≠ UF_EVT_ROUTE.EVT_RING.key un 0 → k ≠ UF_EVT_ROUTE.COPY_CLUSTER.key un 0 →
          b.fields.get? k = e.fields.get? k)
  ∧ (∀ (s : State) (un off : Nat) (h : Half) (v i : Nat) (r : RegDesc), s.dev.served un = true → off % 8 = 0 →
      findReg un off = some (r, i) → r.window = .none → let e := s.dev.accessed un
      (off < 0x300 → isPmcOff off = false →
        off ∉ [UF_CTRL.OUT_REQ.off, UF_CLKEN.RUN_EN.off, UF_EVT_PEND.PEND.off, UF_EVT_MASK.MASK.off] →
        Makes (.registerWrite un off h v) s (e.storeWord un r i (halfWord h (e.rwWord un r i) v)))
      ∧ (0x400 ≤ off → s.dev.gated un = false →
          classOf un ∉ [0x01, 0x13, 0x14, 0x16, 0x20, 0x23, 0x24, 0x30, 0x31, 0x32, 0x38, 0x39, 0x40, 0x49, 0x50] →
          let u := frameUn un off
          Makes (.registerWrite un off h v) s (e.storeWord u r i (halfWord h (e.rwWord u r i) v)))
      ∧ Makes (.registerWrite un off h v) s (e.writeReg un off h v))
  ∧ (∀ (s : State) (un off : Nat) (h : Half) (v : Nat), s.dev.served un = false ∨ off % 8 ≠ 0 →
      Makes (.registerWrite un off h v) s s.dev)
  ∧ (∀ (s : State) (un off : Nat) (h : Half) (v : Nat), s.dev.served un = true → off % 8 = 0 → off < 0x300 →
      findReg un off = none → Makes (.registerWrite un off h v) s (s.dev.accessed un))
  ∧ (∀ (s : State) (un off i : Nat) (h : Half) (u : Option Nat) (r : RegDesc), s.dev.served un = true →
      (0x400 ≤ off → s.dev.gated un = false) → findReg un off = some (r, i) → r.window = .none →
      let e := s.dev.accessed un
      let u' := frameUn un off
      ∃ b, Makes (.rcFieldRead un off ⟨h, u⟩) s b ∧ b.lastRead = h.of (e.regRead un off)
        ∧ (∀ f ∈ r.fields, f.acc = .rc → h.takes f.fld.lo = true →
            b.getI u' f.fld i = (match u with | none => resetVal un f.fld.rst i | some v => v % 2 ^ f.fld.width))
        ∧ b = { e with fields := b.fields, lastRead := b.lastRead }
        ∧ ∀ k, (∀ f ∈ r.fields, f.acc = .rc → h.takes f.fld.lo = true → k ≠ f.fld.key u' i) →
            b.fields.get? k = e.fields.get? k)
  ∧ (∀ (s : State) (un off : Nat) (h : Half) (u : Option Nat), s.dev.served un = false →
      Makes (.rcFieldRead un off ⟨h, u⟩) s { s.dev with lastRead := 0 })

/-- Changing a unit's service state leaves the old state in PREV_STATE and the new one in SVC_STATE, and STATE_CHANGE is raised
with both; of the registers only these, SLEEP_STATE (R513), SVC_STATUS.CORES_ACTIVE (R440) and what reporting touches may
differ. -/
def Obligations.ServiceStateChanges : Prop :=
  ∀ (d : Dev) (un new : Nat), new < 16 → d.svc un < 16 →
    let b := d.setSvc un new
    b.svc un = new ∧ b.get un UF_STATE.PREV_STATE = d.svc un
    ∧ b.hasRaised un 0x00 (leBytes 1 (d.svc un) ++ leBytes 1 new ++ leBytes 1 (d.get un UF_STATE.DEGRADED))
    ∧ (∀ k, noteKey k = false → k ≠ UF_STATE.SVC_STATE.key un 0 → k ≠ UF_STATE.PREV_STATE.key un 0 →
        k ≠ UF_STATE.SLEEP_STATE.key un 0 → k ≠ SVC_STATUS.CORES_ACTIVE.key uSVC 0 → b.fields.get? k = d.fields.get? k)

/-- Writing a fault record numbers it one above the unit's last, puts it whole and valid into the slot R50 chooses, adds it to the
always-on log, raises FAULT_DECLARED with the number and the cause, and changes nothing else but what reporting does. -/
def Obligations.FaultRecordsAreWritten : Prop :=
  ∀ (d : Dev) (un cause time : Nat) (detail : List Byte),
    let no := d.recordNo.getD 0 [un] + 1
    let b := d.writeFault un cause time detail
    b.errLog.get? [un, d.errSlot un] = some ⟨time, no, cause, true, slice detail 0 48⟩
    ∧ b.recordNo.getD 0 [un] = no
    ∧ b.rid = d.rid.logged ⟨time, no, cause, un, slice detail 0 48⟩
    ∧ b.hasRaised un 0x01 (leBytes 4 no ++ leBytes 2 cause)
    ∧ ∀ k, noteKey k = false → b.fields.get? k = d.fields.get? k

/-- OUT_REQ of a SPARE takes it OUT, where it stands ready no more; of an ACTIVE unit of its own hands its stream to the spare that would take
it, or is refused where none would; of a unit in DRAINING or OUT changes nothing, and in any other state is refused with code 0. RETURN_REQ of a unit in OUT or FAILED with no units to carry it on to
starts its self-test, or has it wait for one that runs alone, and of a unit in SHADOW or ACTIVE, which has returned, changes nothing;
TEST_REQ of any unit in OFF, SPARE, OUT or FAILED starts its self-test and those of its children that may be
tested; RESET_REQ in OFF, OUT or FAILED clears its other registers and keeps those of R48, and those of its children that may be
reset; the registers the two egress schedulers share stay while the other may schedule (the model's choice, said at `Dev.resetsKey`). A
write with more than one request bit is refused once with code 0xFF.
Forms said to complete, each with the next state it answers: outReq, returnReq, testReq, resetReq. -/
def Obligations.RegisterRequestsOfUnits : Prop :=
  (∀ (s : State) (un reqs : Nat), holdsTurns un = true → reqs % 16 = 1 → s.dev.svc un = sSPARE →
    Makes (.outReq un reqs) s ((s.dev.standDown un).setSvc un sOUT)
    ∧ (classOf un ≠ 0x41 → classOf un ≠ 0x21 → Makes (.outReq un reqs) s (s.dev.setSvc un sOUT)))
  ∧ (∀ (s : State) (un reqs : Nat), holdsTurns un = true → reqs % 16 = 1 →
      (s.dev.svc un ∈ [sDRAINING, sOUT] → Makes (.outReq un reqs) s s.dev)
      ∧ (s.dev.svc un ∉ [sACTIVE, sSPARE, sDRAINING, sOUT] → Makes (.outReq un reqs) s (s.dev.refuseReq un 0))
      ∧ (s.dev.svc un = sACTIVE → askedChildren un = [] → s.dev.relieved un = false → classOf un ≠ 0x15 →
          (s.dev.successor un = none → Makes (.outReq un reqs) s (s.dev.refuseReq un 0))
          ∧ ∀ t, s.dev.successor un = some t → classOf un ≠ 0x41 → Makes (.outReq un reqs) s ((s.dev.handOver un t).settleOut un)))
  ∧ (∀ (s : State) (un reqs : Nat), holdsTurns un = true → reqs % 16 = 2 →
      (s.dev.svc un = sOUT ∨ s.dev.svc un = sFAILED → s.dev.rid.tests.get? [un, 1] = none → askedUnder un = [] →
        (s.dev.rid.tests.get? [un] = none → Makes (.returnReq un reqs) s (s.dev.startTest un { why := .return_ }))
        ∧ ∀ t : SelfTest, s.dev.rid.tests.get? [un] = some t → t.why = .alone →
            Makes (.returnReq un reqs) s
              { s.dev with rid := { s.dev.rid with tests := s.dev.rid.tests.insert [un, 1] { why := .return_ } } })
      ∧ (s.dev.svc un = sSHADOW ∨ s.dev.svc un = sACTIVE → Makes (.returnReq un reqs) s s.dev))
  ∧ (∀ (s : State) (un reqs : Nat), populated un = true → reqs % 16 = 4 → s.dev.rid.tests.get? [un] = none →
      s.dev.svc un ∈ [sOFF, sSPARE, sOUT, sFAILED] →
      Makes (.testReq un reqs) s (((unitsUnder un).foldl (fun d u => if d.mayTest u then d.startTest u { why := .alone } else d)
        s.dev).startTest un { why := .alone })
      ∧ (unitsUnder un = [] → Makes (.testReq un reqs) s (s.dev.startTest un { why := .alone })))
  ∧ (∀ (s : State) (un reqs : Nat), populated un = true → reqs % 16 = 8 → s.dev.svc un ∈ [sOFF, sOUT, sFAILED] →
      Makes (.resetReq un reqs) s ((unitsUnder un).foldl (fun d u => if d.mayReset u then d.resetUnit u else d)
        (s.dev.resetUnit un))
      ∧ (unitsUnder un = [] → Makes (.resetReq un reqs) s (s.dev.resetUnit un)))
  ∧ (∀ (d : Dev) (un i : Nat) (f : Fld), un = 97 ∨ un = 98 → 0x400 ≤ f.off → d.mayReset (195 - un) = false →
      (d.resetUnit un).getI uSCH f i = d.getI uSCH f i)
  ∧ (∀ (d : Dev) (un : Nat), classOf un ≠ 0x30 → classOf un ≠ 0x21 → let b := d.resetUnit un
      b = { d with fields := b.fields }
      ∧ (∀ f i, keptByReset f.off = false → f.key un i ≠ UF_CTRL.TEST_BUSY.key un 0 → b.getI un f i = resetVal un f.rst i)
      ∧ ∀ f u i, u ≠ un ∨ keptByReset f.off = true → b.getI u f i = d.getI u f i)
  ∧ (∀ (s : State) (un reqs : Nat), populated un = true → reqs % 16 ∉ [0, 1, 2, 4, 8] → bit reqs 0 = true →
      Makes (.outReq un reqs) s (s.dev.refuseReq un 0xFF))

/-- Accepted, UNIT_OUT of a SPARE takes it OUT and completes with OK, and of a unit already DRAINING or OUT completes as
a no-op; of an ACTIVE unit with no units under it, it hands the stream to the spare that would take it and completes as the unit reaches OUT, or
goes on until then; where no spare would and ALLOW_LOSS is clear, and in any other state, it completes with UNIT_UNAVAILABLE. UNIT_RETURN of a unit in OUT or FAILED, and UNIT_TEST in OFF, SPARE, OUT or FAILED, start the self-test, UNIT_TEST
those of the unit's children too, and go on until it ends; UNIT_RETURN of an ACTIVE unit completes with OK; UNIT_TEST in any other
state completes with UNIT_UNAVAILABLE and REQ_REFUSED is raised.
Forms said to complete, each with the next state it answers: unitOut, unitReturn, unitTest. -/
def Obligations.UnitCommands : Prop :=
  (∀ (s : State) (c : HCmd), c.accepted s.dev 0x0401 c.unitOutParams → s.dev.svc (c.par 0 15 0) = sSPARE →
    Makes (.unitOut c) s ((((c.begun s.dev).standDown (c.par 0 15 0)).setSvc (c.par 0 15 0) sOUT).finish c.ticket .ok))
  ∧ (∀ (s : State) (c : HCmd), c.accepted s.dev 0x0401 c.unitOutParams →
      s.dev.svc (c.par 0 15 0) ∈ [sDRAINING, sOUT] → Completes (.unitOut c) s c.ticket .ok s.dev)
  ∧ (∀ (s : State) (c : HCmd), let un := c.par 0 15 0
      c.accepted s.dev 0x0401 c.unitOutParams →
      (s.dev.svc un ∉ [sACTIVE, sSPARE, sDRAINING, sOUT] →
        Completes (.unitOut c) s c.ticket (.fail stUNIT_UNAVAILABLE) (s.dev.set un UF_CTRL.REQ_REFUSED 1))
      ∧ (s.dev.svc un = sACTIVE → askedChildren un = [] → s.dev.relieved un = false → classOf un ≠ 0x15 →
          (s.dev.successor un = none → c.par 2 0 0 = 0 → Completes (.unitOut c) s c.ticket (.fail stUNIT_UNAVAILABLE) s.dev)
          ∧ ∀ t, s.dev.successor un = some t → classOf un ≠ 0x41 →
              let e := ((c.begun s.dev).handOver un t).settleOut un
              (e.svc un = sOUT → Makes (.unitOut c) s (e.finish c.ticket .ok))
              ∧ (e.svc un ≠ sOUT → Makes (.unitOut c) s
                  (({ e with rid := { e.rid with outs := e.rid.outs ++ [⟨un, c.ticket, s.dev.now⟩] } } : Dev).noteStarted c.ticket))))
  ∧ (∀ (s : State) (c : HCmd), let un := c.par 0 15 0
      c.accepted s.dev 0x0402 c.unitReturnParams →
      (s.dev.svc un = sOUT ∨ s.dev.svc un = sFAILED →
        s.dev.rid.tests.get? [un] = none → s.dev.rid.tests.get? [un, 1] = none → askedUnder un = [] →
        GoesOn (.unitReturn c) s
          ((s.dev.startTest un { why := .return_, ticket := some c.ticket, waitActive := c.par 2 0 0 == 1 }).noteStarted c.ticket))
      ∧ (s.dev.svc un = sACTIVE → Completes (.unitReturn c) s c.ticket (.ok 1) s.dev))
  ∧ (∀ (s : State) (c : HCmd), let un := c.par 0 15 0
      c.accepted s.dev 0x0403 c.unitTestParams → s.dev.rid.tests.get? [un] = none →
      s.dev.svc un ∈ [sOFF, sSPARE, sOUT, sFAILED] →
      Makes (.unitTest c) s ((((unitsUnder un).foldl (fun d u => if d.mayTest u then d.startTest u { why := .alone } else d)
        (c.begun s.dev)).startTest un { why := .alone, ticket := some c.ticket }).noteStarted c.ticket)
      ∧ (unitsUnder un = [] →
          GoesOn (.unitTest c) s ((s.dev.startTest un { why := .alone, ticket := some c.ticket }).noteStarted c.ticket)))
  ∧ (∀ (s : State) (c : HCmd), let un := c.par 0 15 0
      c.accepted s.dev 0x0403 c.unitTestParams → s.dev.svc un ∉ [sOFF, sSPARE, sOUT, sFAILED] →
      Completes (.unitTest c) s c.ticket (.fail stUNIT_UNAVAILABLE) (s.dev.set un UF_CTRL.REQ_REFUSED 1))

/-- A test asked for alone (of a memory channel, which trains instead, only the one a command waits for) ends with TEST_PASS, TEST_DONE and, where a command waits, its completion with the outcome. A unit being
brought up that passes enters service (a flume ACTIVE with a turn), a stack once its sideband has been read, and one that fails is FAILED
with cause 0x0006, its group's figure with it; a returning one
that passes enters SHADOW, and one that fails ends its command with ABORTED_FAULT; a classifier bank goes on from a failure while
its lateral's spare array is free. TEST_DONE comes last. A spare that fails its firmware test goes OUT, and one that passes stays. A
UNIT_OUT that has waited 100 ms completes with TIMEOUT.
Forms said to complete, each with the next state it answers: selfTestDone, spareTest, unitOutTimeout. -/
def Obligations.SelfTestsAndTimeouts : Prop :=
  (∀ (s : State) (un : Nat) (pass : Bool) (k : Ticket), populated un = true →
    s.dev.rid.tests.get? [un] = some { why := .alone, ticket := some k } → s.dev.rid.tests.get? [un, 1] = none →
    Completes (.selfTestDone un pass) s k (.ok pass.toNat)
      ((({ s.dev with rid := { s.dev.rid with tests := s.dev.rid.tests.erase [un] } }).setFlag un UF_CTRL.TEST_BUSY false).setFlag un
        UF_CTRL.TEST_PASS pass))
  ∧ (∀ (s : State) (un : Nat) (pass : Bool), populated un = true → classOf un ≠ 0x41 →
      let done (d : Dev) : Dev := ((d.setFlag un UF_CTRL.TEST_BUSY false).setFlag un UF_CTRL.TEST_PASS pass).raise un 0x03
        (leBytes 1 pass.toNat)
      (s.dev.rid.tests.get? [un] = some { why := .alone } → s.dev.rid.tests.get? [un, 1] = none →
        Makes (.selfTestDone un pass) s (done { s.dev with rid := { s.dev.rid with tests := s.dev.rid.tests.erase [un] } }))
      ∧ (s.dev.rid.tests.get? [un] = none → s.dev.svc un = sOFF → (classOf un = 0x30 → s.dev.portInUse (un - 128) = true) →
          (classOf un = 0x40 → s.dev.fw.sideband.contains (un - 512) = true) →
          (s.dev.testPasses un pass = true → Makes (.selfTestDone un pass) s (done ((s.dev.spareIfFailed un pass).bringUp un)))
          ∧ (s.dev.testPasses un pass = false → Makes (.selfTestDone un pass) s (done (s.dev.failTest un)))
          ∧ (pass = true → classOf un = 0x11 → designatedSpare un = false → holdsTurns un = true →
              Makes (.selfTestDone un pass) s (done ((s.dev.setSvc un sACTIVE).grantTurn un 0 none)))
          ∧ (pass = false → classOf un ≠ 0x15 →
              Makes (.selfTestDone un pass) s (done (((s.dev.failSelf un 0x0006).showGroup un).groupLost un))
              ∧ (classOf un ∉ [0x04, 0x11, 0x19, 0x48] → Makes (.selfTestDone un pass) s (done (s.dev.failSelf un 0x0006)))))
      ∧ ∀ t : SelfTest, s.dev.rid.tests.get? [un] = some t → t.why = .return_ → (s.dev.watchOf un).state ≠ .declared →
          let gone : Dev := { s.dev with rid := { s.dev.rid with tests := s.dev.rid.tests.erase [un] } }
          (s.dev.testPasses un pass = true →
            Makes (.selfTestDone un pass) s (done ((gone.spareIfFailed un pass).enterShadow un t)))
          ∧ (s.dev.testPasses un pass = false → ∀ k, t.ticket = some k →
              Makes (.selfTestDone un pass) s ((done (gone.failTest un)).finish k (.fail stABORTED_FAULT))))
  ∧ (∀ (s : State) (un : Nat) (pass : Bool), s.dev.svc un = sSPARE → s.dev.isTaking un = false →
      let d := s.dev.setFlag un UF_CTRL.TEST_PASS pass
      Makes (.spareTest un pass) s ((if pass then d else (d.standDown un).setSvc un sOUT).raise un 0x03 (leBytes 1 pass.toNat)))
  ∧ (∀ (s : State) (un : Nat) (t : Ticket) (since : Nat), s.dev.rid.outs = [⟨un, t, since⟩] → since + 100000000 ≤ s.dev.now →
      Completes (.unitOutTimeout un) s t (.fail stTIMEOUT) { s.dev with rid := { s.dev.rid with outs := [] } })

/-- SHADOW_COMPLETE of a returning unit does nothing before 65,536 items have been compared; then a flume or an editor is ACTIVE with the
stream it carried when it left, or else the one it compared, an editor with its port group, and holds a new turn; the unit that carried that stream is relieved, which
goes on being ACTIVE while its own items have not committed (R390), and the group's figure, the stages and waiting
commands follow. A unit whose class has no peers (banks, the credit scheduler and memory channels apart) takes its own stream again, a port or
a link its own states. AUTO_RETURN while HEADLESS starts the return of a unit
that failed long enough ago, and logs the decision.
Forms said to complete, each with the next state it answers: shadowComplete, autoReturn. -/
def Obligations.ReturningUnits : Prop :=
  (∀ (s : State) (un of_ items : Nat), s.dev.rid.shadows.get? [un] = some ⟨of_, items⟩ → items < 65536 →
    Makes (.shadowComplete un) s s.dev)
  ∧ (∀ (s : State) (un of_ items : Nat), classOf un = 0x11 ∨ classOf un = 0x19 → s.dev.svc un = sSHADOW →
      s.dev.rid.shadows.get? [un] = some ⟨of_, items⟩ → 65536 ≤ items →
      let st := (s.dev.rid.carried.get? [un]).getD (s.dev.streamOf of_)
      let d : Dev := { s.dev with rid := { s.dev.rid with
        shadows := s.dev.rid.shadows.erase [un], carried := s.dev.rid.carried.erase [un] } }
      let b := (((d.setWatch un {}).setSvc un sACTIVE).setStream un st).grantTurn un 0 none
      (∀ u, s.dev.carrierOf un st = some u →
        Makes (.shadowComplete un) s
          ((((if classOf un = 0x19 then b.moveGroup u un else b).relieve u).showGroup un |>.follow un).endReturns un (.ok 1)))
      ∧ (s.dev.carrierOf un st = none → Makes (.shadowComplete un) s
          (((if classOf un = 0x19 then b.restoreGroup un else b).showGroup un |>.follow un).endReturns un (.ok 1))))
  ∧ (∀ (d : Dev) (u : Nat), d.heldBy u ≠ [] → (d.relieve u).svc u = d.svc u ∧ (d.relieve u).relieved u = true)
  ∧ (∀ (s : State) (un : Nat), peersOf un = [] → classOf un ∉ [0x15, 0x19, 0x22, 0x41] → followers un = [] →
      s.dev.svc un = sSHADOW → s.dev.rid.shadows.get? [un] = none → s.dev.rid.carried.get? [un] = none →
      let d : Dev := { s.dev with rid := { s.dev.rid with
        shadows := s.dev.rid.shadows.erase [un], carried := s.dev.rid.carried.erase [un] } }
      let b := (((d.setWatch un {}).setSvc un sACTIVE).setStream un un).grantTurn un 0 none
      let e := if classOf un = 0x30 then b.settlePort (un - 128) else if classOf un = 0x31 then b.settleLink (un - 256) else b
      Makes (.shadowComplete un) s ((e.showGroup un).endReturns un (.ok 1)))
  ∧ (∀ (s : State) (un t : Nat), s.dev.rid.failedAt.get? [un] = some t → s.dev.flag 0 HDL_STATUS.HEADLESS = true →
      s.dev.flag 0 HDL_CFG.AUTO_RETURN = true → holdsTurns un = true → s.dev.svc un = sFAILED →
      s.dev.get un UF_STATE.FAULT_COUNT < 3 → t + 1000000000 * s.dev.act 0 HDL_CFG.RETURN_DELAY_S ≤ s.dev.now →
      s.dev.rid.tests.get? [un] = none → s.dev.rid.tests.get? [un, 1] = none → askedUnder un = [] →
      Makes (.autoReturn un) s ((s.dev.startTest un { why := .return_ }).logDecision 5 un 0))

/-! ### Events and performance counters -/

/-- EVT_MASK_WRITE puts the mask, non-maskable types apart, and issues one record for each type it unmasks while pending, and none
otherwise. EVT_PEND_CLEAR clears exactly the bits written 1 and then settles NMI_N. A source with a held record delivers the oldest
once its ring has room, and nothing before.
Forms said to complete, each with the next state it answers: evtMaskWrite, evtPendClear, eventDeliver. -/
def Obligations.MaskingClearingAndDelivering : Prop :=
  (∀ (s : State) (un mask : Nat), populated un = true →
    let new := bits mask 62 0 - (bits mask 62 0 &&& nmiMask (classOf un))
    let d := s.dev.set un UF_EVT_MASK.MASK new
    let woken (t : Nat) : Bool :=
      bit (s.dev.get un UF_EVT_MASK.MASK) t && !bit new t && bit (s.dev.get un UF_EVT_PEND.PEND) t
    Notes (.evtMaskWrite un mask) s d (fun _ => True)
    ∧ ((∀ t < 63, woken t = false) → Makes (.evtMaskWrite un mask) s d)
    ∧ ∀ t time payload, t < 63 → woken t = true → (∀ u < 63, u ≠ t → woken u = false) →
        s.dev.ev.latest.get? [un, t] = some (time, payload) →
        Makes (.evtMaskWrite un mask) s (d.issue (sourceOf un t) un t time payload))
  ∧ (∀ (s : State) (un clear : Nat), populated un = true →
      ∃ b, Makes (.evtPendClear un clear) s b
        ∧ (∀ t < 63, bit (b.get un UF_EVT_PEND.PEND) t = (bit (s.dev.get un UF_EVT_PEND.PEND) t && !bit clear t))
        ∧ b.ev = { s.dev.ev with nmi := s.dev.ev.nmi && b.nmiPending }
        ∧ b = { s.dev with fields := b.fields, ev := b.ev }
        ∧ ∀ k, k ≠ UF_EVT_PEND.PEND.key un 0 → b.fields.get? k = s.dev.fields.get? k)
  ∧ (∀ (s : State) (src : Nat) (r : EvRec) (rest : List EvRec), (s.dev.source src).held = r :: rest →
      (s.dev.ringHasRoom (s.dev.evtRing r.un) = true →
        Makes (.eventDeliver src) s ((s.dev.setSource src { s.dev.source src with held := rest }).deliverRec r))
      ∧ (s.dev.ringHasRoom (s.dev.evtRing r.un) = false → Makes (.eventDeliver src) s s.dev))

/-- An unchained counter that overflows wraps to 0, sets its OVF bit and raises PMC_OVERFLOW with a mask of it alone;
a chained one adds 1 to the next and raises nothing while that one does not wrap, and where it does and is unchained, both stand at 0 and
the next one's OVF bit is set and reported. CYCLE_CLEAR has UF_PMC_CYCLE read 0 and changes nothing else; CNT_CLEAR zeroes the eight
counters and OVF, and nothing else.
Forms said to complete, each with the next state it answers: pmcCycleClear, pmcCntClear, pmcOverflow. -/
def Obligations.CountersOverflowAndClear : Prop :=
  (∀ (s : State) (un n : Nat), populated un = true → n < 8 → s.dev.getI un UF_PMC_CNT.COUNT n < 2 ^ 48 →
    n = 7 ∨ bit (s.dev.get un UF_PMC_CTRL.CHAIN) n = false →
    Makes (.pmcOverflow un n) s
      (((s.dev.setI un UF_PMC_CNT.COUNT n 0).set un UF_PMC_CTRL.OVF (s.dev.get un UF_PMC_CTRL.OVF ||| 2 ^ n)).raise un 0x04
        (leBytes 1 (2 ^ n))))
  ∧ (∀ (s : State) (un n : Nat), populated un = true → n < 7 → s.dev.getI un UF_PMC_CNT.COUNT n < 2 ^ 48 →
      bit (s.dev.get un UF_PMC_CTRL.CHAIN) n = true →
      let next := s.dev.getI un UF_PMC_CNT.COUNT (n + 1)
      (next + 1 < 2 ^ 48 →
        Makes (.pmcOverflow un n) s ((s.dev.setI un UF_PMC_CNT.COUNT n 0).setI un UF_PMC_CNT.COUNT (n + 1) (next + 1)))
      ∧ (next + 1 = 2 ^ 48 → n + 1 = 7 ∨ bit (s.dev.get un UF_PMC_CTRL.CHAIN) (n + 1) = false →
        Makes (.pmcOverflow un n) s
          ((((s.dev.setI un UF_PMC_CNT.COUNT n 0).setI un UF_PMC_CNT.COUNT (n + 1) 0).set un UF_PMC_CTRL.OVF
            (s.dev.get un UF_PMC_CTRL.OVF ||| 2 ^ (n + 1))).raise un 0x04 (leBytes 1 (2 ^ (n + 1))))))
  ∧ (∀ (s : State) (un : Nat), populated un = true →
      ∃ base : Tab Nat, Makes (.pmcCycleClear un) s { s.dev with cycleBase := base }
        ∧ cyclesShown s.dev.pwr.clocks base un = 0
        ∧ ∀ u, u ≠ un → cyclesShown s.dev.pwr.clocks base u = cyclesShown s.dev.pwr.clocks s.dev.cycleBase u)
  ∧ (∀ (s : State) (un : Nat), populated un = true →
      ∃ b, Makes (.pmcCntClear un) s b ∧ (∀ n < 8, b.getI un UF_PMC_CNT.COUNT n = 0)
        ∧ b.get un UF_PMC_CTRL.OVF = 0 ∧ b = { s.dev with fields := b.fields }
        ∧ ∀ k, (∀ n < 8, k ≠ UF_PMC_CNT.COUNT.key un n) → k ≠ UF_PMC_CTRL.OVF.key un 0 →
            b.fields.get? k = s.dev.fields.get? k)

/-- SNAPSHOT and a write of TRIGGER start a snapshot: it gets the next ID, notes the device time, copies every unit's counters and
cycles as they stand, and is busy until SNAPSHOT_DONE is raised with its ID. While one is in progress SNAPSHOT completes with RETRY_LATER
and TRIGGER sets REFUSED, and nothing else happens.
Forms said to complete, each with the next state it answers: snapshot, snapTrigger, snapshotDone. -/
def Obligations.SnapshotsCopyEveryCounter : Prop :=
  (∀ (d : Dev), let b := d.startSnapshot
    b.get 0 HIF_SNAP_CTRL.LAST_ID = (d.get 0 HIF_SNAP_CTRL.LAST_ID + 1) % 2 ^ 32 ∧ b.flag 0 HIF_SNAP_CTRL.BUSY = true
    ∧ (∃ x, b.snap = some x ∧ x.id = b.get 0 HIF_SNAP_CTRL.LAST_ID ∧ x.time = d.now)
    ∧ (∀ un n, b.shadow un UF_PMC_CNT.COUNT n = d.getI un UF_PMC_CNT.COUNT n)
    ∧ (∀ un, b.shadowCycle un = cyclesShown d.pwr.clocks d.cycleBase un)
    ∧ b = { d with fields := b.fields, snap := b.snap, draws := d.draws + 1 }
    ∧ ∀ k, k ≠ HIF_SNAP_CTRL.LAST_ID.key 0 0 → k ≠ HIF_SNAP_CTRL.BUSY.key 0 0 → b.fields.get? k = d.fields.get? k)
  ∧ (∀ (s : State) (c : HCmd), c.accepted s.dev 0x0005 [] → s.dev.flag 0 HIF_SNAP_CTRL.BUSY = false →
      Makes (.snapshot c) s ((c.begun s.dev).startSnapshot.finish c.ticket
        (.ok ((c.begun s.dev).startSnapshot.get 0 HIF_SNAP_CTRL.LAST_ID))))
  ∧ (∀ (s : State) (c : HCmd), c.accepted s.dev 0x0005 [] → s.dev.flag 0 HIF_SNAP_CTRL.BUSY = true →
      Completes (.snapshot c) s c.ticket (.fail stRETRY_LATER) s.dev)
  ∧ (∀ s : State, s.dev.flag 0 HIF_SNAP_CTRL.BUSY = false → Makes .snapTrigger s s.dev.startSnapshot)
  ∧ (∀ s : State, s.dev.flag 0 HIF_SNAP_CTRL.BUSY = true → Makes .snapTrigger s (s.dev.set 0 HIF_SNAP_CTRL.REFUSED 1))
  ∧ (∀ s : State, s.dev.flag 0 HIF_SNAP_CTRL.BUSY = true →
      Makes .snapshotDone s
        ((s.dev.set 0 HIF_SNAP_CTRL.BUSY 0).raise 0 0x07 (leBytes 4 (s.dev.get 0 HIF_SNAP_CTRL.LAST_ID))))

/-! ### Clocks, power, temperature and resets -/

/-- XTAL_STABLE marks the input good, takes the count ratios as calibrated and locks the PLLs that wait for it. XTAL_START_TIMEOUT
declares an input that is not stable 100 ms and XTAL_EXTRA after PWRGD. A MONITOR_WINDOW with every pair in tolerance and no source
failed clears PAIR_OUT and the ambiguity count; the four sets of pairs that R504 names each declare their source; any other set declares
none and is counted, the tenth in a row raised as source 7. A declared reference stops reading OK, and SRC_FAIL is raised. An input first
stable after it was declared failed gives its pairs their ratios and stays failed (assumption 299, the model's).
Forms said to complete, each with the next state it answers: xtalStable, xtalStartTimeout, monitorWindow. -/
def Obligations.ReferencesFailAndReturn : Prop :=
  (∀ (s : State) (ref src : Nat) (counts : List (Nat × Nat)), ref = uREF_F ∨ ref = uREF_Q → src ≤ 1 →
    s.dev.xtalDue ref src = true → s.dev.flag ref (okField src) = false → s.dev.srcFailed ref src = false →
    ∃ b, Makes (.xtalStable ref src counts) s b ∧ b.flag ref (okField src) = true
      ∧ (∀ i c, i < 3 → counts[i]? = some c → c.1 ≠ 0 → c.2 ≠ 0 → (b.clkBlock ref).ratio.get? [i] = some c)
      ∧ (∀ u ∈ plls ref, s.dev.get u CLK_PLL_STATUS.REF = src →
          b.flag u CLK_PLL_STATUS.LOCKED = true ∧ b.flag u CLK_PLL_STATUS.HOLDOVER = false)
      ∧ b = { s.dev with fields := b.fields, pwr := { s.dev.pwr with blocks := b.pwr.blocks } })
  ∧ (∀ (s : State) (ref src : Nat) (counts : List (Nat × Nat)), ref = uREF_F ∨ ref = uREF_Q → src ≤ 1 →
      s.dev.xtalDue ref src = true → s.dev.flag ref (okField src) = false → s.dev.srcFailed ref src = true →
      (s.dev.calibrated ref src = true → Makes (.xtalStable ref src counts) s s.dev)
      ∧ (s.dev.calibrated ref src = false → ∃ ratio : Tab (Nat × Nat),
          Makes (.xtalStable ref src counts) s (s.dev.setClkBlock ref { s.dev.clkBlock ref with ratio := ratio })
          ∧ ∀ i c, i < 3 → counts[i]? = some c → c.1 ≠ 0 → c.2 ≠ 0 → ratio.get? [i] = some c))
  ∧ (∀ (s : State) (ref src t : Nat), ref = uREF_F ∨ ref = uREF_Q → src ≤ 1 → s.dev.pwr.goodAt = some t →
      s.dev.pwr.tripped = false → s.dev.flag ref (okField src) = false →
      t + 1000000 * (100 + s.dev.get ref CLK_SRC_CFG.XTAL_EXTRA_MS) ≤ s.dev.now →
      Makes (.xtalStartTimeout ref src) s (s.dev.declareSrc ref src))
  ∧ (∀ (s : State) (ref : Nat) (counts : List (Nat × Nat)), ref = uREF_F ∨ ref = uREF_Q →
      s.dev.flag ref CLK_SRC_CFG.MON_EN = true → s.dev.pwr.goodAt.isSome = true → s.dev.pwr.tripped = false →
      let out (i : Nat) : Bool :=
        pairOut ((s.dev.clkBlock ref).ratio.get? [i]) (counts.getD i (0, 0)) (s.dev.act ref CLK_SRC_CFG.TOL_PERMIL)
      ((s.dev.clkBlock ref).ratio.get? [3]).isSome = true → (s.dev.clkBlock ref).good = [] →
      (out 0 = false → out 1 = false → out 2 = false → out 3 = false ∨ ref = uREF_Q →
        Makes (.monitorWindow ref counts) s
          ((s.dev.set ref CLK_SRC_STATUS.PAIR_OUT 0).setClkBlock ref { s.dev.clkBlock ref with ambig := 0 }))
      ∧ (∀ x ∈ [(1, 0), (3, 1), (6, 2), (4, 3)], (out 0).toNat + 2 * (out 1).toNat + 4 * (out 2).toNat = x.1 →
          ∃ b, Makes (.monitorWindow ref counts) s b ∧ b.srcFailed ref x.2 = true)
      ∧ (∀ n ∈ [2, 5, 7], (out 0).toNat + 2 * (out 1).toNat + 4 * (out 2).toNat = n → out 3 = false ∨ ref = uREF_Q →
          let e := ((s.dev.set ref CLK_SRC_STATUS.PAIR_OUT n).setClkBlock ref
            { s.dev.clkBlock ref with ambig := (s.dev.clkBlock ref).ambig + 1 }).bump ref CLK_MON_AMBIG.COUNT
          ((s.dev.clkBlock ref).ambig + 1 ≠ 10 → Makes (.monitorWindow ref counts) s e)
          ∧ ((s.dev.clkBlock ref).ambig + 1 = 10 → Makes (.monitorWindow ref counts) s (e.srcFail ref 7 1))))
  ∧ (∀ (d : Dev) (ref src : Nat), src ≤ 1 → d.srcFailed ref src = false →
      let e := ((d.setClkBlock ref { d.clkBlock ref with good := (d.clkBlock ref).good.insert [src] 0 }).set ref (okField src)
        0).leaveRef ref src
      d.declareSrc ref src = (e.showCoreRef ref).raise ref 0x10
        (leBytes 1 src ++ leBytes 1 1 ++ leBytes 1 ((e.showCoreRef ref).get ref CLK_SRC_STATUS.CORE_REF)))

/-- FORCED_SWITCH counts the force and raises it with the clock left. PLL_RELOCK ends the holdover and locks, the time counter's PLL on
a reference ending HOLDOVER_FOSC. A SerDes PLL that has
held over for 100 µs without a reference stops, and its links go down. REF_RETURN moves every PLL of the die to REFA while REFA is
good, and does nothing otherwise. PLL_LOCK_LOSS follows the lock bit and raises it; the clock of a PLL that lost lock by itself runs on
unlocked, and one that is off makes no cycles.
Forms said to complete, each with the next state it answers: serdesPllStop, forcedSwitch, pllRelock, refReturn, pllLockLoss. -/
def Obligations.PllsFollowTheirReferences : Prop :=
  (∀ (s : State) (un old : Nat), s.dev.pwr.leaving.get? [un] = some old →
    Makes (.forcedSwitch un) s (((({ s.dev with pwr := { s.dev.pwr with leaving := s.dev.pwr.leaving.erase [un] } } : Dev).bump un
      CLK_FORCED_SWITCH.COUNT).tally un 0x20 1).raise un 0x12 (leBytes 1 old)))
  ∧ (∀ (s : State) (un : Nat), un ∈ plls (refOf un) → s.dev.flag un CLK_PLL_STATUS.HOLDOVER = true →
      s.dev.pwr.heldSince.get? [un] = none →
      (∀ r, s.dev.get un CLK_PLL_STATUS.REF = r → r < 2 → s.dev.flag (refOf un) (okField r) = true) →
      let e := ({ (s.dev.set un CLK_PLL_STATUS.HOLDOVER 0).set un CLK_PLL_STATUS.LOCKED 1 with
        pwr := { s.dev.pwr with leaving := s.dev.pwr.leaving.erase [un] } } : Dev).forwarded
      Makes (.pllRelock un) s (if un = 773 ∧ s.dev.get un CLK_PLL_STATUS.REF < 2 then e.ptpFosc false else e))
  ∧ (∀ (s : State) (un t : Nat), s.dev.pwr.heldSince.get? [un] = some t → t + 100000 ≤ s.dev.now →
      s.dev.flag un CLK_PLL_STATUS.HOLDOVER = true →
      let d := ((s.dev.set un CLK_PLL_STATUS.HOLDOVER 0).set un CLK_PLL_STATUS.LOCKED 0).pllOff un
      (un = 774 → Makes (.serdesPllStop un) s (d.mgtLinkChange false))
      ∧ (780 ≤ un → un ≤ 783 → Makes (.serdesPllStop un) s
          ((List.range 32).foldl (fun d i =>
            (d.interrupt (32 * (un - 780) + i) false).linkLoss (32 * (un - 780) + i) 14 false false) d))
      ∧ (791 ≤ un → un ≤ 795 → Makes (.serdesPllStop un) s
          ((List.range 32).foldl (fun d i => if d.linkSt (32 * (un - 791) + i) = fUP then
            d.leaveUp (32 * (un - 791) + i) 9 (fun d => d.startLink (32 * (un - 791) + i)) else d) d)
          ∧ ((∀ i < 32, s.dev.linkSt (32 * (un - 791) + i) ≠ fUP) → Makes (.serdesPllStop un) s d)))
  ∧ (∀ (s : State) (ref : Nat), ref = uREF_F ∨ ref = uREF_Q → s.dev.flag ref CLK_SRC_STATUS.REFA_OK = true →
      Makes (.refReturn ref) s (((plls ref).foldl (fun d u => d.moveTo u 0) s.dev).showCoreRef ref))
  ∧ (∀ (s : State) (ref : Nat), s.dev.flag ref CLK_SRC_STATUS.REFA_OK = false → Makes (.refReturn ref) s s.dev)
  ∧ (∀ (s : State) (un : Nat) (lost : Bool), classOf un = 0x50 → un ∉ [768, 769, 770, 784, 785] →
      s.dev.flag un CLK_PLL_STATUS.LOCKED = lost → (lost = false → un ∈ s.dev.pwr.unlocked) →
      let d : Dev := if lost then { s.dev with pwr := { s.dev.pwr with unlocked := un :: s.dev.pwr.unlocked } } else s.dev.pllOff un
      Makes (.pllLockLoss un lost) s ((d.setFlag un CLK_PLL_STATUS.LOCKED (!lost)).raise un 0x11 (leBytes 1 lost.toNat)))
  ∧ (∀ (d : Dev) (un : Nat), un ≠ 769 → un ≠ 785 → d.flag un CLK_PLL_STATUS.LOCKED = false →
      d.flag un CLK_PLL_STATUS.HOLDOVER = false → (d.pllOff un).clockRuns un = false)

/-- POWER_GOOD samples the straps, sets XTAL_EXTRA by STRAP_XTAL and starts the oscillators, once. STANDBY_ENTER is refused while a
port in use is not DISABLED or the fabric is enabled; else it stops the SerDes PLLs, puts all units but those of R527 into
deep-sleep and waits for the stacks, and STANDBY_LEAVE undoes it. Accesses to gated class regions and forced closings are counted at
the die; SLEEP_EN of UN 98 cannot be written, and clearing RUN_EN of a turn holder is refused with request code 4.
Forms said to complete, each with the next state it answers: gatedClassAccess, clkenWrite, powerGood, standbyEnter,
standbyLeave, gateClose. -/
def Obligations.PowerOnStandbyAndGates : Prop :=
  (∀ (s : State) (straps : Nat), s.dev.pwr.goodAt = none →
    ∃ b, Makes (.powerGood straps) s b ∧ b.pwr = { s.dev.pwr with goodAt := some s.dev.now }
      ∧ b.get 0 PWR_STRAPS.XTAL = straps % 4 ∧ b.get 0 PWR_STRAPS.REFA_OSC = straps / 4 % 2
      ∧ b.get 0 PWR_STRAPS.REFB_OSC = straps / 8 % 2 ∧ b.get 0 PWR_STRAPS.RECOVERY_N = straps / 16 % 2
      ∧ (∀ r, r = uREF_F ∨ r = uREF_Q → b.flag r CLK_SRC_STATUS.FOSC_OK = true ∧ b.flag r CLK_SRC_STATUS.SOSC_OK = true
          ∧ (straps % 4 = 0 → b.get r CLK_SRC_CFG.XTAL_EXTRA_MS = s.dev.fw.otp.xtalExtra % 256)
          ∧ (straps % 4 = 1 → b.get r CLK_SRC_CFG.XTAL_EXTRA_MS = 0)
          ∧ (straps % 4 = 2 → b.get r CLK_SRC_CFG.XTAL_EXTRA_MS = 50)
          ∧ (straps % 4 = 3 → b.get r CLK_SRC_CFG.XTAL_EXTRA_MS = 255))
      ∧ b = { s.dev with fields := b.fields, pwr := b.pwr })
  ∧ (∀ (s : State) (straps t : Nat), s.dev.pwr.goodAt = some t → Makes (.powerGood straps) s s.dev)
  ∧ (∀ (s : State) (p : Nat), p < 128 → s.dev.portInUse p = true → s.dev.linkState p ≠ lsDISABLED →
      s.dev.flag 0 PWR_CTRL.STANDBY = false → Makes .standbyEnter s (s.dev.set 0 PWR_CTRL.REFUSED 1))
  ∧ (∀ s : State, s.dev.flag uZFP ZFP_DEV_CFG.EN = true → s.dev.flag 0 PWR_CTRL.STANDBY = false →
      Makes .standbyEnter s (s.dev.set 0 PWR_CTRL.REFUSED 1))
  ∧ (∀ s : State, s.dev.flag 0 PWR_CTRL.STANDBY = false → s.dev.get 0 PWR_CTRL.STBY_STATE = 0 →
      s.dev.flag uZFP ZFP_DEV_CFG.EN = false → (∀ p < 128, s.dev.portInUse p = true → s.dev.linkState p = lsDISABLED) →
      ∃ b, Makes .standbyEnter s b ∧ b.flag 0 PWR_CTRL.STANDBY = true
        ∧ (b.get 0 PWR_CTRL.STBY_STATE = 1 ∨ b.get 0 PWR_CTRL.STBY_STATE = 2)
        ∧ (∀ u ∈ standbyUnits, b.get u UF_STATE.SLEEP_STATE = 2)
        ∧ (∀ u ∈ [780, 781, 782, 783, 791, 792, 793, 794, 795], b.flag u CLK_PLL_STATUS.LOCKED = false)
        ∧ b = { s.dev with fields := b.fields, pwr := { s.dev.pwr with unlocked := b.pwr.unlocked } })
  ∧ (∀ s : State, s.dev.flag 0 PWR_CTRL.STANDBY = true →
      ∃ b, Makes .standbyLeave s b ∧ b.flag 0 PWR_CTRL.STANDBY = false
        ∧ (b.get 0 PWR_CTRL.STBY_STATE = 3 ∨ b.get 0 PWR_CTRL.STBY_STATE = 0)
        ∧ (∀ u ∈ standbyUnits, b.get u UF_STATE.SLEEP_STATE = if s.dev.svc u = sSPARE then 1 else 0)
        ∧ (∀ u ∈ [780, 781, 782, 783, 791, 792, 793, 794, 795],
            b.flag u CLK_PLL_STATUS.LOCKED = s.dev.flag (refOf u) (okField (s.dev.get u CLK_PLL_STATUS.REF)))
        ∧ b = { s.dev with fields := b.fields })
  ∧ (∀ (s : State) (un : Nat), populated un = true → s.dev.gated un = true →
      Makes (.gatedClassAccess un) s (s.dev.bump (dieOf un) PWR_GATED_ACCESS.COUNT)
      ∧ Makes (.gateClose un false) s (s.dev.bump (dieOf un) PWR_GATE_FORCED.COUNT)
      ∧ Makes (.gateClose un true) s s.dev)
  ∧ (∀ (s : State) (un v : Nat), populated un = true →
      let d := (if un = 98 then s.dev else s.dev.set un UF_CLKEN.SLEEP_EN (fieldOfWrite UF_CLKEN.SLEEP_EN v)).set un
        UF_CLKEN.DEEP_EN (fieldOfWrite UF_CLKEN.DEEP_EN v)
      Makes (.clkenWrite un v) s
        (if fieldOfWrite UF_CLKEN.RUN_EN v = 0 ∧ s.dev.flag un UF_STATE.TURN_HOLDER = true then d.refuseReq un 4
         else d.set un UF_CLKEN.RUN_EN (fieldOfWrite UF_CLKEN.RUN_EN v)))

/-- AVS_STEP by the running firmware moves a core rail by at most 5 mV within 650 to 800 mV, the levels following the lower target
until REGULATOR_SETTLED ends at the new one; REGULATOR_FAULT, 2 ms later, ends at the old one and is raised. A dip below the warning
level longer than 50 ns and an overvoltage are reported, the cycles that a core rail's dip stretched counted at its die; a rail at its reset level resets cold (VDD_AON) or warm with its number in
the cause. A PMBus read shows what it got; the third failure in a row sets NO_ANSWER.
Forms said to complete, each with the next state it answers: avsStep, regulatorFault, supplyDip, supplyOvervoltage,
supplyResetLevel, pmbPoll, pmbAlert, regulatorSettled. -/
def Obligations.RailsAndRegulators : Prop :=
  (∀ (s : State) (un mv : Nat), un = 800 ∨ un = 808 → s.dev.fw.running.isSome = true → s.dev.pwr.avsPending.get? [un] = none →
    (∀ t, s.dev.pwr.avsAt.get? [un] = some t → t + 10000000 ≤ s.dev.now) → 650 ≤ mv → mv ≤ 800 →
    let old := s.dev.get un PWR_MON_STATUS.TARGET_MV
    mv ≤ old + 5 → old ≤ mv + 5 →
    Makes (.avsStep un mv) s (({ s.dev with pwr := { s.dev.pwr with
      avsAt := s.dev.pwr.avsAt.insert [un] s.dev.now, avsPending := s.dev.pwr.avsPending.insert [un] (old, mv) } } : Dev).set un
        PWR_MON_STATUS.TARGET_MV (min old mv)))
  ∧ (∀ (s : State) (un old new : Nat), s.dev.pwr.avsPending.get? [un] = some (old, new) →
      let ended (mv : Nat) : Dev := { s.dev.set un PWR_MON_STATUS.TARGET_MV mv with
        pwr := { s.dev.pwr with avsPending := s.dev.pwr.avsPending.erase [un] } }
      Makes (.regulatorSettled un) s (ended new)
      ∧ ∀ t why, s.dev.pwr.avsAt.get? [un] = some t → t + 2000000 ≤ s.dev.now →
          Makes (.regulatorFault un why) s ((ended old).raise un 0x11 (leBytes 1 (why % 2))))
  ∧ (∀ (s : State) (un lowest duration cycles mv : Nat), isMonitor un = true →
      1000 * lowest < s.dev.warnLevel un → 50 < duration →
      let counted := (((s.dev.reading un lowest mv).rises un 0x20).tallyLevel un 0x20 duration).bump un PWR_DIP_COUNT.COUNT
      let stretched (die : Nat) : Dev := (counted.add die PWR_DROOP_CYCLES.COUNT cycles).tally die 0x20 cycles
      let d := (List.range 8).foldl Dev.dipRotation (if un = 800 then stretched 1 else if un = 808 then stretched 2 else counted)
      Makes (.supplyDip un lowest duration cycles mv) s
        (({ d with fw := { d.fw with holdUntil := d.now + 100000000 } } : Dev).supplyWarn un 0 lowest duration))
  ∧ (∀ (s : State) (un highest duration mv : Nat), isMonitor un = true → s.dev.overLevel un < 1000 * highest → 50 < duration →
      Makes (.supplyOvervoltage un highest duration mv) s ((s.dev.reading un mv mv).supplyWarn un 1 highest duration))
  ∧ (∀ (s : State) (un : Nat), isMonitor un = true →
      Makes (.supplyResetLevel un) s
        (if un = 802 ∨ un = 810 then s.dev.coldReset true else s.dev.warm (2 ^ 3 + (un - 800) * 2 ^ 12)))
  ∧ (∀ (s : State) (i v a w : Nat), s.dev.pmbOn i = true →
      let d : Dev := { s.dev with pwr := { s.dev.pwr with pmbFails := s.dev.pwr.pmbFails.erase [i] } }
      (s.dev.flag 0 PMB_CFG.EN = true →
        Makes (.pmbPoll [(i, some (v, a, w))]) s ((((d.setI 0 PMB_DEV.NO_ANSWER i 0).setI 0 PMB_DEV.VOUT_MV i v).setI 0
          PMB_DEV.IOUT_CA i a).setI 0 PMB_DEV.STATUS_WORD i w))
      ∧ Makes (.pmbAlert [(i, some w)]) s ((d.setI 0 PMB_DEV.NO_ANSWER i 0).setI 0 PMB_DEV.STATUS_WORD i w)
      ∧ (s.dev.pwr.pmbFails.getD 0 [i] = 2 → Makes (.pmbAlert [(i, none)]) s
          (({ s.dev with pwr := { s.dev.pwr with pmbFails := s.dev.pwr.pmbFails.insert [i] 3 } } : Dev).setI 0
            PMB_DEV.NO_ANSWER i 1)))

/-- TEMP_READ of a sensor keeps the reading and the highest one, a stack's in its controller too, whose refresh rate follows (R349), and TEMP_WARN is raised as it reaches 100 °C and as it falls to
98 °C. THROTTLE adds a step while a sensor of the die stands at 105 °C and takes one off once all stand at 102 °C. THERM_TRIP at
115 °C is a warm reset with cause bit 4. A bridge whose wires cannot be repaired is RETIRED, and the die-to-die link is degraded: to
three quarters while the other bridges serve. A quarter for each bridge lost after the first is the model's reading (said at
`Dev.showGroup`).
Forms said to complete, each with the next state it answers: tempRead, throttle, thermTrip, bridgeWireRepair. -/
def Obligations.TemperatureAndBridges : Prop :=
  (∀ (s : State) (un : Nat) (t : Int), 816 ≤ un → un ≤ 855 → -128 ≤ t → t ≤ 127 →
    let x := s.dev.set un PWR_TEMP.TEMP_C (ofSigned 8 t)
    let y := if s.dev.tempC un < 100 ∧ 100 ≤ t then x.rises un 0x20 else x
    let d := if toSigned 8 (s.dev.get un PWR_TEMP.MAX_C) < t then y.set un PWR_TEMP.MAX_C (ofSigned 8 t) else y
    let w := if s.dev.flag un PWR_TEMP.WARN = false ∧ 100 ≤ t then
        (d.set un PWR_TEMP.WARN 1).raise un 0x10 (leBytes 1 (ofSigned 8 t) ++ leBytes 1 1)
      else if s.dev.flag un PWR_TEMP.WARN = true ∧ t ≤ 98 then
        (d.set un PWR_TEMP.WARN 0).raise un 0x10 (leBytes 1 (ofSigned 8 t) ++ leBytes 1 0)
      else d
    Makes (.tempRead un t) s (if 848 ≤ un then w.stackTemp (un - 848) t else w))
  ∧ (∀ (s : State) (die : Nat), die = 1 ∨ die = 2 →
      let n := s.dev.get (if die = 1 then 771 else 786) CLK_PLL_STATUS.THROTTLE
      ((∃ x ∈ sensorsOf die, 105 ≤ s.dev.tempC x) →
        (s.dev.flag die PWR_DIE_CFG.THROTTLE_EN = true → n < 8 →
          (∀ t, s.dev.pwr.throttledAt.get? [die] = some t → t + 1000000 ≤ s.dev.now) →
          Makes (.throttle die) s (s.dev.throttleTo die (n + 1) (n == 0)))
        ∧ (s.dev.flag die PWR_DIE_CFG.THROTTLE_EN = false ∨ 8 ≤ n → Makes (.throttle die) s s.dev))
      ∧ ((∀ x ∈ sensorsOf die, s.dev.tempC x ≤ 102) → 0 < n →
          (∀ t, s.dev.pwr.throttledAt.get? [die] = some t → t + 10000000 ≤ s.dev.now) →
          Makes (.throttle die) s (s.dev.throttleTo die (n - 1) (n == 1))))
  ∧ (∀ (d : Dev) (n : Nat), n ≤ 8 →
      (let b := d.throttleTo 1 n false
       b.get 771 CLK_PLL_STATUS.THROTTLE = n ∧ b.get 772 CLK_PLL_STATUS.THROTTLE = n
       ∧ b.hasRaised 816 0x11 (leBytes 1 1 ++ leBytes 1 n))
      ∧ (let b := d.throttleTo 2 n false
         b.get 786 CLK_PLL_STATUS.THROTTLE = n ∧ b.hasRaised 832 0x11 (leBytes 1 2 ++ leBytes 1 n)))
  ∧ (∀ (d : Dev) (k : Nat) (t : Int), -128 ≤ t → t ≤ 127 →
      let e := d.set (uSTK k) DRC_STACK_STATUS.TEMP_C (ofSigned 8 t)
      let fast := d.flag (uSTK k) DRC_STACK_STATUS.REFRESH_2X
      d.stackTemp k t =
        if fast = false ∧ 85 < t then (e.set (uSTK k) DRC_STACK_STATUS.REFRESH_2X 1).raise (uSTK k) 0x15 (leBytes 1 1 ++ leBytes 1 (ofSigned 8 t))
        else if fast = true ∧ t ≤ 83 then
          (e.set (uSTK k) DRC_STACK_STATUS.REFRESH_2X 0).raise (uSTK k) 0x15 (leBytes 1 0 ++ leBytes 1 (ofSigned 8 t))
        else e)
  ∧ (∀ (s : State) (x : Nat), x ∈ sensorsOf 1 ∨ x ∈ sensorsOf 2 → 115 ≤ s.dev.tempC x →
      Makes .thermTrip s (({ s.dev with pwr := { s.dev.pwr with tripped := true } } : Dev).warm (2 ^ 4)))
  ∧ (∀ (s : State) (bridge : Nat), bridge < 4 → s.dev.svc (4 + bridge) ≠ sRETIRED →
      let d := s.dev.setSvc (4 + bridge) sRETIRED
      Makes (.bridgeWireRepair bridge false) s
        (((d.setCapacity 3 (250000 * d.memberCount bridgeUnits)).sparesExhausted 3 (4 + bridge)).groupLost (4 + bridge))
      ∧ ((∀ u ∈ bridgeUnits, u ≠ 4 + bridge → s.dev.svc u = sACTIVE ∧ s.dev.relieved u = false) →
          Makes (.bridgeWireRepair bridge false) s ((d.setCapacity 3 750000).sparesExhausted 3 (4 + bridge)))
      ∧ Makes (.bridgeWireRepair bridge true) s s.dev)

/-- COLD_RESET leaves flash, fuses and OTP and, while VDD_AON stays up, the last cause in PREV_CAUSE. A warm reset also keeps the
always-on log, the retired list and a trip. SOFT_RESET does nothing without its key; with it, the host interface keeps its MSI-X
table. Registers other than the kept ones read their reset values, and a retired unit reads RETIRED.
Forms said to complete, each with the next state it answers: coldReset, warmReset, softReset. -/
def Obligations.ResetsClearAndKeep : Prop :=
  (∀ (s : State) (aonLost : Bool), ∃ b, Makes (.coldReset aonLost) s b ∧ b.get 0 PWR_RESET_CAUSE.CAUSE = 1
    ∧ b.get 0 PWR_RESET_CAUSE.PREV_CAUSE = (if aonLost then 0 else s.dev.get 0 PWR_RESET_CAUSE.CAUSE % 65536)
    ∧ b.fw = s.dev.fw.kept ∧ b.rid = {} ∧ b.errLog = [] ∧ b.agents = [] ∧ b.fwd = {} ∧ b.sch = {} ∧ b.fab = {} ∧ b.dram = {}
    ∧ b.svcs = {} ∧ b.pwr = {} ∧ b.ev = {} ∧ b.hif = { dma := s.dev.hif.dma })
  ∧ (∀ (s : State) (bitNo : Nat), bitNo = 1 ∨ bitNo = 7 → Makes (.warmReset bitNo) s (s.dev.warm (2 ^ bitNo)))
  ∧ (∀ (d : Dev) (cause : Nat), cause < 65536 → let b := d.warm cause
      b.get 0 PWR_RESET_CAUSE.CAUSE = cause ∧ b.get 0 PWR_RESET_CAUSE.PREV_CAUSE = d.get 0 PWR_RESET_CAUSE.CAUSE % 65536
      ∧ b.rid = { log := d.rid.log, logNext := d.rid.logNext, retired := d.rid.retired }
      ∧ (∀ u ∈ d.rid.retired, b.svc u = sRETIRED) ∧ b.fw = d.fw.kept ∧ b.pwr.tripped = d.pwr.tripped ∧ b.errLog = []
      ∧ b.fwd = {} ∧ b.hif = { dma := d.hif.dma })
  ∧ (∀ (s : State) (key : Nat), key ≠ 0xA5 → Makes (.softReset key) s s.dev)
  ∧ (∀ s : State, ∃ b, Makes (.softReset 0xA5) s b ∧ b.get 0 PWR_RESET_CAUSE.CAUSE = 4 ∧ b.hif.msix = s.dev.hif.msix
      ∧ (∀ u ∈ b.rid.retired, b.svc u = sRETIRED) ∧ b.errLog = [] ∧ b.fwd = {} ∧ b.hif.inflight = [])

/-! ### Front-panel ports, modules and time -/

/-- TRAINING_CONVERGED of a port in use takes TRAINING to ALIGNING; ALIGNMENT_LOCK takes ALIGNING to UP_PENDING with its lanes
locked; neither happens while the port's NPLL has stopped; UP_DEBOUNCE_EXPIRE takes UP_PENDING to UP, which its counters see, clears TRAIN_FAILS and raises LINK_UP; TRAIN_TIMEOUT counts an attempt and starts
the next, or ends in TRAIN_FAILED with DOWN_CAUSE 8, once per episode counted and raised. LINK_LOSS in UP_PENDING goes to TRAINING,
counts and raises LINK_DOWN with its cause; in UP the frames under way are cut first. Events in other states change nothing.
Forms said to complete, each with the next state it answers: trainingConverged, trainTimeout, alignmentLock, upDebounceExpire,
linkLoss, trainRetryExpire. -/
def Obligations.PortsTrainAndComeUp : Prop :=
  (∀ (s : State) (p : Nat), s.dev.portInUse p = true →
    (s.dev.linkState p = lsTRAINING → s.dev.pllStopped (780 + p / 32) = false →
      Makes (.trainingConverged p) s ((s.dev.set (uPort p) PRT_STATUS.LINK_STATE lsALIGNING).set (uPort p) PRT_STATUS.LANE_LOCK 0))
    ∧ (s.dev.linkState p = lsALIGNING → s.dev.pllStopped (780 + p / 32) = false →
        let m := 2 ^ s.dev.portLanes p - 1
        Makes (.alignmentLock p) s (((s.dev.set (uPort p) PRT_STATUS.LINK_STATE lsUP_PENDING).set (uPort p) PRT_STATUS.LANE_LOCK
          m).set (uPort p) PRT_STATUS.LANE_SD m))
    ∧ (s.dev.pllStopped (780 + p / 32) = true →
        Makes (.trainingConverged p) s s.dev ∧ Makes (.alignmentLock p) s s.dev)
    ∧ (s.dev.linkState p = lsUP_PENDING →
        let ms := (s.dev.now - (s.dev.portX p).trainStart) / 1000000
        let d := (((s.dev.setPortX p { s.dev.portX p with episode := false }).set (uPort p) PRT_STATUS.TRAIN_FAILS 0).set (uPort p)
          PRT_STATUS.LINK_STATE lsUP).rises (uPort p) 0x26
        Makes (.upDebounceExpire p) s
          ((d.raise (uPort p) 0x10 (leBytes 1 (d.octetMode p) ++ leBytes 1 (d.laneRate p) ++ leBytes 2 ms)).holdReachUp p)))
  ∧ (∀ (s : State) (p lanes : Nat), s.dev.portInUse p = true → s.dev.linkState p = lsTRAINING ∨ s.dev.linkState p = lsALIGNING →
      let d := s.dev.bumpSat (uPort p) PRT_STATUS.TRAIN_FAILS
      let fails := d.get (uPort p) PRT_STATUS.TRAIN_FAILS
      (fails < d.act (uPort p) PRT_TIMERS.TRAIN_ATTEMPTS → Makes (.trainTimeout p lanes) s (d.setLink p lsTRAINING 0))
      ∧ (d.act (uPort p) PRT_TIMERS.TRAIN_ATTEMPTS ≤ fails → (s.dev.portX p).episode = false →
          Makes (.trainTimeout p lanes) s ((((d.setLink p lsTRAIN_FAILED 8).setPortX p { s.dev.portX p with episode := true }).bump
            (uPort p) PRT_TRAIN_FAIL.COUNT).raise (uPort p) 0x12 (leBytes 1 fails ++ leBytes 1 lanes)))
      ∧ (d.act (uPort p) PRT_TIMERS.TRAIN_ATTEMPTS ≤ fails → (s.dev.portX p).episode = true →
          Makes (.trainTimeout p lanes) s (d.setLink p lsTRAIN_FAILED 8)))
  ∧ (∀ (s : State) (p cause : Nat) (rx tx : Bool), s.dev.portInUse p = true → cause ≠ 0 →
      (s.dev.linkState p = lsUP_PENDING →
        let d := ((s.dev.setPortX p { s.dev.portX p with trainStart := s.dev.now }).set (uPort p) PRT_STATUS.LINK_STATE
          lsTRAINING).set (uPort p) PRT_STATUS.DOWN_CAUSE cause
        Makes (.linkLoss p cause rx tx) s (((d.bump (uPort p) PRT_LINK_DOWN.COUNT).raise (uPort p) 0x11
          (leBytes 1 cause ++ leBytes 1 lsUP_PENDING)).set (uPort p) PRT_STATUS.LANE_LOCK 0))
      ∧ (s.dev.linkState p = lsUP →
          let d := s.dev.cutFrames p rx tx
          Makes (.linkLoss p cause rx tx) s
            ((d.setPortX p { d.portX p with trainStart := d.now }).setLink p lsTRAINING cause)))
  ∧ (∀ (s : State) (p : Nat), s.dev.portInUse p = true → s.dev.linkState p = lsTRAIN_FAILED →
      Makes (.trainRetryExpire p) s (((s.dev.setPortX p { s.dev.portX p with trainStart := s.dev.now }).set (uPort p)
        PRT_STATUS.TRAIN_FAILS 0).setLink p lsTRAINING 0))
  ∧ (∀ (s : State) (p : Nat), s.dev.linkState p = lsDISABLED →
      Makes (.trainingConverged p) s s.dev ∧ Makes (.alignmentLock p) s s.dev ∧ Makes (.upDebounceExpire p) s s.dev
      ∧ Makes (.trainTimeout p 0) s s.dev ∧ Makes (.linkLoss p 3 true true) s s.dev ∧ Makes (.trainRetryExpire p) s s.dev)

/-- Setting ADMIN_UP of a released port with a good lane map, whose unit is not out of service, starts attempt 1 where its module is
ready or MEDIA is KR, and goes to NO_MODULE otherwise; of any other port it does nothing more. Clearing it takes a port in use to
DISABLED with cause 1, the frame being sent finished. RETRAIN of a port in UP, TRAINING or TRAIN_FAILED starts again, its frames cut, and
lets a failed module try again. An invalid
lane map disables the octet's ports with cause 11. PORT_CFG without FORCE is refused while a port of the octet is not DISABLED, and
else changes the octet. The flags of a port in UP are set and raised as they change.
Forms said to complete, each with the next state it answers: retrain, portAdminUp, portAdminDown, laneMapWrite, marginLow,
fecDegraded, portCfg. -/
def Obligations.PortsAreConfigured : Prop :=
  (∀ (s : State) (p : Nat), p < 128 → s.dev.portInUse p = true → s.dev.released p = true → s.dev.lanesOk p = true →
    s.dev.stopped (uPort p) = false → s.dev.linkState p = lsDISABLED →
    let d := s.dev.set (uPort p) PRT_CTRL.ADMIN_UP 1
    (s.dev.moduleReady p = true ∨ s.dev.get (uPort p) PRT_MODE.MEDIA = 2 → Makes (.portAdminUp p) s (d.startTraining p 0))
    ∧ (s.dev.moduleReady p = false → s.dev.get (uPort p) PRT_MODE.MEDIA ≠ 2 →
        Makes (.portAdminUp p) s (d.setLink p lsNO_MODULE 0)))
  ∧ (∀ (s : State) (p : Nat), p < 128 → s.dev.portInUse p = false ∨ s.dev.released p = false ∨ s.dev.lanesOk p = false
      ∨ s.dev.stopped (uPort p) = true → Makes (.portAdminUp p) s (s.dev.set (uPort p) PRT_CTRL.ADMIN_UP 1))
  ∧ (∀ (s : State) (p : Nat), p < 128 → s.dev.portInUse p = true →
      let d := s.dev.set (uPort p) PRT_CTRL.ADMIN_UP 0
      Makes (.portAdminDown p) s (d.downPort p 1 true)
      ∧ (s.dev.linkState p ≠ lsUP → s.dev.lanesOk p = true → Makes (.portAdminDown p) s (d.disablePort p 1)))
  ∧ (∀ (s : State) (p : Nat), s.dev.portInUse p = true →
      (∀ sl, s.dev.cageOf p = some sl → (s.dev.slot sl).fault = false) →
      (s.dev.linkState p = lsUP → Makes (.retrain p) s ((s.dev.interrupt p false).startTraining p 1))
      ∧ (s.dev.linkState p = lsTRAIN_FAILED ∨ s.dev.linkState p = lsTRAINING → Makes (.retrain p) s (s.dev.startTraining p 0))
      ∧ (s.dev.linkState p ∈ [lsDISABLED, lsNO_MODULE, lsALIGNING, lsUP_PENDING] → Makes (.retrain p) s s.dev))
  ∧ (∀ (s : State) (p sl : Nat), s.dev.portInUse p = true → s.dev.cageOf p = some sl → (s.dev.slot sl).fault = true →
      s.dev.linkState p = lsNO_MODULE →
      Makes (.retrain p) s (s.dev.setSlot sl { s.dev.slot sl with fault := false, tried := s.dev.now }))
  ∧ (∀ (s : State) (p v : Nat), p < 128 → p % 8 = 0 →
      let u := uPort p
      let d := (((s.dev.set u PRT_LANE_MAP.RX_INV (bits v 63 56)).set u PRT_LANE_MAP.TX_INV (bits v 55 48)).set u
        PRT_LANE_MAP.RX_MAP (bits v 47 24)).set u PRT_LANE_MAP.TX_MAP (bits v 23 0)
      let used := (octetPorts p).filter (fun q => s.dev.portInUse q)
      Makes (.laneMapWrite p v) s
        (if laneMapOk (bits v 23 0) = true ∧ laneMapOk (bits v 47 24) = true then d.settlePorts used
         else used.foldl (fun d q => d.downPort q 11 false) d))
  ∧ (∀ (s : State) (c : HCmd), let lead := c.par 0 6 0
      c.accepted s.dev 0x0901 c.portCfgParams →
      (s.dev.octetBusy lead = true → c.par 0 7 7 = 0 →
        Completes (.portCfg c) s c.ticket (.fail stUNIT_UNAVAILABLE) s.dev)
      ∧ (s.dev.octetBusy lead = false ∨ c.par 0 7 7 ≠ 0 →
          let d := (octetPorts lead).foldl (fun d p =>
            ((((d.set (uPort p) PRT_MODE.MEDIA (c.par 2 1 0)).set (uPort p) PRT_MODE.AN_EN (c.par 2 2 2)).set (uPort p)
              PRT_MODE.LT_EN (c.par 2 3 3)).set (uPort p) PRT_MODE.MAX_FRAME (c.par 4 13 0)))
            ((c.begun s.dev).octetChange lead (c.par 1 2 0) (c.par 1 4 4) (c.par 0 7 7 == 1))
          Makes (.portCfg c) s ((d.laneMapWrite lead (c.par 8 63 0)).finish c.ticket .ok)))
  ∧ (∀ (s : State) (p lanes : Nat) (on : Bool), s.dev.portInUse p = true → s.dev.linkState p = lsUP →
      (s.dev.flag (uPort p) PRT_STATUS.MARGIN_LOW = !on → Makes (.marginLow p lanes on) s
        ((s.dev.setFlag (uPort p) PRT_STATUS.MARGIN_LOW on).raise (uPort p) 0x14 (leBytes 1 lanes ++ leBytes 1 on.toNat)))
      ∧ (s.dev.flag (uPort p) PRT_STATUS.FEC_DEGRADED = !on → Makes (.fecDegraded p on) s
          ((s.dev.setFlag (uPort p) PRT_STATUS.FEC_DEGRADED on).raise (uPort p) 0x13 (leBytes 1 on.toNat)))
      ∧ (s.dev.flag (uPort p) PRT_STATUS.MARGIN_LOW = on → Makes (.marginLow p lanes on) s s.dev))

/-- START and COMMIT of PORT_DRAIN take NONE to REQUESTED and DRAINING, CANCEL goes back with outcome 1, RELEASE leaves DRAINED, and a
step the state does not offer completes with UNIT_UNAVAILABLE. A quiet port reaches DRAINED and completes its COMMIT with OK; one
that has drained for DRAIN_MAX_S reaches it with outcome 3 and TIMEOUT; its link goes down with cause 9 (11 under an invalid lane map).
While HEADLESS a request goes on or is cancelled by
HEADLESS_ACT, logged. A button press acts on every port of the cage.
Forms said to complete, each with the next state it answers: buttonPressed, portDrain, drainHostWaitExpire, drainQuiet,
drainMaxExpire. -/
def Obligations.PortsDrain : Prop :=
  (∀ (s : State) (c : HCmd), let p := c.par 0 6 0
    c.accepted s.dev 0x0902 c.portDrainParams → s.dev.portInUse p = true →
    (c.par 1 1 0 = 0 → s.dev.drainState p = 0 → Makes (.portDrain c) s (((c.begun s.dev).setDrain p 1 0).finish c.ticket .ok))
    ∧ (c.par 1 1 0 = 1 → s.dev.drainState p ≤ 1 → Makes (.portDrain c) s
        ((((c.begun s.dev).setPortX p { s.dev.portX p with commit := some c.ticket }).beginWatch p).noteStarted c.ticket))
    ∧ (c.par 1 1 0 = 2 → s.dev.drainState p = 1 ∨ s.dev.drainState p = 2 →
        Makes (.portDrain c) s (((c.begun s.dev).cancelDrain p 1).finish c.ticket .ok))
    ∧ (c.par 1 1 0 = 3 → s.dev.drainState p = 3 →
        Makes (.portDrain c) s (((c.begun s.dev).releaseDrain p).finish c.ticket .ok))
    ∧ (c.par 1 1 0 = 0 ∧ s.dev.drainState p ≠ 0 ∨ c.par 1 1 0 = 1 ∧ 2 ≤ s.dev.drainState p
        ∨ c.par 1 1 0 = 2 ∧ (s.dev.drainState p = 0 ∨ 3 ≤ s.dev.drainState p) ∨ c.par 1 1 0 = 3 ∧ s.dev.drainState p ≠ 3 →
        Completes (.portDrain c) s c.ticket (.fail stUNIT_UNAVAILABLE) s.dev))
  ∧ (∀ (s : State) (c : HCmd), c.accepted s.dev 0x0902 c.portDrainParams → s.dev.portInUse (c.par 0 6 0) = false →
      Completes (.portDrain c) s c.ticket (.fail stUNIT_UNAVAILABLE) s.dev)
  ∧ (∀ (s : State) (p : Nat), s.dev.portInUse p = true → s.dev.drainState p = 2 → s.dev.portQueues p = [] →
      max (s.dev.portX p).watchFrom (s.dev.sch.lastEnq.getD 0 [p]) + s.dev.act (uPort p) PRT_DRAIN.QUIET_MS * 1000000 ≤ s.dev.now →
      Makes (.drainQuiet p) s ((((s.dev.setLpmode p true).downPort p 9 true).setDrain p 3 0).endCommit p .ok))
  ∧ (∀ (s : State) (p : Nat), s.dev.portInUse p = true → s.dev.drainState p = 2 →
      (s.dev.portX p).watchFrom + s.dev.act (uPort p) PRT_DRAIN.DRAIN_MAX_S * 1000000000 ≤ s.dev.now →
      Makes (.drainMaxExpire p) s
        ((((s.dev.setLpmode p true).downPort p 9 true).setDrain p 3 3).endCommit p (.fail stTIMEOUT)))
  ∧ (∀ (d : Dev) (p cause : Nat) (finish : Bool),
      (d.linkState p ≠ lsUP → d.downPort p cause finish = d.disablePort p (d.causeAt p cause))
      ∧ (d.portInUse p = true → d.lanesOk p = true → d.causeAt p cause = cause)
      ∧ (d.portInUse p = true → d.lanesOk p = false → d.causeAt p cause = 11))
  ∧ (∀ (s : State) (p : Nat), s.dev.portInUse p = true → s.dev.drainState p = 1 → s.dev.flag 0 HDL_STATUS.HEADLESS = true →
      s.dev.get 0 HDL_SINCE.TIME + s.dev.act (uPort p) PRT_DRAIN.HOST_WAIT_S * 1000000000 ≤ s.dev.now →
      Makes (.drainHostWaitExpire p) s
        (if s.dev.flag (uPort p) PRT_DRAIN.HEADLESS_ACT = true then (s.dev.beginWatch p).logDecision 1 (uPort p) 0
         else (s.dev.cancelDrain p 4).logDecision 1 (uPort p) 4))
  ∧ (∀ (s : State) (sl : Nat), sl < 128 → (s.dev.slot sl).buttonN = false → (s.dev.slot sl).pressed = false →
      (s.dev.slot sl).pressedFrom + 20000000 ≤ s.dev.now → s.dev.chainFailed (sl / 64) = false →
      let d := (s.dev.setSlot sl { s.dev.slot sl with pressed := true }).raiseCage sl 0x19 (leBytes 1 sl)
      Makes (.buttonPressed sl) s ((d.cagePorts sl).foldl (fun d p => d.drainButton p sl) d))
  ∧ (∀ (d : Dev) (p new outcome : Nat), new < 4 → let b := d.setDrain p new outcome
      b.drainState p = new ∧ b.hasRaised (uPort p) 0x1A (leBytes 1 (d.drainState p) ++ leBytes 1 new ++ leBytes 1 outcome))

/-- A good SGPIO_SCAN puts each slot's four bits into it, ends a failure and forgets the bad run; a bad one is counted and changes no
slot. A transaction selects its slot alone. A chain with 16 bad scans in a row is failed. Insertion after 200 ms low, removal after two scans high, readiness, interrupts
and faults of a module change its slot, raise their event on the cage's ports and move them. MODULE_ACCESS completes as the module
answered, unless its write needs HOST_MODULE or no module is there.
Forms said to complete, each with the next state it answers: sgpioScan, chainFailed, moduleRemoved, moduleInserted, moduleInt,
moduleReady, moduleFault, moduleAccess. -/
def Obligations.ModulesAndChains : Prop :=
  (∀ (s : State) (stream : Nat), s.dev.flag 1 FP_SGPIO_CFG.EN = true → stream % 16 = 5 →
    ∀ ch < 2, ∃ b, Makes (.sgpioScan ch stream) s b ∧ b.chainFailed ch = false ∧ b.panel.badRun.get? [ch] = none
      ∧ (∀ i < 64, b.slot (64 * ch + i) = (s.dev.slot (64 * ch + i)).latch (bits stream (4 * i + 7) (4 * i + 4)) s.dev.now)
      ∧ (∀ i, i / 64 ≠ ch → b.slot i = s.dev.slot i) ∧ b = { s.dev with fields := b.fields, panel := b.panel })
  ∧ (∀ (s : State) (stream ch : Nat), s.dev.flag 1 FP_SGPIO_CFG.EN = true → stream % 16 ≠ 5 → ch < 2 →
      let count := if ch = 0 then FP_SGPIO_BAD.CHAIN_A_BAD else FP_SGPIO_BAD.CHAIN_B_BAD
      ∃ b, Makes (.sgpioScan ch stream) s b ∧ b.panel.slots = s.dev.panel.slots
        ∧ b.get 1 count = (s.dev.get 1 count + 1) % 2 ^ count.width
        ∧ b.panel.badRun.getD 0 [ch] = s.dev.panel.badRun.getD 0 [ch] + 1)
  ∧ (∀ (s : State) (stream ch : Nat), s.dev.flag 1 FP_SGPIO_CFG.EN = false → Makes (.sgpioScan ch stream) s s.dev)
  ∧ (∀ (s : State) (ch : Nat), ch < 2 → 16 ≤ s.dev.panel.badRun.getD 0 [ch] → s.dev.chainFailed ch = false →
      let d := s.dev.set 1 (if ch = 0 then FP_SGPIO_CFG.CHAIN_A_FAILED else FP_SGPIO_CFG.CHAIN_B_FAILED) 1
      Makes (.chainFailed ch) s ((((List.range 64).map (· + 64 * ch)).filter (fun p => s.dev.portInUse p)).foldl
        (fun d p => d.raise (uPort p) 0x1C (leBytes 1 ch)) d))
  ∧ (∀ (s : State) (sl : Nat), sl < 128 → let x := s.dev.slot sl
      (x.present = true → 2 ≤ x.highScans → ∀ rx tx,
        let d := ((s.dev.setSlot sl { x with present := false, ready := false, fault := false }).showModule sl).raiseCage sl 0x16
          (leBytes 1 sl)
        Makes (.moduleRemoved sl rx tx) s ((d.cagePorts sl).foldl (fun d p => d.removePort p rx tx) d))
      ∧ (x.present = false → x.presentN = false → x.lowFrom + 200000000 ≤ s.dev.now →
          let d := ((s.dev.setSlot sl { x with present := true, ready := false, fault := false, tried := s.dev.now }).showModule
            sl).raiseCage sl 0x15 (leBytes 1 sl)
          Makes (.moduleInserted sl) s ((d.cagePorts sl).foldl (fun d p =>
            if d.drainState p = 3 ∧ d.flag (uPort p) PRT_DRAIN.AUTO_RELEASE then d.releaseDrain p else d) d))
      ∧ (x.present = true → x.intN = false → s.dev.fwManages sl = true → ∀ flags state,
          let d := s.dev.i2cBegin sl
          Makes (.moduleInt sl flags state) s
            ((d.setSlot sl { d.slot sl with intN := true }).raiseCage sl 0x17 (slice flags 0 8 ++ leBytes 1 state)))
      ∧ (x.present = true → x.fault = false →
          let e := if s.dev.fwManages sl = true then s.dev.i2cBegin sl else s.dev
          let d := (e.setSlot sl { e.slot sl with ready := true }).showModule sl
          Makes (.moduleReady sl) s (d.settlePorts (d.cagePorts sl)))
      ∧ (x.present = true → s.dev.fwManages sl = true →
          ∀ why, (why = 0 → x.ready = false ∧ x.tried + 10000000000 ≤ s.dev.now) →
          let e := if why = 0 then s.dev else s.dev.i2cBegin sl
          let d := ((e.setSlot sl { e.slot sl with ready := false, fault := true }).showModule sl).raiseCage sl 0x18 (leBytes 1 why)
          Makes (.moduleFault sl why) s ((d.cagePorts sl).foldl (fun d p =>
            if d.linkState p = lsDISABLED then d
            else ((d.interrupt p false).setPortX p { (d.interrupt p false).portX p with episode := false }).setLink p lsNO_MODULE
              12) d)))
  ∧ (∀ (s : State) (c : HCmd) (a : I2cAnswer), let sl := c.par 0 6 0
      c.accepted s.dev 0x0903 c.moduleAccessParams →
      (c.par 0 7 7 = 1 → guardedRun (c.par 2 7 0) (c.par 3 7 0) (c.par 4 7 0) = true → s.dev.fwManages sl = true →
        Completes (.moduleAccess c a) s c.ticket (.fail stPERMISSION) s.dev)
      ∧ (c.par 0 7 7 = 0 → (s.dev.slot sl).present = false →
          Completes (.moduleAccess c a) s c.ticket (.fail stUNIT_UNAVAILABLE) s.dev)
      ∧ (c.par 0 7 7 = 1 → guardedRun (c.par 2 7 0) (c.par 3 7 0) (c.par 4 7 0) = false ∨ s.dev.fwManages sl = false →
          ((s.dev.slot sl).present = false → Completes (.moduleAccess c a) s c.ticket (.fail stUNIT_UNAVAILABLE) s.dev)
          ∧ ((s.dev.slot sl).present = true → c.readOk = true → ∀ bs, a = .done bs →
              Makes (.moduleAccess c a) s (((c.begun s.dev).i2cBegin sl).finish c.ticket .ok))
          ∧ ((s.dev.slot sl).present = true → let d := (c.begun s.dev).i2cBegin sl
              (a = .busy → Completes (.moduleAccess c a) s c.ticket (.fail stRETRY_LATER) s.dev)
              ∧ (∀ bs, c.readOk = false → a = .done bs →
                  Makes (.moduleAccess c a) s (d.dmaFailed.finish c.ticket (.fail stDATA_ERROR)))
              ∧ (a = .refused → Makes (.moduleAccess c a) s (d.finish c.ticket (.fail stDATA_ERROR)))
              ∧ (a = .stretched → Makes (.moduleAccess c a) s (d.finish c.ticket (.fail stTIMEOUT)))))
      ∧ (c.par 0 7 7 = 0 → (s.dev.slot sl).present = true →
          let d := (c.begun s.dev).i2cBegin sl
          (a = .busy → Completes (.moduleAccess c a) s c.ticket (.fail stRETRY_LATER) s.dev)
          ∧ (a = .refused → Makes (.moduleAccess c a) s (d.finish c.ticket (.fail stDATA_ERROR)))
          ∧ (a = .stretched → Makes (.moduleAccess c a) s (d.finish c.ticket (.fail stTIMEOUT)))
          ∧ (c.writeOk = true → ∀ bs, a = .done bs → Makes (.moduleAccess c a) s
              ((d.dataWrite c.ticket (c.par 8 63 0) (slice bs 0 (c.par 4 7 0))).finish c.ticket .ok))))
  ∧ (∀ (d : Dev) (sl : Nat), sl < 128 → let b := d.i2cBegin sl
      (b.slot sl).selectN = false ∧ (∀ i, i / 16 = sl / 16 → i ≠ sl → (b.slot i).selectN = true)
      ∧ (∀ i, b.slot i = { d.slot i with selectN := (b.slot i).selectN }) ∧ b = { d with panel := b.panel })

/-- LED_FRAME, while enabled, sends a stream whose byte *p* is 0xFF for every port under LAMP_TEST and, without it, 0x00 for a port
in DRAINED; nothing but the stream changes.
Forms said to complete, each with the next state it answers: ledFrame. -/
def Obligations.LedStreamOfDrainedPortsAndLampTest : Prop :=
  ∀ s : State, s.dev.flag 1 FP_LED_CFG.EN = true →
    ∃ b, Makes .ledFrame s b
      ∧ (s.dev.flag 1 FP_LED_CFG.LAMP_TEST = true → ∀ p < 128, b.panel.leds / 256 ^ p % 256 = 0xFF)
      ∧ (s.dev.flag 1 FP_LED_CFG.LAMP_TEST = false → ∀ p < 128, s.dev.drainState p = 3 → b.panel.leds / 256 ^ p % 256 = 0)
      ∧ b = { s.dev with panel := { s.dev.panel with leds := b.panel.leds } }

/-- An enabled PPS_OUT rises within 4 ns of a whole second plus OUT_OFFSET, and not elsewhere, and is high for OUT_WIDTH_US. PPS_IN of the selected edge is captured and counted; a good message that ended 1 ms or more
before it loads device time with IN_LOAD set, a later one counts in TOD_LATE. TOD_IN_MESSAGE keeps a good message and counts a bad
one. TOD_OUT_MESSAGE sends 24 bytes that are themselves a good message naming the next second, and its SEQ counts up.
Forms said to complete, each with the next state it answers: ppsOutEdge, ppsInEdge, todOutMessage, todInMessage. -/
def Obligations.PulsesAndTimeOfDay : Prop :=
  (∀ s : State, (s.dev.flag 1 FP_PPS_CFG.OUT_EN = true → s.dev.atSecond = true →
      let d : Dev := { s.dev with panel := { s.dev.panel with ppsOut := some s.dev.now } }
      Makes .ppsOutEdge s d ∧ (d.ppsLevel = true ↔ 0 < d.act 1 FP_PPS_CFG.OUT_WIDTH_US))
    ∧ (s.dev.atSecond = false → Makes .ppsOutEdge s s.dev))
  ∧ (∀ (s : State) (rising : Bool), s.dev.flag 1 FP_PPS_CFG.IN_EN = true →
      (s.dev.get 1 FP_PPS_CFG.IN_EDGE = 0 ↔ rising = true) →
      let d := ((s.dev.set 1 FP_PPS_IN_TS.TIME s.dev.now).set 1 FP_PPS_IN_INFO.FRAC s.dev.frac).bump 1 FP_PPS_IN_INFO.COUNT
      (s.dev.panel.tod = none → Makes (.ppsInEdge rising) s d)
      ∧ ∀ m, s.dev.panel.tod = some m →
          let e : Dev := { d with panel := { d.panel with tod := none } }
          (s.dev.now < m.stop + 1000000 → Makes (.ppsInEdge rising) s (e.bump 1 FP_TOD_ERR.TOD_LATE))
          ∧ (m.stop + 1000000 ≤ s.dev.now → s.dev.flag 1 FP_TOD_CFG.IN_LOAD = true →
              Makes (.ppsInEdge rising) s { e with
                now := (m.seconds * 1000000000 + 2 ^ 64 - Config.ppsInDelay % 2 ^ 64) % 2 ^ 64, frac := 0 })
          ∧ (m.stop + 1000000 ≤ s.dev.now → s.dev.flag 1 FP_TOD_CFG.IN_LOAD = false → Makes (.ppsInEdge rising) s e))
  ∧ (∀ (s : State) (rising : Bool), s.dev.flag 1 FP_PPS_CFG.IN_EN = false
      ∨ ¬ (s.dev.get 1 FP_PPS_CFG.IN_EDGE = 0 ↔ rising = true) → Makes (.ppsInEdge rising) s s.dev)
  ∧ (∀ (s : State) (b : List Byte), (s.dev.flag 1 FP_TOD_CFG.IN_EN = false → Makes (.todInMessage b) s s.dev)
      ∧ (s.dev.flag 1 FP_TOD_CFG.OUT_EN = false → Makes .todOutMessage s s.dev))
  ∧ (∀ (s : State) (b : List Byte), s.dev.flag 1 FP_TOD_CFG.IN_EN = true →
      (todOk b = true →
        let d := (s.dev.set 1 FP_TOD_IN.SECONDS (leAt b 4 6)).set 1 FP_TOD_IN.SEQ (leAt b 0x12 2)
        Makes (.todInMessage b) s { d with panel := { d.panel with tod := some ⟨leAt b 4 6, s.dev.now⟩ } })
      ∧ (todOk b = false → Makes (.todInMessage b) s (s.dev.bump 1 FP_TOD_ERR.TOD_BAD)))
  ∧ (∀ s : State, s.dev.flag 1 FP_TOD_CFG.OUT_EN = true →
      ∃ b, Makes .todOutMessage s b ∧ b.panel.todOut.length = 24 ∧ leAt b.panel.todOut 0 2 = 0x4B5A
        ∧ leAt b.panel.todOut 4 6 = (s.dev.now / 1000000000 + 1) % 2 ^ 48
        ∧ leAt b.panel.todOut 0x16 2 = crc16 (b.panel.todOut.take 22)
        ∧ b = { s.dev with panel := { s.dev.panel with todOut := b.panel.todOut, todSeq := (s.dev.panel.todSeq + 1) % 65536 } })

/-! ### Frames, flumes, statistics and classification -/

/-- FRAME_RECEIVED does nothing on a port that is not UP. On one that is, with buffers for the body: a bad FCS, fewer than 64 bytes,
more than MAX_FRAME, and a MAC control frame are each counted in their own counter, in that order, and the body is freed; any other
frame is counted with its bytes and its header copy goes to the lateral's store, and the body is freed where that store is full.
Without buffers the drop is counted.
Forms said to complete, each with the next state it answers: frameReceived. -/
def Obligations.FramesAreReceived : Prop :=
  (∀ (s : State) (p : Nat) (bytes : List Byte) (fcsOk : Bool) (sfd : Nat), s.dev.linkState p ≠ lsUP →
    Makes (.frameReceived p bytes fcsOk sfd) s s.dev)
  ∧ (∀ (s : State) (p : Nat) (bytes : List Byte) (fcsOk : Bool) (sfd : Nat), s.dev.portInUse p = true → s.dev.linkState p = lsUP →
      let un := uPort p
      let n := bytes.length + 4
      let body := s.dev.storeBody (reqLateral (latOf p)) 0 bytes 1
      (body.2 = none → Makes (.frameReceived p bytes fcsOk sfd) s (body.1.countDrop (.voq 0) 5))
      ∧ ∀ h, body.2 = some h →
          let d := body.1
          (fcsOk = false → Makes (.frameReceived p bytes fcsOk sfd) s ((d.dropRef h).bump un PRT_RX_FCS_ERR.COUNT))
          ∧ (fcsOk = true → n < 64 →
              Makes (.frameReceived p bytes fcsOk sfd) s ((d.dropRef h).bump un PRT_RX_UNDERSIZE.COUNT))
          ∧ (fcsOk = true → 64 ≤ n → d.act un PRT_MODE.MAX_FRAME < n →
              Makes (.frameReceived p bytes fcsOk sfd) s ((d.dropRef h).bump un PRT_RX_OVERSIZE.COUNT))
          ∧ (fcsOk = true → 64 ≤ n → n ≤ d.act un PRT_MODE.MAX_FRAME → beAt bytes 12 2 = 0x8808 →
              Makes (.frameReceived p bytes fcsOk sfd) s ((d.dropRef h).bump un PRT_RX_MAC_CTRL.COUNT))
          ∧ (fcsOk = true → 64 ≤ n → n ≤ d.act un PRT_MODE.MAX_FRAME → beAt bytes 12 2 ≠ 0x8808 →
              let e := (((d.bump un PRT_RX_FRAMES.COUNT).add un PRT_RX_BYTES.COUNT n).tally un 0x20 1).tally un 0x21 n
              let e := e.setPortX p { e.portX p with lastFrame := some e.now }
              let r := ({ e with draws := e.draws + 1 }).storeHdr
                ⟨p, h, bytes.length, (e.rxStamp p sfd).1, (e.rxStamp p sfd).2⟩
              Makes (.frameReceived p bytes fcsOk sfd) s (if r.2 then r.1 else r.1.dropRef h)))

/-- HEADER_DISPATCH takes the oldest waiting copy of a lateral with a free reorder slot to the ACTIVE flume with the fewest packets,
under the lateral's and the port's next numbers and the current epoch; without a slot it holds dispatch. SIPHON_SLOT_GRANT does the
same for the oldest siphon packet while its share lasts and the store has room. FLUME_PASS of an entry that is not run yet, in a flume
whose turn may send, leaves in it the record of its ending, 64 bytes under the flume's turn, and the decision of a first fragment, or
recirculates it, a fourth pass and one a full siphon queue has no room for ending in a counted drop; past the cut-off it does nothing. BUCKET_LOST runs the same pass, drops the packet with reason 9 and rebuilds the bucket, whose learned entries alone are lost.
SENTINEL_INJECT counts one sentinel per flume, changes no user entry and keeps its record.
Forms said to complete, each with the next state it answers: headerDispatch, siphonSlotGrant, flumePass, sentinelInject,
bucketLost. -/
def Obligations.FlumesRunPasses : Prop :=
  (∀ (s : State) (l : Nat) (h : HdrCopy) (rest : List HdrCopy), l < 4 → let d := s.dev.settleLateral l
    d.waiting l = h :: rest →
    (d.slotFree l = false → Makes (.headerDispatch l) s (d.holdDispatch l true))
    ∧ ∀ un, d.slotFree l = true → d.pickFlume l = some un →
        Makes (.headerDispatch l) s ((((d.holdDispatch l false).setWaiting l rest).dispatchTo l un h).showStore l))
  ∧ (∀ (s : State) (l un : Nat) (k : Pkt) (rest : List Pkt), l < 4 → let d := s.dev.settleLateral l
      d.siphonOf l = k :: rest → d.pickFlume l = some un → d.recentSiphon l < d.act uSIP SIP_CFG.SHARE_PCT * 10 →
      d.storeUsed l < 16384 →
      let e : Dev := { d with fwd := { d.fwd with
        sipTimes := d.fwd.sipTimes.insert [l] ((d.now :: d.fwd.sipTimes.getD [] [l]).take 100) } }
      let e := ((e.setSiphon l rest).bumpI uSIP SIP_PASSES.COUNT l).tallyQ uSIP 0x20 1 (selLat l)
      Makes (.siphonSlotGrant l) s ((e.setWindow un (e.window un ++ [k])).tally un 0x20 1))
  ∧ (∀ (s : State) (un q : Nat) (k : Pkt) (w : Turn), s.dev.entryOf un q = some k → k.result = none →
      s.dev.coveringTurn un q = some w → s.dev.svc un = sACTIVE ∨ s.dev.svc un = sDRAINING →
      (w.sends s.dev.now = false → ∀ o bucket table,
        Makes (.flumePass un q o) s s.dev ∧ Makes (.bucketLost un q bucket table) s s.dev)
      ∧ (w.sends s.dev.now = true →
        let d := (List.range 8).foldl (fun d j => d.tally (uStage un j) 0x20 1) s.dev
        let item (b : Dev) (y : Seen) (o : ShadowOut) : Dev :=
          (b.bankItems y (if (d.shadowsOf un).isEmpty then o else .same)).shadowItem un o
        let kept (b : Dev) (y : Seen) (hash : Nat) : Dev := match y.frag with
          | some f => if f.firstFrag = true ∧ y.later = false then b.fragWrite f.key ⟨y.act, hash⟩ else b
          | none => b
        (∀ o : ShadowOut,
          let r := d.runPass un k false
          let base := r.1.resultOf r.2.1 r.2.2.1 r.2.2.2.1
          ((∀ k', r.2.2.2.2.1 ≠ .again k') →
            let x := r.1.finalOf base r.2.2.2.2.1
            Makes (.flumePass un q o) s
              (item ((kept x.1 r.2.1 r.2.2.2.2.2).sendRecord un { r.2.1.k with colour := k.colour } x.2) r.2.1 o))
          ∧ (∀ k', r.2.2.2.2.1 = .again k' →
              let x := r.1.recirculate un base { k' with updates := r.2.1.k.updates, colour := r.2.1.k.colour, seen := r.2.1.k.seen }
              ∀ y, x.2 = some y → Makes (.flumePass un q o) s
                (item ((kept x.1 r.2.1 r.2.2.2.2.2).sendRecord un { r.2.1.k with colour := k.colour } y) r.2.1 o))
          ∧ (∀ k', r.2.2.2.2.1 = .again k' → k'.pass < 3 → (r.1.siphonOf k'.lat).length < 2048 →
              Makes (.flumePass un q o) s (item (r.1.recirculate un base
                { k' with updates := r.2.1.k.updates, colour := r.2.1.k.colour, seen := r.2.1.k.seen }).1 r.2.1 o)))
        ∧ ∀ bucket table, isLpm table = true ∨ isEm table = true →
          let r := d.runPass un k true
          let base := r.1.resultOf r.2.1 r.2.2.1 r.2.2.2.1
          r.2.2.2.2.1 = .drop 0x09
          ∧ Makes (.bucketLost un q bucket table) s (((item ((kept r.1 r.2.1 r.2.2.2.2.2).sendRecord un
                { r.2.1.k with colour := k.colour } { base with disp := 2, reason := 0x09 }) r.2.1 .same).tallyUp uTBE 0x07
                  1).rebuildBucket (table, bucket))))
  ∧ (∀ (d : Dev) (un : Nat) (base : Result) (k : Pkt), 
      (3 ≤ k.pass → d.recirculate un base k = ((d.bumpI uSIP SIP_PASS_LIMIT.COUNT k.lat).raiseOnce uSIP 0x10 0 (fun _ => leBytes 1 k.lat),
        some { base with disp := 2, reason := 0x0A }))
      ∧ (k.pass < 3 → 2048 ≤ (d.siphonOf k.lat).length → d.recirculate un base k = ((d.bumpI uSIP SIP_OVERFLOW.COUNT k.lat).raiseOnce
          uSIP 0x11 0 (fun _ => leBytes 1 k.lat), some { base with disp := 2, reason := 0x0A })))
  ∧ (∀ (d : Dev) (table bucket : Nat), let b := d.rebuildBucket (table, bucket)
      b.hasRaised uTBE 0x16 (leBytes 4 bucket ++ leBytes 1 table) ∧ b.fwd.routes = d.fwd.routes
      ∧ (isEm table = false → b.fwd.em = d.fwd.em)
      ∧ ∀ e, e ∈ d.fwd.em → e.2.learned = false → e ∈ b.fwd.em)
  ∧ (∀ (d : Dev) (un : Nat) (k : Pkt) (y : Result), let b := d.sendRecord un k y
      let k' := { k with result := some y, turn := d.turnSeq un k.latSeq }
      b = d.putPkt un { k' with record := d.recordBytes k' y } ∧ (d.recordBytes k' y).length = 64
      ∧ leAt (d.recordBytes k' y) 0 4 = k.latSeq % 2 ^ 32 ∧ leAt (d.recordBytes k' y) 4 4 = d.turnSeq un k.latSeq % 2 ^ 32)
  ∧ (∀ (s : State) (l : Nat), l < 4 → s.dev.flag 8 RID_CFG.SENTINEL_EN = true →
      let us := (flumes l).filter (fun u => s.dev.svc u == sACTIVE || s.dev.svc u == sSHADOW)
      Makes (.sentinelInject l []) s (us.foldl (fun d u =>
        let x := (List.range 8).foldl (fun d j => d.tally (uStage u j) 0x23 1) (d.bump u FLM_SENTINELS.COUNT)
        let x := x.sentinelReads u l
        { x with rid := { x.rid with sentinel := x.rid.sentinel.insert [u] (Config.sentinelRecord u x.draws) }
                 draws := x.draws + 1 }) (s.dev.tally 8 0x22 us.length)))
  ∧ (∀ (d : Dev) (u l : Nat), (d.sentinelReads u l).fwd = d.fwd ∧ (d.sentinelReads u l).dram = d.dram)

/-- RESULT_COMMIT of a record that waits: with a wrong CHECK or outside every turn it is refused and the pass is to run again; of a
packet that has committed already it is counted as a duplicate and forgotten; else it counts, and waits for release under its
port's number. PACKET_RELEASE takes the port's next number once that packet has committed, frees its reorder slot, makes its
mirror copy and does what its record says.
Forms said to complete, each with the next state it answers: resultCommit, packetRelease. -/
def Obligations.RecordsCommitAndPacketsLeave : Prop :=
  (∀ (s : State) (un q : Nat) (checkOk ackNow : Bool) (k : Pkt) (y : Result),
    (s.dev.window un).find? (fun x => x.latSeq == q && x.result.isSome) = some k → k.result = some y → k.committed = false →
    (s.dev.committedAlready k = true → Makes (.resultCommit un q checkOk ackNow) s
      ((((s.dev.bump (riderOf un) RID_REPLAY_DUP.COUNT).dropPkt un q).replayEnded q k.lat).showEpoch))
    ∧ (s.dev.committedAlready k = false → checkOk = false → Makes (.resultCommit un q checkOk ackNow) s
        (((s.dev.rejectRecord un 0).putPkt un { k with result := none }).softInput un 1))
    ∧ (s.dev.committedAlready k = false → checkOk = true → s.dev.turnCovers un q k.turn = false →
        Makes (.resultCommit un q checkOk ackNow) s ((s.dev.rejectRecord un 1).putPkt un { k with result := none }))
    ∧ (s.dev.committedAlready k = false → checkOk = true → s.dev.turnCovers un q k.turn = true →
        let d := (s.dev.bump un FLM_PASSES.COUNT).set un FLM_STATUS.LAST_COMMIT q
        let l := uLAT k.lat
        let d := if y.disp = 2 ∧ y.reason ≠ 0 then
            (d.bumpI l LAT_DROP.COUNT y.reason).tallyQ l 0x23 1 (selReason y.reason) else d
        let d : Dev := { d with fwd := { d.fwd with
          ready := d.fwd.ready.insert [k.hdr.port, k.portSeq] { k with committed := true } } }
        let d := d.replayEnded q k.lat
        Makes (.resultCommit un q checkOk ackNow) s
          (if ackNow then (((d.dropPkt un q).applyUpdates k.updates).tally un 0x21 1).showEpoch
           else (d.putPkt un { k with committed := true, acked := false }).showEpoch)))
  ∧ (∀ (s : State) (p : Nat) (k : Pkt) (y : Result), let n := s.dev.fwd.relSeq.getD 0 [p]
      s.dev.fwd.ready.get? [p, n] = some k → k.result = some y →
      let d : Dev := { s.dev with fwd := { s.dev.fwd with
        ready := s.dev.fwd.ready.erase [p, n], relSeq := s.dev.fwd.relSeq.setD 0 [p] ((n + 1) % 2 ^ 17) } }
      Makes (.packetRelease p) s (((d.freeSlot k.lat).mirrorIn k y).actReleased k y))
  ∧ (∀ (s : State) (p : Nat), s.dev.fwd.ready.get? [p, s.dev.fwd.relSeq.getD 0 [p]] = none → Makes (.packetRelease p) s s.dev)

/-- COUNTER_FLUSH of a cached pair adds its delta to the pair and empties the cache entry; with an uncorrectable copy, one in a DEAD
channel among them, the pair restarts from the delta, is marked lost, and the loss is counted and raised. CNT_READ_BLOCK writes the records of
its pairs to the host block and returns how many, and CNT_CLEAR_BLOCK flushes its pairs and zeroes them, a lost mark staying for the
next record; a fault after some of them ends either with ABORTED_FAULT.
Forms said to complete, each with the next state it answers: counterFlush, cntReadBlock, cntClearBlock. -/
def Obligations.StatisticsCounters : Prop :=
  (∀ (s : State) (i : Nat) (uncorrectable : Bool), let p := s.dev.pair i
    let bad := uncorrectable || s.dev.sideBad false (pairAddr i)
    p.cached = true → ∃ b, Makes (.counterFlush i uncorrectable) s b
      ∧ (b.pair i).cached = false ∧ (b.pair i).dPackets = 0 ∧ (b.pair i).dBytes = 0
      ∧ (b.pair i).packets = ((if bad then 0 else p.packets) + p.dPackets) % 2 ^ 64
      ∧ (b.pair i).bytes = ((if bad then 0 else p.bytes) + p.dBytes) % 2 ^ 64
      ∧ (b.pair i).lost = (p.lost || bad) ∧ (∀ j, j ≠ i → b.pair j = s.dev.pair j)
      ∧ (bad = true → b.hasRaised uDSTG 0x11 (leBytes 4 i)))
  ∧ (∀ (s : State) (c : HCmd) (bad : List Nat), c.accepted s.dev 0x0501 c.cntReadBlockParams → s.dev.svc uDSTG = sACTIVE →
      c.writeOk = true →
      let n := c.par 4 16 0
      let r := Dev.readPairs n (c.begun s.dev) (c.par 0 24 0) bad (c.par 0 25 25 == 1)
      Makes (.cntReadBlock c bad none) s
        ((r.1.dataWrite c.ticket (c.par 8 63 0) r.2.1).finish c.ticket ⟨stOK, n + r.2.2 * 2 ^ 17, 0⟩))
  ∧ (∀ (s : State) (c : HCmd) (bad : List Nat) (k : Nat), c.accepted s.dev 0x0501 c.cntReadBlockParams →
      s.dev.svc uDSTG = sACTIVE → c.writeOk = true → k < c.par 4 16 0 →
      let r := Dev.readPairs k (c.begun s.dev) (c.par 0 24 0) bad (c.par 0 25 25 == 1)
      Makes (.cntReadBlock c bad (some k)) s
        ((r.1.dataWrite c.ticket (c.par 8 63 0) r.2.1).finish c.ticket ⟨stABORTED_FAULT, k + r.2.2 * 2 ^ 17, 0⟩))
  ∧ (∀ (s : State) (c : HCmd) (bad : List Nat), c.accepted s.dev 0x0501 c.cntReadBlockParams → s.dev.svc uDSTG ≠ sACTIVE →
      Completes (.cntReadBlock c bad none) s c.ticket (.fail stUNIT_UNAVAILABLE) s.dev)
  ∧ (∀ (s : State) (c : HCmd) (fault : Option Nat), c.accepted s.dev 0x0502 c.cntClearBlockParams → s.dev.svc uDSTG = sACTIVE →
      let n := min (c.par 4 16 0) (fault.getD (c.par 4 16 0))
      let f := c.par 0 24 0
      Makes (.cntClearBlock c fault) s ((((List.range n).map (f + ·)).foldl Dev.clearPair (c.begun s.dev)).finish c.ticket
        (.fail (if n < c.par 4 16 0 then stABORTED_FAULT else stOK))))
  ∧ (∀ (d : Dev) (i : Nat), let b := d.clearPair i
      (b.pair i).packets = 0 ∧ (b.pair i).bytes = 0 ∧ (b.pair i).cached = false ∧ ((d.pair i).lost = true → (b.pair i).lost = true)
      ∧ ∀ j, j ≠ i → b.pair j = d.pair j)
  ∧ (∀ (s : State) (c : HCmd), c.accepted s.dev 0x0502 c.cntClearBlockParams → s.dev.svc uDSTG ≠ sACTIVE →
      Completes (.cntClearBlock c none) s c.ticket (.fail stUNIT_UNAVAILABLE) s.dev)

/-- With its controller ACTIVE and its partition not FAILED, RULE_WRITE puts the block's key, mask and action at its index of the
slot GEN names, in each lateral it names. RULE_INVALIDATE takes COUNT entries out. A GEN 1 write while the partition drains, and a
swap while it drains or the window is full, complete with RETRY_LATER and change nothing. RULESET_SWAP advances CUR_EPOCH, sets
ACT_EPOCH, exchanges the slots and marks the old one draining; SWAP_DONE empties that slot once no packet needs it, raises it and
completes the swap.
Forms said to complete, each with the next state it answers: ruleWrite, ruleInvalidate, rulesetSwap, swapDone. -/
def Obligations.RuleSetsAreWrittenAndSwapped : Prop :=
  (∀ (s : State) (c : HCmd), let n := 20 * 2 ^ s.dev.partWidth (c.par 0 3 0)
    let action := slice c.block (2 * n) 16
    c.accepted s.dev 0x0201 (s.dev.ruleWriteParams c) (actionOk action) → s.dev.svc uCLS = sACTIVE →
    s.dev.flagI uCLS CLS_PART_STATE.FAILED (c.par 0 3 0) = false →
    (s.dev.ruleRetry c = true → Completes (.ruleWrite c) s c.ticket (.fail stRETRY_LATER) s.dev)
    ∧ (s.dev.ruleRetry c = false → c.readOk = true →
        let p := c.par 0 3 0
        Completes (.ruleWrite c) s c.ticket .ok (((s.dev.ruleLats c).foldl (fun d l => d.putRule p (s.dev.genSlot c) l (c.par 2 15 0)
          (some ⟨leAt c.block 0 n, leAt c.block n n, action⟩)) s.dev).showValid p)))
  ∧ (∀ (s : State) (c : HCmd), c.accepted s.dev 0x0202 (s.dev.ruleInvalidateParams c) → s.dev.svc uCLS = sACTIVE →
      (s.dev.ruleRetry c = true → Completes (.ruleInvalidate c) s c.ticket (.fail stRETRY_LATER) s.dev)
      ∧ (s.dev.ruleRetry c = false →
          let p := c.par 0 3 0
          let gone (k : Key) : Bool := k.take 2 == [p, s.dev.genSlot c] && (s.dev.ruleLats c).contains (k.getD 2 0)
            && decide (c.par 2 15 0 ≤ k.getD 3 0) && decide (k.getD 3 0 < c.par 2 15 0 + c.par 4 12 0)
          Completes (.ruleInvalidate c) s c.ticket .ok (({ s.dev with fwd := { s.dev.fwd with
            rules := s.dev.fwd.rules.filter (fun e => !gone e.1) } } : Dev).showValid p)))
  ∧ (∀ (s : State) (c : HCmd), c.accepted s.dev 0x0203 (s.dev.rulesetSwapParams c) → s.dev.svc uCLS = sACTIVE →
      let p := c.par 0 3 0
      (s.dev.swapDraining p = true ∨ s.dev.oldestAge = 15 →
        Completes (.rulesetSwap c) s c.ticket (.fail stRETRY_LATER) s.dev)
      ∧ (s.dev.swapDraining p = false → s.dev.oldestAge ≠ 15 →
          let e := (s.dev.curEpoch + 1) % 16
          let d := (((s.dev.set uCLS CLS_EPOCH.CUR_EPOCH e).setI uCLS CLS_PART_STATE.ACT_EPOCH p e).setI uCLS
            CLS_PART_STATE.ACT_SLOT p (1 - s.dev.actSlot p)).setI uCLS CLS_PART_STATE.DRAINING p 1
          GoesOn (.rulesetSwap c) s
            ((({ d with fwd := { d.fwd with swaps := d.fwd.swaps ++ [⟨p, c.ticket⟩] } } : Dev).showEpoch).noteStarted c.ticket)))
  ∧ (∀ (s : State) (c : HCmd), s.dev.svc uCLS ≠ sACTIVE →
      (c.accepted s.dev 0x0201 (s.dev.ruleWriteParams c) (actionOk (slice c.block (40 * 2 ^ s.dev.partWidth (c.par 0 3 0)) 16)) →
        Completes (.ruleWrite c) s c.ticket (.fail stUNIT_UNAVAILABLE) s.dev)
      ∧ (c.accepted s.dev 0x0202 (s.dev.ruleInvalidateParams c) →
          Completes (.ruleInvalidate c) s c.ticket (.fail stUNIT_UNAVAILABLE) s.dev)
      ∧ (c.accepted s.dev 0x0203 (s.dev.rulesetSwapParams c) →
          Completes (.rulesetSwap c) s c.ticket (.fail stUNIT_UNAVAILABLE) s.dev))
  ∧ (∀ (s : State) (p : Nat), s.dev.swapDraining p = false ∨ s.dev.slotBusy p = true → Makes (.swapDone p) s s.dev)
  ∧ (∀ (s : State) (p : Nat) (t : Ticket), s.dev.swapDraining p = true → s.dev.slotBusy p = false →
      s.dev.fwd.swaps.filter (fun x => x.part == p) = [⟨p, t⟩] →
      let old := 1 - s.dev.actSlot p
      let d : Dev := { s.dev with fwd := { s.dev.fwd with
        rules := s.dev.fwd.rules.filter (fun e => !(e.1.take 2 == [p, old])) } }
      let d := ((d.setI uCLS CLS_PART_STATE.DRAINING p 0).showValid p)
      let d := d.raise uCLS 0x10 (leBytes 1 p ++ leBytes 1 (d.actEpoch p))
      Makes (.swapDone p) s (({ d with fwd := { d.fwd with
        swaps := d.fwd.swaps.filter (fun x => !(x.part == p)) } } : Dev).finish t (.ok (s.dev.actEpoch p))))

/-- GRAPH_WRITE stores the register's fields, and where that makes references invalid that were not, raises GRAPH_INVALID. PART_CFG_WRITE
is refused with CFG_CONFLICT where it would move a partition with rules; of a partition without rules, and of one with rules whose
BANK_MASK, WIDTH, LAYOUT and KEY_PROFILE stay, it stores the fields, and the rules stay. PUNT_QUEUE_CFG_WRITE fills the policer as EN
rises, and else keeps its level within BURST. FRAG_SWEEP ages out the entries of TIMEOUT_MS ago. An entry that fails parity is repaired and
counted; a second failure within a second fails the bank, for which the lateral's spare array stands in once, BANK_SPARED raised and the
bank's partitions untouched, and after that its partitions fail in that lateral. A repair of the egress classifier, lateral 4 here, is
counted.
Forms said to complete, each with the next state it answers: graphWrite, clsEntryRepair, bankSpared, partitionFailed,
partCfgWrite, puntQueueCfgWrite, fragSweep. -/
def Obligations.ClassifierKeepsItsTables : Prop :=
  (∀ (s : State) (off v : Nat), let d := s.dev.storeGraph off v
    Notes (.graphWrite off v) s d (fun b =>
      ∀ r, r ∈ d.badRefs → r ∉ s.dev.badRefs → bit (b.get uPRS UF_EVT_PEND.PEND) 0x10 = true)
    ∧ ((∀ r ∈ d.badRefs, r ∈ s.dev.badRefs) → Makes (.graphWrite off v) s d))
  ∧ (∀ (d : Dev) (n v : Nat), n < 64 → let b := d.storeGraph (0x1000 + 32 * n) v
      b.getI uPRS PRS_NODE_LEN.VALID n = fieldIn PRS_NODE_LEN.VALID v
      ∧ b.getI uPRS PRS_NODE_LEN.FIXED_LEN n = fieldIn PRS_NODE_LEN.FIXED_LEN v
      ∧ b.getI uPRS PRS_NODE_LEN.LEN_WIDTH n = fieldIn PRS_NODE_LEN.LEN_WIDTH v
      ∧ (d.storeGraph (0x1008 + 32 * n) v).getI uPRS PRS_NODE_NEXT.NEXT_OFF n = fieldIn PRS_NODE_NEXT.NEXT_OFF v
      ∧ (d.storeGraph (0x1010 + 32 * n) v).getI uPRS PRS_NODE_CHECK.MIN_LEN n = fieldIn PRS_NODE_CHECK.MIN_LEN v
      ∧ (d.storeGraph 0x400 v).get uPRS PRS_CFG.ROOT_NODE = fieldIn PRS_CFG.ROOT_NODE v)
  ∧ (∀ (d : Dev) (t v : Nat), t < 256 → let b := d.storeGraph (0x1800 + 8 * t) v
      b.getI uPRS PRS_TRANS.VALID t = fieldIn PRS_TRANS.VALID v ∧ b.getI uPRS PRS_TRANS.FROM_NODE t = fieldIn PRS_TRANS.FROM_NODE v
      ∧ b.getI uPRS PRS_TRANS.VALUE t = fieldIn PRS_TRANS.VALUE v ∧ b.getI uPRS PRS_TRANS.MASK t = fieldIn PRS_TRANS.MASK v
      ∧ b.getI uPRS PRS_TRANS.TO_NODE t = fieldIn PRS_TRANS.TO_NODE v
      ∧ ∀ un f i, un ≠ uPRS ∨ i ≠ t → b.getI un f i = d.getI un f i)
  ∧ (∀ (s : State) (p v : Nat), p < 16 → s.dev.holdsRules p = true →
      fieldOr CLS_PART_CFG.WIDTH v 2 (s.dev.partWidth p) ≠ s.dev.partWidth p →
      Makes (.partCfgWrite p v) s (s.dev.raise uCLS 0x12 (leBytes 1 p)))
  ∧ (∀ (s : State) (p v : Nat), p < 16 →
      (∀ q, s.dev.holdsRules q = false)
        ∨ fieldIn CLS_PART_CFG.BANK_MASK v = s.dev.bankMask p ∧ fieldIn CLS_PART_CFG.WIDTH v = s.dev.partWidth p
          ∧ fieldIn CLS_PART_CFG.LAYOUT v = s.dev.getI uCLS CLS_PART_CFG.LAYOUT p
          ∧ fieldIn CLS_PART_CFG.KEY_PROFILE v = s.dev.getI uCLS CLS_PART_CFG.KEY_PROFILE p →
      ∃ b, Makes (.partCfgWrite p v) s b ∧ b.bankMask p = fieldIn CLS_PART_CFG.BANK_MASK v
        ∧ b.getI uCLS CLS_PART_CFG.KEY_PROFILE p = fieldIn CLS_PART_CFG.KEY_PROFILE v
        ∧ b.getI uCLS CLS_PART_CFG.LAYOUT p = fieldIn CLS_PART_CFG.LAYOUT v
        ∧ (fieldIn CLS_PART_CFG.WIDTH v ≤ 2 → b.partWidth p = fieldIn CLS_PART_CFG.WIDTH v)
        ∧ b.getI uCLS CLS_PART_CFG.PASS_EN p = fieldIn CLS_PART_CFG.PASS_EN v
        ∧ (fieldIn CLS_PART_CFG.MISS_DISP v ≤ 2 → b.getI uCLS CLS_PART_CFG.MISS_DISP p = fieldIn CLS_PART_CFG.MISS_DISP v)
        ∧ b.getI uCLS CLS_PART_CFG.MISS_QUEUE p = fieldIn CLS_PART_CFG.MISS_QUEUE v
        ∧ b.getI uCLS CLS_PART_CFG.FAIL_MODE p = fieldIn CLS_PART_CFG.FAIL_MODE v
        ∧ (fieldIn CLS_PART_CFG.BANK_MASK v = s.dev.bankMask p → b.fwd.rules = s.dev.fwd.rules))
  ∧ (∀ (s : State) (q v : Nat), q < 64 →
      ∃ b, Makes (.puntQueueCfgWrite q v) s b
        ∧ b.getI uCLS PNT_Q_CFG.EN q = fieldIn PNT_Q_CFG.EN v ∧ b.getI uCLS PNT_Q_CFG.DEST q = fieldIn PNT_Q_CFG.DEST v
        ∧ b.getI uCLS PNT_Q_CFG.TARGET q = fieldIn PNT_Q_CFG.TARGET v ∧ b.getI uCLS PNT_Q_CFG.BURST q = fieldIn PNT_Q_CFG.BURST v
        ∧ b.getI uCLS PNT_Q_CFG.RATE_PPS q = fieldIn PNT_Q_CFG.RATE_PPS v
        ∧ (s.dev.flagI uCLS PNT_Q_CFG.EN q = false → fieldIn PNT_Q_CFG.EN v = 1 →
            b.fwd.policers.get? [q] = some (b.actI uCLS PNT_Q_CFG.BURST q * puntUnit, s.dev.now))
        ∧ (s.dev.flagI uCLS PNT_Q_CFG.EN q = true →
            b.fwd.policers.get? [q] = some (min (s.dev.puntLevel q) (b.actI uCLS PNT_Q_CFG.BURST q * puntUnit), s.dev.now)))
  ∧ (∀ s : State, let t := s.dev.act uPRS PRS_FRAG_CFG.TIMEOUT_MS * 1000000
      s.dev.fwd.fragSweep + t / 8 ≤ s.dev.now →
      ∃ b, Makes .fragSweep s b ∧ b.fwd.fragSweep = s.dev.now
        ∧ b.get uPRS FRAG_OCCUPANCY.COUNT = b.fwd.frags.length % 2 ^ FRAG_OCCUPANCY.COUNT.width
        ∧ (∀ e c, e ∈ b.fwd.frags → e.2.shown = some c → 10 * s.dev.now < 10 * t + c.2)
        ∧ ∀ e c, e ∈ s.dev.fwd.frags → e.2.coming = [] → e.2.shown = some c → 10 * s.dev.now < 10 * t + c.2 → e ∈ b.fwd.frags)
  ∧ (∀ (s : State) (b i : Nat), b < 8 → i < 4096 → Makes (.clsEntryRepair 4 b i) s (s.dev.bump uCLS CLS_ENTRY_FIX.COUNT))
  ∧ (∀ (s : State) (l b i : Nat), l < 4 → b < 12 → i < 4096 → s.dev.bankFailed l b = false →
      (s.dev.copiesLost clsCopyRegion = false →
        (∀ t, s.dev.fwd.repairs.get? [l, b, i] = some t → t + 1000000000 ≤ s.dev.now) →
        Makes (.clsEntryRepair l b i) s
          ((({ s.dev with fwd := { s.dev.fwd with repairs := s.dev.fwd.repairs.insert [l, b, i] s.dev.now } } : Dev).bump uCLS
            CLS_ENTRY_FIX.COUNT).tallyUp (uBank l b) 0x06 1))
      ∧ (s.dev.copiesLost clsCopyRegion = true →
        (∀ t, s.dev.fwd.repairs.get? [l, b, i] = some t → t + 1000000000 ≤ s.dev.now) →
        Makes (.clsEntryRepair l b i) s (s.dev.repairEntry l b i)
        ∧ (s.dev.repairEntry l b i).get uCLS CLS_ENTRY_FIX.COUNT =
            (s.dev.get uCLS CLS_ENTRY_FIX.COUNT + 1) % 2 ^ CLS_ENTRY_FIX.COUNT.width)
      ∧ (∀ t, s.dev.fwd.repairs.get? [l, b, i] = some t → s.dev.now < t + 1000000000 →
          let d : Dev := { s.dev with fwd := { s.dev.fwd with repairs := s.dev.fwd.repairs.erase [l, b, i] } }
          (s.dev.flagI uCLS CLS_SPARE.USED l = false →
            Makes (.clsEntryRepair l b i) s ((d.bankSpare l b).ownFault (uBank l b) 0x0002))
          ∧ (s.dev.flagI uCLS CLS_SPARE.USED l = true →
              Makes (.clsEntryRepair l b i) s ((d.failSelf (uBank l b) 0x0002).bankLost l b)))
      ∧ ∀ selfTest : Bool, let cause := if selfTest then 0x0006 else 0x0002
        (s.dev.flagI uCLS CLS_SPARE.USED l = false →
          Makes (.bankSpared l b selfTest) s
            ((((s.dev.setI uCLS CLS_SPARE.USED l 1).setI uCLS CLS_SPARE.BANK l b).raise (uBank l b) 0x10
              (leBytes 1 l ++ leBytes 1 b)).ownFault (uBank l b) cause))
        ∧ (s.dev.flagI uCLS CLS_SPARE.USED l = true →
            ∃ b', Makes (.partitionFailed l b selfTest) s b' ∧ b' = (s.dev.failSelf (uBank l b) cause).bankLost l b
              ∧ b'.svc (uBank l b) ∈ [sFAILED, sRETIRED]
              ∧ ∀ p < 16, s.dev.ownsBank p b = true →
                  b'.partFailedIn p l = true ∧ b'.flagI uCLS CLS_PART_STATE.FAILED p = true))

/-! ### Tables and egress editors -/

/-- With the table engine ACTIVE and the record read, TBL_INSERT and TBL_DELETE apply the record, TBL_SEARCH writes back what it
finds, TBL_NEXT walks the table from a new cursor (every index of an indexed table), and TBL_BULK_LOAD applies the records in order.
TBL_FLUSH_PORT begins a sweep, four at a time, that by 300 ms has deleted the port's EM_L2 entries and answers their number. An indexed
insert writes its index whatever it held, a delete returns it to zero; a VRF record moves the VRF's short prefixes first, and is refused
where one finds no place (log 49: which refusal is the model's choice). A new exact-match entry takes a free slot of its first bucket, and
a deleted one is gone; an insert over an entry without REPLACE and a VRF record whose direct slot another VRF holds are refused with EXISTS
and a delete of nothing with NOT_FOUND. A cursor idle for 10 s closes.
Forms said to complete, each with the next state it answers: tblInsert, tblDelete, tblSearch, tblNext, cursorExpire,
tblFlushPort, tblBulkLoad. -/
def Obligations.TableCommandsApplyRecords : Prop :=
  (∀ (s : State) (c : HCmd), let rd := readRec c.block
      (c.accepted s.dev 0x0101 [pAny 8 63 0] (rd.keyOk false && s.dev.resultOk rd) →
        (s.dev.tbeReady = false → Completes (.tblInsert c) s c.ticket (.fail stUNIT_UNAVAILABLE) s.dev)
        ∧ (s.dev.tbeReady = true → c.readOk = true → let r := (c.begun s.dev).insertRec rd
            Makes (.tblInsert c) s (r.1.finish c.ticket (placeReply r.2 true))))
      ∧ (c.accepted s.dev 0x0102 [pAny 8 63 0] (rd.keyOk false) →
        (s.dev.tbeReady = false → Completes (.tblDelete c) s c.ticket (.fail stUNIT_UNAVAILABLE) s.dev)
        ∧ (s.dev.tbeReady = true → c.readOk = true → let q := (c.begun s.dev).deleteRec rd
            Makes (.tblDelete c) s (q.1.finish c.ticket (placeReply q.2 false)))))
  ∧ (∀ (d : Dev) (r : EntRec), r.keyOk false = true → isLpm r.table = false →
      (isEm r.table = false → d.resultOk r = true →
        (r.table = 12 ∧ resAt r.result 8 4 0 ≠ 0 ∧ d.fwd.indexed.any (fun e => e.1.headD 0 == 12 && e.1.getD 1 0 != r.vrf
            && resAt e.2 8 4 0 == resAt r.result 8 4 0) = true → d.insertRec r = (d, .fail stEXISTS))
        ∧ ((r.table ≠ 12 ∨ resAt r.result 8 4 0 = 0 ∨ d.fwd.indexed.any (fun e => e.1.headD 0 == 12 && e.1.getD 1 0 != r.vrf
            && resAt e.2 8 4 0 == resAt r.result 8 4 0) = false) →
          (r.table ≠ 12 ∨ ∀ e ∈ d.fwd.routes, e.1.getD 0 0 ≠ r.vrf) →
          (d.insertRec r).2 = .done 3 0 ∧ (d.insertRec r).1.ixAt r.table r.index = r.result))
      ∧ (isEm r.table = false → (r.table ≠ 12 ∨ ∀ e ∈ d.fwd.routes, e.1.getD 0 0 ≠ r.vrf) →
          (d.deleteRec r).2 = .done 3 0 ∧ (d.deleteRec r).1.ixAt r.table r.index = 0)
      ∧ (r.table = 12 →
          let w : Dev := { d with fwd := { d.fwd with indexed := d.fwd.indexed.setD 0 [12, r.vrf] 0 } }
          (∀ x, w.replaceRoutes r.vrf = some x → d.deleteRec r = (x.showLpm, .done 3 0))
          ∧ (w.replaceRoutes r.vrf = none → d.fwd.cursors = [] → d.deleteRec r = (d.tableFull 1, .fail stTABLE_FULL))
          ∧ (w.replaceRoutes r.vrf = none → d.fwd.cursors ≠ [] → d.deleteRec r = (d, .fail stRETRY_LATER)))
      ∧ (isEm r.table = true → d.resultOk r = true →
          let k : Key := [r.table, r.vrf, r.key]
          (∀ i, d.fwd.em.get? k = none → d.emUsed + emWidth k ≤ d.get uTBE TBE_OCC1.EM_LIMIT →
            freeSlot d.fwd.em (d.emChoice k false) (emWidth k) = some i → (d.insertRec r).2 = .done 0 0
              ∧ (d.insertRec r).1.fwd.em.get? k =
                  some { place := .slot (d.emChoice k false) i false, result := r.result, static := r.static })
          ∧ (∀ e, d.fwd.em.get? k = some e → r.replace = true → d.insertRec r = ({ d with fwd := { d.fwd with
              em := d.fwd.em.insert k { e with result := r.result, static := r.static, learned := false } } }, .done e.place.code 0)))
      ∧ (isEm r.table = true → (d.fwd.em.get? [r.table, r.vrf, r.key]).isSome = true →
          (d.deleteRec r).2 = .done 0 0 ∧ (d.deleteRec r).1.fwd.em.get? [r.table, r.vrf, r.key] = none)
      ∧ (isEm r.table = true → d.resultOk r = true → r.replace = false → (d.fwd.em.get? [r.table, r.vrf, r.key]).isSome = true →
          d.insertRec r = (d, .fail stEXISTS))
      ∧ (isEm r.table = true → d.fwd.em.get? [r.table, r.vrf, r.key] = none → d.deleteRec r = (d, .fail stNOT_FOUND)))
  ∧ (∀ (s : State) (c : HCmd), let long : Bool := c.par 0 0 0 == 1
      let rd := readRec c.block
      c.accepted s.dev 0x0103 ([pAny 0 0 0, c.zero 0 7 1] ++ [pAny 8 63 0]) (rd.keyOk long && (!long || isLpm rd.table)) →
      s.dev.tbeReady = true → c.readOk = true →
      (s.dev.search rd long = none → Completes (.tblSearch c) s c.ticket (.fail stNOT_FOUND) s.dev)
      ∧ ∀ b, s.dev.search rd long = some b →
          let w := (c.begun s.dev).hostBlock c (c.par 8 63 0) b 0
          Makes (.tblSearch c) s (w.1.finish c.ticket w.2))
  ∧ (∀ (s : State) (c : HCmd), c.accepted s.dev 0x0104 c.tblNextParams → s.dev.tbeReady = true →
      let d := c.begun s.dev
      let open_ := d.fwd.cursors.filter (fun e => decide (d.now < e.2.used + 10000000000))
      let id := freeCursor open_ 65 d.fwd.nextCursor
      let t := c.par 0 7 0
      let most := c.par 4 8 0
      let ends (out : List (List Byte)) (left : Option Cursor) (fin : Nat) : Prop :=
        let e := ({ d with fwd := { d.fwd with cursors := open_ } } : Dev).dataWrite c.ticket (c.par 8 63 0) out.flatten
        Makes (.tblNext c) s (({ e with fwd := { e.fwd with
          cursors := e.fwd.cursors.put [id] left, nextCursor := id % 65535 + 1 } } : Dev).finish c.ticket
            (.ok (id + out.length * 2 ^ 16 + fin * 2 ^ 31)))
      c.par 2 15 0 = 0 → open_.length < 64 → c.writeOk = true → 1 ≤ most → most ≤ 256 →
      (isIndexed t = false → (d.walk t).length ≤ most → ends ((d.walk t).map (fun e => e.plain)) none 1)
      ∧ (isIndexed t = true → ends ((List.range most).map (fun i => (d.walkedIx t i).plain))
          (some { table := t, pos := [t, most - 1], used := d.now }) 0))
  ∧ (∀ (s : State) (c : HCmd), c.accepted s.dev 0x0104 c.tblNextParams → s.dev.tbeReady = true →
      let live := s.dev.fwd.cursors.filter (fun e => decide (s.dev.now < e.2.used + 10000000000))
      let d : Dev := { s.dev with fwd := { s.dev.fwd with cursors := live } }
      let n := c.par 2 15 0
      (n = 0 → 64 ≤ live.length → Completes (.tblNext c) s c.ticket (.fail stNO_RESOURCE) d)
      ∧ (n ≠ 0 → (∀ x, d.fwd.cursors.get? [n] = some x → x.table ≠ c.par 0 7 0) →
          Completes (.tblNext c) s c.ticket (.fail stNOT_FOUND) d))
  ∧ (∀ (s : State) (c : HCmd), s.dev.tbeReady = false →
      let long : Bool := c.par 0 0 0 == 1
      let rd := readRec c.block
      (c.accepted s.dev 0x0103 ([pAny 0 0 0, c.zero 0 7 1] ++ [pAny 8 63 0]) (rd.keyOk long && (!long || isLpm rd.table)) →
        Completes (.tblSearch c) s c.ticket (.fail stUNIT_UNAVAILABLE) s.dev)
      ∧ (c.accepted s.dev 0x0104 c.tblNextParams → Completes (.tblNext c) s c.ticket (.fail stUNIT_UNAVAILABLE) s.dev)
      ∧ (c.accepted s.dev 0x0105 c.tblFlushPortParams →
          Completes (.tblFlushPort c) s c.ticket (.fail stUNIT_UNAVAILABLE) s.dev)
      ∧ (c.accepted s.dev 0x0106 ([pAny 0 0 0, pAny 0 1 1, c.zero 0 31 2,
            c.must 4 16 0 (fun n => decide (1 ≤ n ∧ n ≤ 65536)), c.zero 4 31 17] ++ [pAny 8 63 0]) →
          Completes (.tblBulkLoad c) s c.ticket (.fail stUNIT_UNAVAILABLE) s.dev)
      ∧ (c.accepted s.dev 0x0107 c.tblAgeCfgParams → Completes (.tblAgeCfg c) s c.ticket (.fail stUNIT_UNAVAILABLE) s.dev)
      ∧ (c.accepted s.dev 0x0108 c.lpmCommitParams → Completes (.lpmCommit c) s c.ticket (.fail stUNIT_UNAVAILABLE) s.dev)
      ∧ (c.accepted s.dev 0x0109 ([pAny 0 21 0, c.zero 0 31 22] ++ [pAny 8 63 0]) (encapOk (c.par 0 21 0) c.block) →
          Completes (.encapWrite c) s c.ticket (.fail stUNIT_UNAVAILABLE) s.dev))
  ∧ (∀ (s : State) (n : Nat) (x : Cursor), s.dev.fwd.cursors.get? [n] = some x → x.used + 10000000000 ≤ s.dev.now →
      Makes (.cursorExpire n) s { s.dev with fwd := { s.dev.fwd with cursors := s.dev.fwd.cursors.erase [n] } })
  ∧ (∀ (s : State) (c : HCmd), c.accepted s.dev 0x0105 c.tblFlushPortParams → s.dev.tbeReady = true →
      (4 ≤ s.dev.fwd.flushes.length → Completes (.tblFlushPort c) s c.ticket (.fail stRETRY_LATER) s.dev)
      ∧ (s.dev.fwd.flushes.length < 4 → 
          let f : Flush := ⟨c.ticket, c.par 0 16 0, if c.par 0 17 17 = 1 then some (c.par 4 15 0) else none, c.par 0 18 18 == 1,
            s.dev.now, 0, 0⟩
          GoesOn (.tblFlushPort c) s
            (({ s.dev with fwd := { s.dev.fwd with flushes := s.dev.fwd.flushes ++ [f] } } : Dev).noteStarted c.ticket)))
  ∧ (∀ (d : Dev) (f : Flush), f.since + 300000000 ≤ d.now →
      let gone := d.fwd.em.filter (fun e => f.takes e.1 e.2 && decide (f.pos ≤ e.2.place.swept)
        && decide (e.2.place.swept < emBuckets + 1))
      let x := gone.foldl (fun d e => (d.emRemove e.1).exportL2 0x41 e.1 e.2) { d with draws := d.draws + 1 }
      d.flushOn f = ({ x with fwd := { x.fwd with flushes := x.fwd.flushes.filter (fun g => g.ticket != f.ticket) } } : Dev).finish
        f.ticket (.ok (f.count + gone.length))
      ∧ ∀ e ∈ gone, x.fwd.em.get? e.1 = none)
  ∧ (∀ (s : State) (c : HCmd), c.accepted s.dev 0x0106 ([pAny 0 0 0, pAny 0 1 1, c.zero 0 31 2,
      c.must 4 16 0 (fun n => decide (1 ≤ n ∧ n ≤ 65536)), c.zero 4 31 17] ++ [pAny 8 63 0]) → s.dev.tbeReady = true →
      c.readOk = true →
      let b := bulkRun (c.par 0 0 0 == 1) (c.par 0 1 1 == 1) (c.par 4 16 0) 0 c.block { dev := c.begun s.dev }
      (b.first = none → Makes (.tblBulkLoad c) s (b.dev.finish c.ticket (.ok b.applied)))
      ∧ ∀ st i, b.first = some (st, i) → Makes (.tblBulkLoad c) s (b.dev.finish c.ticket
          ⟨st, b.applied + st * 2 ^ 32 + i * 2 ^ 40, if st = stMALFORMED then 0xFF else 0⟩))

/-- TBL_AGE_CFG sets AGE_TIME of its table. LPM_COMMIT applies the staged changes of its VRF where they fit, advances ROUTE_GEN and
raises it, drops them with DISCARD, and keeps them with TABLE_FULL, of the first staged change's table (log 47: the model's choice). The oldest learn report is applied, or goes to the learning
agent in mode 2. An activity update sets ACTIVE and clears PEND_AGE, or counts as late. AGE_SWEEP acts on every entry of a table
whose half AGE_TIME has passed. Relocation copies an exact-match entry to its other place, or a
route to a bucket of its own with room, and one epoch later clears the source and counts it.
Forms said to complete, each with the next state it answers: tblAgeCfg, lpmCommit, learnReport, activityUpdate, ageSweep,
relocationStart, relocationFinish. -/
def Obligations.TablesLearnAgeAndMove : Prop :=
  (∀ (s : State) (c : HCmd), c.accepted s.dev 0x0107 c.tblAgeCfgParams → s.dev.tbeReady = true →
    Completes (.tblAgeCfg c) s c.ticket .ok { s.dev with fwd := { s.dev.fwd with
      ageTime := s.dev.fwd.ageTime.insert [c.par 0 7 0] (c.par 4 19 0) } })
  ∧ (∀ (s : State) (c : HCmd), c.accepted s.dev 0x0108 c.lpmCommitParams → s.dev.tbeReady = true →
      let mine := s.dev.fwd.staged.filter (fun x => c.par 0 16 16 == 1 || x.key.getD 0 0 == c.par 0 15 0)
      let keep (d : Dev) : Dev := { d with fwd := { d.fwd with staged := d.fwd.staged.filter (fun x => !mine.contains x) } }
      (c.par 0 17 17 = 1 → Completes (.lpmCommit c) s c.ticket (.ok (s.dev.get uTBE TBE_ROUTE_GEN.COUNT)) (keep s.dev))
      ∧ (c.par 0 17 17 = 0 →
          let all := mine.foldl (fun o x => o.bind (fun d => (d.applyRoute x.key x.nextHop).map (·.1))) (some (c.begun s.dev))
          let used := (c.begun s.dev).lpmUsed
          ((∀ d, all = some d → d.lpmFits used = false) →
            Makes (.lpmCommit c) s (((c.begun s.dev).tableFull ((mine.head?.map (fun x => x.key.getD 1 0)).getD tLPM4)).finish
              c.ticket (.fail stTABLE_FULL)))
          ∧ (∀ d, all = some d → d.lpmFits used = true →
              let e := ((keep d).showLpm).bump uTBE TBE_ROUTE_GEN.COUNT
              let g := e.get uTBE TBE_ROUTE_GEN.COUNT
              Makes (.lpmCommit c) s ((e.raise uTBE 0x15 (leBytes 4 g)).finish c.ticket (.ok g)))))
  ∧ (∀ (s : State) (l : Learn) (rest : List Learn), s.dev.fwd.learns = l :: rest →
      let d : Dev := { s.dev with fwd := { s.dev.fwd with learns := rest } }
      (s.dev.get uTBE TBE_CFG.LEARN_MODE ≠ 2
          ∨ (List.range 64).find? (fun x => d.getI uSVC AGT_STATUS.STATE x == agRUNNING && bit (d.agent x).perm permLEARN) = none →
        Makes .learnReport s (d.applyLearn l))
      ∧ (s.dev.get uTBE TBE_CFG.LEARN_MODE = 2 → ∀ slot,
          (List.range 64).find? (fun x => d.getI uSVC AGT_STATUS.STATE x == agRUNNING && bit (d.agent x).perm permLEARN) =
            some slot →
          Makes .learnReport s ((if d.staticMove l then d.noteStaticMove l else d).pushMsg slot 6 (recBytes tL2 l.bd 0 l.mac l.sysport false false false false false))))
  ∧ (∀ (s : State) (k : Key) (rest : List Key), s.dev.fwd.activity = k :: rest →
      let d : Dev := { s.dev with fwd := { s.dev.fwd with activity := s.dev.fwd.activity.erase k } }
      (s.dev.fwd.em.get? k = none → Makes .activityUpdate s (d.bump uTBE TBE_ACT_LATE.COUNT))
      ∧ ∀ e, s.dev.fwd.em.get? k = some e →
          Makes .activityUpdate s { d with fwd := { d.fwd with em := d.fwd.em.insert k { e with active := true, pendAge := false } } })
  ∧ (∀ (s : State) (t : Nat) (first : Bool), ages t = true → s.dev.ageTime t ≠ 0 → s.dev.learning = true →
      s.dev.fwd.ageSwept.getD 0 [t] + s.dev.ageTime t * 500000000 ≤ s.dev.now →
      let keys := (s.dev.fwd.em.filter (fun e => e.1.headD 0 == t)).map (·.1)
      Makes (.ageSweep t first) s (keys.foldl (fun d k => d.ageEntry first k)
        { s.dev with fwd := { s.dev.fwd with ageSwept := s.dev.fwd.ageSwept.insert [t] s.dev.now } }))
  ∧ (∀ (d : Dev) (first : Bool) (k : Key) (e : EmEntry), d.fwd.em.get? k = some e → e.static = false →
      (e.active = true → (d.ageEntry first k).fwd.em.get? k = some { e with active := false, pendAge := false })
      ∧ (e.active = false → e.pendAge = false → (d.ageEntry first k).fwd.em.get? k = some { e with pendAge := true }))
  ∧ (∀ (s : State) (k : Key) (e : EmEntry) (p : Place) (f : FwdState), k.length ≠ 4 → s.dev.fwd.em.get? k = some e →
      e.leaving = none → s.dev.nextPlace k e.place = some p → s.dev.fwd.shift k p false = some f →
      Makes (.relocationStart k) s
        (({ s.dev with fwd := { f with em := f.em.insert k { e with place := p, leaving := some e.place } } } : Dev).showEm))
  ∧ (∀ (s : State) (k : Key) (e : EmEntry) (p : Place), k.length ≠ 4 → s.dev.fwd.em.get? k = some e → e.leaving = some p →
      Makes (.relocationFinish k) s ((({ s.dev with fwd := { s.dev.fwd with
        em := s.dev.fwd.em.insert k { e with leaving := none } } } : Dev).showEm).countMoves 1))
  ∧ (∀ (s : State) (k : Key) (r : Route), k.length = 4 → s.dev.fwd.routes.get? k = some r →
      (∀ p, r.leaving = none → s.dev.nextBucket k r = some p → Makes (.relocationStart k) s
        ((s.dev.moveRoute k r (s.dev.routeAt k r.nextHop p (some r.place))).getD s.dev).showEm)
      ∧ (∀ p, r.leaving = some p → Makes (.relocationFinish k) s ((({ s.dev with fwd := { s.dev.fwd with
          routes := s.dev.fwd.routes.insert k { r with leaving := none } } } : Dev).showEm).countMoves 1)))

/-- EDITOR_PACKET takes the oldest packet scheduled for a port that an editor serves: one with a wrong CHECK is counted and dropped, a
mirror copy goes to the MAC as it is, and any other is edited. The MAC drops a frame beyond MAX_FRAME and one for a port that is
not UP, unless it was begun before the port went down, and sends any other, padded. ENCAP_WRITE puts a good block's 32-byte units at their entry, and
EGR_RULE_WRITE puts a good rule in its place or takes it out.
Forms said to complete, each with the next state it answers: editorPacket, encapWrite, egrRuleWrite. -/
def Obligations.EditorsEditAndAreWritten : Prop :=
  (∀ (s : State) (p un : Nat) (checkOk readable : Bool) (o : ShadowOut) (t : TxPkt) (rest : List TxPkt),
    s.dev.editorOf p = some un → s.dev.sch.editorQ.getD [] [p] = t :: rest →
    let d : Dev := { s.dev with sch := { s.dev.sch with editorQ := s.dev.sch.editorQ.setD [] [p] rest } }
    let fin (e : Dev) : Dev := (if (e.portX p).finishing then e.setPortX p { e.portX p with finishing := false } else e).shadowItem un o
    (checkOk = false ∨ t.desc.badCheck = true → Makes (.editorPacket p checkOk readable o) s
      (fin ((d.bump un EDT_CHECK_ERR.COUNT).raiseOnce un 0x11 0 (fun _ => leBytes 1 p))))
    ∧ (checkOk = true → t.desc.badCheck = false → t.desc.mirror = true → Makes (.editorPacket p checkOk readable o) s
        (fin (d.macSend un p (t.bytes.take t.desc.length) none)))
    ∧ (checkOk = true → t.desc.badCheck = false → t.desc.mirror = false → Makes (.editorPacket p checkOk readable o) s
        (fin (d.editPacket un p t.desc t.bytes readable))))
  ∧ (∀ (d : Dev) (un p : Nat) (b : List Byte), let e := (d.tally un 0x20 1).tally un 0x21 (padded b).length
      (e.act (uPort p) PRT_MODE.MAX_FRAME < (padded b).length + 4 →
        d.macSend un p b none = e.bump (uPort p) PRT_TX_OVERSIZE.COUNT)
      ∧ ((padded b).length + 4 ≤ e.act (uPort p) PRT_MODE.MAX_FRAME → e.linkState p ≠ lsUP → (e.portX p).finishing = false →
          d.macSend un p b none = e.bump (uPort p) PRT_TX_ABORT.COUNT)
      ∧ ((padded b).length + 4 ≤ e.act (uPort p) PRT_MODE.MAX_FRAME → e.linkState p = lsUP ∨ (e.portX p).finishing = true →
          ((d.macSend un p b none).portX p).lastTx = padded b))
  ∧ (∀ (s : State) (c : HCmd), let id := c.par 0 21 0
      c.readOk = true → (encapOk id c.block = false → s.dev.heldBack 0x0109 c.ticket = false → hdrBad c.ticket = none →
          areaBad c.area ([pAny 0 21 0, c.zero 0 31 22] ++ [pAny 8 63 0]) = none → s.dev.agentBad c = none →
          Completes (.encapWrite c) s c.ticket Reply.badBlock s.dev)
      ∧ (c.accepted s.dev 0x0109 ([pAny 0 21 0, c.zero 0 31 22] ++ [pAny 8 63 0]) (encapOk id c.block) → s.dev.tbeReady = true →
          Makes (.encapWrite c) s (((List.range (leAt c.block 0 1 % 4 + 1)).foldl (fun (d : Dev) i =>
            let e := d.sideWrite false (encapAddr (id + i)) 3 1
            { e with fwd := { d.fwd with
              encap := d.fwd.encap.setD (List.replicate 32 0) [id + i] (slice c.block (32 * i) 32) } }) (c.begun s.dev)).finish
              c.ticket .ok)))
  ∧ (∀ (s : State) (c : HCmd), c.accepted s.dev 0x0204 c.egrRuleWriteParams (c.par 0 15 15 == 1 || egressOk (slice c.block 40 8)) →
      s.dev.svc uCLS = sACTIVE →
      let put (e : Option ClsEntry) : Dev := { s.dev with fwd := { s.dev.fwd with egress := s.dev.fwd.egress.put [c.par 0 14 0] e } }
      (c.par 0 15 15 = 1 → Completes (.egrRuleWrite c) s c.ticket .ok (put none))
      ∧ (c.par 0 15 15 = 0 → c.readOk = true →
          Completes (.egrRuleWrite c) s c.ticket .ok
            (put (some ⟨leAt c.block 0 20, leAt c.block 20 20, slice c.block 40 8⟩))))

/-! ### Buffers and queues -/

/-- BUFFER_REQUEST asks for what the stash has room for and keeps what is granted. A free whose buffer is not allocated is counted and
raised as a double free, one of another owner's as a wrong owner, both ending the walk; a right one releases the buffer. An idle
stash goes back. POOL_READY of an enabled pool sets READY with every buffer free. A configuration that changes more than EN of an enabled
pool, that changes or enables a pool whose buffers are out, or that enables a pool without the memory it takes is refused; one
that clears EN clears READY; an enabled on-die pool takes its cells from pool 0. A quota beyond the pool is refused, and else kept.
Forms said to complete, each with the next state it answers: bufferRequest, bufferFree, stashReturn, poolCfgWrite, poolReady,
quotaWrite. -/
def Obligations.BuffersAndPools : Prop :=
  (∀ (s : State) (req p n : Nat), 1 ≤ n → s.dev.stashed req < 128 →
    let want := min (min n 64) (128 - s.dev.stashed req)
    let r := Dev.requestChain 3 s.dev req p p (want * s.dev.bufSize p)
    Makes (.bufferRequest req p n) s ((r.2.foldl (fun d b => { d with tm := { d.tm with
      stash := d.tm.stash.setD [] [req, b.1] (d.tm.stash.getD [] [req, b.1] ++ [b.2]) } }) r.1).spillIfShort
        s.dev.tm.globalSpill))
  ∧ (∀ (s : State) (p b req : Nat) (bs : List Nat),
      (s.dev.tm.owners.get? [p, b] = none → Makes (.bufferFree p (b :: bs) req) s
        (((s.dev.bump uBPM BPM_DOUBLE_FREE.COUNT).tallyQ uBPM 0x24 1 (selPool p)).raise uBPM 0x10
          (leBytes 4 b ++ leBytes 1 p ++ leBytes 1 req)))
      ∧ ∀ o, s.dev.tm.owners.get? [p, b] = some o →
          (o.owner ≠ req → Makes (.bufferFree p (b :: bs) req) s
            (((s.dev.bump uBPM BPM_WRONG_OWNER.COUNT).tallyQ uBPM 0x24 1 (selPool p)).raise uBPM 0x11
              (leBytes 4 b ++ leBytes 1 p ++ leBytes 1 req ++ leBytes 1 o.owner)))
          ∧ (o.owner = req → Makes (.bufferFree p (b :: bs) req) s
            (Dev.freeChain (bs.map (fun b => (p, b))) (s.dev.releaseBuf p b req) req)))
  ∧ (∀ (s : State) (req p : Nat),
      Makes (.stashReturn req p) s (Dev.freeChain ((s.dev.tm.stash.getD [] [req, p]).map (fun b => (p, b)))
        { s.dev with tm := { s.dev.tm with stash := s.dev.tm.stash.erase [req, p] } } req))
  ∧ (∀ (s : State) (p : Nat), p < 32 → s.dev.flagI uBPM BPM_POOL_CFG.EN p = true →
      s.dev.flagI uBPM BPM_POOL_STATUS.READY p = false →
      let e := if p = 1 then s.dev.setI uBPM BPM_POOL_CFG.COUNT 1 (s.dev.poolHas 1) else s.dev
      let d : Dev := { e with tm := { e.tm with lists := e.tm.lists.filter (fun x => x.1.headD 0 != p) } }
      Makes (.poolReady p) s (((d.setI uBPM BPM_POOL_STATUS.READY p 1).setI uBPM BPM_POOL_STATUS.LOW_WATER p
        (d.freeNow p)).setFree p (d.freeNow p)))
  ∧ (∀ (s : State) (p v : Nat), p < 32 →
      let kept := (p = 1 ∨ newPool v BPM_POOL_CFG.COUNT = s.dev.getI uBPM BPM_POOL_CFG.COUNT p)
        ∧ (p < 2 ∨ newPool v BPM_POOL_CFG.HOME = s.dev.getI uBPM BPM_POOL_CFG.HOME p
            ∧ newPool v BPM_POOL_CFG.SIZE_LOG2 = s.dev.getI uBPM BPM_POOL_CFG.SIZE_LOG2 p)
        ∧ newPool v BPM_POOL_CFG.FB_EN = s.dev.getI uBPM BPM_POOL_CFG.FB_EN p
        ∧ newPool v BPM_POOL_CFG.FALLBACK = s.dev.getI uBPM BPM_POOL_CFG.FALLBACK p
      let refused := Makes (.poolCfgWrite p v) s (s.dev.raise uBPM 0x13 (leBytes 1 p))
      (s.dev.flagI uBPM BPM_POOL_CFG.EN p = true → ¬ kept → refused)
      ∧ (s.dev.flagI uBPM BPM_POOL_CFG.EN p = true → kept → newPool v BPM_POOL_CFG.EN = 0 →
          Makes (.poolCfgWrite p v) s ((((s.dev.storePool p v).setI uBPM BPM_POOL_STATUS.READY p 0).setFree p 0).giveBack p))
      ∧ (s.dev.flagI uBPM BPM_POOL_CFG.EN p = false → s.dev.allocated p ≠ [] → ¬ kept ∨ newPool v BPM_POOL_CFG.EN = 1 → refused)
      ∧ (s.dev.flagI uBPM BPM_POOL_CFG.EN p = false → s.dev.allocated p = [] →
          (newPool v BPM_POOL_CFG.EN = 0 ∧ ¬ kept ∨ newPool v BPM_POOL_CFG.EN = 1 ∧ p < 2 →
            Makes (.poolCfgWrite p v) s (s.dev.storePool p v))
          ∧ (newPool v BPM_POOL_CFG.EN = 1 → 2 ≤ p →
              let count := newPool v BPM_POOL_CFG.COUNT
              let size := BPM_POOL_CFG.SIZE_LOG2.rng.act (newPool v BPM_POOL_CFG.SIZE_LOG2)
              (newPool v BPM_POOL_CFG.HOME = 1 →
                (2 ^ 30 < s.dev.dramBytes p + count * 2 ^ size → refused)
                ∧ (s.dev.dramBytes p + count * 2 ^ size ≤ 2 ^ 30 → Makes (.poolCfgWrite p v) s (s.dev.storePool p v)))
              ∧ (newPool v BPM_POOL_CFG.HOME = 0 →
                  (min (s.dev.sharedFree 0) (s.dev.poolFree 0) < onDieCells count size → refused)
                  ∧ (onDieCells count size ≤ min (s.dev.sharedFree 0) (s.dev.poolFree 0) →
                      let d := s.dev.storePool p v
                      let e := d.setI uBPM BPM_POOL_CFG.COUNT 0 (d.poolCount 0 - onDieCells count size)
                      Makes (.poolCfgWrite p v) s ((e.setFree 0 (e.poolFree 0 - onDieCells count size)).spillIfShort
                        s.dev.tm.globalSpill))))))
  ∧ (∀ (s : State) (v : Nat), let req := s.dev.get uBPM BPM_QUOTA_SEL.REQ
      let p := s.dev.get uBPM BPM_QUOTA_SEL.POOL
      let g := newPool v BPM_QUOTA.GUAR
      Makes (.quotaWrite v) s
        (if s.dev.poolCount p < s.dev.guarSum p - s.dev.guar req p + g then s.dev.raise uBPM 0x14 (leBytes 1 p ++ leBytes 1 req)
         else (s.dev.setI uBPM BPM_QUOTA.GUAR (quotaIx req p) g).setI uBPM BPM_QUOTA.MAX (quotaIx req p)
           (newPool v BPM_QUOTA.MAX)))

/-- A spill unit's flush marks what was written. A read-ahead of the first spilled packet brings it into cells; one whose data is lost
drops it, and one whose link is lost drops the run behind it, counted and raised with the bytes; one too far from the head waits. SPILL_CUT follows the lines that changed and raises
the share. FREE_LIST_REBUILD shows what the owner table says. QUEUE_CFG configures its range, QUEUE_READ writes its records.
Forms said to complete, each with the next state it answers: freeListRebuild, spillUnitFlush, spillReadAhead, spillCut,
queueCfg, queueRead. -/
def Obligations.SpillwayAndQueues : Prop :=
  (∀ (s : State) (q : QRef),
    Makes (.spillUnitFlush q) s (s.dev.setQueue q { s.dev.queue q with flushed := (s.dev.queue q).wr }))
  ∧ (∀ (s : State) (q : QRef) (k : QPkt) (before : Nat) (bytes : List Byte) (o : SpillRead),
      firstSpilled (s.dev.queue q).pkts 0 = some (k, before) → k.loc = .spill bytes →
      (16384 < before → Makes (.spillReadAhead q o) s s.dev)
      ∧ (before ≤ 16384 →
          let pos := (k.stream.getD (0, 0)).1
          let fin := (k.stream.getD (0, 0)).2
          let dead (b : Nat × Nat) : Bool :=
            s.dev.deadBlock b.1 b.2 || (b.1 == 1 && s.dev.sidePoisoned true (blockAddr b.2))
          let first := ((s.dev.queue q).blocks.getD ((pos - (s.dev.queue q).base) / spillBlock) (1, 0))
          let span := ((s.dev.queue q).blocks.drop ((pos - (s.dev.queue q).base) / spillBlock)).take
            ((fin - 1) / spillBlock - pos / spillBlock + 1)
          (dead first = false → o = .good → span.any dead = false → (s.dev.storeBody reqSpill 0 bytes 1).2 = none →
            Makes (.spillReadAhead q o) s (s.dev.storeBody reqSpill 0 bytes 1).1)
          ∧ (dead first = false → o = .good → span.any dead = false →
            ∀ h, (s.dev.storeBody reqSpill 0 bytes 1).2 = some h →
              let d := (s.dev.storeBody reqSpill 0 bytes 1).1
              let n := fin / spillBlock - pos / spillBlock
              Makes (.spillReadAhead q o) s (((d.add uSPW SPW_BLOCKS_READ.COUNT n).tallyQ uSPW 0x21 n (fun _ => true)).setQueue q
                { d.queue q with pkts := replaceSpilled (some { k with loc := .cells h }) (s.dev.queue q).pkts }))
          ∧ (dead first = false → o = .dataLost ∨ o = .good ∧ span.any dead = true →
              let d := (s.dev.bump uSPW SPW_READ_ERR.COUNT).countDrop q 8
              Makes (.spillReadAhead q o) s (((d.setQueue q ((s.dev.queue q).left k (replaceSpilled none (s.dev.queue q).pkts)
                d.now)).raise uSPW 0x11 (leBytes 4 first.2 ++ leBytes 4 k.desc.length)).settleSpill q))
          ∧ (dead first = true ∨ o = .linkLost →
              let run := cutRun (s.dev.queue q).pkts
              let lost := (run.2.map (fun x => x.desc.length)).sum
              let d := s.dev.setQueue q (run.2.foldl (fun a x => a.left x run.1 s.dev.now) (s.dev.queue q))
              Makes (.spillReadAhead q o) s (((((d.bump uSPW SPW_READ_ERR.COUNT).countDrop q 8).add uSPW SPW_LOST_BYTES.COUNT
                lost).raise uSPW 0x11 (leBytes 4 first.2 ++ leBytes 4 lost)).settleSpill q))))
  ∧ (∀ s : State, s.dev.rotatingLines ≠ s.dev.get uSPW SPW_STATUS.ROTATING ∨ s.dev.shortLines ≠ s.dev.get uSPW SPW_STATUS.SHORT →
      let rot := s.dev.rotatingLines
      let short := s.dev.shortLines
      let d := s.dev.refillSpill
      let share := 100 - d.act uSPW SPW_CFG.ROT_CUT_PCT * popCount (rot ||| short) 4
      let e := ((d.set uSPW SPW_STATUS.ROTATING rot).set uSPW SPW_STATUS.SHORT short)
      let f := e.set uSPW SPW_STATUS.SHARE_PCT share
      Makes .spillCut s ((if e.get uSPW SPW_STATUS.SHARE_PCT = 100 ∧ share ≠ 100 then f.rises uSPW 0x23 else f).raise uSPW 0x10
        (leBytes 1 (rot ||| short) ++ leBytes 1 share)))
  ∧ (∀ (s : State) (p sub : Nat), p < 32 → s.dev.flagI uBPM BPM_POOL_STATUS.READY p = true →
      Makes (.freeListRebuild p sub) s ((s.dev.setFreeList p sub {}).setI uBPM BPM_POOL_STATUS.FREE p (s.dev.freeNow p)))
  ∧ (∀ (s : State) (c : HCmd), c.accepted s.dev 0x0301 c.queueCfgParams → s.dev.svc uVOQ = sACTIVE →
      Makes (.queueCfg c) s (((List.range (c.par 8 16 0)).foldl (fun d i => d.cfgEntry c (c.par 4 19 0 + i))
        (c.begun s.dev)).finish c.ticket .ok))
  ∧ (∀ (d : Dev) (c : HCmd) (n : Nat), c.par 0 1 0 = 2 →
      d.cfgEntry c n = { d with tm := { d.tm with subMap := d.tm.subMap.setD {} [n] ⟨c.par 2 0 0 == 1, c.par 12 14 0⟩ } })
  ∧ (∀ (s : State) (c : HCmd), c.accepted s.dev 0x0307 c.queueReadParams →
      let w := (c.begun s.dev).hostBlock c (c.par 16 63 0) (((List.range (c.par 8 16 0)).map (fun i =>
        ((c.begun s.dev).queue (qRef (c.par 0 1 0) (c.par 4 19 0 + i))).record)).flatten) 0
      Makes (.queueRead c) s (w.1.finish c.ticket w.2))

/-! ### Scheduling, meters, sluices and the sampler -/

/-- With the active scheduler's turn current and no head that can never pass its gate, DEQUEUE_DECISION sends the head of the queue
picked, which joins the editor's queue; a choice is a candidate, in the committed round while any stands in it. NODE_CFG applies its
nodes in order. SHAPER_SET waits for its level's refill, which applies settings, then adds the gain up to the burst. PORT_HOLD_SET
measures a running hold anew. A hold that has run its time flushes the port and goes DOWN, raising PORT_HOLD with the count. A held
port's heads meet their age limits.
Forms said to complete, each with the next state it answers: dequeueDecision, shaperRefill, nodeCfg, shaperSet, portHoldSet,
portHoldExpire, holdAgeCheck. -/
def Obligations.SchedulerDecidesShapesAndHolds : Prop :=
  (∀ (s : State) (p : Nat) (o : ShadowOut) (t : Path) (ex : Bool) (h : QPkt), s.dev.portInUse p = true →
    s.dev.mayCommit s.dev.activeSched = true →
    (∀ q ∈ s.dev.portQueues p, ∀ k, s.dev.headReady (.eq q) = some k → s.dev.neverFits p (q % 8) k.desc = false) →
    s.dev.pickQueue p = some (t, ex) → s.dev.headReady (.eq t.q) = some h → (s.dev.queue (.eq t.q)).expired s.dev.now = false →
    Makes (.dequeueDecision p o) s ((s.dev.sendHead p t ex).shadowItem s.dev.activeSched o)
    ∧ (s.dev.sendHead p t ex).sch.editorQ.getD [] [p] = s.dev.sch.editorQ.getD [] [p] ++
        [TxPkt.mk h.desc (match h.loc with | .cells b => s.dev.bodyBytes b | .spill bs => bs)])
  ∧ (∀ (d : Dev) (l n : Nat) (ex : Bool) (cands : List Nat), d.choose l cands = some (n, ex) → n ∈ cands
      ∧ (ex = false → (d.node l n).c.committed = true) ∧ (ex = true → ∀ m ∈ cands, (d.node l m).c.committed = false))
  ∧ (∀ (s : State) (l : Nat), 1 ≤ l → l ≤ 5 →
      Makes (.shaperRefill l) s ((s.dev.sch.nodes.filterMap (fun e => match e.1 with
        | [l', n] => if l' = l then some n else none
        | _ => none)).foldl (fun d n => d.refillNode l n) s.dev))
  ∧ (∀ (d : Dev) (l n : Nat), (d.node l n).sets = [] →
      d.refillNode l n = d.setNode l n { d.node l n with
        c := (d.node l n).c.refill (refillNs l), p := (d.node l n).p.refill (refillNs l) })
  ∧ (∀ (d : Dev) (l n : Nat) (y : ShaperSet), (d.node l n).sets = [y] →
      let x := ({ d.node l n with sets := [] } : Node).applySet y
      d.refillNode l n = (d.setNode l n { x with c := x.c.refill (refillNs l), p := x.p.refill (refillNs l) }).finish y.ticket .ok)
  ∧ (∀ (x : Node) (y : ShaperSet), let z := x.applySet y
      z.c.en = y.cEn ∧ z.c.rate = y.cRate ∧ z.c.burst = y.cBurst ∧ z.p.en = y.pEn ∧ z.p.rate = y.pRate ∧ z.p.burst = y.pBurst)
  ∧ (∀ (b : Bucket) (ns : Nat), (b.refill ns).level =
      if b.en = true then min (b.level + ((b.rate * ns * 2 ^ 20 / 8000000 : Nat) : Int)) ((b.burst * 2 ^ 20 : Nat) : Int) else b.level)
  ∧ (∀ (s : State) (c : HCmd), c.accepted s.dev 0x0302 c.nodeCfgParams →
      (s.dev.svc s.dev.activeSched ≠ sACTIVE → Completes (.nodeCfg c) s c.ticket (.fail stUNIT_UNAVAILABLE) s.dev)
      ∧ (s.dev.svc s.dev.activeSched = sACTIVE →
          let r := (c.begun s.dev).cfgNodes (c.par 12 12 0) c (c.par 0 2 0) (c.par 4 17 0) 0
          Makes (.nodeCfg c) s (r.1.finish c.ticket r.2)))
  ∧ (∀ (d : Dev) (c : HCmd) (l n : Nat), let prio := c.par 0 6 4
      let old := d.parentNode l n
      let par := if c.par 0 3 3 = 1 then c.par 8 14 0 else old
      let weight := if prio = 4 then c.par 2 12 0 else (d.node l n).weight
      (d.slotTaken l n par prio = true → d.cfgNode c l n = (d, stEXISTS))
      ∧ (d.slotTaken l n par prio = false → par = old →
          d.cfgNode c l n = (d.setNode l n { d.node l n with prio := prio, weight := weight }, stOK))
      ∧ (d.slotTaken l n par prio = false → par ≠ old →
          (d.portOfNode (l - 1) par ≠ d.portOfNode (l - 1) old → d.nodeBusy l n = true → d.cfgNode c l n = (d, stRETRY_LATER))
          ∧ (d.nodeBusy l n = false → d.cfgNode c l n = (d.setNode l n { d.node l n with
              prio := prio, weight := weight, parent := some par, f := (d.node (l - 1) par).v }, stOK))))
  ∧ (∀ (s : State) (c : HCmd), c.accepted s.dev 0x0303 c.shaperSetParams → s.dev.svc s.dev.activeSched = sACTIVE →
      let l := c.par 0 2 0
      let n := c.par 4 17 0
      (c.par 0 3 3 = 0 → GoesOn (.shaperSet c) s ((s.dev.setNode l n { s.dev.node l n with sets := (s.dev.node l n).sets ++
        [⟨c.ticket, c.par 0 4 4 == 1, c.par 0 5 5 == 1, c.par 8 30 0, c.par 12 24 0, c.par 16 30 0, c.par 20 24 0⟩] }).noteStarted
          c.ticket))
      ∧ (c.par 0 3 3 = 1 → let r := (c.begun s.dev).hostBlock c (c.par 24 63 0) (s.dev.node l n).record 0
          Makes (.shaperSet c) s (r.1.finish c.ticket r.2)))
  ∧ (∀ (s : State) (c : HCmd), c.accepted s.dev 0x0306 c.portHoldSetParams → s.dev.svc s.dev.activeSched = sACTIVE →
      let p := c.par 0 6 0
      let e := (c.begun s.dev).setI uSCH TMS_PORT_CFG.HOLD_MS p (c.par 4 13 0)
      (s.dev.holdState p ≠ hHOLD ∨ s.dev.now < s.dev.sch.holdStart.getD 0 [p] + c.par 4 13 0 * 1000000 →
        Completes (.portHoldSet c) s c.ticket .ok (s.dev.setI uSCH TMS_PORT_CFG.HOLD_MS p (c.par 4 13 0)))
      ∧ (s.dev.holdState p = hHOLD → s.dev.sch.holdStart.getD 0 [p] + c.par 4 13 0 * 1000000 ≤ s.dev.now →
          Makes (.portHoldSet c) s (((e.holdToDown p).logDecision 2 (uPort p) (e.portPackets p)).finish c.ticket .ok)))
  ∧ (∀ (s : State) (p : Nat), p < 128 → s.dev.holdState p = hHOLD → s.dev.holdOver p = true →
      Makes (.portHoldExpire p) s ((s.dev.holdToDown p).logDecision 2 (uPort p) (s.dev.portPackets p)))
  ∧ (∀ (d : Dev) (p : Nat), p < 128 → (d.holdToDown p).holdState p = hDOWN
      ∧ (d.holdToDown p).getI uSCH TMS_PORT_STATUS.HOLD_LEFT_MS p = 0)
  ∧ (∀ (s : State) (p : Nat), s.dev.holdState p = hHOLD →
      Makes (.holdAgeCheck p) s ((s.dev.portQueues p).foldl (fun d q => d.ageCheck (.eq q)) s.dev))
  ∧ (∀ (d : Dev) (r : QRef), (d.queue r).expired d.now = false → d.ageCheck r = d)

/-- METER_REFILL applies every meter's waiting settings, completes them and adds its gains; METER_REPAIRED stands both levels at their
bursts, those its copy gives (anything, log 129, where the copy's row was lost in deep-sleep), counts and raises it; METER_SET waits for the refill, or writes the READ record. A SLUICE_LOAD in IDLE waits for its start,
in RUNNING for the switch, in PENDING it needs REPLACE, and nothing is done within 1 µs of a start. A list becomes active at its
time, raising SLUICE_SWITCHED, a stopping list ends with its cycle, and the entry that device time gives is shown.
Forms said to complete, each with the next state it answers: meterRefill, meterRepaired, meterSet, sluiceLoad, sluiceStart,
sluiceStop, sluiceEntryChange. -/
def Obligations.MetersAndSluices : Prop :=
  (∀ s : State, Makes .meterRefill s ((s.dev.sch.meters.map (fun e => e.1.headD 0)).foldl (fun d m => d.refillMeter m) s.dev))
  ∧ (∀ (d : Dev) (m : Nat), (d.meter m).sets = [] → d.refillMeter m = d.setMeter m (d.meter m).refill)
  ∧ (∀ (d : Dev) (m : Nat) (y : MeterSet), (d.meter m).sets = [y] → d.refillMeter m =
      (d.setMeter m (({ d.meter m with sets := [] } : Meter).applySet y).refill).finish y.ticket .ok)
  ∧ (∀ x : Meter, (x.mode = 0 → x.refill = x) ∧ (x.mode = 1 → x.pRate ≠ 0 →
      x.refill.cLevel = min (x.cLevel + ((x.cRate * 1000 * 2 ^ 20 / 8000000 : Nat) : Int)) ((x.cBurst * 2 ^ 20 : Nat) : Int)
      ∧ x.refill.pLevel = min (x.pLevel + ((x.pRate * 1000 * 2 ^ 20 / 8000000 : Nat) : Int)) ((x.pBurst * 2 ^ 20 : Nat) : Int)))
  ∧ (∀ (x : Meter) (y : MeterSet), y.reset = true ∨ (x.mode = 0 ∧ y.mode ≠ 0) →
      (x.applySet y).cLevel = ((y.cBurst * 2 ^ 20 : Nat) : Int) ∧ (x.applySet y).pLevel = ((y.pBurst * 2 ^ 20 : Nat) : Int))
  ∧ (∀ (s : State) (m : Nat), m < 1048576 → let x := s.dev.meterCopy m (s.dev.meter m)
      Makes (.meterRepaired m) s ((((s.dev.setMeter m { x with
        cLevel := ((x.cBurst * 2 ^ 20 : Nat) : Int), pLevel := ((x.pBurst * 2 ^ 20 : Nat) : Int) }).bump uMTR
          MTR_REPAIR.COUNT).tallyUp uMTR 0x07 1).raise uMTR 0x10 (leBytes 4 m)))
  ∧ (∀ (d : Dev) (m : Nat) (x : Meter), d.dram.lostRows = [] → d.meterCopy m x = x)
  ∧ (∀ (s : State) (c : HCmd), c.accepted s.dev 0x0304 c.meterSetParams → s.dev.svc uMTR = sACTIVE → let m := c.par 0 19 0
      (c.par 0 20 20 = 0 → GoesOn (.meterSet c) s ((s.dev.setMeter m { s.dev.meter m with sets := (s.dev.meter m).sets ++
        [⟨c.ticket, c.par 0 21 21 == 1, c.par 0 23 22, c.par 0 24 24 == 1, c.par 0 25 25 == 1, c.par 4 30 0, c.par 8 24 0,
          c.par 12 30 0, c.par 16 24 0⟩] }).noteStarted c.ticket))
      ∧ (c.par 0 20 20 = 1 → let r := (c.begun s.dev).hostBlock c (c.par 24 63 0) (s.dev.meter m).record 0
          Makes (.meterSet c) s (r.1.finish c.ticket r.2)))
  ∧ (∀ (s : State) (c : HCmd), c.readOk = true → readEntries c.block (c.par 2 10 0) = none → s.dev.heldBack 0x0305 c.ticket = false →
      hdrBad c.ticket = none → areaBad c.area (s.dev.sluiceLoadParams c) = none → s.dev.agentBad c = none →
      Completes (.sluiceLoad c) s c.ticket .badBlock s.dev)
  ∧ (∀ (s : State) (c : HCmd), c.accepted s.dev 0x0305 (s.dev.sluiceLoadParams c) (readEntries c.block (c.par 2 10 0)).isSome →
      let p := c.par 0 6 0
      let d := c.begun s.dev
      (s.dev.svc uSLC ≠ sACTIVE → Completes (.sluiceLoad c) s c.ticket (.fail stUNIT_UNAVAILABLE) s.dev)
      ∧ (s.dev.svc uSLC = sACTIVE → c.readOk = true →
          ∀ es, readEntries c.block (c.par 2 10 0) = some es →
              let r := d.sluiceAct p (c.par 1 0 0 == 1) (if c.par 0 7 7 = 1 then none else some ⟨es, c.par 16 31 0,
                firstAtOrAfter (c.par 8 63 0) (c.par 16 31 0) (d.now + 1000)⟩)
              Makes (.sluiceLoad c) s (r.1.finish c.ticket r.2)))
  ∧ (∀ (d : Dev) (p : Nat) (rep : Bool) (l : SluiceList), let x := d.sluice p
      (x.near d.now = true → d.sluiceAct p rep (some l) = (d, .fail stRETRY_LATER))
      ∧ (x.near d.now = false → x.state = 0 →
          d.sluiceAct p rep (some l) = (d.putSluice p { x with pending := some (l, l.start), stopAt := none }, .ok l.start))
      ∧ (x.near d.now = false → 1 ≤ x.state → x.state ≠ 2 → d.sluiceAct p false (some l) = (d, .fail stRETRY_LATER))
      ∧ (x.near d.now = true → d.sluiceAct p rep none = (d, .fail stRETRY_LATER))
      ∧ (x.near d.now = false → x.state = 0 → d.sluiceAct p rep none = (d, .ok))
      ∧ (x.near d.now = false → x.state = 1 →
          d.sluiceAct p rep none = ((d.putSluice p { x with pending := none }).raise uSLC 0x11 (leBytes 1 p), .ok)
          ∧ d.sluiceAct p true (some l) =
            ((d.putSluice p (({ x with pending := none } : Sluice).load l)).raise uSLC 0x11 (leBytes 1 p), .ok l.start))
      ∧ (x.near d.now = false → 3 ≤ x.state → let y : Sluice := { x with pending := none, stopAt := none }
          d.sluiceAct p false none = (d, .fail stRETRY_LATER)
          ∧ d.sluiceAct p true (some l) = ((d.putSluice p (y.load l)).raise uSLC 0x11 (leBytes 1 p), .ok l.start)
          ∧ d.sluiceAct p true none = ((d.putSluice p (y.stop d.now)).raise uSLC 0x11 (leBytes 1 p), .ok))
      ∧ (∀ a, x.near d.now = false → x.state = 2 → x.active = some a → d.sluiceAct p rep (some l) =
          (d.putSluice p { x with pending := some (l, a.boundary l.start), stopAt := none }, .ok l.start)
          ∧ d.sluiceAct p rep none = (d.putSluice p { x with pending := none, stopAt := some (a.boundary (d.now + 1)) }, .ok)))
  ∧ (∀ (base step t : Nat), 1 ≤ step → base ≤ firstAtOrAfter base step t ∧ t ≤ firstAtOrAfter base step t
      ∧ (firstAtOrAfter base step t - base) % step = 0 ∧ (base < t → firstAtOrAfter base step t < t + step))
  ∧ (∀ (s : State) (p t : Nat) (l : SluiceList), (s.dev.sluice p).pending = some (l, t) → t ≤ s.dev.now →
      Makes (.sluiceStart p) s ((s.dev.putSluice p { s.dev.sluice p with active := some l, pending := none }).switched p t 0))
  ∧ (∀ (s : State) (p t : Nat), (s.dev.sluice p).stopAt = some t → t ≤ s.dev.now →
      Makes (.sluiceStop p) s ((s.dev.putSluice p {}).switched p t 1))
  ∧ (∀ (s : State) (p : Nat), p < 128 →
      (∀ l, (s.dev.sluice p).active = some l → let r := l.at s.dev.now
        Makes (.sluiceEntryChange p) s (((s.dev.setI uSLC SLC_PORT_STATUS.STATE p (s.dev.sluice p).state).setI uSLC
          SLC_PORT_STATUS.GATES p r.2.1).setI uSLC SLC_PORT_STATUS.CUR_ENTRY p r.1))
      ∧ ((s.dev.sluice p).active = none →
          Makes (.sluiceEntryChange p) s (((s.dev.setI uSLC SLC_PORT_STATUS.STATE p (s.dev.sluice p).state).setI uSLC
            SLC_PORT_STATUS.GATES p 0xFF).setI uSLC SLC_PORT_STATUS.CUR_ENTRY p 0)))

/-- A visit checks ages, keeps the queue's largest sojourn, moves POSITION on and gives its record to the oldest posted buffer,
which completes as its range is passed, or counts it as missed; after the last queue the sweep ends and the next
begins. SOJOURN_READ writes the largest sojourns and clears them on request. SAMPLE_STREAM posts a buffer, four at most. A telemetry
window closes after TELEM_SWEEPS sweeps, is raised, and TELEM_READ writes the records of the last one closed. Learn exports of one
reason go out in a posted buffer once it is full or 1 ms has passed.
Forms said to complete, each with the next state it answers: samplerVisit, sweepDone, sojournRead, sampleStream,
learnExportDeliver, telemWindow, telemRead. -/
def Obligations.SamplerTelemetryAndExports : Prop :=
  (∀ (s : State) (hostOk : Bool), s.dev.flag uSMP SMP_CFG.EN = true → s.dev.stopped uSMP = false →
    let i := s.dev.get uSMP SMP_STATUS.POSITION
    i < 1310720 → let r := samplerRef i
    let d := (if s.dev.get uSMP SMP_STATUS.SWEEP = 0 then s.dev.set uSMP SMP_STATUS.SWEEP 1 else s.dev).ageCheck r
    let e := ((d.setQueue r { d.queue r with maxSojourn := max (d.queue r).maxSojourn ((d.queue r).headSojourn d.now) }).set uSMP
      SMP_STATUS.POSITION (i + 1)).tally uSMP 0x20 1
    let e := if e.flag uSMP SMP_CFG.CLUSTER_EN then e.telemRecord i ((d.queue r).headSojourn d.now) (d.queue r).depthBytes else e
    ∃ row, row.length = 16 ∧ Makes (.samplerVisit hostOk) s (e.hostRecord i (d.get uSMP SMP_STATUS.SWEEP) row hostOk))
  ∧ (∀ (d : Dev) (i sweep : Nat) (row : List Byte) (ok : Bool), let on := d.flag uSMP SMP_CFG.HOST_EN
      (d.sch.bufs = [] → (on = false → d.hostRecord i sweep row ok = d)
        ∧ (on = true → d.hostRecord i sweep row ok = (d.bump uSMP SMP_HOST_MISS.COUNT).raiseOnce uSMP 0x11 0 (fun n => leBytes 4 n)))
      ∧ (∀ b rest, d.sch.bufs = b :: rest → b.sweep = sweep → b.first ≤ i → i < b.first + b.count →
          on = false ∨ b.length < (b.written + 1) * 16 →
          let m := if on then (d.bump uSMP SMP_HOST_MISS.COUNT).raiseOnce uSMP 0x11 0 (fun n => leBytes 4 n) else d
          (i + 1 < b.first + b.count →
            d.hostRecord i sweep row ok = m.setBufs ({ b with missed := b.missed + on.toNat } :: rest))
          ∧ (i + 1 = b.first + b.count → d.hostRecord i sweep row ok =
              (m.setBufs (rest.map (fun b => { b with after := sweep }))).finish b.ticket
                (.ok (b.written + (b.missed + on.toNat) * 2 ^ 21))))
      ∧ ∀ b rest, d.sch.bufs = b :: rest → b.sweep = sweep → b.first ≤ i → i < b.first + b.count → on = true →
          (b.written + 1) * 16 ≤ b.length →
          let w := (d.dataWrite b.ticket (b.addr + 16 * b.written) row).tally uSMP 0x21 1
          (ok = true → i + 1 < b.first + b.count →
            d.hostRecord i sweep row ok = w.setBufs ({ b with written := b.written + 1 } :: rest))
          ∧ (ok = true → i + 1 = b.first + b.count → d.hostRecord i sweep row ok =
              (w.setBufs (rest.map (fun b => { b with after := sweep }))).finish b.ticket (.ok (b.written + 1 + b.missed * 2 ^ 21)))
          ∧ (ok = false → d.hostRecord i sweep row ok =
              ((d.setBufs (rest.map (fun b => { b with after := sweep }))).dmaFailed).finish b.ticket (.fail stDATA_ERROR)))
  ∧ (∀ s : State, s.dev.get uSMP SMP_STATUS.POSITION = 1310720 → s.dev.stopped uSMP = false → let sweep := s.dev.get uSMP SMP_STATUS.SWEEP
      let d := (s.dev.set uSMP SMP_STATUS.POSITION 0).set uSMP SMP_STATUS.SWEEP (sweep + 1)
      let d := { d with telem := { d.telem with sweeps := d.telem.sweeps + 1 } }
      Makes .sweepDone s (if s.dev.flag uSMP SMP_CFG.SWEEP_EVT then d.raise uSMP 0x10 (leBytes 4 sweep) else d))
  ∧ (∀ (s : State) (c : HCmd), c.accepted s.dev 0x0308 c.sojournReadParams → s.dev.svc uSMP = sACTIVE →
      let d := c.begun s.dev
      let ixs := (List.range (c.par 4 16 0)).map (· + c.par 0 20 0)
      let bytes := (ixs.map (fun i => leBytes 4 (min (d.queue (samplerRef i)).maxSojourn 0xFFFFFFFF))).flatten
      let e := if c.par 0 21 21 = 1 then
          ixs.foldl (fun d i => d.setQueue (samplerRef i) { d.queue (samplerRef i) with maxSojourn := 0 }) d
        else d
      let r := e.hostBlock c (c.par 8 63 0) bytes 0
      Makes (.sojournRead c) s (r.1.finish c.ticket r.2))
  ∧ (∀ (s : State) (c : HCmd), c.accepted s.dev 0x0309 c.sampleStreamParams → s.dev.svc uSMP = sACTIVE →
      (4 ≤ s.dev.sch.bufs.length → Completes (.sampleStream c) s c.ticket (.fail stRETRY_LATER) s.dev)
      ∧ (s.dev.sch.bufs.length < 4 → GoesOn (.sampleStream c) s ((s.dev.setBufs
          (s.dev.sch.bufs ++ [⟨c.ticket, c.par 0 20 0, c.par 4 20 0, c.par 8 63 0, c.par 16 31 0, 0, 0, 0, 0⟩])).noteStarted c.ticket)))
  ∧ (∀ s : State, max 1 (s.dev.get uSVC SVC_CFG.TELEM_SWEEPS) ≤ s.dev.telem.sweeps →
      let w := (s.dev.telem.window + 1) % 2 ^ 32
      Makes .telemWindow s (({ s.dev with telem := { cur := [], frozen := s.dev.telem.cur, sweeps := 0, window := w } } : Dev).raise
        uSVC 0x11 (leBytes 4 w)))
  ∧ (∀ (s : State) (c : HCmd), c.accepted s.dev 0x0609 c.telemReadParams →
      (s.dev.telem.window = 0 → Completes (.telemRead c) s c.ticket (.fail stRETRY_LATER) s.dev)
      ∧ (s.dev.telem.window ≠ 0 →
          let r := (c.begun s.dev).hostBlock c (c.par 8 63 0) (((List.range (c.par 4 16 0)).map (fun i =>
            (s.dev.telem.frozen.getD {} [c.par 0 20 0 + i]).record (c.par 0 20 0 + i))).flatten) s.dev.telem.window
          Makes (.telemRead c) s (r.1.finish c.ticket r.2)))
  ∧ (∀ (s : State) (reason since : Nat) (writeOk : Bool) (rs : List (List Byte)) (b : Posted),
      s.dev.fwd.exports.get? [reason] = some (rs, since) → let q := s.dev.get uSVC SVC_CFG.LEARN_RXQ
      s.dev.ringState (ringIx kRXQ q) = rENABLED → s.dev.postedTo q = some b →
      let cap := (b.length - 32) / 64
      cap ≤ rs.length ∨ since + 1000000 ≤ s.dev.now →
      let left := rs.drop cap
      let d : Dev := { s.dev with fwd := { s.dev.fwd with
        exports := s.dev.fwd.exports.put [reason] (if left.isEmpty then none else some (left, s.dev.now)) } }
      Makes (.learnExportDeliver reason writeOk) s
        ((d.add uSVC SVC_LEARN_EXPORTED.COUNT (rs.take cap).length).deliverOwn q reason 0 (rs.take cap).flatten writeOk).1)

/-! ### The fabric -/

/-- Setting ADMIN_UP starts a DISABLED link, clearing it takes any link DOWN. Convergence and lock move it on; in INIT it sends LINK_INIT cells of a device; LINK_INIT from an
element is noted in INIT, from a device it fails training; the first REACH then brings the link UP with its vector and both LSEQs at
0. A state's time limit starts the next attempt or fails training, RETRY_MS starts again. A lost REACH is raised, and
the next one ends it. A fault takes an UP
link back to training, and to RETIRED on its DEATH_MAX-th exit within 60 s; so does HEADLESS after 10 minutes of failed training.
Forms said to complete, each with the next state it answers: fabAdminUp, fabAdminDown, fabTrainingConverged, fabAlignmentLock,
linkInitTx, linkInitRx, reachRx, reachTimeout, fabTrainTimeout, fabRetryExpire, fabLinkFault, fabHeadlessRetire. -/
def Obligations.FabricLinksFollowTheirMachine : Prop :=
  (∀ (s : State) (n : Nat), n < 160 →
    let off (d : Dev) : Dev := (d.enterLink n fDISABLED (fun x => { x with failedAt := none })).set (uLNK n)
      ZFP_LINK_STATUS.DOWN_CAUSE 1
    let up := s.dev.set (uLNK n) ZFP_LINK_CFG.ADMIN_UP 1
    let down := s.dev.set (uLNK n) ZFP_LINK_CFG.ADMIN_UP 0
    (s.dev.linkSt n = fDISABLED → s.dev.flag uZFP ZFP_DEV_CFG.EN = true → s.dev.stopped (uLNK n) = false →
      Makes (.fabAdminUp n) s (up.startLink n))
    ∧ (s.dev.linkSt n ≠ fDISABLED ∨ s.dev.flag uZFP ZFP_DEV_CFG.EN = false ∨ s.dev.stopped (uLNK n) = true →
        Makes (.fabAdminUp n) s up)
    ∧ (s.dev.linkSt n = fUP → Makes (.fabAdminDown n) s (down.leaveUp n 1 off))
    ∧ (s.dev.linkSt n ≠ fUP → s.dev.linkSt n ≠ fDISABLED → Makes (.fabAdminDown n) s (off down))
    ∧ (s.dev.linkSt n = fDISABLED → Makes (.fabAdminDown n) s down))
  ∧ (∀ (s : State) (n : Nat), n < 160 →
      (s.dev.pllStopped (791 + n / 32) = true →
        Makes (.fabTrainingConverged n) s s.dev ∧ Makes (.fabAlignmentLock n) s s.dev)
      ∧ (s.dev.linkSt n = fTRAINING → s.dev.pllStopped (791 + n / 32) = false →
          Makes (.fabTrainingConverged n) s (s.dev.enterLink n fALIGNING id))
      ∧ (s.dev.linkSt n = fALIGNING → s.dev.pllStopped (791 + n / 32) = false →
          Makes (.fabAlignmentLock n) s (s.dev.enterLink n fINIT (fun x => { x with initSeen := false })))
      ∧ (s.dev.linkSt n = fINIT →
          Makes (.linkInitTx n) s ((((s.dev.setFabLink n { s.dev.fabLink n with wire := s.dev.initBytes }).bump (uLNK n)
            ZFP_CELLS_TX.COUNT).tally (uLNK n) 0x20 1).tally uZFP 0x21 1)))
  ∧ (∀ d : Dev, d.deviceId < 1024 → let c := readCell d.initBytes
      cellCrcOk d.initBytes = true ∧ c.kind = 2 ∧ c.ctl = 6 ∧ leAt c.payload 1 1 = 0 ∧ leAt c.payload 2 2 = d.deviceId
      ∧ leAt c.payload 4 1 = 1 ∧ bit (leAt d.initBytes 10 1) 0 = false ∧ bit (leAt d.initBytes 10 1) 2 = true)
  ∧ (∀ (s : State) (n : Nat) (b : List Byte), n < 160 → s.dev.linkSt n = fINIT → cellCrcOk b = true → (readCell b).kind = 2 →
      let d := (s.dev.bump (uLNK n) ZFP_CELLS_RX.COUNT).tally (uLNK n) 0x21 1
      let p := (readCell b).payload
      ((readCell b).ctl = 6 → bit (leAt b 10 1) 2 = true →
        (leAt p 1 1 = 1 → Makes (.linkInitRx n b true) s ((d.setFabLink n { d.fabLink n with initSeen := true }).set (uLNK n)
          ZFP_LINK_STATUS.PEER_ID (leAt p 2 2)))
        ∧ (leAt p 1 1 ≠ 1 → Makes (.linkInitRx n b true) s (d.linkFailed n 6)))
      ∧ ((readCell b).ctl = 3 → bit (leAt b 10 1) 2 = false → (s.dev.fabLink n).initSeen = true →
          Makes (.reachRx n b true) s (d.takeReach n p)))
  ∧ (∀ (d : Dev) (n : Nat) (p : List Byte), n < 160 → d.linkSt n = fINIT → (d.fabLink n).initSeen = true → let e := d.takeReach n p
      e.linkSt n = fUP ∧ (e.fabLink n).txSeq = 0 ∧ (e.fabLink n).rxSeq = 0
      ∧ ∀ q < 16, e.getI (uLNK n) ZFP_LINK_REACH.VECTOR q = leAt p (0x20 + 8 * q) 8)
  ∧ (∀ (s : State) (n : Nat), n < 160 → s.dev.linkSt n = fUP → (s.dev.fabLink n).reachLost = false →
      (s.dev.fabLink n).reachAt + s.dev.act uZFP ZFP_DEV_CFG.REACH_TIMEOUT_US * 1000 ≤ s.dev.now →
      Makes (.reachTimeout n) s ((((s.dev.setFabLink n { s.dev.fabLink n with reachLost := true, timedOut := true }).reachMoved n
        (s.dev.linkDevices n)).raise (uLNK n) 0x14 (leBytes 1 1)).showReach s.dev.reached))
  ∧ (∀ (d : Dev) (n : Nat) (p : List Byte), n < 160 → d.linkSt n = fUP → let e := d.takeReach n p
      (e.fabLink n).reachAt = d.now ∧ (e.fabLink n).reachLost = false
      ∧ ((d.fabLink n).timedOut = true → e.hasRaised (uLNK n) 0x14 (leBytes 1 0)))
  ∧ (∀ (s : State) (n : Nat), n < 160 → s.dev.linkSt n = fTRAINING ∨ s.dev.linkSt n = fALIGNING ∨ s.dev.linkSt n = fINIT →
      (s.dev.fabLink n).since + s.dev.trainLimit n ≤ s.dev.now →
      ((s.dev.fabLink n).attempt < s.dev.act (uLNK n) ZFP_LINK_CFG.TRAIN_ATTEMPTS → Makes (.fabTrainTimeout n) s
        (s.dev.enterLink n fTRAINING (fun x => { x with attempt := x.attempt + 1, initSeen := false })))
      ∧ (s.dev.act (uLNK n) ZFP_LINK_CFG.TRAIN_ATTEMPTS ≤ (s.dev.fabLink n).attempt →
          Makes (.fabTrainTimeout n) s ((s.dev.linkFailed n 8).bump (uLNK n) ZFP_TRAIN_FAIL.COUNT)))
  ∧ (∀ (d : Dev) (n cause : Nat), cause < 16 → let b := d.linkFailed n cause
      b.linkSt n = fFAILED ∧ b.get (uLNK n) ZFP_LINK_STATUS.DOWN_CAUSE = cause
      ∧ ((d.fabLink n).failedAt = none → b.hasRaised (uLNK n) 0x12 (leBytes 1 (d.fabLink n).attempt ++ leBytes 1 cause)))
  ∧ (∀ (s : State) (n : Nat), n < 160 → s.dev.linkSt n = fFAILED →
      (s.dev.fabLink n).since + s.dev.act (uLNK n) ZFP_LINK_CFG.RETRY_MS * 1000000 ≤ s.dev.now →
      Makes (.fabRetryExpire n) s (s.dev.startLink n))
  ∧ (∀ (s : State) (n cause : Nat), n < 160 → s.dev.linkSt n = fUP → 2 ≤ cause → cause ≤ 4 →
      let b := s.dev.leaveUp n cause (fun d => d.startLink n)
      let deaths := 1 + (recentDeaths s.dev.now (s.dev.fabLink n).deaths).length
      Makes (.fabLinkFault n cause) s b
      ∧ (deaths < s.dev.act uZFP ZFP_DEV_CFG.DEATH_MAX →
          b.linkSt n = fTRAINING ∧ b.get (uLNK n) ZFP_LINK_STATUS.DOWN_CAUSE = cause)
      ∧ (s.dev.act uZFP ZFP_DEV_CFG.DEATH_MAX ≤ deaths →
          b.linkSt n = fRETIRED ∧ b.get (uLNK n) ZFP_LINK_STATUS.DOWN_CAUSE = 7))
  ∧ (∀ (s : State) (n t : Nat), n < 160 → (s.dev.fabLink n).failedAt = some t → s.dev.flag 0 HDL_STATUS.HEADLESS = true →
      s.dev.flag 0 HDL_CFG.FAB_RETIRE = true → s.dev.linkSt n = fFAILED → t + 600000000000 ≤ s.dev.now →
      let d := (s.dev.enterLink n fRETIRED id).set (uLNK n) ZFP_LINK_STATUS.DOWN_CAUSE 7
      Makes (.fabHeadlessRetire n) s ((((d.failSelf (uLNK n) 0x0031).raise (uLNK n) 0x13
        (leBytes 1 (d.deathsOf n))).logDecision 3 (uLNK n) 0).sparesExhausted uZFP (uLNK n)))

/-- A cell reads back from its bytes field by field with a good CRC. The expected cell is counted, advances the expected LSEQ and acts;
one out of order is discarded and counted; a damaged one draws one NAK, in a LINK_ACK (log 98: the model's choice). Every sequenced cell
carries the acknowledgement of the reverse direction. A NAK acknowledges what precedes its ACK_SEQ, counts and sends the rest again, or gives
the link up after RETRY_MAX. A delivery not
acknowledged within 100 ns sends a LINK_ACK, and a held cell is sent again at RETRY_TIMEOUT_NS, or the link is given up at RETRY_MAX.
A cell held past TIMEOUT_US declares the gap before it lost. Multicast runs are released or discarded once their hold has run out. A
whole packet leaves reassembly. The turnout makes the copies of its egress group that can be made and counts the others.
Forms said to complete, each with the next state it answers: cellReceived, nakRx, linkAckTx, retryTimeout, reseqTimeout,
mcHoldExpire, reassembly, turnoutReplicate. -/
def Obligations.CellsAndPacketsAreRebuilt : Prop :=
  (∀ (c : Cell) (lseq ack : Nat) (ackValid nak unseq : Bool), c.kind < 4 → c.dest < 1024 → c.cls < 8 → c.src < 1024 → c.seq < 65536 →
    c.group < 65536 → c.epoch < 256 → lseq < 256 → ack < 256 → (∃ k, 1 ≤ k ∧ k ≤ 8 ∧ c.payload.length = 32 * k) →
    let b := cellBytes c lseq ack ackValid nak unseq
    readCell b = c ∧ cellCrcOk b = true ∧ leAt b 8 1 = lseq ∧ leAt b 9 1 = ack ∧ bit (leAt b 10 1) 0 = ackValid
    ∧ isNak b = (ackValid && nak) ∧ bit (leAt b 10 1) 2 = unseq)
  ∧ (∀ (s : State) (n : Nat) (b : List Byte), n < 160 → s.dev.linkSt n = fUP → cellCrcOk b = true →
      let e := if bit (leAt b 10 1) 0 = false then s.dev
        else if bit (leAt b 10 1) 1 then s.dev.takeNak n (leAt b 9 1) else s.dev.takeAck n (leAt b 9 1) false
      let x := e.fabLink n
      let got (d : Dev) : Dev := (((d.bump (uLNK n) ZFP_CELLS_RX.COUNT).tally (uLNK n) 0x21 1).dispatchCell n (readCell b)
        (bit (leAt b 10 1) 2))
      let all (d : Dev) : Prop := Makes (.cellReceived n b true) s d ∧ (isNak b = true → Makes (.nakRx n b true) s d)
      (e.linkSt n ≠ fUP → all e)
      ∧ (e.linkSt n = fUP → bit (leAt b 10 1) 2 = true → all (got e))
      ∧ (e.linkSt n = fUP → bit (leAt b 10 1) 2 = false → leAt b 8 1 = x.rxSeq →
          all (got (e.setFabLink n { x with rxSeq := (x.rxSeq + 1) % 256, naked := false, ackDue := some (x.ackDue.getD e.now) })))
      ∧ (e.linkSt n = fUP → bit (leAt b 10 1) 2 = false → leAt b 8 1 ≠ x.rxSeq →
          all ((e.setFabLink n { x with ackDue := some (x.ackDue.getD e.now) }).bump (uLNK n) ZFP_OOS_DISCARD.COUNT)))
  ∧ (∀ (s : State) (n : Nat) (b : List Byte), n < 160 → s.dev.linkSt n = fUP → (s.dev.fabLink n).naked = false →
      let d := ((((s.dev.bump (uLNK n) ZFP_FEC_UNCORR.COUNT).tallyUp (uLNK n) 0x07 1).setFabLink n
        { s.dev.fabLink n with naked := true, ackDue := none }).bump (uLNK n) ZFP_NAK_TX.COUNT)
      Makes (.cellReceived n b false) s ((d.cellSent n (d.ackBytes n true)).tally uZFP 0x21 1))
  ∧ (∀ (d : Dev) (n : Nat) (nak : Bool), d.deviceId < 1024 → (d.fabLink n).rxSeq < 256 → let b := d.ackBytes n nak
      cellCrcOk b = true ∧ (readCell b).kind = 2 ∧ (readCell b).ctl = 5 ∧ isNak b = nak ∧ bit (leAt b 10 1) 0 = true
      ∧ bit (leAt b 10 1) 2 = true
      ∧ leAt b 9 1 = if nak then (d.fabLink n).rxSeq else ((d.fabLink n).rxSeq + 255) % 256)
  ∧ (∀ (d : Dev) (n : Nat) (c : Cell), let x := d.fabLink n
      ((d.transmit n c).fabLink n).wire = cellBytes c x.txSeq ((x.rxSeq + 255) % 256) true false false
      ∧ ((d.transmit n c).fabLink n).held = x.held ++ [⟨c, x.txSeq, 1, d.now⟩]
      ∧ ((d.transmit n c).fabLink n).txSeq = (x.txSeq + 1) % 256)
  ∧ (∀ (d : Dev) (n a : Nat), let hs := acked (d.fabLink n).held a (d.fabLink n).txSeq true
      let e := (d.bump (uLNK n) ZFP_NAK_RX.COUNT).setFabLink n { d.fabLink n with held := hs }
      (hs = [] → d.takeNak n a = e.pumpAll n)
      ∧ ∀ h rest, hs = h :: rest →
          (e.act uZFP ZFP_DEV_CFG.RETRY_MAX ≤ h.times → d.takeNak n a = e.leaveUp n 5 (fun d => d.startLink n))
          ∧ (h.times < e.act uZFP ZFP_DEV_CFG.RETRY_MAX → d.takeNak n a = (e.resend n).pumpAll n))
  ∧ (∀ (hs : List Held) (a nxt q : Nat), hs.findIdx? (fun h => h.lseq == a) = some q →
      acked hs a nxt true = hs.drop q ∧ acked hs a nxt false = hs.drop (q + 1))
  ∧ (∀ (hs : List Held) (a nxt : Nat), hs.findIdx? (fun h => h.lseq == a) = none →
      acked hs a nxt false = hs ∧ acked hs a nxt true = if a = nxt then [] else hs)
  ∧ (∀ (s : State) (n t : Nat), n < 160 → s.dev.linkSt n = fUP → (s.dev.fabLink n).ackDue = some t → t + 100 ≤ s.dev.now →
      Makes (.linkAckTx n) s (((s.dev.setFabLink n { s.dev.fabLink n with ackDue := none }).cellSent n
        (s.dev.ackBytes n false)).tally uZFP 0x21 1))
  ∧ (∀ (s : State) (n : Nat) (h : Held) (rest : List Held), n < 160 → s.dev.linkSt n = fUP → (s.dev.fabLink n).held = h :: rest →
      h.sent + s.dev.act uZFP ZFP_DEV_CFG.RETRY_TIMEOUT_NS ≤ s.dev.now →
      (h.times < s.dev.act uZFP ZFP_DEV_CFG.RETRY_MAX → Makes (.retryTimeout n) s (s.dev.resend n)
        ∧ ((s.dev.resend n).fabLink n).held = (h :: rest).map (fun h => { h with times := h.times + 1, sent := s.dev.now }))
      ∧ (s.dev.act uZFP ZFP_DEV_CFG.RETRY_MAX ≤ h.times →
          Makes (.retryTimeout n) s (s.dev.leaveUp n 5 (fun d => d.startLink n))))
  ∧ (∀ (s : State) (src cls : Nat) (l : HeldCell), (s.dev.ctx src cls).lowest = some l →
      (∃ h ∈ (s.dev.ctx src cls).held, h.at_ + s.dev.act uRSQ RSQ_CFG.TIMEOUT_US * 1000 ≤ s.dev.now) →
      Makes (.reseqTimeout src cls) s (s.dev.declareGap src cls l.cell.seq))
  ∧ (∀ (s : State) (src cls : Nat) (r : List HeldCell), (s.dev.heldRuns src cls).find? s.dev.runExpired = some r →
      (runWhole r = false → Makes (.mcHoldExpire src cls) s (s.dev.discardRuns src cls [r]))
      ∧ (runWhole r = true → s.dev.heldRuns src cls = [r] →
          let d := (s.dev.releaseRuns src cls [r]).discardRuns src cls []
          let e := d.setMctx src cls { d.mctx src cls with next := (runEnd r + 1) % 65536 }
          Makes (.mcHoldExpire src cls) s (e.settleMc (e.mctx src cls).held.length src cls)))
  ∧ (∀ (s : State) (src cls : Nat) (mc gap : Bool) (c : Cell) (rest left : List (Cell × Bool)) (cells : List Cell),
      let x := s.dev.anyCtx src cls mc
      x.out = (c, gap) :: rest → c.first = true → takeFirst c rest = .whole cells left →
      Makes (.reassembly src cls mc) s ((s.dev.setAnyCtx src cls mc { x with out := left, skip := false, cutTo := none }).deliver
        (if mc then some c.group else none) (cells.map (fun c => c.payload)).flatten))
  ∧ (∀ (s : State) (p : TurnPkt) (rest : List TurnPkt), s.dev.fab.turnout = p :: rest →
      let reads := s.dev.turnoutReads p.group
      let d : Dev := reads.foldl (fun (d : Dev) a => d.access true a 1) { s.dev with fab := { s.dev.fab with turnout := rest } }
      let g := d.mcGroup p.group
      let x := d.egrGroup g.egr
      let all := (List.range x.count).map (fun q => d.fab.slots.getD 0 [x.base + q])
      let up := all.filter d.memberUp
      let able := up.take 8191
      (g.egrValid = false → ∀ e, Makes (.turnoutReplicate e) s ((d.bump uTRN TRN_NO_GROUP.COUNT).dropRef p.handle))
      ∧ (g.egrValid = true → ∀ e, e = true ∨ reads.any (s.dev.sideBad true) = true →
          Makes (.turnoutReplicate e) s ((d.missCopies g.egr 4 x.count).dropRef p.handle))
      ∧ (g.egrValid = true → reads.any (s.dev.sideBad true) = false →
          Makes (.turnoutReplicate false) s (able.foldl (Dev.turnCopy p.desc p.handle)
            (((d.missCopies g.egr 2 (all.length - up.length)).missCopies g.egr 3 (up.length - able.length)).setUses p.handle
              able.length))))

/-- CREDIT_REQ_TX sends up to seven entries that are due, CREDIT_REFRESH repeats one, and CREDIT_GRANT_TX issues the credits of a port whose
time has come, each to the next source, and packs them by source: up to seven entries to a cell, 15 credits to an entry. Credit cells act unless they are copies; a CREDIT_REQ entry sets what its VOQ asks for. PORT_STATE_TX tells the
states under a new number; a newer PORT_STATE is kept. VOQ_SEND sends the head with credit and charges it, over
the fabric or the local loop, MC_SEND sends a multicast
head to its group. The standby credit member takes the turn. Groups and reach are written and read by commands.
Forms said to complete, each with the next state it answers: voqSend, mcSend, creditReqTx, creditRefresh, creditReqRx,
creditGrantTx, creditGrantRx, portStateTx, portStateRx, creditTakeover, fabMcGroupSet, fabReachQuery, fabEgrGroupSet. -/
def Obligations.CreditsAndGroups : Prop :=
  (∀ (s : State) (dev : Nat), s.dev.ctrlReaches dev = true →
    let asked := (s.dev.fab.wants.filter (fun e => e.1.headD 0 / 1024 == dev)).map (fun e => e.1.headD 0)
    let ns := s.dev.voqsOf dev ++ asked.filter (fun n => !(s.dev.voqsOf dev).contains n)
    let due := (ns.filterMap (fun n => (s.dev.entryDue n).map (fun o => (n, o)))).take 7
    due ≠ [] → Makes (.creditReqTx dev) s (s.dev.sendEntries dev due))
  ∧ (∀ (s : State) (n f : Nat) (w : Want), s.dev.wantOf n = some f → s.dev.fab.wants.get? [n] = some w →
      s.dev.ctrlReaches (n / 1024) = true → w.sent + s.dev.act uCRD CRD_CFG.REFRESH_US * 1000 ≤ s.dev.now →
      Makes (.creditRefresh n) s (s.dev.sendEntries (n / 1024) [(n, some f)]))
  ∧ (∀ (s : State) (p : Nat), s.dev.portInUse p = true → s.dev.holdState p = hUP → s.dev.mayCommit uCRD = true →
      let r := Dev.issueCredits 105 s.dev p
      r.2 ≠ [] → Makes (.creditGrantTx p) s ((r.2.map (fun g => g.1)).eraseDups.foldl (Dev.sendGrants p r.2)
        ((r.1.add uCRD CRD_GRANTS.COUNT r.2.length).tally uCRD 0x20 r.2.length)))
  ∧ (∀ (d : Dev) (p k c left : Nat), let at_ := d.fab.grantAt.getD 0 [p]
      (d.now * 65536 < at_ → Dev.issueCredits k d p = (d, []))
      ∧ (at_ ≤ d.now * 65536 → d.pickClass p = some (c, left) →
          let q := nextSource (d.fab.crdSrc.get? [p, c]) (d.asking p c)
          let e : Dev := { d with fab := { d.fab with
            crdTurn := d.fab.crdTurn.insert [p] (c, left), grantAt := d.fab.grantAt.insert [p] (at_ + d.creditTime p)
            reqs := d.fab.reqs.setD 0 [p, q, c] (d.fab.reqs.getD 0 [p, q, c] - d.creditUnits)
            crdSrc := d.fab.crdSrc.insert [p, c] q } }
          Dev.issueCredits (k + 1) d p = ((Dev.issueCredits k e p).1, (q, c) :: (Dev.issueCredits k e p).2)))
  ∧ (∀ (c : Nat) (es : List (Nat × Nat)), (∀ e ∈ es, e.2 ≤ 15) →
      (∀ e ∈ addToEntry c es, e.2 ≤ 15) ∧ ((addToEntry c es).map (fun e => e.2)).sum = (es.map (fun e => e.2)).sum + 1)
  ∧ (∀ (n : Nat) (es : List Nat), (∀ x ∈ packs n es, 1 ≤ x.length ∧ x.length ≤ 7) ∧ (es.length ≤ n → (packs n es).flatten = es))
  ∧ (∀ (s : State) (n : Nat) (b : List Byte), n < 160 → s.dev.linkSt n = fUP → cellCrcOk b = true → bit (leAt b 10 1) 0 = false →
      bit (leAt b 10 1) 2 = false → leAt b 8 1 = (s.dev.fabLink n).rxSeq → let x := s.dev.fabLink n
      let c := readCell b
      let y : FabLink := { x with rxSeq := (x.rxSeq + 1) % 256, naked := false, ackDue := some (x.ackDue.getD s.dev.now) }
      let d := ((s.dev.setFabLink n y).bump (uLNK n) ZFP_CELLS_RX.COUNT).tally (uLNK n) 0x21 1
      (c.kind = 2 → c.ctl = 1 → Makes (.creditReqRx n b true) s (d.ctrlStream c Dev.takeReq))
      ∧ (c.kind = 2 → c.ctl = 2 → Makes (.creditGrantRx n b true) s (d.ctrlStream c Dev.takeGrant))
      ∧ (c.kind = 3 → c.ctl = 4 → Makes (.portStateRx n b true) s (d.takePortState c)))
  ∧ (∀ (d : Dev) (c : Cell) (act : Dev → Cell → Dev), let r := ctrlCheck (d.fab.ctrl.get? [c.src]) c.epoch c.seq
      let e : Dev := { d with fab := { d.fab with ctrl := d.fab.ctrl.put [c.src] r.1 } }
      d.ctrlStream c act = if r.2 then act e c else e.bump uZFP ZFP_CTRL_DUP.COUNT)
  ∧ (∀ (d : Dev) (src p cls f : Nat), p < 128 → cls < 8 → f < 2 ^ 20 → ∀ on : Bool,
      (d.takeReqEntry src (leAt (reqEntry ((p + 128 * src) * 8 + cls) (if on then some f else none)) 0 4)).fab.reqs.getD 0 [p, src, cls] =
        if on then f else 0)
  ∧ (∀ (d : Dev) (c : Cell), d.fab.remote.get? [c.src] = none → c.src ≠ d.deviceId →
      (d.takePortState c).fab.remote.get? [c.src] = some ⟨c.epoch, leAt c.payload 4 4, leAt c.payload 0x20 32⟩)
  ∧ (∀ s : State, let up := allLinks.filter (fun n => s.dev.linkSt n == fUP)
      up ≠ [] → s.dev.fab.stateSeq = 0 ∨ s.dev.ownStates ≠ s.dev.fab.statesSent ∨ s.dev.fab.statesAt + 100000 ≤ s.dev.now →
      let seq := (s.dev.fab.stateSeq + 1) % 2 ^ 32
      let d : Dev := { s.dev with fab := { s.dev.fab with stateSeq := seq, statesSent := s.dev.ownStates, statesAt := s.dev.now } }
      let c : Cell := { kind := 3, src := s.dev.deviceId, epoch := s.dev.fab.epoch
                        payload := leBytes 1 4 ++ leBytes 3 0 ++ leBytes 4 seq ++ leBytes 24 0 ++ leBytes 32 s.dev.ownStates }
      Makes .portStateTx s ((d.spray c up).1.bump uCRD CRD_PORT_STATE_TX.COUNT))
  ∧ (∀ (s : State) (n : Nat) (h : QPkt), s.dev.voqHead n = some h → (s.dev.queue (.voq n)).expired s.dev.now = false →
      let q := s.dev.queue (.voq n)
      let d := (((s.dev.setQueue (.voq n) { q with credit := q.credit - h.desc.sendUnits }).popHead (.voq n)).dropLoc h.loc).noteUse
        [n / 1024]
      let c : Cell := { kind := 0, dest := n / 1024, cls := n % 8, src := d.deviceId, epoch := d.fab.epoch }
      (n / 1024 ≠ s.dev.deviceId → Makes (.voqSend n) s (d.sendOver [0, n / 1024, n % 8] c (d.reachSet (n / 1024)) h.desc
        (s.dev.locBytes h.loc)))
      ∧ (n / 1024 = s.dev.deviceId →
          Makes (.voqSend n) s (d.sendLoop [0, n / 1024, n % 8] c false h.desc (s.dev.locBytes h.loc))))
  ∧ (∀ (s : State) (c g : Nat) (h : QPkt), c < 8 → let r : QRef := .voq (s.dev.mcVoq c)
      let m := s.dev.mcClass c
      let at_ := s.dev.fab.mcAt.getD 0 [m]
      let t := s.dev.now * 65536
      s.dev.mcRate m ≠ 0 → at_ ≤ t → (s.dev.queue r).expired s.dev.now = false → s.dev.headReady r = some h → h.desc.group = some g →
      let iv := h.desc.length * 8 * 65536 / s.dev.mcRate m
      let d := (s.dev.popHead r).dropLoc h.loc
      Makes (.mcSend c) s (({ d with fab := { d.fab with
        mcAt := d.fab.mcAt.insert [m] ((if t < at_ + iv then at_ else t) + iv) } } : Dev).sendGroup g m h.desc (s.dev.locBytes h.loc)))
  ∧ (∀ s : State, (s.dev.watchOf 99).state = .declared → (s.dev.watchOf 99).taker = some 99 → s.dev.guardPassed 99 = true →
      let d := s.dev.setWatch 99 { s.dev.watchOf 99 with awaiting := false }
      Makes .creditTakeover s ((((((d.set 99 CRD_PAIR.ACTIVE_MEMBER (1 - d.get 99 CRD_PAIR.ACTIVE_MEMBER)).bump 99
        CRD_PAIR.TAKEOVERS).grantTurn 99 0 none).endDeclared 99).noStandby 99 99)))
  ∧ (∀ (s : State) (c : HCmd), s.dev.fabReady = true →
      let d := c.begun s.dev
      (c.accepted s.dev 0x0801 c.fabMcGroupSetParams → let g := c.par 0 15 0
        (c.par 0 16 16 = 0 → c.readOk = true →
          let e : Dev := { d with fab := { d.fab with leads := d.fab.leads.erase [g] } }
          Makes (.fabMcGroupSet c) s (((e.sideWrite true (groupAddr g) 4 4).setMcGroup g { d.mcGroup g with
            members := leAt c.block 0 128, egr := c.par 4 16 0, egrValid := c.par 4 17 17 == 1 }).finish c.ticket .ok))
        ∧ (c.par 0 16 16 = 1 → let x := d.mcGroup g
            let r := d.hostBlock c (c.par 8 63 0) (leBytes 128 x.members ++ leBytes 4 (x.egr + x.egrValid.toNat * 2 ^ 17)
              ++ leBytes 4 x.missed ++ leBytes 8 0) 0
            Makes (.fabMcGroupSet c) s ((if c.par 0 17 17 = 1 ∧ r.2.status = stOK then r.1.setMcGroup g { x with missed := 0 }
              else r.1).finish c.ticket r.2)))
      ∧ (c.accepted s.dev 0x0803 c.fabEgrGroupSetParams
            (c.par 0 17 17 == 1 || !(List.range (c.par 4 12 0)).any (fun q => bit (leAt c.block (4 * q) 4) 31)) →
          let g := c.par 0 16 0
          let n := c.par 4 12 0
          (c.par 0 17 17 = 0 → c.readOk = true → Makes (.fabEgrGroupSet c) s
            ((((Dev.putSlots n d (c.par 8 23 0) c.block).sideWrite true (egrAddr g) 4 1).setEgrGroup g
              { d.egrGroup g with base := c.par 8 23 0, count := n }).finish c.ticket .ok))
          ∧ (c.par 0 17 17 = 1 → let x := d.egrGroup g
              let r := d.hostBlock c (c.par 16 63 0) (leBytes 4 x.base ++ leBytes 4 x.count ++ leBytes 4 x.missDown
                ++ leBytes 4 x.missOther ++ ((List.range x.count).map (fun q =>
                  leBytes 4 (d.fab.slots.getD 0 [x.base + q]))).flatten) 0
              Makes (.fabEgrGroupSet c) s ((if c.par 0 18 18 = 1 ∧ r.2.status = stOK then
                r.1.setEgrGroup g { x with missDown := 0, missOther := 0 } else r.1).finish c.ticket r.2)))
      ∧ (c.accepted s.dev 0x0802 c.fabReachQueryParams →
          let r := d.hostBlock c (c.par 8 63 0) (((List.range (c.par 4 10 0)).map (fun q =>
            d.reachRecord (c.par 0 9 0 + q))).flatten) 0
          Makes (.fabReachQuery c) s (r.1.finish c.ticket r.2)))

/-! ### Stacked memory -/

/-- A refresh, a corrected error, an overdue request and a scrub pass are counted; an uncorrectable error is counted, logged and raised,
or counted as the read of a DEAD channel, and the BPM port's cuts the free list it meets. A trigger that may start does so, a periodic one
with the stacks of its side that are due waiting behind it; ROT_HOLD aborts a step and a dip's rotation resumes. A copy that is done switches the logical channel to its target. A vacated channel that trains is parked and the rotation goes on; one
that does not stops it. A lost channel's logical channel goes to the parked one, or DEAD. Stacks enter and leave deep-sleep with
standby. A dead F-side channel drops the learned entries in it.
Forms said to complete, each with the next state it answers: tableRemap, dramRefresh, odeccReport, eccUncorr, scrubPass,
rotationStart, rotationCopyDone, channelTrained, rotationResume, channelFailed, dramDeepSleepEnter, dramDeepSleepExit,
requestOverdue, rotHoldSet. -/
def Obligations.StackedMemory : Prop :=
  (∀ (s : State) (un : Nat), classOf un = 0x41 → s.dev.liveChannel un = true →
    Makes (.dramRefresh un false) s (s.dev.tally un 0x24 1)
    ∧ Makes (.dramRefresh un true) s ((s.dev.tally un 0x24 1).bump (parentOf un) DRC_REFRESH_FORCED.COUNT))
  ∧ (∀ (s : State) (k : Nat) (onDie secDed : List Nat), k < 8 →
      Makes (.odeccReport k onDie secDed) s ((List.range 17).foldl (fun d c =>
        ((d.add (uCHN k c) DRC_ODECC_CE.COUNT (onDie.getD c 0)).tallyUp (uCHN k c) 0x06 (onDie.getD c 0)).addCe k c
          (secDed.getD c 0)) s.dev))
  ∧ (∀ (d : Dev) (k c n : Nat), let sec := d.now / 1000000000
      ((d.stack k).ces.get? [c] = none → k < 8 → ((d.addCe k c n).stack k).ces.get? [c] = some ⟨sec, n, 0⟩)
      ∧ (∀ e, (d.stack k).ces.get? [c] = some e → k < 8 → ((d.addCe k c n).stack k).ces.get? [c] = some
          (if e.sec = sec then { e with count := e.count + n } else ⟨sec, n, if e.sec + 1 = sec then e.count else 0⟩))
      ∧ (∀ e, (d.stack k).ces.get? [c] = some e →
          (e.sec = sec → d.ceLast k c = e.before) ∧ (e.sec + 1 = sec → d.ceLast k c = e.count)
          ∧ (e.sec + 1 < sec → d.ceLast k c = 0)))
  ∧ (∀ (s : State) (q : Bool) (addr port source : Nat), addr < 2 ^ 34 → portOfSide q port = true → source ≤ 2 →
      source = 0 ∨ port = 8 →
      let c := sideChannel q addr
      let k := c / 16 + (if q then 4 else 0)
      (s.dev.flagI (uSTK k) DRC_CH_MAP.DEAD (c % 16) = true →
        Makes (.eccUncorr q addr port source) s (s.dev.add (uSTK k) DRC_DEAD_ACCESS.COUNT 1))
      ∧ (s.dev.flagI (uSTK k) DRC_CH_MAP.DEAD (c % 16) = false →
          let ph := s.dev.getI (uSTK k) DRC_CH_MAP.PHYS (c % 16)
          let d := ((s.dev.setStack k { s.dev.stack k with
            ues := (s.dev.stack k).ues.insert [ph] ((s.dev.now :: (s.dev.stack k).ues.getD [] [ph]).take 255) }).bump (uCHN k ph)
              DRC_UE.COUNT).tallyUp (uCHN k ph) 0x07 1
          let e := (((((d.set (uSTK k) DRC_UE_LOG.PHYS ph).set (uSTK k) DRC_UE_LOG.PORT port).set
            (uSTK k) DRC_UE_LOG.SOURCE source).set (uSTK k) DRC_UE_LOG.ADDR addr).set (uSTK k) DRC_UE_LOG.VALID 1).raiseKeyed
              [uSTK k, 0x11, 0] (uCHN k ph) 0x11 1000 (fun _ => leBytes 5 addr ++ leBytes 1 port ++ leBytes 1 source)
          Makes (.eccUncorr q addr port source) s (if port = 5 then e.cutList addr else e)))
  ∧ (∀ (d : Dev) (a p b : Nat), d.bufferAt a = some (p, b) → d.tm.owners.get? [p, b] = none →
      (d.freeList p (b % 1024)).cache.contains b = false → (d.cutList a).threaded p (b % 1024) = none)
  ∧ (∀ (d : Dev) (q : Bool) (a port n : Nat), d.sideDead q a = false → (d.sideWrite q a port n).sidePoisoned q a = false)
  ∧ (∀ (d : Dev) (q : Bool) (a : Nat), (d.poisonRange (sideStack q a) (sideChannel q a % 16)).sidePoisoned q a = true)
  ∧ (∀ (s : State) (k : Nat), k < 8 → s.dev.act (uSTK k) DRC_STACK_CFG.SCRUB_HOURS ≠ 0 →
      Makes (.scrubPass k) s (s.dev.bump (uSTK k) DRC_SCRUB_PASSES.COUNT))
  ∧ (∀ (s : State) (un port : Nat), classOf un = 0x41 → let st := parentOf un
      port = 8 ∨ (st < 516 ∧ port < 4) ∨ (516 ≤ st ∧ 4 ≤ port ∧ port < 8) →
      Makes (.requestOverdue un port) s (((s.dev.bumpI st DRC_OVERDUE.COUNT port).tallyQ un 0x25 1 (selDramPort port)).raiseOnce st
        0x16 port (fun n => leBytes 1 port ++ leBytes 4 n)))
  ∧ (∀ (s : State) (k trigger c : Nat), k < 8 → trigger ≤ 2 → s.dev.triggered k trigger c = true → s.dev.mayRotate k trigger = true →
      s.dev.sideRotating k = false → s.dev.dram.waiting = [] →
      (trigger ≠ 0 → Makes (.rotationStart k trigger c) s (s.dev.launch k trigger c))
      ∧ (trigger = 0 → let due (t : Nat) : Bool := s.dev.triggered t 0 0 && s.dev.mayRotate t 0
          (∀ q < k % 4, due (k / 4 * 4 + q) = false) →
          let others := ((List.range 4).map (fun q => k / 4 * 4 + q)).filter (fun t => due t && t != k)
          Makes (.rotationStart k 0 c) s
            (({ s.dev with dram := { s.dev.dram with waiting := others.map (fun t => (t, 0, 0)) } } : Dev).launch k 0 0)))
  ∧ (∀ (d : Dev) (k trigger p c x : Nat), x = c ∧ trigger = 2 ∧ c ≠ p ∧ (d.logicalOf k c).isSome = true
        ∨ trigger ≠ 2 ∧ d.oldestTrained k p [] = some x →
      d.rotate k trigger p c = (((d.setFlag (uSTK k) DRC_STACK_STATUS.ROTATING true).rises (uSTK k) 0x21).raise (uSTK k) 0x10
        (leBytes 1 1 ++ leBytes 1 trigger ++ leBytes 1 0)).beginStep k { trigger := trigger, x := x, p := p, chan := c })
  ∧ (∀ (s : State) (k : Nat), k < 8 →
      Makes (.rotHoldSet k) s ((s.dev.setFlag (uSTK k) DRC_STACK_CFG.ROT_HOLD true).abortRotation k))
  ∧ (∀ (d : Dev) (k : Nat), ((d.stack k).rot = none → d.abortRotation k = d)
      ∧ ∀ r, (d.stack k).rot = some r → r.training = false →
          let e := d.setRole k r.x roSERVICE
          d.abortRotation k = ((((if d.svc (uCHN k r.p) = sSHADOW then e.await k 4 r.p else e.setRole k r.p roPARKED).bump (uSTK k)
            DRC_ROT_INFO.ABORTS).raise (uSTK k) 0x10 (leBytes 1 2 ++ leBytes 1 r.trigger ++ leBytes 1 (r.step - 1))).endRotation k))
  ∧ (∀ (s : State) (k t c since : Nat), (s.dev.stack k).resume = some (t, c, since) → since ≤ s.dev.now →
      (s.dev.stack k).untrained = none → let d := s.dev.setStack k { s.dev.stack k with resume := none }
      Makes (.rotationResume k) s (if t = 4 then d.startWaiting (k / 4) else d.trigger k t c))
  ∧ (∀ (s : State) (k : Nat) (o : ShadowOut) (r : Rotation), k < 8 → (s.dev.stack k).rot = some r → r.training = false → r.p < 17 →
      r.x < 17 → r.p ≠ r.x → s.dev.svc (uCHN k r.p) ≠ sSHADOW → ∃ b, Makes (.rotationCopyDone k o) s b
        ∧ b.getI (uSTK k) DRC_CH_MAP.PHYS ((s.dev.logicalOf k r.x).getD 0) = r.p ∧ b.svc (uCHN k r.p) = sACTIVE
        ∧ b.svc (uCHN k r.x) = sOFF ∧ b.get (uCHN k r.x) DRC_CH_STATUS.ROLE = roTRAINING
        ∧ (b.stack k).rot = some { r with training := true, pointer := logicalBytes })
  ∧ (∀ (s : State) (un margin : Nat) (r : Rotation), classOf un = 0x41 → margin ≤ 100 → let k := (un - 520) / 17
      let c := physOf un
      s.dev.get (uSTK k) UF_STATE.SLEEP_STATE ≠ 2 → s.dev.rid.tests.get? [un] = none → (s.dev.stack k).up = true →
      (s.dev.stack k).rot = some r → r.training = true → r.x = c →
      Makes (.channelTrained un (some 0) margin) s (((s.dev.noteTraining k c 0 margin).park k c).nextStep k r)
      ∧ Makes (.channelTrained un none margin) s ((((s.dev.trainFailed k c 1).setFlag (uSTK k) DRC_STACK_STATUS.NO_SPARE true).set
          (uSTK k) DRC_STACK_STATUS.SPARE_PHYS 0x1F).stopRotating k 0))
  ∧ (∀ (s : State) (un : Nat), classOf un = 0x41 → s.dev.svc un = sACTIVE → let k := (un - 520) / 17
      Makes (.channelFailed un 1) s (s.dev.loseChannel un 1 0 4)
      ∧ (s.dev.act (uSTK k) DRC_STACK_CFG.UE_FAIL_TH ≤
            (((s.dev.stack k).ues.getD [] [physOf un]).filter (fun t => decide (s.dev.now < t + 1000000000))).length →
          Makes (.channelFailed un 2) s (s.dev.loseChannel un 2 0 1)))
  ∧ (∀ (d : Dev) (un cause hard l : Nat), classOf un = 0x41 → d.svc un = sACTIVE → let k := (un - 520) / 17
      let p := d.get (uSTK k) DRC_STACK_STATUS.SPARE_PHYS
      let b := d.loseChannel un cause 0 hard
      d.logicalOf k (physOf un) = some l →
      (p < 17 → d.svc (uCHN k p) = sSPARE → b.getI (uSTK k) DRC_CH_MAP.PHYS l = p ∧ b.svc (uCHN k p) = sACTIVE
        ∧ b.flag (uSTK k) DRC_STACK_STATUS.NO_SPARE = true)
      ∧ (¬ (p < 17 ∧ d.svc (uCHN k p) = sSPARE) → b.flagI (uSTK k) DRC_CH_MAP.DEAD l = true))
  ∧ (∀ (s : State) (k : Nat), k < 8 →
      (s.dev.get 0 PWR_CTRL.STBY_STATE = 1 → s.dev.get (uSTK k) UF_STATE.SLEEP_STATE ≠ 2 → let d := (s.dev.sleepStack k 2).abortRotation k
        Makes (.dramDeepSleepEnter k) s ((d.setStack k { d.stack k with resume := none }).settleStandby))
      ∧ (s.dev.get 0 PWR_CTRL.STBY_STATE = 3 → s.dev.get (uSTK k) UF_STATE.SLEEP_STATE = 2 → let d := (s.dev.sleepStack k 0).loseRows k
          let e := if 4 ≤ k ∧ (List.range 4).all (fun q => d.get (uSTK (4 + q)) UF_STATE.SLEEP_STATE != 2) then d.emptySpillway else d
          Makes (.dramDeepSleepExit k) s
            (if e.flag (uSTK k) DRC_STACK_CFG.TRIG_EN then e.trigger k 3 0 else e.startWaiting (k / 4)).settleStandby))
  ∧ (∀ (s : State) (c : Nat), s.dev.deadF.find? (fun c => !s.dev.dram.remapped.contains c) = some c →
      let d := ({ s.dev with
        dram := { s.dev.dram with remapped := s.dev.dram.remapped ++ [c] }
        fwd := { s.dev.fwd with em := s.dev.fwd.em.filter (fun e => !(e.2.learned && e.2.inChannel c)) } } : Dev).showEm
      let e := d.shrink TBE_OCC1.EM_LIMIT 0x04000000 d.emUsed d.dram.remapped.length [tL2, tHOST4, tHOST6, tTUNNEL, tFLOW]
      Makes .tableRemap s (e.shrink TBE_OCC1.LPM_LIMIT 0x00A00000 e.lpmUsed d.dram.remapped.length [tLPM4, tLPM6]))

/-! ### Ditch riders -/

/-- A unit in service without a turn is granted one under a new TURN_SEQ for the turn length; a renewal extends what it holds, a late
one is a soft input; a turn past its expiry, a unit's own or a replay turn, lapses, a hard indicator. A first soft input opens the decision window, a second of
another kind within it, or a hard indicator, declares the unit FAILED; a window that ends clears it; a step that fails the host interface loses its link. A failed flume's
entries go to its taker in order, once the guard has passed, those that cannot be read are dropped; the last replayed item completes the takeover. The spare editor and the standby
scheduler go on from where the failed one stopped. A rider copy that disagrees is resynchronised, dropped, or fails its die.
Forms said to complete, each with the next state it answers: schedulerTakeover, turnGrant, turnRenewal, turnLapsed, suspect,
decideWindowExpire, faultDeclare, replayTurnGrant, takeoverDone, editorTakeover, riderCopy. -/
def Obligations.RidersSuperviseUnits : Prop :=
  (∀ (s : State) (un : Nat), holdsTurns un = true → s.dev.flag (riderOf un) RID_STATUS.FAILED = false →
    (s.dev.svc un = sACTIVE → (s.dev.watchOf un).state ≠ .declared → (∀ t, s.dev.turn un 0 = some t → t.lapsed = true) →
      Makes (.turnGrant un) s (s.dev.grantTurn un 0 none))
    ∧ (∀ f, s.dev.svc un = sSPARE → s.dev.failedOf un = some f → classOf un = 0x11 → Makes (.turnGrant un) s
        ((((s.dev.setSvc un sACTIVE).setStream un (s.dev.streamOf f)).grantTurn un 0 none).showGroup un)))
  ∧ (∀ (d : Dev) (un kind : Nat) (cover : Option (List Nat)), let r := riderOf un
      let seq := (d.rid.seq.getD 0 [r] + 1) % 2 ^ 32
      d.flag r RID_STATUS.FAILED = false → (d.grantTurn un kind cover).turn un kind =
        some { seq := seq, expiry := d.now + d.act r RID_CFG.TURN_LEN_US * 1000, last := d.now, covers := cover }
      ∧ (d.grantTurn un kind cover).get un UF_TURN.TURN_SEQ = seq)
  ∧ (∀ (d : Dev) (un kind : Nat) (t : Turn), d.turn un kind = some t → t.current d.now = true →
      (d.renewTurn un kind).turn un kind = some { t with expiry := d.now + d.turnLen (riderOf un), last := d.now })
  ∧ (∀ (s : State) (un : Nat) (t : Turn), s.dev.turn un 0 = some t → (s.dev.watchOf un).state ≠ .declared → s.dev.stopped un = false →
      let r := riderOf un
      s.dev.flag r RID_STATUS.FAILED = false → t.current s.dev.now = true →
      let held := (s.dev.turnKinds un).filter (fun k => (s.dev.turn un k).any (fun t => t.current s.dev.now))
      let d := ((held.foldl (fun d k => d.renewTurn un k) s.dev).tally r 0x21 held.length).tallyUp un 0x04 1
      (s.dev.now - t.last ≤ s.dev.turnLen r / 2 → Makes (.turnRenewal un) s (s.dev.hostAfter (fun _ => d)))
      ∧ (s.dev.turnLen r / 2 < s.dev.now - t.last →
          Makes (.turnRenewal un) s (s.dev.hostAfter (fun _ => (d.tallyUp un 0x05 1).softAny un 0))))
  ∧ (∀ (s : State) (un k : Nat) (t : Turn), s.dev.turnKinds un = [k] → s.dev.turn un k = some t → t.lapsed = false → t.expiry ≤ s.dev.now →
      Makes (.turnLapsed un) s (s.dev.hostAfter (fun d => ((((d.putTurn un k (some { t with lapsed := true })).showHolder un).bump
        (riderOf un) RID_LAPSES.COUNT).raise un 0x02 (leBytes 4 t.seq)).hardAny un 2)))
  ∧ (∀ (s : State) (un q : Nat), s.dev.isWatched un = true → q < 3 → let r := riderOf un
      let d := s.dev.endWindow un
      let w := d.watchOf un
      (w.state = .watched →
        let v := { w with state := .suspect, inputs := 2 ^ q, windowEnd := d.now + d.act r RID_CFG.DECIDE_WINDOW_US * 1000 }
        Makes (.suspect un q) s (s.dev.hostAfter (fun _ => ((d.setWatch un v).bump r RID_SUSPECTS.COUNT).raise r 0x10
          (leBytes 2 un ++ leBytes 1 (2 ^ q) ++ leBytes 1 1))))
      ∧ (w.state = .suspect → bit w.inputs q = false →
          Makes (.suspect un q) s (s.dev.hostAfter (fun _ => d.declareAny un (w.inputs + 2 ^ q) 0)))
      ∧ (w.state = .suspect → bit w.inputs q = true → Makes (.suspect un q) s (s.dev.hostAfter (fun _ => d))))
  ∧ (∀ (d : Dev) (un : Nat), let w := d.watchOf un
      let r := riderOf un
      (w.state = .suspect → w.windowEnd ≤ d.now → d.endWindow un = ((d.setWatch un {}).bump r RID_CLEARED.COUNT).raise r 0x10
        (leBytes 2 un ++ leBytes 1 w.inputs ++ leBytes 1 0))
      ∧ (w.state ≠ .suspect ∨ d.now < w.windowEnd → d.endWindow un = d))
  ∧ (∀ (s : State) (un : Nat), (s.dev.watchOf un).state = .suspect → (s.dev.watchOf un).windowEnd ≤ s.dev.now →
      let r := riderOf un
      Makes (.decideWindowExpire un) s (((s.dev.setWatch un {}).bump r RID_CLEARED.COUNT).raise r 0x10
        (leBytes 2 un ++ leBytes 1 (s.dev.watchOf un).inputs ++ leBytes 1 0)))
  ∧ (∀ (s : State) (un k : Nat), s.dev.isWatched un = true → 1 ≤ k → k ≤ 4 →
      Makes (.faultDeclare un k) s (s.dev.hostAfter (fun d => (d.endWindow un).declareAny un ((d.endWindow un).watchOf un).inputs k)))
  ∧ (∀ (d : Dev) (un inp hard : Nat), classOf un = 0x11 → let w := (d.declare un inp hard).watchOf un
      d.declareAny un inp hard = d.declare un inp hard ∧ (d.declare un inp hard).svc un = sFAILED
      ∧ w.state = .declared ∧ w.awaiting = true ∧ w.declaredAt = d.now ∧ w.taker = d.spareOf un)
  ∧ (∀ (s : State) (un t : Nat), classOf un = 0x11 → let w := s.dev.watchOf un
      w.state = .declared → w.awaiting = true → s.dev.guardPassed un = true → w.taker = some t → s.dev.svc t = sACTIVE →
      let held := s.dev.inOrder un
      ∀ unreadable : List Nat,
      let bad := held.filter (fun k => unreadable.contains k.latSeq)
      let good := held.filter (fun k => !unreadable.contains k.latSeq)
      let seqs := good.map (fun k => k.latSeq)
      let d := held.foldl (fun d k => if k.committed then d.applyUpdates k.updates else d) s.dev
      let d := bad.foldl (fun d k => d.discardEntry un k) d
      let d := d.setWatch un { w with awaiting := false, open_ := seqs, replayed := good.length, discarded := (bad.filter (fun k => !k.committed)).length, replayFirst := seqs.headD 0 }
      let d := ((d.releaseTurn un).setWindow un []).showEpoch
      let d := (((d.grantTurn t un (some seqs)).add t FLM_REPLAYED.COUNT good.length).tally t 0x22 good.length)
      Makes (.replayTurnGrant un unreadable) s (d.setWindow t (good.map Pkt.again ++ d.window t)).showEpoch)
  ∧ (∀ (s : State) (un t : Nat), let w := s.dev.watchOf un
      w.state = .declared → w.awaiting = false → w.open_ = [] → w.taker = some t →
      Makes (.takeoverDone un) s ((if classOf un = 0x11 then s.dev.raise t 0x10 (leBytes 4 w.replayFirst ++ leBytes 2 w.replayed)
        else s.dev).endDeclared un))
  ∧ (∀ (s : State) (un t : Nat), classOf un = 0x19 → let w := s.dev.watchOf un
      w.state = .declared → w.taker = some t → s.dev.guardPassed un = true → s.dev.svc t = sSPARE →
      let d := s.dev.setWatch un { w with awaiting := false, replayed := s.dev.heldForGroup (s.dev.get un EDT_STATUS.PORT_GROUP) }
      let d := ((d.releaseTurn un).moveGroup un t).setSvc t sACTIVE
      let e := (d.setStream t (d.streamOf un)).grantTurn t 0 none
      Makes (.editorTakeover un) s (((e.showGroup t).endDeclared un).settlePorts (groupPorts (e.get t EDT_STATUS.PORT_GROUP))))
  ∧ (∀ (s : State) (pause : Nat), let a := s.dev.activeSched
      let b := if a = 97 then 98 else 97
      let w := s.dev.watchOf a
      w.state = .declared → w.taker = some b → s.dev.guardPassed a = true → s.dev.svc b = sSPARE →
      let d := ((s.dev.setWatch a { w with awaiting := false }).set uSCH TMS_PAIR.ACTIVE_UN b).bump uSCH TMS_PAIR.TAKEOVERS
      let d := (d.set uSCH TMS_PAIR.STANDBY_SYNC 0).releaseTurn a
      let d := ((d.setSvc b sACTIVE).setStream b (d.streamOf a)).grantTurn b 0 none
      Makes (.schedulerTakeover pause) s (((d.raise b 0x10 (leBytes 2 b ++ leBytes 4 pause)).endDeclared a).noStandby b a))
  ∧ (∀ (s : State) (r copy : Nat), classOf r = 0x05 → copy < 3 → bit (s.dev.get r RID_STATUS.COPIES_OK) copy = true →
      s.dev.flag r RID_STATUS.FAILED = false →
      let ev (d : Dev) (o : Nat) : Dev := d.raise r 0x14 (leBytes 1 copy ++ leBytes 1 o)
      (s.dev.flag r RID_STATUS.DUPLEX = true → Makes (.riderCopy r copy) s
        (ev ((s.dev.setFlag r RID_STATUS.FAILED true).dieFail (if r = 8 then 1 else 2) 0x0009) 2))
      ∧ (s.dev.flag r RID_STATUS.DUPLEX = false →
          (∀ t, s.dev.rid.resync.get? [r, copy] = some t → s.dev.now < t + 1000000000 → Makes (.riderCopy r copy) s
            (ev (((s.dev.set r RID_STATUS.COPIES_OK (setBit (s.dev.get r RID_STATUS.COPIES_OK) copy false)).setFlag r
              RID_STATUS.DUPLEX true).setFigure r (some 1000000)) 1))
          ∧ ((∀ t, s.dev.rid.resync.get? [r, copy] = some t → t + 1000000000 ≤ s.dev.now) →
              Makes (.riderCopy r copy) s (ev (({ s.dev with rid := { s.dev.rid with
                resync := s.dev.rid.resync.insert [r, copy] s.dev.now } } : Dev).bump r RID_RESYNC.COUNT) 0))))

/-! ### The host interface -/

/-- TIMEOUT_S without a sign of the host makes the device HEADLESS, a heartbeat or HOST_ALIVE makes it ATTENDED. A host link reset
cuts every host command off, clears MSI-X, raises HIF_EPOCH and, but for FLR, takes the link down; PCIE_LINK shows the link.
Enabling a ring that is ready starts it empty, disabling an SQ drains it, an RXQ ends its posted buffers, a CQ that a ring names and a
request in the wrong state are refused. A good doorbell
moves TAIL or HEAD, another is counted and reported, and a write of BAR2 beside the doorbells' low halves is ignored. A fetch takes the descriptor at HEAD, or an error takes the ring to ERROR. A
chain's NEXT is read before the completion is written; a NEXT of 0 read as 0 ends it early.
Forms said to complete, each with the next state it answers: headlessTimeout, heartbeat, hostAlive, hostLinkReset, pcieLink,
ringEnable, ringDisable, ringErrClear, ringDrained, ringError, sqDoorbell, cqDoorbell, eqDoorbell, sqFetch, chainNextRead,
coalTimer. -/
def Obligations.HostLinkAndRings : Prop :=
  (∀ (s : State) (t : Nat), s.dev.hdl.alive = some t → s.dev.act 0 HDL_CFG.TIMEOUT_S ≠ 0 →
    t + 1000000000 * s.dev.act 0 HDL_CFG.TIMEOUT_S ≤ s.dev.now → Makes .headlessTimeout s (s.dev.setHeadless true))
  ∧ (∀ (d : Dev) (on : Bool), d.now < 2 ^ 64 → d.flag 0 HDL_STATUS.HEADLESS ≠ on → let b := d.setHeadless on
      b.flag 0 HDL_STATUS.HEADLESS = on ∧ b.get 0 HDL_SINCE.TIME = d.now
      ∧ b.hasRaised 0 0x18 (leBytes 1 on.toNat ++ leBytes 2 d.hdl.log.length))
  ∧ (∀ s : State, Makes .heartbeat s (({ s.dev with hdl := { s.dev.hdl with
      alive := if s.dev.flag uHIF HIF_STATUS.FW_READY = true ∨ s.dev.hdl.alive.isSome = true then some s.dev.now else none } } :
        Dev).setHeadless false))
  ∧ (∀ (s : State) (c : HCmd), c.accepted s.dev 0x0004 [] → let d := c.begun s.dev
      Makes (.hostAlive c) s (({ d.attended with hdl := { d.attended.hdl with host := true } } : Dev).finish c.ticket
        (.ok ((d.flag 0 HDL_STATUS.HEADLESS).toNat + 2 ^ 16 * d.attended.hdl.log.length))))
  ∧ (∀ s : State, let d := s.dev.cutHost
      let e := ({ d with hif := { d.hif with msix := [], pba := 0 } } : Dev).set uHIF HIF_STATUS.HIF_EPOCH
        (d.get uHIF HIF_STATUS.HIF_EPOCH + 1)
      Makes (.hostLinkReset 2) s e
      ∧ ∀ cause, cause ≠ 2 → Makes (.hostLinkReset cause) s
          (((e.set uHIF HIF_STATUS.RATE 0).set uHIF HIF_STATUS.WIDTH 0).set uHIF HIF_STATUS.FLIT 0))
  ∧ (∀ (d : Dev) (k : Nat), d.cutHost.ringState k = rDISABLED ∧ d.cutHost.hif.posted = []
      ∧ d.cutHost.hif.inflight = d.hif.inflight.filter (fun f => !f.ticket.sq.isSome))
  ∧ (∀ (s : State) (rate width flit cause : Nat),
      Makes (.pcieLink rate width flit cause) s ((((s.dev.set uHIF HIF_STATUS.RATE rate).set uHIF HIF_STATUS.WIDTH width).set uHIF
        HIF_STATUS.FLIT flit).raise uHIF 0x10 (leBytes 1 rate ++ leBytes 1 width ++ leBytes 1 flit ++ leBytes 1 cause)))
  ∧ (∀ (s : State) (kind n : Nat), s.dev.selRing = some (kind, n) → let k := ringIx kind n
      let refused := s.dev.setI uHIF HIF_RING_CTRL.REFUSED k 1
      (s.dev.ringState k = rDISABLED → s.dev.ringReady kind k = true → s.dev.flag 0 FW_STATUS.RECOVERY = false → kind ≠ kRXQ →
        let d := (((s.dev.setI uHIF HIF_RING_STATE.HEAD k 0).setI uHIF HIF_RING_STATE.TAIL k 0).setI uHIF HIF_RING_STATE.PHASE k
          1).setI uHIF HIF_RING_STATE.ARMED k 1
        Makes .ringEnable s (({ d with hif := { d.hif with unsig := d.hif.unsig.erase [k] } } : Dev).setI uHIF HIF_RING_STATE.STATE
          k rENABLED))
      ∧ (s.dev.ringState k = rDISABLED → s.dev.ringReady kind k = true → s.dev.flag 0 FW_STATUS.RECOVERY = false → kind = kRXQ →
        Makes .ringEnable s (s.dev.setI uHIF HIF_RING_STATE.STATE k rENABLED))
      ∧ (∀ x ∈ [(Instr.ringDisable, rENABLED), (Instr.ringErrClear, rERROR)], s.dev.ringState k = x.2 →
          (kind = kCQ → s.dev.cqNamed n = true → Makes x.1 s refused)
          ∧ (kind = kEQ ∨ (kind = kCQ ∧ s.dev.cqNamed n = false) → Makes x.1 s (s.dev.setI uHIF HIF_RING_STATE.STATE k rDISABLED))
          ∧ (kind = kRXQ → Makes x.1 s ((((s.dev.hif.posted.filter (fun p => p.rxq == n)).foldl
              (fun d p => d.finishPosted p (.fail stUNIT_UNAVAILABLE)) s.dev).dropRxHeld n).setI uHIF HIF_RING_STATE.STATE k
                rDISABLED)))
      ∧ (s.dev.ringState k ≠ rDISABLED ∨ s.dev.ringReady kind k = false ∨ s.dev.flag 0 FW_STATUS.RECOVERY = true →
          Makes .ringEnable s refused)
      ∧ (s.dev.ringState k = rENABLED → kind = kSQ → Makes .ringDisable s
          (s.dev.setI uHIF HIF_RING_STATE.STATE k (if s.dev.sqBusy n then rDISABLING else rDISABLED)))
      ∧ (s.dev.ringState k ≠ rENABLED → Makes .ringDisable s refused)
      ∧ (s.dev.ringState k = rERROR → kind = kSQ → Makes .ringErrClear s
          (s.dev.setI uHIF HIF_RING_STATE.STATE k (if s.dev.sqBusy n then rDISABLING else rDISABLED)))
      ∧ (s.dev.ringState k ≠ rERROR → Makes .ringErrClear s refused))
  ∧ (∀ (s : State) (n : Nat), n < 4096 → s.dev.ringState (ringIx kSQ n) = rDISABLING → s.dev.sqBusy n = false →
      Makes (.ringDrained n) s (s.dev.setI uHIF HIF_RING_STATE.STATE (ringIx kSQ n) rDISABLED))
  ∧ (∀ (s : State) (kind n : Nat), kind = kSQ ∨ kind = kCQ ∨ kind = kEQ → n < ringCount kind →
      s.dev.ringState (ringIx kind n) = rENABLED ∨ s.dev.ringState (ringIx kind n) = rDISABLING →
      Makes (.ringError kind n) s (((s.dev.bump uHIF HIF_DMA_ERR.COUNT).setI uHIF HIF_RING_STATE.STATE (ringIx kind n) rERROR).raise
        uHIF 0x12 (leBytes 2 (n + kind * 2 ^ 12) ++ leBytes 1 (if kind = kSQ then 0 else 1))))
  ∧ (∀ (kind n : Nat), kind = kSQ ∨ kind = kCQ ∨ kind = kEQ → n < ringCount kind → bar2Ring (bar2Off kind n) = some (kind, n))
  ∧ (∀ (d : Dev) (off value : Nat) (h : Half), h = .high ∨ bar2Ring off = none → d.bar2Write off h value = d)
  ∧ (∀ (s : State) (n value : Nat), n < 4096 → let k := ringIx kSQ n
      let v := value % 65536
      let dist := (v + 65536 - s.dev.getI uHIF HIF_RING_STATE.HEAD k) % 65536
      (s.dev.ringState k = rENABLED → s.dev.ringUsed k ≤ dist → dist ≤ s.dev.ringSize k →
        Makes (.sqDoorbell n value) s (s.dev.setI uHIF HIF_RING_STATE.TAIL k v))
      ∧ (s.dev.ringState k = rENABLED → dist < s.dev.ringUsed k ∨ s.dev.ringSize k < dist →
          Makes (.sqDoorbell n value) s (s.dev.doorbellBad kSQ n v 0))
      ∧ (s.dev.ringState k ≠ rENABLED → Makes (.sqDoorbell n value) s (s.dev.doorbellBad kSQ n v 1)))
  ∧ (∀ (s : State) (n value : Nat),
      let taken (kind : Nat) (p : Dev → Prop) : Prop :=
        let k := ringIx kind n
        let v := value % 65536
        let dist := (v + 65536 - s.dev.getI uHIF HIF_RING_STATE.HEAD k) % 65536
        let d := s.dev.setI uHIF HIF_RING_STATE.HEAD k v
        let left := d.ringUsed k
        let u := d.hif.unsig.getD [] [k]
        let e : Dev := { d with hif := { d.hif with unsig := d.hif.unsig.setD [] [k] (u.drop (u.length - left)) } }
        let armed := e.setI uHIF HIF_RING_STATE.ARMED k 1
        n < ringCount kind →
          (s.dev.ringState k = rENABLED → dist ≤ s.dev.ringUsed k →
            p (if bit value 16 = false then e else if left = 0 then armed else armed.signalRing k).goOn)
          ∧ (s.dev.ringState k = rENABLED → s.dev.ringUsed k < dist → p (s.dev.doorbellBad kind n v 0))
          ∧ (s.dev.ringState k ≠ rENABLED → p (s.dev.doorbellBad kind n v 1))
      taken kCQ (fun d => Makes (.cqDoorbell n value) s d) ∧ taken kEQ (fun d => Makes (.eqDoorbell n value) s d))
  ∧ (∀ (s : State) (kind n o : Nat), kind = kCQ ∨ kind = kEQ → let k := ringIx kind n
      let t := s.dev.getI uHIF HIF_RING_CFG.TIME k
      (s.dev.hif.unsig.getD [] [k]).head? = some o → s.dev.flagI uHIF HIF_RING_STATE.ARMED k = true → t ≠ 0 →
      o + 1000 * t ≤ s.dev.now → Makes (.coalTimer kind n) s (s.dev.signalRing k))
  ∧ (∀ (s : State) (sq left : Nat) (desc : List Byte), s.dev.nextSq = some (sq, left) → let k := ringIx kSQ sq
      let h := s.dev.getI uHIF HIF_RING_STATE.HEAD k
      let t : Ticket := ⟨.ring sq h, slice desc 0 64⟩
      let d := ({ s.dev with hif := { s.dev.hif with turn := (sq, left - 1) } } : Dev).setI uHIF HIF_RING_STATE.HEAD k (h + 1)
      Makes (.sqFetch desc true) s (((d.begin t none).screen t).goOn)
      ∧ Makes (.sqFetch desc false) s (s.dev.ringError kSQ sq))
  ∧ (∀ (s : State) (q closing a sq : Nat) (desc : List Byte) (p : Parked) (b : Bool), s.dev.hif.parked[q]? = some p →
      s.dev.awaitsRead p = true → p.ticket.sq = some sq →
      let took (d : Dev) : Dev := { d with hif := { d.hif with parked := d.hif.parked.erase p } }
      let left := (s.dev.hif.parked.erase p).length
      (p.ticket.next = a → a ≠ 0 → a % 64 = 0 → let d := took s.dev
        let e : Dev := { d with hif := { d.hif with
          chainNext := d.hif.chainNext ++ [(Ticket.mk (.chained sq a p.root) (slice desc 0 64), p.root)] } }
        Makes (.chainNextRead q desc closing true b) s
          (((e.writeCpl p.ticket ⟨p.status, p.result, p.bad⟩ p.rxq false 0).releaseFills left p.rxq).goOn))
      ∧ (p.ticket.next = 0 → let d := took (s.dev.tally uHIF 0x23 8)
          Makes (.chainNextRead q desc 0 b true) s
            (((d.writeCpl p.ticket ⟨p.status, p.result, p.bad⟩ p.rxq true stCHAIN_ENDED_EARLY).releaseFills left p.rxq).goOn)))

/-- A NOP, which takes no parameters, completes with OK and a RESULT that is the device time at which it is carried out; what
completing it leaves behind apart, the device is as before.
Forms said to complete, each with the next state it answers: nop. -/
def Obligations.NopReturnsDeviceTime : Prop :=
  ∀ (s : State) (c : HCmd), c.accepted s.dev 0x0001 [] → Completes (.nop c) s c.ticket ⟨stOK, s.dev.now, 0⟩ s.dev

/-- A FENCE waits behind what its scope names, an agent's behind what SCOPE 0 does. SUMMARY writes the block, or its header alone with NO_RESOURCE. A resynchronisation
starts, with ABANDON after cutting the host off, and ends with the block in host memory. A punt goes to its RXQ, to the liveness
engine, the PTP service, an agent, or is dropped while HEADLESS. PKT_TX queues a packet, with DROPPED and the cause in its result, or
injects it at a port. RX_BUF_POST is refused by a ring that is not ENABLED or beyond the limits; accepted, it leaves its SQ and waits
for a packet.
Forms said to complete, each with the next state it answers: fence, summary, resyncTrigger, resyncAbandon, resyncDone,
puntDeliver, pktTx, rxBufPost. -/
def Obligations.HostCommandsAndPunts : Prop :=
  (∀ (s : State) (c : HCmd) (f : InFlight), c.accepted s.dev 0x0002 fenceParams → let d := c.begun s.dev
    d.hif.inflight.find? (fun f => f.ticket == c.ticket) = some f →
    let scope := if c.ticket.agent?.isSome then 0 else c.par 0 0 0
    Makes (.fence c) s ((({ d with hif := { d.hif with fences := d.hif.fences ++ [⟨c.ticket, f.no, f.root, scope⟩] } } :
      Dev).noteStarted c.ticket).goOn))
  ∧ (∀ (s : State) (c : HCmd), c.accepted s.dev 0x0003 c.summaryParams → c.writeOk = true → let d := c.begun s.dev
      let b := d.sumBlock false
      (c.par 0 16 0 < b.length → Makes (.summary c) s
        ((d.dataWrite c.ticket (c.par 8 63 0) (b.take 64)).finish c.ticket (.fail stNO_RESOURCE b.length)))
      ∧ (b.length ≤ c.par 0 16 0 → Makes (.summary c) s
          ((d.dataWrite c.ticket (c.par 8 63 0) b).sumWritten.finish c.ticket (.ok b.length))))
  ∧ (∀ s : State, s.dev.flag 0 HIF_RESYNC.BUSY = false →
      let start (d : Dev) (waits : Bool) : Dev := ((({ d with hif := { d.hif with resync := some waits } } : Dev).set 0
        HIF_RESYNC.BUSY 1).set 0 HIF_RESYNC.DONE 0).set 0 HIF_RESYNC.ERROR 0
      Makes .resyncTrigger s (start s.dev false) ∧ Makes .resyncAbandon s (start s.dev.cutHost true))
  ∧ (∀ (s : State) (waits : Bool), s.dev.hif.resync = some waits → (waits = true → s.dev.hif.lost = []) →
      let d : Dev := { s.dev with hif := { s.dev.hif with resync := none } }
      let b := d.sumBlock true
      let e := d.set 0 HIF_RESYNC.BUSY 0
      Makes (.resyncDone true) s (((((e.hostWrite (e.get 0 HIF_RESYNC_ADDR.ADDR * 2 ^ 12) b).sumWritten.set 0 HIF_RESYNC.DONE 1).set 0
        HIF_RESYNC.LENGTH b.length).raise uHIF 0x14 (leBytes 4 b.length ++ leBytes 1 0)))
      ∧ Makes (.resyncDone false) s ((((e.bump uHIF HIF_DMA_ERR.COUNT).set 0 HIF_RESYNC.ERROR 1).raise uHIF 0x14
          (leBytes 4 b.length ++ leBytes 1 1))))
  ∧ (∀ (s : State) (k : Punt) (rest : List Punt) (w : Bool), s.dev.hif.punts = k :: rest →
      let d : Dev := { s.dev with hif := { s.dev.hif with punts := rest } }
      let target := s.dev.getI uCLS PNT_Q_CFG.TARGET k.queue
      let dest := s.dev.getI uCLS PNT_Q_CFG.DEST k.queue
      (dest = 0 → s.dev.flag 0 HDL_STATUS.HEADLESS = false → Makes (.puntDeliver w) s (d.deliverRx (target % 64) k w))
      ∧ (dest = 0 → s.dev.flag 0 HDL_STATUS.HEADLESS = true → s.dev.get 0 HDL_CFG.HOST_PUNT_ACT ≠ 1 ∨ s.dev.fwPaused = true →
          Makes (.puntDeliver w) s ((d.dropRef k.handle).bumpI uCLS PNT_DROP.COUNT k.queue))
      ∧ (dest = 0 → s.dev.flag 0 HDL_STATUS.HEADLESS = true → s.dev.get 0 HDL_CFG.HOST_PUNT_ACT = 1 → s.dev.fwPaused = false →
          Makes (.puntDeliver w) s (d.puntRedirect k))
      ∧ (dest = 1 → target = 0xFF → let e := d.dropRef k.handle
          Makes (.puntDeliver w) s { e with svcs := { d.svcs with bfdIn := d.svcs.bfdIn ++ [k] } })
      ∧ (dest = 1 → target = 0xFE → s.dev.fwPaused = false → let e := d.dropRef k.handle
          Makes (.puntDeliver w) s { e with svcs := { d.svcs with ptp := { d.svcs.ptp with inbox := d.svcs.ptp.inbox ++ [k] } } })
      ∧ (dest = 2 → s.dev.fwPaused = false → Makes (.puntDeliver w) s (d.puntToAgent (target % 64) k)))
  ∧ (∀ (d : Dev) (q : Nat) (k : Punt) (w : Bool), d.ringState (ringIx kRXQ q) = rENABLED →
      (∀ p, d.postedTo q = some p → d.deliverRx q k w = (d.dropRef k.handle).fillBuffer p k w)
      ∧ (d.postedTo q = none → (d.hif.rxHeld.filter (fun h => h.1 == q)).length < d.rxHold q →
          d.deliverRx q k w = ({ d with hif := { d.hif with rxHeld := d.hif.rxHeld ++ [(q, k)] } } : Dev).showRxq q))
  ∧ (∀ (s : State) (c : HCmd), c.accepted s.dev 0x0701 (s.dev.pktTxParams c) → c.readOk = true → let d := c.begun s.dev
      let bytes := padded (slice c.block 0 (c.par 8 13 0))
      let o := d.txOwner c
      let dest := c.par 4 16 0
      let x : EgrDesc := { ptpOp := c.par 0 5 4, encapId := c.par 12 21 0, encapValid := c.par 0 6 6 == 1, ptpOffset := c.par 10 15 0, tsId := c.par 2 15 0 }
      (c.par 0 0 0 = 0 → let r := d.sendQueued o.1 o.2 bytes dest (c.par 0 3 1) x
        (∀ dropped cause, r.2 = .queued dropped cause → Makes (.pktTx c) s (r.1.finish c.ticket (.ok (dropped.toNat + cause * 2 ^ 4))))
        ∧ (r.2 = .noCell → Makes (.pktTx c) s (r.1.finish c.ticket (.fail stNO_RESOURCE))))
      ∧ (c.par 0 0 0 = 1 → s.dev.portInUse (dest % 128) = true →
          (∃ u ∈ flumes (latOf (dest % 128)), s.dev.svc u = sACTIVE) → let r := d.sendInjected o.1 o.2 bytes (dest % 128)
          (r.2 = .injected → Makes (.pktTx c) s (r.1.finish c.ticket .ok))
          ∧ (r.2 = .storeFull → Makes (.pktTx c) s (r.1.finish c.ticket (.fail stRETRY_LATER)))))
  ∧ (∀ (s : State) (c : HCmd), c.accepted s.dev 0x0702 c.rxBufPostParams → let q := c.par 0 5 0
      (s.dev.ringState (ringIx kRXQ q) ≠ rENABLED → Completes (.rxBufPost c) s c.ticket (.fail stUNIT_UNAVAILABLE) s.dev)
      ∧ (s.dev.isLost c.ticket = false → s.dev.ringState (ringIx kRXQ q) = rENABLED →
          (s.dev.maxPosted q ≤ (s.dev.hif.posted.filter (fun p => p.rxq == q)).length ∨ 8192 ≤ s.dev.hif.posted.length →
            Completes (.rxBufPost c) s c.ticket (.fail stNO_RESOURCE) s.dev)
          ∧ ((s.dev.hif.posted.filter (fun p => p.rxq == q)).length < s.dev.maxPosted q → s.dev.hif.posted.length < 8192 →
              (c.begun s.dev).postSlot c.ticket q = true → (∀ h ∈ s.dev.hif.rxHeld, h.1 ≠ q) →
              let root := (c.begun s.dev).rootOf c.ticket
              let d := (c.begun s.dev).retire c.ticket
              let cq := d.cqOf (ringIx kRXQ q)
              let d := d.setI uHIF HIF_RING_STATE.COUNT cq (d.getI uHIF HIF_RING_STATE.COUNT cq + 1)
              Makes (.rxBufPost c) s ((({ d with hif := { d.hif with
                posted := d.hif.posted ++ [⟨q, c.ticket, c.par 4 15 0, c.par 8 63 0, root⟩] } } : Dev).showRxq q).goOn.noteStarted
                  c.ticket))))

/-! ### The service cluster -/

/-- A session's packet goes out when due, the next one after the interval cut by the jitter, which is any value the model leaves free; a
leaving session goes with its last. A packet received is counted as bad, as of no session, or moves its session by the state machine
of RFC 5880, a Final bit ends a Poll sequence and a Poll bit is answered; the sequence number last accepted is forgotten after two detection
times. A session that hears nothing within its detection time goes Down with diagnostic 1. A change of state is raised. A session is made,
changed (a longer transmit or shorter receive interval of an Up session waits for the Poll), disabled with diagnostic 7, or read by
command. The next hop of a session that went Down while HEADLESS is withdrawn, and Up restores it; each that changed a slot is logged.
Forms said to complete, each with the next state it answers: taskRestart, bfdTx, bfdRx, bfdDetectExpire, bfdSessionSet,
bfdWithdraw. -/
def Obligations.BfdSessionsAndTasks : Prop :=
  (∀ (s : State) (task why : Nat) (cs : List Ticket), Makes (.taskRestart task why cs) s
    (cs.foldl (fun d t => d.abort t (.fail stABORTED_FAULT))
      ((s.dev.bump uSVC SVC_TASK_RESTART.COUNT).raise uSVC 0x10 (leBytes 1 task ++ leBytes 1 why))))
  ∧ (∀ (d : Dev) (t : Ticket) (r : Reply), (d.inFlight t = false → d.abort t r = d)
      ∧ (d.inFlight t = true → d.abort t r = (d.forget t).finish t r))
  ∧ (∀ (s : State) (n : Nat) (b : Bfd), s.dev.bfd n = some b → s.dev.svc uLSE = sACTIVE → b.nextTx ≤ s.dev.now → b.txEvery ≠ 0 →
      let j := Config.bfdJitter s.dev.draws
      let cut := if b.mult = 1 then 10 + j % 16 else j % 26
      let x := { b with nextTx := s.dev.now + b.txEvery * 10 * (100 - cut) }
      let d : Dev := { s.dev with draws := s.dev.draws + 1 }
      (b.leaving = none → Makes (.bfdTx n) s (d.bfdSend n x false))
      ∧ (b.leaving = some 1 → Makes (.bfdTx n) s ((d.bfdSend n { x with leaving := some 0 } false).setBfd n none)))
  ∧ (∀ (s : State) (k : Punt) (rest : List Punt), s.dev.svcs.bfdIn = k :: rest → s.dev.svc uLSE = sACTIVE →
      let d : Dev := { s.dev with svcs := { s.dev.svcs with bfdIn := rest } }
      ((bfdFrame k.bytes).filter (fun x => bfdCtlOk x.ctl) = none → Makes .bfdRx s (d.bump uLSE LSE_RX_BAD.COUNT))
      ∧ ∀ x, (bfdFrame k.bytes).filter (fun x => bfdCtlOk x.ctl) = some x →
          (d.bfdMatch k x = none → Makes .bfdRx s (d.bump uLSE LSE_RX_NOMATCH.COUNT))
          ∧ ∀ n b, d.bfdMatch k x = some (n, b) →
              ((b.heard s.dev.now).accepts x = false → Makes .bfdRx s (d.bump uLSE LSE_RX_BAD.COUNT))
              ∧ ((b.heard s.dev.now).accepts x = true → b.state = bfdADMIN → Makes .bfdRx s d)
              ∧ ((b.heard s.dev.now).accepts x = true → b.state ≠ bfdADMIN →
                  let fin := bit (beAt x.ctl 1 1) 4
                  let y : Bfd := { b with rx := (b.rx + 1) % 2 ^ 32, remote := beAt x.ctl 1 1 / 64, remoteDiag := beAt x.ctl 0 1 % 32, remoteDisc := beAt x.ctl 4 4, remoteMult := beAt x.ctl 2 1, remoteTx := beAt x.ctl 12 4, remoteRx := beAt x.ctl 16 4, rcvSeq := if b.authEn then some (beAt x.ctl 28 4) else none, rcvAt := s.dev.now, poll := b.poll && !fin, oldTx := if fin then none else b.oldTx, oldRx := if fin then none else b.oldRx }
                  let z : Bfd := { y with detectAt := some (s.dev.now + y.detectTime) }
                  let to_ := z.next (beAt x.ctl 1 1 / 64)
                  let e := (d.tally uLSE 0x21 1).bfdTo n z to_.1 to_.2
                  (bit (beAt x.ctl 1 1) 5 = false → Makes .bfdRx s e)
                  ∧ (bit (beAt x.ctl 1 1) 5 = true → ∀ w, e.bfd n = some w → Makes .bfdRx s (e.bfdSend n w true))))
  ∧ (∀ (b : Bfd) (now last seq : Nat), b.rcvSeq = some last → (b.rcvAt + 2 * b.detectTime ≤ now → (b.heard now).seqOk seq = true)
      ∧ (now < b.rcvAt + 2 * b.detectTime → b.meticulous = true → (b.heard now).seqOk last = false))
  ∧ (∀ b : Bfd, (b.state = bfdDOWN → b.next bfdDOWN = (bfdINIT, 0) ∧ b.next bfdINIT = (bfdUP, 0) ∧ (b.next bfdUP).1 = bfdDOWN)
      ∧ (b.state = bfdINIT → b.next bfdINIT = (bfdUP, 0) ∧ b.next bfdUP = (bfdUP, 0) ∧ (b.next bfdDOWN).1 = bfdINIT)
      ∧ (b.state = bfdUP → b.next bfdDOWN = (bfdDOWN, 3) ∧ b.next bfdADMIN = (bfdDOWN, 3) ∧ (b.next bfdINIT).1 = bfdUP))
  ∧ (∀ (d : Dev) (n new diag : Nat) (b : Bfd), b.state ≠ new → let e := d.bfdTo n b new diag
      e.hasRaised uLSE 0x10 (leBytes 2 n ++ leBytes 1 b.state ++ leBytes 1 new ++ leBytes 1 diag)
      ∧ ∃ x, e.bfd n = some x ∧ x.state = new ∧ x.diag = diag ∧ x.upSince = (if new = bfdUP then d.now else b.upSince)
        ∧ x.toWithdraw = (decide (new = bfdDOWN) && d.flag 0 HDL_STATUS.HEADLESS && d.flag 0 HDL_CFG.BFD_WITHDRAW)
        ∧ x.downs = (if b.state = bfdUP then (b.downs + 1) % 2 ^ 32 else b.downs))
  ∧ (∀ (s : State) (n t : Nat) (b : Bfd), s.dev.bfd n = some b → b.detectAt = some t → s.dev.svc uLSE = sACTIVE → t ≤ s.dev.now →
      let x := { b with detectAt := none, remoteDisc := 0 }
      (b.state = bfdINIT ∨ b.state = bfdUP → Makes (.bfdDetectExpire n) s (s.dev.bfdTo n x bfdDOWN 1))
      ∧ (b.state = bfdDOWN ∨ b.state = bfdADMIN → Makes (.bfdDetectExpire n) s (s.dev.setBfd n (some x))))
  ∧ (∀ (s : State) (c : HCmd), c.accepted s.dev 0x0608 c.bfdSessionSetParams → s.dev.svc uLSE = sACTIVE → let n := c.par 0 13 0
      (c.par 0 14 14 = 0 → c.par 0 15 15 = 0 → (s.dev.bfd n = none → Completes (.bfdSessionSet c) s c.ticket .ok s.dev)
        ∧ ∀ b, s.dev.bfd n = some b → Makes (.bfdSessionSet c) s (((c.begun s.dev).bfdTo n
            { b with leaving := some 3, nextTx := s.dev.now, detectAt := none } bfdADMIN 7).finish c.ticket .ok))
      ∧ (c.par 0 14 14 = 1 → ∀ b, s.dev.bfd n = some b → let r := (c.begun s.dev).hostBlock c (c.par 32 63 0) b.record 0
          Makes (.bfdSessionSet c) s (r.1.finish c.ticket r.2))
      ∧ (c.par 0 14 14 = 0 → c.par 0 15 15 = 1 → c.readOk = true →
          ((∃ e ∈ s.dev.svcs.bfd, e.1 ≠ [n] ∧ e.2.localDisc = c.par 4 31 0) →
            Completes (.bfdSessionSet c) s c.ticket (.fail stEXISTS) s.dev)
          ∧ ((∀ e ∈ s.dev.svcs.bfd, e.2.localDisc ≠ c.par 4 31 0) → s.dev.bfd n = none →
              Completes (.bfdSessionSet c) s c.ticket .ok (({ s.dev with draws := s.dev.draws + 1 } : Dev).setBfd n
                (some (c.bfdParams { nextTx := s.dev.now, authSeq := (Config.bfdAuthSeq s.dev.draws).toNat, meticulous := Config.bfdMeticulous s.dev.draws }))))
          ∧ ((∀ e ∈ s.dev.svcs.bfd, e.1 ≠ [n] → e.2.localDisc ≠ c.par 4 31 0) → ∀ old, s.dev.bfd n = some old → old.leaving = none →
              let b := c.bfdParams old
              let changed := old.desMinTx ≠ b.desMinTx ∨ old.reqMinRx ≠ b.reqMinRx ∨ old.mult ≠ b.mult
              let tx := old.oldTx.getD old.desMinTx
              let rx := old.oldRx.getD old.reqMinRx
              (old.state = bfdUP → Completes (.bfdSessionSet c) s c.ticket .ok (s.dev.setBfd n (some { b with
                poll := old.poll || decide changed, oldTx := if tx < b.desMinTx then some tx else none
                oldRx := if b.reqMinRx < rx then some rx else none })))
              ∧ (old.state ≠ bfdUP → Completes (.bfdSessionSet c) s c.ticket .ok (s.dev.setBfd n (some { b with
                  oldTx := none, oldRx := none }))))))
  ∧ (∀ (s : State) (n nh : Nat) (b : Bfd), s.dev.bfd n = some b → b.withdraw = some nh →
      let gone := s.dev.svcs.withdrawn.any (fun e => e.2.contains nh)
      (b.state = bfdDOWN → b.toWithdraw = true → gone = false →
        let e := s.dev.ecmpGroups.foldl (fun d g => d.withdrawFrom nh g) (s.dev.setBfd n (some { b with toWithdraw := false }))
        (e.svcs.withdrawn = s.dev.svcs.withdrawn → Makes (.bfdWithdraw n) s e)
        ∧ (e.svcs.withdrawn ≠ s.dev.svcs.withdrawn → Makes (.bfdWithdraw n) s (e.writeDecision 4 uLSE nh)))
      ∧ (b.state = bfdDOWN → b.toWithdraw = false ∨ gone = true → Makes (.bfdWithdraw n) s s.dev)
      ∧ (b.state = bfdUP → gone = true → Makes (.bfdWithdraw n) s ((s.dev.restoreNh nh).writeDecision 4 uLSE nh)))

/-- A write of SVC_PTP_CFG stores its fields; with EN clear the service falls to FREE_RUN without a source. A message is taken from the
inbox; one of the profile's transport, of the domain and from a port that runs PTP may give a unicast grant (at most 512), gives every such
port the state of the best master clock algorithm, and a port that is selected is acquired. An offset above STEP_NS steps device time and
counts the step, a smaller one sets the rate correction, which is any value within 500 ppm; 16 offsets in a row below 100 ns lock. A lost
source goes to HOLDOVER on the mean correction of the last HOLDOVER_AVG_S seconds of LOCKED operation; the time counter runs at the
correction. A message of IEEE 1588 is sent on a port of the service as one-step, two-step or plain. What IEEE 1588 itself decides is a free
value or PRESUMED (the PTP log entry).
Forms said to complete, each with the next state it answers: ptpCfgWrite, ptpMessageRx, ptpServoUpdate, ptpSourceLost,
ptpMessageTx. -/
def Obligations.PtpServesTime : Prop :=
  (∀ (s : State) (v : Nat), ∃ b, Makes (.ptpCfgWrite v) s b
    ∧ (∀ f ∈ [SVC_PTP_CFG.DOMAIN, SVC_PTP_CFG.PRIORITY1, SVC_PTP_CFG.PRIORITY2, SVC_PTP_CFG.BOUNDARY, SVC_PTP_CFG.EN,
        SVC_PTP_CFG.STEP_NS, SVC_PTP_CFG.HOLDOVER_AVG_S, SVC_PTP_CFG.LOOP_BW], b.get uSVC f = v / 2 ^ f.lo % 2 ^ f.width)
    ∧ (v / 2 ^ SVC_PTP_CFG.SOURCE.lo % 2 ^ SVC_PTP_CFG.SOURCE.width ≤ 2 →
        b.get uSVC SVC_PTP_CFG.SOURCE = v / 2 ^ SVC_PTP_CFG.SOURCE.lo % 2 ^ SVC_PTP_CFG.SOURCE.width)
    ∧ (v / 2 ^ SVC_PTP_CFG.EN.lo % 2 = 0 → b.ptpState = ptpFREE ∧ b.svcs.ptp.selected = none
        ∧ b.get uSVC SVC_PTP_STATUS.PORT = 0xFF))
  ∧ (∀ (s : State) (m : Punt) (rest : List Punt), s.dev.svcs.ptp.inbox = m :: rest →
      let d := s.dev.setPtp { s.dev.svcs.ptp with inbox := rest }
      (∀ sel, s.dev.ptpMessage m.bytes = none ∨ (∀ p, s.dev.ptpRunsOn p = true → s.dev.sysport p ≠ m.srcSysport) →
        Makes (.ptpMessageRx sel) s d)
      ∧ ∀ p x, p < 128 → s.dev.flag uSVC SVC_PTP_CFG.EN = true → s.dev.ptpMessage m.bytes = some x → s.dev.ptpRunsOn p = true →
          s.dev.sysport p = m.srcSysport → (∀ q < p, s.dev.sysport q ≠ m.srcSysport) →
          let e := d.ptpGrant p x
          Makes (.ptpMessageRx none) s (e.ptpStates none)
          ∧ (∀ q, s.dev.ptpRunsOn q = true → s.dev.get uSVC SVC_PTP_CFG.SOURCE = 0 →
              Makes (.ptpMessageRx (some q)) s (((e.ptpStates (some q)).ptpSelect (some q)).ptpAcquire))
          ∧ (∀ q, s.dev.ptpRunsOn q = false ∨ s.dev.get uSVC SVC_PTP_CFG.SOURCE ≠ 0 →
              Makes (.ptpMessageRx (some q)) s (e.ptpStates none)))
  ∧ (∀ (d : Dev) (sel : Option Nat) (p : Nat), p < 128 → d.ptpRunsOn p = true → let e := d.ptpStates sel
      (sel = some p → e.svcs.ptp.portStates.getD 0 [p] = ptpSLAVE)
      ∧ (sel ≠ some p → e.svcs.ptp.portStates.getD 0 [p] = ptpMASTER ∨ e.svcs.ptp.portStates.getD 0 [p] = ptpPASSIVE))
  ∧ (∀ (d : Dev) (p : Nat) (m : List Byte), d.get uSVC SVC_PTP_CFG.PROFILE = 3 → beAt m 0 1 % 16 = 0xC → beAt m 44 2 = 4 →
      let g : PtpGrant := ⟨p, slice m 20 10, beAt m 48 1 / 16, d.now + 1000000000 * beAt m 50 4⟩
      let same (x : PtpGrant) : Bool := x.port == p && x.peer == g.peer && x.type == g.type
      let others := d.svcs.ptp.grants.filter (fun x => decide (d.now < x.until_) && !same x)
      (others.length < 512 → (d.ptpGrant p m).svcs.ptp.grants = others ++ [g])
      ∧ (512 ≤ others.length → (d.ptpGrant p m).svcs.ptp.grants = d.svcs.ptp.grants.filter (fun x => decide (d.now < x.until_))))
  ∧ (∀ d : Dev, d.svcs.ptp.selected.isSome = true → d.ptpState = ptpFREE ∨ d.ptpState = ptpHOLD → let e := d.ptpAcquire
      e.ptpState = ptpACQ ∧ e.hasRaised uSVC 0x1C (leBytes 1 d.ptpState ++ leBytes 1 ptpACQ
        ++ leBytes 1 (d.get uSVC SVC_PTP_STATUS.PORT) ++ leBytes 1 0 ++ leBytes 4 (d.get uSVC SVC_PTP_STATUS.OFFSET_NS)))
  ∧ (∀ (s : State) (off : Int), s.dev.ptpRuns = true → s.dev.ptpState = ptpACQ ∨ s.dev.ptpState = ptpLOCKED →
      s.dev.svcs.ptp.selected.isSome = true → -(2 ^ 31) ≤ off → off < 2 ^ 31 →
      let d := s.dev.set uSVC SVC_PTP_STATUS.OFFSET_NS (ofSigned 32 off)
      let step := s.dev.get uSVC SVC_PTP_CFG.STEP_NS
      let done (e : Dev) : Dev := (e.setPtp { e.svcs.ptp with measured := true }).ptpCount off.natAbs
      (step ≠ 0 → step < off.natAbs → let e := d.timeStep (-off)
        Makes (.ptpServoUpdate off) s (done (e.set uSVC SVC_PTP_STATUS.STEPS (min 0xFFFF (d.get uSVC SVC_PTP_STATUS.STEPS + 1)))))
      ∧ (step = 0 ∨ off.natAbs ≤ step → let e : Dev := { d with draws := d.draws + 1 }
          Makes (.ptpServoUpdate off) s (done (e.setPtp { e.svcs.ptp with
            rate := max (-32768000000) (min 32768000000 (Config.servoRate off s.dev.svcs.ptp.rate
              (max 1 (s.dev.get uSVC SVC_PTP_CFG.LOOP_BW)) s.dev.draws)) }))))
  ∧ (∀ (d : Dev) (delta : Int), d.sch.sluices = [] →
      d.timeStep delta = { d with now := (((d.now : Int) + delta) % ((2 ^ 64 : Nat) : Int)).toNat })
  ∧ (∀ d : Dev, (d.ptpState = ptpACQ → d.svcs.ptp.below = 15 → ∀ a < 100, (d.ptpCount a).ptpState = ptpLOCKED)
      ∧ (d.ptpState = ptpACQ → ∀ a, 100 ≤ a → (d.ptpCount a).svcs.ptp.below = 0 ∧ (d.ptpCount a).ptpState = ptpACQ)
      ∧ (d.ptpState = ptpLOCKED → d.svcs.ptp.above = 3 → ∀ a, 1000 < a → (d.ptpCount a).ptpState = ptpACQ))
  ∧ (∀ (s : State) (announce : Bool) (p : Nat), s.dev.ptpRuns = true → s.dev.svcs.ptp.selected = some p →
      (s.dev.get uSVC SVC_PTP_CFG.SOURCE = 0 ∧ (announce = true ∨ s.dev.linkState p ≠ lsUP)
        ∨ s.dev.get uSVC SVC_PTP_CFG.SOURCE ≠ 0 ∧ s.dev.get 1 FP_PPS_IN_TS.TIME + 3000000000 ≤ s.dev.now) →
      s.dev.ptpState = ptpACQ ∨ s.dev.ptpState = ptpLOCKED → Makes (.ptpSourceLost announce) s
        (((s.dev.setPtp { s.dev.svcs.ptp with
          portStates := s.dev.svcs.ptp.portStates.filter (fun e => !(e.2 == ptpSLAVE))
          rate := s.dev.meanRate }).ptpSelect none).ptpTo ptpHOLD))
  ∧ (∀ (d : Dev), d.ptpState ≠ ptpFOSC → d.svcs.ptp.rate = 0 → d.frac < 65536 → 0 ≤ d.svcs.ptp.part →
      d.svcs.ptp.part < 1000000000 → d.countNs.now = (d.now + 1) % 2 ^ 64 ∧ d.countNs.frac = d.frac
        ∧ d.countNs.svcs.ptp.part = d.svcs.ptp.part)
  ∧ (∀ (d : Dev) (k n : Nat) (r : Int) (rest : List (Nat × Int)), d.svcs.ptp.history = (k, r) :: rest →
      d.get uSVC SVC_PTP_CFG.HOLDOVER_AVG_S = n → 0 < n → 1000000000 * n ≤ k → d.meanRate = r)
  ∧ (∀ (s : State) (p cls off ts : Nat) (event : Bool) (bytes m : List Byte), s.dev.flag uSVC SVC_PTP_CFG.EN = true →
      s.dev.ptpRunsOn p = true → s.dev.portInUse p = true → cls < 8 → s.dev.ptpMessage bytes = some m →
      event = decide (beAt m 0 1 % 16 < 4) → ptpMaySend (s.dev.svcs.ptp.portStates.getD 0 [p]) (beAt m 0 1 % 16) = true →
      let op := if event = false then 0 else if s.dev.flag (uPort p) PRT_PTP_CFG.ONE_STEP_EN then 2 else 3
      Makes (.ptpMessageTx p cls off ts event bytes) s (s.dev.sendQueued 9 0 (padded bytes) (s.dev.sysport p) cls
        { ptpOp := op, ptpOffset := off % 65536, tsId := ts % 65536 }).1)

/-- AGENT_LOAD into an empty slot takes the image and calls agent_start, and is refused by an occupied slot, or by a bad image with its
status; with REPLACE the occupant is stopped first. AGENT_STOP goes to STOPPING, and the slot is freed once its call has ended and its
commands have completed; a replacement then begins where the quotas still have room. The first return of 0 makes the agent RUNNING under a
new GENERATION. A call begins on a runnable agent with a message; one that ran longer than CALL_MS traps with code 5. A trap clears the
instance, settles its commands and is raised; the backoff ends in a fresh instance. A timer that falls due sends a message. A key is
set when a key that may sign it has.
Forms said to complete, each with the next state it answers: agentLoad, agentStop, agentStopped, agentKeySet, agentRun,
agentTrap, agentRestart, agentTimer. -/
def Obligations.AgentsLiveAndDie : Prop :=
  (∀ (s : State) (c : HCmd), let img := slice c.block 0 (c.par 8 31 0)
    c.accepted s.dev 0x0605 c.agentLoadParams (s.dev.agentImageBad img != some .badBlock) → s.dev.svc uSVC = sACTIVE →
    let slot := c.par 0 5 0
    (s.dev.agState slot = agEMPTY → s.dev.quotasPassed slot c = false → c.readOk = true →
      (∀ r, s.dev.agentImageBad img = some r → Completes (.agentLoad c) s c.ticket r s.dev)
      ∧ (s.dev.agentImageBad img = none →
          Makes (.agentLoad c) s (((c.begun s.dev).loadAgent slot c).noteStarted c.ticket)))
    ∧ (s.dev.agState slot ∈ [agRUNNING, agRESTARTING, agFAILED] → c.par 0 6 6 = 1 → s.dev.quotasPassed slot c = false →
        c.readOk = true →
        s.dev.agentImageBad img = none →
        Makes (.agentLoad c) s (((c.begun s.dev).stopAgent slot none (some c)).noteStarted c.ticket))
    ∧ (s.dev.agState slot ∈ [agRUNNING, agRESTARTING, agFAILED] → c.par 0 6 6 = 0 →
        Completes (.agentLoad c) s c.ticket (.fail stEXISTS) s.dev)
    ∧ (s.dev.agState slot = agLOADING ∨ s.dev.agState slot = agSTOPPING →
        Completes (.agentLoad c) s c.ticket (.fail stRETRY_LATER) s.dev)
    ∧ (s.dev.agState slot = agEMPTY → s.dev.quotasPassed slot c = true →
        Completes (.agentLoad c) s c.ticket (.fail stNO_RESOURCE) s.dev))
  ∧ (∀ (s : State) (c : HCmd), s.dev.heldBack 0x0605 c.ticket = false → hdrBad c.ticket = none →
      areaBad c.area c.agentLoadParams = none → s.dev.agentBad c = none → c.readOk = true →
      s.dev.agentImageBad (slice c.block 0 (c.par 8 31 0)) = some .badBlock →
      Completes (.agentLoad c) s c.ticket .badBlock s.dev)
  ∧ (∀ (d : Dev) (slot : Nat) (c : HCmd), slot < 64 → let b := d.loadAgent slot c
      b.agState slot = agLOADING ∧ (b.agent slot).running = true ∧ (b.agent slot).waiting = some c.ticket
      ∧ (b.agent slot).perm = c.par 2 15 0 ∧ (b.agent slot).image = slice c.block 0 (c.par 8 31 0))
  ∧ (∀ (s : State) (c : HCmd), c.accepted s.dev 0x0606 c.agentStopParams → s.dev.svc uSVC = sACTIVE → let slot := c.par 0 5 0
      (s.dev.agState slot = agEMPTY → Completes (.agentStop c) s c.ticket (.fail stNOT_FOUND) s.dev)
      ∧ (s.dev.agState slot = agLOADING ∨ s.dev.agState slot = agSTOPPING →
          Completes (.agentStop c) s c.ticket (.fail stRETRY_LATER) s.dev)
      ∧ (s.dev.agState slot ∈ [agRUNNING, agRESTARTING, agFAILED] →
          Makes (.agentStop c) s (((c.begun s.dev).stopAgent slot (some c.ticket) none).noteStarted c.ticket)))
  ∧ (∀ (s : State) (slot : Nat) (t : Ticket), let a := s.dev.agent slot
      s.dev.agState slot = agSTOPPING → a.running = false → s.dev.agentInflight slot = 0 → a.waiting = some t → a.replacing = none →
      Makes (.agentStopped slot) s ((({ s.dev with agents := s.dev.agents.erase [slot] } : Dev).agTo slot agEMPTY).finish t
        (.ok (a.aborted % 65536))))
  ∧ (∀ (s : State) (slot : Nat) (c : HCmd), let a := s.dev.agent slot
      s.dev.agState slot = agSTOPPING → a.running = false → s.dev.agentInflight slot = 0 → a.waiting = none → a.replacing = some c →
      let d := s.dev.freeAgent slot
      d.isLost c.ticket = true ∨ d.inFlight c.ticket = true →
      (d.quotasPassed slot c = true → Makes (.agentStopped slot) s (d.finish c.ticket (.fail stNO_RESOURCE)))
      ∧ (d.quotasPassed slot c = false → Makes (.agentStopped slot) s (d.loadAgent slot c)))
  ∧ (∀ (s : State) (c : HCmd), s.dev.heldBack 0x0607 c.ticket = false → hdrBad c.ticket = none →
      areaBad c.area c.agentKeySetParams = none → s.dev.agentBad c = none → c.readOk = true →
      c.par 0 3 3 = 0 → Config.onCurve (slice c.block 0 64) = false → Completes (.agentKeySet c) s c.ticket .badBlock s.dev)
  ∧ (∀ (s : State) (c : HCmd), c.accepted s.dev 0x0607 c.agentKeySetParams → s.dev.svc uSVC = sACTIVE → c.readOk = true →
      let slot := c.par 0 2 0
      let key := slice c.block 0 64
      (c.par 0 3 3 = 1 → s.dev.flashHeld = false →
        (∀ k, s.dev.store.keys.get? [0] = some k → Config.ecdsaOk k (key ++ leBytes 1 slot) (slice c.block 64 64) = true →
          Makes (.agentKeySet c) s (((c.begun s.dev).putStore { s.dev.store with
            keys := s.dev.store.keys.put [slot] none }).finish c.ticket .ok))
        ∧ (s.dev.store.keys.get? [0] = none → s.dev.store.keys.get? [slot] = none →
            Completes (.agentKeySet c) s c.ticket (.fail stPERMISSION) s.dev))
      ∧ (c.par 0 3 3 = 0 →
      (∀ k, Config.onCurve key = true → s.dev.store.keys.get? [0] = some k ∨ s.dev.store.keys.get? [slot] = some k →
          Config.ecdsaOk k (key ++ leBytes 1 slot) (slice c.block 64 64) = true → s.dev.flashHeld = false →
          Makes (.agentKeySet c) s (((c.begun s.dev).putStore { s.dev.store with
            keys := s.dev.store.keys.put [slot] (some key) }).finish c.ticket .ok))
      ∧ (Config.onCurve key = true → slot = 0 → s.dev.store.keys.get? [0] = none → s.dev.flashHeld = false →
          Makes (.agentKeySet c) s (((c.begun s.dev).putStore { s.dev.store with
            keys := s.dev.store.keys.put [0] (some key) }).finish c.ticket .ok))
      ∧ (Config.onCurve key = true → slot ≠ 0 → s.dev.store.keys.get? [0] = none → s.dev.store.keys.get? [slot] = none →
          Completes (.agentKeySet c) s c.ticket (.fail stPERMISSION) s.dev)))
  ∧ (∀ (s : State) (slot : Nat), let a := s.dev.agent slot
      (slot < 64 → s.dev.svc uSVC = sACTIVE → s.dev.fwPaused = false → s.dev.agState slot = agRUNNING → a.running = false →
        a.inbox ≠ [] → Makes (.agentRun slot none) s
          ((s.dev.setAgent slot { a with running := true, callFrom := s.dev.now }).tally uSVC 0x20 1))
      ∧ (a.running = true → s.dev.now ≤ a.callFrom + 1000000 * a.callMs → s.dev.agState slot = agLOADING → ∀ t, a.waiting = some t →
          let d := ((s.dev.setAgent slot { a with running := false, waiting := none }).bumpI uSVC AGT_STATUS.GENERATION slot).agTo slot
            agRUNNING
          Makes (.agentRun slot (some 0)) s (d.finish t (.ok (d.getI uSVC AGT_STATUS.GENERATION slot))))
      ∧ (a.running = true → s.dev.now ≤ a.callFrom + 1000000 * a.callMs → s.dev.agState slot = agRUNNING →
          ∀ r, Makes (.agentRun slot (some r)) s (s.dev.setAgent slot { a with running := false }))
      ∧ (a.running = true → a.callFrom + 1000000 * a.callMs < s.dev.now → ∀ r, Makes (.agentRun slot (some r)) s
          (({ s.dev with draws := s.dev.draws + 1 } : Dev).agentTrap slot 5 (Config.trapFunc s.dev.draws).toNat)))
  ∧ (∀ (s : State) (slot code fn : Nat), let a := s.dev.agent slot
      a.mayTrap s.dev.now code = true → s.dev.agState slot = agRUNNING →
      let traps := s.dev.recentTraps slot code
      let n := s.dev.agentInflight slot - a.settling.length
      let x : Agent := { a with running := false, inbox := [], timers := [], subs := [], traps := traps, mem := [], aborted := n, restartAt := s.dev.now + 100000000 * 2 ^ (traps.length - 1) }
      let d := (((s.dev.setAgent slot x).addI uSVC AGT_COUNTS.INBOX_DROP slot a.inbox.length).addI uSVC AGT_COUNTS.ABORTED slot n).setI
        uSVC AGT_STATUS.LAST_TRAP slot code
      Makes (.agentTrap slot code fn) s (((d.settleAgent slot).raise uSVC 0x14
        (leBytes 1 slot ++ leBytes 1 code ++ leBytes 2 0 ++ leBytes 4 fn ++ leBytes 4 n)).agTo slot
          (if 5 ≤ traps.length ∧ code ≠ 9 then agFAILED else agRESTARTING)))
  ∧ (∀ (s : State) (slot : Nat), let a := s.dev.agent slot
      s.dev.svc uSVC = sACTIVE → s.dev.fwPaused = false → s.dev.agState slot = agRESTARTING → a.restartAt ≤ s.dev.now →
      let x : Agent := { a with inbox := ⟨5, false, leBytes 1 (s.dev.getI uSVC AGT_STATUS.LAST_TRAP slot) ++ leBytes 3 0 ++ leBytes 4 a.aborted⟩ :: a.inbox, aborted := 0 }
      Makes (.agentRestart slot) s ((((s.dev.setAgent slot x).bumpSatI uSVC AGT_STATUS.RESTARTS slot).agTo slot agRUNNING).callBegins
        slot))
  ∧ (∀ (s : State) (slot id due period : Nat), let a := s.dev.agent slot
      a.timers.find? (fun t => t.1 == id) = some (id, due, period) → due ≤ s.dev.now →
      let rest := a.timers.filter (fun x => x.1 != id)
      Makes (.agentTimer slot id) s ((s.dev.setAgent slot { a with
        timers := if period = 0 then rest else rest ++ [(id, due + period, period)] }).pushMsg slot 4 (leBytes 8 due ++ leBytes 1 id)))

/-- For a running agent: hai_cmd_submit starts a permitted command; hai_recv copies the oldest message out or returns EMPTY;
hai_timer_set and hai_timer_cancel replace or remove a timer; hai_time_now writes device time; hai_reg_read writes a register's
value; hai_event_raise raises on the slot's own source; hai_event_subscribe adds or removes a source; hai_log delivers a line to its
RXQ. A pointer beyond memory returns BAD_POINTER, a bad argument BAD_ARG, without effect. A call that has run longer than CALL_MS traps
with code 5 instead.
Forms said to complete, each with the next state it answers: haiCmdSubmit, haiRecv, haiTimerSet, haiTimerCancel, haiTimeNow,
haiRegRead, haiEventRaise, haiEventSubscribe, haiLog. -/
def Obligations.AgentInterfaceCalls : Prop :=
  (∀ (s : State) (slot m : Nat), (s.dev.agent slot).running = true → m ≤ (s.dev.agent slot).memMib * 2 ^ 20 →
    s.dev.now ≤ (s.dev.agent slot).callFrom + 1000000 * (s.dev.agent slot).callMs →
    let a : Agent := { s.dev.agent slot with memLen := m }
    let d := s.dev.setAgent slot a
    let ret (d : Dev) (r : Int) : Dev := d.setAgent slot { d.agent slot with ret := r }
    let write (addr : Nat) (bytes : List Byte) (d : Dev) : Dev :=
      d.setAgent slot { d.agent slot with mem := hostPuts (d.agent slot).mem addr bytes }
    (∀ ptr desc, ptr + 64 ≤ m → let t : Ticket := ⟨.agent slot, slice desc 0 64⟩
      (permits a.perm t.opcode = true → d.agentRoom slot = true → Makes (.haiCmdSubmit slot ptr m desc) s
        (ret ((((d.begin t none).tally uSVC 0x22 1).screen t).goOn) 0))
      ∧ (permits a.perm t.opcode = false → Makes (.haiCmdSubmit slot ptr m desc) s (ret d (-0x0E))))
    ∧ (∀ ptr desc, m < ptr + 64 → Makes (.haiCmdSubmit slot ptr m desc) s (ret d (-0x20)))
    ∧ (∀ buf len, a.inbox = [] → Makes (.haiRecv slot buf len m) s (ret d (-0x21)))
    ∧ (∀ buf len x rest, a.inbox = x :: rest → x.size ≤ len → buf + x.size ≤ m →
        Makes (.haiRecv slot buf len m) s (ret ((write buf (leBytes 2 x.kind ++ leBytes 2 x.body.length ++ leBytes 1 x.dropped.toNat
          ++ leBytes 3 0 ++ x.body) (d.setAgent slot { a with inbox := rest })).goOn) (x.size : Int)))
    ∧ (∀ out, (out + 8 ≤ m → Makes (.haiTimeNow slot out m) s (ret (write out (leBytes 8 s.dev.now) d) 0))
        ∧ (m < out + 8 → Makes (.haiTimeNow slot out m) s (ret d (-0x20))))
    ∧ (∀ un off out, bit a.perm 2 = true → off % 8 = 0 → out + 8 ≤ m →
        let e := if populated un then d.accessed un else d
        (populated un = false ∨ off < 0x400 ∨ e.gated un = false →
          Makes (.haiRegRead slot un off out m) s (ret (write out (leBytes 8 (e.regRead un off)) (e.rcDone un off .both none)) 0))
        ∧ (populated un = true → 0x400 ≤ off → e.gated un = true →
            Makes (.haiRegRead slot un off out m) s (ret (e.gatedClassAccess un) (haiStatus stUNIT_UNAVAILABLE))))
    ∧ (∀ un off out, bit a.perm 2 = false → Makes (.haiRegRead slot un off out m) s (ret d (-0x0E)))
    ∧ (∀ level ptr len line w, level ≤ 7 → 1 ≤ len → len ≤ 256 → ptr + len ≤ m → a.logEn = true →
        (s.dev.lastSecond a.lines).length < 100 →
        let r := (d.setAgent slot { a with lines := s.dev.now :: s.dev.lastSecond a.lines }).deliverOwn a.logRxq 0x42
          (slot + level * 2 ^ 8) (slice line 0 len) w
        Makes (.haiLog slot level ptr len m line w) s (ret (if r.2 then r.1 else r.1.rxDrop a.logRxq) 0))
    ∧ (∀ level ptr len line w, level ≤ 7 → 1 ≤ len → len ≤ 256 → ptr + len ≤ m → a.logEn = false →
        Makes (.haiLog slot level ptr len m line w) s (ret d (-0x08)))
    ∧ (∀ type ptr payload, 0x20 ≤ type → type ≤ 0x3E → ptr + 12 ≤ m → (s.dev.lastSecond a.raised).length < 1000 →
        let e := d.setAgent slot { a with raised := s.dev.now :: s.dev.lastSecond a.raised }
        Makes (.haiEventRaise slot type ptr m payload) s
          (ret ((e.raiseOn (0x1C0 + slot) uSVC type (slice payload 0 12)).countRaised uSVC) 0)))
  ∧ (∀ (s : State) (slot : Nat), (s.dev.agent slot).running = true →
      (s.dev.agent slot).memLen ≤ (s.dev.agent slot).memMib * 2 ^ 20 →
      s.dev.now ≤ (s.dev.agent slot).callFrom + 1000000 * (s.dev.agent slot).callMs →
      let a := s.dev.agent slot
      let ret (x : Agent) (r : Int) : Dev := (s.dev.setAgent slot x).setAgent slot { x with ret := r }
      (∀ id due period, id < 64 → period = 0 ∨ 10000 ≤ period → period < 2 ^ 63 → Makes (.haiTimerSet slot id due period) s
        (ret { a with timers := a.timers.filter (fun t => t.1 != id) ++ [(id, due % 2 ^ 64, period)] } 0))
      ∧ (∀ id due period, 64 ≤ id ∨ (period ≠ 0 ∧ period < 10000) → Makes (.haiTimerSet slot id due period) s (ret a (-0x22)))
      ∧ (∀ id, id < 64 →
          Makes (.haiTimerCancel slot id) s (ret { a with timers := a.timers.filter (fun t => t.1 != id) } 0))
      ∧ (∀ source on, source < 512 → let l := a.subs.filter (fun x => x != source)
          Makes (.haiEventSubscribe slot source on) s (ret { a with subs := if on then l ++ [source] else l } 0))
      ∧ (∀ source on, 512 ≤ source → Makes (.haiEventSubscribe slot source on) s (ret a (-0x22))))
  ∧ (∀ (s : State) (slot m out : Nat), (s.dev.agent slot).running = true → m ≤ (s.dev.agent slot).memMib * 2 ^ 20 →
      (s.dev.agent slot).callFrom + 1000000 * (s.dev.agent slot).callMs < s.dev.now → Makes (.haiTimeNow slot out m) s
        (({ s.dev with draws := s.dev.draws + 1 } : Dev).agentTrap slot 5 (Config.trapFunc s.dev.draws).toNat))

/-! ### Firmware and the headgate -/

/-- BOOT_ROM makes the device's two key pairs at the first cold boot, starts the slot the boot record names and counts the boot, or
enters recovery mode. FW_READY and FWD_READY are set and
announced; a stack whose sideband cannot be read fails. FW_STAGE writes a verified image into the other slot; FW_ACTIVATE waits for its time, which must be 10 ms to an hour away;
the switch pauses, settles and takes the staged image over for trial. A start that fails takes the previous one back. FW_COMMIT ends
a trial, burning the fuses where the count rises, one at a time, or reverts. ATTEST signs its report. BAR4 transfers are checked, run and stored. What a
supply dip held goes on 100 ms later.
Forms said to complete, each with the next state it answers: bootRom, fwReady, fwdReady, fwStage, fwActivate,
activationSwitch, fwReverted, fwCommit, fuseBurnt, attest, recHdrCheck, recGo, recTransferDone, burnAndWriteResume. -/
def Obligations.FirmwareLifecycle : Prop :=
  (∀ s : State, s.dev.fw.running = none → s.dev.flag 0 FW_STATUS.RECOVERY = false → s.dev.pwr.goodAt.isSome = true →
    s.dev.pwr.tripped = false → s.dev.flashHeld = false → let r := s.dev.bootRec
    let d := s.dev.firstKeys
    r.trial = false → r.committedSv ≤ s.dev.fw.otp.svFused → ∃ b, Makes .bootRom s b
      ∧ (s.dev.flag 0 PWR_STRAPS.RECOVERY_N = true → d.slotBoots r.slot = true →
          b.fw.running = some (mkImage r.slot (s.dev.slotImage r.slot)) ∧ b.fw.code = d.codeOf (s.dev.slotImage r.slot)
          ∧ b.bootRec.bootCount = (r.bootCount + 1) % 2 ^ 32
          ∧ b.get 0 FW_STATUS.BOOT_CAUSE = 0 ∧ b.flag 0 FW_STATUS.RECOVERY = false)
      ∧ (s.dev.flag 0 PWR_STRAPS.RECOVERY_N = false →
          b.fw.running = none ∧ b.get 0 FW_STATUS.BOOT_CAUSE = 4 ∧ b.flag 0 FW_STATUS.RECOVERY = true)
      ∧ (s.dev.flag 0 PWR_STRAPS.RECOVERY_N = true → d.slotBoots r.slot = false → d.slotBoots (1 - r.slot) = false →
          b.fw.running = none ∧ b.get 0 FW_STATUS.BOOT_CAUSE = 5 ∧ b.flag 0 FW_STATUS.RECOVERY = true))
  ∧ (∀ d : Dev, (d.fw.otp.attestKey ≠ [] → d.firstKeys = d)
      ∧ (d.fw.otp.attestKey = [] → d.firstKeys.fw.otp.attestKey = slice (Config.newKey d.draws) 0 32
          ∧ d.firstKeys.fw.otp.wrapKey = slice (Config.newKey (d.draws + 1)) 0 32))
  ∧ (∀ (s : State) (bad : List Nat) (x : Image), s.dev.fw.running = some x → s.dev.flag uHIF HIF_STATUS.FW_READY = false →
      s.dev.fwPaused = false → s.dev.fw.trialLost = false → let d := s.dev.set uHIF HIF_STATUS.FW_READY 1
      let d := ({ d with hdl := { d.hdl with alive := some d.now } } : Dev).readSidebands bad
      let d := d.raise uSVC 0x15 (leBytes 1 x.slot ++ leBytes 1 (d.get 0 FW_STATUS.BOOT_CAUSE) ++ leBytes 2 0
        ++ leBytes 4 (hdrVersion x.header))
      Makes (.fwReady bad) s (d.raise 0 0x10 (leBytes 2 (d.get 0 PWR_RESET_CAUSE.CAUSE)
        ++ leBytes 2 (d.get 0 PWR_RESET_CAUSE.PREV_CAUSE))))
  ∧ (∀ (d : Dev) (bad : List Nat) (k : Nat), k < 8 → let e := d.readSidebands bad
      ((bad.contains k = false ∨ d.fw.sideband.contains k = true) → e.fw.sideband.contains k = true)
      ∧ (bad.contains k = true → d.fw.sideband.contains k = false → e.fw.sideband.contains k = false
          ∧ (d.svc (512 + k) = sOFF → e.svc (512 + k) = sFAILED ∨ e.svc (512 + k) = sRETIRED)))
  ∧ (∀ s : State, s.dev.flag uHIF HIF_STATUS.FW_READY = true → (∀ k < 8, (s.dev.stack k).up = true ∨ s.dev.svc (512 + k) = sFAILED ∨ s.dev.svc (512 + k) = sRETIRED) →
      Makes .fwdReady s (s.dev.set uHIF HIF_STATUS.FWD_READY 1))
  ∧ (∀ (s : State) (c : HCmd), s.dev.heldBack 0x0601 c.ticket = false → hdrBad c.ticket = none →
      areaBad c.area c.fwStageParams = none → s.dev.agentBad c = none → c.readOk = true →
      hdrFormOk (slice c.block 0 512) = false → Completes (.fwStage c) s c.ticket .badBlock s.dev)
  ∧ (∀ (s : State) (c : HCmd), c.accepted s.dev 0x0601 c.fwStageParams (hdrFormOk (slice c.block 0 512)) →
      s.dev.svc uSVC = sACTIVE → let d := c.begun s.dev
      let allow := c.par 0 0 0 == 1
      let h := slice c.block 0 512
      let img := slice c.block 0 (c.par 4 24 0)
      (s.dev.stagingBusy = true ∨ s.dev.fw.hgp.state ∉ [hgIDLE, hgDONE] →
        Completes (.fwStage c) s c.ticket (.fail stRETRY_LATER) s.dev)
      ∧ (s.dev.stagingBusy = false → s.dev.fw.hgp.state ∈ [hgIDLE, hgDONE] → c.readOk = true →
          (∀ r, d.checkHeader h d.storeSchema allow = some r → Completes (.fwStage c) s c.ticket r s.dev)
          ∧ (d.checkHeader h d.storeSchema allow = none → c.par 4 24 0 = 512 + hdrPayload h → s.dev.flashHeld = false →
              c.writeOk = true → let e := d.eraseOther
              e.checkPayload img = none → Makes (.fwStage c) s ((e.stagedNow img allow).finish c.ticket
                (.ok (hdrVersion img + hdrSv img * 2 ^ 32 + e.otherSlot * 2 ^ 40))))))
  ∧ (∀ (s : State) (c : HCmd), c.accepted s.dev 0x0602 c.fwActivateParams → s.dev.svc uSVC = sACTIVE → let t := c.par 8 63 0
      (c.par 0 0 0 = 1 → (∀ a, s.dev.fw.act = some a → a.revert = true) → Completes (.fwActivate c) s c.ticket (.fail stNOT_FOUND) s.dev)
      ∧ (∀ a, c.par 0 0 0 = 1 → s.dev.fw.act = some a → a.revert = false →
          (a.stage ≠ 0 ∨ a.time < s.dev.now + 1000000 → Completes (.fwActivate c) s c.ticket (.fail stUNIT_UNAVAILABLE) s.dev)
          ∧ (a.stage = 0 → s.dev.now + 1000000 ≤ a.time →
              Makes (.fwActivate c) s (((c.begun s.dev).endAct.finish a.ticket (.fail stABORTED_FAULT)).finish c.ticket .ok)))
      ∧ (c.par 0 0 0 = 0 → t < s.dev.now + 10000000 ∨ s.dev.now + 3600000000000 < t →
          Completes (.fwActivate c) s c.ticket ⟨stMALFORMED, 0, 24⟩ s.dev)
      ∧ (c.par 0 0 0 = 0 → s.dev.now + 10000000 ≤ t → t ≤ s.dev.now + 3600000000000 →
          (s.dev.fw.staged = none → Completes (.fwActivate c) s c.ticket (.fail stNOT_FOUND) s.dev)
          ∧ (∀ x, s.dev.fw.staged = some x → s.dev.fw.act.isSome = true →
              Completes (.fwActivate c) s c.ticket (.fail stEXISTS) s.dev)
          ∧ (∀ x, s.dev.fw.staged = some x → s.dev.fw.act = none → let img := s.dev.slotImage x.slot
              s.dev.checkHeader (slice img 0 512) s.dev.storeSchema s.dev.fw.stagedDefaults = none →
              s.dev.checkPayload img = none → GoesOn (.fwActivate c) s (((({ s.dev with fw := { s.dev.fw with
                act := some { ticket := c.ticket, time := t } } } : Dev).set 0 FW_STATUS.ACT_PENDING 1).set 0 FW_ACT_TIME.TIME
                t).noteStarted c.ticket))))
  ∧ (∀ (s : State) (a : Activation), s.dev.fw.act = some a →
      (a.stage = 0 → a.time ≤ s.dev.now → Makes .activationSwitch s
        (({ s.dev with fw := { s.dev.fw with act := some { a with stage := 1 } } } : Dev).set uHIF HIF_STATUS.FW_READY 0))
      ∧ (a.stage = 1 → a.time + 10000000 ≤ s.dev.now → let d := s.dev.settleSwitch a
          Makes .activationSwitch s { d with fw := { d.fw with act := some { a with stage := 2 } } })
      ∧ (a.stage = 2 → s.dev.flashHeld = true → Makes .activationSwitch s s.dev)
      ∧ (∀ x, a.stage = 2 → s.dev.flashHeld = false → a.revert = false → s.dev.fw.staged = some x → Makes .activationSwitch s (s.dev.switchTo a x)
          ∧ (s.dev.switchTo a x).fw.running = some x ∧ (s.dev.switchTo a x).fw.previous = s.dev.fw.running
          ∧ (s.dev.switchTo a x).fw.act = none)
      ∧ (∀ x, a.stage = 2 → s.dev.flashHeld = false → a.revert = true → s.dev.fw.previous = some x → Makes .activationSwitch s (s.dev.switchBack a x))
      ∧ (∀ trapped, a.stage = 2 → a.revert = false → s.dev.flashHeld = false → trapped = true ∨ a.time + 2000000000 ≤ s.dev.now →
          Makes (.fwReverted trapped) s (((((s.dev.set uHIF HIF_STATUS.FW_READY 1).raiseEpoch.endAct).finish a.ticket
            (.fail stABORTED_FAULT 1)).raise uSVC 0x18 (leBytes 1 0)).reloadAgents)))
  ∧ (∀ (s : State) (c : HCmd), c.accepted s.dev 0x0603 c.fwCommitParams → s.dev.svc uSVC = sACTIVE →
      (s.dev.flag 0 FW_STATUS.TRIAL = false → Completes (.fwCommit c) s c.ticket (.fail stUNIT_UNAVAILABLE) s.dev)
      ∧ (s.dev.flag 0 FW_STATUS.TRIAL = true → s.dev.fw.act = none →
          (c.par 0 0 0 = 1 → GoesOn (.fwCommit c) s (({ s.dev with fw := { s.dev.fw with
            act := some { ticket := c.ticket, time := s.dev.now, revert := true } } } : Dev).noteStarted c.ticket))
          ∧ (c.par 0 0 0 = 0 → s.dev.flag 0 FW_STATUS.DIAGNOSTIC = false → s.dev.flashHeld = false → ∀ x, s.dev.fw.running = some x →
              let r := s.dev.bootRec
              let sv := max r.committedSv (hdrSv x.header)
              let d := (c.begun s.dev).putBoot { r with slot := s.dev.get 0 FW_STATUS.SLOT, trial := false, committedSv := sv }
              (sv ≤ s.dev.fw.otp.svFused → Makes (.fwCommit c) s (d.committed.finish c.ticket .ok))
              ∧ (s.dev.fw.otp.svFused < sv → Makes (.fwCommit c) s
                (({ d with fw := { d.fw with burn := some (sv, some c.ticket) } } : Dev).noteStarted c.ticket)))))
  ∧ (∀ (d : Dev) (n : Nat) (t : Option Ticket), d.fw.burn = some (n, t) → d.fw.otp.svFused ≤ d.fuseTime.fw.otp.svFused
      ∧ d.fuseTime.fw.otp.svFused ≤ max d.fw.otp.svFused (min n (d.fw.otp.svFused + 1))
      ∧ (d.flashHeld = true → d.fuseTime = d))
  ∧ (∀ (s : State) (n : Nat) (t : Ticket), s.dev.fw.burn = some (n, some t) → s.dev.flashHeld = false →
      let d : Dev := { s.dev with fw := { s.dev.fw with burn := none, otp := { s.dev.fw.otp with svFused := n } } }
      Makes .fuseBurnt s (((d.set 0 FW_STATUS.SV_FUSED n).raise uSVC 0x1A (leBytes 1 n)).committed.finish t .ok))
  ∧ (∀ (s : State) (n : Nat), s.dev.fw.burn = some (n, none) → s.dev.flashHeld = false →
      let d : Dev := { s.dev with fw := { s.dev.fw with burn := none, otp := { s.dev.fw.otp with svFused := n } } }
      Makes .fuseBurnt s ((d.set 0 FW_STATUS.SV_FUSED n).raise uSVC 0x1A (leBytes 1 n)))
  ∧ (∀ s : State, s.dev.fw.holdUntil ≠ 0 → s.dev.flashHeld = false →
      let d : Dev := { s.dev with fw := { s.dev.fw with holdUntil := 0, held := [], dirty := false } }
      let e := if s.dev.fw.dirty then d.saveStore else d
      (s.dev.fw.held = [] → Makes .burnAndWriteResume s e)
      ∧ ∀ c, s.dev.fw.held = [c] →
          (c.ticket.opcode = 0x0601 → Makes .burnAndWriteResume s (e.fwStage c))
          ∧ (c.ticket.opcode = 0x0603 → Makes .burnAndWriteResume s (e.fwCommit c))
          ∧ (c.ticket.opcode = 0x0607 → Makes .burnAndWriteResume s (e.agentKeySet c)))
  ∧ (∀ (s : State) (c : HCmd), c.accepted s.dev 0x0604 attestParams → s.dev.svc uSVC = sACTIVE →
      let d := c.begun s.dev
      let certs := if c.par 0x2A 0 0 = 1 then leBytes 4 d.fw.otp.deviceCert.length ++ d.fw.otp.deviceCert
        ++ (leBytes 4 d.fw.otp.authorityCert.length ++ d.fw.otp.authorityCert) else []
      let report := d.attestBody (slice c.area 0 32) ++ slice (Config.attestSign d.fw.otp.attestKey d.draws (d.attestBody (slice c.area 0 32))) 0 64
      let e : Dev := { d with draws := d.draws + 1 }
      let all := report ++ certs
      let res := report.length + all.length * 2 ^ 16
      (c.par 0x28 15 0 < all.length → Makes (.attest c) s (e.finish c.ticket (.fail stNO_RESOURCE res)))
      ∧ (all.length ≤ c.par 0x28 15 0 → let r := e.hostBlock c (c.par 0x20 63 0) all res
          Makes (.attest c) s (r.1.finish c.ticket r.2)))
  ∧ (∀ (s : State) (bytes : List Byte), s.dev.flag 0 FW_STATUS.RECOVERY = true → s.dev.flag 0 FW_REC_STATUS.BUSY = false →
      Makes (.recHdrCheck bytes) s ((s.dev.set 0 FW_REC_STATUS.DONE 0).set 0 FW_REC_STATUS.STATUS
        ((s.dev.checkHeader (slice bytes 0 512) none false).getD .ok).status)
      ∧ Makes (.recGo bytes) s (((({ s.dev with fw := { s.dev.fw with bar4 := some (s.dev.get 0 FW_REC_CTRL.TARGET,
          slice bytes 0 (min (28 * 2 ^ 20) (s.dev.get 0 FW_REC_CTRL.LENGTH))) } } : Dev).set 0 FW_REC_STATUS.DONE 0).set 0
            FW_REC_STATUS.BUSY 1).set 0 FW_REC_STATUS.PROGRESS 0))
  ∧ (∀ (s : State) (target : Nat) (img : List Byte) (w : Bool), s.dev.fw.bar4 = some (target, img) → s.dev.flashHeld = false →
      let d : Dev := { s.dev with fw := { s.dev.fw with bar4 := none } }
      let done (e : Dev) (st : Nat) : Dev := (((e.set 0 FW_REC_STATUS.STATUS st).set 0 FW_REC_STATUS.BUSY 0).set 0 FW_REC_STATUS.DONE
        1).set 0 FW_REC_STATUS.PROGRESS 100
      (∀ r, d.recBad img = some r → Makes (.recTransferDone w) s (done d r.status))
      ∧ (d.recBad img = none → 2 ≤ target → Makes (.recTransferDone w) s (done (d.runFromMemory img) stOK))
      ∧ (d.recBad img = none → target < 2 → Makes (.recTransferDone w) s
          (if w then done ((d.putSlot target img).nameSlot target) stOK else done (d.putSlot target []) stDATA_ERROR)))

/-- A headgate message reads back from the bytes it is sent as. A change of the port's link is shown and raised. A frame is counted and answered where it is for the port; a message with
a bad form or session is counted as bad. DISCOVER is answered with OFFER; START opens a session or is aborted with its reason; DATA
in the window is kept, a repeat acknowledged; END verifies a complete image, and repeats get the progress or the result; ABORT ends
the session; BOOT resets in recovery mode once the image is done. Verification fails, runs or begins the write, which ends in DONE or
DATA_ERROR. 10 s of silence ends a session.
Forms said to complete, each with the next state it answers: hgpDiscover, hgpStart, hgpData, hgpAckTimer, hgpEnd, hgpVerified,
hgpWritten, hgpAbort, hgpBoot, hgpSessionTimeout, mgtLinkChange, mgtFrameReceived. -/
def Obligations.HeadgateSessions : Prop :=
  (∀ (type session seq status : Nat) (payload : List Byte), type < 256 → session < 2 ^ 32 → seq < 2 ^ 32 → status < 256 →
    payload.length < 65536 →
    let m := leBytes 2 0x4847 ++ leBytes 1 1 ++ leBytes 1 type ++ leBytes 4 session ++ leBytes 4 seq ++ leBytes 2 payload.length
      ++ leBytes 1 status ++ leBytes 1 0 ++ leBytes 4 0 ++ payload
    hgParse (patch m 0x10 (leBytes 4 (crc32cStd m))) = some ⟨type, session, seq, status, payload⟩)
  ∧ (∀ (s : State) (up : Bool),
      (up = s.dev.flag uMGT MGT_STATUS.LINK_UP ∨ (up = true ∧ s.dev.flag uMGT MGT_CFG.ADMIN_UP = false) →
        Makes (.mgtLinkChange up) s s.dev)
      ∧ (up ≠ s.dev.flag uMGT MGT_STATUS.LINK_UP → up = false ∨ s.dev.flag uMGT MGT_CFG.ADMIN_UP = true →
          let speed := s.dev.get uMGT (if up then MGT_CFG.SPEED else MGT_STATUS.SPEED)
          Makes (.mgtLinkChange up) s (((s.dev.setFlag uMGT MGT_STATUS.LINK_UP up).set uMGT MGT_STATUS.SPEED speed).raise uMGT 0x10
            (leBytes 1 up.toNat ++ leBytes 1 speed))))
  ∧ (∀ (s : State) (f : List Byte), s.dev.flag uMGT MGT_STATUS.LINK_UP = true → let d := s.dev.mgtRx
      d.mgtRuns = true →
      (∀ g, d.mgtAnswer f = some g → Makes (.mgtFrameReceived f) s (d.mgtSend g))
      ∧ (d.mgtAnswer f = none → Makes (.mgtFrameReceived f) s d)
      ∧ ∀ raw, d.hgPayload f = some raw →
          (hgParse raw = none → ∀ i ∈ [Instr.hgpDiscover f, .hgpStart f, .hgpData f, .hgpEnd f, .hgpAbort f, .hgpBoot f],
            Makes i s d.hgBad)
          ∧ ∀ m, hgParse raw = some m → let h := d.fw.hgp
              (m.type = 1 → m.session = 0 → ∃ offer, offer.length = 64
                ∧ slice offer 0 12 = slice s.dev.fw.otp.serial 0 12 ∧ Makes (.hgpDiscover f) s (d.hgSend f 2 0 0 0 offer))
              ∧ (m.type = 3 → m.session ≠ 0 → m.payload.length = 8 →
                  let target := leAt m.payload 4 1 % 4
                  (h.state = hgIDLE → ∀ st, d.hgRefuse target = some st → Makes (.hgpStart f) s (d.hgAbort f m.session st))
                  ∧ (h.state ≠ hgIDLE → m.session ≠ h.session →
                      Makes (.hgpStart f) s (d.hgAbort f m.session stRETRY_LATER))
                  ∧ (h.state = hgIDLE → d.hgRefuse target = none →
                      let x : Headgate := { state := hgRECEIVING, session := m.session, target := target, allow := bit (leAt m.payload 4 1) 2, length := leAt m.payload 0 4, lastMsg := d.now, peer := f }
                      Makes (.hgpStart f) s (((((d.setHg x).set uMGT MGT_STATUS.SESSION 1).bump uMGT MGT_SESSIONS.COUNT).raise uMGT
                        0x11 (leBytes 1 1 ++ leBytes 1 0 ++ leBytes 2 0 ++ leBytes 4 m.session)).hgAck f)))
              ∧ (m.type = 5 → d.hgMine m = true → h.state = hgRECEIVING → let e := d.hgHeard f
                  (m.seq < h.acked + 1 ∨ h.acked + 32 < m.seq ∨ (h.chunks.get? [m.seq]).isSome = true →
                    Makes (.hgpData f) s (e.hgAck f))
                  ∧ (h.acked + 1 ≤ m.seq → m.seq ≤ h.acked + 32 → h.chunks.get? [m.seq] = none → m.seq ≠ 1 → m.seq ≤ h.count →
                      m.payload.length = h.size m.seq →
                      let g := e.setHg { e.fw.hgp with chunks := h.chunks.insert [m.seq] m.payload, since := h.since + 1, timer := true, lastData := d.now }
                      Makes (.hgpData f) s (if 8 ≤ h.since + 1 then g.hgAck f else g))
                  ∧ (h.acked = 0 → m.seq = 1 → h.chunks.get? [1] = none → 1 ≤ h.count → m.payload.length = h.size 1 →
                      let g := e.setHg { e.fw.hgp with chunks := h.chunks.insert [1] m.payload, since := h.since + 1, timer := true, lastData := d.now }
                      (∀ st, g.hgHeaderBad = some st → Makes (.hgpData f) s ((g.hgAbort f h.session st).hgEnd st))
                      ∧ (g.hgHeaderBad = none → Makes (.hgpData f) s (if 8 ≤ h.since + 1 then g.hgAck f else g)))
                  ∧ (h.acked + 1 ≤ m.seq → m.seq ≤ h.acked + 32 → h.chunks.get? [m.seq] = none →
                      h.count < m.seq ∨ m.payload.length ≠ h.size m.seq → Makes (.hgpData f) s e.hgBad))
              ∧ (m.type = 5 → d.hgMine m = true → h.state ≠ hgRECEIVING → Makes (.hgpData f) s (d.hgHeard f))
              ∧ (m.type = 5 → d.hgMine m = false → Makes (.hgpData f) s d.hgBad)
              ∧ (m.type = 6 → d.hgMine m = false → h.state ≠ hgIDLE ∨ h.final.any (fun x => x.1 == m.session) = false →
                  Makes (.hgpEnd f) s d.hgBad)
              ∧ (m.type = 6 → ∀ st, h.state = hgIDLE → h.final = some (m.session, st) →
                  Makes (.hgpEnd f) s (d.hgResult f m.session st 100))
              ∧ (m.type = 6 → d.hgMine m = true → let e := d.hgHeard f
                  (h.state = hgDONE → Makes (.hgpEnd f) s (e.hgResult f h.session stOK 100))
                  ∧ (h.state = hgVERIFYING ∨ h.state = hgWRITING → Makes (.hgpEnd f) s (e.hgBusy f h.session))
                  ∧ (h.state = hgRECEIVING → h.complete = true →
                      Makes (.hgpEnd f) s ((e.setHg { e.fw.hgp with state := hgVERIFYING }).hgBusy f h.session))
                  ∧ (h.state = hgRECEIVING → h.complete = false → Makes (.hgpEnd f) s (e.hgAck f)))
              ∧ (m.type = 8 → (d.hgMine m = true → Makes (.hgpAbort f) s (d.hgEnd m.status))
                  ∧ (d.hgMine m = false → Makes (.hgpAbort f) s d.hgBad))
              ∧ (m.type = 9 → (d.flag 0 FW_STATUS.RECOVERY = false → Makes (.hgpBoot f) s (d.hgResult f m.session stPERMISSION 0))
                  ∧ (d.flag 0 FW_STATUS.RECOVERY = true → d.hgMine m = true → h.state = hgDONE →
                      Makes (.hgpBoot f) s ((d.hgResult f m.session stOK 100).warm (2 ^ 6)))
                  ∧ (d.flag 0 FW_STATUS.RECOVERY = true → d.hgMine m = true → h.state ≠ hgDONE →
                      Makes (.hgpBoot f) s (d.hgHeard f))
                  ∧ (d.flag 0 FW_STATUS.RECOVERY = true → d.hgMine m = false → Makes (.hgpBoot f) s d.hgBad)))
  ∧ (∀ s : State, let h := s.dev.fw.hgp
      (h.state = hgRECEIVING → h.timer = true → h.lastData + 2000000 ≤ s.dev.now →
        Makes .hgpAckTimer s ((s.dev.setHg { h with timer := false }).hgAck h.peer))
      ∧ (h.state = hgVERIFYING →
          (∀ r, s.dev.checkPayload h.image = some r → Makes .hgpVerified s (s.dev.hgFail r.status))
          ∧ (∀ st, s.dev.checkPayload h.image = none → s.dev.hgBarred h.target = some st → Makes .hgpVerified s (s.dev.hgFail st))
          ∧ (s.dev.checkPayload h.image = none → s.dev.hgBarred h.target = none → h.target = 2 →
              Makes .hgpVerified s ((s.dev.hgFail stOK).runFromMemory h.image))
          ∧ (s.dev.checkPayload h.image = none → s.dev.hgBarred h.target = none → h.target ≠ 2 → s.dev.flashHeld = false →
              let d := if s.dev.flag 0 FW_STATUS.RECOVERY then s.dev.putSlot h.target [] else s.dev.eraseOther
              Makes .hgpVerified s (d.setHg { h with state := hgWRITING })))
      ∧ (h.state = hgWRITING → s.dev.flashHeld = false → Makes (.hgpWritten false) s (s.dev.hgFail stDATA_ERROR)
          ∧ (let d := if s.dev.flag 0 FW_STATUS.RECOVERY then (s.dev.putSlot h.target h.image).nameSlot h.target
              else s.dev.stagedNow h.image h.allow
            Makes (.hgpWritten true) s ((d.setHg { h with state := hgDONE, lastMsg := s.dev.now }).hgResult h.peer h.session stOK 100)))
      ∧ (h.state ≠ hgIDLE → h.lastMsg + 10000000000 ≤ s.dev.now →
          (h.state = hgDONE → Makes .hgpSessionTimeout s (s.dev.hgEnd stOK))
          ∧ (h.state ≠ hgDONE → Makes .hgpSessionTimeout s ((s.dev.hgAbort h.peer h.session stTIMEOUT).hgEnd stTIMEOUT))))
end

