-- ==== Sys2Proof/Laws/HostMem.lean ====
section
/-! SUPPORT. Host memory: reading after writing, and that every write keeps the addresses strictly rising. -/
namespace Sys2Proof.Machine

@[simp] theorem hostGet_put_self (m : List Host.Cell) (a : Nat) (b : Byte) : hostGet (hostPut m a b) a = some b := by
  induction m with
  | nil => simp [hostPut, hostGet]
  | cons e m ih =>
    obtain ⟨a', b'⟩ := e
    unfold hostPut
    split
    · simp [hostGet]
    · split <;> simp_all [hostGet]

theorem hostGet_put_ne {m : List Host.Cell} {a a' : Nat} {b : Byte} (h : a' ≠ a) :
    hostGet (hostPut m a b) a' = hostGet m a' := by
  induction m with
  | nil => simp [hostPut, hostGet, h]
  | cons e m ih =>
    obtain ⟨a1, b1⟩ := e
    unfold hostPut
    split
    · rename_i e; subst e; simp [hostGet, h]
    · split
      · simp [hostGet, h]
      · simp [hostGet, ih]

/-- A write leaves every byte outside it as it was. -/
theorem hostGet_puts_outside {m : List Host.Cell} {a x : Nat} {bs : List Byte} (h : x < a ∨ a + bs.length ≤ x) :
    hostGet (hostPuts m a bs) x = hostGet m x := by
  induction bs generalizing m a with
  | nil => rfl
  | cons b bs ih =>
    simp only [List.length_cons] at h
    rw [hostPuts, ih (by omega), hostGet_put_ne (by omega)]

/-- A byte of a write reads back. -/
theorem hostGet_puts_inside {m : List Host.Cell} {a i : Nat} {bs : List Byte} (h : i < bs.length) :
    hostGet (hostPuts m a bs) (a + i) = bs[i]? := by
  induction bs generalizing m a i with
  | nil => simp at h
  | cons b bs ih =>
    rw [hostPuts]
    cases i with
    | zero => rw [hostGet_puts_outside (by omega)]; simp
    | succ i =>
      rw [show a + (i + 1) = a + 1 + i by omega, ih (by simpa using h)]
      simp

theorem hostWf_cons {a : Nat} {b : Byte} {m : List Host.Cell} :
    hostWf ((a, b) :: m) = true ↔ (∀ e ∈ m, a < e.1) ∧ hostWf m = true := by
  induction m generalizing a b with
  | nil => simp [hostWf]
  | cons e m ih =>
    obtain ⟨a1, b1⟩ := e
    rw [show hostWf ((a, b) :: (a1, b1) :: m) = (decide (a < a1) && hostWf ((a1, b1) :: m)) from rfl, Bool.and_eq_true,
      decide_eq_true_eq]
    constructor
    · rintro ⟨h, hw⟩
      refine ⟨?_, hw⟩
      intro e he
      rcases List.mem_cons.1 he with rfl | he
      · exact h
      · exact Nat.lt_trans h ((ih.1 hw).1 e he)
    · rintro ⟨ha, hw⟩
      exact ⟨ha (a1, b1) (by simp), hw⟩

theorem mem_hostPut {m : List Host.Cell} {a : Nat} {b : Byte} {e : Host.Cell} (h : e ∈ hostPut m a b) :
    e.1 = a ∨ e ∈ m := by
  induction m with
  | nil => simp only [hostPut, List.mem_singleton] at h; exact .inl (by rw [h])
  | cons e1 m ih =>
    obtain ⟨a1, b1⟩ := e1
    unfold hostPut at h
    split at h
    · rcases List.mem_cons.1 h with h | h
      · exact .inl (by rw [h])
      · exact .inr (List.mem_cons_of_mem _ h)
    · split at h
      · rcases List.mem_cons.1 h with h | h
        · exact .inl (by rw [h])
        · exact .inr h
      · rcases List.mem_cons.1 h with h | h
        · exact .inr (by simp [h])
        · rcases ih h with h | h
          · exact .inl h
          · exact .inr (List.mem_cons_of_mem _ h)

theorem hostWf_put {m : List Host.Cell} (a : Nat) (b : Byte) (h : hostWf m = true) : hostWf (hostPut m a b) = true := by
  induction m with
  | nil => rfl
  | cons e m ih =>
    obtain ⟨a1, b1⟩ := e
    have hc := hostWf_cons.1 h
    unfold hostPut
    split
    · rename_i e; subst e; exact hostWf_cons.2 hc
    · split
      · rename_i hl
        refine hostWf_cons.2 ⟨?_, h⟩
        intro e he
        rcases List.mem_cons.1 he with rfl | he
        · exact hl
        · exact Nat.lt_trans hl (hc.1 e he)
      · refine hostWf_cons.2 ⟨?_, ih hc.2⟩
        intro e he
        rcases mem_hostPut he with he | he
        · omega
        · exact hc.1 e he

theorem hostWf_puts {m : List Host.Cell} (a : Nat) (bs : List Byte) (h : hostWf m = true) : hostWf (hostPuts m a bs) = true := by
  induction bs generalizing m a with
  | nil => exact h
  | cons b bs ih => exact ih (a + 1) (hostWf_put a b h)

/-- Whatever a command posts, host memory keeps its canonical form. -/
theorem hostWf_take {m : List Host.Cell} (ws : List (Nat × List Byte)) (h : hostWf m = true) : hostWf (hostTake m ws) = true := by
  induction ws generalizing m with
  | nil => exact h
  | cons w ws ih => exact ih (hostWf_puts w.1 w.2 h)

/-- What a command whose effect on the device is `f` can answer: a next state, with the device as `f` leaves it, its posted
writes in host memory, and the queue untouched. -/
theorem State.go_next {s t : State} {f : Dev → Dev} (h : s.go f = .next t) :
    t.dev = (f s.dev).posted ∧ t.host = hostTake s.host (f s.dev).hif.dma ∧ t.pending = s.pending := by
  obtain rfl := Host.Outcome.next.inj h
  exact ⟨rfl, rfl, rfl⟩

end Sys2Proof.Machine
end

