-- ==== Sys2Proof/Laws/Tab.lean ====
section
/-! SUPPORT. Sparse tables: what is read after an insertion or an erasure, and that both keep the canonical form. -/
namespace Sys2Proof.Machine

variable {α : Type}

/-! ### The order of keys -/

theorem keyLt_irrefl : ∀ k : Key, keyLt k k = false
  | [] => rfl
  | a :: k => by simp [keyLt, keyLt_irrefl k]

theorem keyLt_trans : ∀ {a b c : Key}, keyLt a b = true → keyLt b c = true → keyLt a c = true
  | [], b :: _, [], _, h => by simp [keyLt] at h
  | [], _ :: _, _ :: _, _, _ => rfl
  | [], [], c, h, _ => by simp [keyLt] at h
  | _ :: _, [], c, h, _ => by simp [keyLt] at h
  | _ :: _, _ :: _, [], _, h => by simp [keyLt] at h
  | x :: a, y :: b, z :: c, h, h' => by
    simp only [keyLt, Bool.or_eq_true, Bool.and_eq_true, decide_eq_true_eq, beq_iff_eq] at *
    rcases h with h | ⟨rfl, h⟩
    · rcases h' with h' | ⟨rfl, h'⟩
      · exact .inl (by omega)
      · exact .inl h
    · rcases h' with h' | ⟨rfl, h'⟩
      · exact .inl h'
      · exact .inr ⟨rfl, keyLt_trans h h'⟩

theorem keyLt_total : ∀ {a b : Key}, a ≠ b → keyLt a b = false → keyLt b a = true
  | [], [], h, _ => absurd rfl h
  | [], _ :: _, _, h => by simp [keyLt] at h
  | _ :: _, [], _, _ => rfl
  | x :: a, y :: b, hn, h => by
    simp only [keyLt, Bool.or_eq_false_iff, Bool.and_eq_false_imp, decide_eq_false_iff_not, beq_iff_eq, Bool.or_eq_true,
      Bool.and_eq_true, decide_eq_true_eq] at *
    by_cases he : x = y
    · subst he
      exact .inr ⟨rfl, keyLt_total (fun e => hn (by rw [e])) (h.2 rfl)⟩
    · exact .inl (by omega)

/-! ### Reading after a change -/

namespace Tab

@[simp] theorem get?_insert_self (t : Tab α) (k : Key) (v : α) : (t.insert k v).get? k = some v := by
  induction t with
  | nil => simp [insert, get?]
  | cons e t ih =>
    obtain ⟨k', v'⟩ := e
    by_cases h : k = k'
    · simp [insert, get?, h]
    · cases hl : keyLt k k' <;> simp [insert, get?, h, hl, ih]

theorem get?_insert_ne {t : Tab α} {k k' : Key} {v : α} (h : k' ≠ k) : (t.insert k v).get? k' = t.get? k' := by
  induction t with
  | nil => simp [insert, get?, h]
  | cons e t ih =>
    obtain ⟨k1, v1⟩ := e
    by_cases hk : k = k1
    · subst hk; simp [insert, get?, h]
    · cases hl : keyLt k k1
      · simp [insert, get?, hk, hl, ih]
      · simp [insert, get?, hk, hl, h]

@[simp] theorem get?_erase_self (t : Tab α) (k : Key) : (t.erase k).get? k = none := by
  induction t with
  | nil => rfl
  | cons e t ih =>
    obtain ⟨k', v'⟩ := e
    by_cases h : k = k'
    · subst h; simpa [erase, get?] using ih
    · have h' : (k == k') = false := by simpa using h
      simpa [erase, get?, h, h'] using ih

theorem get?_erase_ne {t : Tab α} {k k' : Key} (h : k' ≠ k) : (t.erase k).get? k' = t.get? k' := by
  induction t with
  | nil => rfl
  | cons e t ih =>
    obtain ⟨k1, v1⟩ := e
    by_cases hk : k = k1
    · subst hk; simpa [erase, get?, h] using ih
    · have hb : (k == k1) = false := by simpa using hk
      by_cases h1 : k' = k1
      · simp [erase, get?, hb, h1]
      · simpa [erase, get?, hb, h1] using ih

@[simp] theorem get?_put_self (t : Tab α) (k : Key) (o : Option α) : (t.put k o).get? k = o := by
  cases o <;> simp [put]

theorem get?_put_ne {t : Tab α} {k k' : Key} {o : Option α} (h : k' ≠ k) : (t.put k o).get? k' = t.get? k' := by
  cases o <;> simp [put, get?_erase_ne h, get?_insert_ne h]

@[simp] theorem getD_insert_self (t : Tab α) (d : α) (k : Key) (v : α) : (t.insert k v).getD d k = v := by simp [getD]

theorem getD_insert_ne {t : Tab α} {d : α} {k k' : Key} {v : α} (h : k' ≠ k) : (t.insert k v).getD d k' = t.getD d k' := by
  simp [getD, get?_insert_ne h]

@[simp] theorem getD_setD_self [DecidableEq α] (t : Tab α) (d : α) (k : Key) (v : α) : (t.setD d k v).getD d k = v := by
  unfold getD setD
  by_cases h : v = d <;> simp [h]

theorem getD_setD_ne [DecidableEq α] {t : Tab α} {d : α} {k k' : Key} {v : α} (h : k' ≠ k) :
    (t.setD d k v).getD d k' = t.getD d k' := by simp [getD, setD, get?_put_ne h]

/-- What a filter by key leaves. -/
theorem get?_filter_key (t : Tab α) (p : Key → Bool) (k : Key) : get? (t.filter (fun e => p e.1)) k = if p k then t.get? k else none := by
  induction t with
  | nil => simp [get?]
  | cons e t ih =>
    obtain ⟨k1, v1⟩ := e
    by_cases hk : k = k1
    · subst hk; by_cases hp : p k <;> simp [hp, get?, ih]
    · by_cases hp : p k1 <;> simp [hp, get?, hk, ih]

/-! ### The canonical form -/

/-- Every key of a table lies above `k`. -/
def above (k : Key) (t : Tab α) : Prop := ∀ e ∈ t, keyLt k e.1 = true

theorem wf_cons {k : Key} {v : α} {t : Tab α} : wf ((k, v) :: t) = true ↔ above k t ∧ wf t = true := by
  induction t generalizing k v with
  | nil => simp [wf, above]
  | cons e t ih =>
    obtain ⟨k1, v1⟩ := e
    rw [show wf ((k, v) :: (k1, v1) :: t) = (keyLt k k1 && wf ((k1, v1) :: t)) from rfl, Bool.and_eq_true]
    constructor
    · rintro ⟨h, hw⟩
      refine ⟨?_, hw⟩
      intro e he
      rcases List.mem_cons.1 he with rfl | he
      · exact h
      · exact keyLt_trans h ((ih.1 hw).1 e he)
    · rintro ⟨ha, hw⟩
      exact ⟨ha (k1, v1) (by simp), hw⟩

theorem mem_insert {t : Tab α} {k : Key} {v : α} {e : Key × α} (h : e ∈ t.insert k v) : e = (k, v) ∨ e ∈ t := by
  induction t with
  | nil => simpa [insert] using h
  | cons e1 t ih =>
    obtain ⟨k1, v1⟩ := e1
    unfold insert at h
    split at h
    · rcases List.mem_cons.1 h with h | h
      · exact .inl h
      · exact .inr (List.mem_cons_of_mem _ h)
    · split at h
      · rcases List.mem_cons.1 h with h | h
        · exact .inl h
        · exact .inr h
      · rcases List.mem_cons.1 h with h | h
        · exact .inr (by simp [h])
        · rcases ih h with h | h
          · exact .inl h
          · exact .inr (List.mem_cons_of_mem _ h)

theorem wf_insert {t : Tab α} (k : Key) (v : α) (h : t.wf = true) : (t.insert k v).wf = true := by
  induction t with
  | nil => rfl
  | cons e t ih =>
    obtain ⟨k1, v1⟩ := e
    have hc := wf_cons.1 h
    unfold insert
    split
    · rename_i hk; subst hk; exact wf_cons.2 hc
    · rename_i hk
      split
      · rename_i hl
        refine wf_cons.2 ⟨?_, h⟩
        intro e he
        rcases List.mem_cons.1 he with rfl | he
        · exact hl
        · exact keyLt_trans hl (hc.1 e he)
      · rename_i hl
        refine wf_cons.2 ⟨?_, ih hc.2⟩
        intro e he
        rcases mem_insert he with rfl | he
        · exact keyLt_total hk (by simpa using hl)
        · exact hc.1 e he

theorem wf_filter {t : Tab α} (p : Key × α → Bool) (h : t.wf = true) : wf (t.filter p) = true := by
  induction t with
  | nil => rfl
  | cons e t ih =>
    obtain ⟨k1, v1⟩ := e
    have hc := wf_cons.1 h
    rw [List.filter_cons]
    split
    · exact wf_cons.2 ⟨fun e he => hc.1 e (List.mem_filter.1 he).1, ih hc.2⟩
    · exact ih hc.2

theorem wf_put {t : Tab α} (k : Key) (o : Option α) (h : t.wf = true) : (t.put k o).wf = true := by
  cases o with
  | none => exact wf_filter _ h
  | some v => exact wf_insert k v h

end Tab
end Sys2Proof.Machine
end

