-- ==== Sys2Proof/Laws/Regs.lean ====
section
/-! SUPPORT. Register fields: what is read after a field has been written, and that every write keeps the canonical form. -/
namespace Sys2Proof.Machine

variable {d : Dev} {un un' i i' v : Nat} {f g : Fld}

theorem Fld.key_eq_iff : f.key un i = g.key un' i' ↔ un = un' ∧ f.off = g.off ∧ f.lo = g.lo ∧ i = i' := by simp [Fld.key]

theorem Dev.set_eq_setI (d : Dev) (un : Nat) (f : Fld) (v : Nat) : d.set un f v = d.setI un f 0 v := rfl
theorem Dev.setFlag_eq_setI (d : Dev) (un : Nat) (f : Fld) (b : Bool) : d.setFlag un f b = d.setI un f 0 b.toNat := rfl
theorem Dev.setFlagI_eq_setI (d : Dev) (un : Nat) (f : Fld) (i : Nat) (b : Bool) : d.setFlagI un f i b = d.setI un f i b.toNat := rfl
theorem Dev.addI_eq_setI (d : Dev) (un : Nat) (f : Fld) (i n : Nat) : d.addI un f i n = d.setI un f i (d.getI un f i + n) := rfl
theorem Dev.get_eq_getI (d : Dev) (un : Nat) (f : Fld) : d.get un f = d.getI un f 0 := rfl

/-- A field reads what was last written, cut to its width. -/
@[simp] theorem Dev.getI_setI_self (d : Dev) (un : Nat) (f : Fld) (i v : Nat) : (d.setI un f i v).getI un f i = v % 2 ^ f.width := by
  by_cases h : v % 2 ^ f.width = resetVal un f.rst i <;> simp [Dev.getI, Dev.setI, h]

/-- Writing a field leaves every other field. -/
theorem Dev.getI_setI_ne (h : g.key un' i' ≠ f.key un i) : (d.setI un f i v).getI un' g i' = d.getI un' g i' := by
  simp [Dev.getI, Dev.setI, Tab.get?_put_ne h]

@[simp] theorem Dev.get_set_self (d : Dev) (un : Nat) (f : Fld) (v : Nat) : (d.set un f v).get un f = v % 2 ^ f.width :=
  Dev.getI_setI_self ..

theorem Dev.get_set_ne (h : g.key un' 0 ≠ f.key un 0) : (d.set un f v).get un' g = d.get un' g := Dev.getI_setI_ne h

/-- What a write does to the listed fields. -/
theorem Dev.fields_setI_ne {k : Key} (h : k ≠ f.key un i) : (d.setI un f i v).fields.get? k = d.fields.get? k :=
  Tab.get?_put_ne h

theorem Dev.fields_setI_self (d : Dev) (un : Nat) (f : Fld) (i v : Nat) :
    (d.setI un f i v).fields.get? (f.key un i) = if v % 2 ^ f.width = resetVal un f.rst i then none else some (v % 2 ^ f.width) :=
  Tab.get?_put_self ..

/-- A field cleared reads its reset value. -/
@[simp] theorem Dev.getI_clearFldI_self (d : Dev) (un : Nat) (f : Fld) (i : Nat) :
    (d.clearFldI un f i).getI un f i = resetVal un f.rst i := by
  simp [Dev.getI, Dev.clearFldI]

theorem Dev.wf_setI (h : d.fields.wf = true) : (d.setI un f i v).fields.wf = true := Tab.wf_put _ _ h
theorem Dev.wf_clearFldI (h : d.fields.wf = true) : (d.clearFldI un f i).fields.wf = true :=
  Tab.wf_put (f.key un i) none h

/-- A field's value is determined by what is listed at its key. -/
theorem Dev.getI_congr {a b : Dev} (h : b.fields.get? (f.key un i) = a.fields.get? (f.key un i)) : b.getI un f i = a.getI un f i := by
  simp [Dev.getI, h]

end Sys2Proof.Machine
end

