-- ==== Sys2Proof/Laws/State.lean ====
section
/-! SUPPORT. The state's fields: what each update leaves alone, true by definition. -/
namespace Sys2Proof.Machine

@[simp] theorem Dev.setI_now (d : Dev) (un : Nat) (f : Fld) (i v : Nat) : (d.setI un f i v).now = d.now := rfl
@[simp] theorem Dev.setI_frac (d : Dev) (un : Nat) (f : Fld) (i v : Nat) : (d.setI un f i v).frac = d.frac := rfl
@[simp] theorem Dev.setI_ev (d : Dev) (un : Nat) (f : Fld) (i v : Nat) : (d.setI un f i v).ev = d.ev := rfl
@[simp] theorem Dev.setI_errLog (d : Dev) (un : Nat) (f : Fld) (i v : Nat) : (d.setI un f i v).errLog = d.errLog := rfl
@[simp] theorem Dev.setI_recordNo (d : Dev) (un : Nat) (f : Fld) (i v : Nat) : (d.setI un f i v).recordNo = d.recordNo := rfl
@[simp] theorem Dev.setI_hif (d : Dev) (un : Nat) (f : Fld) (i v : Nat) : (d.setI un f i v).hif = d.hif := rfl
@[simp] theorem Dev.setI_agents (d : Dev) (un : Nat) (f : Fld) (i v : Nat) : (d.setI un f i v).agents = d.agents := rfl
@[simp] theorem Dev.setI_draws (d : Dev) (un : Nat) (f : Fld) (i v : Nat) : (d.setI un f i v).draws = d.draws := rfl
@[simp] theorem Dev.setI_snap (d : Dev) (un : Nat) (f : Fld) (i v : Nat) : (d.setI un f i v).snap = d.snap := rfl
@[simp] theorem Dev.setI_cycleBase (d : Dev) (un : Nat) (f : Fld) (i v : Nat) : (d.setI un f i v).cycleBase = d.cycleBase := rfl
@[simp] theorem Dev.setI_sigPrev (d : Dev) (un : Nat) (f : Fld) (i v : Nat) : (d.setI un f i v).sigPrev = d.sigPrev := rfl
@[simp] theorem Dev.setI_lastRead (d : Dev) (un : Nat) (f : Fld) (i v : Nat) : (d.setI un f i v).lastRead = d.lastRead := rfl
@[simp] theorem Dev.setI_tm (d : Dev) (un : Nat) (f : Fld) (i v : Nat) : (d.setI un f i v).tm = d.tm := rfl
@[simp] theorem Dev.setI_sch (d : Dev) (un : Nat) (f : Fld) (i v : Nat) : (d.setI un f i v).sch = d.sch := rfl
@[simp] theorem Dev.setI_telem (d : Dev) (un : Nat) (f : Fld) (i v : Nat) : (d.setI un f i v).telem = d.telem := rfl
@[simp] theorem Dev.setI_fwd (d : Dev) (un : Nat) (f : Fld) (i v : Nat) : (d.setI un f i v).fwd = d.fwd := rfl
@[simp] theorem Dev.setI_fab (d : Dev) (un : Nat) (f : Fld) (i v : Nat) : (d.setI un f i v).fab = d.fab := rfl
@[simp] theorem Dev.setI_panel (d : Dev) (un : Nat) (f : Fld) (i v : Nat) : (d.setI un f i v).panel = d.panel := rfl
@[simp] theorem Dev.setI_rid (d : Dev) (un : Nat) (f : Fld) (i v : Nat) : (d.setI un f i v).rid = d.rid := rfl
@[simp] theorem Dev.setI_hdl (d : Dev) (un : Nat) (f : Fld) (i v : Nat) : (d.setI un f i v).hdl = d.hdl := rfl
@[simp] theorem Dev.setI_dram (d : Dev) (un : Nat) (f : Fld) (i v : Nat) : (d.setI un f i v).dram = d.dram := rfl
@[simp] theorem Dev.setI_svcs (d : Dev) (un : Nat) (f : Fld) (i v : Nat) : (d.setI un f i v).svcs = d.svcs := rfl
@[simp] theorem Dev.setI_fw (d : Dev) (un : Nat) (f : Fld) (i v : Nat) : (d.setI un f i v).fw = d.fw := rfl
@[simp] theorem Dev.setI_pwr (d : Dev) (un : Nat) (f : Fld) (i v : Nat) : (d.setI un f i v).pwr = d.pwr := rfl

@[simp] theorem Dev.set_now (d : Dev) (un : Nat) (f : Fld) (v : Nat) : (d.set un f v).now = d.now := rfl
@[simp] theorem Dev.set_frac (d : Dev) (un : Nat) (f : Fld) (v : Nat) : (d.set un f v).frac = d.frac := rfl
@[simp] theorem Dev.set_ev (d : Dev) (un : Nat) (f : Fld) (v : Nat) : (d.set un f v).ev = d.ev := rfl
@[simp] theorem Dev.set_errLog (d : Dev) (un : Nat) (f : Fld) (v : Nat) : (d.set un f v).errLog = d.errLog := rfl
@[simp] theorem Dev.set_recordNo (d : Dev) (un : Nat) (f : Fld) (v : Nat) : (d.set un f v).recordNo = d.recordNo := rfl
@[simp] theorem Dev.set_hif (d : Dev) (un : Nat) (f : Fld) (v : Nat) : (d.set un f v).hif = d.hif := rfl
@[simp] theorem Dev.set_agents (d : Dev) (un : Nat) (f : Fld) (v : Nat) : (d.set un f v).agents = d.agents := rfl
@[simp] theorem Dev.set_draws (d : Dev) (un : Nat) (f : Fld) (v : Nat) : (d.set un f v).draws = d.draws := rfl
@[simp] theorem Dev.set_snap (d : Dev) (un : Nat) (f : Fld) (v : Nat) : (d.set un f v).snap = d.snap := rfl
@[simp] theorem Dev.set_cycleBase (d : Dev) (un : Nat) (f : Fld) (v : Nat) : (d.set un f v).cycleBase = d.cycleBase := rfl
@[simp] theorem Dev.set_sigPrev (d : Dev) (un : Nat) (f : Fld) (v : Nat) : (d.set un f v).sigPrev = d.sigPrev := rfl
@[simp] theorem Dev.set_lastRead (d : Dev) (un : Nat) (f : Fld) (v : Nat) : (d.set un f v).lastRead = d.lastRead := rfl
@[simp] theorem Dev.set_tm (d : Dev) (un : Nat) (f : Fld) (v : Nat) : (d.set un f v).tm = d.tm := rfl
@[simp] theorem Dev.set_sch (d : Dev) (un : Nat) (f : Fld) (v : Nat) : (d.set un f v).sch = d.sch := rfl
@[simp] theorem Dev.set_telem (d : Dev) (un : Nat) (f : Fld) (v : Nat) : (d.set un f v).telem = d.telem := rfl
@[simp] theorem Dev.set_fwd (d : Dev) (un : Nat) (f : Fld) (v : Nat) : (d.set un f v).fwd = d.fwd := rfl
@[simp] theorem Dev.set_fab (d : Dev) (un : Nat) (f : Fld) (v : Nat) : (d.set un f v).fab = d.fab := rfl
@[simp] theorem Dev.set_panel (d : Dev) (un : Nat) (f : Fld) (v : Nat) : (d.set un f v).panel = d.panel := rfl
@[simp] theorem Dev.set_rid (d : Dev) (un : Nat) (f : Fld) (v : Nat) : (d.set un f v).rid = d.rid := rfl
@[simp] theorem Dev.set_hdl (d : Dev) (un : Nat) (f : Fld) (v : Nat) : (d.set un f v).hdl = d.hdl := rfl
@[simp] theorem Dev.set_dram (d : Dev) (un : Nat) (f : Fld) (v : Nat) : (d.set un f v).dram = d.dram := rfl
@[simp] theorem Dev.set_svcs (d : Dev) (un : Nat) (f : Fld) (v : Nat) : (d.set un f v).svcs = d.svcs := rfl
@[simp] theorem Dev.set_fw (d : Dev) (un : Nat) (f : Fld) (v : Nat) : (d.set un f v).fw = d.fw := rfl
@[simp] theorem Dev.set_pwr (d : Dev) (un : Nat) (f : Fld) (v : Nat) : (d.set un f v).pwr = d.pwr := rfl

@[simp] theorem Dev.setFlag_now (d : Dev) (un : Nat) (f : Fld) (b : Bool) : (d.setFlag un f b).now = d.now := rfl
@[simp] theorem Dev.setFlag_frac (d : Dev) (un : Nat) (f : Fld) (b : Bool) : (d.setFlag un f b).frac = d.frac := rfl
@[simp] theorem Dev.setFlag_ev (d : Dev) (un : Nat) (f : Fld) (b : Bool) : (d.setFlag un f b).ev = d.ev := rfl
@[simp] theorem Dev.setFlag_errLog (d : Dev) (un : Nat) (f : Fld) (b : Bool) : (d.setFlag un f b).errLog = d.errLog := rfl
@[simp] theorem Dev.setFlag_recordNo (d : Dev) (un : Nat) (f : Fld) (b : Bool) : (d.setFlag un f b).recordNo = d.recordNo := rfl
@[simp] theorem Dev.setFlag_hif (d : Dev) (un : Nat) (f : Fld) (b : Bool) : (d.setFlag un f b).hif = d.hif := rfl
@[simp] theorem Dev.setFlag_agents (d : Dev) (un : Nat) (f : Fld) (b : Bool) : (d.setFlag un f b).agents = d.agents := rfl
@[simp] theorem Dev.setFlag_draws (d : Dev) (un : Nat) (f : Fld) (b : Bool) : (d.setFlag un f b).draws = d.draws := rfl
@[simp] theorem Dev.setFlag_snap (d : Dev) (un : Nat) (f : Fld) (b : Bool) : (d.setFlag un f b).snap = d.snap := rfl
@[simp] theorem Dev.setFlag_cycleBase (d : Dev) (un : Nat) (f : Fld) (b : Bool) : (d.setFlag un f b).cycleBase = d.cycleBase := rfl
@[simp] theorem Dev.setFlag_sigPrev (d : Dev) (un : Nat) (f : Fld) (b : Bool) : (d.setFlag un f b).sigPrev = d.sigPrev := rfl
@[simp] theorem Dev.setFlag_lastRead (d : Dev) (un : Nat) (f : Fld) (b : Bool) : (d.setFlag un f b).lastRead = d.lastRead := rfl
@[simp] theorem Dev.setFlag_tm (d : Dev) (un : Nat) (f : Fld) (b : Bool) : (d.setFlag un f b).tm = d.tm := rfl
@[simp] theorem Dev.setFlag_sch (d : Dev) (un : Nat) (f : Fld) (b : Bool) : (d.setFlag un f b).sch = d.sch := rfl
@[simp] theorem Dev.setFlag_telem (d : Dev) (un : Nat) (f : Fld) (b : Bool) : (d.setFlag un f b).telem = d.telem := rfl
@[simp] theorem Dev.setFlag_fwd (d : Dev) (un : Nat) (f : Fld) (b : Bool) : (d.setFlag un f b).fwd = d.fwd := rfl
@[simp] theorem Dev.setFlag_fab (d : Dev) (un : Nat) (f : Fld) (b : Bool) : (d.setFlag un f b).fab = d.fab := rfl
@[simp] theorem Dev.setFlag_panel (d : Dev) (un : Nat) (f : Fld) (b : Bool) : (d.setFlag un f b).panel = d.panel := rfl
@[simp] theorem Dev.setFlag_rid (d : Dev) (un : Nat) (f : Fld) (b : Bool) : (d.setFlag un f b).rid = d.rid := rfl
@[simp] theorem Dev.setFlag_hdl (d : Dev) (un : Nat) (f : Fld) (b : Bool) : (d.setFlag un f b).hdl = d.hdl := rfl
@[simp] theorem Dev.setFlag_dram (d : Dev) (un : Nat) (f : Fld) (b : Bool) : (d.setFlag un f b).dram = d.dram := rfl
@[simp] theorem Dev.setFlag_svcs (d : Dev) (un : Nat) (f : Fld) (b : Bool) : (d.setFlag un f b).svcs = d.svcs := rfl
@[simp] theorem Dev.setFlag_fw (d : Dev) (un : Nat) (f : Fld) (b : Bool) : (d.setFlag un f b).fw = d.fw := rfl
@[simp] theorem Dev.setFlag_pwr (d : Dev) (un : Nat) (f : Fld) (b : Bool) : (d.setFlag un f b).pwr = d.pwr := rfl

@[simp] theorem Dev.setFlagI_now (d : Dev) (un : Nat) (f : Fld) (i : Nat) (b : Bool) : (d.setFlagI un f i b).now = d.now := rfl
@[simp] theorem Dev.setFlagI_frac (d : Dev) (un : Nat) (f : Fld) (i : Nat) (b : Bool) : (d.setFlagI un f i b).frac = d.frac := rfl
@[simp] theorem Dev.setFlagI_ev (d : Dev) (un : Nat) (f : Fld) (i : Nat) (b : Bool) : (d.setFlagI un f i b).ev = d.ev := rfl
@[simp] theorem Dev.setFlagI_errLog (d : Dev) (un : Nat) (f : Fld) (i : Nat) (b : Bool) : (d.setFlagI un f i b).errLog = d.errLog := rfl
@[simp] theorem Dev.setFlagI_recordNo (d : Dev) (un : Nat) (f : Fld) (i : Nat) (b : Bool) : (d.setFlagI un f i b).recordNo = d.recordNo := rfl
@[simp] theorem Dev.setFlagI_hif (d : Dev) (un : Nat) (f : Fld) (i : Nat) (b : Bool) : (d.setFlagI un f i b).hif = d.hif := rfl
@[simp] theorem Dev.setFlagI_agents (d : Dev) (un : Nat) (f : Fld) (i : Nat) (b : Bool) : (d.setFlagI un f i b).agents = d.agents := rfl
@[simp] theorem Dev.setFlagI_draws (d : Dev) (un : Nat) (f : Fld) (i : Nat) (b : Bool) : (d.setFlagI un f i b).draws = d.draws := rfl
@[simp] theorem Dev.setFlagI_snap (d : Dev) (un : Nat) (f : Fld) (i : Nat) (b : Bool) : (d.setFlagI un f i b).snap = d.snap := rfl
@[simp] theorem Dev.setFlagI_cycleBase (d : Dev) (un : Nat) (f : Fld) (i : Nat) (b : Bool) : (d.setFlagI un f i b).cycleBase = d.cycleBase := rfl
@[simp] theorem Dev.setFlagI_sigPrev (d : Dev) (un : Nat) (f : Fld) (i : Nat) (b : Bool) : (d.setFlagI un f i b).sigPrev = d.sigPrev := rfl
@[simp] theorem Dev.setFlagI_lastRead (d : Dev) (un : Nat) (f : Fld) (i : Nat) (b : Bool) : (d.setFlagI un f i b).lastRead = d.lastRead := rfl
@[simp] theorem Dev.setFlagI_tm (d : Dev) (un : Nat) (f : Fld) (i : Nat) (b : Bool) : (d.setFlagI un f i b).tm = d.tm := rfl
@[simp] theorem Dev.setFlagI_sch (d : Dev) (un : Nat) (f : Fld) (i : Nat) (b : Bool) : (d.setFlagI un f i b).sch = d.sch := rfl
@[simp] theorem Dev.setFlagI_telem (d : Dev) (un : Nat) (f : Fld) (i : Nat) (b : Bool) : (d.setFlagI un f i b).telem = d.telem := rfl
@[simp] theorem Dev.setFlagI_fwd (d : Dev) (un : Nat) (f : Fld) (i : Nat) (b : Bool) : (d.setFlagI un f i b).fwd = d.fwd := rfl
@[simp] theorem Dev.setFlagI_fab (d : Dev) (un : Nat) (f : Fld) (i : Nat) (b : Bool) : (d.setFlagI un f i b).fab = d.fab := rfl
@[simp] theorem Dev.setFlagI_panel (d : Dev) (un : Nat) (f : Fld) (i : Nat) (b : Bool) : (d.setFlagI un f i b).panel = d.panel := rfl
@[simp] theorem Dev.setFlagI_rid (d : Dev) (un : Nat) (f : Fld) (i : Nat) (b : Bool) : (d.setFlagI un f i b).rid = d.rid := rfl
@[simp] theorem Dev.setFlagI_hdl (d : Dev) (un : Nat) (f : Fld) (i : Nat) (b : Bool) : (d.setFlagI un f i b).hdl = d.hdl := rfl
@[simp] theorem Dev.setFlagI_dram (d : Dev) (un : Nat) (f : Fld) (i : Nat) (b : Bool) : (d.setFlagI un f i b).dram = d.dram := rfl
@[simp] theorem Dev.setFlagI_svcs (d : Dev) (un : Nat) (f : Fld) (i : Nat) (b : Bool) : (d.setFlagI un f i b).svcs = d.svcs := rfl
@[simp] theorem Dev.setFlagI_fw (d : Dev) (un : Nat) (f : Fld) (i : Nat) (b : Bool) : (d.setFlagI un f i b).fw = d.fw := rfl
@[simp] theorem Dev.setFlagI_pwr (d : Dev) (un : Nat) (f : Fld) (i : Nat) (b : Bool) : (d.setFlagI un f i b).pwr = d.pwr := rfl

@[simp] theorem Dev.addI_now (d : Dev) (un : Nat) (f : Fld) (i n : Nat) : (d.addI un f i n).now = d.now := rfl
@[simp] theorem Dev.addI_frac (d : Dev) (un : Nat) (f : Fld) (i n : Nat) : (d.addI un f i n).frac = d.frac := rfl
@[simp] theorem Dev.addI_ev (d : Dev) (un : Nat) (f : Fld) (i n : Nat) : (d.addI un f i n).ev = d.ev := rfl
@[simp] theorem Dev.addI_errLog (d : Dev) (un : Nat) (f : Fld) (i n : Nat) : (d.addI un f i n).errLog = d.errLog := rfl
@[simp] theorem Dev.addI_recordNo (d : Dev) (un : Nat) (f : Fld) (i n : Nat) : (d.addI un f i n).recordNo = d.recordNo := rfl
@[simp] theorem Dev.addI_hif (d : Dev) (un : Nat) (f : Fld) (i n : Nat) : (d.addI un f i n).hif = d.hif := rfl
@[simp] theorem Dev.addI_agents (d : Dev) (un : Nat) (f : Fld) (i n : Nat) : (d.addI un f i n).agents = d.agents := rfl
@[simp] theorem Dev.addI_draws (d : Dev) (un : Nat) (f : Fld) (i n : Nat) : (d.addI un f i n).draws = d.draws := rfl
@[simp] theorem Dev.addI_snap (d : Dev) (un : Nat) (f : Fld) (i n : Nat) : (d.addI un f i n).snap = d.snap := rfl
@[simp] theorem Dev.addI_cycleBase (d : Dev) (un : Nat) (f : Fld) (i n : Nat) : (d.addI un f i n).cycleBase = d.cycleBase := rfl
@[simp] theorem Dev.addI_sigPrev (d : Dev) (un : Nat) (f : Fld) (i n : Nat) : (d.addI un f i n).sigPrev = d.sigPrev := rfl
@[simp] theorem Dev.addI_lastRead (d : Dev) (un : Nat) (f : Fld) (i n : Nat) : (d.addI un f i n).lastRead = d.lastRead := rfl
@[simp] theorem Dev.addI_tm (d : Dev) (un : Nat) (f : Fld) (i n : Nat) : (d.addI un f i n).tm = d.tm := rfl
@[simp] theorem Dev.addI_sch (d : Dev) (un : Nat) (f : Fld) (i n : Nat) : (d.addI un f i n).sch = d.sch := rfl
@[simp] theorem Dev.addI_telem (d : Dev) (un : Nat) (f : Fld) (i n : Nat) : (d.addI un f i n).telem = d.telem := rfl
@[simp] theorem Dev.addI_fwd (d : Dev) (un : Nat) (f : Fld) (i n : Nat) : (d.addI un f i n).fwd = d.fwd := rfl
@[simp] theorem Dev.addI_fab (d : Dev) (un : Nat) (f : Fld) (i n : Nat) : (d.addI un f i n).fab = d.fab := rfl
@[simp] theorem Dev.addI_panel (d : Dev) (un : Nat) (f : Fld) (i n : Nat) : (d.addI un f i n).panel = d.panel := rfl
@[simp] theorem Dev.addI_rid (d : Dev) (un : Nat) (f : Fld) (i n : Nat) : (d.addI un f i n).rid = d.rid := rfl
@[simp] theorem Dev.addI_hdl (d : Dev) (un : Nat) (f : Fld) (i n : Nat) : (d.addI un f i n).hdl = d.hdl := rfl
@[simp] theorem Dev.addI_dram (d : Dev) (un : Nat) (f : Fld) (i n : Nat) : (d.addI un f i n).dram = d.dram := rfl
@[simp] theorem Dev.addI_svcs (d : Dev) (un : Nat) (f : Fld) (i n : Nat) : (d.addI un f i n).svcs = d.svcs := rfl
@[simp] theorem Dev.addI_fw (d : Dev) (un : Nat) (f : Fld) (i n : Nat) : (d.addI un f i n).fw = d.fw := rfl
@[simp] theorem Dev.addI_pwr (d : Dev) (un : Nat) (f : Fld) (i n : Nat) : (d.addI un f i n).pwr = d.pwr := rfl

@[simp] theorem Dev.bump_now (d : Dev) (un : Nat) (f : Fld) : (d.bump un f).now = d.now := rfl
@[simp] theorem Dev.bump_frac (d : Dev) (un : Nat) (f : Fld) : (d.bump un f).frac = d.frac := rfl
@[simp] theorem Dev.bump_ev (d : Dev) (un : Nat) (f : Fld) : (d.bump un f).ev = d.ev := rfl
@[simp] theorem Dev.bump_errLog (d : Dev) (un : Nat) (f : Fld) : (d.bump un f).errLog = d.errLog := rfl
@[simp] theorem Dev.bump_recordNo (d : Dev) (un : Nat) (f : Fld) : (d.bump un f).recordNo = d.recordNo := rfl
@[simp] theorem Dev.bump_hif (d : Dev) (un : Nat) (f : Fld) : (d.bump un f).hif = d.hif := rfl
@[simp] theorem Dev.bump_agents (d : Dev) (un : Nat) (f : Fld) : (d.bump un f).agents = d.agents := rfl
@[simp] theorem Dev.bump_draws (d : Dev) (un : Nat) (f : Fld) : (d.bump un f).draws = d.draws := rfl
@[simp] theorem Dev.bump_snap (d : Dev) (un : Nat) (f : Fld) : (d.bump un f).snap = d.snap := rfl
@[simp] theorem Dev.bump_cycleBase (d : Dev) (un : Nat) (f : Fld) : (d.bump un f).cycleBase = d.cycleBase := rfl
@[simp] theorem Dev.bump_sigPrev (d : Dev) (un : Nat) (f : Fld) : (d.bump un f).sigPrev = d.sigPrev := rfl
@[simp] theorem Dev.bump_lastRead (d : Dev) (un : Nat) (f : Fld) : (d.bump un f).lastRead = d.lastRead := rfl
@[simp] theorem Dev.bump_tm (d : Dev) (un : Nat) (f : Fld) : (d.bump un f).tm = d.tm := rfl
@[simp] theorem Dev.bump_sch (d : Dev) (un : Nat) (f : Fld) : (d.bump un f).sch = d.sch := rfl
@[simp] theorem Dev.bump_telem (d : Dev) (un : Nat) (f : Fld) : (d.bump un f).telem = d.telem := rfl
@[simp] theorem Dev.bump_fwd (d : Dev) (un : Nat) (f : Fld) : (d.bump un f).fwd = d.fwd := rfl
@[simp] theorem Dev.bump_fab (d : Dev) (un : Nat) (f : Fld) : (d.bump un f).fab = d.fab := rfl
@[simp] theorem Dev.bump_panel (d : Dev) (un : Nat) (f : Fld) : (d.bump un f).panel = d.panel := rfl
@[simp] theorem Dev.bump_rid (d : Dev) (un : Nat) (f : Fld) : (d.bump un f).rid = d.rid := rfl
@[simp] theorem Dev.bump_hdl (d : Dev) (un : Nat) (f : Fld) : (d.bump un f).hdl = d.hdl := rfl
@[simp] theorem Dev.bump_dram (d : Dev) (un : Nat) (f : Fld) : (d.bump un f).dram = d.dram := rfl
@[simp] theorem Dev.bump_svcs (d : Dev) (un : Nat) (f : Fld) : (d.bump un f).svcs = d.svcs := rfl
@[simp] theorem Dev.bump_fw (d : Dev) (un : Nat) (f : Fld) : (d.bump un f).fw = d.fw := rfl
@[simp] theorem Dev.bump_pwr (d : Dev) (un : Nat) (f : Fld) : (d.bump un f).pwr = d.pwr := rfl

@[simp] theorem Dev.bumpI_now (d : Dev) (un : Nat) (f : Fld) (i : Nat) : (d.bumpI un f i).now = d.now := rfl
@[simp] theorem Dev.bumpI_frac (d : Dev) (un : Nat) (f : Fld) (i : Nat) : (d.bumpI un f i).frac = d.frac := rfl
@[simp] theorem Dev.bumpI_ev (d : Dev) (un : Nat) (f : Fld) (i : Nat) : (d.bumpI un f i).ev = d.ev := rfl
@[simp] theorem Dev.bumpI_errLog (d : Dev) (un : Nat) (f : Fld) (i : Nat) : (d.bumpI un f i).errLog = d.errLog := rfl
@[simp] theorem Dev.bumpI_recordNo (d : Dev) (un : Nat) (f : Fld) (i : Nat) : (d.bumpI un f i).recordNo = d.recordNo := rfl
@[simp] theorem Dev.bumpI_hif (d : Dev) (un : Nat) (f : Fld) (i : Nat) : (d.bumpI un f i).hif = d.hif := rfl
@[simp] theorem Dev.bumpI_agents (d : Dev) (un : Nat) (f : Fld) (i : Nat) : (d.bumpI un f i).agents = d.agents := rfl
@[simp] theorem Dev.bumpI_draws (d : Dev) (un : Nat) (f : Fld) (i : Nat) : (d.bumpI un f i).draws = d.draws := rfl
@[simp] theorem Dev.bumpI_snap (d : Dev) (un : Nat) (f : Fld) (i : Nat) : (d.bumpI un f i).snap = d.snap := rfl
@[simp] theorem Dev.bumpI_cycleBase (d : Dev) (un : Nat) (f : Fld) (i : Nat) : (d.bumpI un f i).cycleBase = d.cycleBase := rfl
@[simp] theorem Dev.bumpI_sigPrev (d : Dev) (un : Nat) (f : Fld) (i : Nat) : (d.bumpI un f i).sigPrev = d.sigPrev := rfl
@[simp] theorem Dev.bumpI_lastRead (d : Dev) (un : Nat) (f : Fld) (i : Nat) : (d.bumpI un f i).lastRead = d.lastRead := rfl
@[simp] theorem Dev.bumpI_tm (d : Dev) (un : Nat) (f : Fld) (i : Nat) : (d.bumpI un f i).tm = d.tm := rfl
@[simp] theorem Dev.bumpI_sch (d : Dev) (un : Nat) (f : Fld) (i : Nat) : (d.bumpI un f i).sch = d.sch := rfl
@[simp] theorem Dev.bumpI_telem (d : Dev) (un : Nat) (f : Fld) (i : Nat) : (d.bumpI un f i).telem = d.telem := rfl
@[simp] theorem Dev.bumpI_fwd (d : Dev) (un : Nat) (f : Fld) (i : Nat) : (d.bumpI un f i).fwd = d.fwd := rfl
@[simp] theorem Dev.bumpI_fab (d : Dev) (un : Nat) (f : Fld) (i : Nat) : (d.bumpI un f i).fab = d.fab := rfl
@[simp] theorem Dev.bumpI_panel (d : Dev) (un : Nat) (f : Fld) (i : Nat) : (d.bumpI un f i).panel = d.panel := rfl
@[simp] theorem Dev.bumpI_rid (d : Dev) (un : Nat) (f : Fld) (i : Nat) : (d.bumpI un f i).rid = d.rid := rfl
@[simp] theorem Dev.bumpI_hdl (d : Dev) (un : Nat) (f : Fld) (i : Nat) : (d.bumpI un f i).hdl = d.hdl := rfl
@[simp] theorem Dev.bumpI_dram (d : Dev) (un : Nat) (f : Fld) (i : Nat) : (d.bumpI un f i).dram = d.dram := rfl
@[simp] theorem Dev.bumpI_svcs (d : Dev) (un : Nat) (f : Fld) (i : Nat) : (d.bumpI un f i).svcs = d.svcs := rfl
@[simp] theorem Dev.bumpI_fw (d : Dev) (un : Nat) (f : Fld) (i : Nat) : (d.bumpI un f i).fw = d.fw := rfl
@[simp] theorem Dev.bumpI_pwr (d : Dev) (un : Nat) (f : Fld) (i : Nat) : (d.bumpI un f i).pwr = d.pwr := rfl

@[simp] theorem Dev.bumpSat_now (d : Dev) (un : Nat) (f : Fld) : (d.bumpSat un f).now = d.now := rfl
@[simp] theorem Dev.bumpSat_frac (d : Dev) (un : Nat) (f : Fld) : (d.bumpSat un f).frac = d.frac := rfl
@[simp] theorem Dev.bumpSat_ev (d : Dev) (un : Nat) (f : Fld) : (d.bumpSat un f).ev = d.ev := rfl
@[simp] theorem Dev.bumpSat_errLog (d : Dev) (un : Nat) (f : Fld) : (d.bumpSat un f).errLog = d.errLog := rfl
@[simp] theorem Dev.bumpSat_recordNo (d : Dev) (un : Nat) (f : Fld) : (d.bumpSat un f).recordNo = d.recordNo := rfl
@[simp] theorem Dev.bumpSat_hif (d : Dev) (un : Nat) (f : Fld) : (d.bumpSat un f).hif = d.hif := rfl
@[simp] theorem Dev.bumpSat_agents (d : Dev) (un : Nat) (f : Fld) : (d.bumpSat un f).agents = d.agents := rfl
@[simp] theorem Dev.bumpSat_draws (d : Dev) (un : Nat) (f : Fld) : (d.bumpSat un f).draws = d.draws := rfl
@[simp] theorem Dev.bumpSat_snap (d : Dev) (un : Nat) (f : Fld) : (d.bumpSat un f).snap = d.snap := rfl
@[simp] theorem Dev.bumpSat_cycleBase (d : Dev) (un : Nat) (f : Fld) : (d.bumpSat un f).cycleBase = d.cycleBase := rfl
@[simp] theorem Dev.bumpSat_sigPrev (d : Dev) (un : Nat) (f : Fld) : (d.bumpSat un f).sigPrev = d.sigPrev := rfl
@[simp] theorem Dev.bumpSat_lastRead (d : Dev) (un : Nat) (f : Fld) : (d.bumpSat un f).lastRead = d.lastRead := rfl
@[simp] theorem Dev.bumpSat_tm (d : Dev) (un : Nat) (f : Fld) : (d.bumpSat un f).tm = d.tm := rfl
@[simp] theorem Dev.bumpSat_sch (d : Dev) (un : Nat) (f : Fld) : (d.bumpSat un f).sch = d.sch := rfl
@[simp] theorem Dev.bumpSat_telem (d : Dev) (un : Nat) (f : Fld) : (d.bumpSat un f).telem = d.telem := rfl
@[simp] theorem Dev.bumpSat_fwd (d : Dev) (un : Nat) (f : Fld) : (d.bumpSat un f).fwd = d.fwd := rfl
@[simp] theorem Dev.bumpSat_fab (d : Dev) (un : Nat) (f : Fld) : (d.bumpSat un f).fab = d.fab := rfl
@[simp] theorem Dev.bumpSat_panel (d : Dev) (un : Nat) (f : Fld) : (d.bumpSat un f).panel = d.panel := rfl
@[simp] theorem Dev.bumpSat_rid (d : Dev) (un : Nat) (f : Fld) : (d.bumpSat un f).rid = d.rid := rfl
@[simp] theorem Dev.bumpSat_hdl (d : Dev) (un : Nat) (f : Fld) : (d.bumpSat un f).hdl = d.hdl := rfl
@[simp] theorem Dev.bumpSat_dram (d : Dev) (un : Nat) (f : Fld) : (d.bumpSat un f).dram = d.dram := rfl
@[simp] theorem Dev.bumpSat_svcs (d : Dev) (un : Nat) (f : Fld) : (d.bumpSat un f).svcs = d.svcs := rfl
@[simp] theorem Dev.bumpSat_fw (d : Dev) (un : Nat) (f : Fld) : (d.bumpSat un f).fw = d.fw := rfl
@[simp] theorem Dev.bumpSat_pwr (d : Dev) (un : Nat) (f : Fld) : (d.bumpSat un f).pwr = d.pwr := rfl

@[simp] theorem Dev.clearFldI_now (d : Dev) (un : Nat) (f : Fld) (i : Nat) : (d.clearFldI un f i).now = d.now := rfl
@[simp] theorem Dev.clearFldI_frac (d : Dev) (un : Nat) (f : Fld) (i : Nat) : (d.clearFldI un f i).frac = d.frac := rfl
@[simp] theorem Dev.clearFldI_ev (d : Dev) (un : Nat) (f : Fld) (i : Nat) : (d.clearFldI un f i).ev = d.ev := rfl
@[simp] theorem Dev.clearFldI_errLog (d : Dev) (un : Nat) (f : Fld) (i : Nat) : (d.clearFldI un f i).errLog = d.errLog := rfl
@[simp] theorem Dev.clearFldI_recordNo (d : Dev) (un : Nat) (f : Fld) (i : Nat) : (d.clearFldI un f i).recordNo = d.recordNo := rfl
@[simp] theorem Dev.clearFldI_hif (d : Dev) (un : Nat) (f : Fld) (i : Nat) : (d.clearFldI un f i).hif = d.hif := rfl
@[simp] theorem Dev.clearFldI_agents (d : Dev) (un : Nat) (f : Fld) (i : Nat) : (d.clearFldI un f i).agents = d.agents := rfl
@[simp] theorem Dev.clearFldI_draws (d : Dev) (un : Nat) (f : Fld) (i : Nat) : (d.clearFldI un f i).draws = d.draws := rfl
@[simp] theorem Dev.clearFldI_snap (d : Dev) (un : Nat) (f : Fld) (i : Nat) : (d.clearFldI un f i).snap = d.snap := rfl
@[simp] theorem Dev.clearFldI_cycleBase (d : Dev) (un : Nat) (f : Fld) (i : Nat) : (d.clearFldI un f i).cycleBase = d.cycleBase := rfl
@[simp] theorem Dev.clearFldI_sigPrev (d : Dev) (un : Nat) (f : Fld) (i : Nat) : (d.clearFldI un f i).sigPrev = d.sigPrev := rfl
@[simp] theorem Dev.clearFldI_lastRead (d : Dev) (un : Nat) (f : Fld) (i : Nat) : (d.clearFldI un f i).lastRead = d.lastRead := rfl
@[simp] theorem Dev.clearFldI_tm (d : Dev) (un : Nat) (f : Fld) (i : Nat) : (d.clearFldI un f i).tm = d.tm := rfl
@[simp] theorem Dev.clearFldI_sch (d : Dev) (un : Nat) (f : Fld) (i : Nat) : (d.clearFldI un f i).sch = d.sch := rfl
@[simp] theorem Dev.clearFldI_telem (d : Dev) (un : Nat) (f : Fld) (i : Nat) : (d.clearFldI un f i).telem = d.telem := rfl
@[simp] theorem Dev.clearFldI_fwd (d : Dev) (un : Nat) (f : Fld) (i : Nat) : (d.clearFldI un f i).fwd = d.fwd := rfl
@[simp] theorem Dev.clearFldI_fab (d : Dev) (un : Nat) (f : Fld) (i : Nat) : (d.clearFldI un f i).fab = d.fab := rfl
@[simp] theorem Dev.clearFldI_panel (d : Dev) (un : Nat) (f : Fld) (i : Nat) : (d.clearFldI un f i).panel = d.panel := rfl
@[simp] theorem Dev.clearFldI_rid (d : Dev) (un : Nat) (f : Fld) (i : Nat) : (d.clearFldI un f i).rid = d.rid := rfl
@[simp] theorem Dev.clearFldI_hdl (d : Dev) (un : Nat) (f : Fld) (i : Nat) : (d.clearFldI un f i).hdl = d.hdl := rfl
@[simp] theorem Dev.clearFldI_dram (d : Dev) (un : Nat) (f : Fld) (i : Nat) : (d.clearFldI un f i).dram = d.dram := rfl
@[simp] theorem Dev.clearFldI_svcs (d : Dev) (un : Nat) (f : Fld) (i : Nat) : (d.clearFldI un f i).svcs = d.svcs := rfl
@[simp] theorem Dev.clearFldI_fw (d : Dev) (un : Nat) (f : Fld) (i : Nat) : (d.clearFldI un f i).fw = d.fw := rfl
@[simp] theorem Dev.clearFldI_pwr (d : Dev) (un : Nat) (f : Fld) (i : Nat) : (d.clearFldI un f i).pwr = d.pwr := rfl

@[simp] theorem Dev.posted_now (d : Dev) : d.posted.now = d.now := rfl
@[simp] theorem Dev.posted_frac (d : Dev) : d.posted.frac = d.frac := rfl
@[simp] theorem Dev.posted_fields (d : Dev) : d.posted.fields = d.fields := rfl
@[simp] theorem Dev.posted_ev (d : Dev) : d.posted.ev = d.ev := rfl
@[simp] theorem Dev.posted_errLog (d : Dev) : d.posted.errLog = d.errLog := rfl
@[simp] theorem Dev.posted_recordNo (d : Dev) : d.posted.recordNo = d.recordNo := rfl
@[simp] theorem Dev.posted_agents (d : Dev) : d.posted.agents = d.agents := rfl
@[simp] theorem Dev.posted_draws (d : Dev) : d.posted.draws = d.draws := rfl
@[simp] theorem Dev.posted_snap (d : Dev) : d.posted.snap = d.snap := rfl
@[simp] theorem Dev.posted_cycleBase (d : Dev) : d.posted.cycleBase = d.cycleBase := rfl
@[simp] theorem Dev.posted_sigPrev (d : Dev) : d.posted.sigPrev = d.sigPrev := rfl
@[simp] theorem Dev.posted_lastRead (d : Dev) : d.posted.lastRead = d.lastRead := rfl
@[simp] theorem Dev.posted_tm (d : Dev) : d.posted.tm = d.tm := rfl
@[simp] theorem Dev.posted_sch (d : Dev) : d.posted.sch = d.sch := rfl
@[simp] theorem Dev.posted_telem (d : Dev) : d.posted.telem = d.telem := rfl
@[simp] theorem Dev.posted_fwd (d : Dev) : d.posted.fwd = d.fwd := rfl
@[simp] theorem Dev.posted_fab (d : Dev) : d.posted.fab = d.fab := rfl
@[simp] theorem Dev.posted_panel (d : Dev) : d.posted.panel = d.panel := rfl
@[simp] theorem Dev.posted_rid (d : Dev) : d.posted.rid = d.rid := rfl
@[simp] theorem Dev.posted_hdl (d : Dev) : d.posted.hdl = d.hdl := rfl
@[simp] theorem Dev.posted_dram (d : Dev) : d.posted.dram = d.dram := rfl
@[simp] theorem Dev.posted_svcs (d : Dev) : d.posted.svcs = d.svcs := rfl
@[simp] theorem Dev.posted_fw (d : Dev) : d.posted.fw = d.fw := rfl
@[simp] theorem Dev.posted_pwr (d : Dev) : d.posted.pwr = d.pwr := rfl
@[simp] theorem Dev.posted_dma (d : Dev) : d.posted.hif.dma = [] := rfl
@[simp] theorem Dev.posted_getI (d : Dev) (un : Nat) (f : Fld) (i : Nat) : d.posted.getI un f i = d.getI un f i := rfl
@[simp] theorem Dev.posted_get (d : Dev) (un : Nat) (f : Fld) : d.posted.get un f = d.get un f := rfl

@[simp] theorem State.becomes_dev (s : State) (d : Dev) : (s.becomes d).dev = d.posted := rfl
@[simp] theorem State.becomes_host (s : State) (d : Dev) : (s.becomes d).host = hostTake s.host d.hif.dma := rfl
@[simp] theorem State.becomes_pending (s : State) (d : Dev) : (s.becomes d).pending = s.pending := rfl

/-- With nothing posted, posting changes nothing. -/
theorem Dev.posted_of_dma {d : Dev} (h : d.hif.dma = []) : d.posted = d := by
  have e : { d.hif with dma := [] } = d.hif := by rw [← h]
  rw [Dev.posted, e]

theorem State.go_eq (s : State) (f : Dev → Dev) : s.go f = .next (s.becomes (f s.dev)) := rfl

end Sys2Proof.Machine
end

