-- ==== Sys2Proof/Laws/Noted.lean ====
section
/-! SUPPORT. What raising events and counting leave behind: each operation that reports something changes nothing else. -/
namespace Sys2Proof.Machine

variable {a b c d : Dev} {un i : Nat} {f : Fld}

/-! ### The relation -/

theorem Dev.Noted.refl (d : Dev) : d.Noted d := ⟨fun _ _ => rfl, rfl, fun _ => rfl, [], by simp, by simp⟩

/-- Offsets and lowest bits of the note fields. -/
def noteSpots : List (Nat × Nat) := [(0x80, 0), (0x180, 0), (0x108, 16), (0x438, 52), (0x438, 51), (0x438, 16), (0x1008, 32)]

/-- A field that lies elsewhere is no note field, whatever its unit. -/
theorem noteKey_of (f : Fld) (un i : Nat) (h : (f.off, f.lo) ∉ noteSpots) : noteKey (f.key un i) = false := by
  simp only [noteSpots, List.mem_cons, Prod.mk.injEq, List.not_mem_nil, or_false, not_or] at h
  refine Bool.eq_false_iff.2 (fun hk => ?_)
  simp only [noteKey, Fld.key, Bool.or_eq_true, Bool.and_eq_true, beq_iff_eq, UF_EVT_PEND.PEND, UF_PMC_CNT.COUNT, UF_PMC_CTRL.OVF,
    HIF_RING_STATE.ARMED, HIF_RING_STATE.PHASE, HIF_RING_STATE.TAIL, AGT_COUNTS.INBOX_DROP] at hk
  omega

/-- A field that is no note field reads the same. -/
theorem Dev.Noted.getI (h : a.Noted b) (hk : noteKey (f.key un i) = false) : b.getI un f i = a.getI un f i :=
  Dev.getI_congr (h.1 _ hk)

theorem Dev.Noted.get (h : a.Noted b) (hk : noteKey (f.key un 0) = false) : b.get un f = a.get un f := h.getI hk

/-- Is this one of the fields that say where event rings lie? -/
def ringPlaceKey (k : Key) : Bool :=
  match k with
  | [un, off, lo, _] => un == uHIF && (off == HIF_RING_BASE.BASE.off || off == HIF_RING_CFG.SIZE_LOG2.off) && lo == 0
  | _ => false

theorem Dev.entryPlace_congr (hf : ∀ k, ringPlaceKey k = true → b.fields.get? k = a.fields.get? k) {k x n : Nat}
    (hp : b.entryPlace k x n) : a.entryPlace k x n := by
  have e (i : Nat) : b.ringAddr k i 32 = a.ringAddr k i 32 := by
    rw [Dev.ringAddr, Dev.ringAddr, Dev.ringSize, Dev.ringSize, Dev.getI_congr (hf _ rfl), Dev.getI_congr (hf _ rfl)]
  obtain ⟨i, hp⟩ := hp
  exact ⟨i, by rwa [e] at hp⟩

theorem Dev.evtPlace_congr (hf : ∀ k, ringPlaceKey k = true → b.fields.get? k = a.fields.get? k) (hm : b.hif.msix = a.hif.msix)
    {x n : Nat} (hp : b.evtPlace x n) : a.evtPlace x n := by
  rcases hp with ⟨q, hp⟩ | ⟨v, e, hn⟩
  · exact .inl ⟨q, Dev.entryPlace_congr hf hp⟩
  · exact .inr ⟨v, by rw [e, hm], hn⟩

theorem noteKey_of_ringPlaceKey : ∀ k : Key, ringPlaceKey k = true → noteKey k = false
  | [un, off, lo, i], h => by
    simp only [ringPlaceKey, Bool.and_eq_true, Bool.or_eq_true, beq_iff_eq] at h
    obtain ⟨⟨rfl, rfl | rfl⟩, rfl⟩ := h <;> rfl

theorem Dev.Noted.place (h : a.Noted b) {x n : Nat} (hp : b.evtPlace x n) : a.evtPlace x n :=
  Dev.evtPlace_congr (fun k hk => h.1 k (noteKey_of_ringPlaceKey k hk)) (by rw [h.2.1]) hp

theorem Dev.Noted.placed (h : a.Noted b) {x n : Nat} (hp : a.evtPlace x n) : b.evtPlace x n :=
  Dev.evtPlace_congr (fun k hk => (h.1 k (noteKey_of_ringPlaceKey k hk)).symm) (by rw [h.2.1]) hp

theorem Dev.Noted.trans (hab : a.Noted b) (hbc : b.Noted c) : a.Noted c := by
  refine ⟨fun k hk => (hbc.1 k hk).trans (hab.1 k hk), hbc.2.1.trans (by rw [hab.2.1]), fun slot => ?_, ?_⟩
  · have h1 := hab.2.2.1 slot
    have h2 := hbc.2.2.1 slot
    rw [h2, h1]
  · obtain ⟨ws, e, hw⟩ := hab.2.2.2
    obtain ⟨ws', e', hw'⟩ := hbc.2.2.2
    refine ⟨ws ++ ws', by rw [e', e, List.append_assoc], fun w hm => ?_⟩
    rcases List.mem_append.1 hm with hm | hm
    · exact hw w hm
    · exact hab.place (hw' w hm)

/-! ### What stays the same -/

theorem Dev.Noted.now (h : a.Noted b) : b.now = a.now := by rw [h.2.1]
theorem Dev.Noted.frac (h : a.Noted b) : b.frac = a.frac := by rw [h.2.1]
theorem Dev.Noted.errLog (h : a.Noted b) : b.errLog = a.errLog := by rw [h.2.1]
theorem Dev.Noted.recordNo (h : a.Noted b) : b.recordNo = a.recordNo := by rw [h.2.1]
theorem Dev.Noted.draws (h : a.Noted b) : b.draws = a.draws := by rw [h.2.1]
theorem Dev.Noted.snap (h : a.Noted b) : b.snap = a.snap := by rw [h.2.1]
theorem Dev.Noted.cycleBase (h : a.Noted b) : b.cycleBase = a.cycleBase := by rw [h.2.1]
theorem Dev.Noted.sigPrev (h : a.Noted b) : b.sigPrev = a.sigPrev := by rw [h.2.1]
theorem Dev.Noted.lastRead (h : a.Noted b) : b.lastRead = a.lastRead := by rw [h.2.1]
theorem Dev.Noted.tm (h : a.Noted b) : b.tm = a.tm := by rw [h.2.1]
theorem Dev.Noted.sch (h : a.Noted b) : b.sch = a.sch := by rw [h.2.1]
theorem Dev.Noted.telem (h : a.Noted b) : b.telem = a.telem := by rw [h.2.1]
theorem Dev.Noted.fwd (h : a.Noted b) : b.fwd = a.fwd := by rw [h.2.1]
theorem Dev.Noted.fab (h : a.Noted b) : b.fab = a.fab := by rw [h.2.1]
theorem Dev.Noted.panel (h : a.Noted b) : b.panel = a.panel := by rw [h.2.1]
theorem Dev.Noted.rid (h : a.Noted b) : b.rid = a.rid := by rw [h.2.1]
theorem Dev.Noted.hdl (h : a.Noted b) : b.hdl = a.hdl := by rw [h.2.1]
theorem Dev.Noted.dram (h : a.Noted b) : b.dram = a.dram := by rw [h.2.1]
theorem Dev.Noted.svcs (h : a.Noted b) : b.svcs = a.svcs := by rw [h.2.1]
theorem Dev.Noted.fw (h : a.Noted b) : b.fw = a.fw := by rw [h.2.1]
theorem Dev.Noted.pwr (h : a.Noted b) : b.pwr = a.pwr := by rw [h.2.1]
theorem Dev.Noted.msix (h : a.Noted b) : b.hif.msix = a.hif.msix := by rw [h.2.1]
theorem Dev.Noted.inflight (h : a.Noted b) : b.hif.inflight = a.hif.inflight := by rw [h.2.1]

/-! ### The same change on both sides -/

/-- A field written alike on both sides, the fields that place event rings apart. -/
theorem Dev.Noted.setI (h : a.Noted b) (un : Nat) (f : Fld) (i v : Nat) (hr : ringPlaceKey (f.key un i) = false) :
    (a.setI un f i v).Noted (b.setI un f i v) := by
  have hput : ∀ (x : Dev) (k : Key), (x.setI un f i v).fields.get? k =
      if k = f.key un i then (if v % 2 ^ f.width = resetVal un f.rst i then none else some (v % 2 ^ f.width)) else x.fields.get? k := by
    intro x k
    by_cases hk : k = f.key un i
    · subst hk; simp [Dev.fields_setI_self]
    · simp [hk, Dev.fields_setI_ne hk]
  refine ⟨fun k hk => by rw [hput, hput, h.1 k hk], ?_, h.2.2.1, ?_⟩
  · exact congrArg (fun x : Dev => { x with fields := (b.setI un f i v).fields }) h.2.1
  · obtain ⟨ws, e, hw⟩ := h.2.2.2
    refine ⟨ws, e, fun w hm => Dev.evtPlace_congr (a := a.setI un f i v) (b := a) (fun k hk => ?_) rfl (hw w hm)⟩
    rw [hput, if_neg (fun e => by rw [e, hr] at hk; cases hk)]

theorem Dev.Noted.set (h : a.Noted b) (un : Nat) (f : Fld) (v : Nat) (hr : ringPlaceKey (f.key un 0) = false) :
    (a.set un f v).Noted (b.set un f v) := h.setI un f 0 v hr

theorem Dev.Noted.with_now (h : a.Noted b) (x : _) : ({ a with now := x } : Dev).Noted { b with now := x } :=
  ⟨h.1, congrArg (fun d : Dev => { d with now := x }) h.2.1, h.2.2.1, h.2.2.2⟩
theorem Dev.Noted.with_frac (h : a.Noted b) (x : _) : ({ a with frac := x } : Dev).Noted { b with frac := x } :=
  ⟨h.1, congrArg (fun d : Dev => { d with frac := x }) h.2.1, h.2.2.1, h.2.2.2⟩
theorem Dev.Noted.with_errLog (h : a.Noted b) (x : _) : ({ a with errLog := x } : Dev).Noted { b with errLog := x } :=
  ⟨h.1, congrArg (fun d : Dev => { d with errLog := x }) h.2.1, h.2.2.1, h.2.2.2⟩
theorem Dev.Noted.with_recordNo (h : a.Noted b) (x : _) : ({ a with recordNo := x } : Dev).Noted { b with recordNo := x } :=
  ⟨h.1, congrArg (fun d : Dev => { d with recordNo := x }) h.2.1, h.2.2.1, h.2.2.2⟩
theorem Dev.Noted.with_draws (h : a.Noted b) (x : _) : ({ a with draws := x } : Dev).Noted { b with draws := x } :=
  ⟨h.1, congrArg (fun d : Dev => { d with draws := x }) h.2.1, h.2.2.1, h.2.2.2⟩
theorem Dev.Noted.with_snap (h : a.Noted b) (x : _) : ({ a with snap := x } : Dev).Noted { b with snap := x } :=
  ⟨h.1, congrArg (fun d : Dev => { d with snap := x }) h.2.1, h.2.2.1, h.2.2.2⟩
theorem Dev.Noted.with_cycleBase (h : a.Noted b) (x : _) : ({ a with cycleBase := x } : Dev).Noted { b with cycleBase := x } :=
  ⟨h.1, congrArg (fun d : Dev => { d with cycleBase := x }) h.2.1, h.2.2.1, h.2.2.2⟩
theorem Dev.Noted.with_sigPrev (h : a.Noted b) (x : _) : ({ a with sigPrev := x } : Dev).Noted { b with sigPrev := x } :=
  ⟨h.1, congrArg (fun d : Dev => { d with sigPrev := x }) h.2.1, h.2.2.1, h.2.2.2⟩
theorem Dev.Noted.with_lastRead (h : a.Noted b) (x : _) : ({ a with lastRead := x } : Dev).Noted { b with lastRead := x } :=
  ⟨h.1, congrArg (fun d : Dev => { d with lastRead := x }) h.2.1, h.2.2.1, h.2.2.2⟩
theorem Dev.Noted.with_tm (h : a.Noted b) (x : _) : ({ a with tm := x } : Dev).Noted { b with tm := x } :=
  ⟨h.1, congrArg (fun d : Dev => { d with tm := x }) h.2.1, h.2.2.1, h.2.2.2⟩
theorem Dev.Noted.with_sch (h : a.Noted b) (x : _) : ({ a with sch := x } : Dev).Noted { b with sch := x } :=
  ⟨h.1, congrArg (fun d : Dev => { d with sch := x }) h.2.1, h.2.2.1, h.2.2.2⟩
theorem Dev.Noted.with_telem (h : a.Noted b) (x : _) : ({ a with telem := x } : Dev).Noted { b with telem := x } :=
  ⟨h.1, congrArg (fun d : Dev => { d with telem := x }) h.2.1, h.2.2.1, h.2.2.2⟩
theorem Dev.Noted.with_fwd (h : a.Noted b) (x : _) : ({ a with fwd := x } : Dev).Noted { b with fwd := x } :=
  ⟨h.1, congrArg (fun d : Dev => { d with fwd := x }) h.2.1, h.2.2.1, h.2.2.2⟩
theorem Dev.Noted.with_fab (h : a.Noted b) (x : _) : ({ a with fab := x } : Dev).Noted { b with fab := x } :=
  ⟨h.1, congrArg (fun d : Dev => { d with fab := x }) h.2.1, h.2.2.1, h.2.2.2⟩
theorem Dev.Noted.with_panel (h : a.Noted b) (x : _) : ({ a with panel := x } : Dev).Noted { b with panel := x } :=
  ⟨h.1, congrArg (fun d : Dev => { d with panel := x }) h.2.1, h.2.2.1, h.2.2.2⟩
theorem Dev.Noted.with_rid (h : a.Noted b) (x : _) : ({ a with rid := x } : Dev).Noted { b with rid := x } :=
  ⟨h.1, congrArg (fun d : Dev => { d with rid := x }) h.2.1, h.2.2.1, h.2.2.2⟩
theorem Dev.Noted.with_hdl (h : a.Noted b) (x : _) : ({ a with hdl := x } : Dev).Noted { b with hdl := x } :=
  ⟨h.1, congrArg (fun d : Dev => { d with hdl := x }) h.2.1, h.2.2.1, h.2.2.2⟩
theorem Dev.Noted.with_dram (h : a.Noted b) (x : _) : ({ a with dram := x } : Dev).Noted { b with dram := x } :=
  ⟨h.1, congrArg (fun d : Dev => { d with dram := x }) h.2.1, h.2.2.1, h.2.2.2⟩
theorem Dev.Noted.with_svcs (h : a.Noted b) (x : _) : ({ a with svcs := x } : Dev).Noted { b with svcs := x } :=
  ⟨h.1, congrArg (fun d : Dev => { d with svcs := x }) h.2.1, h.2.2.1, h.2.2.2⟩
theorem Dev.Noted.with_fw (h : a.Noted b) (x : _) : ({ a with fw := x } : Dev).Noted { b with fw := x } :=
  ⟨h.1, congrArg (fun d : Dev => { d with fw := x }) h.2.1, h.2.2.1, h.2.2.2⟩
theorem Dev.Noted.with_pwr (h : a.Noted b) (x : _) : ({ a with pwr := x } : Dev).Noted { b with pwr := x } :=
  ⟨h.1, congrArg (fun d : Dev => { d with pwr := x }) h.2.1, h.2.2.1, h.2.2.2⟩

/-- A command that goes on has started on both sides. -/
theorem Dev.Noted.noteStarted (h : a.Noted b) (t : Ticket) : (a.noteStarted t).Noted (b.noteStarted t) := by
  refine ⟨h.1, ?_, h.2.2.1, h.2.2.2⟩
  rw [Dev.noteStarted, Dev.noteStarted, h.inflight]
  exact congrArg (fun d : Dev => { d with hif := { d.hif with
    inflight := a.hif.inflight.map (fun f : InFlight => if f.ticket = t then { f with started := true } else f) } }) h.2.1

/-! ### Reporting -/

/-- A note field written. -/
theorem Dev.Noted.of_noteKey (d : Dev) (un : Nat) (f : Fld) (i v : Nat) (hk : noteKey (f.key un i) = true) : d.Noted (d.setI un f i v) :=
  ⟨fun k h => Dev.fields_setI_ne (fun e => by rw [e, hk] at h; cases h), rfl, fun _ => rfl, [], by simp [Dev.setI], by simp⟩

theorem Dev.noted_pmcAdd (fuel : Nat) (d : Dev) (un n q : Nat) : d.Noted (Dev.pmcAdd fuel d un n q).1 := by
  induction fuel generalizing d n q with
  | zero => exact .refl d
  | succ k ih =>
    have h0 := Dev.Noted.of_noteKey d un UF_PMC_CNT.COUNT n (d.getI un UF_PMC_CNT.COUNT n + q) (by simp [noteKey, Fld.key])
    unfold Dev.pmcAdd
    dsimp only
    split
    · exact h0
    · split
      · exact h0.trans (ih ..)
      · exact h0.trans (.of_noteKey _ un UF_PMC_CTRL.OVF 0 _ (by simp [noteKey, Fld.key, UF_PMC_CTRL.OVF]))

theorem Dev.noted_foldl {α : Type} (f : Dev → α → Dev) (hf : ∀ (d : Dev) (x : α), d.Noted (f d x)) (l : List α) (d : Dev) : d.Noted (l.foldl f d) := by
  induction l generalizing d with
  | nil => exact .refl d
  | cons x l ih => exact (hf d x).trans (ih _)

theorem Dev.noted_pmcTally (d : Dev) (un code q : Nat) (sel : Nat → Bool) : d.Noted (d.pmcTally un code q sel).1 := by
  unfold Dev.pmcTally
  split
  · exact .refl d
  · suffices h : ∀ (l : List Nat) (p : Dev × Nat), d.Noted p.1 → d.Noted (l.foldl (fun (acc : Dev × Nat) n =>
        if acc.1.pmcCounts un n code sel then ((Dev.pmcAdd 8 acc.1 un n q).1, acc.2 ||| (Dev.pmcAdd 8 acc.1 un n q).2) else acc) p).1 from
      h _ (d, 0) (.refl d)
    intro l
    induction l with
    | nil => exact fun p hp => hp
    | cons n l ih =>
      intro p hp
      refine ih _ ?_
      dsimp only
      split
      · exact hp.trans (Dev.noted_pmcAdd ..)
      · exact hp

theorem Dev.noted_ev (d : Dev) (e : EvState) : d.Noted { d with ev := e } :=
  ⟨fun _ _ => rfl, rfl, fun _ => rfl, [], by simp, by simp⟩

theorem Dev.noted_hold (d : Dev) (src un type time : Nat) (p : List Byte) : d.Noted (d.hold src un type time p) := by
  unfold Dev.hold
  dsimp only
  split <;> exact Dev.noted_ev ..

theorem Dev.noted_pend (d : Dev) (un type : Nat) (p : List Byte) : d.Noted (d.pend un type p) :=
  (Dev.Noted.of_noteKey d un UF_EVT_PEND.PEND 0 (setBit (d.get un UF_EVT_PEND.PEND) type true) (by simp [noteKey, Fld.key])).trans
    (Dev.noted_ev _ { d.ev with latest := d.ev.latest.insert [un, type] (d.now, p) })

theorem Dev.noted_overflowHeld (d : Dev) (un mask : Nat) : d.Noted (d.overflowHeld un mask) := by
  unfold Dev.overflowHeld
  dsimp only
  split
  · exact .refl d
  · split
    · exact Dev.noted_pend ..
    · exact (Dev.noted_pend ..).trans (Dev.noted_hold ..)

theorem Dev.noted_raisedHeldN (n : Nat) (d : Dev) (un mask : Nat) : d.Noted (Dev.raisedHeldN n d un mask) := by
  induction n generalizing d un mask with
  | zero => exact .refl d
  | succ n ih =>
    unfold Dev.raisedHeldN
    split
    · exact .refl d
    · exact (Dev.noted_overflowHeld ..).trans (Dev.noted_foldl _ (fun d u => (Dev.noted_pmcTally d u 0x0A 1 _).trans (ih ..)) ..)

theorem Dev.noted_tallyHeld (d : Dev) (code q : Nat) : d.Noted (d.tallyHeld code q) :=
  (Dev.noted_pmcTally ..).trans (Dev.noted_raisedHeldN ..)

/-- A write to a place that events are written to. -/
theorem Dev.noted_hostWrite (d : Dev) (addr : Nat) (bs : List Byte) (h : d.evtPlace addr bs.length) : d.Noted (d.hostWrite addr bs) := by
  have ht := Dev.noted_tallyHeld d 0x24 bs.length
  obtain ⟨ws, e, hw⟩ := ht.2.2.2
  refine ⟨ht.1, ?_, ht.2.2.1, ws ++ [(addr, bs)], ?_, fun w hm => ?_⟩
  · exact congrArg (fun x : Dev => { x with hif := { x.hif with dma := x.hif.dma ++ [(addr, bs)] } }) ht.2.1
  · simp [Dev.hostWrite, e]
  · rcases List.mem_append.1 hm with hm | hm
    · exact hw w hm
    · rw [List.mem_singleton.1 hm]; exact h

theorem leBytes_length (n v : Nat) : (leBytes n v).length = n := by
  induction n generalizing v with
  | zero => rfl
  | succ n ih => simp [leBytes, ih]

theorem Dev.noted_sendMsix (d : Dev) (v : Nat) : d.Noted (d.sendMsix v) := by
  unfold Dev.sendMsix
  split
  · exact ⟨fun _ _ => rfl, rfl, fun _ => rfl, [], by simp, by simp⟩
  · exact (d.noted_hostWrite _ _ (.inr ⟨v, rfl, leBytes_length ..⟩)).trans (Dev.noted_tallyHeld ..)

theorem Dev.noted_unsig (d : Dev) (u : Tab (List Nat)) : d.Noted { d with hif := { d.hif with unsig := u } } :=
  ⟨fun _ _ => rfl, rfl, fun _ => rfl, [], by simp, by simp⟩

theorem Dev.noted_signalRing (d : Dev) (k : Nat) : d.Noted (d.signalRing k) :=
  ((Dev.Noted.of_noteKey d uHIF HIF_RING_STATE.ARMED k 0 rfl).trans (Dev.noted_unsig ..)).trans (Dev.noted_sendMsix ..)

theorem Dev.noted_noteEntry (d : Dev) (k : Nat) : d.Noted (d.noteEntry k) := by
  unfold Dev.noteEntry
  dsimp only
  split
  · exact (Dev.noted_unsig ..).trans (Dev.noted_signalRing ..)
  · exact Dev.noted_unsig ..

theorem patch_length (l : List Byte) (off : Nat) (bs : List Byte) (h : off + bs.length ≤ l.length) : (patch l off bs).length = l.length := by
  simp [patch]; omega

/-- An entry of an event ring is written. -/
theorem Dev.noted_pushEntry (d : Dev) (q : Nat) (bytes : List Byte) (hl : bytes.length = 32) : d.Noted (d.pushEntry (ringIx kEQ q) bytes) := by
  have hp (v : Nat) : (patch bytes 3 (leBytes 1 v)).length = 32 := by rw [patch_length _ _ _ (by rw [leBytes_length]; omega), hl]
  unfold Dev.pushEntry
  dsimp only
  have h1 := Dev.noted_hostWrite d (d.ringAddr (ringIx kEQ q) (d.getI uHIF HIF_RING_STATE.TAIL (ringIx kEQ q)) 32 + 4)
    ((patch bytes 3 (leBytes 1 (setBit (leAt bytes 3 1) 7 (d.ringPhase (ringIx kEQ q)
      (d.getI uHIF HIF_RING_STATE.TAIL (ringIx kEQ q)))))).drop 4)
    (.inl ⟨q, _, .inl ⟨rfl, by rw [List.length_drop, hp]⟩⟩)
  refine ((h1.trans (Dev.noted_hostWrite _ _ _ ?_)).trans
    ((Dev.Noted.of_noteKey _ uHIF HIF_RING_STATE.TAIL _ _ rfl).trans (Dev.Noted.of_noteKey _ uHIF HIF_RING_STATE.PHASE _ _ rfl))).trans
    (Dev.noted_noteEntry ..)
  exact h1.placed (.inl ⟨q, _, .inr ⟨rfl, by rw [List.length_take, hp]; rfl⟩⟩)

/-! #### Agents' inboxes -/

@[simp] theorem Dev.agent_setAgent_self (d : Dev) (s : Nat) (x : Agent) : (d.setAgent s x).agent s = x := by
  simp [Dev.agent, Dev.setAgent]

theorem Dev.agent_setAgent_ne {s s' : Nat} (h : s' ≠ s) (d : Dev) (x : Agent) : (d.setAgent s x).agent s' = d.agent s' := by
  unfold Dev.agent Dev.setAgent
  exact Tab.getD_setD_ne (by simpa using h)

theorem Dev.noted_setAgent (d : Dev) (slot : Nat) (m : List Msg) (l : Bool) :
    d.Noted (d.setAgent slot { d.agent slot with inbox := m, lost := l }) := by
  refine ⟨fun _ _ => rfl, rfl, fun s => ?_, [], by simp [Dev.setAgent], by simp⟩
  by_cases h : s = slot
  · subst h; simp
  · simp [Dev.agent_setAgent_ne h]

theorem Dev.noted_pushMsg (d : Dev) (slot kind : Nat) (body : List Byte) : d.Noted (d.pushMsg slot kind body) := by
  unfold Dev.pushMsg
  dsimp only
  split
  · exact d.noted_setAgent ..
  · exact (d.noted_setAgent slot (d.agent slot).inbox true).trans (.of_noteKey _ uSVC AGT_COUNTS.INBOX_DROP _ _ rfl)

/-! #### Event records -/

theorem EvRec.bytes_length (r : EvRec) : r.bytes.length = 32 := by
  simp [EvRec.bytes, leBytes_length, slice] <;> omega

theorem Dev.noted_deliverRec (d : Dev) (r : EvRec) : d.Noted (d.deliverRec r) := by
  have h := d.noted_pushEntry (d.get r.un UF_EVT_ROUTE.EVT_RING) r.bytes r.bytes_length
  unfold Dev.deliverRec
  dsimp only
  split
  · exact h.trans (Dev.noted_foldl _ (fun d s => d.noted_pushMsg s 3 r.bytes) ..)
  · exact h

theorem Dev.noted_issue (d : Dev) (src un type time : Nat) (p : List Byte) : d.Noted (d.issue src un type time p) := by
  unfold Dev.issue
  dsimp only
  split
  · exact (Dev.noted_ev ..).trans (Dev.noted_deliverRec ..)
  · exact Dev.noted_hold ..

theorem Dev.noted_raiseCore (d : Dev) (src un type : Nat) (p : List Byte) : d.Noted (d.raiseCore src un type p) := by
  have h := d.noted_pend un type p
  unfold Dev.raiseCore
  dsimp only
  split
  · exact h
  · exact h.trans (Dev.noted_issue ..)

theorem Dev.noted_raiseOn (d : Dev) (src un type : Nat) (p : List Byte) : d.Noted (d.raiseOn src un type p) := by
  have h := d.noted_raiseCore src un type p
  unfold Dev.raiseOn
  dsimp only
  split
  · exact (h.trans (Dev.noted_ev ..)).trans (Dev.noted_raiseCore ..)
  · exact h

theorem Dev.noted_countRaisedN (n : Nat) (d : Dev) (un : Nat) : d.Noted (Dev.countRaisedN n d un) := by
  induction n generalizing d un with
  | zero => exact .refl d
  | succ n ih =>
    refine Dev.noted_foldl _ (fun d u => ?_) ..
    dsimp only
    split
    · exact Dev.noted_pmcTally ..
    · exact ((Dev.noted_pmcTally ..).trans (Dev.noted_raiseOn ..)).trans (ih ..)

theorem Dev.noted_countRaised (d : Dev) (un : Nat) : d.Noted (d.countRaised un) := Dev.noted_countRaisedN ..

/-- Raising an event leaves everything but what reports it. -/
theorem Dev.noted_raise (d : Dev) (un type : Nat) (p : List Byte) : d.Noted (d.raise un type p) := by
  have h := (d.noted_raiseOn (sourceOf un type) un type p).trans (Dev.noted_countRaised _ un)
  unfold Dev.raise
  dsimp only
  split
  · exact h
  · exact h.trans (Dev.noted_countRaised ..)

theorem Dev.noted_tallySel (d : Dev) (un code q : Nat) (sel : Nat → Bool) : d.Noted (d.tallySel un code q sel) := by
  unfold Dev.tallySel
  dsimp only
  split
  · exact Dev.noted_pmcTally ..
  · exact (Dev.noted_pmcTally ..).trans (Dev.noted_raise ..)

theorem Dev.noted_tallyQ (d : Dev) (un code q : Nat) (sel : Nat → Bool) : d.Noted (d.tallyQ un code q sel) := Dev.noted_tallySel ..

theorem Dev.noted_tally (d : Dev) (un code q : Nat) : d.Noted (d.tally un code q) := Dev.noted_tallySel ..

theorem Dev.noted_tallyEdge (d : Dev) (un code : Nat) (was is : Nat → Bool) : d.Noted (d.tallyEdge un code was is) := Dev.noted_tallySel ..

theorem Dev.noted_rises (d : Dev) (un code : Nat) : d.Noted (d.rises un code) := Dev.noted_tallySel ..

theorem Dev.noted_tallyUp (d : Dev) (un code q : Nat) : d.Noted (d.tallyUp un code q) :=
  Dev.noted_foldl _ (fun d u => d.noted_tally u code q) ..

theorem Dev.noted_raiseKeyed (d : Dev) (k : Key) (un type n : Nat) (p : Nat → List Byte) : d.Noted (d.raiseKeyed k un type n p) := by
  unfold Dev.raiseKeyed
  dsimp only
  split
  · exact (Dev.noted_ev ..).trans (Dev.noted_raise ..)
  · exact Dev.noted_ev ..

theorem Dev.noted_raiseLimited (d : Dev) (un type sub n : Nat) (p : Nat → List Byte) : d.Noted (d.raiseLimited un type sub n p) :=
  Dev.noted_raiseKeyed ..

theorem Dev.noted_raiseOnce (d : Dev) (un type sub : Nat) (p : Nat → List Byte) : d.Noted (d.raiseOnce un type sub p) :=
  Dev.noted_raiseLimited ..

end Sys2Proof.Machine
end

