-- ==== Sys2Proof/Laws/Completed.lean ====
section
/-! SUPPORT. What completing a command leaves behind: nothing but the host interface's account of commands, and what reports. -/
namespace Sys2Proof.Machine

variable {a b c d : Dev} {un i : Nat} {f : Fld}

/-! ### The relation -/

theorem cplKey_of_ringPlaceKey : ∀ k : Key, ringPlaceKey k = true → cplKey k = false
  | [un, off, lo, i], h => by
    simp only [ringPlaceKey, Bool.and_eq_true, Bool.or_eq_true, beq_iff_eq] at h
    obtain ⟨⟨rfl, rfl | rfl⟩, rfl⟩ := h <;> rfl

theorem Dev.cplPlace_congr (hf : ∀ k, ringPlaceKey k = true → b.fields.get? k = a.fields.get? k) (hm : b.hif.msix = a.hif.msix)
    {x n : Nat} (hp : b.cplPlace x n) : a.cplPlace x n := by
  rcases hp with ⟨k, hp⟩ | ⟨v, e, hn⟩
  · exact .inl ⟨k, Dev.entryPlace_congr hf hp⟩
  · exact .inr ⟨v, by rw [e, hm], hn⟩

theorem Dev.Completed.trans (hab : a.Completed b) (hbc : b.Completed c) : a.Completed c := by
  refine ⟨fun k hk => (hbc.1 k hk).trans (hab.1 k hk), hbc.2.1.trans (by rw [hab.2.1]), hbc.2.2.1.trans hab.2.2.1, fun slot => ?_, ?_⟩
  · rw [hbc.2.2.2.1 slot, hab.2.2.2.1 slot]
  · obtain ⟨ws, e, hw⟩ := hab.2.2.2.2
    obtain ⟨ws', e', hw'⟩ := hbc.2.2.2.2
    refine ⟨ws ++ ws', by rw [e', e, List.append_assoc], fun w hm => ?_⟩
    rcases List.mem_append.1 hm with hm | hm
    · exact hw w hm
    · exact Dev.cplPlace_congr (fun k hk => hab.1 k (cplKey_of_ringPlaceKey k hk)) hab.2.2.1 (hw' w hm)

theorem Dev.Noted.completed (h : a.Noted b) : a.Completed b := by
  refine ⟨fun k hk => h.1 k ?_, h.2.1.trans (by rw [h.2.1]), h.msix, fun slot => ?_, ?_⟩
  · simp only [cplKey, Bool.or_eq_false_iff] at hk
    exact hk.1
  · have e := h.2.2.1 slot
    rw [e]
  · obtain ⟨ws, e, hw⟩ := h.2.2.2
    refine ⟨ws, e, fun w hm => ?_⟩
    rcases hw w hm with ⟨q, hp⟩ | hv
    · exact .inl ⟨ringIx kEQ q, hp⟩
    · exact .inr hv

theorem Dev.Completed.refl (d : Dev) : d.Completed d := (Dev.Noted.refl d).completed

/-- A field that no completion changes reads the same. -/
theorem Dev.Completed.getI (h : a.Completed b) (hk : cplKey (f.key un i) = false) : b.getI un f i = a.getI un f i :=
  Dev.getI_congr (h.1 _ hk)

/-! ### Completing -/

theorem Dev.Completed.of_cplKey (d : Dev) (un : Nat) (f : Fld) (i v : Nat) (hk : cplKey (f.key un i) = true) :
    d.Completed (d.setI un f i v) :=
  ⟨fun k h => Dev.fields_setI_ne (fun e => by rw [e, hk] at h; cases h), rfl, rfl, fun _ => rfl, [], by simp [Dev.setI], by simp⟩

/-- A change of the host interface's account of commands. -/
theorem Dev.completed_hif (d : Dev) (x : HifState) (hm : x.msix = d.hif.msix) (hd : x.dma = d.hif.dma) : d.Completed { d with hif := x } :=
  ⟨fun _ _ => rfl, rfl, hm, fun _ => rfl, [], by simp [hd], by simp⟩

theorem Dev.completed_setAgent (d : Dev) (slot : Nat) (x : Agent) (hx : x = { d.agent slot with
      inbox := x.inbox, lost := x.lost, settling := x.settling, aborted := x.aborted }) : d.Completed (d.setAgent slot x) := by
  refine ⟨fun _ _ => rfl, rfl, rfl, fun s => ?_, [], by simp [Dev.setAgent], by simp⟩
  by_cases h : s = slot
  · subst h; rw [Dev.agent_setAgent_self]; exact hx
  · simp [Dev.agent_setAgent_ne h]

theorem Dev.completed_hostWrite (d : Dev) (addr : Nat) (bs : List Byte) (h : d.cplPlace addr bs.length) :
    d.Completed (d.hostWrite addr bs) := by
  have ht := (Dev.noted_tallyHeld d 0x24 bs.length).completed
  obtain ⟨ws, e, hw⟩ := ht.2.2.2.2
  refine ⟨ht.1, ?_, ht.2.2.1, ht.2.2.2.1, ws ++ [(addr, bs)], ?_, fun w hm => ?_⟩
  · exact congrArg (fun x : Dev => { x with hif := { x.hif with dma := x.hif.dma ++ [(addr, bs)] } }) ht.2.1
  · simp [Dev.hostWrite, e]
  · rcases List.mem_append.1 hm with hm | hm
    · exact hw w hm
    · rw [List.mem_singleton.1 hm]; exact h

/-- An entry of any ring is written. -/
theorem Dev.completed_pushEntry (d : Dev) (k : Nat) (bytes : List Byte) (hl : bytes.length = 32) : d.Completed (d.pushEntry k bytes) := by
  have hp (v : Nat) : (patch bytes 3 (leBytes 1 v)).length = 32 := by rw [patch_length _ _ _ (by rw [leBytes_length]; omega), hl]
  unfold Dev.pushEntry
  dsimp only
  have h1 := Dev.completed_hostWrite d (d.ringAddr k (d.getI uHIF HIF_RING_STATE.TAIL k) 32 + 4)
    ((patch bytes 3 (leBytes 1 (setBit (leAt bytes 3 1) 7 (d.ringPhase k (d.getI uHIF HIF_RING_STATE.TAIL k))))).drop 4)
    (.inl ⟨k, _, .inl ⟨rfl, by rw [List.length_drop, hp]⟩⟩)
  refine ((h1.trans (Dev.completed_hostWrite _ _ _ ?_)).trans
    ((Dev.Completed.of_cplKey _ uHIF HIF_RING_STATE.TAIL _ _ rfl).trans (Dev.Completed.of_cplKey _ uHIF HIF_RING_STATE.PHASE _ _ rfl))).trans
    (Dev.noted_noteEntry ..).completed
  exact Dev.cplPlace_congr (fun k hk => (h1.1 k (cplKey_of_ringPlaceKey k hk)).symm) h1.2.2.1.symm
    (.inl ⟨k, _, .inr ⟨rfl, by rw [List.length_take, hp]; rfl⟩⟩)

theorem cplBytes_length (t : Ticket) (r : Reply) (ring : Nat) (rxq : Bool) (h : Nat) (l : Bool) (cs : Nat) :
    (cplBytes t r ring rxq h l cs).length = 32 := by
  simp [cplBytes, leBytes_length]

theorem Dev.completed_showInFlight (d : Dev) : d.Completed d.showInFlight := .of_cplKey _ uHIF HIF_STATUS.IN_FLIGHT 0 _ rfl

theorem Dev.completed_retire (d : Dev) (t : Ticket) : d.Completed (d.retire t) := by
  unfold Dev.retire
  split
  · have h := (d.completed_hif { d.hif with inflight := dropInflight t d.hif.inflight } rfl rfl).trans (Dev.completed_showInFlight _)
    dsimp only
    split
    · exact h
    · exact (h.trans (.of_cplKey _ uHIF HIF_RING_STATE.COUNT _ _ rfl)).trans (.of_cplKey _ uHIF HIF_RING_STATE.COUNT _ _ rfl)
  · exact .refl d

theorem Dev.completed_agentCpl (d : Dev) (slot : Nat) (t : Ticket) (r : Reply) (l : Bool) (cs : Nat) :
    d.Completed (d.agentCpl slot t r l cs) := by
  unfold Dev.agentCpl
  dsimp only
  split
  · exact .refl d
  · split
    · exact d.completed_retire t
    · split
      · exact (d.completed_setAgent slot _ rfl).trans (Dev.completed_retire ..)
      · exact ((d.completed_setAgent slot _ rfl).trans (Dev.completed_retire ..)).trans (Dev.completed_setAgent _ _ _ rfl)

theorem Dev.completed_cplInto (d : Dev) (k : Nat) (bs : List Byte) (hl : bs.length = 32) : d.Completed (d.cplInto k bs) := by
  unfold Dev.cplInto
  split
  · exact (d.completed_pushEntry k bs hl).trans (Dev.noted_tally ..).completed
  · exact .of_cplKey _ uHIF HIF_CPL_LOST.COUNT 0 _ rfl

theorem Dev.completed_writeCpl (d : Dev) (t : Ticket) (r : Reply) (q : Option Nat) (l : Bool) (cs : Nat) :
    d.Completed (d.writeCpl t r q l cs) := by
  unfold Dev.writeCpl
  split
  · exact ((d.completed_hif { d.hif with lost := d.hif.lost.erase t } rfl rfl).trans (Dev.completed_showInFlight _)).trans
      (.of_cplKey _ uHIF HIF_CPL_LOST.COUNT 0 _ rfl)
  · split
    · exact (d.completed_retire t).trans (Dev.completed_cplInto _ _ _ (cplBytes_length ..))
    · exact (Dev.Completed.of_cplKey d uHIF HIF_RING_STATE.COUNT _ _ rfl).trans (Dev.completed_cplInto _ _ _ (cplBytes_length ..))
    · split
      · exact d.completed_agentCpl ..
      · exact .refl d

theorem Dev.completed_countReply (d : Dev) (r : Reply) : d.Completed (d.countReply r) := by
  unfold Dev.countReply
  split
  · exact .of_cplKey _ uHIF HIF_MALFORMED.COUNT 0 _ rfl
  · split
    · exact .of_cplKey _ uHIF HIF_UNSUPPORTED.COUNT 0 _ rfl
    · exact .refl d

theorem Dev.completed_parkCpl (d : Dev) (t : Ticket) (r : Reply) (q : Option Nat) (o : Option (Bool × Nat)) :
    d.Completed (d.parkCpl t r q o) := d.completed_hif _ rfl rfl

theorem Dev.completed_cplInTurn (d : Dev) (t : Ticket) (r : Reply) (q : Option Nat) (l : Bool) (cs : Nat) :
    d.Completed (d.cplInTurn t r q l cs) := by
  unfold Dev.cplInTurn
  split
  · exact d.completed_parkCpl ..
  · exact d.completed_writeCpl ..

theorem Dev.completed_releaseFills (n : Nat) (d : Dev) (q : Option Nat) : d.Completed (Dev.releaseFills n d q) := by
  induction n generalizing d with
  | zero => exact .refl d
  | succ n ih =>
    unfold Dev.releaseFills
    split
    · exact .refl d
    · split
      · exact .refl d
      · rename_i p _ _ _ _ _
        exact ((d.completed_hif { d.hif with parked := d.hif.parked.erase p } rfl rfl).trans (Dev.completed_writeCpl ..)).trans (ih _)

theorem Dev.completed_noteStarted (d : Dev) (t : Ticket) : d.Completed (d.noteStarted t) := d.completed_hif _ rfl rfl

theorem Dev.completed_conclude (d : Dev) (t : Ticket) (r : Reply) (q : Option Nat) : d.Completed (d.conclude t r q) := by
  unfold Dev.conclude
  split
  · exact d.completed_cplInTurn ..
  · split
    · split
      · exact d.completed_cplInTurn ..
      · split
        · exact d.completed_cplInTurn ..
        · exact d.completed_parkCpl ..
    · exact d.completed_cplInTurn ..

theorem Dev.completed_finishCore (d : Dev) (t : Ticket) (r : Reply) (q : Option Nat) : d.Completed (d.finishCore t r q) :=
  (d.completed_countReply r).trans (Dev.completed_conclude ..)

/-! ### What goes on behind a completion -/

theorem Dev.completed_settleFences (n : Nat) (d : Dev) : d.Completed (Dev.settleFences n d) := by
  induction n generalizing d with
  | zero => exact .refl d
  | succ n ih =>
    unfold Dev.settleFences
    split
    · exact .refl d
    · rename_i f _
      exact ((d.completed_hif { d.hif with fences := d.hif.fences.filter (fun g => !(g == f)) } rfl rfl).trans
        (Dev.completed_finishCore ..)).trans (ih _)

theorem Dev.completed_begin (d : Dev) (t : Ticket) (root : Option Nat) : d.Completed (d.begin t root) := by
  have h0 := d.completed_hif { d.hif with
    inflight := d.hif.inflight ++ [({ ticket := t, no := d.hif.nextNo, root := root.getD d.hif.nextNo } : InFlight)]
    nextNo := d.hif.nextNo + 1 } rfl rfl
  unfold Dev.begin
  dsimp only
  split
  · exact h0.trans (Dev.completed_showInFlight _)
  · exact (((((h0.trans (.of_cplKey _ uHIF HIF_RING_STATE.COUNT _ _ rfl)).trans (.of_cplKey _ uHIF HIF_RING_STATE.COUNT _ _ rfl))).trans
      (Dev.noted_tally ..).completed).trans (Dev.noted_tally ..).completed).trans (Dev.completed_showInFlight _)

theorem Dev.completed_screen (d : Dev) (t : Ticket) : d.Completed (d.screen t) := by
  unfold Dev.screen
  split
  · exact .refl d
  · exact Dev.completed_finishCore ..

theorem Dev.completed_startChains (n : Nat) (d : Dev) : d.Completed (Dev.startChains n d) := by
  induction n generalizing d with
  | zero => exact .refl d
  | succ n ih =>
    unfold Dev.startChains
    split
    · exact .refl d
    · rename_i c _
      exact (((d.completed_hif { d.hif with chainNext := d.hif.chainNext.erase c } rfl rfl).trans (Dev.completed_begin ..)).trans
        (Dev.completed_screen ..)).trans (ih _)

theorem Dev.completed_goOn (d : Dev) : d.Completed d.goOn :=
  (Dev.completed_startChains ..).trans (Dev.completed_settleFences ..)

/-- Completing a command leaves everything but the host interface's account of commands and what reports. -/
theorem Dev.completed_finish (d : Dev) (t : Ticket) (r : Reply) : d.Completed (d.finish t r) :=
  (Dev.completed_finishCore ..).trans (Dev.completed_goOn _)

end Sys2Proof.Machine
end

