-- ==== Sys2Proof/Laws/Raised.lean ====
section
/-! SUPPORT. Raising an event records it: its occurrence is the latest of its type, its PEND bit is set, and what is reported
afterwards takes neither away. -/
namespace Sys2Proof.Machine

variable {a b c d : Dev} {un type un' type' : Nat} {p : List Byte}

/-! ### Bits -/

theorem bit_eq_testBit (v i : Nat) : bit v i = v.testBit i := by
  rw [bit, Nat.testBit_eq_decide_div_mod_eq]; rfl

theorem setBit_true (v i : Nat) : setBit v i true = if v.testBit i then v else v + 2 ^ i := by
  have hb : bits v i i = (v.testBit i).toNat := by
    rw [bits, show i + 1 - i = 1 by omega, Nat.testBit_eq_decide_div_mod_eq]
    have := Nat.mod_two_eq_zero_or_one (v / 2 ^ i)
    rcases this with h | h <;> simp [h]
  rw [setBit, setBits, hb, show i + 1 - i = 1 by omega]
  split
  · rename_i h
    have hle : 2 ^ i ≤ v := Nat.ge_two_pow_of_testBit h
    simp [h]
    omega
  · rename_i h
    simp [h]

theorem testBit_setBit_true (v i j : Nat) : (setBit v i true).testBit j = (decide (j = i) || v.testBit j) := by
  rw [setBit_true]
  split
  · rename_i h
    by_cases hj : j = i
    · subst hj; simp [h]
    · simp [hj]
  · rename_i h
    have hdm := Nat.div_add_mod v (2 ^ (i + 1))
    have hr : v % 2 ^ (i + 1) < 2 ^ i := by
      have := Nat.testBit_mod_two_pow v (i + 1) i
      have hlt := Nat.mod_lt v (Nat.two_pow_pos (i + 1))
      refine Nat.lt_of_not_le (fun hc => ?_)
      have hb : (v % 2 ^ (i + 1)).testBit i = true := by
        rw [Nat.testBit_eq_decide_div_mod_eq]
        have : v % 2 ^ (i + 1) / 2 ^ i = 1 := Nat.div_eq_of_lt_le (by omega) (by rw [Nat.pow_succ] at hlt; omega)
        simp [this]
      rw [this] at hb
      simp at hb
      exact h hb
    have e : v + 2 ^ i = 2 ^ (i + 1) * (v / 2 ^ (i + 1)) + (2 ^ i + v % 2 ^ (i + 1)) := by omega
    have hlt : 2 ^ i + v % 2 ^ (i + 1) < 2 ^ (i + 1) := by rw [Nat.pow_succ] at *; omega
    rw [e, Nat.testBit_two_pow_mul_add _ hlt]
    have e2 : v.testBit j = (2 ^ (i + 1) * (v / 2 ^ (i + 1)) + v % 2 ^ (i + 1)).testBit j := by rw [hdm]
    rw [e2, Nat.testBit_two_pow_mul_add _ (by omega : v % 2 ^ (i + 1) < 2 ^ (i + 1))]
    by_cases h1 : j < i + 1
    · rw [if_pos h1, if_pos h1]
      by_cases hj : j = i
      · subst hj
        simp [Nat.testBit_two_pow_add_eq, Nat.testBit_lt_two_pow hr]
      · rw [Nat.testBit_two_pow_add_gt (by omega)]
        simp [hj]
    · rw [if_neg h1, if_neg h1]
      simp [show j ≠ i by omega]

theorem bit_setBit_true (v i j : Nat) : bit (setBit v i true) j = (decide (j = i) || bit v j) := by
  simp only [bit_eq_testBit, testBit_setBit_true]

theorem bit_mod_two_pow (v n j : Nat) : bit (v % 2 ^ n) j = (decide (j < n) && bit v j) := by
  simp only [bit_eq_testBit, Nat.testBit_mod_two_pow]

/-! ### What later reports keep -/

/-- Nothing that `d.hasRaised un type` says is taken away between `a` and `b`. -/
def Dev.KeepsRaised (a b : Dev) (un type : Nat) : Prop :=
  b.now = a.now ∧ b.ev.latest.get? [un, type] = a.ev.latest.get? [un, type]
  ∧ (bit (a.get un UF_EVT_PEND.PEND) type = true → bit (b.get un UF_EVT_PEND.PEND) type = true)

theorem Dev.KeepsRaised.refl (d : Dev) (un type : Nat) : d.KeepsRaised d un type := ⟨rfl, rfl, id⟩

theorem Dev.KeepsRaised.trans (h : a.KeepsRaised b un type) (h' : b.KeepsRaised c un type) : a.KeepsRaised c un type :=
  ⟨h'.1.trans h.1, h'.2.1.trans h.2.1, fun x => h'.2.2 (h.2.2 x)⟩

theorem Dev.KeepsRaised.keep (h : a.KeepsRaised b un type) (hr : a.hasRaised un type p) : b.hasRaised un type p :=
  ⟨by rw [h.2.1, h.1]; exact hr.1, h.2.2 hr.2⟩

/-- A change that leaves the event state and PEND. -/
theorem Dev.KeepsRaised.of_eq (h1 : b.now = a.now) (h2 : b.ev.latest = a.ev.latest)
    (h3 : b.get un UF_EVT_PEND.PEND = a.get un UF_EVT_PEND.PEND) : a.KeepsRaised b un type :=
  ⟨h1, by rw [h2], fun h => by rw [h3]; exact h⟩

theorem Dev.keeps_hif (d : Dev) (x : HifState) : d.KeepsRaised { d with hif := x } un type := ⟨rfl, rfl, id⟩
theorem Dev.keeps_agents (d : Dev) (x : Tab Agent) : d.KeepsRaised { d with agents := x } un type := ⟨rfl, rfl, id⟩
theorem Dev.keeps_setSource (d : Dev) (src : Nat) (x : Source) : d.KeepsRaised (d.setSource src x) un type := ⟨rfl, rfl, id⟩
theorem Dev.keeps_nmi (d : Dev) (x : Bool) : d.KeepsRaised { d with ev := { d.ev with nmi := x } } un type := ⟨rfl, rfl, id⟩

theorem Dev.keeps_setI (d : Dev) (u : Nat) (f : Fld) (i v : Nat) (h : f.off ≠ UF_EVT_PEND.PEND.off) :
    d.KeepsRaised (d.setI u f i v) un type :=
  .of_eq rfl rfl (Dev.getI_setI_ne (fun e => h (Fld.key_eq_iff.1 e).2.1.symm))

theorem Dev.keeps_foldl {α : Type} (f : Dev → α → Dev) (hf : ∀ (d : Dev) (x : α), d.KeepsRaised (f d x) un type) (l : List α) (d : Dev) :
    d.KeepsRaised (l.foldl f d) un type := by
  induction l generalizing d with
  | nil => exact .refl ..
  | cons x l ih => exact (hf d x).trans (ih _)

theorem Dev.keeps_pmcAdd (fuel : Nat) (d : Dev) (u n q : Nat) : d.KeepsRaised (Dev.pmcAdd fuel d u n q).1 un type := by
  induction fuel generalizing d n q with
  | zero => exact .refl ..
  | succ k ih =>
    have h0 := d.keeps_setI (un := un) (type := type) u UF_PMC_CNT.COUNT n (d.getI u UF_PMC_CNT.COUNT n + q) (by decide)
    unfold Dev.pmcAdd
    dsimp only
    split
    · exact h0
    · split
      · exact h0.trans (ih ..)
      · exact h0.trans (Dev.keeps_setI _ _ UF_PMC_CTRL.OVF 0 _ (by decide))

theorem Dev.keeps_pmcTally (d : Dev) (u code q : Nat) (sel : Nat → Bool) : d.KeepsRaised (d.pmcTally u code q sel).1 un type := by
  unfold Dev.pmcTally
  split
  · exact .refl ..
  · suffices h : ∀ (l : List Nat) (p : Dev × Nat), d.KeepsRaised p.1 un type → d.KeepsRaised (l.foldl (fun (acc : Dev × Nat) n =>
        if acc.1.pmcCounts u n code sel then ((Dev.pmcAdd 8 acc.1 u n q).1, acc.2 ||| (Dev.pmcAdd 8 acc.1 u n q).2) else acc) p).1
        un type from h _ (d, 0) (.refl ..)
    intro l
    induction l with
    | nil => exact fun p hp => hp
    | cons n l ih =>
      intro p hp
      refine ih _ ?_
      dsimp only
      split
      · exact hp.trans (Dev.keeps_pmcAdd ..)
      · exact hp

/-- What reporting may raise again by itself is not a type that `ownType` leaves out. -/
theorem ne_of_ownType (ho : ownType un type = false) : (un', 0x04) ≠ (un, type) := by
  intro e
  injection e with e1 e2
  subst e2
  simp [ownType] at ho

/-- Noting one type leaves what another type, or another unit, has raised. -/
theorem Dev.keeps_pend (d : Dev) (q : List Byte) (h : (un', type') ≠ (un, type)) (ht : type < 63) :
    d.KeepsRaised (d.pend un' type' q) un type := by
  refine ⟨rfl, Tab.get?_insert_ne (fun e => h ?_), fun hb => ?_⟩
  · simp only [List.cons.injEq, and_true] at e
    rw [e.1, e.2]
  · by_cases hu : un = un'
    · subst hu
      show bit ((d.set un UF_EVT_PEND.PEND _).get un UF_EVT_PEND.PEND) type = true
      rw [Dev.get_set_self, bit_mod_two_pow, bit_setBit_true, hb]
      simp [show type < UF_EVT_PEND.PEND.width from ht]
    · show bit ((d.set un' UF_EVT_PEND.PEND _).get un UF_EVT_PEND.PEND) type = true
      rw [Dev.get_set_ne (by simp [Fld.key, hu]), hb]

theorem Dev.keeps_hold (d : Dev) (src u ty time : Nat) (q : List Byte) : d.KeepsRaised (d.hold src u ty time q) un type := by
  unfold Dev.hold
  dsimp only
  split <;> exact d.keeps_setSource ..

theorem Dev.keeps_overflowHeld (d : Dev) (u mask : Nat) (ho : ownType un type = false) (ht : type < 63) :
    d.KeepsRaised (d.overflowHeld u mask) un type := by
  unfold Dev.overflowHeld
  have h := d.keeps_pend (un' := u) (leBytes 1 mask) (ne_of_ownType ho) ht
  dsimp only
  split
  · exact .refl ..
  · split
    · exact h
    · exact h.trans (Dev.keeps_hold ..)

theorem Dev.keeps_raisedHeldN (n : Nat) (d : Dev) (u mask : Nat) (ho : ownType un type = false) (ht : type < 63) :
    d.KeepsRaised (Dev.raisedHeldN n d u mask) un type := by
  induction n generalizing d u mask with
  | zero => exact .refl ..
  | succ n ih =>
    unfold Dev.raisedHeldN
    split
    · exact .refl ..
    · exact (d.keeps_overflowHeld u mask ho ht).trans (Dev.keeps_foldl _ (fun d u => (d.keeps_pmcTally ..).trans (ih ..)) ..)

/-- What an operation that counts while it writes to the host keeps: every type but those that reporting raises by itself. -/
theorem Dev.keeps_tallyHeld (d : Dev) (code q : Nat) (ho : ownType un type = false) (ht : type < 63) :
    d.KeepsRaised (d.tallyHeld code q) un type := (d.keeps_pmcTally ..).trans (Dev.keeps_raisedHeldN _ _ _ _ ho ht)

theorem Dev.keeps_hostWrite (d : Dev) (addr : Nat) (bs : List Byte) (ho : ownType un type = false) (ht : type < 63) :
    d.KeepsRaised (d.hostWrite addr bs) un type := (d.keeps_tallyHeld 0x24 bs.length ho ht).trans (Dev.keeps_hif ..)

theorem Dev.keeps_sendMsix (d : Dev) (v : Nat) (ho : ownType un type = false) (ht : type < 63) :
    d.KeepsRaised (d.sendMsix v) un type := by
  unfold Dev.sendMsix
  split
  · exact Dev.keeps_hif ..
  · exact (Dev.keeps_hostWrite _ _ _ ho ht).trans (Dev.keeps_tallyHeld _ _ _ ho ht)

theorem Dev.keeps_signalRing (d : Dev) (k : Nat) (ho : ownType un type = false) (ht : type < 63) :
    d.KeepsRaised (d.signalRing k) un type :=
  ((d.keeps_setI uHIF HIF_RING_STATE.ARMED k 0 (by decide)).trans (Dev.keeps_hif ..)).trans (Dev.keeps_sendMsix _ _ ho ht)

theorem Dev.keeps_noteEntry (d : Dev) (k : Nat) (ho : ownType un type = false) (ht : type < 63) :
    d.KeepsRaised (d.noteEntry k) un type := by
  unfold Dev.noteEntry
  dsimp only
  split
  · exact (d.keeps_hif ..).trans (Dev.keeps_signalRing _ _ ho ht)
  · exact d.keeps_hif ..

theorem Dev.keeps_pushEntry (d : Dev) (k : Nat) (bs : List Byte) (ho : ownType un type = false) (ht : type < 63) :
    d.KeepsRaised (d.pushEntry k bs) un type := by
  unfold Dev.pushEntry
  dsimp only
  exact (((d.keeps_hostWrite _ _ ho ht).trans (Dev.keeps_hostWrite _ _ _ ho ht)).trans ((Dev.keeps_setI _ _ HIF_RING_STATE.TAIL _ _ (by decide)).trans
    (Dev.keeps_setI _ _ HIF_RING_STATE.PHASE _ _ (by decide)))).trans (Dev.keeps_noteEntry _ _ ho ht)

theorem Dev.keeps_pushMsg (d : Dev) (slot kind : Nat) (body : List Byte) : d.KeepsRaised (d.pushMsg slot kind body) un type := by
  unfold Dev.pushMsg
  dsimp only
  split
  · exact d.keeps_agents ..
  · exact (d.keeps_agents ..).trans (Dev.keeps_setI _ _ AGT_COUNTS.INBOX_DROP _ _ (by decide))

theorem Dev.keeps_deliverRec (d : Dev) (r : EvRec) (ho : ownType un type = false) (ht : type < 63) :
    d.KeepsRaised (d.deliverRec r) un type := by
  unfold Dev.deliverRec
  dsimp only
  split
  · exact (Dev.keeps_pushEntry _ _ _ ho ht).trans (Dev.keeps_foldl _ (fun d s => d.keeps_pushMsg s 3 r.bytes) ..)
  · exact Dev.keeps_pushEntry _ _ _ ho ht

theorem Dev.keeps_issue (d : Dev) (src u ty time : Nat) (q : List Byte) (ho : ownType un type = false) (ht : type < 63) :
    d.KeepsRaised (d.issue src u ty time q) un type := by
  unfold Dev.issue
  dsimp only
  split
  · exact (d.keeps_setSource ..).trans (Dev.keeps_deliverRec _ _ ho ht)
  · exact d.keeps_hold ..

theorem Dev.keeps_raiseCore (d : Dev) (src : Nat) (q : List Byte) (h : (un', type') ≠ (un, type)) (ho : ownType un type = false)
    (ht : type < 63) : d.KeepsRaised (d.raiseCore src un' type' q) un type := by
  have h0 := d.keeps_pend q h ht
  unfold Dev.raiseCore
  dsimp only
  split
  · exact h0
  · exact h0.trans (Dev.keeps_issue _ _ _ _ _ _ ho ht)

theorem Dev.keeps_raiseOn (d : Dev) (src : Nat) (q : List Byte) (h : (un', type') ≠ (un, type)) (ho : ownType un type = false)
    (ht : type < 63) : d.KeepsRaised (d.raiseOn src un' type' q) un type := by
  have h0 := d.keeps_raiseCore src q h ho ht
  unfold Dev.raiseOn
  dsimp only
  split
  · refine (h0.trans (Dev.keeps_nmi ..)).trans (Dev.keeps_raiseCore _ _ _ (fun e => ?_) ho ht)
    injection e with e1 e2
    subst e1 e2
    simp [ownType] at ho
  · exact h0

theorem Dev.keeps_countRaisedN (n : Nat) (d : Dev) (u : Nat) (ho : ownType un type = false) (ht : type < 63) :
    d.KeepsRaised (Dev.countRaisedN n d u) un type := by
  induction n generalizing d u with
  | zero => exact .refl ..
  | succ n ih =>
    refine Dev.keeps_foldl _ (fun d u => ?_) ..
    dsimp only
    split
    · exact Dev.keeps_pmcTally ..
    · exact ((Dev.keeps_pmcTally ..).trans (Dev.keeps_raiseOn _ _ _ (ne_of_ownType ho) ho ht)).trans (ih ..)

theorem Dev.keeps_countRaised (d : Dev) (u : Nat) (ho : ownType un type = false) (ht : type < 63) :
    d.KeepsRaised (d.countRaised u) un type := Dev.keeps_countRaisedN _ _ _ ho ht

theorem Dev.keeps_raise (d : Dev) (q : List Byte) (h : (un', type') ≠ (un, type)) (ho : ownType un type = false) (ht : type < 63) :
    d.KeepsRaised (d.raise un' type' q) un type := by
  have h1 := (Dev.keeps_raiseOn d (sourceOf un' type') q h ho ht).trans (Dev.keeps_countRaised _ un' ho ht)
  unfold Dev.raise
  dsimp only
  split
  · exact h1
  · exact h1.trans (Dev.keeps_countRaised _ _ ho ht)

theorem Dev.keeps_tallySel (d : Dev) (u code q : Nat) (sel : Nat → Bool) (ho : ownType un type = false) (ht : type < 63) :
    d.KeepsRaised (d.tallySel u code q sel) un type := by
  unfold Dev.tallySel
  dsimp only
  split
  · exact Dev.keeps_pmcTally ..
  · exact (Dev.keeps_pmcTally ..).trans (Dev.keeps_raise _ _ (ne_of_ownType ho) ho ht)

theorem Dev.keeps_tally (d : Dev) (u code q : Nat) (ho : ownType un type = false) (ht : type < 63) :
    d.KeepsRaised (d.tally u code q) un type := Dev.keeps_tallySel _ _ _ _ _ ho ht

/-! ### Delivering a record leaves every other source -/

theorem Dev.pmcAdd_only_fields (fuel : Nat) (d : Dev) (u n q : Nat) :
    (Dev.pmcAdd fuel d u n q).1 = { d with fields := (Dev.pmcAdd fuel d u n q).1.fields } := by
  induction fuel generalizing d n q with
  | zero => rfl
  | succ k ih =>
    unfold Dev.pmcAdd
    dsimp only
    split
    · rfl
    · split
      · rw [ih]; rfl
      · rfl

theorem Dev.pmcTally_only_fields (d : Dev) (u code q : Nat) (sel : Nat → Bool) :
    (d.pmcTally u code q sel).1 = { d with fields := (d.pmcTally u code q sel).1.fields } := by
  unfold Dev.pmcTally
  split
  · rfl
  · suffices h : ∀ (l : List Nat) (p : Dev × Nat), p.1 = { d with fields := p.1.fields } →
        (l.foldl (fun (acc : Dev × Nat) n => if acc.1.pmcCounts u n code sel then
          ((Dev.pmcAdd 8 acc.1 u n q).1, acc.2 ||| (Dev.pmcAdd 8 acc.1 u n q).2) else acc) p).1
        = { d with fields := (l.foldl (fun (acc : Dev × Nat) n => if acc.1.pmcCounts u n code sel then
          ((Dev.pmcAdd 8 acc.1 u n q).1, acc.2 ||| (Dev.pmcAdd 8 acc.1 u n q).2) else acc) p).1.fields } from h _ (d, 0) rfl
    intro l
    induction l with
    | nil => exact fun p hp => hp
    | cons n l ih =>
      intro p hp
      refine ih _ ?_
      dsimp only
      split
      · dsimp only
        rw [Dev.pmcAdd_only_fields]
        exact congrArg (fun x : Dev => { x with fields := (Dev.pmcAdd 8 p.1 u n q).1.fields }) hp
      · exact hp

theorem Dev.pmcTally_ev (d : Dev) (u code q : Nat) (sel : Nat → Bool) : (d.pmcTally u code q sel).1.ev = d.ev := by
  rw [Dev.pmcTally_only_fields]

theorem Dev.pushMsg_ev (d : Dev) (slot kind : Nat) (body : List Byte) : (d.pushMsg slot kind body).ev = d.ev := by
  unfold Dev.pushMsg
  dsimp only
  split <;> rfl

/-- The units that PMC_OVERFLOW may be raised for while the device writes to the host: the host interface and its groups. -/
def hifUnits : List Nat := uHIF :: ancestors uHIF

theorem hifUnits_closed : ∀ u ∈ hifUnits, ∀ v ∈ u :: ancestors u, v ∈ hifUnits := by decide

theorem Dev.source_setSource_ne (d : Dev) {src src' : Nat} (s : Source) (h : src ≠ src') : (d.setSource src' s).source src = d.source src := by
  simp only [Dev.source, Dev.setSource]
  exact Tab.getD_setD_ne (by simpa using h)

theorem Dev.source_of_ev {src : Nat} (h : b.ev = a.ev) : b.source src = a.source src := by rw [Dev.source, h, Dev.source]

theorem Dev.hold_source_ne (d : Dev) {src src' : Nat} (u ty time : Nat) (q : List Byte) (h : src ≠ src') :
    (d.hold src' u ty time q).source src = d.source src := by
  unfold Dev.hold
  dsimp only
  split <;> exact d.source_setSource_ne _ h

theorem Dev.overflowHeld_source_ne (d : Dev) {src u : Nat} (mask : Nat) (h : src ≠ sourceOf u 0x04) :
    (d.overflowHeld u mask).source src = d.source src := by
  unfold Dev.overflowHeld
  dsimp only
  split
  · rfl
  · split
    · rfl
    · rw [Dev.hold_source_ne _ _ _ _ _ h]; rfl

theorem Dev.raisedHeldN_source_ne (n : Nat) (d : Dev) {src u : Nat} (mask : Nat) (hu : u ∈ hifUnits)
    (h : ∀ v ∈ hifUnits, src ≠ sourceOf v 0x04) : (Dev.raisedHeldN n d u mask).source src = d.source src := by
  induction n generalizing d u mask with
  | zero => rfl
  | succ n ih =>
    unfold Dev.raisedHeldN
    split
    · rfl
    · suffices hl : ∀ (l : List Nat) (x : Dev), (∀ v ∈ l, v ∈ hifUnits) → (l.foldl (fun d u =>
          let c := d.pmcTally u 0x0A 1 (fun _ => true)
          Dev.raisedHeldN n c.1 u c.2) x).source src = x.source src by
        rw [hl _ _ (hifUnits_closed u hu), Dev.overflowHeld_source_ne _ _ (h u hu)]
      intro l
      induction l with
      | nil => exact fun _ _ => rfl
      | cons v l ihl =>
        intro x hx
        refine (ihl _ (fun w hw => hx w (List.mem_cons_of_mem _ hw))).trans ?_
        exact (ih _ _ (hx v (List.mem_cons_self ..))).trans (Dev.source_of_ev (Dev.pmcTally_ev ..))

/-- Reports that go to source `src` are left alone by what arises while the device writes to the host: the source is not one of the
host interface's and its groups' own, or the host interface counts nothing. -/
def Dev.QuietFor (d : Dev) (src : Nat) : Prop :=
  (∀ v ∈ hifUnits, src ≠ sourceOf v 0x04) ∨ d.get uHIF UF_PMC_CTRL.CNT_EN = 0

/-- A quiet source stays as it is, and quiet. -/
def Dev.Spares (a b : Dev) (src : Nat) : Prop :=
  a.QuietFor src → b.source src = a.source src ∧ b.QuietFor src

theorem Dev.Spares.trans {src : Nat} (h : a.Spares b src) (h' : b.Spares c src) : a.Spares c src := fun hq =>
  ⟨(h' (h hq).2).1.trans (h hq).1, (h' (h hq).2).2⟩

theorem Dev.Spares.of_eq {src : Nat} (h1 : b.source src = a.source src)
    (h2 : b.get uHIF UF_PMC_CTRL.CNT_EN = a.get uHIF UF_PMC_CTRL.CNT_EN) : a.Spares b src := fun hq => ⟨h1, hq.imp id (fun e => h2.trans e)⟩

theorem Dev.spares_hif (d : Dev) {src : Nat} (x : HifState) : d.Spares { d with hif := x } src := .of_eq rfl rfl

theorem Dev.spares_setI (d : Dev) {src : Nat} (u : Nat) (f : Fld) (i v : Nat) (h : f.off ≠ UF_PMC_CTRL.CNT_EN.off) :
    d.Spares (d.setI u f i v) src := .of_eq rfl (Dev.getI_setI_ne (fun e => h (Fld.key_eq_iff.1 e).2.1.symm))

theorem Dev.spares_tallyHeld (d : Dev) {src : Nat} (code q : Nat) : d.Spares (d.tallyHeld code q) src := by
  intro h
  refine Dev.Spares.of_eq ?_ (Dev.getI_congr ((Dev.noted_tallyHeld ..).1 _ rfl)) h
  rcases h with h | h
  · exact (Dev.raisedHeldN_source_ne _ _ _ (List.mem_cons_self ..) h).trans (Dev.source_of_ev (Dev.pmcTally_ev ..))
  · have e : d.pmcTally uHIF code q (fun _ => true) = (d, 0) := by rw [Dev.pmcTally, if_pos h]
    rw [Dev.tallyHeld, e]
    rfl

theorem Dev.spares_hostWrite (d : Dev) {src : Nat} (addr : Nat) (bs : List Byte) : d.Spares (d.hostWrite addr bs) src :=
  (d.spares_tallyHeld 0x24 bs.length).trans (Dev.spares_hif _ _)

theorem Dev.spares_sendMsix (d : Dev) {src : Nat} (v : Nat) : d.Spares (d.sendMsix v) src := by
  unfold Dev.sendMsix
  split
  · exact d.spares_hif _
  · exact (d.spares_hostWrite _ _).trans (Dev.spares_tallyHeld _ _ _)

theorem Dev.spares_signalRing (d : Dev) {src : Nat} (k : Nat) : d.Spares (d.signalRing k) src :=
  ((d.spares_setI uHIF HIF_RING_STATE.ARMED k 0 (by decide)).trans (Dev.spares_hif _ _)).trans (Dev.spares_sendMsix _ _)

theorem Dev.spares_noteEntry (d : Dev) {src : Nat} (k : Nat) : d.Spares (d.noteEntry k) src := by
  unfold Dev.noteEntry
  dsimp only
  split
  · exact (d.spares_hif _).trans (Dev.spares_signalRing _ _)
  · exact d.spares_hif _

theorem Dev.spares_pushEntry (d : Dev) {src : Nat} (k : Nat) (bs : List Byte) : d.Spares (d.pushEntry k bs) src := by
  unfold Dev.pushEntry
  dsimp only
  exact (((d.spares_hostWrite _ _).trans (Dev.spares_hostWrite _ _ _)).trans ((Dev.spares_setI _ _ HIF_RING_STATE.TAIL _ _ (by decide)).trans
    (Dev.spares_setI _ _ HIF_RING_STATE.PHASE _ _ (by decide)))).trans (Dev.spares_noteEntry _ _)

theorem Dev.deliverRec_source (d : Dev) {src : Nat} (r : EvRec) (h : d.QuietFor src) : (d.deliverRec r).source src = d.source src := by
  unfold Dev.deliverRec
  dsimp only
  split
  · suffices hl : ∀ (l : List Nat) (x : Dev), (l.foldl (fun d slot => d.pushMsg slot 3 r.bytes) x).ev = x.ev by
      exact (Dev.source_of_ev (hl ..)).trans (Dev.spares_pushEntry _ _ _ h).1
    intro l
    induction l with
    | nil => exact fun _ => rfl
    | cons s l ih => exact fun x => (ih _).trans (Dev.pushMsg_ev ..)
  · exact (Dev.spares_pushEntry _ _ _ h).1

@[simp] theorem Dev.source_setSource_self (d : Dev) (src : Nat) (s : Source) : (d.setSource src s).source src = s := by
  simp [Dev.source, Dev.setSource]

/-- Every record issued takes the number after its source's last (R59); a source of the host interface itself may take further ones
while its delivery makes a counter wrap. -/
theorem Dev.issue_lastSeq (d : Dev) (src u ty time : Nat) (q : List Byte) (h : d.QuietFor src) :
    ((d.issue src u ty time q).source src).lastSeq = nextSeq (d.source src).lastSeq := by
  unfold Dev.issue
  dsimp only
  split
  · rw [Dev.deliverRec_source, Dev.source_setSource_self]
    exact h
  · unfold Dev.hold
    dsimp only
    split <;> rw [Dev.source_setSource_self]

/-! ### Raising -/

theorem Dev.pend_raised (d : Dev) (un type : Nat) (p : List Byte) (ht : type < 63) : (d.pend un type p).hasRaised un type p := by
  refine ⟨Tab.get?_insert_self .., ?_⟩
  show bit ((d.set un UF_EVT_PEND.PEND _).get un UF_EVT_PEND.PEND) type = true
  rw [Dev.get_set_self, bit_mod_two_pow, bit_setBit_true]
  simp [show type < UF_EVT_PEND.PEND.width from ht]

theorem Dev.raiseCore_raised (d : Dev) (src un type : Nat) (p : List Byte) (ho : ownType un type = false) (ht : type < 63) :
    (d.raiseCore src un type p).hasRaised un type p := by
  have h0 := d.pend_raised un type p ht
  unfold Dev.raiseCore
  dsimp only
  split
  · exact h0
  · exact (Dev.keeps_issue _ _ _ _ _ _ ho ht).keep h0

/-- An event raised is the latest of its type, and pending (R62). -/
theorem Dev.raise_raised (d : Dev) (un type : Nat) (p : List Byte) (ho : ownType un type = false) (ht : type < 63) :
    (d.raise un type p).hasRaised un type p := by
  have h1 : (d.raiseOn (sourceOf un type) un type p).hasRaised un type p := by
    have h0 := d.raiseCore_raised (sourceOf un type) un type p ho ht
    unfold Dev.raiseOn
    dsimp only
    split
    · refine ((Dev.keeps_nmi ..).trans (Dev.keeps_raiseCore _ _ _ (fun e => ?_) ho ht)).keep h0
      injection e with e1 e2
      subst e1 e2
      simp [ownType] at ho
    · exact h0
  have h2 := (Dev.keeps_countRaised _ un ho ht).keep h1
  unfold Dev.raise
  dsimp only
  split
  · exact h2
  · exact (Dev.keeps_countRaised _ _ ho ht).keep h2

end Sys2Proof.Machine
end

