-- ==== Sys2Proof/Laws/Command.lean ====
section
/-! SUPPORT. Heneno commands: what is left of the shared checks once a command passes them, and how effects are shown to be
what a statement says. -/
namespace Sys2Proof.Machine
open Sys2Proof

variable {c : HCmd} {d e b : Dev} {s : State} {i : Instr} {op : Nat} {ps : List Param} {r : Reply} {blk : Bool}

theorem Dev.noted_begun (d : Dev) (c : HCmd) : d.Noted (c.begun d) := by
  unfold HCmd.begun
  split
  · exact d.noted_tally ..
  · exact .refl d

/-- An accepted command goes straight to its own effect (R410). -/
theorem Dev.command_accepted {body : Dev → Dev × Option Reply} (h : c.accepted d op ps blk) :
    d.command c op ps body blk = match body (c.begun d) with
      | (d', some r) => d'.finish c.ticket r
      | (d', none) => d'.noteStarted c.ticket := by
  obtain ⟨h1, h2, h3, h4, h5, h6⟩ := h
  have hb : ¬ (c.readOk = true ∧ ¬ blk = true) := fun ⟨x, y⟩ => y (h5 x)
  have hw : ¬ (fwdWaits op = true ∧ ¬ d.flag uHIF HIF_STATUS.FWD_READY = true) := fun ⟨x, y⟩ => y (h6 x).1
  have hs : ¬ (fwdWaits op = true ∧ d.get 0 PWR_CTRL.STBY_STATE ≠ 0) := fun ⟨x, y⟩ => y (h6 x).2
  unfold Dev.command
  rw [if_neg (by simp [h1]), h2]
  dsimp only
  rw [h3]
  dsimp only
  rw [h4]
  dsimp only
  rw [if_neg hb, if_neg hw, if_neg hs]
  all_goals rcases body (c.begun d) with ⟨x, _ | y⟩ <;> rfl

theorem Dev.commandNow_accepted {body : Dev → Dev × Reply} (h : c.accepted d op ps blk) :
    d.commandNow c op ps body blk = (body (c.begun d)).1.finish c.ticket (body (c.begun d)).2 := by
  rw [Dev.commandNow, Dev.command_accepted h]

/-- A command made of an accepted body completes as the body says. -/
theorem Completes.intro {f : Dev → Dev} {body : Dev → Dev × Reply} (hx : exec i s = s.go f)
    (hf : f s.dev = s.dev.commandNow c op ps body blk) (ha : c.accepted s.dev op ps blk)
    (hb : ∀ b, s.dev.Noted b → (body b).2 = r ∧ d.Noted (body b).1) : Completes i s c.ticket r d := by
  obtain ⟨h1, h2⟩ := hb _ (s.dev.noted_begun c)
  refine ⟨_, ?_, h2⟩
  rw [Makes, hx, State.go_eq, hf, Dev.commandNow_accepted ha, h1]

/-- As above, for commands that may go on. -/
theorem Completes.intro' {f : Dev → Dev} {body : Dev → Dev × Option Reply} (hx : exec i s = s.go f)
    (hf : f s.dev = s.dev.command c op ps body blk) (ha : c.accepted s.dev op ps blk)
    (hb : ∀ b, s.dev.Noted b → (body b).2 = some r ∧ d.Noted (body b).1) : Completes i s c.ticket r d := by
  obtain ⟨h1, h2⟩ := hb _ (s.dev.noted_begun c)
  refine ⟨_, ?_, h2⟩
  rw [Makes, hx, State.go_eq, hf, Dev.command_accepted ha]
  cases he : body (c.begun s.dev) with
  | mk x o =>
    rw [he] at h1
    dsimp only at h1
    rw [h1]

theorem GoesOn.intro {f : Dev → Dev} {body : Dev → Dev × Option Reply} (hx : exec i s = s.go f)
    (hf : f s.dev = s.dev.command c op ps body blk) (ha : c.accepted s.dev op ps blk)
    (hb : ∀ b, s.dev.Noted b → (body b).2 = none ∧ d.Noted (body b).1) : GoesOn i s (d.noteStarted c.ticket) := by
  obtain ⟨h1, h2⟩ := hb _ (s.dev.noted_begun c)
  refine ⟨_, ?_, h2.noteStarted c.ticket, trivial⟩
  rw [Makes, hx, State.go_eq, hf, Dev.command_accepted ha]
  cases he : body (c.begun s.dev) with
  | mk x o =>
    rw [he] at h1
    dsimp only at h1
    rw [h1]

/-- An accepted command that completes makes of the device exactly what its body makes of the begun one, completed. -/
theorem Makes.ended {f : Dev → Dev} {body : Dev → Dev × Option Reply} (hx : exec i s = s.go f)
    (hf : f s.dev = s.dev.command c op ps body blk) (ha : c.accepted s.dev op ps blk)
    (hb : body (c.begun s.dev) = (d, some r)) : Makes i s (d.finish c.ticket r) := by
  rw [Makes, hx, State.go_eq, hf, Dev.command_accepted ha, hb]

/-- As above, for a command that always completes at once. -/
theorem Makes.endedNow {f : Dev → Dev} {body : Dev → Dev × Reply} (hx : exec i s = s.go f)
    (hf : f s.dev = s.dev.commandNow c op ps body blk) (ha : c.accepted s.dev op ps blk)
    (hb : body (c.begun s.dev) = (d, r)) : Makes i s (d.finish c.ticket r) := by
  rw [Makes, hx, State.go_eq, hf, Dev.commandNow_accepted ha, hb]

/-- An accepted command that goes on. -/
theorem Makes.going {f : Dev → Dev} {body : Dev → Dev × Option Reply} (hx : exec i s = s.go f)
    (hf : f s.dev = s.dev.command c op ps body blk) (ha : c.accepted s.dev op ps blk)
    (hb : body (c.begun s.dev) = (d, none)) : Makes i s (d.noteStarted c.ticket) := by
  rw [Makes, hx, State.go_eq, hf, Dev.command_accepted ha, hb]

theorem Makes.intro {f : Dev → Dev} (hx : exec i s = s.go f) (hf : f s.dev = d) : Makes i s d := by
  rw [Makes, hx, State.go_eq, hf]

theorem Notes.intro {f : Dev → Dev} {p : Dev → Prop} (hx : exec i s = s.go f) (hn : d.Noted (f s.dev)) (hp : p (f s.dev)) :
    Notes i s d p := ⟨_, Makes.intro hx rfl, hn, hp⟩

end Sys2Proof.Machine
end

