-- ==== Sys2Proof/Tests/Slice0.lean ====
section
/-! SUPPORT. The author's own tests: ill-formed commands that the check refuses, single steps whose results the manual gives, and,
for every statement with hypotheses, a device and operands that meet those of each of its clauses. Numbers stand for constants
where the manual's own numbers are meant. A hypothesis that a signature verifies, or another free value of Config, is left to the
reader: no state decides it. -/
namespace Sys2Proof.Tests
set_option Elab.async false
open Sys2Proof Sys2Proof.Machine

/-- The device after reset with some register fields set: unit, field, index, value. -/
def dev (l : List (Nat × Fld × Nat × Nat)) : Dev :=
  l.foldl (fun d x => d.setI x.1 x.2.1 x.2.2.1 x.2.2.2) State.reset.dev

/-- As `dev`, once the device forwards. -/
def fwd (l : List (Nat × Fld × Nat × Nat)) : Dev := dev ((uHIF, HIF_STATUS.FWD_READY, 0, 1) :: l)

/-- A state with a device. -/
def st (d : Dev) : State := { dev := d }

/-- A command that SQ 0 starts with: its opcode, its parameter area in words of 32 bits, and its block. -/
def cmd (op : Nat) (area : List Nat) (block : List Byte := []) : HCmd :=
  ⟨⟨.ring 0 0, leBytes 2 op ++ leBytes 14 0 ++ (area.map (leBytes 4)).flatten ++ leBytes (48 - 4 * area.length) 0⟩, block, true, true⟩

/-- The service state of a unit, as an entry for `dev`. -/
def svcOf (un s : Nat) : Nat × Fld × Nat × Nat := (un, UF_STATE.SVC_STATE, 0, s)

/-! ### Well-formed commands (smoke): one ill-formed operand for each kind of check -/

theorem test_wf_refuses :
    ([.registerWrite 0x10000 0 .both 0, .registerWrite 0 0x4000 .both 0, .registerWrite 0 0 .both (2 ^ 64), .outReq 0 16,
      .eventDeliver 512, .pmcOverflow 0 8, .trainingConverged 128, .trainTimeout 0 256, .chainFailed 2, .graphWrite 0x4000 0,
      .headerDispatch 4, .flumePass 0 (2 ^ 32) .same, .clsEntryRepair 0 12 0, .clsEntryRepair 4 8 0, .clsEntryRepair 0 0 4096, .swapDone 16,
      .puntQueueCfgWrite 64 0, .counterFlush (2 ^ 25) true, .cursorExpire 65536, .bufferRequest 64 0 0, .bufferFree 32 [] 0,
      .freeListRebuild 0 64, .spillUnitFlush (.voq 1048576), .spillUnitFlush (.eq 262144), .shaperRefill 0, .shaperRefill 6,
      .meterRepaired 1048576, .fabAdminUp 160, .voqSend 1048576, .mcSend 8, .creditReqTx 1024, .reseqTimeout 0 8, .scrubPass 8,
      .riderCopy 7 0, .riderCopy 8 3, .ringDrained 4096, .ringError 4 0, .sqDoorbell 0 (2 ^ 17), .cqDoorbell 1024 0, .eqDoorbell 64 0,
      .sqFetch [] true, .taskRestart 256 0 [], .bfdTx 16384, .agentStopped 64, .haiCmdSubmit 0 0 0 [], .haiEventRaise 0 0 0 0 [],
      .xtalStable 767 0 [], .xtalStable 768 2 [], .powerGood 64, .throttle 3, .bridgeWireRepair 4 true,
      .nop ⟨⟨.ring 4096 0, leBytes 64 0⟩, [], true, true⟩, .nop ⟨⟨.agent 64, leBytes 64 0⟩, [], true, true⟩,
      .nop ⟨⟨.ring 0 0, leBytes 63 0⟩, [], true, true⟩] : List Instr).all (fun i => !i.wf) = true := by decide +kernel

theorem test_wf_accepts :
    ([.registerWrite 0xFFFF 0x3FF8 .low (2 ^ 64 - 1), .eventDeliver 511, .trainingConverged 127, .fabAdminUp 159, .voqSend 1048575,
      .shaperRefill 1, .shaperRefill 5, .sqDoorbell 4095 (2 ^ 17 - 1), .nop (cmd 1 []), .ledFrame] : List Instr).all (·.wf) = true := by
  decide +kernel

/-- No row of the table has bits. -/
theorem test_decode_none : decodeTableWord 16 0 = none ∧ (State.reset.withFetchWord 16 0) = State.reset := by decide +kernel

/-! ### The whole machine -/

theorem witness_StepRunsFrontCommand :
    ∃ rest, ({ State.reset with pending := [.snapTrigger, .ledFrame] } : State).pending = Instr.snapTrigger :: rest := ⟨_, rfl⟩
theorem reset_sound : State.reset.Sound := ⟨rfl, rfl⟩
theorem witness_EmptyQueueLetsTimePass :
    State.reset.Sound ∧ State.reset.pending = [] ∧ 768 ≤ 768 ∧ 799 < 800
    ∧ (let d := State.reset.dev
       d.timeRate = 0 ∧ d.svcs.ptp.part = 0 ∧ d.ptpState ≠ ptpLOCKED ∧ d.frac < 65536 ∧ d.countingUnits = []
       ∧ (∀ u ∈ d.unitsWith PRT_STATUS.LINK_STATE lsUP, classOf u ≠ 0x30)
       ∧ (∀ u ∈ d.unitsWith ZFP_LINK_STATUS.LINK_STATE fUP, classOf u ≠ 0x31)
       ∧ (∀ u ∈ d.unitsWith UF_STATE.SVC_STATE sACTIVE, classOf u ≠ 0x41)
       ∧ (∀ u ∈ d.unitsWith UF_STATE.SVC_STATE sSHADOW, classOf u ≠ 0x48)
       ∧ (∀ k < 8, (d.stack k).rot = none) ∧ d.fwd.flushes = [] ∧ d.fw.burn = none ∧ d.flag 0 FW_STATUS.DIAGNOSTIC = false
       ∧ ({ d with now := (d.now + 1) % 2 ^ 64 } : Dev).useLapses = false) :=
  ⟨reset_sound, rfl, by decide, by decide, by decide +kernel⟩
theorem witness_StepKeepsSound : State.reset.Sound ∧ ∃ t, step State.reset = .next t := ⟨reset_sound, _, rfl⟩
theorem witness_CommandsAnswerFromDeviceAlone :
    ({ State.reset with host := [⟨0, 1⟩], pending := [.ledFrame] } : State).dev = State.reset.dev := rfl
theorem witness_RaisingReportsAndNothingElse :
    0x10 < 63 ∧ ownType 32 0x10 = false ∧ bit (State.reset.dev.get 32 UF_EVT_MASK.MASK) 0x10 = false
    ∧ (∀ u ∈ uHIF :: ancestors uHIF, sourceOf 32 0x10 ≠ sourceOf u 0x04) ∧ State.reset.dev.get uHIF UF_PMC_CTRL.CNT_EN = 0
    ∧ bit ((dev [(32, UF_EVT_MASK.MASK, 0, 2 ^ 62)]).get 32 UF_EVT_MASK.MASK) 62 = true ∧ 62 < 63 := by decide +kernel

/-- Entries of rings after reset lie at address 0, and so do the messages of the vectors. -/
theorem reset_ringAddr (k i : Nat) : State.reset.dev.ringAddr k i 32 = 0 := by
  have h : State.reset.dev.ringSize k = 1 := rfl
  rw [Dev.ringAddr, h, Nat.mod_one]
  rfl

theorem witness_ReportsWriteOnlyRingsAndMessages :
    State.reset.Sound ∧ State.reset.dev.Noted (State.reset.dev.raise 0 0x10 [])
    ∧ ∀ addr n, State.reset.dev.evtPlace addr n → 32 < addr ∨ addr + n ≤ 32 := by
  refine ⟨reset_sound, Dev.noted_raise .., fun addr n h => ?_⟩
  rcases h with ⟨q, i, ⟨h, rfl⟩ | ⟨h, rfl⟩⟩ | ⟨v, h, rfl⟩
  · rw [reset_ringAddr] at h; omega
  · rw [reset_ringAddr] at h; omega
  · have : addr = 0 := h; omega

theorem witness_CompletingLeavesTheRest :
    State.reset.Sound ∧ ∀ addr n, State.reset.dev.cplPlace addr n → 32 < addr ∨ addr + n ≤ 32 := by
  refine ⟨reset_sound, fun addr n h => ?_⟩
  rcases h with ⟨k, i, ⟨h, rfl⟩ | ⟨h, rfl⟩⟩ | ⟨v, h, rfl⟩
  · rw [reset_ringAddr] at h; omega
  · rw [reset_ringAddr] at h; omega
  · have : addr = 0 := h; omega

/-- CQ 0 enabled. -/
def cq0 : Dev := dev [(uHIF, HIF_RING_STATE.STATE, ringIx kCQ 0, 1)]

theorem witness_CompletionRecordPosted :
    (cmd 1 []).ticket.chain = false ∧ cq0.isLost (cmd 1 []).ticket = false ∧ cq0.ringState (cq0.cqOf (ringIx kSQ 0)) = rENABLED := by
  decide +kernel

/-! ### Registers, units and service states -/

theorem witness_RegisterWritesAndRcReads :
    (State.reset.dev.served 32 = true ∧ State.reset.dev.served 10 = false ∧ 4 % 8 ≠ 0 ∧ 0x2F8 < 0x300 ∧ 0x2F8 % 8 = 0
      ∧ findReg 32 0x2F8 = none)
    ∧ (findReg 32 UF_EVT_ROUTE.EVT_RING.off = some (UF_EVT_ROUTE.desc, 0) ∧ UF_EVT_ROUTE.desc.window = .none
      ∧ UF_EVT_ROUTE.EVT_RING.off % 8 = 0 ∧ UF_EVT_ROUTE.EVT_RING.off < 0x300 ∧ isPmcOff UF_EVT_ROUTE.EVT_RING.off = false
      ∧ UF_EVT_ROUTE.EVT_RING.off ∉ [UF_CTRL.OUT_REQ.off, UF_CLKEN.RUN_EN.off, UF_EVT_PEND.PEND.off, UF_EVT_MASK.MASK.off])
    ∧ (State.reset.dev.served 816 = true ∧ 0x400 ≤ 0x400 ∧ State.reset.dev.gated 816 = false
      ∧ findReg 816 0x400 = some (PWR_TEMP.desc, 0) ∧ PWR_TEMP.desc.window = .none
      ∧ classOf 816 ∉ [0x01, 0x13, 0x14, 0x16, 0x20, 0x23, 0x24, 0x30, 0x31, 0x32, 0x38, 0x39, 0x40, 0x49, 0x50])
    ∧ (State.reset.dev.gated 98 = false ∧ (findReg 98 TMS_PAIR.TAKEOVERS.off).isSome = true ∧ frameUn 98 0x400 = 97
      ∧ frameUn 98 0x3F8 = 98) := by decide +kernel

theorem witness_ServiceStateChanges : 15 < 16 ∧ State.reset.dev.svc 32 < 16 := by decide +kernel

theorem witness_RegisterRequestsOfUnits :
    (holdsTurns 33 = true ∧ classOf 33 ≠ 0x41 ∧ classOf 33 ≠ 0x21 ∧ 1 % 16 = 1 ∧ (dev [svcOf 33 2]).svc 33 = sSPARE)
    ∧ ((dev [svcOf 64 5]).svc 64 = sOUT ∧ (dev [svcOf 64 6]).svc 64 = sFAILED ∧ (dev [svcOf 64 5]).rid.tests.get? [64, 1] = none
      ∧ (dev [svcOf 64 5]).rid.tests.get? [64] = none ∧ askedUnder 64 = [] ∧ holdsTurns 64 = true
      ∧ (dev [svcOf 64 3]).svc 64 = sSHADOW ∧ (dev [svcOf 64 1]).svc 64 = sACTIVE
      ∧ (let d : Dev := { dev [svcOf 64 5] with rid := { tests := [([64], { why := .alone })] } }
         d.svc 64 = sOUT ∧ d.rid.tests.get? [64, 1] = none ∧ d.rid.tests.get? [64] = some { why := .alone }))
    ∧ ((dev [svcOf 98 1]).mayReset (195 - 97) = false ∧ 0x400 ≤ TMS_PAIR.TAKEOVERS.off)
    ∧ ((dev []).svc 33 ∈ [sOFF, sSPARE, sOUT, sFAILED] ∧ (dev []).rid.tests.get? [33] = none ∧ populated 33 = true
      ∧ (dev []).svc 64 = sOFF ∧ unitsUnder 64 = [] ∧ (dev []).svc 33 ∈ [sOFF, sOUT, sFAILED])
    ∧ 3 % 16 ∉ [0, 1, 2, 4, 8] ∧ bit 3 0 = true ∧ keptByReset 0x400 = false ∧ keptByReset UF_STATE.SVC_STATE.off = true := by
  decide +kernel

theorem witness_UnitCommands :
    ((cmd 0x401 [33]).accepted (dev [svcOf 33 2]) 0x401 (cmd 0x401 [33]).unitOutParams
      ∧ (dev [svcOf 33 2]).svc ((cmd 0x401 [33]).par 0 15 0) = sSPARE)
    ∧ ((cmd 0x401 [33]).accepted (dev [svcOf 33 5]) 0x401 (cmd 0x401 [33]).unitOutParams
      ∧ (dev [svcOf 33 5]).svc ((cmd 0x401 [33]).par 0 15 0) ∈ [sDRAINING, sOUT])
    ∧ ((cmd 0x402 [64]).accepted (dev [svcOf 64 6]) 0x402 (cmd 0x402 [64]).unitReturnParams ∧ (cmd 0x402 [64]).par 0 15 0 = 64
      ∧ (dev [svcOf 64 6]).svc 64 = sFAILED ∧ (dev [svcOf 64 6]).rid.tests.get? [64, 1] = none
      ∧ (dev [svcOf 64 6]).rid.tests.get? [64] = none ∧ askedUnder 64 = []
      ∧ (cmd 0x402 [64]).accepted (dev [svcOf 64 1]) 0x402 (cmd 0x402 [64]).unitReturnParams ∧ (dev [svcOf 64 1]).svc 64 = sACTIVE)
    ∧ ((cmd 0x403 [64]).accepted (dev []) 0x403 (cmd 0x403 [64]).unitTestParams ∧ (dev []).rid.tests.get? [64] = none
      ∧ (dev []).svc 64 ∈ [sOFF, sSPARE, sOUT, sFAILED] ∧ (cmd 0x403 [64]).par 0 15 0 = 64 ∧ unitsUnder 64 = [])
    ∧ ((cmd 0x403 [33]).accepted (dev [svcOf 33 1]) 0x403 (cmd 0x403 [33]).unitTestParams
      ∧ (dev [svcOf 33 1]).svc 33 ∉ [sOFF, sSPARE, sOUT, sFAILED]) := by
  repeat' apply And.intro
  all_goals decide +kernel

/-- A test of unit 33 that returns it, for a command that waits. -/
def returning : SelfTest := { why := .return_, ticket := some (cmd 1 []).ticket }

theorem witness_SelfTestsAndTimeouts :
    (populated 33 = true ∧ classOf 33 ≠ 0x41
      ∧ ({ tests := [([33], { why := .alone, ticket := some (cmd 1 []).ticket })] } : RidState).tests.get? [33]
      = some { why := .alone, ticket := some (cmd 1 []).ticket }
      ∧ ({ tests := [([33], { why := .alone })] } : RidState).tests.get? [33, 1] = none
      ∧ ({ tests := [([33], { why := .alone })] } : RidState).tests.get? [33] = some { why := .alone })
    ∧ ((dev []).rid.tests.get? [33] = none ∧ (dev []).svc 33 = sOFF ∧ classOf 33 = 0x11 ∧ designatedSpare 33 = false
      ∧ holdsTurns 33 = true ∧ (dev []).testPasses 33 true = true ∧ (dev []).testPasses 33 false = false
      ∧ classOf 64 ∉ [0x04, 0x11, 0x19, 0x48] ∧ classOf 64 ≠ 0x15 ∧ (dev []).svc 64 = sOFF ∧ (dev []).testPasses 64 false = false)
    ∧ (classOf 519 = 0x40 ∧ ({ dev [] with fw := { sideband := [7] } } : Dev).fw.sideband.contains (519 - 512) = true)
    ∧ (classOf 128 = 0x30 ∧ (dev [(uPort 0, PRT_MODE.OCTET_MODE, 0, 1)]).portInUse (128 - 128) = true
      ∧ (dev [(uPort 0, PRT_MODE.OCTET_MODE, 0, 1)]).svc 128 = sOFF)
    ∧ (({ tests := [([33], returning)] } : RidState).tests.get? [33] = some returning ∧ returning.why = .return_
      ∧ returning.ticket = some (cmd 1 []).ticket ∧ ((dev []).watchOf 33).state ≠ .declared)
    ∧ ((dev [svcOf 33 2]).svc 33 = sSPARE ∧ (dev [svcOf 33 2]).isTaking 33 = false)
    ∧ 0 + 100000000 ≤ ({ now := 100000000 } : Dev).now := by decide +kernel

/-- While its lateral's spare array is free, the failure of a bank's test passes. -/
theorem test_bank_spare_passes : classOf (uBank 0 0) = 0x15 ∧ (dev []).testPasses (uBank 0 0) false = true := by decide +kernel

/-- Flume 33 has shadowed flume 32, which is ACTIVE, for some items. -/
def shadowing (items : Nat) : Dev :=
  { dev [svcOf 32 1, svcOf 33 3] with rid := { shadows := [([33], ⟨32, items⟩)] } }

/-- Unit 33 was declared failed at time 0 and stands FAILED while the device is HEADLESS. -/
def failed33 : Dev :=
  { dev [svcOf 64 6, (0, HDL_STATUS.HEADLESS, 0, 1), (0, HDL_CFG.AUTO_RETURN, 0, 1)] with
    rid := { failedAt := [([64], 0)] }, now := 1000000000 * 65536 }

theorem witness_ReturningUnits :
    ((shadowing 65535).rid.shadows.get? [33] = some ⟨32, 65535⟩ ∧ 65535 < 65536)
    ∧ (classOf 33 = 0x11 ∧ (shadowing 65536).svc 33 = sSHADOW ∧ (shadowing 65536).rid.shadows.get? [33] = some ⟨32, 65536⟩
      ∧ 65536 ≤ 65536 ∧ (shadowing 65536).rid.carried.get? [33] = none
      ∧ (shadowing 65536).carrierOf 33 ((shadowing 65536).streamOf 32) = some 32)
    ∧ ((dev [svcOf 33 3]).carrierOf 33 32 = none
      ∧ ({ dev [svcOf 32 1] with fwd := { windows := [([32], [{ hdr := ⟨0, 0, 60, 0, 0⟩, lat := 0, portSeq := 0, latSeq := 7, stamp := 0 }])] } }
        : Dev).heldBy 32 ≠ [])
    ∧ (peersOf 64 = [] ∧ classOf 64 ∉ [0x15, 0x19, 0x22, 0x30, 0x31, 0x41] ∧ followers 64 = [] ∧ (dev [svcOf 64 3]).svc 64 = sSHADOW
      ∧ (dev [svcOf 64 3]).rid.shadows.get? [64] = none ∧ (dev [svcOf 64 3]).rid.carried.get? [64] = none)
    ∧ (failed33.rid.failedAt.get? [64] = some 0 ∧ failed33.flag 0 HDL_STATUS.HEADLESS = true ∧ failed33.flag 0 HDL_CFG.AUTO_RETURN = true
      ∧ holdsTurns 64 = true ∧ failed33.svc 64 = sFAILED ∧ failed33.get 64 UF_STATE.FAULT_COUNT < 3
      ∧ 0 + 1000000000 * failed33.act 0 HDL_CFG.RETURN_DELAY_S ≤ failed33.now ∧ failed33.rid.tests.get? [64] = none
      ∧ failed33.rid.tests.get? [64, 1] = none ∧ askedUnder 64 = []) := by decide +kernel

/-! ### Events and performance counters -/

/-- Type 0x10 of UN 32 is pending and masked. -/
def masked : Dev :=
  { dev [(32, UF_EVT_MASK.MASK, 0, 2 ^ 16), (32, UF_EVT_PEND.PEND, 0, 2 ^ 16)] with ev := { latest := [([32, 16], (7, []))] } }

/-- Source 0 holds one record. -/
def oneHeld : Dev := { dev [] with ev := { sources := [([0], { lastSeq := 1, held := [⟨0, 0, 0x1A, 1, 0, false, false, []⟩] })] } }

theorem witness_MaskingClearingAndDelivering :
    (populated 32 = true ∧ ∀ t < 63, (bit (masked.get 32 UF_EVT_MASK.MASK) t && !bit (2 ^ 16) t && bit (masked.get 32 UF_EVT_PEND.PEND) t)
      = false)
    ∧ (16 < 63 ∧ (bit (masked.get 32 UF_EVT_MASK.MASK) 16 && !bit 0 16 && bit (masked.get 32 UF_EVT_PEND.PEND) 16) = true
      ∧ (∀ u < 63, u ≠ 16 → (bit (masked.get 32 UF_EVT_MASK.MASK) u && !bit 0 u && bit (masked.get 32 UF_EVT_PEND.PEND) u) = false)
      ∧ masked.ev.latest.get? [32, 16] = some (7, []))
    ∧ ((oneHeld.source 0).held = [⟨0, 0, 0x1A, 1, 0, false, false, []⟩] ∧ oneHeld.ringHasRoom (oneHeld.evtRing 0) = false
      ∧ ({ oneHeld with fields := (dev [(uHIF, HIF_RING_STATE.STATE, ringIx kEQ 0, 1), (uHIF, HIF_RING_CFG.SIZE_LOG2, ringIx kEQ 0, 4)]).fields
          } : Dev).ringHasRoom (oneHeld.evtRing 0) = true) := by decide +kernel

theorem witness_CountersOverflowAndClear :
    (populated 32 = true ∧ 7 < 8 ∧ (dev [(32, UF_PMC_CNT.COUNT, 7, 2 ^ 48 - 1)]).getI 32 UF_PMC_CNT.COUNT 7 < 2 ^ 48)
    ∧ bit ((dev []).get 32 UF_PMC_CTRL.CHAIN) 0 = false
    ∧ (6 < 7 ∧ (dev [(32, UF_PMC_CTRL.CHAIN, 0, 2 ^ 6)]).getI 32 UF_PMC_CNT.COUNT 6 < 2 ^ 48
      ∧ bit ((dev [(32, UF_PMC_CTRL.CHAIN, 0, 2 ^ 6)]).get 32 UF_PMC_CTRL.CHAIN) 6 = true
      ∧ (dev [(32, UF_PMC_CTRL.CHAIN, 0, 2 ^ 6)]).getI 32 UF_PMC_CNT.COUNT 7 + 1 < 2 ^ 48
      ∧ (dev [(32, UF_PMC_CTRL.CHAIN, 0, 2 ^ 6), (32, UF_PMC_CNT.COUNT, 7, 2 ^ 48 - 1)]).getI 32 UF_PMC_CNT.COUNT 7 + 1 = 2 ^ 48
      ∧ 6 + 1 = 7) := by decide +kernel

theorem witness_SnapshotsCopyEveryCounter :
    (dev []).countingUnits.contains 32 = false ∧ (cmd 5 []).accepted (dev []) 5 [] ∧ (dev []).flag 0 HIF_SNAP_CTRL.BUSY = false
    ∧ (cmd 5 []).accepted (dev [(0, HIF_SNAP_CTRL.BUSY, 0, 1)]) 5 []
    ∧ (dev [(0, HIF_SNAP_CTRL.BUSY, 0, 1)]).flag 0 HIF_SNAP_CTRL.BUSY = true := by decide +kernel

/-! ### Clocks, power, temperature and resets -/

/-- Power is good since time 0. -/
def good (l : List (Nat × Fld × Nat × Nat)) : Dev := { dev l with pwr := { goodAt := some 0 } }

/-- REFA of the F-die has failed, with these ratios calibrated. -/
def unheard (r : Tab (Nat × Nat)) : Dev :=
  { dev [] with pwr := { goodAt := some 0, blocks := [([768], { good := [([0], 0)], ratio := r })] } }

/-- The F-die's reference block is calibrated. -/
def calibrated : Dev :=
  { dev [(768, CLK_SRC_CFG.MON_EN, 0, 1)] with pwr := { goodAt := some 0, blocks := [([768], { ratio := [([0], (1000000, 1000000)),
      ([1], (1000000, 1000000)), ([2], (1000000, 1000000)), ([3], (1000000, 1000000))] })] } }

/-- Does pair `i` of these counts stand out? -/
def outOf (counts : List (Nat × Nat)) (i : Nat) : Bool :=
  pairOut ((calibrated.clkBlock 768).ratio.get? [i]) (counts.getD i (0, 0)) (calibrated.act 768 CLK_SRC_CFG.TOL_PERMIL)

theorem witness_ReferencesFailAndReturn :
    ((good []).xtalDue 768 0 = true ∧ (good [(0, PWR_STRAPS.REFB_OSC, 0, 1), (768, CLK_SRC_CFG.XTAL_EXTRA_MS, 0, 255)]).xtalDue 768 1 = true
      ∧ (good []).flag 768 (okField 0) = false ∧ (good []).srcFailed 768 0 = false ∧ 768 = uREF_F ∧ (good []).pwr.tripped = false
      ∧ ((unheard []).xtalDue 768 0 = true ∧ (unheard []).flag 768 (okField 0) = false ∧ (unheard []).srcFailed 768 0 = true
        ∧ (unheard []).calibrated 768 0 = false ∧ (unheard [([0], (5, 5))]).calibrated 768 0 = true))
    ∧ (0 + 1000000 * (100 + (good []).get 768 CLK_SRC_CFG.XTAL_EXTRA_MS) ≤ ({ good [] with now := 355000000 } : Dev).now)
    ∧ (calibrated.flag 768 CLK_SRC_CFG.MON_EN = true ∧ ((calibrated.clkBlock 768).ratio.get? [3]).isSome = true
      ∧ (calibrated.clkBlock 768).good = []
      ∧ (∀ i < 4, outOf [(5, 5), (5, 5), (5, 5), (5, 5)] i = false)
      ∧ outOf [(5, 9), (5, 5), (5, 5), (5, 5)] 0 = true ∧ outOf [(5, 9), (5, 5), (5, 5), (5, 5)] 1 = false
      ∧ outOf [(5, 9), (5, 5), (5, 5), (5, 5)] 2 = false
      ∧ outOf [(5, 9), (5, 9), (5, 5), (5, 5)] 0 = true ∧ outOf [(5, 9), (5, 9), (5, 5), (5, 5)] 1 = true
      ∧ outOf [(5, 9), (5, 9), (5, 5), (5, 5)] 2 = false) := by decide +kernel

/-- A PLL holds over since time 0, 100 µs ago. -/
def held (un : Nat) : Dev :=
  { dev [(un, CLK_PLL_STATUS.HOLDOVER, 0, 1)] with now := 100000, pwr := { heldSince := [([un], 0)], leaving := [([un], 1)] } }

theorem witness_PllsFollowTheirReferences :
    (held 780).pwr.leaving.get? [780] = some 1
    ∧ (771 ∈ plls (refOf 771) ∧ 771 ≠ 773 ∧ (dev [(771, CLK_PLL_STATUS.HOLDOVER, 0, 1)]).flag 771 CLK_PLL_STATUS.HOLDOVER = true
      ∧ (dev [(771, CLK_PLL_STATUS.HOLDOVER, 0, 1)]).pwr.heldSince.get? [771] = none
      ∧ (dev [(768, CLK_SRC_STATUS.REFA_OK, 0, 1)]).get 771 CLK_PLL_STATUS.REF = 0
      ∧ (dev [(768, CLK_SRC_STATUS.REFA_OK, 0, 1)]).flag (refOf 771) (okField 0) = true)
    ∧ (∀ un ∈ [774, 780, 783, 791, 795], (held un).pwr.heldSince.get? [un] = some 0 ∧ 0 + 100000 ≤ (held un).now
      ∧ (held un).flag un CLK_PLL_STATUS.HOLDOVER = true)
    ∧ (∀ i < 32, (held 795).linkSt (32 * (795 - 791) + i) ≠ fUP)
    ∧ (dev [(768, CLK_SRC_STATUS.REFA_OK, 0, 1)]).flag 768 CLK_SRC_STATUS.REFA_OK = true
    ∧ (dev []).flag 768 CLK_SRC_STATUS.REFA_OK = false
    ∧ (classOf 771 = 0x50 ∧ 771 ∉ [768, 769, 770, 784, 785] ∧ (dev []).flag 771 CLK_PLL_STATUS.LOCKED = false
      ∧ (dev []).flag 771 CLK_PLL_STATUS.HOLDOVER = false
      ∧ 771 ∈ ({ dev [] with pwr := { unlocked := [771] } } : Dev).pwr.unlocked) := by decide +kernel

theorem witness_PowerOnStandbyAndGates :
    ((dev []).pwr.goodAt = none ∧ (good []).pwr.goodAt = some 0 ∧ 63 % 4 = 3)
    ∧ (127 < 128 ∧ (dev [(uPort 0, PRT_MODE.OCTET_MODE, 0, 1), (uPort 0, PRT_STATUS.LINK_STATE, 0, 2)]).portInUse 0 = true
      ∧ (dev [(uPort 0, PRT_MODE.OCTET_MODE, 0, 1), (uPort 0, PRT_STATUS.LINK_STATE, 0, 2)]).linkState 0 ≠ lsDISABLED
      ∧ (dev [(uPort 0, PRT_MODE.OCTET_MODE, 0, 1), (uPort 0, PRT_STATUS.LINK_STATE, 0, 2)]).flag 0 PWR_CTRL.STANDBY = false)
    ∧ ((dev []).flag 0 PWR_CTRL.STANDBY = false ∧ (dev []).get 0 PWR_CTRL.STBY_STATE = 0 ∧ (dev []).flag uZFP ZFP_DEV_CFG.EN = false
      ∧ (∀ p < 128, (dev []).portInUse p = true → (dev []).linkState p = lsDISABLED))
    ∧ (dev [(0, PWR_CTRL.STANDBY, 0, 1)]).flag 0 PWR_CTRL.STANDBY = true
    ∧ (populated 33 = true ∧ (dev [svcOf 33 2, (33, UF_CLKEN.RUN_EN, 0, 0)]).gated 33 = true) := by decide +kernel

/-- Firmware runs from a blank image, and VDD_F of the F-die steps. -/
def avs : Dev :=
  { dev [(800, PWR_MON_STATUS.TARGET_MV, 0, 655)] with
    now := 10000000, fw := { running := some ⟨0, [], []⟩ }, pwr := { avsAt := [([800], 0)] } }
def stepping : Dev := { avs with pwr := { avsAt := [([800], 8000000)], avsPending := [([800], (655, 650))] } }

theorem witness_RailsAndRegulators :
    (avs.fw.running.isSome = true ∧ avs.pwr.avsPending.get? [800] = none ∧ avs.pwr.avsAt.get? [800] = some 0 ∧ 0 + 10000000 ≤ avs.now
      ∧ 650 ≤ 650 ∧ 650 ≤ 800 ∧ 650 ≤ avs.get 800 PWR_MON_STATUS.TARGET_MV + 5 ∧ avs.get 800 PWR_MON_STATUS.TARGET_MV ≤ 650 + 5)
    ∧ (stepping.pwr.avsPending.get? [800] = some (655, 650) ∧ stepping.pwr.avsAt.get? [800] = some 8000000
      ∧ 8000000 + 2000000 ≤ stepping.now)
    ∧ (isMonitor 802 = true ∧ 802 ≠ 800 ∧ 802 ≠ 808 ∧ 1000 * 0 < (dev []).warnLevel 802 ∧ 50 < 51)
    ∧ ((dev []).overLevel 802 < 1000 * 10000)
    ∧ ((dev [(uHIF, HIF_STATUS.FW_READY, 0, 1), (0, PMB_CFG.EN, 0, 1), (0, PMB_DEV.EN, 3, 1)]).pmbOn 3 = true
      ∧ (dev [(uHIF, HIF_STATUS.FW_READY, 0, 1), (0, PMB_CFG.EN, 0, 1), (0, PMB_DEV.EN, 3, 1)]).flag 0 PMB_CFG.EN = true
      ∧ ({ dev [] with pwr := { pmbFails := [([3], 2)] } } : Dev).pwr.pmbFails.getD 0 [3] = 2) := by decide +kernel

/-- Sensor 816 reads `t` °C. -/
def hot (t : Nat) (n : Nat) : Dev :=
  dev [(816, PWR_TEMP.TEMP_C, 0, t), (1, PWR_DIE_CFG.THROTTLE_EN, 0, 1), (771, CLK_PLL_STATUS.THROTTLE, 0, n)]

theorem witness_TemperatureAndBridges :
    (816 ≤ 816 ∧ 816 ≤ 847 ∧ toSigned 8 ((dev []).get 816 PWR_TEMP.MAX_C) < 127 ∧ (dev []).flag 816 PWR_TEMP.WARN = false
      ∧ (dev [(816, PWR_TEMP.WARN, 0, 1)]).flag 816 PWR_TEMP.WARN = true ∧ (dev []).tempC 816 < 100)
    ∧ ((hot 105 7).flag 1 PWR_DIE_CFG.THROTTLE_EN = true ∧ (hot 105 7).pwr.throttledAt.get? [1] = none
      ∧ (∃ x ∈ sensorsOf 1, 105 ≤ (hot 105 7).tempC x) ∧ (hot 105 7).get 771 CLK_PLL_STATUS.THROTTLE < 8)
    ∧ ((∀ x ∈ sensorsOf 1, (hot 102 1).tempC x ≤ 102) ∧ 0 < (hot 102 1).get 771 CLK_PLL_STATUS.THROTTLE)
    ∧ (816 ∈ sensorsOf 1 ∧ 115 ≤ (hot 115 0).tempC 816)
    ∧ (3 < 4 ∧ (dev []).svc (4 + 3) ≠ sRETIRED
      ∧ (let d := dev [svcOf 4 1, svcOf 5 1, svcOf 6 1, svcOf 7 1]
         ∀ u ∈ bridgeUnits, u ≠ 4 + 3 → d.svc u = sACTIVE ∧ d.relieved u = false)) := by decide +kernel

theorem witness_ResetsClearAndKeep : 4 < 65536 ∧ 0 ≠ 0xA5 ∧ ∃ u, u ∈ ({ retired := [33] } : RidState).retired := ⟨by decide, by decide, 33, by decide⟩

/-! ### Front-panel ports, modules and time -/

/-- Port 0 uses its octet's eight lanes, in a link state. -/
def port (ls : Nat) (l : List (Nat × Fld × Nat × Nat) := []) : Dev :=
  fwd ((uPort 0, PRT_MODE.OCTET_MODE, 0, 1) :: (uPort 0, PRT_STATUS.LINK_STATE, 0, ls) :: (1, FP_SGPIO_CFG.EN, 0, 1) :: l)

/-- Port 0 with editor 80 serving its group. -/
def served (l : List (Nat × Fld × Nat × Nat) := []) : Dev :=
  port 0 ([(uPort 0, PRT_CTRL.CAGE_WIDTH, 0, 0), svcOf 80 1, (80, EDT_STATUS.PORT_GROUP, 0, 0),
    (uPort 0, PRT_LANE_MAP.TX_MAP, 0, 0o76543210), (uPort 0, PRT_LANE_MAP.RX_MAP, 0, 0o76543210)] ++ l)

theorem witness_PortsTrainAndComeUp :
    (∀ ls < 6, (port ls).portInUse 0 = true ∧ (port ls).linkState 0 = ls)
    ∧ (port lsALIGNING).pllStopped 780 = false ∧ (port lsALIGNING [(780, CLK_PLL_STATUS.HOLDOVER, 0, 1)]).pllStopped 780 = true
    ∧ (let d := (port lsTRAINING).bumpSat (uPort 0) PRT_STATUS.TRAIN_FAILS
       d.get (uPort 0) PRT_STATUS.TRAIN_FAILS < d.act (uPort 0) PRT_TIMERS.TRAIN_ATTEMPTS)
    ∧ (let d := (port lsALIGNING [(uPort 0, PRT_STATUS.TRAIN_FAILS, 0, 255)]).bumpSat (uPort 0) PRT_STATUS.TRAIN_FAILS
       d.act (uPort 0) PRT_TIMERS.TRAIN_ATTEMPTS ≤ d.get (uPort 0) PRT_STATUS.TRAIN_FAILS)
    ∧ ((port lsALIGNING).portX 0).episode = false
    ∧ (((port lsALIGNING).setPortX 0 { episode := true }).portX 0).episode = true := by decide +kernel

theorem witness_PortsAreConfigured :
    (0 < 128 ∧ served.portInUse 0 = true ∧ served.released 0 = true ∧ served.lanesOk 0 = true ∧ served.linkState 0 = lsDISABLED
      ∧ served.moduleReady 0 = false ∧ served.get (uPort 0) PRT_MODE.MEDIA ≠ 2
      ∧ (served [(uPort 0, PRT_MODE.MEDIA, 0, 2)]).get (uPort 0) PRT_MODE.MEDIA = 2)
    ∧ served.stopped (uPort 0) = false ∧ (port 0).released 0 = false ∧ (port lsUP).lanesOk 0 = true
    ∧ (port lsUP [(uPort 0, PRT_LANE_MAP.TX_MAP, 0, 0)]).lanesOk 0 = false ∧ (port lsTRAINING).linkState 0 ≠ lsUP
    ∧ (∀ sl, served.cageOf 0 = some sl → (served.slot sl).fault = false) ∧ (port lsUP).linkState 0 = lsUP ∧ (port lsTRAIN_FAILED).linkState 0 = lsTRAIN_FAILED
    ∧ (120 < 128 ∧ 120 % 8 = 0 ∧ laneMapOk (bits 0o7654321076543210 23 0) = true ∧ laneMapOk (bits 0o7654321076543210 47 24) = true
      ∧ laneMapOk 0 = false)
    ∧ (let c := cmd 0x901 [0x100, 1518, 0o76543210 + 2 ^ 24 * (0o76543210 % 256), 0o76543210 / 256]
       c.accepted (port 2) 0x901 c.portCfgParams ∧ c.par 0 6 0 = 0 ∧ c.par 0 7 7 = 0
       ∧ (port 2).octetBusy 0 = true ∧ c.accepted (port 0) 0x901 c.portCfgParams ∧ (port 0).octetBusy 0 = false)
    ∧ ((port lsUP).flag (uPort 0) PRT_STATUS.MARGIN_LOW = false ∧ (port lsUP).flag (uPort 0) PRT_STATUS.FEC_DEGRADED = false) := by
  decide +kernel

/-- Port 0 in a drain state. -/
def drain (s : Nat) (l : List (Nat × Fld × Nat × Nat) := []) : Dev := port lsUP ((uPort 0, PRT_STATUS.DRAIN_STATE, 0, s) :: l)

/-- A PORT_DRAIN of this step for port 0 passes its checks in a drain state. -/
abbrev offers (step s : Nat) : Prop :=
  let c := cmd 0x902 [256 * step]
  c.accepted (drain s) 0x902 c.portDrainParams ∧ (drain s).portInUse (c.par 0 6 0) = true ∧ c.par 1 1 0 = step
  ∧ (drain s).drainState (c.par 0 6 0) = s

theorem witness_PortsDrain :
    (offers 0 0 ∧ offers 1 0 ∧ offers 1 1 ∧ offers 2 2 ∧ offers 3 3 ∧ offers 3 2 ∧ offers 0 1 ∧ offers 1 3 ∧ offers 2 0 ∧ offers 2 3)
    ∧ (let c := cmd 0x902 [1]
       c.accepted (drain 0) 0x902 c.portDrainParams ∧ (drain 0).portInUse (c.par 0 6 0) = false)
    ∧ ((port lsTRAINING).linkState 0 ≠ lsUP ∧ (port lsUP).portInUse 0 = true ∧ (port lsUP).lanesOk 0 = true
       ∧ (port lsUP [(uPort 0, PRT_LANE_MAP.TX_MAP, 0, 0)]).lanesOk 0 = false)
    ∧ (let d : Dev := { drain 2 with now := 2 ^ 60 }
       d.portInUse 0 = true ∧ d.drainState 0 = 2 ∧ d.portQueues 0 = []
       ∧ max (d.portX 0).watchFrom (d.sch.lastEnq.getD 0 [0]) + d.act (uPort 0) PRT_DRAIN.QUIET_MS * 1000000 ≤ d.now
       ∧ (d.portX 0).watchFrom + d.act (uPort 0) PRT_DRAIN.DRAIN_MAX_S * 1000000000 ≤ d.now)
    ∧ (let d : Dev := { drain 1 [(0, HDL_STATUS.HEADLESS, 0, 1)] with now := 2 ^ 60 }
       d.portInUse 0 = true ∧ d.drainState 0 = 1 ∧ d.flag 0 HDL_STATUS.HEADLESS = true
       ∧ d.get 0 HDL_SINCE.TIME + d.act (uPort 0) PRT_DRAIN.HOST_WAIT_S * 1000000000 ≤ d.now)
    ∧ (let d := { drain 0 with now := 20000000 }.setSlot 127 { buttonN := false }
       127 < 128 ∧ (d.slot 127).buttonN = false ∧ (d.slot 127).pressed = false ∧ (d.slot 127).pressedFrom + 20000000 ≤ d.now
       ∧ d.chainFailed (127 / 64) = false)
    ∧ 3 < 4 := by
  repeat' apply And.intro
  all_goals decide +kernel

/-- Slot 0 as given, 200 ms after it was last empty. -/
def slot0 (x : Slot) : Dev := { port lsUP with now := 200000000 }.setSlot 0 x

theorem witness_ModulesAndChains :
    ((port 5).flag 1 FP_SGPIO_CFG.EN = true ∧ 5 % 16 = 5 ∧ 4 % 16 ≠ 5 ∧ 63 < 64)
    ∧ (let d : Dev := { dev [] with panel := { badRun := [([0], 16)] } }; 16 ≤ d.panel.badRun.getD 0 [0] ∧ d.chainFailed 0 = false)
    ∧ (let x := (slot0 { present := true, highScans := 2, intN := false }).slot 0
       x.present = true ∧ 2 ≤ x.highScans ∧ x.intN = false ∧ x.fault = false)
    ∧ (slot0 {}).fwManages 0 = true ∧ (dev [(uPort 0, PRT_CTRL.HOST_MODULE, 0, 1)]).fwManages 0 = false
    ∧ (let d : Dev := { slot0 { present := true } with now := 10000000000 }
       (d.slot 0).present = true ∧ (d.slot 0).ready = false ∧ (d.slot 0).tried + 10000000000 ≤ d.now)
    ∧ (let d := slot0 { presentN := false }
       (d.slot 0).present = false ∧ (d.slot 0).presentN = false ∧ (d.slot 0).lowFrom + 200000000 ≤ d.now)
    ∧ (let c := cmd 0x903 [0x1A000080, 1]
       c.accepted (slot0 {}) 0x903 c.moduleAccessParams ∧ c.par 0 7 7 = 1 ∧ (slot0 {}).fwManages (c.par 0 6 0) = true
       ∧ guardedRun (c.par 2 7 0) (c.par 3 7 0) (c.par 4 7 0) = true)
    ∧ (let c := cmd 0x903 [0x00000080, 1]
       let d := slot0 { present := true }
       c.accepted d 0x903 c.moduleAccessParams ∧ c.par 0 7 7 = 1 ∧ (d.slot (c.par 0 6 0)).present = true ∧ c.readOk = true
       ∧ guardedRun (c.par 2 7 0) (c.par 3 7 0) (c.par 4 7 0) = false)
    ∧ (let c := cmd 0x903 [0x1A000080, 1]
       let d : Dev := { slot0 { present := true } with fields := (dev [(uPort 0, PRT_CTRL.HOST_MODULE, 0, 1)]).fields }
       c.accepted d 0x903 c.moduleAccessParams ∧ c.par 0 7 7 = 1 ∧ (d.slot (c.par 0 6 0)).present = true ∧ c.readOk = true
       ∧ d.fwManages (c.par 0 6 0) = false)
    ∧ (let c := cmd 0x903 [0, 1]
       c.accepted (slot0 {}) 0x903 c.moduleAccessParams ∧ c.par 0 7 7 = 0 ∧ ((slot0 {}).slot (c.par 0 6 0)).present = false
       ∧ ((slot0 { present := true }).slot (c.par 0 6 0)).present = true) := by
  repeat' apply And.intro
  all_goals decide +kernel

theorem witness_LedStreamOfDrainedPortsAndLampTest :
    (let d := drain 3 [(1, FP_LED_CFG.EN, 0, 1)]
     d.flag 1 FP_LED_CFG.EN = true ∧ d.flag 1 FP_LED_CFG.LAMP_TEST = false ∧ 0 < 128 ∧ d.drainState 0 = 3)
    ∧ (dev [(1, FP_LED_CFG.EN, 0, 1), (1, FP_LED_CFG.LAMP_TEST, 0, 1)]).flag 1 FP_LED_CFG.LAMP_TEST = true := by decide +kernel

/-- A time-of-day message of 22 bytes and its CRC. -/
def tod : List Byte := let b := leBytes 2 0x4B5A ++ leBytes 1 1 ++ leBytes 1 24 ++ leBytes 6 7 ++ leBytes 12 0; b ++ leBytes 2 (crc16 b)

theorem witness_PulsesAndTimeOfDay :
    (let d := { dev [(1, FP_PPS_CFG.OUT_EN, 0, 1), (1, FP_PPS_CFG.IN_EN, 0, 1), (1, FP_TOD_CFG.IN_EN, 0, 1), (1, FP_TOD_CFG.IN_LOAD, 0, 1),
        (1, FP_TOD_CFG.OUT_EN, 0, 1)] with now := 1000000, panel := { tod := some ⟨7, 0⟩ } }
     d.flag 1 FP_PPS_CFG.OUT_EN = true ∧ d.flag 1 FP_PPS_CFG.IN_EN = true ∧ (d.get 1 FP_PPS_CFG.IN_EDGE = 0 ↔ true = true)
     ∧ d.panel.tod = some ⟨7, 0⟩ ∧ 0 + 1000000 ≤ d.now ∧ d.flag 1 FP_TOD_CFG.IN_LOAD = true ∧ d.flag 1 FP_TOD_CFG.IN_EN = true
     ∧ d.flag 1 FP_TOD_CFG.OUT_EN = true ∧ d.atSecond = false ∧ (dev [(1, FP_PPS_CFG.OUT_EN, 0, 1)]).flag 1 FP_PPS_CFG.OUT_EN = true
     ∧ (dev [(1, FP_PPS_CFG.OUT_EN, 0, 1)]).atSecond = true)
    ∧ (dev []).panel.tod = none ∧ (dev []).flag 1 FP_TOD_CFG.IN_LOAD = false ∧ (dev []).now < 0 + 1000000
    ∧ todOk tod = true ∧ todOk [] = false := by decide +kernel

/-! ### Frames, flumes, statistics and classification -/

/-- Pool 0 ready with 256 buffers, every requester allowed 8, port 0 UP. -/
def pool0 (l : List (Nat × Fld × Nat × Nat) := []) : Dev :=
  port lsUP ([(uBPM, BPM_POOL_CFG.EN, 0, 1), (uBPM, BPM_POOL_CFG.COUNT, 0, 256), (uBPM, BPM_POOL_STATUS.READY, 0, 1),
    (uBPM, BPM_POOL_STATUS.FREE, 0, 256)] ++ (List.range 64).map (fun r => (uBPM, BPM_QUOTA.MAX, quotaIx r 0, 8)) ++ l)

/-- A requester holds buffer 5 of pool 0 in its stash. -/
def stashOf (req : Nat) (d : Dev) : Dev :=
  { d with tm := { d.tm with stash := [([req, 0], [5])], owners := [([0, 5], ⟨req, false⟩)] } }

/-- A frame of 64 bytes with its FCS: a type of 0 or MAC control. -/
def frame (mac : Bool) : List Byte := leBytes 12 0 ++ (if mac then [0x88, 8] else [0, 0]) ++ leBytes 46 0

theorem witness_FramesAreReceived :
    (port 0).linkState 0 ≠ lsUP ∧ pool0.portInUse 0 = true ∧ pool0.linkState 0 = lsUP
    ∧ ((port lsUP).storeBody (reqLateral (latOf 0)) 0 (frame false) 1).2 = none
    ∧ ((stashOf (reqLateral 0) pool0).storeBody (reqLateral (latOf 0)) 0 (frame false) 1).2.isSome = true
    ∧ ((stashOf (reqLateral 0) pool0).storeBody (reqLateral (latOf 0)) 0 (frame true) 1).2.isSome = true
    ∧ (frame true).length + 4 = 64 ∧ 64 ≤ pool0.act (uPort 0) PRT_MODE.MAX_FRAME
    ∧ beAt (frame true) 12 2 = 0x8808 ∧ beAt (frame false) 12 2 ≠ 0x8808 := by decide +kernel

/-- A packet of lateral 0 that came in at port 0. -/
def pkt : Pkt := { hdr := ⟨0, 0, 60, 0, 0⟩, lat := 0, portSeq := 0, latSeq := 7, stamp := 0 }

/-- Flume 32 is ACTIVE with these packets in its window. -/
def flume (w : List Pkt) (l : List (Nat × Fld × Nat × Nat) := []) : Dev :=
  { dev (svcOf 32 1 :: l) with fwd := { windows := [([32], w)], waiting := [([0], [⟨0, 0, 60, 0, 0⟩])], siphon := [([0], [pkt])] } }

/-- Does a pass of a packet of flume 32 end, and with no fragment decision waiting on it? -/
def passEnds (d : Dev) (k : Pkt) (lost : Bool) : Bool :=
  let r := ((List.range 8).foldl (fun d j => d.tally (uStage 32 j) 0x20 1) d).runPass 32 k lost
  r.2.1.frag.isNone && !(match r.2.2.2.2.1 with
    | .again _ => true
    | _ => false)

/-- As `d`, with a turn of flume 32 that ends at a time. -/
def turnTo (e : Nat) (d : Dev) : Dev := { d with rid := { turns := [([32, 0], ⟨1, e, 0, false, none⟩)] } }

/-- Every packet matches a rule that recirculates it. -/
def ruledAgain : Pkt := { pkt with parts := [⟨15, 0, 0, false⟩] }
def recirculating : Dev :=
  { dev [(uCLS, CLS_PART_CFG.BANK_MASK, 0, 1), svcOf 32 1, svcOf uCLS 1, svcOf (uBank 0 0) 1] with fwd :=
    { windows := [([32], [ruledAgain])], rules := [([0, 0, 0, 0], ⟨0, 0, leBytes 16 3⟩)], indexed := [([tIFACE, 0], 1)] } }

/-- Does a pass of the packet end in another pass that may follow? -/
def passGoesOn (d : Dev) (k : Pkt) : Bool :=
  let r := ((List.range 8).foldl (fun d j => d.tally (uStage 32 j) 0x20 1) d).runPass 32 k false
  match r.2.2.2.2.1 with
  | .again x => decide (x.pass < 3) && decide ((r.1.siphonOf x.lat).length < 2048)
  | _ => false

theorem witness_FlumesRunPasses :
    (let d := (flume [pkt]).settleLateral 0
     0 < 4 ∧ d.waiting 0 = [⟨0, 0, 60, 0, 0⟩] ∧ d.slotFree 0 = true ∧ d.pickFlume 0 = some 32 ∧ d.siphonOf 0 = [pkt]
     ∧ d.recentSiphon 0 < d.act uSIP SIP_CFG.SHARE_PCT * 10 ∧ d.storeUsed 0 < 16384)
    ∧ ((flume [] [(uLAT 0, LAT_STATUS.REORDER_USED, 0, 65536)]).settleLateral 0).slotFree 0 = false
    ∧ (let d := turnTo 251 (flume [pkt])
       d.entryOf 32 7 = some pkt ∧ pkt.result = none ∧ d.svc 32 = sACTIVE ∧ (d.coveringTurn 32 7).any (·.sends d.now) = true
       ∧ passEnds d pkt false = true ∧ passEnds d pkt true = true)
    ∧ ((turnTo 250 (flume [pkt])).coveringTurn 32 7).map (·.sends 0) = some false
    ∧ (let d := turnTo 251 recirculating
       d.entryOf 32 7 = some ruledAgain ∧ ruledAgain.result = none ∧ d.svc 32 = sACTIVE
       ∧ (d.coveringTurn 32 7).any (·.sends d.now) = true ∧ passGoesOn d ruledAgain = true)
    ∧ isLpm 1 = true ∧ isEm 1 = false
    ∧ (dev [(8, RID_CFG.SENTINEL_EN, 0, 1)]).flag 8 RID_CFG.SENTINEL_EN = true := by decide +kernel

/-- As `pkt`, its pass over. -/
def ran : Pkt := { pkt with result := some { disp := 2, reason := 9 }, turn := 1 }

theorem witness_RecordsCommitAndPacketsLeave :
    (let d := flume [ran]
     (d.window 32).find? (fun x => x.latSeq == 7 && x.result.isSome) = some ran ∧ ran.committed = false
     ∧ d.committedAlready ran = false ∧ d.turnCovers 32 7 ran.turn = false
     ∧ ({ d with fwd := { d.fwd with ready := [([0, 0], ran)] } } : Dev).committedAlready ran = true
     ∧ ({ d with fwd := { d.fwd with ready := [([0, 0], ran)] } } : Dev).fwd.ready.get? [0, d.fwd.relSeq.getD 0 [0]] = some ran
     ∧ ({ d with rid := { d.rid with turns := [([32, 0], ⟨1, 2 ^ 60, 0, false, none⟩)] } } : Dev).turnCovers 32 7 ran.turn = true
     ∧ d.fwd.ready.get? [0, d.fwd.relSeq.getD 0 [0]] = none) := by decide +kernel

theorem witness_StatisticsCounters :
    (let d : Dev := { fwd [svcOf uDSTG 1] with fwd := { pairs := [([5], { dPackets := 1, dBytes := 64, cached := true })] } }
     let c := cmd 0x501 [5, 1]
     let e := cmd 0x502 [5, 1]
     (d.pair 5).cached = true ∧ d.svc uDSTG = sACTIVE ∧ c.accepted d 0x501 c.cntReadBlockParams ∧ c.writeOk = true
     ∧ e.accepted d 0x502 e.cntClearBlockParams ∧ (d.pair 6).cached = false ∧ (fwd []).svc uDSTG ≠ sACTIVE ∧ e.accepted (fwd []) 0x502 e.cntClearBlockParams) := by
  decide +kernel

/-- The classifier's controller is ACTIVE, and partition 0 has bank 0. -/
def classifier (l : List (Nat × Fld × Nat × Nat) := []) : Dev :=
  fwd ([svcOf uCLS 1, (uCLS, CLS_PART_CFG.BANK_MASK, 0, 1)] ++ l)

theorem witness_RuleSetsAreWrittenAndSwapped :
    (let d := classifier
     let g := classifier [(uCLS, CLS_PART_STATE.DRAINING, 0, 1)]
     let w := cmd 0x201 [0xF00] (leBytes 40 0 ++ leBytes 16 0)
     let w1 := cmd 0x201 [0xF10]
     let v := cmd 0x202 [0xF00, 1]
     let v1 := cmd 0x202 [0xF10, 1]
     let x := cmd 0x203 [0]
     d.svc uCLS = sACTIVE ∧ g.svc uCLS = sACTIVE ∧ d.flagI uCLS CLS_PART_STATE.FAILED 0 = false
     ∧ w.accepted d 0x201 (d.ruleWriteParams w) ∧ d.ruleRetry w = false ∧ w.readOk = true
     ∧ actionOk (slice w.block (2 * (20 * 2 ^ d.partWidth (w.par 0 3 0))) 16) = true
     ∧ w1.accepted g 0x201 (g.ruleWriteParams w1) ∧ g.ruleRetry w1 = true
     ∧ v.accepted d 0x202 (d.ruleInvalidateParams v) ∧ d.ruleRetry v = false
     ∧ v1.accepted g 0x202 (g.ruleInvalidateParams v1) ∧ g.ruleRetry v1 = true
     ∧ x.accepted d 0x203 (d.rulesetSwapParams x) ∧ d.swapDraining 0 = false ∧ d.oldestAge ≠ 15
     ∧ x.accepted g 0x203 (g.rulesetSwapParams x) ∧ g.swapDraining 0 = true ∧ g.slotBusy 0 = false
     ∧ (let h : Dev := { g with fwd := { swaps := [⟨0, x.ticket⟩] } }
        h.swapDraining 0 = true ∧ h.slotBusy 0 = false ∧ h.fwd.swaps = [⟨0, x.ticket⟩])) := by
  repeat' apply And.intro
  all_goals decide +kernel

/-- Partition 0 holds a rule. -/
def ruled : Dev := { classifier with fwd := { rules := [([0, 0, 0, 0], ⟨0, 0, []⟩)], repairs := [([3, 11, 4095], 0)] } }

theorem witness_ClassifierKeepsItsTables :
    255 < 256 ∧ (0 < 16 ∧ ruled.holdsRules 0 = true ∧ fieldOr CLS_PART_CFG.WIDTH (2 ^ 26) 2 (ruled.partWidth 0) ≠ ruled.partWidth 0)
    ∧ (∀ q, classifier.holdsRules q = false)
    ∧ (ruled.holdsRules 0 = true ∧ fieldIn CLS_PART_CFG.BANK_MASK 1 = ruled.bankMask 0 ∧ fieldIn CLS_PART_CFG.WIDTH 1 = ruled.partWidth 0
      ∧ fieldIn CLS_PART_CFG.LAYOUT 1 = ruled.getI uCLS CLS_PART_CFG.LAYOUT 0
      ∧ fieldIn CLS_PART_CFG.KEY_PROFILE 1 = ruled.getI uCLS CLS_PART_CFG.KEY_PROFILE 0)
    ∧ (63 < 64 ∧ (classifier [(uCLS, PNT_Q_CFG.EN, 63, 0)]).flagI uCLS PNT_Q_CFG.EN 63 = false ∧ fieldIn PNT_Q_CFG.EN (2 ^ 64 - 1) = 1
      ∧ (classifier [(uCLS, PNT_Q_CFG.EN, 63, 1)]).flagI uCLS PNT_Q_CFG.EN 63 = true)
    ∧ (let d : Dev := { classifier with now := 2 ^ 60, fwd := { frags := [([1], { shown := some (⟨{}, 0⟩, 10 * 2 ^ 60) })] } }
       d.fwd.fragSweep + d.act uPRS PRS_FRAG_CFG.TIMEOUT_MS * 1000000 / 8 ≤ d.now
       ∧ 10 * d.now < 10 * (d.act uPRS PRS_FRAG_CFG.TIMEOUT_MS * 1000000) + 10 * 2 ^ 60)
    ∧ (7 < 8 ∧ 3 < 4 ∧ 11 < 12 ∧ 4095 < 4096 ∧ ruled.bankFailed 3 11 = false ∧ classifier.fwd.repairs.get? [3, 11, 4095] = none
      ∧ classifier.copiesLost clsCopyRegion = false
      ∧ ruled.fwd.repairs.get? [3, 11, 4095] = some 0 ∧ ruled.now < 0 + 1000000000
      ∧ ruled.flagI uCLS CLS_SPARE.USED 3 = false
      ∧ (classifier [(uCLS, CLS_SPARE.USED, 3, 1)]).flagI uCLS CLS_SPARE.USED 3 = true) := by
  refine ⟨by decide, by decide +kernel, fun q => rfl, by decide +kernel, by decide +kernel, by decide +kernel, by decide +kernel⟩

/-! ### Tables and egress editors -/

/-- The table engine is ACTIVE. -/
def engine (l : List (Nat × Fld × Nat × Nat) := []) : Dev := fwd (svcOf uTBE 1 :: l)

/-- An indexed record, and an exact-match record of the same key. -/
def recIx : EntRec := readRec (leBytes 1 tNH ++ leBytes 63 0)

/-- An entry of EM_L2 in the sump. -/
def inSump : EmEntry := { place := .sump, result := 0 }
def withL2 (e : EmEntry) : Dev := { engine with fwd := { em := [([tL2, 1, 2], e)], activity := [[tL2, 1, 2], [tL2, 9, 9]] } }

/-- A prefix of VRF 5, which holds direct slot 0, while the sump and both buckets that the prefix hashes to are full. -/
def vrfRoute : Key := [5, 1, 16, 0]
def crowded (cs : Tab Cursor) : Dev :=
  let at_ (second : Bool) : Route := { nextHop := 0, bucket := engine.lpmChoice vrfRoute second }
  { engine with fwd :=
    { indexed := [([12, 5], 2 ^ 64)], sumpExp := 8192, cursors := cs,
      routes := [([1, 1, 24, 0], at_ false), ([1, 1, 24, 256], at_ false), ([1, 1, 24, 512], at_ true), ([1, 1, 24, 768], at_ true),
        (vrfRoute, { nextHop := 0, place := 3 })] } }

/-- As the device that TBL_DELETE of VRF 5's record moves the prefixes of. -/
def unslotted (d : Dev) : Dev := { d with fwd := { d.fwd with indexed := [] } }

/-- Whatever the route compiler's layout, neither bucket has room for the prefix, nor has the sump. -/
theorem crowded_full (d : Dev) (hf : d.fields = engine.fields) (hs : 8192 ≤ d.fwd.sumpExp) (rest : Tab Route)
    (hr : d.fwd.routes = (crowded []).fwd.routes.take 4 ++ rest) : ∀ p, p = 0 ∨ p = 1 ∨ p = 2 → d.lpmRoom vrfRoute p = false := by
  have hc : ∀ b, d.lpmChoice [5, 1, 16, 0] b = engine.lpmChoice [5, 1, 16, 0] b := by
    intro b; simp only [Dev.lpmChoice, Dev.get, Dev.getI, hf]
  rintro p (rfl | rfl | rfl)
  · simp [Dev.lpmRoom, Dev.lpmBucketUsed, hc, hr, crowded, lpmSize, tLPM4, vrfRoute] <;> omega
  · simp [Dev.lpmRoom, Dev.lpmBucketUsed, hc, hr, crowded, lpmSize, tLPM4, vrfRoute] <;> omega
  · have : ¬ d.sumpOcc < 8192 := by unfold Dev.sumpOcc; omega
    simp [Dev.lpmRoom, this]

theorem placeRoute_none (d : Dev) (k : Key) (n : Nat) (hd : d.isDirect k = false)
    (h : ∀ p, p = 0 ∨ p = 1 ∨ p = 2 → d.lpmRoom k p = false) : d.placeRoute k n = none := by
  simp [Dev.placeRoute, hd, h]

theorem witness_vrfRefused (cs : Tab Cursor) : (unslotted (crowded cs)).replaceRoutes 5 = none := by
  have hd : (unslotted (crowded cs)).isDirect vrfRoute = false := by
    simp [Dev.isDirect, Dev.directSlot, Dev.vrfRec, Dev.ixAt, unslotted, Tab.getD, Tab.get?]; decide
  have h := placeRoute_none (unslotted (crowded cs)) vrfRoute 0 hd
    (crowded_full _ rfl (Nat.le_refl _) [(vrfRoute, { nextHop := 0, place := 3 })] rfl)
  have hr : (unslotted (crowded cs)).fwd.routes.filter (fun e => e.1.getD 0 0 == 5
      && (unslotted (crowded cs)).isDirect e.1 != (e.2.place == 3) && e.1.getD 1 0 == 1 && decide (e.1.getD 2 0 ≤ 16))
      = [(vrfRoute, { nextHop := 0, place := 3 })] := by
    generalize (unslotted (crowded cs)).isDirect = f at hd
    simp only [vrfRoute] at hd
    simp [unslotted, crowded, vrfRoute, hd]
  unfold Dev.replaceRoutes
  simp only [hr]
  simp [h]

theorem witness_commitRefused (d : Dev) (x : Nat) (hf : d.fields = engine.fields) (hs : 8192 ≤ d.fwd.sumpExp) (hi : d.fwd.indexed = [])
    (hr : d.fwd.routes = (crowded []).fwd.routes.take 4) : d.applyRoute vrfRoute (some x) = none := by
  have hd : d.isDirect vrfRoute = false := by simp [Dev.isDirect, Dev.directSlot, Dev.vrfRec, Dev.ixAt, hi, Tab.getD, Tab.get?]; decide
  have h := placeRoute_none d vrfRoute x hd (crowded_full d hf hs [] (by simp [hr]))
  have hg : d.fwd.routes.get? vrfRoute = none := by rw [hr]; rfl
  simp [Dev.applyRoute, hg, h]

/-- As `crowded`, with a staged insert of the prefix. -/
def staging : Dev :=
  { crowded [] with fwd := { (crowded []).fwd with
    indexed := [], staged := [⟨vrfRoute, some 1⟩], routes := (crowded []).fwd.routes.take 4 } }

theorem witness_stagedRefused :
    (cmd 0x108 [5]).accepted staging 0x108 (cmd 0x108 [5]).lpmCommitParams ∧ staging.tbeReady = true ∧ (cmd 0x108 [5]).par 0 17 17 = 0
    ∧ staging.fwd.staged.filter (fun x => (cmd 0x108 [5]).par 0 16 16 == 1 || x.key.getD 0 0 == (cmd 0x108 [5]).par 0 15 0)
      = [⟨vrfRoute, some 1⟩]
    ∧ 8192 ≤ staging.fwd.sumpExp ∧ staging.fwd.indexed = [] := by decide +kernel

theorem witness_TableRecords :
    (let r : EntRec := { recIx with table := 12, vrf := 5 }
     r.keyOk false = true ∧ isLpm r.table = false ∧ r.table = 12
     ∧ (engine.replaceRoutes 5).isSome = true
     ∧ (crowded []).fwd.indexed.setD 0 [12, r.vrf] 0 = [] ∧ (crowded []).fwd.cursors = []
     ∧ (crowded [([1], { table := 3 })]).fwd.cursors ≠ [])
    ∧ (let r : EntRec := { recIx with table := tL2, vrf := 1, key := 2 }
       let k : Key := [tL2, 1, 2]
       engine.fwd.em.get? k = none ∧ engine.emUsed + emWidth k ≤ engine.get uTBE TBE_OCC1.EM_LIMIT
       ∧ freeSlot engine.fwd.em (engine.emChoice k false) (emWidth k) = some 0
       ∧ (withL2 inSump).fwd.em.get? k = some inSump ∧ ({ r with replace := true } : EntRec).replace = true)
    ∧ (let f (n : Nat) : Flush := ⟨(cmd 0x105 [n]).ticket, n, none, false, 0, 0, 0⟩
       let d (n : Nat) : Dev := { engine with fwd := { flushes := (List.range n).map f } }
       let c := cmd 0x105 [2 ^ 17, 1]
       c.accepted (d 4) 0x105 c.tblFlushPortParams ∧ (d 4).tbeReady = true ∧ 4 ≤ (d 4).fwd.flushes.length
       ∧ c.accepted (d 3) 0x105 c.tblFlushPortParams ∧ (d 3).tbeReady = true ∧ (d 3).fwd.flushes.length < 4
       ∧ (f 0).since + 300000000 ≤ ({ d 1 with now := 300000000 } : Dev).now) := by decide +kernel

theorem witness_TableCommandsApplyRecords :
    (let c := cmd 0x101 [0, 0, 0x1000] (leBytes 1 tNH ++ leBytes 63 0)
     let x := cmd 0x102 [0, 0, 0x1000] (leBytes 1 tNH ++ leBytes 63 0)
     let i := cmd 0x104 [tNH, 256]
     let n := cmd 0x104 [tL2, 1]
     let f := cmd 0x105 [2 ^ 17, 1]
     let b := cmd 0x106 [0, 1] (leBytes 1 tNH ++ leBytes 63 0)
     let s := cmd 0x103 [0, 0, 0x1000] (leBytes 1 tL2 ++ leBytes 1 0 ++ leBytes 2 1 ++ leBytes 4 0 ++ leBytes 56 2)
     let ok (d : Dev) : Prop := c.accepted d 0x101 [pAny 8 63 0] ((readRec c.block).keyOk false && d.resultOk (readRec c.block))
       ∧ x.accepted d 0x102 [pAny 8 63 0] ((readRec x.block).keyOk false)
     ok engine ∧ engine.tbeReady = true ∧ (fwd []).tbeReady = false ∧ ok (fwd []) ∧ c.readOk = true ∧ x.readOk = true
     ∧ s.accepted engine 0x103 ([pAny 0 0 0, s.zero 0 7 1] ++ [pAny 8 63 0])
         ((readRec s.block).keyOk (s.par 0 0 0 == 1) && (!(s.par 0 0 0 == 1) || isLpm (readRec s.block).table))
     ∧ i.accepted engine 0x104 i.tblNextParams ∧ i.par 2 15 0 = 0 ∧ i.par 4 8 0 = 256 ∧ isIndexed (i.par 0 7 0) = true
     ∧ isIndexed (n.par 0 7 0) = false ∧ n.writeOk = true ∧ engine.fwd.cursors.length < 64
     ∧ engine.search (readRec s.block) false = none ∧ ((withL2 inSump).search (readRec s.block) false).isSome = true
     ∧ n.accepted engine 0x104 n.tblNextParams ∧ n.par 2 15 0 = 0
     ∧ ((engine.walk tL2).map (fun e => e.plain)).length ≤ n.par 4 8 0
     ∧ f.accepted engine 0x105 f.tblFlushPortParams ∧ 1 ≤ n.par 4 8 0
     ∧ b.accepted engine 0x106 ([pAny 0 0 0, pAny 0 1 1, b.zero 0 31 2,
         b.must 4 16 0 (fun n => decide (1 ≤ n ∧ n ≤ 65536)), b.zero 4 31 17] ++ [pAny 8 63 0])
     ∧ (bulkRun false false 1 0 b.block { dev := b.begun engine }).first = none)
    ∧ (recIx.keyOk false = true ∧ isLpm recIx.table = false ∧ isEm recIx.table = false ∧ engine.resultOk recIx = true ∧ recIx.table ≠ 12)
    ∧ (let r : EntRec := { recIx with table := 12, result := 2 ^ 64 }
       let d : Dev := { engine with fwd := { indexed := [([12, 5], 2 ^ 64)] } }
       r.keyOk false = true ∧ isLpm r.table = false ∧ isEm r.table = false ∧ d.resultOk r = true ∧ r.table = 12
       ∧ resAt r.result 8 4 0 ≠ 0
       ∧ d.fwd.indexed.any (fun e => e.1.headD 0 == 12 && e.1.getD 1 0 != r.vrf && resAt e.2 8 4 0 == resAt r.result 8 4 0) = true
       ∧ engine.fwd.indexed.any (fun e => e.1.headD 0 == 12 && e.1.getD 1 0 != r.vrf && resAt e.2 8 4 0 == resAt r.result 8 4 0)
         = false)
    ∧ (let r : EntRec := { recIx with table := tL2, vrf := 1, key := 2 }
       r.keyOk false = true ∧ isEm r.table = true ∧ engine.resultOk r = true ∧ r.replace = false
       ∧ ((withL2 inSump).fwd.em.get? [r.table, r.vrf, r.key]).isSome = true ∧ engine.fwd.em.get? [r.table, r.vrf, r.key] = none)
    ∧ (let d : Dev := { engine with now := 10000000000, fwd := { cursors := [([1], { table := 3 })] } }
       d.fwd.cursors.get? [1] = some { table := 3 } ∧ 0 + 10000000000 ≤ d.now) := by
  repeat' apply And.intro
  all_goals decide +kernel

/-- One learn report waits, in a learning mode. -/
def learnt (mode : Nat) : Dev := { engine [(uTBE, TBE_CFG.LEARN_MODE, 0, mode), (uSVC, AGT_STATUS.STATE, 5, agRUNNING)] with
  agents := [([5], { perm := 2 ^ permLEARN })], fwd := { learns := [⟨1, 2, 3⟩] } }

theorem witness_TablesLearnAgeAndMove :
    (let a := cmd 0x107 [tL2, 300]
     let c := cmd 0x108 [2 ^ 16]
     let x := cmd 0x108 [2 ^ 17]
     a.accepted engine 0x107 a.tblAgeCfgParams ∧ c.accepted engine 0x108 c.lpmCommitParams ∧ c.par 0 17 17 = 0
     ∧ x.accepted engine 0x108 x.lpmCommitParams ∧ x.par 0 17 17 = 1 ∧ (c.begun engine).lpmFits engine.lpmUsed = true)
    ∧ ((learnt 1).fwd.learns = [⟨1, 2, 3⟩] ∧ (learnt 1).get uTBE TBE_CFG.LEARN_MODE ≠ 2 ∧ (learnt 2).get uTBE TBE_CFG.LEARN_MODE = 2
      ∧ (List.range 64).find? (fun x => (learnt 2).getI uSVC AGT_STATUS.STATE x == agRUNNING && bit ((learnt 2).agent x).perm permLEARN)
        = some 5
      ∧ (learnt 2).staticMove ⟨1, 2, 3⟩ = false
      ∧ ({ learnt 2 with fwd := { em := [([tL2, 1, 2], { inSump with static := true })] } } : Dev).staticMove ⟨1, 2, 3⟩ = true)
    ∧ (let d := withL2 { inSump with active := true }
       d.fwd.activity = [[tL2, 1, 2], [tL2, 9, 9]] ∧ d.fwd.em.get? [tL2, 1, 2] = some { inSump with active := true }
       ∧ d.fwd.em.get? [tL2, 9, 9] = none ∧ inSump.static = false ∧ inSump.active = false ∧ inSump.pendAge = false)
    ∧ (ages tL2 = true ∧ engine.ageTime tL2 ≠ 0 ∧ engine.learning = true
      ∧ engine.fwd.ageSwept.getD 0 [tL2] + engine.ageTime tL2 * 500000000 ≤ ({ engine with now := 2 ^ 60 } : Dev).now)
    ∧ (let d := withL2 inSump
       d.fwd.em.get? [tL2, 1, 2] = some inSump ∧ [tL2, 1, 2].length ≠ 4 ∧ inSump.place = .sump ∧ inSump.leaving = none
       ∧ ((d.nextPlace [tL2, 1, 2] .sump).bind (fun p => d.fwd.shift [tL2, 1, 2] p false)).isSome = true
       ∧ (withL2 { inSump with leaving := some .sump }).fwd.em.get? [tL2, 1, 2] = some { inSump with leaving := some .sump })
    ∧ (let d : Dev := { engine with fwd := { routes := [([0, 1, 24, 0], { nextHop := 0, place := 2 })] } }
       let e : Dev := { engine with fwd := { routes := [([0, 1, 24, 0], { nextHop := 0, place := 1, leaving := some 2 })] } }
       [0, 1, 24, 0].length = 4 ∧ d.nextBucket [0, 1, 24, 0] { nextHop := 0, place := 2 } = some 0 ∧ d.fwd.routes.get? [0, 1, 24, 0] = some { nextHop := 0, place := 2 }
       ∧ e.fwd.routes.get? [0, 1, 24, 0] = some { nextHop := 0, place := 1, leaving := some 2 }) := by
  decide +kernel

theorem witness_EditorsEditAndAreWritten :
    (let d : Dev := { served with
        sch := { editorQ := [([0], [⟨{}, []⟩, ⟨{ mirror := true }, []⟩, ⟨{ badCheck := true }, []⟩])] }
        rid := { turns := [([80, 0], ⟨1, 2 ^ 60, 0, false, none⟩)] } }
     d.editorOf 0 = some 80
     ∧ d.sch.editorQ.getD [] [0] = [⟨{}, []⟩, ⟨{ mirror := true }, []⟩, ⟨{ badCheck := true }, []⟩])
    ∧ (let e (d : Dev) : Dev := (d.tally 80 0x20 1).tally 80 0x21 (padded []).length
       (e (port lsUP)).linkState 0 = lsUP ∧ (padded []).length + 4 ≤ (e (port lsUP)).act (uPort 0) PRT_MODE.MAX_FRAME
       ∧ (e (port lsUP)).act (uPort 0) PRT_MODE.MAX_FRAME < (padded (List.replicate 20000 0)).length + 4
       ∧ (e (port lsDISABLED)).linkState 0 ≠ lsUP ∧ ((e (port lsDISABLED)).portX 0).finishing = false
       ∧ (padded []).length + 4 ≤ (e (port lsDISABLED)).act (uPort 0) PRT_MODE.MAX_FRAME
       ∧ ((e ((port lsDISABLED).setPortX 0 { finishing := true })).portX 0).finishing = true)
    ∧ (let c := cmd 0x109 [7, 0, 0x1000] (leBytes 2 0 ++ [0xFF, 0xFF, 0xFF] ++ leBytes 27 0)
       let e := cmd 0x109 [7, 0, 0x1000]
       c.accepted engine 0x109 ([pAny 0 21 0, c.zero 0 31 22] ++ [pAny 8 63 0]) (encapOk (c.par 0 21 0) c.block) ∧ engine.tbeReady = true
       ∧ e.readOk = true ∧ encapOk (e.par 0 21 0) e.block = false ∧ engine.heldBack 0x109 e.ticket = false ∧ hdrBad e.ticket = none
       ∧ areaBad e.area ([pAny 0 21 0, e.zero 0 31 22] ++ [pAny 8 63 0]) = none ∧ engine.agentBad e = none)
    ∧ (let c := cmd 0x204 [7] (leBytes 48 0)
       let x := cmd 0x204 [0x8007]
       c.accepted classifier 0x204 c.egrRuleWriteParams (c.par 0 15 15 == 1 || egressOk (slice c.block 40 8)) ∧ c.par 0 15 15 = 0
       ∧ c.readOk = true ∧ x.accepted classifier 0x204 x.egrRuleWriteParams (x.par 0 15 15 == 1 || egressOk (slice x.block 40 8)) ∧ x.par 0 15 15 = 1 ∧ classifier.svc uCLS = sACTIVE) := by decide +kernel

/-! ### Buffers and queues -/

/-- As `pool0`, with buffer 3 of pool 0 held by requester 5. -/
def held3 : Dev := { pool0 with tm := { owners := [([0, 3], ⟨5, false⟩)] } }

/-- A write of BPM_POOL_CFG that keeps a pool's COUNT, FB_EN and FALLBACK, with EN as given. -/
def poolWord (d : Dev) (p en : Nat) : Nat :=
  en * 2 ^ BPM_POOL_CFG.EN.lo + d.poolCount p * 2 ^ BPM_POOL_CFG.COUNT.lo
  + d.getI uBPM BPM_POOL_CFG.FALLBACK p * 2 ^ BPM_POOL_CFG.FALLBACK.lo + d.getI uBPM BPM_POOL_CFG.FB_EN p * 2 ^ BPM_POOL_CFG.FB_EN.lo

/-- A write keeps everything but EN of a pool, as the statement has it. -/
abbrev keeps (d : Dev) (p v : Nat) : Prop :=
  (p = 1 ∨ newPool v BPM_POOL_CFG.COUNT = d.getI uBPM BPM_POOL_CFG.COUNT p)
  ∧ (p < 2 ∨ newPool v BPM_POOL_CFG.HOME = d.getI uBPM BPM_POOL_CFG.HOME p
      ∧ newPool v BPM_POOL_CFG.SIZE_LOG2 = d.getI uBPM BPM_POOL_CFG.SIZE_LOG2 p)
  ∧ newPool v BPM_POOL_CFG.FB_EN = d.getI uBPM BPM_POOL_CFG.FB_EN p
  ∧ newPool v BPM_POOL_CFG.FALLBACK = d.getI uBPM BPM_POOL_CFG.FALLBACK p

theorem witness_BuffersAndPools :
    (1 ≤ 64 ∧ pool0.stashed 63 < 128)
    ∧ (held3.tm.owners.get? [0, 4] = none ∧ held3.tm.owners.get? [0, 3] = some ⟨5, false⟩ ∧ 5 ≠ 6)
    ∧ (let d := dev [(uBPM, BPM_POOL_CFG.EN, 31, 1)]
       31 < 32 ∧ d.flagI uBPM BPM_POOL_CFG.EN 31 = true ∧ d.flagI uBPM BPM_POOL_STATUS.READY 31 = false)
    ∧ (let d := dev [(uBPM, BPM_POOL_CFG.EN, 1, 1)]
       1 < 32 ∧ d.flagI uBPM BPM_POOL_CFG.EN 1 = true ∧ d.flagI uBPM BPM_POOL_STATUS.READY 1 = false)
    ∧ (let d := pool0.setI uBPM BPM_POOL_CFG.COUNT 0 262144
       d.poolCount 0 < d.guarSum 0 - d.guar 0 0 + 200000 ∧ ¬ d.poolCount 0 < d.guarSum 0 - d.guar 0 0 + 8) := by
  decide +kernel

theorem witness_PoolsAreConfigured :
    (pool0.flagI uBPM BPM_POOL_CFG.EN 0 = true ∧ ¬ keeps pool0 0 (poolWord pool0 0 0 + 2 ^ BPM_POOL_CFG.COUNT.lo)
       ∧ keeps pool0 0 (poolWord pool0 0 0) ∧ newPool (poolWord pool0 0 0) BPM_POOL_CFG.EN = 0)
    ∧ (let d := held3.setI uBPM BPM_POOL_CFG.EN 0 0
       d.flagI uBPM BPM_POOL_CFG.EN 0 = false ∧ d.allocated 0 ≠ [] ∧ newPool (poolWord d 0 1) BPM_POOL_CFG.EN = 1)
    ∧ (let d := pool0.setI uBPM BPM_POOL_CFG.EN 0 0
       d.flagI uBPM BPM_POOL_CFG.EN 0 = false ∧ d.allocated 0 = [] ∧ newPool (poolWord d 0 1) BPM_POOL_CFG.EN = 1
       ∧ newPool (poolWord d 0 0 + 2 ^ BPM_POOL_CFG.COUNT.lo) BPM_POOL_CFG.EN = 0
       ∧ ¬ keeps d 0 (poolWord d 0 0 + 2 ^ BPM_POOL_CFG.COUNT.lo))
    ∧ (let v (count home : Nat) : Nat := 2 ^ BPM_POOL_CFG.EN.lo + count * 2 ^ BPM_POOL_CFG.COUNT.lo + home * 2 ^ BPM_POOL_CFG.HOME.lo
         + 11 * 2 ^ BPM_POOL_CFG.SIZE_LOG2.lo
       let size := BPM_POOL_CFG.SIZE_LOG2.rng.act (newPool (v 1 0) BPM_POOL_CFG.SIZE_LOG2)
       2 ≤ 31 ∧ pool0.flagI uBPM BPM_POOL_CFG.EN 31 = false ∧ pool0.allocated 31 = [] ∧ size = 11
       ∧ (∀ c ∈ [0, 1, 2 ^ 20], ∀ h < 2, newPool (v c h) BPM_POOL_CFG.EN = 1 ∧ newPool (v c h) BPM_POOL_CFG.HOME = h
          ∧ newPool (v c h) BPM_POOL_CFG.COUNT = c)
       ∧ 2 ^ 30 < pool0.dramBytes 31 + 2 ^ 20 * 2 ^ size ∧ pool0.dramBytes 31 + 1 * 2 ^ size ≤ 2 ^ 30
       ∧ min (pool0.sharedFree 0) (pool0.poolFree 0) < onDieCells 1 size
       ∧ onDieCells 0 size ≤ min (pool0.sharedFree 0) (pool0.poolFree 0)) := by
  decide +kernel

/-- A spilled packet of VOQ 9, and one that waits behind `before` bytes of packets in cells. -/
def spilled : QPkt := { desc := { length := 64 }, loc := .spill [], joined := 0 }
def spillQ (before : Nat) : Dev :=
  { stashOf reqSpill pool0 with tm := { (stashOf reqSpill pool0).tm with voqs := [([9], { pkts := [{ spilled with desc := { length := before }, loc := .cells 0 }, spilled] })] } }

theorem witness_SpillwayAndQueues :
    (firstSpilled ((spillQ 64).queue (.voq 9)).pkts 0 = some (spilled, 64) ∧ 64 ≤ 16384
      ∧ firstSpilled ((spillQ 20000).queue (.voq 9)).pkts 0 = some (spilled, 20000) ∧ 16384 < 20000
      ∧ ((spillQ 64).storeBody reqSpill 0 [1] 1).2.isSome = true
      ∧ (spillQ 64).deadBlock 1 0 = false ∧ (spillQ 64).sidePoisoned true (blockAddr 0) = false ∧ ([(1, 0)] : List (Nat × Nat)).any (fun b => (spillQ 64).deadBlock b.1 b.2) = false
      ∧ (let d := (spillQ 64).set 516 DRC_STACK_STATUS.DEAD_MASK 1
         d.deadBlock 1 0 = true ∧ d.deadBlock 1 1 = false
         ∧ ([(1, 1), (1, 0)] : List (Nat × Nat)).any (fun b => d.deadBlock b.1 b.2) = true))
    ∧ (dev [(516, DRC_STACK_STATUS.ROTATING, 0, 1)]).rotatingLines ≠ (dev [(516, DRC_STACK_STATUS.ROTATING, 0, 1)]).get uSPW SPW_STATUS.ROTATING
    ∧ (dev [(516, DRC_STACK_STATUS.DEAD_MASK, 0, 1)]).shortLines ≠ (dev [(516, DRC_STACK_STATUS.DEAD_MASK, 0, 1)]).get uSPW SPW_STATUS.SHORT
    ∧ pool0.flagI uBPM BPM_POOL_STATUS.READY 0 = true
    ∧ (let c := cmd 0x301 [1, 0, 1]
       let s := cmd 0x301 [2, 0, 1]
       let r := cmd 0x307 [0, 0, 1]
       let d := fwd [svcOf uVOQ 1]
       c.accepted d 0x301 c.queueCfgParams ∧ d.svc uVOQ = sACTIVE ∧ s.par 0 1 0 = 2 ∧ r.accepted d 0x307 r.queueReadParams) := by
  decide +kernel

/-! ### Scheduling, meters, sluices and the sampler -/

/-- Egress queue 0 of port 0 holds one packet, and the active scheduler holds its turn. -/
def eq0 (age : Nat) (l : List (Nat × Fld × Nat × Nat) := []) : Dev :=
  let d := port lsUP ((uSCH, TMS_PORT_STATUS.HOLD_STATE, 0, hUP) :: l)
  { d with now := 100
           tm := { eqs := [([0], { pkts := [{ spilled with desc := { length := 64 }, loc := .cells 0 }], ageLimit := age })] }
           rid := { turns := [([d.activeSched, 0], ⟨1, 2 ^ 60, 0, false, none⟩)] } }

theorem witness_holdsEnd :
    (let d : Dev := { fwd [svcOf (fwd []).activeSched 1, (uSCH, TMS_PORT_STATUS.HOLD_STATE, 0, hHOLD)] with now := 2 ^ 60 }
       let h := cmd 0x306 [0, 1]
       h.accepted d 0x306 h.portHoldSetParams ∧ d.svc d.activeSched = sACTIVE ∧ h.par 0 6 0 = 0
       ∧ d.holdState 0 = hHOLD ∧ d.sch.holdStart.getD 0 [0] + h.par 4 13 0 * 1000000 ≤ d.now ∧ d.holdOver 0 = true) := by decide +kernel

theorem witness_SchedulerDecidesShapesAndHolds :
    (let d := (eq0 0).set (eq0 0).activeSched UF_STATE.SVC_STATE 1
     d.portInUse 0 = true ∧ d.mayCommit d.activeSched = true
     ∧ (∀ q ∈ d.portQueues 0, (d.headReady (.eq q)).all (fun k => !d.neverFits 0 (q % 8) k.desc) = true)
     ∧ (d.pickQueue 0).isSome = true ∧ ((d.pickQueue 0).bind (fun x => d.headReady (.eq x.1.q))).isSome = true
     ∧ (d.queue (.eq 0)).expired d.now = false ∧ (d.choose 5 [0]).isSome = true)
    ∧ ((dev []).node 1 0).sets = []
    ∧ (let d := fwd [svcOf (fwd []).activeSched 1]
       let n := cmd 0x302 [2, 0, 0, 1]
       let s := cmd 0x303 [1, 0]
       let r := cmd 0x303 [9, 0]
       let h := cmd 0x306 [0, 1]
       n.accepted d 0x302 n.nodeCfgParams ∧ d.svc d.activeSched = sACTIVE ∧ (fwd []).svc (fwd []).activeSched ≠ sACTIVE
       ∧ s.accepted d 0x303 s.shaperSetParams ∧ s.par 0 3 3 = 0 ∧ r.accepted d 0x303 r.shaperSetParams ∧ r.par 0 3 3 = 1
       ∧ h.accepted d 0x306 h.portHoldSetParams ∧ d.holdState 0 ≠ hHOLD)
    ∧ (let d := dev []
       let x := d.setNode 2 0 { d.node 2 0 with prio := 1 }
       d.slotTaken 2 1 (d.parentNode 2 1) 1 = false ∧ x.slotTaken 2 1 (d.parentNode 2 1) 1 = true
       ∧ d.slotTaken 2 0 5 1 = false ∧ 5 ≠ d.parentNode 2 0 ∧ d.nodeBusy 2 0 = false
       ∧ d.portOfNode 1 127 ≠ d.portOfNode 1 (d.parentNode 2 0)) := by decide +kernel

/-- A sluice list of one entry, pending or active at port 0. -/
def sl : SluiceList := ⟨[(255, 1000)], 1000, 50⟩
def sluice (x : Sluice) : Dev := { port 0 [svcOf uSLC 1] with now := 5000, sch := { sluices := [([0], x)] } }

theorem witness_MetersAndSluices :
    (let m : Meter := { mode := 1, pRate := 8 }; m.mode = 1 ∧ m.pRate ≠ 0 ∧ ((dev []).meter 7).sets = [] ∧ ((dev []).meter 7).mode = 0)
    ∧ (let c := cmd 0x304 [0]
       let r := cmd 0x304 [2 ^ 20]
       let d := fwd [svcOf uMTR 1]
       c.accepted d 0x304 c.meterSetParams ∧ c.par 0 20 20 = 0 ∧ r.accepted d 0x304 r.meterSetParams ∧ r.par 0 20 20 = 1
       ∧ d.svc uMTR = sACTIVE)
    ∧ (let x := cmd 0x305 [0x10080, 0, 0, 0, 1000] (leBytes 4 255 ++ leBytes 4 1000)
       let c := cmd 0x305 [0x10000, 0, 0, 0, 1000] (leBytes 4 255 ++ leBytes 4 1000)
       let d := sluice {}
       let e := cmd 0x305 [0x10000, 0, 0, 0, 1000]
       let good (d : Dev) (c : HCmd) : Prop :=
         c.accepted d 0x305 (d.sluiceLoadParams c) (readEntries c.block (c.par 2 10 0)).isSome ∧ c.readOk = true
       good d x ∧ x.par 0 7 7 = 1 ∧ good d c ∧ c.par 0 7 7 = 0 ∧ d.svc uSLC = sACTIVE ∧ (port 0).svc uSLC ≠ sACTIVE ∧ good (port 0) x
       ∧ e.readOk = true ∧ readEntries e.block (e.par 2 10 0) = none ∧ d.heldBack 0x305 e.ticket = false ∧ hdrBad e.ticket = none
       ∧ areaBad e.area (d.sluiceLoadParams e) = none ∧ d.agentBad e = none)
    ∧ (dev []).dram.lostRows = []
    ∧ (let i := (sluice {}).sluice 0
       let p := (sluice { pending := some (sl, 6000) }).sluice 0
       let a := (sluice { active := some sl }).sluice 0
       i.near 5000 = false ∧ i.state = 0 ∧ p.near 5000 = false ∧ 1 ≤ p.state ∧ p.state ≠ 2 ∧ a.near 5000 = false ∧ a.state = 2
       ∧ ({ pending := some (sl, 5001) } : Sluice).near 5000 = true)
    ∧ ((sluice { pending := some (sl, 50) }).sluice 0).pending = some (sl, 50) ∧ 50 ≤ (sluice {}).now
    ∧ ((sluice { active := some sl, stopAt := some 50 }).sluice 0).stopAt = some 50 ∧ 127 < 128 := by
  repeat' apply And.intro
  all_goals decide +kernel

/-- A page for agents and learn exports, posted to RXQ 0, which is enabled. -/
def exporting : Dev :=
  { dev [(uHIF, HIF_RING_STATE.STATE, ringIx kRXQ 0, rENABLED)] with
    now := 2000000, hif := { posted := [⟨0, (cmd 0x702 []).ticket, 4096, 0, 0⟩] }, fwd := { exports := [([0x41], ([leBytes 64 0], 0))] } }

theorem witness_SamplerTelemetryAndExports :
    (let d := dev [(uSMP, SMP_CFG.EN, 0, 1), (uSMP, SMP_CFG.CLUSTER_EN, 0, 0), (uSMP, SMP_CFG.HOST_EN, 0, 0), (uSMP, SMP_STATUS.SWEEP, 0, 1)]
     d.flag uSMP SMP_CFG.EN = true ∧ d.flag uSMP SMP_CFG.CLUSTER_EN = false ∧ d.flag uSMP SMP_CFG.HOST_EN = false
     ∧ d.get uSMP SMP_STATUS.POSITION < 1310720 ∧ d.stopped uSMP = false ∧ d.sch.bufs = [])
    ∧ (let d := dev [(uSMP, SMP_CFG.HOST_EN, 0, 1)]
       let b : SampleBuf := ⟨(cmd 1 []).ticket, 5, 2, 0x1000, 64, 0, 0, 1, 0⟩
       let e := d.setBufs [b]
       d.flag uSMP SMP_CFG.HOST_EN = true ∧ d.sch.bufs = [] ∧ e.flag uSMP SMP_CFG.HOST_EN = true ∧ e.sch.bufs = [b] ∧ b.sweep = 1
       ∧ b.first ≤ 5 ∧ 5 < b.first + b.count ∧ (b.written + 1) * 16 ≤ b.length ∧ 5 + 1 < b.first + b.count
       ∧ 6 < b.first + b.count ∧ 6 + 1 = b.first + b.count)
    ∧ (dev [(uSMP, SMP_STATUS.POSITION, 0, 1310720)]).get uSMP SMP_STATUS.POSITION = 1310720 ∧ (dev []).stopped uSMP = false
    ∧ (let d := fwd [svcOf uSMP 1]
       let r := cmd 0x308 [0, 1, 0x1000]
       let b := cmd 0x309 [0, 1, 0x1000, 0, 4096]
       let t := cmd 0x609 [0, 1, 0x1000]
       r.accepted d 0x308 r.sojournReadParams ∧ d.svc uSMP = sACTIVE ∧ b.accepted d 0x309 b.sampleStreamParams ∧ d.sch.bufs.length < 4
       ∧ t.accepted d 0x609 t.telemReadParams ∧ d.telem.window = 0)
    ∧ (max 1 ((dev []).get uSVC SVC_CFG.TELEM_SWEEPS) ≤ ({ dev [] with telem := { sweeps := 2 ^ 20 } } : Dev).telem.sweeps)
    ∧ (let d := exporting
       d.fwd.exports.get? [0x41] = some ([leBytes 64 0], 0) ∧ d.get uSVC SVC_CFG.LEARN_RXQ = 0
       ∧ d.ringState (ringIx kRXQ 0) = rENABLED ∧ d.postedTo 0 = some ⟨0, (cmd 0x702 []).ticket, 4096, 0, 0⟩
       ∧ 0 + 1000000 ≤ d.now) := by
  repeat' apply And.intro
  all_goals decide +kernel

/-! ### The fabric -/

/-- Fabric link 0 in a state, 10 minutes after reset and more, with what else it holds. -/
def link (ls : Nat) (x : FabLink := {}) (l : List (Nat × Fld × Nat × Nat) := []) : Dev :=
  { fwd ([(uZFP, ZFP_DEV_CFG.EN, 0, 1), (uLNK 0, ZFP_LINK_STATUS.LINK_STATE, 0, ls), (uLNK 0, ZFP_LINK_REACH.VECTOR, 0, 2)] ++ l) with
    now := 2 ^ 50, fab := { links := [([0], x)], remote := [([1], ⟨0, 1, 0⟩)] } }

/-- A cell of one slice whose payload begins with two bytes, for a link that expects LSEQ 0. -/
def cell (kind ctl b1 : Nat) (ackValid nak unseq : Bool) : List Byte :=
  cellBytes { kind := kind, payload := leBytes 1 ctl ++ leBytes 1 b1 ++ leBytes 30 0 } 0 0 ackValid nak unseq

theorem witness_FabricLinksFollowTheirMachine :
    (0 < 160 ∧ (link fDISABLED).linkSt 0 = fDISABLED ∧ (link fDISABLED).flag uZFP ZFP_DEV_CFG.EN = true ∧ (link fUP).linkSt 0 = fUP
      ∧ (link fUP).linkSt 0 ≠ fDISABLED ∧ (link fTRAINING).linkSt 0 = fTRAINING ∧ (link fALIGNING).linkSt 0 = fALIGNING
      ∧ (link fALIGNING).pllStopped 791 = false ∧ (link fALIGNING {} [(791, CLK_PLL_STATUS.HOLDOVER, 0, 1)]).pllStopped 791 = true
      ∧ (link fINIT).linkSt 0 = fINIT ∧ (link fINIT).linkSt 0 ≠ fUP ∧ (link fDISABLED).stopped (uLNK 0) = false
      ∧ (link fDISABLED {} [svcOf (uLNK 0) 5]).stopped (uLNK 0) = true)
    ∧ (let b := cell 2 6 1 false false true
       cellCrcOk b = true ∧ (readCell b).kind = 2 ∧ (readCell b).ctl = 6 ∧ bit (leAt b 10 1) 2 = true
       ∧ leAt (readCell b).payload 1 1 = 1 ∧ leAt (readCell (cell 2 6 0 false false true)).payload 1 1 ≠ 1)
    ∧ (let b := cell 2 3 0 false false false
       cellCrcOk b = true ∧ (readCell b).kind = 2 ∧ (readCell b).ctl = 3 ∧ bit (leAt b 10 1) 2 = false
       ∧ ((link fINIT { initSeen := true }).fabLink 0).initSeen = true)
    ∧ (let d := link fUP { reachLost := false }
       ((link fUP { timedOut := true }).fabLink 0).timedOut = true
       ∧ (d.fabLink 0).reachLost = false ∧ (d.fabLink 0).reachAt + d.act uZFP ZFP_DEV_CFG.REACH_TIMEOUT_US * 1000 ≤ d.now)
    ∧ (let d := link fINIT
       (d.fabLink 0).since + d.trainLimit 0 ≤ d.now ∧ (d.fabLink 0).attempt < d.act (uLNK 0) ZFP_LINK_CFG.TRAIN_ATTEMPTS
       ∧ d.act (uLNK 0) ZFP_LINK_CFG.TRAIN_ATTEMPTS ≤ ((link fINIT { attempt := 255 }).fabLink 0).attempt)
    ∧ (let d := link fFAILED {}
       d.linkSt 0 = fFAILED ∧ (d.fabLink 0).failedAt = none
       ∧ (d.fabLink 0).since + d.act (uLNK 0) ZFP_LINK_CFG.RETRY_MS * 1000000 ≤ d.now)
    ∧ (2 ≤ 4 ∧ 1 + (recentDeaths (link fUP).now ((link fUP).fabLink 0).deaths).length < (link fUP).act uZFP ZFP_DEV_CFG.DEATH_MAX
      ∧ (let d := link fUP { deaths := List.replicate 255 (2 ^ 50) }
         d.act uZFP ZFP_DEV_CFG.DEATH_MAX ≤ 1 + (recentDeaths d.now (d.fabLink 0).deaths).length))
    ∧ (let d := link fFAILED { failedAt := some 0 } [(0, HDL_STATUS.HEADLESS, 0, 1), (0, HDL_CFG.FAB_RETIRE, 0, 1)]
       (d.fabLink 0).failedAt = some 0 ∧ d.flag 0 HDL_STATUS.HEADLESS = true ∧ d.flag 0 HDL_CFG.FAB_RETIRE = true
       ∧ d.linkSt 0 = fFAILED ∧ 0 + 600000000000 ≤ d.now) := by decide +kernel

/-- One held cell with this SEQ, a whole packet. -/
def heldCell (seq : Nat) : HeldCell := ⟨{ kind := 1, seq := seq, first := true, last := true, payload := leBytes 32 0 }, 0, 0⟩

/-- A multicast packet of group 3 at the turnout, whose egress group holds one member. -/
def turnout (valid : Bool) : Dev :=
  { dev [] with fab := { turnout := [⟨3, {}, 0⟩], groups := [([3], { egrValid := valid })], egrGroups := [([0], { count := 1 })] } }

theorem linkSt_congr {a b : Dev} {n : Nat} (h : b.fields.get? (ZFP_LINK_STATUS.LINK_STATE.key (uLNK n) 0)
    = a.fields.get? (ZFP_LINK_STATUS.LINK_STATE.key (uLNK n) 0)) : b.linkSt n = a.linkSt n := Dev.getI_congr h

theorem linkSt_noted {a b : Dev} (n : Nat) (h : a.Noted b) : b.linkSt n = a.linkSt n := h.get (noteKey_of _ _ _ (by decide))

theorem linkSt_raise (d : Dev) (n un ty : Nat) (p : List Byte) : (d.raise un ty p).linkSt n = d.linkSt n :=
  linkSt_noted n (Dev.noted_raise d un ty p)

theorem linkSt_set (d : Dev) (n un : Nat) {f : Fld} (v : Nat) (h : f.off ≠ ZFP_LINK_STATUS.LINK_STATE.off) :
    (d.set un f v).linkSt n = d.linkSt n :=
  Dev.get_set_ne (fun e => h (Fld.key_eq_iff.1 e).2.1.symm)

theorem linkSt_foldl {α : Type} (f : Dev → α → Dev) (n : Nat) (h : ∀ d x, (f d x).linkSt n = d.linkSt n) (l : List α) (d : Dev) :
    (l.foldl f d).linkSt n = d.linkSt n := by
  induction l generalizing d with
  | nil => rfl
  | cons x l ih => rw [List.foldl_cons, ih, h]

theorem linkSt_setFigure (d : Dev) (n un : Nat) (o : Option Nat) : (d.setFigure un o).linkSt n = d.linkSt n := by
  refine linkSt_foldl _ n (fun d x => ?_) _ _
  unfold Dev.announce
  split
  · rfl
  · rw [linkSt_raise]; exact linkSt_set _ _ _ _ (by decide)

theorem linkSt_showCapacity (d : Dev) (n : Nat) : d.showCapacity.linkSt n = d.linkSt n := by
  unfold Dev.showCapacity
  extract_lets d1 d2 full m d3 ppm old d4
  have h2 : d2.linkSt n = d.linkSt n := (linkSt_set _ _ _ _ (by decide)).trans (linkSt_set _ _ _ _ (by decide))
  have h3 : d3.linkSt n = d.linkSt n := by
    dsimp only [d3]
    split <;> exact h2
  have h4 : d4.linkSt n = d.linkSt n := (linkSt_set _ _ _ _ (by decide)).trans h3
  split
  · exact h4
  · have h5 : ((d4.set uZFP ZFP_STATUS.CAPACITY_PPM ppm).raise uZFP 0x10 (leBytes 1 m ++ leBytes 4 ppm)).linkSt n = d.linkSt n :=
      (linkSt_raise ..).trans ((linkSt_set _ _ _ _ (by decide)).trans h4)
    split
    · exact (linkSt_raise ..).trans h5
    · exact (linkSt_setFigure ..).trans h5

/-- Showing the reach and the capacity changes the state of no link. -/
theorem linkSt_showReach (d : Dev) (n before : Nat) : (d.showReach before).linkSt n = d.linkSt n := by
  unfold Dev.showReach
  extract_lets now d1
  refine (linkSt_showCapacity _ _).trans (linkSt_foldl _ n (fun d x => ?_) _ _)
  dsimp only
  split
  · exact linkSt_raise ..
  · split
    · exact linkSt_raise ..
    · rfl

/-- A NAK of a cell already sent 255 times takes link 0 down. -/
theorem witness_takeNak_leaves : ((link fUP { held := [⟨{ kind := 0 }, 0, 255, 0⟩] }).takeNak 0 0).linkSt 0 ≠ fUP := by
  unfold Dev.takeNak
  extract_lets x d held d'
  rw [show held = [⟨{ kind := 0 }, 0, 255, 0⟩] by decide +kernel]
  dsimp only
  rw [if_pos (by decide +kernel)]
  unfold Dev.leaveUp
  rw [linkSt_showReach]
  decide +kernel

theorem witness_CellsAndPacketsAreRebuilt :
    (let c : Cell := { kind := 3, dest := 1023, cls := 7, src := 1023, first := true, last := true, seq := 65535, group := 65535,
                       resync := true, epoch := 255, payload := List.replicate 256 255 }
     c.kind < 4 ∧ c.dest < 1024 ∧ c.cls < 8 ∧ c.src < 1024 ∧ c.seq < 65536 ∧ c.group < 65536 ∧ c.epoch < 256 ∧ 255 < 256
     ∧ c.payload.length = 32 * 8)
    ∧ (let b := cell 0 0 0 false false false
       (link fUP).linkSt 0 = fUP ∧ cellCrcOk b = true ∧ bit (leAt b 10 1) 0 = false ∧ bit (leAt b 10 1) 2 = false
       ∧ leAt b 8 1 = ((link fUP).fabLink 0).rxSeq ∧ leAt b 8 1 ≠ ((link fUP { rxSeq := 1 }).fabLink 0).rxSeq)
    ∧ (bit (leAt (cell 0 0 0 false false true) 10 1) 2 = true ∧ bit (leAt (cell 0 0 0 false false true) 10 1) 0 = false)
    ∧ (let b := cell 0 0 0 true true false
       let d := link fUP { held := [⟨{ kind := 0 }, 0, 255, 0⟩] }
       isNak b = true ∧ bit (leAt b 10 1) 0 = true ∧ bit (leAt b 10 1) 1 = true ∧ leAt b 9 1 = 0
       ∧ ((link fUP).takeNak 0 (leAt b 9 1)).linkSt 0 = fUP ∧ acked ((link fUP).fabLink 0).held 0 ((link fUP).fabLink 0).txSeq true = []
       ∧ acked (d.fabLink 0).held 0 (d.fabLink 0).txSeq true = [⟨{ kind := 0 }, 0, 255, 0⟩] ∧ d.act uZFP ZFP_DEV_CFG.RETRY_MAX ≤ 255
       ∧ 0 < d.act uZFP ZFP_DEV_CFG.RETRY_MAX)
    ∧ ((link fUP).fabLink 0).naked = false ∧ (link fUP {} [(uZFP, ZFP_DEV_CFG.DEVICE_ID, 0, 1023)]).deviceId = 1023
    ∧ ((link fUP { rxSeq := 255 }).fabLink 0).rxSeq < 256
    ∧ (let b := cell 2 0 0 true true true; cellCrcOk b = true ∧ isNak b = true ∧ bit (leAt b 10 1) 2 = true)
    ∧ ([⟨{ kind := 0 }, 4, 0, 0⟩, ⟨{ kind := 0 }, 5, 0, 0⟩] : List Held).findIdx? (fun h => h.lseq == 5) = some 1
    ∧ ([⟨{ kind := 0 }, 4, 0, 0⟩, ⟨{ kind := 0 }, 5, 0, 0⟩] : List Held).findIdx? (fun h => h.lseq == 6) = none
    ∧ (((link fUP { ackDue := some 0 }).fabLink 0).ackDue = some 0 ∧ 0 + 100 ≤ (link fUP).now)
    ∧ (let d := link fUP { held := [⟨{ kind := 0 }, 4, 0, 0⟩] }
       (d.fabLink 0).held = [⟨{ kind := 0 }, 4, 0, 0⟩] ∧ 0 + d.act uZFP ZFP_DEV_CFG.RETRY_TIMEOUT_NS ≤ d.now
       ∧ 0 < d.act uZFP ZFP_DEV_CFG.RETRY_MAX ∧ d.act uZFP ZFP_DEV_CFG.RETRY_MAX ≤ 255)
    ∧ (let d := { dev [] with now := 2 ^ 50, fab := { ctxs := [([1, 0], { held := [heldCell 9] })],
                                                      mctxs := [([1, 0], { held := [heldCell 9] })] } }
       (d.ctx 1 0).lowest = some (heldCell 9)
       ∧ (∃ h ∈ (d.ctx 1 0).held, h.at_ + d.act uRSQ RSQ_CFG.TIMEOUT_US * 1000 ≤ d.now)
       ∧ (d.heldRuns 1 0).find? d.runExpired = some [heldCell 9] ∧ runWhole [heldCell 9] = true ∧ d.heldRuns 1 0 = [[heldCell 9]]
       ∧ runWhole [{ heldCell 9 with cell := { kind := 1, payload := [] } }] = false)
    ∧ (let c : Cell := { kind := 0, first := true, last := true }
       c.first = true ∧ takeFirst c [] = .whole [c] []
       ∧ (({ dev [] with fab := { ctxs := [([1, 0], { out := [(c, false)] })] } } : Dev).anyCtx 1 0 false).out = [(c, false)])
    ∧ ((turnout true).fab.turnout = [⟨3, {}, 0⟩] ∧ ((turnout true).mcGroup 3).egrValid = true
      ∧ ((turnout false).mcGroup 3).egrValid = false
      ∧ ((turnout true).turnoutReads 3).any ((turnout true).sideDead true) = false
      ∧ (let d := turnout true
         let e := (List.range 64).foldl (fun d c => d.setI (uSTK (4 + c / 16)) DRC_CH_MAP.DEAD (c % 16) 1) d
         (e.turnoutReads 3).any (e.sideDead true) = true)) := by
  repeat' apply And.intro
  all_goals decide +kernel

/-- One packet of 64 bytes in VOQ 1032, for class 0 of port 1 of device 1, or 0, for port 0 of this device. -/
def voq (l : List (Nat × Fld × Nat × Nat) := []) : Dev :=
  { link fUP { reachLost := false } ([(uPort 0, PRT_MODE.OCTET_MODE, 0, 1), (uSCH, TMS_PORT_STATUS.HOLD_STATE, 0, hUP), svcOf uCRD 1,
      (uZFP, ZFP_MC_CFG.MC_RATE_LO, 0, 100), (uZFP, ZFP_MC_CFG.MC_HI_CLASS, 0, 4)] ++ l) with
    rid := { turns := [([uCRD, 0], ⟨1, 2 ^ 60, 0, false, none⟩)] }
    tm := { voqs := [([1032], { pkts := [{ desc := { length := 64 }, loc := .cells 0, joined := 0 }] })] } }

theorem witness_CreditsAndGroups :
    (voq.ctrlReaches 1 = true ∧ voq.voqsOf 1 = [1032] ∧ (voq.entryDue 1032).isSome = true ∧ voq.fab.wants = [])
    ∧ (voq.wantOf 1032 = some 1
      ∧ ({ voq with fab := { voq.fab with wants := [([1032], ⟨1, 0⟩)] } } : Dev).fab.wants.get? [1032] = some ⟨1, 0⟩
      ∧ voq.ctrlReaches (1032 / 1024) = true ∧ 0 + voq.act uCRD CRD_CFG.REFRESH_US * 1000 ≤ voq.now)
    ∧ (let d := { voq with fab := { voq.fab with reqs := [([0, 1, 0], 5)] } }
       d.portInUse 0 = true ∧ d.holdState 0 = hUP ∧ d.mayCommit uCRD = true ∧ d.fab.grantAt.getD 0 [0] ≤ d.now * 65536
       ∧ (d.pickClass 0).isSome = true ∧ (Dev.issueCredits 105 d 0).2 ≠ []
       ∧ d.now * 65536 < ({ d with fab := { d.fab with grantAt := [([0], 2 ^ 70)] } } : Dev).fab.grantAt.getD 0 [0])
    ∧ (∀ e ∈ [(3, 15)], e.2 ≤ 15) ∧ (List.range 105).length ≤ 105
    ∧ (∀ x ∈ [(2, 1), (2, 2), (3, 4)], let b := cell x.1 x.2 0 false false false
       cellCrcOk b = true ∧ bit (leAt b 10 1) 0 = false ∧ bit (leAt b 10 1) 2 = false ∧ leAt b 8 1 = (voq.fabLink 0).rxSeq
       ∧ (readCell b).kind = x.1 ∧ (readCell b).ctl = x.2)
    ∧ (127 < 128 ∧ 7 < 8 ∧ 2 ^ 20 - 1 < 2 ^ 20) ∧ (voq.fab.remote.get? [2] = none ∧ 2 ≠ voq.deviceId)
    ∧ (allLinks.filter (fun n => voq.linkSt n == fUP) ≠ [] ∧ voq.fab.stateSeq = 0)
    ∧ (let q := voq.queue (.voq 1032)
       let d := voq.setQueue (.voq 1032) { q with credit := 1 }
       (d.voqHead 1032).isSome = true ∧ (d.queue (.voq 1032)).expired d.now = false ∧ 1032 / 1024 ≠ d.deviceId)
    ∧ (let d : Dev := { voq [(uZFP, ZFP_DEV_CFG.DEVICE_ID, 0, 1)] with
         tm := { voqs := [([1024], { pkts := [{ desc := { length := 64 }, loc := .cells 0, joined := 0 }], credit := 1 })] } }
       (d.voqHead 1024).isSome = true ∧ (d.queue (.voq 1024)).expired d.now = false ∧ 1024 / 1024 = d.deviceId)
    ∧ (let r : QRef := .voq (voq.mcVoq 0)
       let d := voq.setQueue r { pkts := [{ desc := { length := 64, group := some 3 }, loc := .cells 0, joined := 0 }] }
       0 < 8 ∧ d.mcRate (d.mcClass 0) ≠ 0 ∧ d.fab.mcAt.getD 0 [d.mcClass 0] ≤ d.now * 65536 ∧ (d.queue r).expired d.now = false
       ∧ ((d.headReady r).bind (fun h => h.desc.group)) = some 3)
    ∧ (let d := { dev [] with rid := { watch := [([99], { state := .declared, taker := some 99 })] } }
       (d.watchOf 99).state = .declared ∧ (d.watchOf 99).taker = some 99 ∧ d.guardPassed 99 = true)
    ∧ (let d := fwd [svcOf uZFP 1, svcOf uTRN 1]
       let m := cmd 0x801 [3, 0, 0x1000] (leBytes 128 2)
       let g := cmd 0x803 [3, 1, 0, 0, 0x1000] (leBytes 4 1)
       let r := cmd 0x802 [1, 2, 0x1000]
       let mr := cmd 0x801 [3 + 2 ^ 16, 0, 0x1000]
       let gr := cmd 0x803 [3 + 2 ^ 17, 0, 0, 0, 0x1000]
       mr.accepted d 0x801 mr.fabMcGroupSetParams ∧ mr.par 0 16 16 = 1 ∧ mr.par 0 17 17 = 0
       ∧ gr.accepted d 0x803 gr.fabEgrGroupSetParams ∧ gr.par 0 17 17 = 1 ∧ gr.par 0 18 18 = 0
       ∧ d.fabReady = true ∧ m.readOk = true ∧ m.accepted d 0x801 m.fabMcGroupSetParams ∧ m.par 0 16 16 = 0 ∧ g.accepted d 0x803 g.fabEgrGroupSetParams
       ∧ g.par 0 17 17 = 0 ∧ g.readOk = true ∧ (List.range (g.par 4 12 0)).any (fun q => bit (leAt g.block (4 * q) 4) 31) = false
       ∧ r.accepted d 0x802 r.fabReachQueryParams) := by
  repeat' apply And.intro
  all_goals decide +kernel

/-! ### Stacked memory -/

/-- Stack 0 is up, channel `c` of it in service state `s`, with what it holds. -/
def stk (x : Stack) (l : List (Nat × Fld × Nat × Nat) := []) : Dev :=
  { dev l with now := 2 ^ 50, dram := { stackTab := [([0], x)] } }
def rot (t : Bool) : Rotation := { trigger := 0, x := 1, p := 16, training := t }

theorem witness_StackedMemory :
    (classOf 520 = 0x41 ∧ (dev [svcOf 520 1]).liveChannel 520 = true ∧ 7 < 8)
    ∧ (2 ^ 34 - 1 < 2 ^ 34 ∧ portOfSide false 3 = true ∧ portOfSide true 7 = true ∧ portOfSide true 8 = true ∧ 2 ≤ 2 ∧ (dev [(uSTK 0, DRC_CH_MAP.DEAD, 0, 1)]).flagI (uSTK 0) DRC_CH_MAP.DEAD (sideChannel false 0 % 16) = true
      ∧ (dev []).flagI (uSTK 0) DRC_CH_MAP.DEAD (sideChannel false 0 % 16) = false)
    ∧ (((stk {}).stack 0).ces.get? [5] = none ∧ ((stk { ces := [([5], ⟨3, 2, 1⟩)] }).stack 0).ces.get? [5] = some ⟨3, 2, 1⟩
      ∧ 3 = 3999999999 / 1000000000 ∧ 3 + 1 = 4000000000 / 1000000000 ∧ 3 + 1 < 5000000000 / 1000000000 ∧ 7 < 8)
    ∧ ((dev []).bufferAt 2048 = some (1, 1) ∧ (dev []).tm.owners.get? [1, 1] = none ∧ ((dev []).freeList 1 1).cache.contains 1 = false)
    ∧ (dev []).sideDead true (2 ^ 34 - 1) = false
    ∧ (dev []).act (uSTK 0) DRC_STACK_CFG.SCRUB_HOURS ≠ 0 ∧ (classOf 520 = 0x41 ∧ parentOf 520 < 516 ∧ 3 < 4)
    ∧ (classOf 655 = 0x41 ∧ 516 ≤ parentOf 655 ∧ 4 ≤ 7 ∧ 7 < 8)
    ∧ (let d := stk { up := true } [(uSTK 0, DRC_STACK_STATUS.SPARE_PHYS, 0, 16), (uSTK 0, DRC_STACK_CFG.ROT_PERIOD_S, 0, 1)]
       d.triggered 0 0 0 = true ∧ d.mayRotate 0 0 = true ∧ d.sideRotating 0 = false ∧ d.dram.waiting = []
       ∧ (d.oldestTrained 0 16 []).isSome = true)
    ∧ (let d := stk { up := true, begun := true, ces := [([3], ⟨2 ^ 50 / 1000000000, 0, 2 ^ 32⟩)] } [(uSTK 0, DRC_STACK_STATUS.SPARE_PHYS, 0, 16),
         (uSTK 0, DRC_STACK_CFG.TRIG_EN, 0, 1), (uSTK 0, DRC_STACK_STATUS.TEMP_C, 0, 100)]
       d.triggered 0 1 0 = true ∧ d.triggered 0 2 3 = true ∧ d.mayRotate 0 1 = true ∧ d.mayRotate 0 2 = true ∧ d.sideRotating 0 = false
       ∧ d.dram.waiting = [] ∧ 3 ≠ 16 ∧ (d.logicalOf 0 3).isSome = true)
    ∧ (let d := { stk { up := true } [(uSTK 0, DRC_STACK_STATUS.SPARE_PHYS, 0, 16), (uSTK 1, DRC_STACK_STATUS.SPARE_PHYS, 0, 16)] with
         dram := { stackTab := [([0], {}), ([1], { up := true })] } }
       (d.triggered 0 0 0 && d.mayRotate 0 0) = false ∧ d.triggered 1 0 0 = true ∧ d.mayRotate 1 0 = true)
    ∧ ((stk {}).stack 0).rot = none
    ∧ (let d := stk { rot := some (rot false) }
       (d.stack 0).rot = some (rot false) ∧ d.svc (uCHN 0 16) ≠ sSHADOW ∧ 16 < 17 ∧ 1 < 17 ∧ 16 ≠ 1)
    ∧ (((stk { resume := some (0, 0, 5) }).stack 0).resume = some (0, 0, 5)
      ∧ ((stk { resume := some (4, 16, 5) }).stack 0).resume = some (4, 16, 5) ∧ 5 ≤ (stk {}).now ∧ ((stk {}).stack 0).untrained = none)
    ∧ (let d := stk { rot := some (rot true), up := true }
       classOf (uCHN 0 1) = 0x41 ∧ 100 ≤ 100 ∧ d.get (uSTK 0) UF_STATE.SLEEP_STATE ≠ 2 ∧ d.rid.tests.get? [uCHN 0 1] = none
       ∧ (d.stack 0).up = true ∧ (d.stack 0).rot = some (rot true) ∧ (rot true).x = physOf (uCHN 0 1))
    ∧ (let d := stk { ues := [([0], List.replicate 255 (2 ^ 50))] } [svcOf 520 1]
       d.svc 520 = sACTIVE
       ∧ d.act (uSTK 0) DRC_STACK_CFG.UE_FAIL_TH ≤ (((d.stack 0).ues.getD [] [0]).filter (fun t => decide (d.now < t + 1000000000))).length)
    ∧ (let d := dev [svcOf 520 1, svcOf 536 2, (uSTK 0, DRC_STACK_STATUS.SPARE_PHYS, 0, 16)]
       d.svc 520 = sACTIVE ∧ d.logicalOf 0 (physOf 520) = some 0 ∧ d.svc (uCHN 0 16) = sSPARE
       ∧ (dev []).svc (uCHN 0 16) ≠ sSPARE)
    ∧ (let d := dev [(0, PWR_CTRL.STBY_STATE, 0, 1)]
       let e := dev [(0, PWR_CTRL.STBY_STATE, 0, 3), (uSTK 0, UF_STATE.SLEEP_STATE, 0, 2)]
       d.get 0 PWR_CTRL.STBY_STATE = 1 ∧ d.get (uSTK 0) UF_STATE.SLEEP_STATE ≠ 2 ∧ e.get 0 PWR_CTRL.STBY_STATE = 3
       ∧ e.get (uSTK 0) UF_STATE.SLEEP_STATE = 2)
    ∧ (let d := dev [(uSTK 0, DRC_STACK_STATUS.DEAD_MASK, 0, 4)]
       d.deadF.find? (fun c => !d.dram.remapped.contains c) = some 2) := by
  repeat' apply And.intro
  all_goals decide +kernel

/-! ### Ditch riders -/

/-- The device at 1 ms with a unit's watch and its own turn. -/
def ridden (un : Nat) (w : Watch) (t : Option Turn) (l : List (Nat × Fld × Nat × Nat)) : Dev :=
  { dev l with now := 1000000, rid := { watch := [([un], w)], turns := (t.map (fun t => ([un, 0], t))).toList } }

theorem witness_RidersSuperviseUnits :
    (let d := ridden 32 {} none [svcOf 32 1]
     holdsTurns 32 = true ∧ d.flag (riderOf 32) RID_STATUS.FAILED = false ∧ d.svc 32 = sACTIVE ∧ (d.watchOf 32).state ≠ .declared
     ∧ d.turn 32 0 = none ∧ (ridden 32 {} (some ⟨1, 5, 0, true, none⟩) []).turn 32 0 = some ⟨1, 5, 0, true, none⟩)
    ∧ (let d := ridden 32 { state := .declared, taker := some 36, awaiting := true } none [svcOf 32 6, svcOf 36 2]
       d.svc 36 = sSPARE ∧ d.failedOf 36 = some 32 ∧ classOf 36 = 0x11)
    ∧ (let half := (dev []).turnLen 8 / 2
       let t (last : Nat) : Turn := ⟨1, 1000001, last, false, none⟩
       let d (last : Nat) := ridden 32 {} (some (t last)) [svcOf 32 1]
       (d 0).turn 32 0 = some (t 0) ∧ (d 0).isWatched 32 = true ∧ ((d 0).endWindow 32).watchOf 32 = {} ∧ 2 < 3
       ∧ ∀ last ∈ [1000000 - half, 999999 - half], ((d last).watchOf 32).state ≠ .declared ∧ (d last).stopped 32 = false
         ∧ (d last).flag (riderOf 32) RID_STATUS.FAILED = false ∧ (t last).current (d last).now = true ∧ (d last).now = 1000000
         ∧ (d last).turnLen (riderOf 32) / 2 = half)
    ∧ (let d := ridden 32 { state := .suspect, inputs := 1, windowEnd := 1000000 } (some ⟨1, 1000001, 0, false, none⟩) [svcOf 32 1]
       (d.watchOf 32).state = .suspect ∧ (d.watchOf 32).windowEnd ≤ d.now ∧ d.isWatched 32 = true
       ∧ ((d.endWindow 32).watchOf 32).state = .watched)
    ∧ (let t : Turn := ⟨1, 1000000, 0, false, none⟩
       ∀ k ∈ [0, 36], let d := { ridden 32 {} none [] with rid := { turns := [([32, k], t)] } }
         d.turnKinds 32 = [k] ∧ d.turn 32 k = some t ∧ t.lapsed = false ∧ t.expiry ≤ d.now)
    ∧ (let w : Watch := { state := .suspect, inputs := 1, windowEnd := 1000001 }
       let d := ridden 32 w (some ⟨1, 1000001, 0, false, none⟩) [svcOf 32 1]
       d.isWatched 32 = true ∧ (d.watchOf 32).state = .suspect ∧ d.now < (d.watchOf 32).windowEnd
       ∧ ((d.endWindow 32).watchOf 32).state = .suspect ∧ bit ((d.endWindow 32).watchOf 32).inputs 1 = false
       ∧ bit ((d.endWindow 32).watchOf 32).inputs 0 = true)
    ∧ (let d := ridden 32 { state := .suspect, windowEnd := 1000000 } none []
       (d.watchOf 32).state = .suspect ∧ (d.watchOf 32).windowEnd ≤ d.now)
    ∧ (let d := { ridden 32 { state := .declared, taker := some 36, awaiting := true } (some ⟨1, 999500, 0, false, none⟩) [svcOf 36 1] with
                  fwd := { windows := [([32], [pkt])] } }
       (d.inOrder 32).length = 1 ∧ (ridden 32 {} (some ⟨1, 999501, 0, false, none⟩) []).guardPassed 32 = false
       ∧ (d.watchOf 32).state = .declared ∧ (d.watchOf 32).awaiting = true ∧ d.guardPassed 32 = true ∧ (d.watchOf 32).taker = some 36
       ∧ d.svc 36 = sACTIVE ∧ classOf 32 = 0x11)
    ∧ (let d := ridden 32 { state := .declared, taker := some 36 } none []
       (d.watchOf 32).state = .declared ∧ (d.watchOf 32).awaiting = false ∧ (d.watchOf 32).open_ = [] ∧ (d.watchOf 32).taker = some 36)
    ∧ (let d := ridden 80 { state := .declared, taker := some 88 } none [svcOf 88 2]
       classOf 80 = 0x19 ∧ (d.watchOf 80).state = .declared ∧ (d.watchOf 80).taker = some 88 ∧ d.guardPassed 80 = true ∧ d.svc 88 = sSPARE)
    ∧ (let d := ridden 97 { state := .declared, taker := some 98 } none [svcOf 98 2, (97, TMS_PAIR.ACTIVE_UN, 0, 97)]
       d.activeSched = 97 ∧ (d.watchOf 97).state = .declared ∧ (d.watchOf 97).taker = some 98 ∧ d.guardPassed 97 = true
       ∧ d.svc 98 = sSPARE)
    ∧ (let d := dev [(8, RID_STATUS.COPIES_OK, 0, 7)]
       classOf 8 = 0x05 ∧ 2 < 3 ∧ bit (d.get 8 RID_STATUS.COPIES_OK) 2 = true ∧ d.flag 8 RID_STATUS.FAILED = false
       ∧ d.flag 8 RID_STATUS.DUPLEX = false ∧ (dev [(8, RID_STATUS.DUPLEX, 0, 1)]).flag 8 RID_STATUS.DUPLEX = true
       ∧ d.rid.resync.get? [8, 2] = none
       ∧ (let e : Dev := { d with rid := { resync := [([8, 2], 0)] } }
          e.rid.resync.get? [8, 2] = some 0 ∧ ({ e with now := 999999999 } : Dev).now < 0 + 1000000000
          ∧ 0 + 1000000000 ≤ ({ e with now := 1000000000 } : Dev).now)) := by
  repeat' apply And.intro
  all_goals decide +kernel

/-! ### The host interface -/

/-- Ring 0 of a kind in a state, with 16 entries, its completion queue enabled. -/
def ring (kind state : Nat) (l : List (Nat × Fld × Nat × Nat) := []) : Dev :=
  { fwd ([(uHIF, HIF_STATUS.FW_READY, 0, 1), (uHIF, HIF_RING_STATE.STATE, ringIx kCQ 0, rENABLED), (uHIF, HIF_RING_CFG.SIZE_LOG2, ringIx kCQ 0, 4),
      (uHIF, HIF_RING_STATE.STATE, ringIx kind 0, state), (uHIF, HIF_RING_CFG.SIZE_LOG2, ringIx kind 0, 4),
      (uHIF, HIF_RING_SEL.KIND, 0, kind)] ++ l) with now := 100000 }

/-- A descriptor of a chain that has taken effect: its NEXT is `a`. -/
def chained (a : Nat) : Ticket := ⟨.ring 0 0, leBytes 4 1 ++ leBytes 1 4 ++ leBytes 3 0 ++ leBytes 8 a ++ leBytes 48 0⟩

theorem witness_HostLinkAndRings :
    (let d := { dev [] with now := 2 ^ 50, hdl := { alive := some 0 } }
     d.hdl.alive = some 0 ∧ d.act 0 HDL_CFG.TIMEOUT_S ≠ 0 ∧ 0 + 1000000000 * d.act 0 HDL_CFG.TIMEOUT_S ≤ d.now ∧ d.now < 2 ^ 64
     ∧ d.flag 0 HDL_STATUS.HEADLESS ≠ true ∧ (dev [(0, HDL_STATUS.HEADLESS, 0, 1)]).flag 0 HDL_STATUS.HEADLESS ≠ false)
    ∧ ((cmd 4 []).accepted (dev []) 4 [] ∧ 1 ≠ 2)
    ∧ ((ring kSQ rDISABLED).selRing = some (kSQ, 0) ∧ (ring kSQ rDISABLED).ringState (ringIx kSQ 0) = rDISABLED
      ∧ (ring kSQ rDISABLED).ringReady kSQ (ringIx kSQ 0) = true ∧ kSQ ≠ kRXQ
      ∧ (ring kSQ rDISABLED).flag 0 FW_STATUS.RECOVERY = false
      ∧ (ring kSQ rDISABLED [(0, FW_STATUS.RECOVERY, 0, 1)]).flag 0 FW_STATUS.RECOVERY = true
      ∧ (ring kSQ rENABLED).ringState (ringIx kSQ 0) = rENABLED ∧ (ring kSQ rENABLED).ringState (ringIx kSQ 0) ≠ rDISABLED
      ∧ (ring kSQ rERROR).ringState (ringIx kSQ 0) = rERROR ∧ (ring kSQ rERROR).sqBusy 0 = false
      ∧ (ring kSQ rDISABLED).ringState (ringIx kSQ 0) ≠ rERROR)
    ∧ (0 < 4096 ∧ (ring kSQ rDISABLING).ringState (ringIx kSQ 0) = rDISABLING ∧ (ring kSQ rDISABLING).sqBusy 0 = false)
    ∧ (∀ k ∈ [kSQ, kCQ, kEQ], 0 < ringCount k ∧ (ring k rENABLED).ringState (ringIx k 0) = rENABLED)
    ∧ (4095 < ringCount kSQ ∧ 1023 < ringCount kCQ ∧ 63 < ringCount kEQ ∧ bar2Ring 0xA200 = none ∧ bar2Ring 4 = none)
    ∧ (let d := ring kSQ rENABLED
       let dist (v : Nat) := (v + 65536 - d.getI uHIF HIF_RING_STATE.HEAD (ringIx kSQ 0)) % 65536
       d.ringUsed (ringIx kSQ 0) ≤ dist 16 ∧ dist 16 ≤ d.ringSize (ringIx kSQ 0) ∧ d.ringSize (ringIx kSQ 0) < dist 17
       ∧ d.ringState (ringIx kSQ 0) = rENABLED
       ∧ (let e := ring kSQ rENABLED [(uHIF, HIF_RING_STATE.TAIL, ringIx kSQ 0, 1)]
          (0 + 65536 - e.getI uHIF HIF_RING_STATE.HEAD (ringIx kSQ 0)) % 65536 < e.ringUsed (ringIx kSQ 0)))
    ∧ (let d := ring kCQ rENABLED [(uHIF, HIF_RING_STATE.TAIL, ringIx kCQ 0, 3)]
       (3 + 65536 - d.getI uHIF HIF_RING_STATE.HEAD (ringIx kCQ 0)) % 65536 ≤ d.ringUsed (ringIx kCQ 0)
       ∧ bit (2 ^ 16 + 3) 16 = true ∧ bit 3 16 = false
       ∧ d.ringUsed (ringIx kCQ 0) < (4 + 65536 - d.getI uHIF HIF_RING_STATE.HEAD (ringIx kCQ 0)) % 65536
       ∧ (ring kCQ rDISABLING).ringState (ringIx kCQ 0) ≠ rENABLED ∧ (ring kEQ rENABLED).ringState (ringIx kEQ 0) = rENABLED
       ∧ (3 + 65536 - (ring kEQ rENABLED [(uHIF, HIF_RING_STATE.TAIL, ringIx kEQ 0, 3)]).getI uHIF HIF_RING_STATE.HEAD (ringIx kEQ 0)) % 65536
         ≤ (ring kEQ rENABLED [(uHIF, HIF_RING_STATE.TAIL, ringIx kEQ 0, 3)]).ringUsed (ringIx kEQ 0)
       ∧ (ring kEQ rENABLED).ringUsed (ringIx kEQ 0) < (1 + 65536 - (ring kEQ rENABLED).getI uHIF HIF_RING_STATE.HEAD (ringIx kEQ 0)) % 65536
       ∧ (ring kEQ rDISABLED).ringState (ringIx kEQ 0) ≠ rENABLED)
    ∧ (let d := { ring kCQ rENABLED [(uHIF, HIF_RING_CFG.TIME, ringIx kCQ 0, 1), (uHIF, HIF_RING_STATE.ARMED, ringIx kCQ 0, 1)] with
                  hif := { unsig := [([ringIx kCQ 0], [0])] } }
       (d.hif.unsig.getD [] [ringIx kCQ 0]).head? = some 0 ∧ d.flagI uHIF HIF_RING_STATE.ARMED (ringIx kCQ 0) = true
       ∧ d.getI uHIF HIF_RING_CFG.TIME (ringIx kCQ 0) ≠ 0 ∧ 0 + 1000 * d.getI uHIF HIF_RING_CFG.TIME (ringIx kCQ 0) ≤ d.now)
    ∧ (ring kSQ rENABLED [(uHIF, HIF_RING_STATE.TAIL, ringIx kSQ 0, 1)]).nextSq.isSome = true
    ∧ (∀ a ∈ [0, 64], let t := chained a
       ∀ q ∈ [none, some 0], let p : Parked := ⟨t, 0, 0, 0, q, 0, none⟩
       let d := { dev [] with hif := { parked := [p] } }
       d.hif.parked[0]? = some p ∧ d.awaitsRead p = true ∧ t.sq = some 0 ∧ t.next = a ∧ a % 64 = 0) := by
  repeat' apply And.intro
  all_goals decide +kernel

/-- A punt of queue 0 waits. -/
def punt : Punt := ⟨[], 0, 1, 0, 0, 0, 0, 0, 0⟩
def punted (dest : Nat) (l : List (Nat × Fld × Nat × Nat) := []) : Dev :=
  { dev ((uCLS, PNT_Q_CFG.DEST, 0, dest) :: l) with hif := { punts := [punt] } }

theorem witness_NopReturnsDeviceTime : (cmd 1 []).accepted (dev []) 1 [] := by decide +kernel

/-- A lateral's header store is full. -/
theorem witness_storeFull :
    storeSize ≤ ({ dev [] with fwd := { waiting := [([0], List.replicate 16384 ⟨0, 0, 64, 0, 0⟩)] } } : Dev).storeUsed 0 := by
  have h : ∀ d : Dev, (d.waiting 0).length ≤ d.storeUsed 0 := fun d => Nat.le_add_right ..
  refine Nat.le_trans (Nat.le_of_eq ?_) (h _)
  exact (List.length_replicate ..).symm

theorem witness_HostCommandsAndPunts :
    (∀ by_ ∈ [Origin.ring 0 0, .agent 5], let c := { cmd 2 [1] with ticket := ⟨by_, (cmd 2 [1]).ticket.desc⟩ }
     let d := { dev [] with hif := { inflight := [⟨c.ticket, 0, 0, false⟩] }, agents := [([5], { perm := 255 })] }
     c.accepted d 2 fenceParams ∧ (c.begun d).hif.inflight.find? (fun f => f.ticket == c.ticket) = some ⟨c.ticket, 0, 0, false⟩
     ∧ c.par 0 0 0 = 1)
    ∧ ((cmd 3 [64, 0, 4096]).accepted (dev []) 3 (cmd 3 [64, 0, 4096]).summaryParams ∧ (cmd 3 []).writeOk = true)
    ∧ (dev []).flag 0 HIF_RESYNC.BUSY = false
    ∧ (({ resync := some true } : HifState).resync = some true ∧ ({ resync := some true } : HifState).lost = [])
    ∧ ((punted 0).hif.punts = [punt] ∧ (punted 0).getI uCLS PNT_Q_CFG.DEST 0 = 0 ∧ (punted 0).flag 0 HDL_STATUS.HEADLESS = false
      ∧ (punted 0 [(0, HDL_STATUS.HEADLESS, 0, 1)]).flag 0 HDL_STATUS.HEADLESS = true
      ∧ (punted 0 [(0, HDL_CFG.HOST_PUNT_ACT, 0, 0)]).get 0 HDL_CFG.HOST_PUNT_ACT ≠ 1
      ∧ (punted 0 [(0, HDL_CFG.HOST_PUNT_ACT, 0, 1)]).get 0 HDL_CFG.HOST_PUNT_ACT = 1 ∧ (punted 0).fwPaused = false
      ∧ (punted 1 [(uCLS, PNT_Q_CFG.TARGET, 0, 255)]).getI uCLS PNT_Q_CFG.DEST 0 = 1
      ∧ (punted 1 [(uCLS, PNT_Q_CFG.TARGET, 0, 255)]).getI uCLS PNT_Q_CFG.TARGET 0 = 0xFF
      ∧ (punted 1 [(uCLS, PNT_Q_CFG.TARGET, 0, 254)]).getI uCLS PNT_Q_CFG.TARGET 0 = 0xFE
      ∧ ({ punted 0 with fw := { act := some ⟨(cmd 0x602 []).ticket, 0, 1, false⟩ } } : Dev).fwPaused = true
      ∧ (punted 2).getI uCLS PNT_Q_CFG.DEST 0 = 2 ∧ (punted 2).fwPaused = false)
    ∧ (let d := ring kRXQ rENABLED [(uHIF, HIF_RING_CFG.TIME, ringIx kRXQ 0, 1)]
       let e := { d with hif := { posted := [⟨0, (cmd 0x702 []).ticket, 4096, 0, 0⟩] } }
       d.ringState (ringIx kRXQ 0) = rENABLED ∧ e.postedTo 0 = some ⟨0, (cmd 0x702 []).ticket, 4096, 0, 0⟩ ∧ d.postedTo 0 = none
       ∧ (d.hif.rxHeld.filter (fun h => h.1 == 0)).length < d.rxHold 0)
    ∧ (let q := cmd 0x701 [0, 0, 64, 0, 0x1000] (leBytes 64 0)
       let j := cmd 0x701 [1, 0, 64, 0, 0x1000] (leBytes 64 0)
       let d := pool0 [svcOf 32 1]
       q.accepted d 0x701 (d.pktTxParams q) ∧ q.par 0 0 0 = 0 ∧ j.accepted d 0x701 (d.pktTxParams j) ∧ j.par 0 0 0 = 1
       ∧ d.portInUse (j.par 4 16 0 % 128) = true ∧ (∃ u ∈ flumes (latOf (j.par 4 16 0 % 128)), d.svc u = sACTIVE)
       ∧ ((stashOf 8 d).sendQueued 8 0 (leBytes 64 0) 0 0 {}).2 ≠ .noCell
       ∧ ((port 0).sendQueued 8 0 (leBytes 64 0) 0 0 {}).2 = .noCell
       ∧ ((stashOf 8 d).sendInjected 8 0 (leBytes 64 0) 0).2 = .injected ∧ q.readOk = true)
    ∧ (let c := cmd 0x702 [0, 4096, 0x1000]
       let d := { ring kRXQ rENABLED with hif := { inflight := [⟨c.ticket, 0, 0, false⟩] } }
       c.accepted d 0x702 c.rxBufPostParams ∧ (ring kRXQ rDISABLED).ringState (ringIx kRXQ 0) ≠ rENABLED
       ∧ c.accepted (ring kRXQ rDISABLED) 0x702 c.rxBufPostParams ∧ d.isLost c.ticket = false
       ∧ (d.hif.posted.filter (fun p => p.rxq == 0)).length < d.maxPosted 0 ∧ d.hif.posted.length < 8192
       ∧ (c.begun d).postSlot c.ticket 0 = true ∧ d.hif.rxHeld = []
       ∧ (let e := { ring kRXQ rENABLED [(uHIF, HIF_RING_CFG.LIMIT, ringIx kRXQ 0, 1)] with
                     hif := { posted := [⟨0, c.ticket, 4096, 0, 0⟩] } }
          e.maxPosted 0 ≤ (e.hif.posted.filter (fun p => p.rxq == 0)).length)) := by
  repeat' apply And.intro
  all_goals decide +kernel

/-! ### The service cluster -/

/-- The liveness engine is ACTIVE and session 5 stands in a state. -/
def bfd5 (b : Bfd) (l : List (Nat × Fld × Nat × Nat) := []) : Dev :=
  { fwd ([svcOf uLSE 1, svcOf uSVC 1] ++ l) with now := 1000, svcs := { bfd := [([5], b)] } }

/-- A BFD control packet over IPv4 to port 3784 with TTL 255, for discriminator 9, in a state. -/
def bfdPkt (state : Nat) : List Byte :=
  leBytes 12 0 ++ [8, 0, 0x45, 0] ++ leBytes 6 0 ++ [255, 17] ++ leBytes 10 0 ++ [0, 0] ++ beBytes 2 3784 ++ beBytes 2 32 ++ [0, 0]
  ++ [0x20, BitVec.ofNat 8 (64 * state), 3, 24] ++ beBytes 4 1 ++ beBytes 4 9 ++ beBytes 4 1000 ++ beBytes 4 1000 ++ beBytes 4 0

/-- The session that a packet finds, where it accepts it. -/
def finds (d : Dev) (state : Nat) : Bool :=
  match (bfdFrame (bfdPkt state)).filter (fun x => bfdCtlOk x.ctl) with
  | none => false
  | some x => match d.bfdMatch { punt with bytes := bfdPkt state } x with
    | none => false
    | some r => r.1 == 5 && r.2.accepts x && !bit (beAt x.ctl 1 1) 4 && !bit (beAt x.ctl 1 1) 5

theorem witness_BfdSessionsAndTasks :
    (let t := (cmd 1 []).ticket; (dev []).inFlight t = false
      ∧ ({ dev [] with hif := { inflight := [⟨t, 0, 0, false⟩] } } : Dev).inFlight t = true)
    ∧ (let b : Bfd := { desMinTx := 1000, remoteRx := 1000 }
       let d := bfd5 b
       d.bfd 5 = some b ∧ d.svc uLSE = sACTIVE ∧ b.nextTx ≤ d.now ∧ b.txEvery ≠ 0 ∧ b.leaving = none
       ∧ ({ b with leaving := some 1 } : Bfd).txEvery ≠ 0)
    ∧ ((bfdFrame []).filter (fun x => bfdCtlOk x.ctl) = none ∧ finds (bfd5 { localDisc := 9 }) bfdUP = true
      ∧ ((bfdFrame (bfdPkt 3)).bind (fun x => (bfd5 { localDisc := 8 }).bfdMatch punt x)) = none
      ∧ finds (bfd5 { localDisc := 9, multihop := true }) bfdUP = false ∧ ({} : Bfd).state ≠ bfdADMIN)
    ∧ (let b : Bfd := { rcvSeq := some 7, meticulous := true, remoteMult := 1, remoteTx := 1 }
       b.rcvAt + 2 * b.detectTime ≤ 2000 ∧ 1999 < b.rcvAt + 2 * b.detectTime)
    ∧ (∀ st ∈ [bfdADMIN, bfdDOWN, bfdINIT, bfdUP], let b : Bfd := { state := st, detectAt := some 1000 }
       (bfd5 b).bfd 5 = some b ∧ b.detectAt = some 1000 ∧ (bfd5 b).svc uLSE = sACTIVE ∧ 1000 ≤ (bfd5 b).now)
    ∧ (let off := cmd 0x608 [5]
       let rd := cmd 0x608 [0x4005]
       let on := cmd 0x608 [0x03008006, 9, 10000, 10000, 0, 0, 42, 0, 0x1000]
       let d := bfd5 { localDisc := 8 }
       off.accepted d 0x608 off.bfdSessionSetParams ∧ off.par 0 14 14 = 0 ∧ off.par 0 15 15 = 0 ∧ (d.bfd 5).isSome = true
       ∧ rd.accepted d 0x608 rd.bfdSessionSetParams ∧ rd.par 0 14 14 = 1
       ∧ on.accepted d 0x608 on.bfdSessionSetParams ∧ on.par 0 14 14 = 0 ∧ on.par 0 15 15 = 1 ∧ d.bfd 6 = none ∧ on.par 0 13 0 = 6
       ∧ (∀ e ∈ d.svcs.bfd, e.2.localDisc ≠ on.par 4 31 0)
       ∧ (∃ e ∈ (bfd5 { localDisc := 9 }).svcs.bfd, e.1 ≠ [6] ∧ e.2.localDisc = on.par 4 31 0)
       ∧ (let c := cmd 0x608 [0x03008005, 9, 10000, 10000, 0, 0, 42, 0, 0x1000]
          c.accepted d 0x608 c.bfdSessionSetParams ∧ c.par 0 15 15 = 1 ∧ c.par 0 13 0 = 5
          ∧ (∀ e ∈ d.svcs.bfd, e.1 ≠ [c.par 0 13 0] → e.2.localDisc ≠ c.par 4 31 0)
          ∧ ({} : Bfd).leaving = none ∧ ({} : Bfd).state ≠ bfdUP ∧ ({ state := bfdUP } : Bfd).state = bfdUP))
    ∧ (let d := bfd5 { withdraw := some 3, toWithdraw := true }
       d.bfd 5 = some { withdraw := some 3, toWithdraw := true } ∧ ({} : Bfd).state = bfdDOWN
       ∧ (bfd5 { withdraw := some 3 }).bfd 5 = some { withdraw := some 3 } ∧ ({ withdraw := some 3 } : Bfd).toWithdraw = false
       ∧ (bfd5 { withdraw := some 3, state := bfdUP }).bfd 5 = some { withdraw := some 3, state := bfdUP }
       ∧ d.svcs.withdrawn.any (fun e => e.2.contains 3) = false
       ∧ ([([7], [3])] : Tab (List Nat)).any (fun e => e.2.contains 3) = true) := by
  repeat' apply And.intro
  all_goals decide +kernel

/-- The PTP service runs from port 0 in a state. -/
def ptp (s : Nat) (p : Ptp) (l : List (Nat × Fld × Nat × Nat) := []) : Dev :=
  { port 0 ([(uSVC, SVC_PTP_CFG.EN, 0, 1), (uSVC, SVC_PTP_CFG.SOURCE, 0, 0), (uSVC, SVC_PTP_STATUS.STATE, 0, s),
      (uSVC, SVC_PTP_PORTS0.EN, 0, 1)] ++ l) with svcs := { ptp := p } }

/-- An Announce or another message of PTP in an Ethernet frame, and with its fields changed. -/
def ptpMsg (type : Nat) (off : Nat := 0) (l : List Byte := []) : List Byte :=
  patch (patch (leBytes 64 0) 0 [BitVec.ofNat 8 type, 2]) (if off = 0 then 2 else off) l
def ptpPunt (type : Nat) : Punt := { punt with bytes := leBytes 12 0 ++ [0x88, 0xF7] ++ ptpMsg type }

theorem witness_PtpServesTime :
    (0 / 2 ^ SVC_PTP_CFG.EN.lo % 2 = 0 ∧ 2 / 2 ^ SVC_PTP_CFG.SOURCE.lo % 2 ^ SVC_PTP_CFG.SOURCE.width ≤ 2)
    ∧ (let d := ptp ptpFREE { inbox := [punt] }
       d.svcs.ptp.inbox = [punt] ∧ d.ptpMessage punt.bytes = none ∧ d.sysport 1 ≠ punt.srcSysport)
    ∧ (let d := ptp ptpFREE { inbox := [ptpPunt 11], selected := some 0 } [(uSVC, SVC_PTP_CFG.DOMAIN, 0, 0)]
       d.svcs.ptp.inbox = [ptpPunt 11] ∧ 0 < 128 ∧ d.flag uSVC SVC_PTP_CFG.EN = true
       ∧ d.ptpMessage (ptpPunt 11).bytes = some (ptpMsg 11) ∧ d.ptpRunsOn 0 = true ∧ d.sysport 0 = (ptpPunt 11).srcSysport
       ∧ d.get uSVC SVC_PTP_CFG.SOURCE = 0 ∧ d.ptpRunsOn 1 = false ∧ d.svcs.ptp.selected.isSome = true ∧ d.ptpState = ptpFREE
       ∧ (ptp ptpHOLD { selected := some 0 }).ptpState = ptpHOLD
       ∧ (ptp ptpFREE {} [(uSVC, SVC_PTP_CFG.SOURCE, 0, 1)]).get uSVC SVC_PTP_CFG.SOURCE ≠ 0)
    ∧ (let m := patch (ptpMsg 0xC) 44 [0, 4]
       let d (n : Nat) := ptp ptpFREE { grants := List.replicate n ⟨1, [], 0, 2 ^ 60⟩ } [(uSVC, SVC_PTP_CFG.PROFILE, 0, 3)]
       let others (d : Dev) := d.svcs.ptp.grants.filter (fun x => decide (d.now < x.until_)
         && !(x.port == 0 && x.peer == slice m 20 10 && x.type == beAt m 48 1 / 16))
       (d 0).get uSVC SVC_PTP_CFG.PROFILE = 3 ∧ beAt m 0 1 % 16 = 0xC ∧ beAt m 44 2 = 4 ∧ (others (d 511)).length < 512
       ∧ 512 ≤ (others (d 512)).length)
    ∧ (let d := ptp ptpACQ { selected := some 0, below := 15 } [(uSVC, SVC_PTP_CFG.STEP_NS, 0, 1000)]
       d.ptpRuns = true ∧ d.ptpState = ptpACQ ∧ d.svcs.ptp.selected.isSome = true ∧ -(2 ^ 31) ≤ (-(2 ^ 31) : Int)
       ∧ (2 ^ 31 - 1 : Int) < 2 ^ 31 ∧ d.get uSVC SVC_PTP_CFG.STEP_NS ≠ 0 ∧ d.get uSVC SVC_PTP_CFG.STEP_NS < (1001 : Int).natAbs
       ∧ (-1000 : Int).natAbs ≤ d.get uSVC SVC_PTP_CFG.STEP_NS ∧ d.sch.sluices = [] ∧ d.svcs.ptp.below = 15 ∧ d.linkState 0 ≠ lsUP
       ∧ 99 < 100 ∧ 100 ≤ 100 ∧ 1000 < 1001
       ∧ (ptp ptpACQ {} [(uSVC, SVC_PTP_CFG.STEP_NS, 0, 0)]).get uSVC SVC_PTP_CFG.STEP_NS = 0)
    ∧ (let d := ptp ptpLOCKED { above := 3, selected := some 0 }
       d.ptpRuns = true ∧ d.ptpState = ptpLOCKED ∧ d.svcs.ptp.above = 3 ∧ d.svcs.ptp.selected = some 0)
    ∧ (let d := ptp ptpFREE {}
       d.ptpState ≠ ptpFOSC ∧ d.svcs.ptp.rate = 0 ∧ d.frac < 65536 ∧ 0 ≤ d.svcs.ptp.part ∧ d.svcs.ptp.part < 1000000000)
    ∧ (let d := ptp ptpHOLD { history := [(1000000000, 5)] } [(uSVC, SVC_PTP_CFG.HOLDOVER_AVG_S, 0, 1)]
       d.svcs.ptp.history = (1000000000, 5) :: [] ∧ d.get uSVC SVC_PTP_CFG.HOLDOVER_AVG_S = 1 ∧ 1000000000 * 1 ≤ 1000000000)
    ∧ (let d := ptp 0 { portStates := [([0], ptpMASTER)] }
       d.flag uSVC SVC_PTP_CFG.EN = true ∧ d.ptpRunsOn 0 = true ∧ d.portInUse 0 = true ∧ 7 < 8
       ∧ ∀ type ∈ [0, 11], d.ptpMessage (ptpPunt type).bytes = some (ptpMsg type)
         ∧ ptpMaySend (d.svcs.ptp.portStates.getD 0 [0]) (beAt (ptpMsg type) 0 1 % 16) = true
         ∧ decide (type = 0) = decide (beAt (ptpMsg type) 0 1 % 16 < 4)) := by
  repeat' apply And.intro
  all_goals decide +kernel

/-- The service cluster is ACTIVE and slot 5 stands in a state with what it holds. -/
def slot5 (s : Nat) (a : Agent) (l : List (Nat × Fld × Nat × Nat) := []) : Dev :=
  { fwd ([svcOf uSVC 1, (uSVC, AGT_STATUS.STATE, 5, s)] ++ l) with now := 1000, agents := [([5], a)] }

theorem witness_AgentsLiveAndDie :
    (let h := leBytes 4 0x54474148 ++ leBytes 2 1 ++ leBytes 250 0
     let c := cmd 0x605 [5, 0x00010001, 256, 0x00010001, 0x1000, 0, 0x00100000] h
     let r := cmd 0x605 [0x45, 0x00010001, 256, 0x00010001, 0x1000, 0, 0x00100000] h
     let f := cmd 0x605 [5, 0x00010001, 256, 0x00010001, 0x1000, 0, 0x00100000] (leBytes 256 0)
     let d := slot5 agEMPTY {}
     let full := { (slot5 agEMPTY {}).setI uSVC AGT_STATUS.STATE 6 agRUNNING with agents := [([6], { memMib := 2048 })] }
     let img (c : HCmd) := slice c.block 0 (c.par 8 31 0)
     c.accepted d 0x605 c.agentLoadParams (d.agentImageBad (img c) != some .badBlock)
     ∧ d.svc uSVC = sACTIVE ∧ d.agState 5 = agEMPTY ∧ d.quotasPassed 5 c = false ∧ c.readOk = true
     ∧ (d.agentImageBad (img c)).isSome = true ∧ (slot5 agRUNNING {}).agState 5 = agRUNNING ∧ c.par 0 6 6 = 0 ∧ r.par 0 6 6 = 1
     ∧ r.accepted d 0x605 r.agentLoadParams (d.agentImageBad (img r) != some .badBlock) ∧ (slot5 agRUNNING {}).quotasPassed 5 r = false
     ∧ full.agState 5 = agEMPTY ∧ full.quotasPassed 5 c = true
     ∧ d.heldBack 0x605 f.ticket = false ∧ hdrBad f.ticket = none ∧ areaBad f.area f.agentLoadParams = none ∧ d.agentBad f = none
     ∧ d.agentImageBad (img f) = some .badBlock)
    ∧ (let c := cmd 0x606 [5]
       c.accepted (slot5 agRUNNING {}) 0x606 c.agentStopParams ∧ (slot5 agEMPTY {}).agState 5 = agEMPTY
       ∧ (slot5 agLOADING {}).agState 5 = agLOADING)
    ∧ (let t := (cmd 0x606 [5]).ticket
       let d := slot5 agSTOPPING { waiting := some t }
       d.agState 5 = agSTOPPING ∧ (d.agent 5).running = false ∧ d.agentInflight 5 = 0 ∧ (d.agent 5).waiting = some t
       ∧ (d.agent 5).replacing = none)
    ∧ (let c := cmd 0x605 [0x45, 0x00010001, 256, 0x00010001, 0x1000, 0, 0x00100000]
       let d := { slot5 agSTOPPING { replacing := some c, memMib := 2048 } with hif := { inflight := [⟨c.ticket, 0, 0, true⟩] } }
       let e : Dev := { d.setI uSVC AGT_STATUS.STATE 6 agRUNNING with agents := d.agents ++ [([6], { memMib := 2048 })] }
       d.agState 5 = agSTOPPING ∧ (d.agent 5).running = false ∧ d.agentInflight 5 = 0 ∧ (d.agent 5).waiting = none
       ∧ (d.agent 5).replacing = some c ∧ (d.freeAgent 5).inFlight c.ticket = true ∧ (d.freeAgent 5).quotasPassed 5 c = false
       ∧ (e.agent 5).replacing = some c ∧ (e.freeAgent 5).inFlight c.ticket = true ∧ (e.freeAgent 5).quotasPassed 5 c = true)
    ∧ (let c := cmd 0x607 [0, 0, 0x1000] (leBytes 64 0)
       let n := cmd 0x607 [1, 0, 0x1000] (leBytes 64 0)
       let d := slot5 agEMPTY {}
       c.accepted d 0x607 c.agentKeySetParams ∧ c.par 0 3 3 = 0 ∧ c.par 0 2 0 = 0 ∧ d.store.keys.get? [0] = none ∧ d.flashHeld = false
       ∧ n.accepted d 0x607 n.agentKeySetParams ∧ n.par 0 2 0 ≠ 0 ∧ d.store.keys.get? [n.par 0 2 0] = none)
    ∧ (let d := slot5 agRUNNING { inbox := [⟨1, false, []⟩] }
       5 < 64 ∧ d.svc uSVC = sACTIVE ∧ d.fwPaused = false ∧ d.agState 5 = agRUNNING ∧ (d.agent 5).running = false
       ∧ (d.agent 5).inbox ≠ [])
    ∧ (let d := slot5 agLOADING { running := true, callMs := 1, waiting := some (cmd 0x605 []).ticket }
       (d.agent 5).running = true ∧ d.agState 5 = agLOADING ∧ (d.agent 5).waiting = some (cmd 0x605 []).ticket
       ∧ (let a : Agent := { running := true, callMs := 1 }
          1000000 ≤ a.callFrom + 1000000 * a.callMs ∧ a.callFrom + 1000000 * a.callMs < 1000001)
       ∧ d.now ≤ (d.agent 5).callFrom + 1000000 * (d.agent 5).callMs)
    ∧ (let d := slot5 agRUNNING { running := true }
       (d.agent 5).mayTrap d.now 9 = true ∧ (d.agent 5).mayTrap d.now 5 = true ∧ ({ running := true, callMs := 1 } : Agent).mayTrap 1000000 5 = false
       ∧ d.agState 5 = agRUNNING)
    ∧ (let d := slot5 agRESTARTING { restartAt := 1000 }
       d.svc uSVC = sACTIVE ∧ d.fwPaused = false ∧ d.agState 5 = agRESTARTING ∧ (d.agent 5).restartAt ≤ d.now)
    ∧ (let d := slot5 agRUNNING { timers := [(63, 1000, 0)] }
       (d.agent 5).timers.find? (fun t => t.1 == 63) = some (63, 1000, 0) ∧ 1000 ≤ d.now) := by
  repeat' apply And.intro
  all_goals decide +kernel

theorem witness_AgentInterfaceCalls :
    (let a : Agent := { running := true, perm := 4, maxCmds := 1, inboxKib := 16, logEn := true, inbox := [⟨1, false, []⟩], memLen := 4096, memMib := 1, callMs := 1 }
     let d := slot5 agRUNNING a
     (d.agent 5).running = true ∧ 2 ^ 20 ≤ (d.agent 5).memMib * 2 ^ 20 ∧ d.now ≤ (d.agent 5).callFrom + 1000000 * (d.agent 5).callMs
     ∧ (d.agent 5).memLen ≤ (d.agent 5).memMib * 2 ^ 20
     ∧ ({ d with now := 1000001 } : Dev).now = (d.agent 5).callFrom + 1000000 * (d.agent 5).callMs + 1 ∧ 0 + 64 ≤ 4096 ∧ permits a.perm 1 = true ∧ d.agentRoom 5 = true ∧ permits a.perm 0x605 = false
     ∧ a.inbox = [⟨1, false, []⟩] ∧ (⟨1, false, []⟩ : Msg).size ≤ 8 ∧ 0 + 8 ≤ 4096 ∧ bit a.perm 2 = true ∧ 16 % 8 = 0
     ∧ populated 816 = true ∧ 0x408 % 8 = 0 ∧ 0x400 ≤ 0x408 ∧ ((d.accessed 816).gated 816 = false) ∧ populated 1023 = false ∧ 0x3F8 < 0x400
     ∧ ((dev [svcOf 33 2, (33, UF_CLKEN.RUN_EN, 0, 0)]).accessed 33).gated 33 = true ∧ (d.lastSecond a.lines).length < 100 ∧ 0x20 ≤ 0x3E ∧ (d.lastSecond a.raised).length < 1000)
    ∧ 63 < 64 ∧ 10000 ≤ 10000 ∧ 10000 < 2 ^ 63 ∧ 511 < 512 ∧ ({} : Agent).logEn = false ∧ bit ({} : Agent).perm 2 = false := by
  decide +kernel

/-! ### Firmware and the headgate -/

/-- Power is good since time 0 and firmware may run. -/
def fw (x : FwState) (l : List (Nat × Fld × Nat × Nat) := []) : Dev :=
  { dev (svcOf uSVC 1 :: l) with now := 2 ^ 40, pwr := { goodAt := some 0 }, fw := x }
def img : Image := ⟨0, leBytes 512 0, []⟩

/-- A header of the right form with a payload of one byte. -/
def hdr : List Byte := patch (leBytes 4 0x49464B5A ++ leBytes 2 1 ++ leBytes 2 512 ++ leBytes 504 0) 0x18 [1]

theorem witness_FirmwareLifecycle :
    (let d := fw {}
     let s := fw {} [(0, PWR_STRAPS.RECOVERY_N, 0, 1)]
     d.fw.running = none ∧ d.flag 0 FW_STATUS.RECOVERY = false ∧ d.pwr.goodAt.isSome = true ∧ d.pwr.tripped = false ∧ d.flashHeld = false
     ∧ d.bootRec.trial = false ∧ d.bootRec.committedSv ≤ d.fw.otp.svFused
     ∧ (fw {} [(0, PWR_STRAPS.RECOVERY_N, 0, 0)]).flag 0 PWR_STRAPS.RECOVERY_N = false
     ∧ s.flag 0 PWR_STRAPS.RECOVERY_N = true ∧ s.slotBoots s.bootRec.slot = false ∧ s.slotBoots (1 - s.bootRec.slot) = false)
    ∧ (let d := fw { running := some img }
       d.fw.running = some img ∧ d.flag uHIF HIF_STATUS.FW_READY = false ∧ d.fwPaused = false ∧ d.fw.trialLost = false)
    ∧ (let d := { fw {} [(uHIF, HIF_STATUS.FW_READY, 0, 1)] with
                  dram := { stackTab := (List.range 8).map (fun k => ([k], { up := true })) } }
       d.flag uHIF HIF_STATUS.FW_READY = true ∧ ∀ k < 8, (d.stack k).up = true ∨ d.svc (512 + k) = sFAILED ∨ d.svc (512 + k) = sRETIRED)
    ∧ (let d := fw {} [(uHIF, HIF_STATUS.FW_READY, 0, 1), svcOf 512 6, svcOf 513 7]
       let e := { d with dram := { stackTab := (List.range 6).map (fun k => ([k + 2], { up := true })) } }
       (∀ k < 8, (e.stack k).up = true ∨ e.svc (512 + k) = sFAILED ∨ e.svc (512 + k) = sRETIRED)
       ∧ d.fw.sideband.contains 7 = false ∧ ({ d with fw := { sideband := [7] } } : Dev).fw.sideband.contains 7 = true
       ∧ ([7].contains 7 = true) ∧ [7].contains 6 = false ∧ d.svc (512 + 7) = sOFF)
    ∧ (∀ k ∈ [[1], ([] : List Byte)], let d := fw { otp := { attestKey := k } }
       d.fw.otp.attestKey = k)
    ∧ (let c := cmd 0x601 [0, 512, 0x1000] hdr
       let f := cmd 0x601 [0, 512, 0x1000] (leBytes 512 0)
       let d := fw {}
       d.heldBack 0x601 f.ticket = false ∧ hdrBad f.ticket = none ∧ areaBad f.area f.fwStageParams = none ∧ d.agentBad f = none
       ∧ hdrFormOk (slice f.block 0 512) = false
       ∧ c.accepted d 0x601 c.fwStageParams (hdrFormOk (slice c.block 0 512)) ∧ hdrFormOk hdr = true ∧ d.svc uSVC = sACTIVE ∧ d.stagingBusy = false ∧ d.fw.hgp.state = 0
       ∧ ((c.begun d).checkHeader (slice c.block 0 512) (c.begun d).storeSchema false).isSome = true ∧ d.flashHeld = false
       ∧ (fw {} [(0, FW_STATUS.TRIAL, 0, 1)]).stagingBusy = true)
    ∧ (let c := cmd 0x602 [0]
       let x := cmd 0x602 [1]
       let g := cmd 0x602 [0, 0, 0, 257]
       let d := fw { staged := some img } [(uHIF, HIF_STATUS.FWD_READY, 0, 1)]
       c.accepted d 0x602 c.fwActivateParams ∧ c.par 0 0 0 = 0 ∧ x.accepted d 0x602 x.fwActivateParams ∧ x.par 0 0 0 = 1 ∧ d.fw.act = none
       ∧ g.accepted d 0x602 g.fwActivateParams ∧ (fw { act := some ⟨c.ticket, 0, 0, false⟩ }).fw.act.isSome = true
       ∧ (fw {}).fw.staged = none ∧ d.fw.staged = some img ∧ c.par 8 63 0 < d.now + 10000000
       ∧ d.now + 10000000 ≤ g.par 8 63 0 ∧ g.par 8 63 0 ≤ d.now + 3600000000000)
    ∧ (let t := (cmd 0x602 []).ticket
       let d := fw { act := some ⟨t, 0, 2, false⟩, staged := some img, previous := some img }
       d.fw.act = some ⟨t, 0, 2, false⟩ ∧ 0 + 2000000000 ≤ d.now ∧ d.flashHeld = false ∧ d.fw.staged = some img ∧ d.fw.previous = some img
       ∧ (fw { holdUntil := 2 ^ 41 }).flashHeld = true
       ∧ (fw { act := some ⟨t, 0, 0, false⟩ }).fw.act = some ⟨t, 0, 0, false⟩ ∧ 0 + 10000000 ≤ d.now)
    ∧ (let c := cmd 0x603 [0]
       let x := cmd 0x603 [1]
       let d := fw { running := some img } [(0, FW_STATUS.TRIAL, 0, 1)]
       c.accepted d 0x603 c.fwCommitParams ∧ c.par 0 0 0 = 0 ∧ x.accepted d 0x603 x.fwCommitParams ∧ x.par 0 0 0 = 1
       ∧ d.flag 0 FW_STATUS.TRIAL = true ∧ (fw {}).flag 0 FW_STATUS.TRIAL = false ∧ d.flag 0 FW_STATUS.DIAGNOSTIC = false
       ∧ d.fw.running = some img ∧ max d.bootRec.committedSv (hdrSv img.header) ≤ d.fw.otp.svFused
       ∧ d.fw.otp.svFused < max d.bootRec.committedSv (hdrSv (List.replicate 512 1)))
    ∧ ((fw { burn := some (3, some (cmd 0x603 []).ticket) }).fw.burn = some (3, some (cmd 0x603 []).ticket)
      ∧ (fw { holdUntil := 1 }).fw.holdUntil ≠ 0 ∧ (fw { holdUntil := 1 }).flashHeld = false ∧ (fw { holdUntil := 1 }).fw.held = [])
    ∧ (let c := cmd 0x604 (List.replicate 8 0 ++ [0x1000, 0, 0xFFFF])
       c.accepted (fw {}) 0x604 attestParams ∧ c.par 0x2A 0 0 = 0)
    ∧ (let d := fw {} [(0, FW_STATUS.RECOVERY, 0, 1)]
       d.flag 0 FW_STATUS.RECOVERY = true ∧ d.flag 0 FW_REC_STATUS.BUSY = false)
    ∧ (let d := fw { bar4 := some (2, []) }
       d.fw.bar4 = some (2, []) ∧ (d.recBad []).isSome = true ∧ 2 ≤ 2) := by
  repeat' apply And.intro
  all_goals decide +kernel

/-- A headgate message in a frame for this port. -/
def hgFrame (d : Dev) (type session seq : Nat) (payload : List Byte) : List Byte :=
  let m := leBytes 2 0x4847 ++ leBytes 1 1 ++ leBytes 1 type ++ leBytes 4 session ++ leBytes 4 seq ++ leBytes 2 payload.length
    ++ leBytes 2 0 ++ leBytes 4 0 ++ payload
  leBytes 12 0 ++ [8, 0, 0x45, 0] ++ leBytes 7 0 ++ [17] ++ leBytes 6 0 ++ d.mgtV4 ++ [0, 0] ++ beBytes 2 6561
  ++ beBytes 2 (m.length + 8) ++ [0, 0] ++ patch m 0x10 (leBytes 4 (crc32cStd m))

/-- A headgate session 7 in a state, the management port up and recovery entered. -/
def hg (h : Headgate) : Dev :=
  fw { hgp := { h with session := 7 } } [(uMGT, MGT_STATUS.LINK_UP, 0, 1), (0, FW_STATUS.RECOVERY, 0, 1)]

/-- Does a device read this message from its frame? -/
def reads (d : Dev) (type session seq : Nat) (payload : List Byte) : Bool :=
  ((d.hgPayload (hgFrame d type session seq payload)).bind hgParse) == some ⟨type, session, seq, 0, payload⟩

theorem witness_HeadgateSessions :
    (false ≠ (hg {}).flag uMGT MGT_STATUS.LINK_UP ∧ true = (hg {}).flag uMGT MGT_STATUS.LINK_UP
      ∧ (dev [(uMGT, MGT_CFG.ADMIN_UP, 0, 0)]).flag uMGT MGT_CFG.ADMIN_UP = false ∧ true ≠ (dev []).flag uMGT MGT_STATUS.LINK_UP
      ∧ (dev [(uMGT, MGT_CFG.ADMIN_UP, 0, 1)]).flag uMGT MGT_CFG.ADMIN_UP = true)
    ∧ ((hg {}).flag uMGT MGT_STATUS.LINK_UP = true ∧ (hg {}).mgtRx.mgtRuns = true ∧ (hg {}).mgtRx.mgtAnswer [] = none
      ∧ (let d := (hg {}).mgtRx
         (d.mgtAnswer (leBytes 12 0 ++ beBytes 2 0x0806 ++ beBytes 8 0x0001080006040001 ++ leBytes 16 0 ++ d.mgtV4)).isSome = true))
    ∧ (let d := (hg {}).mgtRx
       reads d 1 0 0 [] = true ∧ reads d 3 8 0 (leBytes 4 2048 ++ leBytes 4 2) = true ∧ reads d 9 7 0 [] = true
       ∧ d.fw.hgp.state = hgIDLE ∧ d.hgRefuse 3 = some stMALFORMED ∧ d.hgRefuse 2 = none)
    ∧ (let d := (hg { state := hgRECEIVING, length := 1025 }).mgtRx
       reads d 5 7 2 [0] = true ∧ d.hgMine ⟨5, 7, 2, 0, []⟩ = true ∧ d.fw.hgp.state = hgRECEIVING
       ∧ d.fw.hgp.acked + 1 ≤ 2 ∧ 2 ≤ d.fw.hgp.acked + 32 ∧ d.fw.hgp.chunks.get? [2] = none ∧ 2 ≤ d.fw.hgp.count
       ∧ d.fw.hgp.size 2 = 1 ∧ d.fw.hgp.acked + 32 < 33 + 1 ∧ d.fw.hgp.complete = false ∧ d.fw.hgp.state ≠ hgIDLE ∧ 8 ≠ d.fw.hgp.session)
    ∧ (let h : Headgate := { state := hgRECEIVING, length := 1, chunks := [([1], [0])], timer := true }
       ({ h with } : Headgate).complete = true ∧ h.timer = true ∧ h.lastData + 2000000 ≤ (hg h).now)
    ∧ (∀ s ∈ [hgVERIFYING, hgWRITING, hgDONE], let d := (hg { state := s, target := 2 }).mgtRx
       reads d 6 7 0 [] = true ∧ d.hgMine ⟨6, 7, 0, 0, []⟩ = true ∧ d.fw.hgp.state = s ∧ d.flashHeld = false ∧ d.fw.hgp.target = 2
       ∧ s ≠ hgIDLE ∧ d.fw.hgp.lastMsg + 10000000000 ≤ d.now)
    ∧ (reads (hg {}).mgtRx 8 8 0 [] = true ∧ (hg {}).mgtRx.hgMine ⟨8, 8, 0, 0, []⟩ = false
      ∧ ((hg {}).checkPayload (leBytes 513 0)).isSome = true)
    ∧ ((hg {}).hgBarred 2 = none ∧ (dev [(0, FW_STATUS.TRIAL, 0, 1)]).hgBarred 1 = some stRETRY_LATER
      ∧ (dev []).hgBarred 0 = some stMALFORMED) := by decide +kernel

/-! ### Worked examples of the manual, and check values of its codes -/

/-- Does a command run on a device end in a next state whose device satisfies a test? -/
def then_ (i : Instr) (d : Dev) (test : Dev → Bool) : Bool :=
  match step { dev := d, pending := [i] } with
  | .next t => test t.dev && t.pending == []
  | _ => false

/-- SQ 5 with 16 entries, HEAD and TAIL at 65,530 (12_host_rings_and_commands.md). -/
def sq5 (head tail : Nat) : Dev :=
  dev [(uHIF, HIF_RING_STATE.STATE, ringIx kSQ 5, 1), (uHIF, HIF_RING_CFG.SIZE_LOG2, ringIx kSQ 5, 4),
    (uHIF, HIF_RING_STATE.HEAD, ringIx kSQ 5, head), (uHIF, HIF_RING_STATE.TAIL, ringIx kSQ 5, tail)]

theorem test_sqDoorbell_wraps :
    then_ (.sqDoorbell 5 6) (sq5 65530 65530) (fun d => d.getI uHIF HIF_RING_STATE.TAIL (ringIx kSQ 5) == 6) = true := by decide +kernel

theorem test_sqDoorbell_too_far :
    then_ (.sqDoorbell 5 30) (sq5 4 14) (fun d => d.getI uHIF HIF_RING_STATE.TAIL (ringIx kSQ 5) == 14
      && d.get uHIF HIF_DOORBELL_BAD.COUNT == 1) = true := by decide +kernel

/-- Queue 41,000's peak bucket: −9,024, then −1,024, −224 and 576 bytes (08_scheduling_shaping_sluices.md). -/
theorem test_bucket_refills :
    let a := (⟨true, 1000000, 16000, -9024 * 2 ^ 20⟩ : Bucket).refill 64000
    let b := { a with rate := 100000 }.refill 64000
    a.level = -1024 * 2 ^ 20 ∧ b.level = -224 * 2 ^ 20 ∧ (b.refill 64000).level = 576 * 2 ^ 20 := by decide +kernel

/-- The F-side address of exact-match bucket 5,000,000 lies in channel 26 (10_stacked_memory.md). -/
theorem test_sideChannel : sideChannel false 0x6625A000 = 26 := by decide +kernel

/-- Octet 8 in mode 2 has ports 64 and 68 (03_front_panel_ports.md). -/
theorem test_portInUse :
    ((List.range 8).map (64 + ·)).filter (fun p => (dev [(uPort 64, PRT_MODE.OCTET_MODE, 0, 2)]).portInUse p) = [64, 68] := by decide +kernel

/-- After the swap of the example, stamp 8 searches slot B of partition 0 and stamp 7 slot A (04_parsing_and_rules.md). -/
theorem test_slotFor :
    let d := dev [(uCLS, CLS_EPOCH.CUR_EPOCH, 0, 8), (uCLS, CLS_PART_STATE.ACT_EPOCH, 0, 8), (uCLS, CLS_PART_STATE.ACT_SLOT, 0, 1),
      (uCLS, CLS_PART_STATE.DRAINING, 0, 1)]
    d.slotFor 0 8 = 1 ∧ d.slotFor 0 7 = 0 := by decide +kernel

/-- An 800GbE port earns a credit every 39.0 ns (09_fabric_interface.md). -/
theorem test_creditTime : (dev [(uPort 0, PRT_MODE.OCTET_MODE, 0, 2)]).creditTime 0 * 10 / 65536 = 390 := by decide +kernel

/-- Check values of the published codes: CRC-32C, CRC-16 of R103's parameters, SHA-1 and SHA-256 of the usual strings. -/
theorem test_codes :
    let digits : List Byte := [0x31, 0x32, 0x33, 0x34, 0x35, 0x36, 0x37, 0x38, 0x39]
    let abc : List Byte := [0x61, 0x62, 0x63]
    crc32cStd digits = 0xE3069283 ∧ crc16 digits = 0x29B1 ∧ (sha1 abc).take 4 = [0xA9, 0x99, 0x3E, 0x36]
    ∧ (sha256 abc).take 4 = [0xBA, 0x78, 0x16, 0xBF] := by decide +kernel

/-! ### Further clauses -/

/-- A window in which these of pairs 0 to 3 stand out. -/
def window (x : Nat) : List (Nat × Nat) := (List.range 4).map (fun i => if bit x i then (5, 9) else (5, 5))

theorem witness_ReferencesFailAndReturn_sets :
    (∀ x < 16, ∀ i < 4, outOf (window x) i = bit x i)
    ∧ (∀ n < 10, ({ calibrated with pwr := { goodAt := some 0, blocks := [([768], { (calibrated.clkBlock 768) with ambig := n })] } } :
        Dev).clkBlock 768 = { (calibrated.clkBlock 768) with ambig := n }) := by decide +kernel

theorem witness_PowerAndClocks_forms :
    (773 ∈ plls (refOf 773) ∧ (dev [(773, CLK_PLL_STATUS.HOLDOVER, 0, 1)]).flag 773 CLK_PLL_STATUS.HOLDOVER = true
      ∧ (dev []).pwr.heldSince.get? [773] = none ∧ (dev []).get 773 CLK_PLL_STATUS.REF < 2
      ∧ (dev [(refOf 773, okField 0, 0, 1)]).get 773 CLK_PLL_STATUS.REF = 0
      ∧ (dev [(refOf 773, okField 0, 0, 1)]).flag (refOf 773) (okField 0) = true)
    ∧ (dev [(uZFP, ZFP_DEV_CFG.EN, 0, 1)]).flag uZFP ZFP_DEV_CFG.EN = true
    ∧ (dev [(uZFP, ZFP_DEV_CFG.EN, 0, 1)]).flag 0 PWR_CTRL.STANDBY = false
    ∧ (∀ un ∈ [800, 808], isMonitor un = true ∧ 1000 * 0 < (dev []).warnLevel un)
    ∧ (∀ un ∈ [816, 832, 848, 855], 816 ≤ un ∧ un ≤ 855)
    ∧ (∀ die ∈ [1, 2], ∃ x ∈ sensorsOf die, let d : Dev := { dev [(x, PWR_TEMP.TEMP_C, 0, 105), (die, PWR_DIE_CFG.THROTTLE_EN, 0, 1)] with
        now := 10000000, pwr := { throttledAt := [([die], 0)] } }
      105 ≤ d.tempC x ∧ d.flag die PWR_DIE_CFG.THROTTLE_EN = true ∧ d.pwr.throttledAt.get? [die] = some 0 ∧ 0 + 10000000 ≤ d.now
      ∧ d.get (if die = 1 then 771 else 786) CLK_PLL_STATUS.THROTTLE < 8)
    ∧ (hot 105 8).get 771 CLK_PLL_STATUS.THROTTLE = 8 ∧ (dev [(1, PWR_DIE_CFG.THROTTLE_EN, 0, 0)]).flag 1 PWR_DIE_CFG.THROTTLE_EN = false
    ∧ (dev []).flag (uSTK 7) DRC_STACK_STATUS.REFRESH_2X = false
    ∧ (dev [(uSTK 7, DRC_STACK_STATUS.REFRESH_2X, 0, 1)]).flag (uSTK 7) DRC_STACK_STATUS.REFRESH_2X = true := by decide +kernel

/-- Flume 32 is ACTIVE with its spare ready, and holds these packets. -/
def spared (w : List Pkt) : Dev := { dev [svcOf 32 1, svcOf 36 2] with fwd := { windows := [([32], w)] } }

theorem witness_Units_forms :
    (∀ x ∈ [4, 5], (dev [svcOf 33 x]).svc 33 ∈ [sDRAINING, sOUT])
    ∧ (∀ x ∈ [0, 3, 6, 7], (dev [svcOf 33 x]).svc 33 ∉ [sACTIVE, sSPARE, sDRAINING, sOUT])
    ∧ (∀ d ∈ [dev [svcOf 32 1], spared []], holdsTurns 32 = true ∧ d.svc 32 = sACTIVE ∧ askedChildren 32 = [] ∧ d.relieved 32 = false
        ∧ classOf 32 = 0x11)
    ∧ (dev [svcOf 32 1]).successor 32 = none ∧ (spared []).successor 32 = some 36
    ∧ (let c := cmd 0x401 [32]
       c.par 0 15 0 = 32 ∧ c.par 2 0 0 = 0 ∧ c.accepted (dev [svcOf 32 1]) 0x401 c.unitOutParams
       ∧ c.accepted (spared []) 0x401 c.unitOutParams ∧ c.accepted (spared [pkt]) 0x401 c.unitOutParams
       ∧ (((c.begun (spared [])).handOver 32 36).settleOut 32).svc 32 = sOUT
       ∧ (((c.begun (spared [pkt])).handOver 32 36).settleOut 32).svc 32 ≠ sOUT) := by decide +kernel

theorem witness_Ports_forms :
    (1 < 2 ∧ (dev [(1, FP_SGPIO_CFG.EN, 0, 0)]).flag 1 FP_SGPIO_CFG.EN = false)
    ∧ (let d : Dev := { dev [] with panel := { badRun := [([1], 16)] } }; 16 ≤ d.panel.badRun.getD 0 [1] ∧ d.chainFailed 1 = false)
    ∧ (let c := cmd 0x903 [0x00000080, 1]
       c.accepted (slot0 {}) 0x903 c.moduleAccessParams ∧ c.par 0 7 7 = 1 ∧ ((slot0 {}).slot (c.par 0 6 0)).present = false
       ∧ guardedRun (c.par 2 7 0) (c.par 3 7 0) (c.par 4 7 0) = false
       ∧ ({ c with readOk := false } : HCmd).accepted (slot0 { present := true }) 0x903 c.moduleAccessParams)
    ∧ (dev []).flag 1 FP_PPS_CFG.IN_EN = false ∧ (dev []).flag 1 FP_TOD_CFG.IN_EN = false ∧ (dev []).flag 1 FP_TOD_CFG.OUT_EN = false
    ∧ ¬ ((dev []).get 1 FP_PPS_CFG.IN_EDGE = 0 ↔ false = true)
    ∧ (∀ ls ∈ [lsDISABLED, lsNO_MODULE, lsTRAINING, lsALIGNING, lsUP_PENDING], (served [(uPort 0, PRT_STATUS.LINK_STATE, 0, ls)]).linkState 0 = ls)
    ∧ (let d := (port lsNO_MODULE).setSlot 0 { fault := true }
       d.portInUse 0 = true ∧ d.cageOf 0 = some 0 ∧ (d.slot 0).fault = true ∧ d.linkState 0 = lsNO_MODULE) := by decide +kernel

theorem witness_Packets_forms :
    (let d := fwd [svcOf uDSTG 1]
     let c := cmd 0x501 [5, 2]
     c.accepted d 0x501 c.cntReadBlockParams ∧ d.svc uDSTG = sACTIVE ∧ c.writeOk = true ∧ 1 < c.par 4 16 0
     ∧ c.accepted (fwd []) 0x501 c.cntReadBlockParams ∧ (fwd []).svc uDSTG ≠ sACTIVE)
    ∧ (let d := fwd [(uCLS, CLS_PART_CFG.BANK_MASK, 0, 1)]
       let w := cmd 0x201 [0xF00] (leBytes 40 0 ++ leBytes 16 0)
       d.svc uCLS ≠ sACTIVE ∧ w.accepted d 0x201 (d.ruleWriteParams w) (actionOk (slice w.block (40 * 2 ^ d.partWidth (w.par 0 3 0)) 16))
       ∧ (cmd 0x202 [0xF00, 1]).accepted d 0x202 (d.ruleInvalidateParams (cmd 0x202 [0xF00, 1]))
       ∧ (cmd 0x203 [0]).accepted d 0x203 (d.rulesetSwapParams (cmd 0x203 [0])))
    ∧ classifier.swapDraining 0 = false
    ∧ (let x := (cmd 0x203 [0]).ticket
       let h : Dev := { classifier [(uCLS, CLS_PART_STATE.DRAINING, 0, 1)] with fwd := { swaps := [⟨0, x⟩, ⟨1, x⟩] } }
       h.swapDraining 0 = true ∧ h.slotBusy 0 = false ∧ h.fwd.swaps.filter (fun y => y.part == 0) = [⟨0, x⟩]) := by decide +kernel

theorem witness_Tables_forms :
    (let c := { cmd 0x103 [0] with readOk := false }
     c.accepted (fwd []) 0x103 ([pAny 0 0 0, c.zero 0 7 1] ++ [pAny 8 63 0]) ((readRec c.block).keyOk false) ∧ (fwd []).tbeReady = false)
    ∧ (let c := cmd 0x104 [1, 1]
       c.accepted (fwd []) 0x104 c.tblNextParams ∧ c.accepted engine 0x104 c.tblNextParams ∧ engine.tbeReady = true ∧ c.par 2 15 0 = 0)
    ∧ (let c := cmd 0x104 [1 + 2 ^ 16, 1]
       c.accepted engine 0x104 c.tblNextParams ∧ c.par 2 15 0 = 1 ∧ (engine.fwd.cursors.get? [1]).isNone = true)
    ∧ 64 ≤ (((List.range 64).map (fun i => ([i + 1], ({ table := 1, used := 0 } : Cursor)))).filter
        (fun e => decide (0 < e.2.used + 10000000000))).length := by decide +kernel

theorem witness_Tables_refused :
    (let c := cmd 0x105 [0]; c.accepted (fwd []) 0x105 c.tblFlushPortParams)
    ∧ (let c := cmd 0x107 [tL2, 1]; c.accepted (fwd []) 0x107 c.tblAgeCfgParams)
    ∧ (let c := cmd 0x108 [0]; c.accepted (fwd []) 0x108 c.lpmCommitParams)
    ∧ (let c := { cmd 0x106 [0, 1] with readOk := false }
       c.accepted (fwd []) 0x106 ([pAny 0 0 0, pAny 0 1 1, c.zero 0 31 2, c.must 4 16 0 (fun n => decide (1 ≤ n ∧ n ≤ 65536)), c.zero 4 31 17]
         ++ [pAny 8 63 0]))
    ∧ (let c := { cmd 0x109 [0] with readOk := false }
       c.accepted (fwd []) 0x109 ([pAny 0 21 0, c.zero 0 31 22] ++ [pAny 8 63 0]) (encapOk (c.par 0 21 0) c.block))
    ∧ (let c := cmd 0x106 [1, 1] (leBytes 1 tL2 ++ leBytes 63 0)
       ((bulkRun true false 1 0 c.block { dev := c.begun engine }).first == some (stNOT_FOUND, 0)) = true) := by decide +kernel

theorem witness_Agents_forms :
    (∀ x ∈ [agRUNNING, agRESTARTING, agFAILED], (slot5 x {}).agState 5 = x)
    ∧ (∀ x ∈ [agLOADING, agSTOPPING], (slot5 x {}).agState 5 = x)
    ∧ (let c := cmd 0x607 [8]
       (slot5 0 {}).svc uSVC = sACTIVE ∧ c.accepted (slot5 0 {}) 0x607 c.agentKeySetParams ∧ c.par 0 3 3 = 1 ∧ c.readOk = true
       ∧ (slot5 0 {}).flashHeld = false ∧ (slot5 0 {}).store.keys.get? [0] = none) := by decide +kernel

theorem witness_Headgate_forms :
    (let h : Headgate := { state := hgRECEIVING, length := 1 }
     let d := (hg h).mgtRx
     let g := (d.hgHeard []).setHg { (d.hgHeard []).fw.hgp with chunks := [([1], [0])], since := 1, timer := true, lastData := d.now }
     reads d 5 7 1 [0] = true ∧ d.hgMine ⟨5, 7, 1, 0, [0]⟩ = true ∧ d.fw.hgp.acked = 0 ∧ (d.fw.hgp.chunks.get? [1]).isNone = true
     ∧ 1 ≤ d.fw.hgp.count ∧ d.fw.hgp.size 1 = 1 ∧ g.hgHeaderBad.isSome = true
     ∧ reads d 5 7 2 [0] = true ∧ d.fw.hgp.count < 2 ∧ (d.fw.hgp.chunks.get? [2]).isNone = true)
    ∧ (let d := (hg { state := hgDONE }).mgtRx
       d.fw.hgp.state ≠ hgRECEIVING ∧ d.hgMine ⟨5, 7, 1, 0, [0]⟩ = true ∧ d.hgMine ⟨5, 8, 1, 0, []⟩ = false ∧ reads d 9 8 0 [] = true)
    ∧ (let d := (hg { final := some (5, 0) }).mgtRx
       reads d 6 5 0 [] = true ∧ d.fw.hgp.state = hgIDLE ∧ d.fw.hgp.final = some (5, 0) ∧ reads d 6 4 0 [] = true
       ∧ d.hgMine ⟨6, 4, 0, 0, []⟩ = false ∧ d.fw.hgp.final.any (fun x => x.1 == 4) = false) := by decide +kernel

theorem witness_Classifier_lostCopies :
    (let d : Dev := { classifier with dram := { lostRows := [(0, clsCopyRegion.base / 2 ^ 31)] } }
     d.copiesLost clsCopyRegion = true ∧ d.bankFailed 3 11 = false ∧ d.fwd.repairs.get? [3, 11, 4095] = none) := by decide +kernel

theorem witness_Flumes_forms :
    (3 ≤ ({ pkt with pass := 3 } : Pkt).pass ∧ pkt.pass < 3)
    ∧ 2048 ≤ ({ dev [] with fwd := { siphon := [([0], List.replicate 2048 pkt)] } } : Dev).fwd.siphon.length + 2047
    ∧ (({ dev [] with fwd := { siphon := [([0], List.replicate 2048 pkt)] } } : Dev).siphonOf 0).length = 2048
    ∧ (List.range 64).find? (fun x => (dev []).getI uSVC AGT_STATUS.STATE x == agRUNNING && bit ((dev []).agent x).perm permLEARN) = none
    ∧ ((dev []).storeBody reqSpill 0 (leBytes 64 0) 1).2 = none := by decide +kernel

/-- A setting of node 0 of level 2 and one of meter 7 wait. -/
def shaperSet : ShaperSet := ⟨(cmd 0x303 []).ticket, true, true, 1, 1, 1, 1⟩
def meterSet : MeterSet := ⟨(cmd 0x304 []).ticket, false, 1, false, false, 8, 1, 8, 1⟩

theorem witness_Sched_forms :
    (let d := dev []
     ((d.setNode 2 0 { d.node 2 0 with sets := [shaperSet] }).node 2 0).sets = [shaperSet]
     ∧ ((d.setMeter 7 { sets := [meterSet] }).meter 7).sets = [meterSet])
    ∧ (sluice {}).sluice 0 = {} ∧ (({} : Sluice).near 5000 = false) ∧ ({} : Sluice).state = 0
    ∧ (let x : Sluice := { pending := some (sl, 5001) }; x.near 5000 = true)
    ∧ (let x : Sluice := { pending := some (sl, 9000) }; x.near 5000 = false ∧ x.state = 1)
    ∧ (let x : Sluice := { active := some sl, pending := some (sl, 9000) }; x.near 5000 = false ∧ 3 ≤ x.state)
    ∧ (let x : Sluice := { active := some sl, stopAt := some 9000 }; x.near 5000 = false ∧ 3 ≤ x.state)
    ∧ (let b : SampleBuf := ⟨(cmd 1 []).ticket, 5, 2, 0x1000, 16, 1, 0, 1, 0⟩
       b.sweep = 1 ∧ b.first ≤ 6 ∧ 6 < b.first + b.count ∧ b.length < (b.written + 1) * 16 ∧ 6 + 1 = b.first + b.count
       ∧ 5 + 1 < b.first + b.count) := by decide +kernel

theorem witness_Rings_forms :
    ((ring kRXQ rDISABLED).selRing = some (kRXQ, 0) ∧ (ring kRXQ rDISABLED).ringState (ringIx kRXQ 0) = rDISABLED
      ∧ (ring kRXQ rDISABLED [(uHIF, HIF_RING_CFG.SIZE_LOG2, ringIx kRXQ 0, 4)]).ringReady kRXQ (ringIx kRXQ 0) = true
      ∧ (ring kRXQ rDISABLED [(uHIF, HIF_RING_CFG.SIZE_LOG2, ringIx kRXQ 0, 4)]).flag 0 FW_STATUS.RECOVERY = false)
    ∧ (∀ x ∈ [rENABLED, rERROR], (ring kCQ x).ringState (ringIx kCQ 0) = x ∧ (ring kEQ x).ringState (ringIx kEQ 0) = x
      ∧ (ring kCQ x).cqNamed 0 = false ∧ (ring kRXQ x).ringState (ringIx kRXQ 0) = x
      ∧ (ring kCQ x [(uHIF, HIF_RING_STATE.STATE, ringIx kSQ 0, rENABLED)]).cqNamed 0 = true)
    ∧ (ring kSQ rERROR [(uHIF, HIF_RING_STATE.COUNT, ringIx kSQ 0, 1)]).sqBusy 0 = true
    ∧ (ring kSQ rDISABLING).ringState (ringIx kSQ 0) = rDISABLING := by decide +kernel

theorem witness_Firmware_forms :
    (let t := (cmd 0x602 []).ticket
     let d := fw { act := some ⟨t, 2 ^ 40 + 1000000, 0, false⟩ }
     d.fw.act = some ⟨t, 2 ^ 40 + 1000000, 0, false⟩ ∧ d.now + 1000000 ≤ 2 ^ 40 + 1000000
     ∧ (fw { act := some ⟨t, 0, 1, false⟩ }).fw.act = some ⟨t, 0, 1, false⟩
     ∧ (fw { act := some ⟨t, 0, 0, true⟩ }).fw.act = some ⟨t, 0, 0, true⟩)
    ∧ (fw { burn := some (3, none) }).fw.burn = some (3, none)
    ∧ (∀ op ∈ [0x601, 0x603, 0x607], (cmd op []).ticket.opcode = op ∧ (fw { holdUntil := 1, held := [cmd op []] }).fw.held = [cmd op []])
    ∧ (let c := cmd 0x604 (List.replicate 8 0 ++ [0x1000, 0, 0x1FFFF])
       c.accepted (fw {}) 0x604 attestParams ∧ c.par 0x2A 0 0 = 1)
    ∧ (∀ x ∈ [1, 2, 3], (fw { hgp := { state := x } }).fw.hgp.state ∉ [hgIDLE, hgDONE])
    ∧ (fw { hgp := { state := hgDONE } }).fw.hgp.state ∈ [hgIDLE, hgDONE]
    ∧ (let d := ptp ptpLOCKED { selected := some 0xFF } [(uSVC, SVC_PTP_CFG.SOURCE, 0, 1)]
       d.ptpRuns = true ∧ d.svcs.ptp.selected = some 0xFF ∧ d.get uSVC SVC_PTP_CFG.SOURCE ≠ 0
       ∧ ({ d with now := 3000000000 } : Dev).get 1 FP_PPS_IN_TS.TIME + 3000000000 ≤ ({ d with now := 3000000000 } : Dev).now) := by
  decide +kernel

theorem witness_Returning_forms :
    (let d : Dev := { dev [svcOf 80 3, svcOf 88 1] with rid := { shadows := [([80], ⟨88, 65536⟩)] } }
     classOf 80 = 0x19 ∧ d.svc 80 = sSHADOW ∧ d.rid.shadows.get? [80] = some ⟨88, 65536⟩)
    ∧ (∀ u ∈ [128, 256], peersOf u = [] ∧ classOf u ∉ [0x15, 0x19, 0x22, 0x41] ∧ followers u = [] ∧ (dev [svcOf u 3]).svc u = sSHADOW) := by
  decide +kernel

end Sys2Proof.Tests
end

section
/-! SUPPORT. A nanosecond in which nothing runs but the clocks, and the statements about idle time and about register fields. -/
namespace Sys2Proof.Machine
open Sys2Proof

/-! ### The clocks -/

/-- The device with its clocks at other counts. -/
def Dev.withClocks (d : Dev) (t : Tab Nat) : Dev := { d with pwr := { d.pwr with clocks := t } }

/-- The counts after one ns of one clock. -/
def Dev.clockOn (d : Dev) (t : Tab Nat) (c : Nat) : Tab Nat :=
  if d.clockRuns c then t.setD 0 [c] (t.getD 0 [c] + d.clockRate c) else t

theorem Dev.clockOn_self (d : Dev) (t : Tab Nat) (c : Nat) :
    (d.clockOn t c).getD 0 [c] = t.getD 0 [c] + (if d.clockRuns c then d.clockRate c else 0) := by
  unfold Dev.clockOn
  split <;> simp

theorem Dev.clockOn_ne (d : Dev) (t : Tab Nat) {c x : Nat} (h : c ≠ x) : (d.clockOn t x).getD 0 [c] = t.getD 0 [c] := by
  unfold Dev.clockOn
  split
  · exact Tab.getD_setD_ne (by simpa using h)
  · rfl

/-- Neither which clocks run nor how fast depends on their counts, so a clock's nanosecond is seen in its count alone. -/
theorem Dev.withClocks_clockOn (d : Dev) (t : Tab Nat) (c : Nat) :
    (if (d.withClocks t).clockRuns c then
      { d.withClocks t with pwr := { (d.withClocks t).pwr with
          clocks := (d.withClocks t).pwr.clocks.setD 0 [c] ((d.withClocks t).pwr.clocks.getD 0 [c] + (d.withClocks t).clockRate c) } }
    else d.withClocks t) = d.withClocks (d.clockOn t c) := by
  have hr : (d.withClocks t).clockRuns c = d.clockRuns c := rfl
  rw [hr, Dev.clockOn]
  split <;> rfl

theorem Dev.runClocks_eq (d : Dev) :
    d.runClocks = d.withClocks (((List.range 32).map (768 + ·)).foldl d.clockOn d.pwr.clocks) :=
  List.foldl_hom d.withClocks (init := d.pwr.clocks) fun t c => d.withClocks_clockOn t c

theorem Dev.foldl_clockOn_of_notMem {d : Dev} {cs : List Nat} {t : Tab Nat} {c : Nat} (h : c ∉ cs) :
    (cs.foldl d.clockOn t).getD 0 [c] = t.getD 0 [c] := by
  induction cs generalizing t with
  | nil => rfl
  | cons x cs ih =>
    rw [List.mem_cons, not_or] at h
    exact (ih h.2).trans (d.clockOn_ne t h.1)

/-- Each clock of a list without repetitions gains the cycles of one ns where it runs. -/
theorem Dev.foldl_clockOn_of_mem {d : Dev} {cs : List Nat} {t : Tab Nat} {c : Nat} (hn : cs.Nodup) (h : c ∈ cs) :
    (cs.foldl d.clockOn t).getD 0 [c] = t.getD 0 [c] + (if d.clockRuns c then d.clockRate c else 0) := by
  induction cs generalizing t with
  | nil => exact absurd h List.not_mem_nil
  | cons x cs ih =>
    obtain ⟨hx, hcs⟩ := List.nodup_cons.1 hn
    rcases List.mem_cons.1 h with rfl | hc
    · exact (Dev.foldl_clockOn_of_notMem hx).trans (d.clockOn_self t c)
    · rw [List.foldl_cons, ih hcs hc, d.clockOn_ne t (ne_of_mem_of_not_mem hc hx)]

/-! ### What does nothing in idle time -/

/-- Without a correction, a whole nanosecond is counted and the fraction stays. -/
theorem Dev.countNs_uncorrected {d : Dev} (hr : d.timeRate = 0) (hp : d.svcs.ptp.part = 0) (hl : d.ptpState ≠ ptpLOCKED)
    (hf : d.frac < 65536) : d.countNs = { d with now := (d.now + 1) % 2 ^ 64 } := by
  have hnow : ((((d.now + 1) * 65536 + d.frac : Nat) : Int) / 65536).toNat = d.now + 1 := by omega
  have hfrac : ((((d.now + 1) * 65536 + d.frac : Nat) : Int) % 65536).toNat = d.frac := by omega
  have hptp : { d.svcs.ptp with part := 0 } = d.svcs.ptp := by rw [← hp]
  simp only [Dev.countNs, Dev.setPtp, hr, hp, if_neg hl, Int.add_zero, Int.zero_ediv, Int.zero_emod, hnow, hfrac, hptp]

theorem filter_classOf_eq_nil {l : List Nat} {k : Nat} (h : ∀ u ∈ l, classOf u ≠ k) : l.filter (fun u => classOf u == k) = [] :=
  List.filter_eq_nil_iff.2 fun u hu => by simpa using h u hu

theorem Dev.copyTime_of_none {d : Dev} {k : Nat} (h : (d.stack k).rot = none) : d.copyTime k = d := by
  rw [Dev.copyTime, h]

theorem Dev.foldl_copyTime_of_none {d : Dev} {ks : List Nat} (h : ∀ k ∈ ks, (d.stack k).rot = none) :
    ks.foldl Dev.copyTime d = d := by
  induction ks with
  | nil => rfl
  | cons k ks ih =>
    rw [List.foldl_cons, Dev.copyTime_of_none (h k List.mem_cons_self)]
    exact ih fun j hj => h j (List.mem_cons_of_mem _ hj)

/-- Nothing is up, in SHADOW or being copied, and no use lapses. -/
theorem Dev.lineTime_idle {d : Dev} (hports : ∀ u ∈ d.unitsWith PRT_STATUS.LINK_STATE lsUP, classOf u ≠ 0x30)
    (hlinks : ∀ u ∈ d.unitsWith ZFP_LINK_STATUS.LINK_STATE fUP, classOf u ≠ 0x31)
    (hchans : ∀ u ∈ d.unitsWith UF_STATE.SVC_STATE sACTIVE, classOf u ≠ 0x41)
    (hcores : ∀ u ∈ d.unitsWith UF_STATE.SVC_STATE sSHADOW, classOf u ≠ 0x48)
    (hrot : ∀ k < 8, (d.stack k).rot = none) (huse : d.useLapses = false) : d.lineTime = d := by
  simp only [Dev.lineTime, filter_classOf_eq_nil hports, filter_classOf_eq_nil hlinks, filter_classOf_eq_nil hchans,
    filter_classOf_eq_nil hcores, List.foldl_nil, Dev.foldl_copyTime_of_none fun k hk => hrot k (List.mem_range.1 hk), huse,
    Bool.false_eq_true, if_false]

theorem Dev.flushesOn_of_nil {d : Dev} (h : d.fwd.flushes = []) : d.flushesOn = d := by rw [Dev.flushesOn, h, List.foldl_nil]

theorem Dev.fuseTime_idle {d : Dev} (hb : d.fw.burn = none) (hd : d.flag 0 FW_STATUS.DIAGNOSTIC = false) : d.fuseTime = d := by
  simp [Dev.fuseTime, hb, hd]

theorem Dev.countTime_of_nil {d : Dev} (h : d.countingUnits = []) (was : Tab Nat) : d.countTime was = d := by
  rw [Dev.countTime, h, List.foldl_nil]

/-! ### Idle steps -/

theorem step_of_nil {s : State} (h : s.pending = []) : step s = .next (s.becomes s.dev.tick) := by rw [step, h]; rfl

/-- Between commands nothing is on its way to host memory: a device with nothing posted takes its place in the state as it is. -/
theorem State.becomes_of_dma {s : State} {d : Dev} (h : d.hif.dma = []) : s.becomes d = { s with dev := d } := by
  rw [State.becomes, Dev.posted_of_dma h, h]
  rfl

/-- Settles O2: on an empty queue time passes, and where nothing else goes on, the device that counts one nanosecond and runs its clocks
is the whole next state. -/
theorem emptyQueueLetsTimePass : Obligations.EmptyQueueLetsTimePass := by
  intro s hq
  refine ⟨⟨_, step_of_nil hq, (State.becomes_pending ..).trans hq⟩, ?_⟩
  intro hs hrate hpart hlock hfrac hcount hports hlinks hchans hcores hrot hflush hburn hdiag d huse
  have hrun : s.dev.countNs.runClocks = d.withClocks (((List.range 32).map (768 + ·)).foldl d.clockOn d.pwr.clocks) := by
    rw [Dev.countNs_uncorrected hrate hpart hlock hfrac, Dev.runClocks_eq]
  generalize ht : ((List.range 32).map (768 + ·)).foldl d.clockOn d.pwr.clocks = t at hrun
  have htick : s.dev.tick = d.withClocks t := by
    have hline : (d.withClocks t).lineTime = d.withClocks t := Dev.lineTime_idle hports hlinks hchans hcores hrot huse
    have hsweep : (d.withClocks t).flushesOn = d.withClocks t := Dev.flushesOn_of_nil hflush
    have hfuse : (d.withClocks t).fuseTime = d.withClocks t := Dev.fuseTime_idle hburn hdiag
    have hcnt : (d.withClocks t).countingUnits = [] := hcount
    rw [Dev.tick, hrun, hline, hsweep, hfuse, Dev.countTime_of_nil hcnt]
  refine ⟨t, ?_, fun c hlo hhi => ?_⟩
  · rw [step_of_nil hq, htick]
    exact congrArg _ (State.becomes_of_dma hs.2)
  · rw [← ht]
    exact Dev.foldl_clockOn_of_mem (List.Pairwise.map (768 + ·) (fun _ _ hne e => hne (Nat.add_left_cancel e)) List.nodup_range)
      (List.mem_map.2 ⟨c - 768, List.mem_range.2 (by omega), by omega⟩)

/-! ### Register fields -/

/-- Settles O6, from what a sparse table holds after a put. -/
theorem registerFieldsKeepApart : Obligations.RegisterFieldsKeepApart :=
  fun d un f i v => ⟨d.getI_setI_self un f i v, fun _ _ _ => Dev.getI_setI_ne, d.getI_clearFldI_self un f i, Dev.wf_setI, rfl⟩

end Sys2Proof.Machine
end

section
/-! SUPPORT. Accesses to registers: what the register tables say of every register, the plain writes and the RC reads, and the statement
about both. -/
namespace Sys2Proof.Machine
open Sys2Proof

/-! ### The register tables -/

theorem classOf_mem (un : Nat) : classOf un ∈ 0 :: unitTable.map (·.cls) := by
  unfold classOf
  cases h : unitRow un with
  | none => exact List.mem_cons_self
  | some r => exact List.mem_cons_of_mem _ (List.mem_map_of_mem (List.mem_of_find?_eq_some h))

/-- What holds of every register that the tables list holds of every register of every unit. -/
theorem forall_regsOf {p : RegDesc → Prop} (hh : ∀ r ∈ headerRegs, p r) (hk : ∀ r ∈ refBlockRegs ++ pllRegs ++ fDieRegs, p r)
    (hc : ∀ c ∈ 0 :: unitTable.map (·.cls), ∀ r ∈ classRegs c, p r) (un : Nat) : ∀ r ∈ regsOf un, p r := by
  simp only [List.forall_mem_append] at hk
  obtain ⟨⟨href, hpll⟩, hdie⟩ := hk
  refine List.forall_mem_append.2 ⟨hh, ?_⟩
  unfold classRegsOf
  split
  · split
    · exact href
    · split
      · exact List.forall_mem_nil _
      · exact hpll
  · split
    · exact List.forall_mem_append.2 ⟨hdie, hc _ (classOf_mem un)⟩
    · exact hc _ (classOf_mem un)

/-- Offsets of the header registers whose writes have a behaviour of their own (R49, R51, R62, R66, R514). -/
def actingOffs : List Nat :=
  [UF_CTRL.OUT_REQ.off, UF_CLKEN.RUN_EN.off, UF_EVT_PEND.PEND.off, UF_EVT_MASK.MASK.off, UF_PMC_CTRL.CNT_EN.off]

/-- None of them is an array. -/
theorem stride_of_actingOffs (un : Nat) : ∀ r ∈ regsOf un, r.off ∈ actingOffs → r.stride = 0 :=
  forall_regsOf (by decide) (by decide) (by decide) un

/-- No register has more than one RC field. -/
theorem rcFields_length (un : Nat) : ∀ r ∈ regsOf un, (r.fields.filter (·.acc = .rc)).length ≤ 1 :=
  forall_regsOf (by decide) (by decide) (by decide) un

theorem findReg_mem {un off i : Nat} {r : RegDesc} (h : findReg un off = some (r, i)) : r ∈ regsOf un ∧ r.index? off = some i := by
  obtain ⟨x, hx, hi⟩ := List.exists_of_findSome?_eq_some h
  obtain ⟨j, hj, e⟩ := Option.map_eq_some_iff.1 hi
  obtain ⟨rfl, rfl⟩ := Prod.mk.inj e
  exact ⟨hx, hj⟩

/-- A register that is no array lies at its own offset alone. -/
theorem RegDesc.off_of_index? {r : RegDesc} {off i : Nat} (hs : r.stride = 0) (h : r.index? off = some i) : off = r.off :=
  Decidable.byContradiction fun hne => by simp [RegDesc.index?, hs, hne] at h

/-- A register found at an offset without a behaviour of its own is none of those with one. -/
theorem findReg_off_notMem {un off i : Nat} {r : RegDesc} (hf : findReg un off = some (r, i)) (ho : off ∉ actingOffs) :
    r.off ∉ actingOffs := fun hr =>
  have ⟨hm, hi⟩ := findReg_mem hf
  ho (RegDesc.off_of_index? (stride_of_actingOffs un r hm hr) hi ▸ hr)

/-- UF_EVT_ROUTE stands in every frame. -/
theorem findReg_evtRoute (un : Nat) : findReg un UF_EVT_ROUTE.EVT_RING.off = some (UF_EVT_ROUTE.desc, 0) := by
  have h : headerRegs.findSome? (fun r => (r.index? UF_EVT_ROUTE.EVT_RING.off).map (fun i => (r, i))) = some (UF_EVT_ROUTE.desc, 0) := by
    decide
  rw [findReg, regsOf, List.findSome?_append, h]
  rfl

theorem Dev.windowIx_of_none {d : Dev} {r : RegDesc} (h : r.window = .none) (i : Nat) : d.windowIx r i = some i := by
  rw [Dev.windowIx, h]

theorem frameUn_of_lt {un off : Nat} (h : off < 0x400) : frameUn un off = un := if_neg (by omega)

/-- The two egress schedulers, whose class registers are one set, are of one class (R289). -/
theorem classOf_frameUn (un off : Nat) : classOf (frameUn un off) = classOf un := by
  unfold frameUn
  split
  · next h => rw [h.1]; rfl
  · rfl

/-! ### Accesses -/

theorem Dev.noted_accessed (d : Dev) (un : Nat) : d.Noted (d.accessed un) := d.noted_tally un 0x0B 1

/-- Reporting and counting change neither which frames are served nor which clocks are gated. -/
theorem Dev.Noted.served {a b : Dev} (h : a.Noted b) (un : Nat) : b.served un = a.served un := by
  have hf : b.get 0 FW_STATUS.RECOVERY = a.get 0 FW_STATUS.RECOVERY := h.get (noteKey_of _ _ _ (by decide))
  simp only [Dev.get_eq_getI] at hf
  simp only [Dev.served, Dev.flag, Dev.flagI, hf]

theorem Dev.Noted.gated {a b : Dev} (h : a.Noted b) (un : Nat) : b.gated un = a.gated un := by
  have get (f : Fld) (hs : (f.off, f.lo) ∉ noteSpots) : b.get un f = a.get un f := h.get (noteKey_of f un 0 hs)
  have hflag (f : Fld) (hs : (f.off, f.lo) ∉ noteSpots) : b.flag un f = a.flag un f := congrArg (· == 1) (get f hs)
  rw [Dev.gated, Dev.gated, get _ (by decide), hflag _ (by decide), hflag _ (by decide), hflag _ (by decide)]

/-! ### Writes -/

section
variable {d : Dev} {s : State} {un off i v w : Nat} {h : Half} {r : RegDesc}

theorem makes_registerWrite (hs : s.dev.served un = true) (ha : off % 8 = 0) :
    Makes (.registerWrite un off h v) s ((s.dev.accessed un).writeReg un off h v) :=
  Makes.intro rfl (if_neg (by simp [hs, ha]))

/-- A header register outside those with a behaviour of their own stores its word. -/
theorem Dev.headerWrite_plain (hr : r.off ∉ actingOffs) : d.headerWrite un r i w = d.storeWord un r i w := by
  simp only [actingOffs, List.mem_cons, List.not_mem_nil, or_false, not_or] at hr
  obtain ⟨h1, h2, h3, h4, h5⟩ := hr
  rw [Dev.headerWrite, if_neg h1, if_neg h2, if_neg h3, if_neg h4, if_neg h5]

/-- Classes with a register that has a behaviour of its own. -/
def actingClasses : List Nat := [0x01, 0x13, 0x14, 0x16, 0x20, 0x23, 0x24, 0x30, 0x31, 0x32, 0x38, 0x39, 0x40, 0x49, 0x50]

/-- A class register of a class outside those stores its word. -/
theorem Dev.classWrite_plain (hc : classOf un ∉ actingClasses) : d.classWrite un r i w = d.storeWord un r i w := by
  unfold Dev.classWrite
  generalize classOf un = c at hc
  split
  case h_16 => rfl
  all_goals exact absurd (by decide) hc

/-- A write below 0x300 of a register that has no selector before it. -/
theorem Dev.writeReg_header (ho : off < 0x300) (hf : findReg un off = some (r, i)) (hw : r.window = .none) :
    d.writeReg un off h v =
      (let e := d.headerWrite un r i (halfWord h (d.rwWord un r i) v); if isPmcOff off then e.pmcSample un else e) := by
  rw [Dev.writeReg, if_neg (by omega), if_neg (by omega), if_neg (by omega), hf]
  simp only [Dev.windowIx_of_none hw, frameUn_of_lt (show off < 0x400 by omega), if_pos (show off < 0x400 by omega)]

/-- A write of a class register, outside the MSI-X table, that has no selector before it. -/
theorem Dev.writeReg_class (ho : 0x400 ≤ off) (hg : d.gated un = false) (hu : un ≠ uHIF) (hf : findReg un off = some (r, i))
    (hw : r.window = .none) :
    d.writeReg un off h v = d.classWrite (frameUn un off) r i (halfWord h (d.rwWord (frameUn un off) r i) v) := by
  have hp : isPmcOff off = false := decide_eq_false fun hx => by simp only [UF_PMC_CNT.COUNT] at hx; omega
  rw [Dev.writeReg, if_neg (by simp [hg]), if_neg (by omega), if_neg (by simp [hu]), hf]
  simp only [Dev.windowIx_of_none hw, if_neg (show ¬ off < 0x400 by omega), hp, Bool.false_eq_true, if_false]

theorem Dev.writeReg_header_plain (ho : off < 0x300) (hp : isPmcOff off = false)
    (hn : off ∉ [UF_CTRL.OUT_REQ.off, UF_CLKEN.RUN_EN.off, UF_EVT_PEND.PEND.off, UF_EVT_MASK.MASK.off])
    (hf : findReg un off = some (r, i)) (hw : r.window = .none) :
    d.writeReg un off h v = d.storeWord un r i (halfWord h (d.rwWord un r i) v) := by
  have hctrl : off ≠ UF_PMC_CTRL.CNT_EN.off := by rintro rfl; exact absurd hp (by decide)
  have hact : off ∉ actingOffs := by
    simp only [actingOffs, List.mem_cons, List.not_mem_nil, or_false, not_or] at hn ⊢
    exact ⟨hn.1, hn.2.1, hn.2.2.1, hn.2.2.2, hctrl⟩
  rw [Dev.writeReg_header ho hf hw]
  simp only [hp, Bool.false_eq_true, if_false, Dev.headerWrite_plain (findReg_off_notMem hf hact)]

theorem Dev.writeReg_class_plain (ho : 0x400 ≤ off) (hg : d.gated un = false) (hc : classOf un ∉ actingClasses)
    (hf : findReg un off = some (r, i)) (hw : r.window = .none) :
    d.writeReg un off h v = d.storeWord (frameUn un off) r i (halfWord h (d.rwWord (frameUn un off) r i) v) := by
  have hu : un ≠ uHIF := by rintro rfl; exact absurd hc (by decide)
  rw [Dev.writeReg_class ho hg hu hf hw, Dev.classWrite_plain (by rwa [classOf_frameUn])]

theorem Dev.writeReg_of_findReg_none (ho : off < 0x300) (hf : findReg un off = none) : d.writeReg un off h v = d := by
  rw [Dev.writeReg, if_neg (by omega), if_neg (by omega), if_neg (by omega), hf]

/-! ### UF_EVT_ROUTE -/

/-- The device with both fields of a unit's UF_EVT_ROUTE set from a word. -/
def Dev.routed (d : Dev) (un v : Nat) : Dev := (d.set un UF_EVT_ROUTE.COPY_CLUSTER (bits v 8 8)).set un UF_EVT_ROUTE.EVT_RING (bits v 5 0)

theorem Dev.storeWord_evtRoute (d : Dev) (un v : Nat) : d.storeWord un UF_EVT_ROUTE.desc 0 (v % 2 ^ 64) = d.routed un v := by
  have hring : bits (v % 2 ^ 64) 5 0 = bits v 5 0 := by simp only [bits]; omega
  have hcopy : bits (v % 2 ^ 64) 8 8 = bits v 8 8 := by simp only [bits]; omega
  rw [Dev.routed, ← hring, ← hcopy]
  rfl

theorem Dev.routed_evtRing (d : Dev) (un v : Nat) : (d.routed un v).get un UF_EVT_ROUTE.EVT_RING = bits v 5 0 :=
  (Dev.get_set_self ..).trans (Nat.mod_mod ..)

theorem Dev.routed_copyCluster (d : Dev) (un v : Nat) : (d.routed un v).get un UF_EVT_ROUTE.COPY_CLUSTER = bits v 8 8 := by
  refine (Dev.get_set_ne ?_).trans ((Dev.get_set_self ..).trans (Nat.mod_mod ..))
  exact fun e => absurd (Fld.key_eq_iff.1 e).2.2.1 (by decide)

theorem Dev.fields_routed {k : Key} (hr : k ≠ UF_EVT_ROUTE.EVT_RING.key un 0) (hc : k ≠ UF_EVT_ROUTE.COPY_CLUSTER.key un 0) :
    (d.routed un v).fields.get? k = d.fields.get? k :=
  (Dev.fields_setI_ne hr).trans (Dev.fields_setI_ne hc)

theorem Dev.served_routed (d : Dev) (un v u : Nat) : (d.routed un v).served u = d.served u := by
  have hf : (d.routed un v).getI 0 FW_STATUS.RECOVERY 0 = d.getI 0 FW_STATUS.RECOVERY 0 :=
    Dev.getI_congr (Dev.fields_routed (fun e => absurd (Fld.key_eq_iff.1 e).2.1 (by decide))
      (fun e => absurd (Fld.key_eq_iff.1 e).2.1 (by decide)))
  simp only [Dev.served, Dev.flag, Dev.flagI, hf]

/-- No field of UF_EVT_ROUTE follows other state. -/
theorem Dev.liveBits_evtRoute (d : Dev) (un : Nat) : d.liveBits un UF_EVT_ROUTE.EVT_RING.off = 0 := by
  simp [Dev.liveBits, UF_EVT_ROUTE.EVT_RING, UF_EVT_PEND.PEND, UF_EVT_SEQ.LAST_SEQ, UF_PMC_SHADOW.COUNT, UF_PMC_SHADOW_CYCLE.CYCLES,
    UF_PMC_CYCLE.CYCLES, UF_PMC_SNAP_ID.SNAP_ID, UF_PMC_SNAP_TIME.TIME, TMS_PORT_STATUS.HOLD_LEFT_MS, HIF_ID.REVISION, SPW_STATUS.IN_DEBT,
    RID_STATUS.TURNS_HELD, DRC_CE_LAST_S.COUNT, ZFP_LINK_STATUS.DEATHS]

/-- A read of UF_EVT_ROUTE puts its two fields together. -/
theorem Dev.regRead_evtRoute (hs : d.served un = true) :
    d.regRead un UF_EVT_ROUTE.EVT_RING.off = d.get un UF_EVT_ROUTE.EVT_RING + d.get un UF_EVT_ROUTE.COPY_CLUSTER * 2 ^ 8 := by
  have hword : d.wordOf un UF_EVT_ROUTE.desc 0
      = 0 + d.get un UF_EVT_ROUTE.COPY_CLUSTER * 2 ^ 8 + d.get un UF_EVT_ROUTE.EVT_RING * 2 ^ 0 := rfl
  rw [Dev.regRead, if_neg (by simp [hs, UF_EVT_ROUTE.EVT_RING])]
  rw [if_neg (by decide), if_neg (fun h => absurd h.2.1 (by decide)), if_neg (fun h => absurd h.2.1 (by decide)),
    if_neg (fun h => absurd h.2.1 (by decide)), if_neg (fun h => absurd h.2 (by decide)), findReg_evtRoute]
  simp only [Dev.windowIx_of_none (show UF_EVT_ROUTE.desc.window = .none from rfl),
    frameUn_of_lt (show UF_EVT_ROUTE.EVT_RING.off < 0x400 by decide), Dev.liveBits_evtRoute, hword]
  omega

theorem Dev.writeReg_evtRoute (d : Dev) (un v : Nat) : d.writeReg un UF_EVT_ROUTE.EVT_RING.off .both v = d.routed un v :=
  (Dev.writeReg_header_plain (by decide) (by decide) (by decide) (findReg_evtRoute un) rfl).trans (d.storeWord_evtRoute un v)

end

/-! ### RC fields -/

/-- What an RC field holds after it was read: what the hardware puts there in the same clock, or its reset value (R10). -/
def Dev.rcPut (d : Dev) (un i : Nat) (update : Option Nat) (f : FieldDesc) : Dev :=
  match update with
  | none => d.clearFldI un f.fld i
  | some v => d.setI un f.fld i v

/-- The RC fields that a read of a half of a register takes in. -/
def RegDesc.rcTaken (r : RegDesc) (h : Half) : List FieldDesc := r.fields.filter (fun f => f.acc = .rc ∧ h.takes f.fld.lo = true)

section
variable {d : Dev} {un off i : Nat} {h : Half} {u : Option Nat} {r : RegDesc} {f : FieldDesc}

theorem RegDesc.mem_rcTaken : f ∈ r.rcTaken h ↔ f ∈ r.fields ∧ f.acc = .rc ∧ h.takes f.fld.lo = true := by
  simp [RegDesc.rcTaken]

/-- The registers of the egress schedulers, which are held under one unit's number, have no RC field. -/
theorem frameUn_of_rc (hr : r ∈ regsOf un) (hf : f ∈ r.fields) (ha : f.acc = .rc) (off : Nat) : frameUn un off = un := by
  refine if_neg fun ⟨he, _⟩ => ?_
  subst he
  exact absurd ha ((by decide : ∀ r ∈ regsOf 98, ∀ f ∈ r.fields, f.acc ≠ .rc) r hr f hf)

/-- A read takes in at most one RC field. -/
theorem rcTaken_cases (hr : r ∈ regsOf un) (h : Half) : r.rcTaken h = [] ∨ ∃ f, r.rcTaken h = [f] := by
  have hlen : (r.rcTaken h).length ≤ 1 := by
    refine Nat.le_trans ?_ (rcFields_length un r hr)
    rw [RegDesc.rcTaken, ← List.countP_eq_length_filter, ← List.countP_eq_length_filter]
    exact List.countP_mono_left fun f _ hf => decide_eq_true (of_decide_eq_true hf).1
  generalize r.rcTaken h = l at hlen
  cases l with
  | nil => exact .inl rfl
  | cons f fs => exact .inr ⟨f, by rw [List.eq_nil_of_length_eq_zero (Nat.le_zero.1 (Nat.le_of_succ_le_succ hlen))]⟩

theorem Dev.rcDone_eq (hf : findReg un off = some (r, i)) (hw : r.window = .none) :
    d.rcDone un off h u = (r.rcTaken h).foldl (fun d f => d.rcPut (frameUn un off) i u f) d := by
  rw [Dev.rcDone, hf]
  simp only [Dev.windowIx_of_none hw, RegDesc.rcTaken, List.foldl_filter, decide_eq_true_eq]
  rfl

theorem Dev.rcPut_self (d : Dev) (un i : Nat) (u : Option Nat) (f : FieldDesc) :
    (d.rcPut un i u f).getI un f.fld i = (match u with | none => resetVal un f.fld.rst i | some v => v % 2 ^ f.fld.width) := by
  cases u with
  | none => exact d.getI_clearFldI_self ..
  | some v => exact d.getI_setI_self ..

theorem Dev.fields_rcPut_ne {k : Key} (hk : k ≠ f.fld.key un i) : (d.rcPut un i u f).fields.get? k = d.fields.get? k := by
  cases u with
  | none => exact Tab.get?_erase_ne hk
  | some v => exact Dev.fields_setI_ne hk

theorem Dev.rcPut_eq (d : Dev) (un i : Nat) (u : Option Nat) (f : FieldDesc) :
    d.rcPut un i u f = { d with fields := (d.rcPut un i u f).fields } := by
  cases u <;> rfl

/-- The RC fields read hold what `rcPut` puts there, and nothing else has changed. -/
theorem Dev.rcDone_spec (d : Dev) (h : Half) (u : Option Nat) (hf : findReg un off = some (r, i)) (hw : r.window = .none) :
    (∀ f ∈ r.rcTaken h, (d.rcDone un off h u).getI (frameUn un off) f.fld i =
        (match u with | none => resetVal un f.fld.rst i | some v => v % 2 ^ f.fld.width))
    ∧ d.rcDone un off h u = { d with fields := (d.rcDone un off h u).fields }
    ∧ ∀ k, (∀ f ∈ r.rcTaken h, k ≠ f.fld.key (frameUn un off) i) → (d.rcDone un off h u).fields.get? k = d.fields.get? k := by
  rw [Dev.rcDone_eq hf hw]
  rcases rcTaken_cases (findReg_mem hf).1 h with e | ⟨f, e⟩ <;> rw [e]
  · exact ⟨fun f hm => absurd hm List.not_mem_nil, rfl, fun _ _ => rfl⟩
  · refine ⟨fun g hm => ?_, d.rcPut_eq .., fun k hk => Dev.fields_rcPut_ne (hk f List.mem_cons_self)⟩
    obtain rfl := List.mem_singleton.1 hm
    obtain ⟨hg, hrc, -⟩ := RegDesc.mem_rcTaken.1 (e ▸ hm)
    rw [frameUn_of_rc (findReg_mem hf).1 hg hrc]
    exact d.rcPut_self ..

theorem Dev.rcFieldRead_ungated (hs : d.served un = true) (hg : 0x400 ≤ off → d.gated un = false) :
    d.rcFieldRead un off h u
      = ({ d.accessed un with lastRead := h.of ((d.accessed un).regRead un off) } : Dev).rcDone un off h u := by
  have hng : ¬ (0x400 ≤ off ∧ (d.accessed un).gated un = true) := fun ⟨ho, hx⟩ => by
    rw [(d.noted_accessed un).gated, hg ho] at hx
    exact absurd hx (by decide)
  rw [Dev.rcFieldRead, if_neg (by simp [hs]), if_neg hng]

end

/-! ### The statement -/

/-- Settles O11: each clause is the effect of its command on the device, and every write or read of a served frame starts from the device
in which the access has been counted. -/
theorem registerWritesAndRcReads : Obligations.RegisterWritesAndRcReads := by
  refine ⟨Dev.noted_accessed, fun s un v hs => ?_, fun s un off h v i r hs ha hf hw => ?_, fun s un off h v hn => ?_,
    fun s un off h v hs ha ho hf => ?_, fun s un off i h u r hs hg hf hw => ?_, fun s un off h u hs => ?_⟩
  · refine ⟨(s.dev.accessed un).routed un v, ?_, Dev.routed_evtRing .., Dev.routed_copyCluster .., ?_, rfl,
      fun k => Dev.fields_routed⟩
    · rw [← Dev.writeReg_evtRoute]
      exact makes_registerWrite hs rfl
    · rw [Dev.regRead_evtRoute, Dev.routed_evtRing, Dev.routed_copyCluster]
      rw [Dev.served_routed, (s.dev.noted_accessed un).served, hs]
  · have hm : Makes (.registerWrite un off h v) s ((s.dev.accessed un).writeReg un off h v) := makes_registerWrite hs ha
    refine ⟨fun ho hp hn => ?_, fun ho hg hc => ?_, hm⟩
    · rwa [Dev.writeReg_header_plain ho hp hn hf hw] at hm
    · rwa [Dev.writeReg_class_plain ho (((s.dev.noted_accessed un).gated un).trans hg) hc hf hw] at hm
  · exact Makes.intro rfl (if_pos (hn.imp (fun h => by simp [h]) id))
  · have hm := makes_registerWrite (v := v) (h := h) hs ha
    rwa [Dev.writeReg_of_findReg_none ho hf] at hm
  · obtain ⟨hput, heq, hkeep⟩ := Dev.rcDone_spec
      { s.dev.accessed un with lastRead := h.of ((s.dev.accessed un).regRead un off) } h u hf hw
    refine ⟨_, Makes.intro rfl (Dev.rcFieldRead_ungated hs hg), ?_, fun f hm hrc ht => hput f (RegDesc.mem_rcTaken.2 ⟨hm, hrc, ht⟩),
      ?_, fun k hk => hkeep k fun f hm => ?_⟩
    · rw [heq]
    · rw [heq]
    · obtain ⟨hm, hrc, ht⟩ := RegDesc.mem_rcTaken.1 hm
      exact hk f hm hrc ht
  · exact Makes.intro rfl (if_pos (by simp [hs]))

end Sys2Proof.Machine
end

section
/-! SUPPORT. Frames that ports receive, and the statement about them. -/
namespace Sys2Proof.Machine
open Sys2Proof

/-- A frame on a port that is UP, whose body found buffers, meets the checks of R81 in their order. -/
theorem Dev.frameReceived_stored {d : Dev} {p sfd h : Nat} {bytes : List Byte} {fcsOk : Bool} (hu : d.portInUse p = true)
    (hl : d.linkState p = lsUP) (hb : (d.storeBody (reqLateral (latOf p)) 0 bytes 1).2 = some h) :
    d.frameReceived p bytes fcsOk sfd =
      (let un := uPort p
       let n := bytes.length + 4
       let d := (d.storeBody (reqLateral (latOf p)) 0 bytes 1).1
       let freed (f : Fld) : Dev := (d.dropRef h).bump un f
       if fcsOk = false then freed PRT_RX_FCS_ERR.COUNT
       else if n < 64 then freed PRT_RX_UNDERSIZE.COUNT
       else if d.act un PRT_MODE.MAX_FRAME < n then freed PRT_RX_OVERSIZE.COUNT
       else if beAt bytes 12 2 = 0x8808 then freed PRT_RX_MAC_CTRL.COUNT
       else
         let e := (((d.bump un PRT_RX_FRAMES.COUNT).add un PRT_RX_BYTES.COUNT n).tally un 0x20 1).tally un 0x21 n
         let e := e.setPortX p { e.portX p with lastFrame := some e.now }
         let r := ({ e with draws := e.draws + 1 }).storeHdr ⟨p, h, bytes.length, (e.rxStamp p sfd).1, (e.rxStamp p sfd).2⟩
         if r.2 then r.1 else r.1.dropRef h) := by
  rw [Dev.frameReceived, if_neg (by simp [hu, hl])]
  simp only [hb, Bool.not_eq_true]

/-- Settles O33, check by check of R81. -/
theorem framesAreReceived : Obligations.FramesAreReceived := by
  refine ⟨fun s p bytes fcsOk sfd hd => Makes.intro rfl (if_pos (.inr hd)), fun s p bytes fcsOk sfd hu hl => ⟨fun hb => ?_, fun h hb => ?_⟩⟩
  · refine Makes.intro rfl ?_
    rw [Dev.frameReceived, if_neg (by simp [hu, hl])]
    simp only [hb]
  have hm := Makes.intro (i := .frameReceived p bytes fcsOk sfd) rfl (Dev.frameReceived_stored (fcsOk := fcsOk) (sfd := sfd) hu hl hb)
  refine ⟨fun hf => ?_, fun hf hn => ?_, fun hf hn hx => ?_, fun hf hn hx hc => ?_, fun hf hn hx hc => ?_⟩
  · simpa only [hf, if_true] using hm
  · simpa only [hf, Bool.true_eq_false, if_false, hn, if_true] using hm
  · simpa only [hf, Bool.true_eq_false, if_false, Nat.not_lt.2 hn, hx, if_true] using hm
  · simpa only [hf, Bool.true_eq_false, if_false, Nat.not_lt.2 hn, Nat.not_lt.2 hx, hc, if_true] using hm
  · simpa only [hf, Bool.true_eq_false, if_false, Nat.not_lt.2 hn, Nat.not_lt.2 hx, hc] using hm
end Sys2Proof.Machine
end

section
/-! SUPPORT. Temperatures, throttling and the bridges, and the statement about them. -/
namespace Sys2Proof.Machine
open Sys2Proof

/-! ### Service states -/

theorem Dev.Noted.svc {a b : Dev} (h : a.Noted b) (u : Nat) : b.svc u = a.svc u := h.get (noteKey_of _ _ _ (by decide))

/-- A write of any other field leaves service states. -/
theorem Dev.svc_set (d : Dev) (un u v : Nat) {f : Fld} (h : (f.off, f.lo) ≠ (UF_STATE.SVC_STATE.off, UF_STATE.SVC_STATE.lo)) :
    (d.set un f v).svc u = d.svc u :=
  Dev.get_set_ne fun e => h (Prod.ext (Fld.key_eq_iff.1 e).2.1.symm (Fld.key_eq_iff.1 e).2.2.1.symm)

theorem Dev.svc_showCores (d : Dev) (un u : Nat) : (d.showCores un).svc u = d.svc u := by
  unfold Dev.showCores
  split
  · exact d.svc_set _ _ _ (by decide)
  · rfl

theorem Dev.rid_showCores (d : Dev) (un : Nat) : (d.showCores un).rid = d.rid := by
  unfold Dev.showCores
  split <;> rfl

/-- A change of a unit's service state leaves every SVC_STATE as one write of the field does. -/
theorem Dev.svc_setSvc (d : Dev) (un new u : Nat) : (d.setSvc un new).svc u = (d.set un UF_STATE.SVC_STATE new).svc u := by
  unfold Dev.setSvc
  extract_lets old dState dSleep rid₀ dRetired rid₁ dRelieved dCores
  have hState : dState.svc u = (d.set un UF_STATE.SVC_STATE new).svc u := by
    by_cases hu : u = un
    · subst hu
      exact (Dev.get_set_self ..).trans (Dev.get_set_self ..).symm
    · have hk : UF_STATE.SVC_STATE.key u 0 ≠ UF_STATE.SVC_STATE.key un 0 := fun e => hu (Fld.key_eq_iff.1 e).1
      exact (Dev.get_set_ne hk).trans ((d.svc_set _ _ _ (by decide)).trans (Dev.get_set_ne hk).symm)
  have hSleep : dSleep.svc u = dState.svc u := by
    have hset (v : Nat) : (dState.set un UF_STATE.SLEEP_STATE v).svc u = dState.svc u := dState.svc_set _ _ _ (by decide)
    dsimp only [dSleep]
    split
    · exact hset 1
    · split
      · exact hset 0
      · rfl
  have hRetired : dRetired.svc u = dSleep.svc u := by
    dsimp only [dRetired]
    split <;> rfl
  calc _ = dCores.svc u := (Dev.noted_raise ..).svc u
    _ = dRelieved.svc u := dRelieved.svc_showCores un u
    _ = _ := hRetired.trans (hSleep.trans hState)

theorem Dev.svc_setSvc_self (d : Dev) (un : Nat) {new : Nat} (h : new < 16) : (d.setSvc un new).svc un = new :=
  (d.svc_setSvc un new un).trans ((Dev.get_set_self ..).trans (Nat.mod_eq_of_lt h))

theorem Dev.svc_setSvc_ne (d : Dev) {un u : Nat} (new : Nat) (h : u ≠ un) : (d.setSvc un new).svc u = d.svc u :=
  (d.svc_setSvc un new u).trans (Dev.get_set_ne fun e => h (Fld.key_eq_iff.1 e).1)

/-- A unit whose service state changes is relieved of no stream any more. -/
theorem Dev.rid_relieved_setSvc (d : Dev) (un new : Nat) : (d.setSvc un new).rid.relieved = d.rid.relieved.filter (· != un) := by
  unfold Dev.setSvc
  extract_lets old dState dSleep rid₀ dRetired rid₁ dRelieved dCores
  have hSleep : dSleep.rid = d.rid := by
    dsimp only [dSleep]
    split
    · rfl
    · split <;> rfl
  have hRetired : dRetired.rid.relieved = dSleep.rid.relieved := by
    dsimp only [dRetired]
    split <;> rfl
  calc _ = dCores.rid.relieved := congrArg RidState.relieved (Dev.noted_raise ..).rid
    _ = dRelieved.rid.relieved := congrArg RidState.relieved (dRelieved.rid_showCores un)
    _ = _ := congrArg (List.filter (· != un)) (hRetired.trans (congrArg RidState.relieved hSleep))

theorem Dev.relieved_setSvc_ne (d : Dev) {un u : Nat} (new : Nat) (h : u ≠ un) : (d.setSvc un new).relieved u = d.relieved u := by
  rw [Dev.relieved, Dev.rid_relieved_setSvc, Dev.relieved]
  simp [List.contains_eq_mem, h]

/-! ### Capacity figures -/

/-- Neither which members are in service nor what they carry depends on the figures announced. -/
theorem Dev.counted_announce (d : Dev) (un u : Nat) (o : Option Nat) : (d.announce un o).counted u = d.counted u := by
  have hr (e : Dev) : ((e.setFlag un UF_STATE.DEGRADED o.isSome).raise un 0x06 (leBytes 4 (o.getD 1000000))).counted u = e.counted u := by
    have hn := (e.setFlag un UF_STATE.DEGRADED o.isSome).noted_raise un 0x06 (leBytes 4 (o.getD 1000000))
    have hs := (hn.svc u).trans (e.svc_set un u o.isSome.toNat (by decide))
    simp only [Dev.counted, hs, Dev.relieved, hn.rid]
    rfl
  unfold Dev.announce
  split
  · rfl
  · exact hr _

theorem Dev.counted_setFigure (d : Dev) (un u : Nat) (o : Option Nat) : (d.setFigure un o).counted u = d.counted u := by
  suffices h : ∀ (l : List Nat) (e : Dev), (l.foldl (fun d a => d.announce a (d.lowest a)) e).counted u = e.counted u from h _ _
  intro l
  induction l with
  | nil => exact fun _ => rfl
  | cons a l ih => exact fun e => (ih _).trans (e.counted_announce ..)

theorem Dev.memberCount_congr {a b : Dev} (h : ∀ u, b.counted u = a.counted u) (us : List Nat) : b.memberCount us = a.memberCount us :=
  congrArg (fun p => (us.filter p).length) (funext h)

theorem Dev.memberCount_setCapacity (d : Dev) (un fig : Nat) (us : List Nat) : (d.setCapacity un fig).memberCount us = d.memberCount us :=
  Dev.memberCount_congr (fun u => d.counted_setFigure un u _) us

theorem Dev.Noted.memberCount {a b : Dev} (h : a.Noted b) (us : List Nat) : b.memberCount us = a.memberCount us :=
  Dev.memberCount_congr (fun u => by simp only [Dev.counted, h.svc, Dev.relieved, h.rid]) us

/-- Three of the four bridges serve, once the fourth is retired. -/
theorem Dev.memberCount_bridgeUnits {d : Dev} {bridge : Nat} (hb : bridge < 4)
    (h : ∀ u ∈ bridgeUnits, u ≠ 4 + bridge → d.svc u = sACTIVE ∧ d.relieved u = false) :
    (d.setSvc (4 + bridge) sRETIRED).memberCount bridgeUnits = 3 := by
  have hc : ∀ u ∈ bridgeUnits, (d.setSvc (4 + bridge) sRETIRED).counted u = decide (u ≠ 4 + bridge) := by
    intro u hu
    by_cases hne : u = 4 + bridge
    · subst hne
      have hs := d.svc_setSvc_self (4 + bridge) (show sRETIRED < 16 by decide)
      simp [Dev.counted, hs, show (sRETIRED == sACTIVE) = false from rfl, show (sRETIRED == sOFF) = false from rfl]
    · obtain ⟨hs, hr⟩ := h u hu hne
      simp [Dev.counted, d.svc_setSvc_ne _ hne, d.relieved_setSvc_ne _ hne, hs, hr, hne]
  rw [Dev.memberCount, List.filter_congr hc]
  clear hc h
  revert bridge
  decide

/-! ### Temperatures and throttling -/

theorem Dev.maxC_tempRead (d : Dev) (un v : Nat) (p : Prop) [Decidable p] :
    (if p then (d.set un PWR_TEMP.TEMP_C v).rises un 0x20 else d.set un PWR_TEMP.TEMP_C v).get un PWR_TEMP.MAX_C = d.get un PWR_TEMP.MAX_C := by
  have hset : (d.set un PWR_TEMP.TEMP_C v).get un PWR_TEMP.MAX_C = d.get un PWR_TEMP.MAX_C :=
    Dev.get_set_ne fun e => absurd (Fld.key_eq_iff.1 e).2.2.1 (by decide)
  split
  · exact ((Dev.noted_rises ..).get (noteKey_of _ _ _ (by decide))).trans hset
  · exact hset

theorem Dev.tempRead_eq (d : Dev) {un : Nat} {t : Int} (hlo : 816 ≤ un) (hhi : un ≤ 855) (htlo : -128 ≤ t) (hthi : t ≤ 127) :
    d.tempRead un t =
      (let x := d.set un PWR_TEMP.TEMP_C (ofSigned 8 t)
       let y := if d.tempC un < 100 ∧ 100 ≤ t then x.rises un 0x20 else x
       let z := if toSigned 8 (d.get un PWR_TEMP.MAX_C) < t then y.set un PWR_TEMP.MAX_C (ofSigned 8 t) else y
       let w := if d.flag un PWR_TEMP.WARN = false ∧ 100 ≤ t then
           (z.set un PWR_TEMP.WARN 1).raise un 0x10 (leBytes 1 (ofSigned 8 t) ++ leBytes 1 1)
         else if d.flag un PWR_TEMP.WARN = true ∧ t ≤ 98 then
           (z.set un PWR_TEMP.WARN 0).raise un 0x10 (leBytes 1 (ofSigned 8 t) ++ leBytes 1 0)
         else z
       if 848 ≤ un then w.stackTemp (un - 848) t else w) := by
  have ht : max (-128) (min 127 t) = t := by omega
  rw [Dev.tempRead, if_neg (by omega)]
  simp only [ht, decide_eq_true_eq, Int.not_le, Bool.not_eq_true, Dev.maxC_tempRead]

theorem Dev.stackTemp_eq (d : Dev) (k : Nat) (t : Int) :
    d.stackTemp k t =
      (let e := d.set (uSTK k) DRC_STACK_STATUS.TEMP_C (ofSigned 8 t)
       let fast := d.flag (uSTK k) DRC_STACK_STATUS.REFRESH_2X
       if fast = false ∧ 85 < t then (e.set (uSTK k) DRC_STACK_STATUS.REFRESH_2X 1).raise (uSTK k) 0x15 (leBytes 1 1 ++ leBytes 1 (ofSigned 8 t))
       else if fast = true ∧ t ≤ 83 then
         (e.set (uSTK k) DRC_STACK_STATUS.REFRESH_2X 0).raise (uSTK k) 0x15 (leBytes 1 0 ++ leBytes 1 (ofSigned 8 t))
       else e) := by
  have hset : (d.set (uSTK k) DRC_STACK_STATUS.TEMP_C (ofSigned 8 t)).flag (uSTK k) DRC_STACK_STATUS.REFRESH_2X
      = d.flag (uSTK k) DRC_STACK_STATUS.REFRESH_2X :=
    congrArg (· == 1) (Dev.get_set_ne fun e => absurd (Fld.key_eq_iff.1 e).2.2.1 (by decide))
  simp only [Dev.stackTemp, hset, Bool.not_eq_true]

theorem Dev.throttleTo_eq (d : Dev) (die n : Nat) :
    d.throttleTo die n false =
      (let e := (if die = 1 then [771, 772] else [786]).foldl (fun d u => d.set u CLK_PLL_STATUS.THROTTLE n) d
       ({ e with pwr := { e.pwr with throttledAt := e.pwr.throttledAt.insert [die] e.now } } : Dev).raise ((sensorsOf die).headD 816) 0x11
        (leBytes 1 die ++ leBytes 1 n)) := by
  simp [Dev.throttleTo]

/-- The steps of a die's throttle stand in its PLLs' THROTTLE, and THROTTLE is raised on its first sensor. -/
theorem Dev.throttleTo_reads (d : Dev) (die : Nat) {n : Nat} (hn : n ≤ 8) :
    (d.throttleTo die n false).hasRaised ((sensorsOf die).headD 816) 0x11 (leBytes 1 die ++ leBytes 1 n)
    ∧ ∀ u ∈ (if die = 1 then [771, 772] else [786]), (d.throttleTo die n false).get u CLK_PLL_STATUS.THROTTLE = n := by
  rw [Dev.throttleTo_eq]
  refine ⟨Dev.raise_raised _ _ _ _ (by simp [ownType]) (by decide), fun u hu => ?_⟩
  refine ((Dev.noted_raise ..).get (noteKey_of _ _ _ (by decide))).trans ?_
  have hw (e : Dev) (x : Nat) : (e.set x CLK_PLL_STATUS.THROTTLE n).get x CLK_PLL_STATUS.THROTTLE = n :=
    (Dev.get_set_self ..).trans (Nat.mod_eq_of_lt (show n < 16 by omega))
  by_cases hd : die = 1
  · rw [if_pos hd] at hu ⊢
    simp only [List.mem_cons, List.not_mem_nil, or_false] at hu
    rcases hu with rfl | rfl
    · exact (Dev.get_set_ne (by decide)).trans (hw d 771)
    · exact hw (d.set 771 CLK_PLL_STATUS.THROTTLE n) 772
  · rw [if_neg hd] at hu ⊢
    obtain rfl := List.mem_singleton.1 hu
    exact hw d 786

/-- The PLL whose THROTTLE tells a die's throttle steps. -/
def throttlePll (die : Nat) : Nat := if die = 1 then 771 else 786

section
variable {d : Dev} {die : Nat}

theorem any_hot (h : ∃ x ∈ sensorsOf die, 105 ≤ d.tempC x) : (sensorsOf die).any (fun x => decide (105 ≤ d.tempC x)) = true :=
  List.any_eq_true.2 (h.imp fun _ hx => ⟨hx.1, decide_eq_true hx.2⟩)

theorem any_hot_of_cool (h : ∀ x ∈ sensorsOf die, d.tempC x ≤ 102) :
    (sensorsOf die).any (fun x => decide (105 ≤ d.tempC x)) = false :=
  List.any_eq_false.2 fun x hx => by have := h x hx; simp; omega

/-- A hot die takes a step more, 1 ms after its last change (R529). -/
theorem Dev.throttle_hot (hd : die = 1 ∨ die = 2) (hhot : ∃ x ∈ sensorsOf die, 105 ≤ d.tempC x)
    (hen : d.flag die PWR_DIE_CFG.THROTTLE_EN = true) (hn : d.get (throttlePll die) CLK_PLL_STATUS.THROTTLE < 8)
    (ha : ∀ t, d.pwr.throttledAt.get? [die] = some t → t + 1000000 ≤ d.now) :
    d.throttle die = d.throttleTo die (d.get (throttlePll die) CLK_PLL_STATUS.THROTTLE + 1)
      (d.get (throttlePll die) CLK_PLL_STATUS.THROTTLE == 0) := by
  rw [Dev.throttle, if_neg (by omega)]
  simp only [any_hot hhot, if_true]
  refine if_pos ⟨hen, hn, ?_⟩
  split
  · next t ht => exact decide_eq_true (ha t ht)
  · rfl

theorem Dev.throttle_hot_no_step (hd : die = 1 ∨ die = 2) (hhot : ∃ x ∈ sensorsOf die, 105 ≤ d.tempC x)
    (h : d.flag die PWR_DIE_CFG.THROTTLE_EN = false ∨ 8 ≤ d.get (throttlePll die) CLK_PLL_STATUS.THROTTLE) : d.throttle die = d := by
  rw [Dev.throttle, if_neg (by omega)]
  simp only [any_hot hhot, if_true]
  refine if_neg fun ⟨hen, hn, _⟩ => ?_
  rcases h with h | h
  · exact absurd hen (by simp [h])
  · exact absurd hn (Nat.not_lt.2 h)

/-- A die that has cooled takes a step off, 10 ms after its last change (R529). -/
theorem Dev.throttle_cool (hd : die = 1 ∨ die = 2) (hcool : ∀ x ∈ sensorsOf die, d.tempC x ≤ 102)
    (hn : 0 < d.get (throttlePll die) CLK_PLL_STATUS.THROTTLE)
    (ha : ∀ t, d.pwr.throttledAt.get? [die] = some t → t + 10000000 ≤ d.now) :
    d.throttle die = d.throttleTo die (d.get (throttlePll die) CLK_PLL_STATUS.THROTTLE - 1)
      (d.get (throttlePll die) CLK_PLL_STATUS.THROTTLE == 1) := by
  rw [Dev.throttle, if_neg (by omega)]
  simp only [any_hot_of_cool hcool, Bool.false_eq_true, if_false]
  refine if_pos ⟨List.all_eq_true.2 fun x hx => decide_eq_true (hcool x hx), hn, ?_⟩
  split
  · next t ht => exact decide_eq_true (ha t ht)
  · rfl

end

/-! ### Bridges -/

theorem classOf_bridge : ∀ b < 4, classOf (4 + b) = 0x04 := by decide

/-- A lost bridge lowers the die-to-die link's figure and has no spare (R18, R391). -/
theorem Dev.unitLost_bridge (d : Dev) {bridge : Nat} (hb : bridge < 4) :
    d.unitLost (4 + bridge)
      = ((d.setCapacity 3 (250000 * d.memberCount bridgeUnits)).sparesExhausted 3 (4 + bridge)).groupLost (4 + bridge) := by
  simp only [Dev.unitLost, Dev.showGroup, lossGroup, classOf_bridge bridge hb]

/-- The die-to-die link is not lost while a bridge serves. -/
theorem Dev.groupLost_bridge (d : Dev) {bridge : Nat} (hb : bridge < 4) (h : d.memberCount bridgeUnits ≠ 0) :
    d.groupLost (4 + bridge) = d := by
  simp [Dev.groupLost, classOf_bridge bridge hb, h]

theorem Dev.bridgeWireRepair_retires {d : Dev} {bridge : Nat} (hb : bridge < 4) (hs : d.svc (4 + bridge) ≠ sRETIRED) :
    d.bridgeWireRepair bridge false = (d.setSvc (4 + bridge) sRETIRED).unitLost (4 + bridge) :=
  if_neg (by simp [hs, hb])

/-! ### The statement -/

/-- Settles O25, from one equation for each command. -/
theorem temperatureAndBridges : Obligations.TemperatureAndBridges := by
  refine ⟨fun s un t hlo hhi htlo hthi => Makes.intro rfl (Dev.tempRead_eq s.dev hlo hhi htlo hthi), fun s die hd => ?_, fun d n hn => ?_,
    fun d k t _ _ => d.stackTemp_eq k t, fun s x hx ht => ?_, fun s bridge hb hs => ?_⟩
  · exact ⟨fun hhot => ⟨fun hen hn ha => Makes.intro rfl (Dev.throttle_hot hd hhot hen hn ha),
        fun hoff => Makes.intro rfl (Dev.throttle_hot_no_step hd hhot hoff)⟩,
      fun hcool hn ha => Makes.intro rfl (Dev.throttle_cool hd hcool hn ha)⟩
  · obtain ⟨hraised, hreads⟩ := d.throttleTo_reads 1 hn
    obtain ⟨hraised', hreads'⟩ := d.throttleTo_reads 2 hn
    exact ⟨⟨hreads 771 (by decide), hreads 772 (by decide), hraised⟩, hreads' 786 (by decide), hraised'⟩
  · exact Makes.intro rfl (if_pos (List.any_eq_true.2 ⟨x, List.mem_append.2 hx, decide_eq_true ht⟩))
  · have hlost := Dev.bridgeWireRepair_retires hb hs
    refine ⟨Makes.intro rfl (hlost.trans (Dev.unitLost_bridge _ hb)), fun hothers => Makes.intro rfl (hlost.trans ?_),
      Makes.intro rfl (if_pos (.inr (.inl rfl)))⟩
    have hcount := Dev.memberCount_bridgeUnits hb hothers
    rw [Dev.unitLost_bridge _ hb, hcount]
    refine Dev.groupLost_bridge _ hb ?_
    rw [Dev.sparesExhausted, (Dev.noted_raise ..).memberCount, Dev.memberCount_setCapacity, hcount]
    decide

end Sys2Proof.Machine
end

section
/-! SUPPORT. Dispatch, passes of flumes, their records, lost buckets and sentinels, and the statement about them. -/
namespace Sys2Proof.Machine
open Sys2Proof

/-! ### Bytes -/

theorem ofLe_leBytes (n v : Nat) : ofLe (leBytes n v) = v % 256 ^ n := by
  induction n generalizing v with
  | zero => simp [leBytes, ofLe, Nat.mod_one]
  | succ n ih =>
    calc ofLe (leBytes (n + 1) v) = v % 256 + 256 * (v / 256 % 256 ^ n) := by rw [leBytes, ofLe, ih, BitVec.toNat_ofNat]
      _ = v % (256 * 256 ^ n) := Nat.mod_mul.symm
      _ = v % 256 ^ (n + 1) := by rw [Nat.pow_succ']

/-- A little-endian field reads the number that its bytes were made of. -/
theorem leAt_leBytes {xs : List Byte} {off : Nat} (h : xs.length = off) (ys : List Byte) (n v : Nat) :
    leAt (xs ++ (leBytes n v ++ ys)) off n = v % 256 ^ n := by
  have hs : slice (xs ++ (leBytes n v ++ ys)) off n = leBytes n v := by
    rw [slice, List.drop_left' h, List.take_left' (leBytes_length n v)]
    simp [leBytes_length]
  rw [leAt, hs, ofLe_leBytes]

/-! ### Records -/

theorem Dev.recordBytes_length (d : Dev) (k : Pkt) (y : Result) : (d.recordBytes k y).length = 64 := by
  simp [Dev.recordBytes, leBytes_length]

/-- A record begins with its LAT_SEQ and its TURN_SEQ (R208). -/
theorem Dev.recordBytes_head (d : Dev) (k : Pkt) (y : Result) :
    ∃ rest, d.recordBytes k y = leBytes 4 k.latSeq ++ (leBytes 4 k.turn ++ rest) := by
  simp only [Dev.recordBytes, List.append_assoc]
  exact ⟨_, rfl⟩

theorem Dev.recordBytes_seqs (d : Dev) (k : Pkt) (y : Result) :
    leAt (d.recordBytes k y) 0 4 = k.latSeq % 2 ^ 32 ∧ leAt (d.recordBytes k y) 4 4 = k.turn % 2 ^ 32 := by
  obtain ⟨rest, h⟩ := d.recordBytes_head k y
  have hp : 256 ^ 4 = 2 ^ 32 := by decide
  rw [h, ← hp]
  exact ⟨leAt_leBytes (xs := []) rfl _ 4 _, leAt_leBytes (leBytes_length 4 _) rest 4 _⟩

/-! ### Buckets and accesses -/

theorem Dev.access_eq (d : Dev) (qSide : Bool) (a n : Nat) : d.access qSide a n = { d with fields := (d.access qSide a n).fields } := by
  unfold Dev.access
  split <;> rfl

theorem Dev.fwd_sideWrite (d : Dev) (qSide : Bool) (a port n : Nat) : (d.sideWrite qSide a port n).fwd = d.fwd := by
  have hf := fun cs : List Nat => Dev.noted_foldl
    (fun d c => d.tallyQ (uCHN (sideStack qSide a) c) 0x21 n (selDramPort port)) (fun d c => d.noted_tallyQ ..) cs d
  unfold Dev.sideWrite
  split
  · rw [Dev.access_eq]
  · dsimp only
    split
    · exact (hf _).fwd
    · split
      · exact (hf _).fwd
      · exact (hf _).fwd

theorem Dev.fwd_showEm (d : Dev) : d.showEm.fwd = d.fwd := by
  unfold Dev.showEm
  extract_lets old n mark dOcc dHigh
  have hHigh : dHigh.fwd = d.fwd := by
    dsimp only [dHigh]
    split <;> rfl
  split
  · exact (Dev.noted_raise ..).fwd.trans hHigh
  · exact hHigh

/-- A learned entry in a slot of a bucket of an exact-match table. -/
def learnedIn (table bucket : Nat) (e : Key × EmEntry) : Bool :=
  isEm table && e.2.learned && (match e.2.place with
    | .slot b _ _ => b == bucket
    | .sump => false)

/-- A bucket's rebuilding takes from the tables the learned entries in its slots, and no others (R163). -/
theorem Dev.fwd_rebuildBucket (d : Dev) (table bucket : Nat) :
    (d.rebuildBucket (table, bucket)).fwd = { d.fwd with em := d.fwd.em.filter (fun e => !learnedIn table bucket e) } := by
  rw [Dev.rebuildBucket, (Dev.noted_raise ..).fwd, Dev.fwd_sideWrite, Dev.fwd_showEm]
  rfl

theorem Dev.em_rebuildBucket_of_not_isEm (d : Dev) {table : Nat} (bucket : Nat) (h : isEm table = false) :
    (d.rebuildBucket (table, bucket)).fwd.em = d.fwd.em := by
  rw [Dev.fwd_rebuildBucket]
  exact List.filter_eq_self.2 fun e _ => by simp [learnedIn, h]

theorem Dev.mem_em_rebuildBucket {d : Dev} {e : Key × EmEntry} (table bucket : Nat) (he : e ∈ d.fwd.em) (hl : e.2.learned = false) :
    e ∈ (d.rebuildBucket (table, bucket)).fwd.em := by
  rw [Dev.fwd_rebuildBucket]
  exact List.mem_filter.2 ⟨he, by simp [learnedIn, hl]⟩

theorem Dev.rebuildBucket_raised (d : Dev) (table bucket : Nat) :
    (d.rebuildBucket (table, bucket)).hasRaised uTBE 0x16 (leBytes 4 bucket ++ leBytes 1 table) :=
  Dev.raise_raised _ _ _ _ (by decide) (by decide)

theorem Dev.noted_countSearch (d : Dev) (p l : Nat) (won : Option Nat) : d.Noted (d.countSearch p l won) := by
  refine Dev.noted_foldl _ (fun d b => ?_) _ _
  dsimp only
  split
  · exact (d.noted_tally ..).trans (Dev.noted_tally ..)
  · exact d.noted_tally ..

/-- What a sentinel reads changes neither tables nor what DRAM holds (R212). -/
theorem Dev.sentinelReads_keeps (d : Dev) (u l : Nat) : (d.sentinelReads u l).fwd = d.fwd ∧ (d.sentinelReads u l).dram = d.dram := by
  have hs := Dev.noted_foldl (fun d p => Dev.countSearch d p l none) (fun d p => d.noted_countSearch p l none) (searched d.partCfgs 0) d
  rw [Dev.sentinelReads]
  dsimp only
  rw [Dev.access_eq, Dev.access_eq, Dev.access_eq]
  exact ⟨hs.fwd, hs.dram⟩

/-! ### Passes -/

/-- The device in which the eight stages of a flume have counted a pass. -/
def Dev.passCounted (d : Dev) (un : Nat) : Dev := (List.range 8).foldl (fun d j => d.tally (uStage un j) 0x20 1) d

/-- The device once the units in SHADOW have compared the item of a pass; `d` says who compares. -/
def Dev.itemShown (d b : Dev) (un : Nat) (y : Seen) (o : ShadowOut) : Dev :=
  (b.bankItems y (if (d.shadowsOf un).isEmpty then o else .same)).shadowItem un o

/-- The device once a first fragment's decision is kept (R117). -/
def Dev.decisionKept (b : Dev) (y : Seen) (hash : Nat) : Dev := match y.frag with
  | some f => if f.firstFrag = true ∧ y.later = false then b.fragWrite f.key ⟨y.act, hash⟩ else b
  | none => b

/-- The window's entry `k`, once its pass has ended with the findings `y`, a hash and a result. -/
def Dev.passRecorded (b : Dev) (un : Nat) (k : Pkt) (y : Seen) (hash : Nat) (x : Result) : Dev :=
  (b.decisionKept y hash).sendRecord un { y.k with colour := k.colour } x

/-- The packet that a pass sends round again, with what the pass found. -/
def Seen.nextPass (y : Seen) (k' : Pkt) : Pkt := { k' with updates := y.k.updates, colour := y.k.colour, seen := y.k.seen }

section
variable {d c : Dev} {un q : Nat} {k k' : Pkt} {lost : Bool} {r : Dev × Seen × Kind × Found × Ending × Nat}

/-- The fields of a result that every ending of a pass shares. -/
def passBase (r : Dev × Seen × Kind × Found × Ending × Nat) : Result := r.1.resultOf r.2.1 r.2.2.1 r.2.2.2.1

/-- A pass that ends leaves the record of its ending. -/
theorem Dev.passEnds_final (hc : d.passCounted un = c) (hr : c.runPass un k lost = r) (he : ∀ k', r.2.2.2.2.1 ≠ .again k')
    (o : ShadowOut) :
    d.passEnds un k lost o =
      (let x := r.1.finalOf (passBase r) r.2.2.2.2.1
       c.itemShown (x.1.passRecorded un k r.2.1 r.2.2.2.2.2 x.2) un r.2.1 o) := by
  obtain ⟨b, y, kind, found, e, hash⟩ := r
  subst hc
  rw [Dev.passCounted] at hr
  cases e with
  | again k' => exact absurd rfl (he k')
  | _ =>
    simp only [Dev.passEnds, hr, Dev.itemShown, Dev.passRecorded, Dev.decisionKept, Bool.not_eq_true]
    cases y.frag <;> rfl

/-- A recirculation that drops leaves its record as any other ending does. -/
theorem Dev.passEnds_dropped (hc : d.passCounted un = c) (hr : c.runPass un k lost = r) (he : r.2.2.2.2.1 = .again k') {x : Result}
    (hx : (r.1.recirculate un (passBase r) (r.2.1.nextPass k')).2 = some x) (o : ShadowOut) :
    d.passEnds un k lost o =
      c.itemShown ((r.1.recirculate un (passBase r) (r.2.1.nextPass k')).1.passRecorded un k r.2.1 r.2.2.2.2.2 x)
        un r.2.1 o := by
  obtain ⟨b, y, kind, found, e, hash⟩ := r
  obtain rfl : e = .again k' := he
  simp only [passBase, Seen.nextPass] at hx ⊢
  subst hc
  rw [Dev.passCounted] at hr
  simp only [Dev.passEnds, hr, Dev.itemShown, Dev.passRecorded, Dev.decisionKept, Bool.not_eq_true, hx, Option.map]
  cases y.frag <;> rfl

/-- A recirculation that goes on leaves no record. -/
theorem Dev.passEnds_again (hc : d.passCounted un = c) (hr : c.runPass un k lost = r) (he : r.2.2.2.2.1 = .again k')
    (hx : (r.1.recirculate un (passBase r) (r.2.1.nextPass k')).2 = none) (o : ShadowOut) :
    d.passEnds un k lost o =
      c.itemShown (r.1.recirculate un (passBase r) (r.2.1.nextPass k')).1 un r.2.1 o := by
  obtain ⟨b, y, kind, found, e, hash⟩ := r
  obtain rfl : e = .again k' := he
  simp only [passBase, Seen.nextPass] at hx ⊢
  subst hc
  rw [Dev.passCounted] at hr
  simp only [Dev.passEnds, hr, Dev.itemShown, hx, Option.map]
  rfl

/-- A pass one of whose lookups met an uncorrectable bucket ends in its drop (R163). -/
theorem Dev.runPass_lost (d : Dev) (un : Nat) (k : Pkt) : (d.runPass un k true).2.2.2.2.1 = .drop 0x09 := by
  simp only [Dev.runPass, true_or, if_true]

/-- The entry that a pass runs on: it has not been run yet, its flume is in service, and its turn may send. -/
theorem Dev.passOf_of_coveringTurn {w : Turn} (he : d.entryOf un q = some k) (hk : k.result = none) (hw : d.coveringTurn un q = some w)
    (hs : d.svc un = sACTIVE ∨ d.svc un = sDRAINING) : d.passOf un q = if w.sends d.now = true then some k else none := by
  simp [Dev.passOf, he, hk, hw, hs, Option.filter]

theorem Dev.flumePass_of_passOf (h : d.passOf un q = some k) (o : ShadowOut) : d.flumePass un q o = d.passEnds un k false o := by
  rw [Dev.flumePass, h]

/-- A lost bucket drops the packet of the pass that met it, and is rebuilt (R163). -/
theorem Dev.bucketLost_of_passOf (h : d.passOf un q = some k) {table : Nat} (bucket : Nat) (ht : isLpm table = true ∨ isEm table = true) :
    d.bucketLost un q bucket table = ((d.passEnds un k true .same).tallyUp uTBE 0x07 1).rebuildBucket (table, bucket) := by
  rw [Dev.bucketLost, h]
  exact if_neg (not_not_intro ht)

theorem Dev.recirculate_pass_limit (base : Result) (h : 3 ≤ k.pass) :
    d.recirculate un base k = ((d.bumpI uSIP SIP_PASS_LIMIT.COUNT k.lat).raiseOnce uSIP 0x10 0 (fun _ => leBytes 1 k.lat),
      some { base with disp := 2, reason := 0x0A }) := if_pos h

theorem Dev.recirculate_overflow (base : Result) (h : k.pass < 3) (hf : 2048 ≤ (d.siphonOf k.lat).length) :
    d.recirculate un base k = ((d.bumpI uSIP SIP_OVERFLOW.COUNT k.lat).raiseOnce uSIP 0x11 0 (fun _ => leBytes 1 k.lat),
      some { base with disp := 2, reason := 0x0A }) :=
  (if_neg (Nat.not_le.2 h)).trans (if_pos hf)

theorem Dev.recirculate_goes_on (base : Result) (h : k.pass < 3) (hf : (d.siphonOf k.lat).length < 2048) :
    (d.recirculate un base k).2 = none := by
  rw [Dev.recirculate, if_neg (Nat.not_le.2 h), if_neg (Nat.not_le.2 hf)]

end

/-! ### Dispatch -/

section
variable {d : Dev} {l un : Nat}

/-- Without a free reorder slot a lateral with a waiting copy stops its dispatch (R39). -/
theorem Dev.headerDispatch_held {h : HdrCopy} {rest : List HdrCopy} (hl : l < 4) (hw : (d.settleLateral l).waiting l = h :: rest)
    (hf : (d.settleLateral l).slotFree l = false) : d.headerDispatch l = (d.settleLateral l).holdDispatch l true := by
  simp only [Dev.headerDispatch, if_neg (Nat.not_le.2 hl), hw, hf, Bool.false_eq_true, not_false_eq_true, if_true]

theorem Dev.headerDispatch_taken {h : HdrCopy} {rest : List HdrCopy} (hl : l < 4) (hw : (d.settleLateral l).waiting l = h :: rest)
    (hf : (d.settleLateral l).slotFree l = true) (hp : (d.settleLateral l).pickFlume l = some un) :
    d.headerDispatch l
      = (((((d.settleLateral l).holdDispatch l false).setWaiting l rest).dispatchTo l un h).showStore l) := by
  simp only [Dev.headerDispatch, if_neg (Nat.not_le.2 hl), hw, hf, hp, not_true_eq_false, if_false]

/-- Sentinels run in the flumes in service and in SHADOW (R212). -/
theorem Dev.sentinels_eq (hl : l < 4) (hen : d.flag 8 RID_CFG.SENTINEL_EN = true) :
    d.sentinels l [] =
      (let us := (flumes l).filter (fun u => d.svc u == sACTIVE || d.svc u == sSHADOW)
       us.foldl (fun d u =>
        let x := (List.range 8).foldl (fun d j => d.tally (uStage u j) 0x23 1) (d.bump u FLM_SENTINELS.COUNT)
        let x := x.sentinelReads u l
        { x with rid := { x.rid with sentinel := x.rid.sentinel.insert [u] (Config.sentinelRecord u x.draws) }
                 draws := x.draws + 1 }) (d.tally 8 0x22 us.length)) := by
  rw [Dev.sentinels, if_neg (by simp [hen]; omega), Dev.sentinelInject, if_neg (Nat.not_le.2 hl)]
  simp only [(d.noted_tally ..).svc, List.contains_nil, Bool.false_eq_true, if_false]

end

/-! ### The statement -/

section
variable {s : State} {d : Dev} {l un q bucket table : Nat} {o : ShadowOut}

theorem makes_headerDispatch (h : s.dev.headerDispatch l = d) : Makes (.headerDispatch l) s d := Makes.intro rfl h
theorem makes_siphonSlotGrant (h : s.dev.siphonGrant l = d) : Makes (.siphonSlotGrant l) s d := Makes.intro rfl h
theorem makes_flumePass (h : s.dev.flumePass un q o = d) : Makes (.flumePass un q o) s d := Makes.intro rfl h
theorem makes_bucketLost (h : s.dev.bucketLost un q bucket table = d) : Makes (.bucketLost un q bucket table) s d := Makes.intro rfl h

end

/-- Settles O34: a pass by how it ends, the other commands by their equations. -/
theorem flumesRunPasses : Obligations.FlumesRunPasses := by
  refine ⟨fun s l h rest hl => ?_, fun s l un k rest hl => ?_, fun s un q k w he hk hw hs => ?_, fun d un base k => ?_, fun d table bucket => ?_,
    fun d un k y => ?_, fun s l hl hen => Makes.intro rfl (Dev.sentinels_eq hl hen), Dev.sentinelReads_keeps⟩
  · dsimp only
    exact fun hw => ⟨fun hf => makes_headerDispatch (Dev.headerDispatch_held hl hw hf),
      fun un hf hp => makes_headerDispatch (Dev.headerDispatch_taken hl hw hf hp)⟩
  · dsimp only
    intro hk hp hshare hroom
    refine makes_siphonSlotGrant ?_
    rw [Dev.siphonGrant, if_neg (Nat.not_le.2 hl)]
    simp only [hk, hp]
    exact if_neg (by simp [storeSize]; omega)
  · have hp := Dev.passOf_of_coveringTurn he hk hw hs
    refine ⟨fun hsend o bucket table => ?_, fun hsend => ?_⟩
    · rw [hsend, if_neg Bool.false_ne_true] at hp
      have h1 : s.dev.flumePass un q o = s.dev := by rw [Dev.flumePass, hp]
      have h2 : s.dev.bucketLost un q bucket table = s.dev := by rw [Dev.bucketLost, hp]
      exact ⟨makes_flumePass h1, makes_bucketLost h2⟩
    rw [hsend, if_pos rfl] at hp
    have hflume := Dev.flumePass_of_passOf hp
    intro d item kept
    have hc : s.dev.passCounted un = d := rfl
    clear_value d
    refine ⟨fun o => ?_, fun bucket table ht => ?_⟩
    · intro r base
      have hr : d.runPass un k false = r := rfl
      clear_value r
      refine ⟨fun hfinal => makes_flumePass ((hflume o).trans ?_), fun k' hagain => ?_,
        fun k' hagain hpass hroom => makes_flumePass ((hflume o).trans ?_)⟩
      · exact Dev.passEnds_final hc hr hfinal o
      · intro x y hy
        exact makes_flumePass ((hflume o).trans (Dev.passEnds_dropped hc hr hagain hy o))
      · exact Dev.passEnds_again hc hr hagain (Dev.recirculate_goes_on _ hpass hroom) o
    · intro r base
      have hr : d.runPass un k true = r := rfl
      have hlost : r.2.2.2.2.1 = .drop 0x09 := d.runPass_lost un k
      clear_value r
      refine ⟨hlost, makes_bucketLost ?_⟩
      have hends := Dev.passEnds_final hc hr (fun k' e => by rw [hlost] at e; cases e) .same
      rw [hlost] at hends
      rw [Dev.bucketLost_of_passOf hp bucket ht, hends]
      rfl
  · exact ⟨Dev.recirculate_pass_limit base, Dev.recirculate_overflow base⟩
  · refine ⟨d.rebuildBucket_raised table bucket, ?_, d.em_rebuildBucket_of_not_isEm bucket, fun e => Dev.mem_em_rebuildBucket table bucket⟩
    rw [Dev.fwd_rebuildBucket]
  · exact ⟨rfl, d.recordBytes_length _ y, d.recordBytes_seqs _ y⟩

end Sys2Proof.Machine
end

section
/-! SUPPORT. Reset, and how events are raised, masked, cleared and delivered, with the statements about them. -/
namespace Sys2Proof.Machine
open Sys2Proof

/-! ### Reset -/

/-- Settles O3: at reset no field is listed, no source has numbered a record, and host memory is empty. -/
theorem resetState : Obligations.ResetState :=
  ⟨fun _ _ _ => rfl, fun _ => rfl, fun _ => rfl, rfl, fun _ => rfl, rfl, rfl⟩

/-! ### Raising -/

section
variable {d : Dev} {un type u src i : Nat} {f : Fld} {p : List Byte}

/-- Noting an occurrence leaves every field but PEND. -/
theorem Dev.getI_pend (hf : f.off ≠ UF_EVT_PEND.PEND.off) : (d.pend un type p).getI u f i = d.getI u f i :=
  Dev.getI_setI_ne fun e => hf (Fld.key_eq_iff.1 e).2.1

theorem Dev.mask_pend (d : Dev) (un type : Nat) (p : List Byte) : (d.pend un type p).get un UF_EVT_MASK.MASK = d.get un UF_EVT_MASK.MASK :=
  Dev.getI_pend (by decide)

/-- A masked type is noted, and no more (R62). -/
theorem Dev.raiseCore_masked (h : bit (d.get un UF_EVT_MASK.MASK) type = true) : d.raiseCore src un type p = d.pend un type p :=
  if_pos (by rwa [Dev.mask_pend])

/-- An unmasked type is noted and issues a record (R62). -/
theorem Dev.raiseCore_unmasked (h : bit (d.get un UF_EVT_MASK.MASK) type = false) :
    d.raiseCore src un type p = (d.pend un type p).issue src un type d.now p :=
  if_neg (by simp [Dev.mask_pend, h])

theorem Dev.QuietFor.pend (h : d.QuietFor src) : (d.pend un type p).QuietFor src :=
  h.imp id (Dev.getI_pend (by decide)).trans

end

/-- Settles O7: what a raised event leaves is noted, and its own record is the one issue that takes a number of its source. -/
theorem raisingReportsAndNothingElse : Obligations.RaisingReportsAndNothingElse := by
  refine fun d un type p ht => ⟨d.noted_raise un type p, fun ho => d.raise_raised un type p ho ht, fun hm => ?_, fun hm hq => ?_⟩
  · rw [Dev.raiseCore_masked hm]
    exact ⟨rfl, rfl⟩
  · rw [Dev.raiseCore_unmasked hm]
    exact Dev.issue_lastSeq _ _ _ _ _ _ (Dev.QuietFor.pend hq)

/-! ### Masking -/

/-- The types that a write of a mask wakes: those it unmasks while they are pending (R62). -/
def Dev.wakes (d : Dev) (un new t : Nat) : Bool :=
  bit (d.get un UF_EVT_MASK.MASK) t && !bit new t && bit (d.get un UF_EVT_PEND.PEND) t

/-- A woken type issues a record of its latest occurrence. -/
def Dev.wake (d : Dev) (un t : Nat) : Dev :=
  d.issue (sourceOf un t) un t ((d.ev.latest.get? [un, t]).getD (d.now, [])).1 ((d.ev.latest.get? [un, t]).getD (d.now, [])).2

section
variable {d : Dev} {un mask t time : Nat} {p : List Byte} {α : Type}

/-- The mask that a write of UF_EVT_MASK leaves: the bits of non-maskable types stay 0 (R65). -/
def maskOf (un mask : Nat) : Nat := bits mask 62 0 - (bits mask 62 0 &&& nmiMask (classOf un))

theorem Dev.evtMaskWrite_eq (hp : populated un = true) :
    d.evtMaskWrite un mask = (List.range 63).foldl (fun e t => if d.wakes un (maskOf un mask) t then e.wake un t else e)
      (d.set un UF_EVT_MASK.MASK (maskOf un mask)) := by
  simp only [Dev.evtMaskWrite, hp, if_true, Dev.wakes, Bool.and_eq_true, Bool.not_eq_true', and_assoc, Bool.not_eq_true]
  rfl

theorem Dev.noted_wake (d : Dev) (un t : Nat) : d.Noted (d.wake un t) := d.noted_issue ..

theorem Dev.wake_of_latest (h : d.ev.latest.get? [un, t] = some (time, p)) : d.wake un t = d.issue (sourceOf un t) un t time p := by
  rw [Dev.wake, h]; rfl

/-- Steps taken for the members of a list that pass a test, of which there are none. -/
theorem foldl_if_none {g : Dev → α → Dev} {w : α → Bool} {l : List α} (h : ∀ x ∈ l, w x = false) (d : Dev) :
    l.foldl (fun e x => if w x then g e x else e) d = d := by
  rw [← List.foldl_filter, List.filter_eq_nil_iff.2 fun x hx => by simp [h x hx]]
  rfl

/-- Steps taken for the members of a list without repetitions that pass a test, which one alone does. -/
theorem foldl_if_single {g : Dev → α → Dev} {w : α → Bool} {l : List α} {x : α} (hn : l.Nodup) (hx : x ∈ l) (hw : w x = true)
    (h : ∀ y ∈ l, y ≠ x → w y = false) (d : Dev) : l.foldl (fun e y => if w y then g e y else e) d = g d x := by
  induction l with
  | nil => exact absurd hx List.not_mem_nil
  | cons y l ih =>
    obtain ⟨hy, hl⟩ := List.nodup_cons.1 hn
    rw [List.foldl_cons]
    rcases List.mem_cons.1 hx with rfl | hx
    · rw [if_pos hw]
      exact foldl_if_none (fun z hz => h z (List.mem_cons_of_mem _ hz) fun e => hy (e ▸ hz)) _
    · rw [if_neg (Bool.eq_false_iff.1 (h y List.mem_cons_self fun e => hy (e ▸ hx)))]
      exact ih hl hx fun z hz => h z (List.mem_cons_of_mem _ hz)

end

/-! ### Clearing -/

/-- Halving what is left of a number without the bits it shares with another. -/
theorem half_sub_and (m n : Nat) :
    (m - (m &&& n)) / 2 = m / 2 - (m / 2 &&& n / 2) ∧ ((m - (m &&& n)) % 2 = 1 ↔ m % 2 = 1 ∧ n % 2 ≠ 1) := by
  have hle : m / 2 &&& n / 2 ≤ m / 2 := Nat.and_le_left
  have hdiv : (m &&& n) / 2 = m / 2 &&& n / 2 := Nat.and_div_two
  have hmod : (m &&& n) % 2 = 1 ↔ m % 2 = 1 ∧ n % 2 = 1 := Nat.and_mod_two_eq_one
  rw [← hdiv] at hle ⊢
  omega

/-- Taking the bits that two numbers share from the first leaves its others. -/
theorem testBit_sub_and (m n i : Nat) : (m - (m &&& n)).testBit i = (m.testBit i && !n.testBit i) := by
  induction i generalizing m n with
  | zero =>
    simp only [Nat.testBit_zero, (half_sub_and m n).2, Bool.decide_and, decide_not]
  | succ i ih => rw [Nat.testBit_succ, Nat.testBit_succ, Nat.testBit_succ, (half_sub_and m n).1, ih]

theorem bit_sub_and (m n i : Nat) : bit (m - (m &&& n)) i = (bit m i && !bit n i) := by
  simp only [bit_eq_testBit, testBit_sub_and]

theorem bit_bits (v n i : Nat) : bit (bits v n 0) i = (decide (i < n + 1) && bit v i) := by
  simp only [bits, Nat.pow_zero, Nat.div_one, Nat.sub_zero, bit_mod_two_pow]

theorem Dev.settleNmi_eq (d : Dev) : d.settleNmi = { d with ev := { d.ev with nmi := d.ev.nmi && d.nmiPending } } := by
  unfold Dev.settleNmi
  split
  · next h => simp [h.2]
  · next h =>
    have e : (d.ev.nmi && d.nmiPending) = d.ev.nmi := by
      cases hn : d.ev.nmi
      · rfl
      · simpa [hn] using h
    rw [e]

/-- The device with the bits of PEND that a word names cleared. -/
def Dev.unpend (d : Dev) (un clear : Nat) : Dev :=
  d.set un UF_EVT_PEND.PEND (d.get un UF_EVT_PEND.PEND - (d.get un UF_EVT_PEND.PEND &&& bits clear 62 0))

theorem Dev.bit_pend_unpend (d : Dev) (un clear : Nat) {t : Nat} (ht : t < 63) :
    bit ((d.unpend un clear).get un UF_EVT_PEND.PEND) t = (bit (d.get un UF_EVT_PEND.PEND) t && !bit clear t) := by
  rw [Dev.unpend, Dev.get_set_self, bit_mod_two_pow, bit_sub_and, bit_bits]
  simp [show t < UF_EVT_PEND.PEND.width from ht, ht]

theorem Dev.evtPendClear_eq {d : Dev} {un : Nat} (hp : populated un = true) (clear : Nat) :
    d.evtPendClear un clear = (d.unpend un clear).settleNmi := if_pos hp

/-! ### Delivering -/

theorem Dev.eventDeliver_held {d : Dev} {src : Nat} {r : EvRec} {rest : List EvRec} (h : (d.source src).held = r :: rest) :
    d.eventDeliver src = if d.ringHasRoom (d.evtRing r.un) then (d.setSource src { d.source src with held := rest }).deliverRec r
      else d := by
  simp only [Dev.eventDeliver, h]

/-- Settles O18: a mask written wakes what it unmasks while pending, a clear takes away the bits it names, and the oldest record held is
the one delivered. -/
theorem maskingClearingAndDelivering : Obligations.MaskingClearingAndDelivering := by
  refine ⟨fun s un mask hp => ?_, fun s un clear hp => ?_, fun s src r rest hh => ?_⟩
  · intro new d woken
    have hx : exec (.evtMaskWrite un mask) s = s.go (·.evtMaskWrite un mask) := rfl
    refine ⟨Notes.intro hx ?_ trivial, fun hn => Makes.intro hx ?_, fun t time p ht hw hne hl => Makes.intro hx ?_⟩
    all_goals rw [Dev.evtMaskWrite_eq hp]
    · refine Dev.noted_foldl _ (fun e t => ?_) _ _
      split
      · exact e.noted_wake un t
      · exact .refl e
    · exact foldl_if_none (fun t ht => hn t (List.mem_range.1 ht)) d
    · exact (foldl_if_single List.nodup_range (List.mem_range.2 ht) hw (fun u hu => hne u (List.mem_range.1 hu)) d).trans (Dev.wake_of_latest hl)
  · refine ⟨_, Makes.intro rfl (Dev.evtPendClear_eq hp clear), ?_, ?_, ?_, ?_⟩
    all_goals rw [Dev.settleNmi_eq]
    · exact fun t ht => s.dev.bit_pend_unpend un clear ht
    · rfl
    · rfl
    · exact fun k hk => Dev.fields_setI_ne hk
  · have hd := Dev.eventDeliver_held hh
    exact ⟨fun hr => Makes.intro rfl (hd.trans (if_pos hr)), fun hr => Makes.intro rfl (hd.trans (if_neg (by simp [hr])))⟩

end Sys2Proof.Machine
end

section
/-! SUPPORT. Performance counters, how they wrap and are cleared, and snapshots of them, with the statements about both. -/
namespace Sys2Proof.Machine
open Sys2Proof

/-! ### Counters that wrap -/

section
variable {d : Dev} {un n q fuel i v w : Nat} {f : Fld}

/-- Only what a field's width leaves of a value is written. -/
theorem Dev.setI_congr (h : v % 2 ^ f.width = w % 2 ^ f.width) : d.setI un f i v = d.setI un f i w := by
  simp only [Dev.setI, h]

/-- A counter written leaves every other register. -/
theorem Dev.get_setI_count (hf : f.off ≠ UF_PMC_CNT.COUNT.off) : (d.setI un UF_PMC_CNT.COUNT n v).get un f = d.get un f :=
  Dev.getI_setI_ne fun e => hf (Fld.key_eq_iff.1 e).2.1

theorem Dev.setI_count_pmcMax : d.setI un UF_PMC_CNT.COUNT n pmcMax = d.setI un UF_PMC_CNT.COUNT n 0 := Dev.setI_congr (by decide)

theorem Dev.pmcAdd_below (h : d.getI un UF_PMC_CNT.COUNT n + q < pmcMax) :
    Dev.pmcAdd (fuel + 1) d un n q = (d.setI un UF_PMC_CNT.COUNT n (d.getI un UF_PMC_CNT.COUNT n + q), 0) := if_pos h

/-- A counter that reaches its end marks its OVF bit where no other is chained to it (R69). -/
theorem Dev.pmcAdd_wraps (h : d.getI un UF_PMC_CNT.COUNT n + q = pmcMax) (hc : n = 7 ∨ bit (d.get un UF_PMC_CTRL.CHAIN) n = false) :
    Dev.pmcAdd (fuel + 1) d un n q =
      ((d.setI un UF_PMC_CNT.COUNT n 0).set un UF_PMC_CTRL.OVF (d.get un UF_PMC_CTRL.OVF ||| 2 ^ n), 2 ^ n) := by
  have hc' : ¬ (n < 7 ∧ bit (d.get un UF_PMC_CTRL.CHAIN) n = true) := fun ⟨hn, hb⟩ => by
    rcases hc with rfl | hc
    · exact absurd hn (by decide)
    · simp [hc] at hb
  rw [Dev.pmcAdd]
  simp only [h, Nat.lt_irrefl, if_false, if_neg hc', Dev.setI_count_pmcMax]
  rw [Dev.get_setI_count (by decide)]

/-- A counter that reaches its end adds 1 to the one that is chained to it (R68). -/
theorem Dev.pmcAdd_carries (h : d.getI un UF_PMC_CNT.COUNT n + q = pmcMax) (hn : n < 7) (hc : bit (d.get un UF_PMC_CTRL.CHAIN) n = true) :
    Dev.pmcAdd (fuel + 1) d un n q = Dev.pmcAdd fuel (d.setI un UF_PMC_CNT.COUNT n 0) un (n + 1) 1 := by
  rw [Dev.pmcAdd]
  simp only [h, Nat.lt_irrefl, if_false, if_pos (And.intro hn hc), Dev.setI_count_pmcMax]

theorem Dev.count_setI_count_succ : (d.setI un UF_PMC_CNT.COUNT n v).getI un UF_PMC_CNT.COUNT (n + 1) = d.getI un UF_PMC_CNT.COUNT (n + 1) :=
  Dev.getI_setI_ne fun e => absurd (Fld.key_eq_iff.1 e).2.2.2 (by omega)

theorem Dev.pmcOverflow_of_quiet {b : Dev} (hp : populated un = true) (hn : n < 8)
    (h : Dev.pmcAdd 8 d un n (pmcMax - d.getI un UF_PMC_CNT.COUNT n) = (b, 0)) : d.pmcOverflow un n = b := by
  simp only [Dev.pmcOverflow, hp, hn, and_self, if_true, h]

theorem Dev.pmcOverflow_of_overflow {b : Dev} {m : Nat} (hp : populated un = true) (hn : n < 8)
    (h : Dev.pmcAdd 8 d un n (pmcMax - d.getI un UF_PMC_CNT.COUNT n) = (b, 2 ^ m)) :
    d.pmcOverflow un n = b.raise un 0x04 (leBytes 1 (2 ^ m)) := by
  simp only [Dev.pmcOverflow, hp, hn, and_self, if_true, h, if_neg (Nat.ne_of_gt (Nat.two_pow_pos m))]

theorem Dev.pmcOverflow_unchained (hp : populated un = true) (hn : n < 8) (h : d.getI un UF_PMC_CNT.COUNT n < 2 ^ 48)
    (hc : n = 7 ∨ bit (d.get un UF_PMC_CTRL.CHAIN) n = false) :
    d.pmcOverflow un n = ((d.setI un UF_PMC_CNT.COUNT n 0).set un UF_PMC_CTRL.OVF (d.get un UF_PMC_CTRL.OVF ||| 2 ^ n)).raise un 0x04
      (leBytes 1 (2 ^ n)) :=
  Dev.pmcOverflow_of_overflow hp hn (Dev.pmcAdd_wraps (by rw [pmcMax]; omega) hc)

theorem Dev.pmcOverflow_chained (hp : populated un = true) (hn : n < 7) (h : d.getI un UF_PMC_CNT.COUNT n < 2 ^ 48)
    (hc : bit (d.get un UF_PMC_CTRL.CHAIN) n = true) (hnext : d.getI un UF_PMC_CNT.COUNT (n + 1) + 1 < 2 ^ 48) :
    d.pmcOverflow un n
      = (d.setI un UF_PMC_CNT.COUNT n 0).setI un UF_PMC_CNT.COUNT (n + 1) (d.getI un UF_PMC_CNT.COUNT (n + 1) + 1) := by
  refine Dev.pmcOverflow_of_quiet hp (by omega) ((Dev.pmcAdd_carries (by rw [pmcMax]; omega) hn hc).trans ?_)
  rw [Dev.pmcAdd_below (by rwa [Dev.count_setI_count_succ]), Dev.count_setI_count_succ]

theorem Dev.pmcOverflow_chained_wraps (hp : populated un = true) (hn : n < 7) (h : d.getI un UF_PMC_CNT.COUNT n < 2 ^ 48)
    (hc : bit (d.get un UF_PMC_CTRL.CHAIN) n = true) (hnext : d.getI un UF_PMC_CNT.COUNT (n + 1) + 1 = 2 ^ 48)
    (hc' : n + 1 = 7 ∨ bit (d.get un UF_PMC_CTRL.CHAIN) (n + 1) = false) :
    d.pmcOverflow un n =
      (((d.setI un UF_PMC_CNT.COUNT n 0).setI un UF_PMC_CNT.COUNT (n + 1) 0).set un UF_PMC_CTRL.OVF
        (d.get un UF_PMC_CTRL.OVF ||| 2 ^ (n + 1))).raise un 0x04 (leBytes 1 (2 ^ (n + 1))) := by
  refine Dev.pmcOverflow_of_overflow hp (by omega) ((Dev.pmcAdd_carries (by rw [pmcMax]; omega) hn hc).trans ?_)
  rw [Dev.pmcAdd_wraps (by rwa [Dev.count_setI_count_succ]) (by rwa [Dev.get_setI_count (by decide)]), Dev.get_setI_count (by decide)]

end

/-! ### Clearing -/

section
variable {d : Dev} {un n v : Nat} {f : Fld} {ns : List Nat}

/-- A field written at several indices leaves every other key. -/
theorem Dev.fields_foldl_setI {k : Key} (h : ∀ n ∈ ns, k ≠ f.key un n) :
    (ns.foldl (fun e n => e.setI un f n v) d).fields.get? k = d.fields.get? k := by
  induction ns generalizing d with
  | nil => rfl
  | cons n ns ih =>
    exact (ih fun m hm => h m (List.mem_cons_of_mem _ hm)).trans (Dev.fields_setI_ne (h n List.mem_cons_self))

theorem Dev.getI_foldl_setI (h : n ∈ ns) : (ns.foldl (fun e n => e.setI un f n v) d).getI un f n = v % 2 ^ f.width := by
  induction ns generalizing d with
  | nil => exact absurd h List.not_mem_nil
  | cons m ns ih =>
    by_cases hn : n ∈ ns
    · exact ih hn
    · obtain rfl := (List.mem_cons.1 h).resolve_right hn
      rw [List.foldl_cons]
      refine (Dev.getI_congr (Dev.fields_foldl_setI fun m hm e => hn ?_)).trans (d.getI_setI_self un f n v)
      rwa [(Fld.key_eq_iff.1 e).2.2.2]

theorem Dev.foldl_setI_eq (d : Dev) (un : Nat) (f : Fld) (v : Nat) (ns : List Nat) :
    ns.foldl (fun e n => e.setI un f n v) d = { d with fields := (ns.foldl (fun e n => e.setI un f n v) d).fields } := by
  induction ns generalizing d with
  | nil => rfl
  | cons n ns ih => exact ih (d.setI un f n v)

/-- CNT_CLEAR leaves the eight counters and OVF at 0, and the rest (R70). -/
theorem Dev.pmcCntClear_spec (hp : populated un = true) :
    (∀ n < 8, (d.pmcCntClear un).getI un UF_PMC_CNT.COUNT n = 0)
    ∧ (d.pmcCntClear un).get un UF_PMC_CTRL.OVF = 0 ∧ d.pmcCntClear un = { d with fields := (d.pmcCntClear un).fields }
    ∧ ∀ k, (∀ n < 8, k ≠ UF_PMC_CNT.COUNT.key un n) → k ≠ UF_PMC_CTRL.OVF.key un 0 →
        (d.pmcCntClear un).fields.get? k = d.fields.get? k := by
  rw [Dev.pmcCntClear, if_pos hp]
  refine ⟨fun n hn => ?_, Dev.get_set_self .., ?_, fun k hk ho => ?_⟩
  · have hne : UF_PMC_CNT.COUNT.key un n ≠ UF_PMC_CTRL.OVF.key un 0 := fun e => absurd (Fld.key_eq_iff.1 e).2.1 (by decide)
    exact (Dev.getI_setI_ne hne).trans (Dev.getI_foldl_setI (List.mem_range.2 hn))
  · rw [Dev.foldl_setI_eq]; rfl
  · exact (Dev.fields_setI_ne ho).trans (Dev.fields_foldl_setI fun n hn => hk n (List.mem_range.1 hn))

end

/-- Settles O19: a counter at its end by what is chained to it, and the two clears. -/
theorem countersOverflowAndClear : Obligations.CountersOverflowAndClear := by
  refine ⟨fun s un n hp hn h hc => Makes.intro rfl (Dev.pmcOverflow_unchained hp hn h hc), fun s un n hp hn h hc => ?_,
    fun s un hp => ?_, fun s un hp => ⟨_, Makes.intro rfl rfl, Dev.pmcCntClear_spec hp⟩⟩
  · exact ⟨fun hnext => Makes.intro rfl (Dev.pmcOverflow_chained hp hn h hc hnext),
      fun hnext hc' => Makes.intro rfl (Dev.pmcOverflow_chained_wraps hp hn h hc hnext hc')⟩
  · refine ⟨_, Makes.intro rfl (if_pos hp), ?_, fun u hu => ?_⟩
    · rw [cyclesShown, Tab.getD_setD_self, Nat.sub_self, Nat.zero_mod]
    · rw [cyclesShown, Tab.getD_setD_ne (by simpa using hu), cyclesShown]

/-! ### Snapshots -/

section
variable {d : Dev} {k : Key}

/-- The device with the registers as the start of a snapshot leaves them: the next ID, and BUSY. -/
def Dev.snapMarked (d : Dev) : Dev :=
  (d.set 0 HIF_SNAP_CTRL.LAST_ID ((d.get 0 HIF_SNAP_CTRL.LAST_ID + 1) % 2 ^ 32)).set 0 HIF_SNAP_CTRL.BUSY 1

theorem Dev.fields_snapMarked (hid : k ≠ HIF_SNAP_CTRL.LAST_ID.key 0 0) (hbusy : k ≠ HIF_SNAP_CTRL.BUSY.key 0 0) :
    d.snapMarked.fields.get? k = d.fields.get? k :=
  (Dev.fields_setI_ne hbusy).trans (Dev.fields_setI_ne hid)

theorem Dev.lastId_startSnapshot (d : Dev) :
    d.startSnapshot.get 0 HIF_SNAP_CTRL.LAST_ID = (d.get 0 HIF_SNAP_CTRL.LAST_ID + 1) % 2 ^ 32 := by
  have h : d.snapMarked.get 0 HIF_SNAP_CTRL.LAST_ID = (d.get 0 HIF_SNAP_CTRL.LAST_ID + 1) % 2 ^ 32 := by
    rw [Dev.snapMarked, Dev.get_set_ne (by decide), Dev.get_set_self]
    exact Nat.mod_mod ..
  exact h

theorem Dev.busy_startSnapshot (d : Dev) : d.startSnapshot.flag 0 HIF_SNAP_CTRL.BUSY = true :=
  congrArg (· == 1) (Dev.get_set_self (d.set 0 HIF_SNAP_CTRL.LAST_ID _) 0 HIF_SNAP_CTRL.BUSY 1)

/-- A snapshot's copy of a counter reads what the counter held (R73). -/
theorem Dev.shadow_startSnapshot (d : Dev) (un n : Nat) :
    d.startSnapshot.shadow un UF_PMC_CNT.COUNT n = d.getI un UF_PMC_CNT.COUNT n := by
  have hk (f : Fld) (hf : f.off ≠ UF_PMC_CNT.COUNT.off) : UF_PMC_CNT.COUNT.key un n ≠ f.key 0 0 := fun e => hf (Fld.key_eq_iff.1 e).2.1.symm
  have hcopy : Tab.get? (d.snapMarked.fields.filter fun e => isCounterKey e.1) (UF_PMC_CNT.COUNT.key un n)
      = d.fields.get? (UF_PMC_CNT.COUNT.key un n) :=
    (Tab.get?_filter_key ..).trans (Dev.fields_snapMarked (hk _ (by decide)) (hk _ (by decide)))
  exact congrArg (Option.getD · 0) hcopy

theorem Dev.Noted.busy {a b : Dev} (h : a.Noted b) : b.flag 0 HIF_SNAP_CTRL.BUSY = a.flag 0 HIF_SNAP_CTRL.BUSY :=
  congrArg (· == 1) (h.get (noteKey_of _ _ _ (by decide)))

/-- What SNAPSHOT does once its descriptor has been checked. -/
def Dev.snapshotBody (d : Dev) : Dev × Reply :=
  if d.flag 0 HIF_SNAP_CTRL.BUSY then (d, .fail stRETRY_LATER)
  else (d.startSnapshot, .ok (d.startSnapshot.get 0 HIF_SNAP_CTRL.LAST_ID))

theorem Dev.snapshotCmd_eq (d : Dev) (c : HCmd) : d.snapshotCmd c = d.commandNow c 0x0005 [] Dev.snapshotBody := rfl

end

/-- Settles O20: a snapshot started by what it copies, and the three rows by whether one is in progress. -/
theorem snapshotsCopyEveryCounter : Obligations.SnapshotsCopyEveryCounter := by
  refine ⟨fun d => ⟨d.lastId_startSnapshot, d.busy_startSnapshot, ⟨_, rfl, d.lastId_startSnapshot.symm, rfl⟩, d.shadow_startSnapshot,
    fun un => rfl, rfl, fun k => Dev.fields_snapMarked⟩, fun s c ha hb => ?_, fun s c ha hb => ?_,
    fun s hb => Makes.intro rfl (if_neg (by simp [hb])), fun s hb => Makes.intro rfl (if_pos hb), fun s hb => Makes.intro rfl (if_pos hb)⟩
  · exact Makes.endedNow rfl (s.dev.snapshotCmd_eq c) ha (if_neg (by simp [(s.dev.noted_begun c).busy, hb]))
  · refine Completes.intro rfl (s.dev.snapshotCmd_eq c) ha fun b hn => ?_
    rw [Dev.snapshotBody, if_pos (hn.busy.trans hb)]
    exact ⟨rfl, hn⟩

end Sys2Proof.Machine
end

section
/-! SUPPORT. Service states, the requests that a write of UF_CTRL makes of a unit, and the statements about both. -/
namespace Sys2Proof.Machine
open Sys2Proof

/-! ### Service states -/

section
variable {d : Dev} {un new : Nat} {k : Key}

/-- The registers that a change of service state writes itself (R51, R440, R513). -/
def svcKeys (un : Nat) : List Key :=
  [UF_STATE.SVC_STATE.key un 0, UF_STATE.PREV_STATE.key un 0, UF_STATE.SLEEP_STATE.key un 0, SVC_STATUS.CORES_ACTIVE.key uSVC 0]

/-- A change of service state writes its registers, PREV_STATE with the old state, and then raises STATE_CHANGE (R51). -/
theorem Dev.setSvc_raises (d : Dev) (un new : Nat) :
    ∃ e : Dev, d.setSvc un new
        = e.raise un 0x00 (leBytes 1 (d.svc un) ++ leBytes 1 new ++ leBytes 1 (d.get un UF_STATE.DEGRADED))
      ∧ e.get un UF_STATE.PREV_STATE = d.svc un % 2 ^ 4
      ∧ ∀ k ∉ svcKeys un, e.fields.get? k = d.fields.get? k := by
  unfold Dev.setSvc
  extract_lets old dState dSleep rid₀ dRetired rid₁ dRelieved dCores
  have hSleep : ∀ k, k ≠ UF_STATE.SLEEP_STATE.key un 0 → dSleep.fields.get? k = dState.fields.get? k := by
    intro k hk
    dsimp only [dSleep]
    split
    · exact Dev.fields_setI_ne hk
    · split
      · exact Dev.fields_setI_ne hk
      · rfl
  have hRelieved : dRelieved.fields = dSleep.fields := by
    show dRetired.fields = dSleep.fields
    dsimp only [dRetired]
    split <;> rfl
  have hCores : ∀ k, k ≠ SVC_STATUS.CORES_ACTIVE.key uSVC 0 → dCores.fields.get? k = dRelieved.fields.get? k := by
    intro k hk
    dsimp only [dCores, Dev.showCores]
    split
    · exact Dev.fields_setI_ne hk
    · rfl
  have hAfter : ∀ k, k ≠ UF_STATE.SLEEP_STATE.key un 0 → k ≠ SVC_STATUS.CORES_ACTIVE.key uSVC 0 →
      dCores.fields.get? k = dState.fields.get? k := fun k hs hc => by
    rw [hCores k hc, hRelieved, hSleep k hs]
  have hKeep : ∀ k ∉ svcKeys un, dCores.fields.get? k = d.fields.get? k := fun k hk => by
    simp only [svcKeys, List.mem_cons, List.not_mem_nil, or_false, not_or] at hk
    obtain ⟨hsvc, hprev, hsleep, hcores⟩ := hk
    exact (hAfter k hsleep hcores).trans ((Dev.fields_setI_ne hsvc).trans (Dev.fields_setI_ne hprev))
  refine ⟨dCores, ?_, ?_, hKeep⟩
  · have hDegraded : dCores.get un UF_STATE.DEGRADED = d.get un UF_STATE.DEGRADED :=
      Dev.getI_congr (hKeep _ (by simp [svcKeys, Fld.key_eq_iff, UF_STATE.DEGRADED, UF_STATE.SVC_STATE, UF_STATE.PREV_STATE,
        UF_STATE.SLEEP_STATE, SVC_STATUS.CORES_ACTIVE]))
    rw [hDegraded]
  · have hPrev : dCores.get un UF_STATE.PREV_STATE = dState.get un UF_STATE.PREV_STATE :=
      Dev.getI_congr (hAfter _ (fun e => absurd (Fld.key_eq_iff.1 e).2.2.1 (by decide))
        (fun e => absurd (Fld.key_eq_iff.1 e).2.1 (by decide)))
    rw [hPrev]
    exact (Dev.get_set_ne fun e => absurd (Fld.key_eq_iff.1 e).2.2.1 (by decide)).trans (Dev.get_set_self ..)

end

/-- Settles O12: what `Dev.setSvc_raises` writes stays as STATE_CHANGE is raised. -/
theorem serviceStateChanges : Obligations.ServiceStateChanges := by
  intro d un new hnew hold b
  obtain ⟨e, he, hprev, hkeep⟩ := d.setSvc_raises un new
  change b = _ at he
  have hn : e.Noted b := he ▸ e.noted_raise ..
  refine ⟨d.svc_setSvc_self un hnew, ?_, ?_, fun k hk h1 h2 h3 h4 => (hn.1 k hk).trans (hkeep k ?_)⟩
  · rw [hn.get (noteKey_of _ _ _ (by decide)), hprev, Nat.mod_eq_of_lt (by omega)]
  · exact he ▸ e.raise_raised un 0x00 _ (by simp [ownType]) (by decide)
  · simp [svcKeys, h1, h2, h3, h4]

/-! ### Leaving service -/

section
variable {d : Dev} {un t : Nat} {al : Bool}

theorem populated_of_holdsTurns (h : holdsTurns un = true) : populated un = true := (Bool.and_eq_true_iff.1 h).1

/-- A unit with no units to carry a request to, or out of ACTIVE, leaves by itself. -/
theorem Dev.askOut_eq_leave (h : askedChildren un = [] ∨ d.svc un ≠ sACTIVE) : d.askOut un al = d.leave un al :=
  if_pos (h.imp (by rw [·]; rfl) id)

theorem Dev.askOut_gone (h : d.svc un ∈ [sDRAINING, sOUT]) : d.askOut un al = (d, .ok 0) := by
  have h' : d.svc un = sDRAINING ∨ d.svc un = sOUT := by simpa using h
  rw [Dev.askOut_eq_leave (.inr (by rcases h' with e | e <;> rw [e] <;> decide))]
  exact if_pos h'

theorem Dev.askOut_spare (h : d.svc un = sSPARE) : d.askOut un al = ((d.standDown un).setSvc un sOUT, .ok 0) := by
  rw [Dev.askOut_eq_leave (.inr (by rw [h]; decide)), Dev.leave]
  simp only [h]
  rfl

theorem Dev.askOut_refused (h : d.svc un ∉ [sACTIVE, sSPARE, sDRAINING, sOUT]) : d.askOut un al = (d, .refused) := by
  simp only [List.mem_cons, List.not_mem_nil, or_false, not_or] at h
  obtain ⟨hact, hspare, hdrain, hout⟩ := h
  rw [Dev.askOut_eq_leave (.inr hact), Dev.leave]
  simp only [hact, hspare, hdrain, hout, or_self, if_false, ne_eq, not_false_eq_true, if_true]

section
variable (h : d.svc un = sACTIVE) (hc : askedChildren un = []) (hr : d.relieved un = false) (hb : classOf un ≠ 0x15)
include h hc hr hb

/-- An ACTIVE unit that carries its own stream leaves it to its successor, if one would take it (R386). -/
theorem Dev.askOut_active : d.askOut un al =
    let drained (e : Dev) : Dev × Asked := (e.settleOut un, if (e.settleOut un).svc un = sOUT then .ok 0 else .later)
    match d.successor un with
    | some t => drained (if classOf un = 0x41 then d.handChannel un else d.handOver un t)
    | none => if ¬ al then (d, .noTaker) else drained ((d.setSvc un sDRAINING).dropWork un) := by
  rw [Dev.askOut_eq_leave (.inl hc), Dev.leave]
  simp only [h, hr, hb, false_and, Bool.false_eq_true, if_false]
  rfl

theorem Dev.askOut_noTaker (ht : d.successor un = none) : d.askOut un false = (d, .noTaker) := by
  rw [Dev.askOut_active h hc hr hb, ht]
  rfl

theorem Dev.askOut_handOver (ht : d.successor un = some t) (hch : classOf un ≠ 0x41) : d.askOut un al =
    ((d.handOver un t).settleOut un, if ((d.handOver un t).settleOut un).svc un = sOUT then .ok 0 else .later) := by
  rw [Dev.askOut_active h hc hr hb, ht]
  simp only [if_neg hch]

end

theorem Dev.standDown_plain (h1 : classOf un ≠ 0x41) (h2 : classOf un ≠ 0x21) : d.standDown un = d := by
  rw [Dev.standDown, if_neg h2]
  exact if_pos (.inl h1)

end

/-! ### Returns, tests and resets -/

section
variable {d : Dev} {un : Nat} {t : Option Ticket} {w : Bool}

theorem Dev.askReturn_active (h : d.svc un = sACTIVE) : d.askReturn un t w = (d, .ok 1) := by
  simp only [Dev.askReturn, h]
  rfl

theorem Dev.askReturn_shadow (h : d.svc un = sSHADOW) : d.askReturn un none w = (d, .ok 1) := by
  simp only [Dev.askReturn, h, if_true]

/-- A return that nothing of the unit's own has under way begins with its self-test, or with one that waits (R51, R387). -/
theorem Dev.askReturn_of_out (h : d.svc un = sOUT ∨ d.svc un = sFAILED) (hr : d.returning un = false) (hu : askedUnder un = []) :
    d.askReturn un t w = (d.returnTest un { why := .return_, ticket := t, waitActive := w }, .later) := by
  have hs : d.svc un ≠ sSHADOW := by rcases h with h | h <;> rw [h] <;> decide
  have ha : d.svc un ≠ sACTIVE := by rcases h with h | h <;> rw [h] <;> decide
  have ho : ¬ (d.svc un ≠ sOUT ∧ d.svc un ≠ sFAILED) := fun ⟨h1, h2⟩ => h.elim h1 h2
  simp only [Dev.askReturn, hs, ha, ho, hr, hu, if_false, Bool.false_eq_true, List.foldl_nil]

theorem Dev.askReturn_starts (h : d.svc un = sOUT ∨ d.svc un = sFAILED) (h0 : d.rid.tests.get? [un] = none)
    (h1 : d.rid.tests.get? [un, 1] = none) (hu : askedUnder un = []) :
    d.askReturn un t w = (d.startTest un { why := .return_, ticket := t, waitActive := w }, .later) := by
  rw [Dev.askReturn_of_out h (by rw [Dev.returning, h0, h1]; rfl) hu, Dev.returnTest, h0]
  rfl

/-- A return waits for a test that runs alone. -/
theorem Dev.askReturn_waits {x : SelfTest} (h : d.svc un = sOUT ∨ d.svc un = sFAILED) (h0 : d.rid.tests.get? [un] = some x)
    (hx : x.why = .alone) (h1 : d.rid.tests.get? [un, 1] = none) (hu : askedUnder un = []) :
    d.askReturn un t w = ({ d with rid := { d.rid with
      tests := d.rid.tests.insert [un, 1] { why := .return_, ticket := t, waitActive := w } } }, .later) := by
  rw [Dev.askReturn_of_out h (by rw [Dev.returning, h0, h1, Option.any_some, hx]; rfl) hu, Dev.returnTest, h0]
  rfl

theorem Dev.mayTest_iff : d.mayTest un = true ↔ d.svc un ∈ [sOFF, sSPARE, sOUT, sFAILED] ∧ d.rid.tests.get? [un] = none := by
  simp [Dev.mayTest, or_assoc]

/-- The units under a tested one that may be tested start their self-tests too (R42, R388). -/
def Dev.testUnder (d : Dev) (un : Nat) : Dev :=
  (unitsUnder un).foldl (fun d u => if d.mayTest u then d.startTest u { why := .alone } else d) d

theorem Dev.testUnder_of_nil (h : unitsUnder un = []) : d.testUnder un = d := by rw [Dev.testUnder, h]; rfl

theorem Dev.askTest_starts (hs : d.svc un ∈ [sOFF, sSPARE, sOUT, sFAILED]) (ht : d.rid.tests.get? [un] = none) :
    d.askTest un t = ((d.testUnder un).startTest un { why := .alone, ticket := t }, .later) := if_pos (Dev.mayTest_iff.2 ⟨hs, ht⟩)

theorem Dev.askTest_refused (hs : d.svc un ∉ [sOFF, sSPARE, sOUT, sFAILED]) : d.askTest un t = (d, .refused) :=
  if_neg fun h => hs (Dev.mayTest_iff.1 h).1

theorem Dev.mayReset_iff : d.mayReset un = true ↔ d.svc un ∈ [sOFF, sOUT, sFAILED] := by simp [Dev.mayReset, or_assoc]

/-- The units under a reset one that may be reset are (R42, R521). -/
def Dev.resetUnder (d : Dev) (un : Nat) : Dev := (unitsUnder un).foldl (fun d u => if d.mayReset u then d.resetUnit u else d) d

theorem Dev.resetUnder_of_nil (h : unitsUnder un = []) : d.resetUnder un = d := by rw [Dev.resetUnder, h]; rfl

theorem Dev.askReset_resets (hs : d.svc un ∈ [sOFF, sOUT, sFAILED]) : d.askReset un = ((d.resetUnit un).resetUnder un, .ok 0) :=
  if_pos (Dev.mayReset_iff.2 hs)

end

/-! #### The registers that a reset clears -/

section
variable {d : Dev} {un u i : Nat} {f : Fld}

/-- The device with the registers that a unit's reset reaches at their reset values, TEST_BUSY apart. -/
def Dev.regsReset (d : Dev) (un : Nat) : Dev :=
  ({ d with fields := d.fields.filter (fun e => !d.resetsKey un e.1) } : Dev).setFlag un UF_CTRL.TEST_BUSY (d.flag un UF_CTRL.TEST_BUSY)

/-- A port's reset takes the port down as well; that of any other unit is of registers alone. -/
theorem Dev.resetUnit_eq (h : classOf un ≠ 0x30) : d.resetUnit un = d.regsReset un := if_neg h

theorem Dev.getI_regsReset (h : f.key u i ≠ UF_CTRL.TEST_BUSY.key un 0) :
    (d.regsReset un).getI u f i = if d.resetsKey un (f.key u i) then resetVal u f.rst i else d.getI u f i := by
  refine (Dev.getI_setI_ne h).trans ?_
  rw [Dev.getI, Tab.get?_filter_key d.fields (fun k => !d.resetsKey un k) (f.key u i), Dev.getI]
  cases d.resetsKey un (f.key u i) <;> rfl

/-- A reset reaches a unit's own registers, those that R48 keeps apart; the egress schedulers share theirs. -/
theorem Dev.resetsKey_own (h : classOf un ≠ 0x21) : d.resetsKey un (f.key u i) = (u == un && !keptByReset f.off) := by
  have hs : ¬ (0x400 ≤ f.off ∧ (un = 97 ∨ un = 98)) := fun ⟨_, e⟩ => by rcases e with rfl | rfl <;> exact h rfl
  exact if_neg hs

theorem Dev.resetsKey_shared (hu : un = 97 ∨ un = 98) (hf : 0x400 ≤ f.off) :
    d.resetsKey un (f.key u i) = (u == uSCH && d.mayReset (195 - un)) := if_pos ⟨hf, hu⟩

theorem Dev.getI_resetUnit_shared (hu : un = 97 ∨ un = 98) (hf : 0x400 ≤ f.off) (hm : d.mayReset (195 - un) = false) :
    (d.resetUnit un).getI uSCH f i = d.getI uSCH f i := by
  have hc : classOf un ≠ 0x30 := by rcases hu with rfl | rfl <;> decide
  have hb : f.key uSCH i ≠ UF_CTRL.TEST_BUSY.key un 0 := fun e => by
    have := (Fld.key_eq_iff.1 e).2.1
    simp only [UF_CTRL.TEST_BUSY] at this
    omega
  rw [Dev.resetUnit_eq hc, Dev.getI_regsReset hb, Dev.resetsKey_shared hu hf, hm, Bool.and_false]
  rfl

theorem Dev.getI_resetUnit_cleared (hp : classOf un ≠ 0x30) (hs : classOf un ≠ 0x21) (hk : keptByReset f.off = false)
    (hb : f.key un i ≠ UF_CTRL.TEST_BUSY.key un 0) : (d.resetUnit un).getI un f i = resetVal un f.rst i := by
  rw [Dev.resetUnit_eq hp, Dev.getI_regsReset hb, Dev.resetsKey_own hs, hk, beq_self_eq_true]
  rfl

theorem Dev.getI_resetUnit_kept (hp : classOf un ≠ 0x30) (hs : classOf un ≠ 0x21) (h : u ≠ un ∨ keptByReset f.off = true) :
    (d.resetUnit un).getI u f i = d.getI u f i := by
  have hb : f.key u i ≠ UF_CTRL.TEST_BUSY.key un 0 := fun e => by
    obtain ⟨hu, ho, -, -⟩ := Fld.key_eq_iff.1 e
    rcases h with h | h
    · exact h hu
    · rw [ho] at h
      exact absurd h (by decide)
  have hr : (u == un && !keptByReset f.off) = false := by rcases h with h | h <;> simp [h]
  rw [Dev.resetUnit_eq hp, Dev.getI_regsReset hb, Dev.resetsKey_own hs, hr]
  rfl

end

/-! ### A write of the request bits -/

section
variable {d e : Dev} {s : State} {un reqs code v i : Nat} {r : Dev × Asked}

/-- What becomes of a request made of a unit: one refused is reported with its code. -/
def Dev.answered (un code : Nat) (r : Dev × Asked) : Dev :=
  match r.2 with
  | .refused => r.1.refuseReq un code
  | .noTaker => r.1.refuseReq un code
  | _ => r.1

theorem bit_of_mod_sixteen (hi : i < 4) (h : reqs % 16 = v) (hv : bit v i = true) : bit reqs i = true := by
  have hm := bit_mod_two_pow reqs 4 i
  rw [show 2 ^ 4 = 16 from rfl, h, hv] at hm
  simpa [hi] using hm.symm

theorem Dev.unitRequest_out (hh : holdsTurns un = true) (hr : reqs % 16 = 1) :
    d.unitRequest un reqs = Dev.answered un 0 (d.askOut un false) := by
  simp only [Dev.unitRequest, populated_of_holdsTurns hh, hr, hh, not_true_eq_false, if_false, if_true]
  rfl

theorem Dev.unitRequest_return (hh : holdsTurns un = true) (hr : reqs % 16 = 2) :
    d.unitRequest un reqs = Dev.answered un 1 (d.askReturn un none false) := by
  simp only [Dev.unitRequest, populated_of_holdsTurns hh, hr, hh, not_true_eq_false, if_false, if_true]
  rfl

theorem Dev.unitRequest_test (hp : populated un = true) (hr : reqs % 16 = 4) :
    d.unitRequest un reqs = Dev.answered un 2 (d.askTest un none) := by
  simp only [Dev.unitRequest, hp, hr, not_true_eq_false, if_false]
  rfl

theorem Dev.unitRequest_reset (hp : populated un = true) (hr : reqs % 16 = 8) :
    d.unitRequest un reqs = Dev.answered un 3 (d.askReset un) := by
  simp only [Dev.unitRequest, hp, hr, not_true_eq_false, if_false]
  rfl

/-- Several requests at once are none (R51). -/
theorem Dev.unitRequest_several (hp : populated un = true) (hr : reqs % 16 ∉ [0, 1, 2, 4, 8]) :
    d.unitRequest un reqs = d.refuseReq un 0xFF := by
  simp only [List.mem_cons, List.not_mem_nil, or_false, not_or] at hr
  obtain ⟨h0, h1, h2, h4, h8⟩ := hr
  rw [Dev.unitRequest, if_neg (by simp [hp])]
  split
  case h_6 => rfl
  all_goals next h => exact absurd h (by assumption)

theorem makes_outReq (hh : holdsTurns un = true) (hr : reqs % 16 = 1) (ha : s.dev.askOut un false = r) (he : Dev.answered un 0 r = e) :
    Makes (.outReq un reqs) s e :=
  Makes.intro rfl ((if_pos (bit_of_mod_sixteen (by decide) hr (by decide))).trans ((Dev.unitRequest_out hh hr).trans (by rw [ha, he])))

theorem makes_returnReq (hh : holdsTurns un = true) (hr : reqs % 16 = 2) (ha : s.dev.askReturn un none false = r)
    (he : Dev.answered un 1 r = e) : Makes (.returnReq un reqs) s e :=
  Makes.intro rfl ((if_pos (bit_of_mod_sixteen (by decide) hr (by decide))).trans ((Dev.unitRequest_return hh hr).trans (by rw [ha, he])))

theorem makes_testReq (hp : populated un = true) (hr : reqs % 16 = 4) (ha : s.dev.askTest un none = (e, .later)) :
    Makes (.testReq un reqs) s e :=
  Makes.intro rfl ((if_pos (bit_of_mod_sixteen (by decide) hr (by decide))).trans ((Dev.unitRequest_test hp hr).trans (by rw [ha]; rfl)))

theorem makes_resetReq (hp : populated un = true) (hr : reqs % 16 = 8) (ha : s.dev.askReset un = (e, .ok 0)) :
    Makes (.resetReq un reqs) s e :=
  Makes.intro rfl ((if_pos (bit_of_mod_sixteen (by decide) hr (by decide))).trans ((Dev.unitRequest_reset hp hr).trans (by rw [ha]; rfl)))

/-- A hand-over that is under way, or over, is no refusal. -/
theorem Dev.answered_settled (e : Dev) : Dev.answered un code (e, if e.svc un = sOUT then .ok 0 else .later) = e := by
  by_cases h : e.svc un = sOUT
  · rw [if_pos h]; rfl
  · rw [if_neg h]; rfl

end

/-- Settles O14: the requests by the state in which they find the unit, and a reset by the registers it reaches. -/
theorem registerRequestsOfUnits : Obligations.RegisterRequestsOfUnits := by
  refine ⟨fun s un reqs hh hr hs => ?_, fun s un reqs hh hr => ⟨fun hs => ?_, fun hs => ?_, fun hs hc hrel hb => ⟨fun ht => ?_, fun t ht hch => ?_⟩⟩,
    fun s un reqs hh hr => ⟨fun hs h1 hu => ⟨fun h0 => ?_, fun t h0 hw => ?_⟩, fun hs => ?_⟩, fun s un reqs hp hr h0 hs => ?_,
    fun s un reqs hp hr hs => ?_, fun d un i f hu hf hm => Dev.getI_resetUnit_shared hu hf hm, fun d un hport hsch => ?_,
    fun s un reqs hp hr hbit => ?_⟩
  · have hm := makes_outReq hh hr (Dev.askOut_spare hs) rfl
    exact ⟨hm, fun hchn hsch => by rwa [Dev.standDown_plain hchn hsch] at hm⟩
  · exact makes_outReq hh hr (Dev.askOut_gone hs) rfl
  · exact makes_outReq hh hr (Dev.askOut_refused hs) rfl
  · exact makes_outReq hh hr (Dev.askOut_noTaker hs hc hrel hb ht) rfl
  · exact makes_outReq hh hr (Dev.askOut_handOver hs hc hrel hb ht hch) (Dev.answered_settled _)
  · exact makes_returnReq hh hr (Dev.askReturn_starts hs h0 h1 hu) rfl
  · exact makes_returnReq hh hr (Dev.askReturn_waits hs h0 hw h1 hu) rfl
  · rcases hs with hs | hs
    · exact makes_returnReq hh hr (Dev.askReturn_shadow hs) rfl
    · exact makes_returnReq hh hr (Dev.askReturn_active hs) rfl
  · have hm := makes_testReq hp hr (Dev.askTest_starts hs h0)
    exact ⟨hm, fun hn => by rwa [Dev.testUnder_of_nil hn] at hm⟩
  · have hm := makes_resetReq hp hr (Dev.askReset_resets hs)
    exact ⟨hm, fun hn => by rwa [Dev.resetUnder_of_nil hn] at hm⟩
  · refine ⟨?_, fun f i hk hb => Dev.getI_resetUnit_cleared hport hsch hk hb, fun f u i h => Dev.getI_resetUnit_kept hport hsch h⟩
    rw [Dev.resetUnit_eq hport]
    rfl
  · exact Makes.intro rfl ((if_pos hbit).trans (Dev.unitRequest_several hp hr))

end Sys2Proof.Machine
end

section
/-! SUPPORT. UNIT_OUT, UNIT_RETURN and UNIT_TEST, and the statement about them. -/
namespace Sys2Proof.Machine
open Sys2Proof

/-! ### What reports leave of a unit's standing -/

section
variable {a b : Dev} {un : Nat}

theorem Dev.Noted.relieved (h : a.Noted b) (un : Nat) : b.relieved un = a.relieved un := by rw [Dev.relieved, h.rid, Dev.relieved]

/-- Reports and counts do not change who would take a unit's work. -/
theorem Dev.Noted.successor (h : a.Noted b) (un : Nat) : b.successor un = a.successor un := by
  have get (u : Nat) (f : Fld) (hs : (f.off, f.lo) ∉ noteSpots) : b.get u f = a.get u f := h.get (noteKey_of f u 0 hs)
  have hsync : b.flag uSCH TMS_PAIR.STANDBY_SYNC = a.flag uSCH TMS_PAIR.STANDBY_SYNC := congrArg (· == 1) (get _ _ (by decide))
  have hspare : b.spareOf un = a.spareOf un := by simp only [Dev.spareOf, h.svc, Dev.isTaking, h.rid, hsync]
  have hstack (k : Nat) : b.stack k = a.stack k := by rw [Dev.stack, h.dram, Dev.stack]
  simp only [Dev.successor, hspare, hstack, h.svc, get _ DRC_STACK_STATUS.SPARE_PHYS (by decide)]

theorem Dev.Noted.refuseReq (h : a.Noted b) (un code : Nat) : (a.set un UF_CTRL.REQ_REFUSED 1).Noted (b.refuseReq un code) :=
  (h.set un UF_CTRL.REQ_REFUSED 1 (by simp [ringPlaceKey, Fld.key, UF_CTRL.REQ_REFUSED])).trans (Dev.noted_raise ..)

theorem Dev.Noted.startTest (h : a.Noted b) (un : Nat) (t : SelfTest) : (a.startTest un t).Noted (b.startTest un t) := by
  rw [Dev.startTest, Dev.startTest, h.rid]
  exact (h.with_rid _).set un UF_CTRL.TEST_BUSY 1 (by simp [ringPlaceKey, Fld.key, UF_CTRL.TEST_BUSY])

end

/-! ### The effects of the commands -/

/-- UNIT_OUT's effect, by how the request to leave ends (R386). -/
def HCmd.outAnswer (c : HCmd) (now : Nat) (r : Dev × Asked) : Dev × Option Reply :=
  match r.2 with
  | .ok _ => (r.1, some .ok)
  | .refused => (r.1.refuseReq (c.par 0 15 0) 0, some (.fail stUNIT_UNAVAILABLE))
  | .noTaker => (r.1, some (.fail stUNIT_UNAVAILABLE))
  | .later => ({ r.1 with rid := { r.1.rid with outs := r.1.rid.outs ++ [OutWait.mk (c.par 0 15 0) c.ticket now] } }, none)

/-- UNIT_RETURN's effect (R387). -/
def HCmd.returnAnswer (c : HCmd) (r : Dev × Asked) : Dev × Option Reply :=
  match r.2 with
  | .ok v => (r.1, some (.ok v))
  | .later => (r.1, none)
  | _ => (r.1.refuseReq (c.par 0 15 0) 1, some (.fail stUNIT_UNAVAILABLE))

/-- UNIT_TEST's effect (R388). -/
def HCmd.testAnswer (c : HCmd) (r : Dev × Asked) : Dev × Option Reply :=
  match r.2 with
  | .later => (r.1, none)
  | _ => (r.1.refuseReq (c.par 0 15 0) 2, some (.fail stUNIT_UNAVAILABLE))

section
variable {s : State} {c : HCmd} {e : Dev} {v : Nat} {r : Dev × Asked}

theorem Dev.unitOut_eq (d : Dev) (c : HCmd) : d.unitOut c =
    d.command c 0x0401 c.unitOutParams (fun d => c.outAnswer d.now (d.askOut (c.par 0 15 0) (c.par 2 0 0 == 1))) := rfl

theorem Dev.unitReturn_eq (d : Dev) (c : HCmd) : d.unitReturn c =
    d.command c 0x0402 c.unitReturnParams (fun d => c.returnAnswer (d.askReturn (c.par 0 15 0) (some c.ticket) (c.par 2 0 0 == 1))) := rfl

theorem Dev.unitTest_eq (d : Dev) (c : HCmd) : d.unitTest c =
    d.command c 0x0403 c.unitTestParams (fun d => c.testAnswer (d.askTest (c.par 0 15 0) (some c.ticket))) := rfl

theorem completes_unitOut {d : Dev} {y : Reply} (ha : c.accepted s.dev 0x0401 c.unitOutParams)
    (h : ∀ b, s.dev.Noted b → ∃ b', c.outAnswer b.now (b.askOut (c.par 0 15 0) (c.par 2 0 0 == 1)) = (b', some y) ∧ d.Noted b') :
    Completes (.unitOut c) s c.ticket y d :=
  Completes.intro' rfl (s.dev.unitOut_eq c) ha fun b hn => by
    obtain ⟨b', hb, hd⟩ := h b hn
    rw [hb]
    exact ⟨rfl, hd⟩

theorem makes_unitOut_ended (ha : c.accepted s.dev 0x0401 c.unitOutParams)
    (h : (c.begun s.dev).askOut (c.par 0 15 0) (c.par 2 0 0 == 1) = (e, .ok v)) : Makes (.unitOut c) s (e.finish c.ticket .ok) :=
  Makes.ended rfl (s.dev.unitOut_eq c) ha (by rw [h]; rfl)

/-- A unit that has work to finish lets UNIT_OUT wait from the moment of the request. -/
theorem makes_unitOut_going (ha : c.accepted s.dev 0x0401 c.unitOutParams)
    (h : (c.begun s.dev).askOut (c.par 0 15 0) (c.par 2 0 0 == 1) = (e, .later)) :
    Makes (.unitOut c) s (({ e with rid := { e.rid with
      outs := e.rid.outs ++ [⟨c.par 0 15 0, c.ticket, s.dev.now⟩] } } : Dev).noteStarted c.ticket) :=
  Makes.going rfl (s.dev.unitOut_eq c) ha (by rw [h, (s.dev.noted_begun c).now]; rfl)

end

/-- Settles O15: the commands by the state in which they find the unit, which counting the command's block leaves. -/
theorem unitCommands : Obligations.UnitCommands := by
  refine ⟨fun s c ha hs => ?_, fun s c ha hs => ?_, fun s c => ?_, fun s c => ?_, fun s c => ?_, fun s c => ?_⟩
  all_goals have hn := s.dev.noted_begun c
  · exact makes_unitOut_ended ha (Dev.askOut_spare ((hn.svc _).trans hs))
  · refine completes_unitOut ha fun b hb => ⟨b, ?_, hb⟩
    rw [Dev.askOut_gone (by rwa [hb.svc])]
    rfl
  · intro un ha
    refine ⟨fun hs => ?_, fun hs hc hrel hb => ⟨fun ht hl => ?_, fun t ht hch => ?_⟩⟩
    · refine completes_unitOut ha fun b hb => ⟨b.refuseReq un 0, ?_, hb.refuseReq un 0⟩
      rw [Dev.askOut_refused (by rwa [hb.svc])]
      rfl
    · refine completes_unitOut ha fun b hn => ⟨b, ?_, hn⟩
      rw [hl, show (0 == 1) = false from rfl,
        Dev.askOut_noTaker ((hn.svc un).trans hs) hc ((hn.relieved un).trans hrel) hb ((hn.successor un).trans ht)]
      rfl
    · have hout := Dev.askOut_handOver (al := c.par 2 0 0 == 1) ((hn.svc un).trans hs) hc ((hn.relieved un).trans hrel) hb
        ((hn.successor un).trans ht) hch
      exact ⟨fun he => makes_unitOut_ended ha (hout.trans (by rw [if_pos he])),
        fun he => makes_unitOut_going ha (hout.trans (by rw [if_neg he]))⟩
  · refine fun ha => ⟨fun hs h0 h1 hu => ?_, fun hs => ?_⟩
    · refine GoesOn.intro rfl (s.dev.unitReturn_eq c) ha fun b hb => ?_
      rw [Dev.askReturn_starts (by rwa [hb.svc]) (by rwa [hb.rid]) (by rwa [hb.rid]) hu]
      exact ⟨rfl, hb.startTest _ _⟩
    · refine Completes.intro' rfl (s.dev.unitReturn_eq c) ha fun b hb => ?_
      rw [Dev.askReturn_active ((hb.svc _).trans hs)]
      exact ⟨rfl, hb⟩
  · intro un ha h0 hs
    have hm : Makes (.unitTest c) s (((c.begun s.dev).testUnder un |>.startTest un { why := .alone, ticket := some c.ticket }).noteStarted
        c.ticket) := Makes.going rfl (s.dev.unitTest_eq c) ha (by rw [Dev.askTest_starts (by rwa [hn.svc]) (by rwa [hn.rid])]; rfl)
    refine ⟨hm, fun hu => ⟨_, hm, ?_, trivial⟩⟩
    rw [Dev.testUnder_of_nil hu]
    exact (hn.startTest un _).noteStarted c.ticket
  · refine fun ha hs => Completes.intro' rfl (s.dev.unitTest_eq c) ha fun b hb => ?_
    rw [Dev.askTest_refused (by rwa [hb.svc])]
    exact ⟨rfl, hb.refuseReq _ 2⟩

end Sys2Proof.Machine
end

section
/-! SUPPORT. How self-tests end, and UNIT_OUT_TIMEOUT, with the statement about them. -/
namespace Sys2Proof.Machine
open Sys2Proof

/-! ### The group of a unit that fails a test -/

section
variable {d : Dev} {un : Nat} {pass : Bool}

/-- Classes whose units work in a group that announces what they carry (R391), the banks apart. -/
def groupClasses : List Nat := [0x04, 0x11, 0x19, 0x48]

theorem Dev.showGroup_alone (h : classOf un ∉ groupClasses) (hb : classOf un ≠ 0x15) : d.showGroup un = d := by
  unfold Dev.showGroup
  generalize classOf un = c at h hb
  split
  case h_5 => exact absurd rfl hb
  case h_6 => rfl
  all_goals exact absurd (by decide) h

theorem Dev.groupLost_alone (h : classOf un ∉ groupClasses) : d.groupLost un = d := by
  simp only [groupClasses, List.mem_cons, List.not_mem_nil, or_false, not_or] at h
  obtain ⟨hbridge, hflume, heditor, hcore⟩ := h
  simp only [Dev.groupLost, hbridge, hflume, heditor, hcore, false_and, if_false]

/-- A unit that is no bank fails its test alone, and its group's figure follows (R53). -/
theorem Dev.failTest_eq (hb : classOf un ≠ 0x15) : d.failTest un = ((d.failSelf un 0x0006).showGroup un).groupLost un := if_pos hb

theorem Dev.failTest_alone (h : classOf un ∉ groupClasses) (hb : classOf un ≠ 0x15) : d.failTest un = d.failSelf un 0x0006 := by
  rw [Dev.failTest_eq hb, Dev.showGroup_alone h hb, Dev.groupLost_alone h]

theorem Dev.testPasses_true (d : Dev) (un : Nat) : d.testPasses un true = true := rfl

/-- No unit but a bank goes on from a test that it fails. -/
theorem Dev.testPasses_false (hb : classOf un ≠ 0x15) : d.testPasses un false = false := by simp [Dev.testPasses, hb]

theorem Dev.bringUp_flume (hc : classOf un = 0x11) (hs : designatedSpare un = false) (hh : holdsTurns un = true) :
    d.bringUp un = (d.setSvc un sACTIVE).grantTurn un 0 none := by
  have hp : ¬ (classOf un = 0x30 ∧ ¬ d.portInUse (un - 128) = true) := fun ⟨e, _⟩ => by rw [hc] at e; exact absurd e (by decide)
  rw [Dev.bringUp, if_neg hp, if_neg (by simp [hs])]
  simp only [hh, if_true, hc]

end

/-! ### The end of a self-test -/

/-- A test's end as UF_CTRL shows it. -/
def Dev.testShown (d : Dev) (un : Nat) (pass : Bool) : Dev := (d.setFlag un UF_CTRL.TEST_BUSY false).setFlag un UF_CTRL.TEST_PASS pass

/-- A test has ended, and TEST_DONE says so. -/
def Dev.testDone (d : Dev) (un : Nat) (pass : Bool) : Dev := (d.testShown un pass).raise un 0x03 (leBytes 1 pass.toNat)

/-- A unit's test runs no more. -/
def Dev.untested (d : Dev) (un : Nat) : Dev := { d with rid := { d.rid with tests := d.rid.tests.erase [un] } }

section
variable {d : Dev} {s : State} {un : Nat} {pass : Bool} {t : SelfTest} {k : Ticket}

theorem Dev.noted_testDone (d : Dev) (un : Nat) (pass : Bool) : (d.testShown un pass).Noted (d.testDone un pass) := Dev.noted_raise ..

/-- No return waits for the end of this test. -/
theorem Dev.nextTest_of_none (h : d.rid.tests.get? [un, 1] = none) : d.nextTest un = d := by rw [Dev.nextTest, h]

theorem Dev.nextTest_testDone (h : d.rid.tests.get? [un, 1] = none) :
    ((d.untested un).testDone un pass).nextTest un = (d.untested un).testDone un pass := by
  refine Dev.nextTest_of_none ?_
  rw [((d.untested un).noted_testDone un pass).rid]
  exact (Tab.get?_erase_ne (by simp)).trans h

theorem Dev.selfTestDone_alone (hp : populated un = true) (ht : d.rid.tests.get? [un] = some t) (hw : t.why = .alone)
    (h1 : d.rid.tests.get? [un, 1] = none) : d.selfTestDone un pass = match t.ticket with
      | some k => ((d.untested un).testDone un pass).finish k (.ok pass.toNat)
      | none => (d.untested un).testDone un pass := by
  rw [Dev.selfTestDone, if_neg (by simp [hp])]
  simp only [ht, hw]
  rw [← Dev.nextTest_testDone h1]
  rfl

/-- A test that nobody asked for is a bring-up's. -/
theorem Dev.selfTestDone_bringUp (hp : populated un = true) (hch : classOf un ≠ 0x41) (ht : d.rid.tests.get? [un] = none)
    (hs : d.svc un = sOFF) (hport : classOf un = 0x30 → d.portInUse (un - 128) = true)
    (hstk : classOf un = 0x40 → d.fw.sideband.contains (un - 512) = true) :
    d.selfTestDone un pass
      = (if d.testPasses un pass then (d.spareIfFailed un pass).bringUp un else d.failTest un).testDone un pass := by
  have hwait : ¬ (d.svc un ≠ sOFF ∨ classOf un = 0x41 ∨ (classOf un = 0x30 ∧ ¬ d.portInUse (un - 128) = true)
      ∨ (classOf un = 0x40 ∧ ¬ d.fw.sideband.contains (un - 512) = true)) := by
    rintro (h | h | ⟨h, hn⟩ | ⟨h, hn⟩)
    · exact h hs
    · exact hch h
    · exact hn (hport h)
    · exact hn (hstk h)
  rw [Dev.selfTestDone, if_neg (by simp [hp])]
  simp only [ht]
  rw [if_neg hwait]
  rfl

/-- A returning unit's test, unless its takeover is still open. -/
theorem Dev.selfTestDone_return (hp : populated un = true) (hch : classOf un ≠ 0x41) (ht : d.rid.tests.get? [un] = some t)
    (hw : t.why = .return_) (hd : (d.watchOf un).state ≠ .declared) : d.selfTestDone un pass =
      if d.testPasses un pass then (((d.untested un).spareIfFailed un pass).enterShadow un t).testDone un pass
      else match t.ticket with
        | some k => (((d.untested un).failTest un).testDone un pass).finish k (.fail stABORTED_FAULT)
        | none => ((d.untested un).failTest un).testDone un pass := by
  rw [Dev.selfTestDone, if_neg (by simp [hp])]
  simp only [ht, hw]
  rw [if_neg (by simp [hch, hd])]
  rfl

theorem makes_selfTestDone {e : Dev} (h : s.dev.selfTestDone un pass = e) : Makes (.selfTestDone un pass) s e := Makes.intro rfl h

end

/-! ### UNIT_OUT_TIMEOUT -/

theorem Dev.unitOutTimeout_single {d : Dev} {un since : Nat} {t : Ticket} (ho : d.rid.outs = [⟨un, t, since⟩])
    (hs : since + 100000000 ≤ d.now) :
    d.unitOutTimeout un = ({ d with rid := { d.rid with outs := [] } } : Dev).finish t (.fail stTIMEOUT) := by
  simp only [Dev.unitOutTimeout, ho, List.filter_cons, beq_self_eq_true, hs, decide_true, Bool.and_self, Bool.not_true, if_true,
    Bool.false_eq_true, if_false, List.filter_nil, List.foldl_cons, List.foldl_nil]

/-- Settles O16: a test's end by why the test ran and whether the unit goes on from it. -/
theorem selfTestsAndTimeouts : Obligations.SelfTestsAndTimeouts := by
  refine ⟨fun s un pass k hp ht h1 => ?_, fun s un pass hp hch => ?_, fun s un pass hs htake => ?_, fun s un t since ho hs => ?_⟩
  · exact ⟨_, makes_selfTestDone (Dev.selfTestDone_alone hp ht rfl h1), (s.dev.untested un).noted_testDone un pass⟩
  · refine ⟨fun ht h1 => makes_selfTestDone (Dev.selfTestDone_alone hp ht rfl h1), fun ht hs hport hstk => ?_, fun t ht hw hd => ?_⟩
    · have hm := makes_selfTestDone (Dev.selfTestDone_bringUp (pass := pass) hp hch ht hs hport hstk)
      refine ⟨fun hg => ?_, fun hf => ?_, fun hy hc hspare hh => ?_, fun hy hb => ⟨?_, fun hgrp => ?_⟩⟩
      · rwa [if_pos hg] at hm
      · rwa [if_neg (by simp [hf])] at hm
      · subst hy
        rwa [if_pos (s.dev.testPasses_true un), Dev.spareIfFailed, if_pos rfl, Dev.bringUp_flume hc hspare hh] at hm
      · subst hy
        rwa [if_neg (by simp [Dev.testPasses_false hb]), Dev.failTest_eq hb] at hm
      · subst hy
        rwa [if_neg (by simp [Dev.testPasses_false hb]), Dev.failTest_alone hgrp hb] at hm
    · have hm := makes_selfTestDone (Dev.selfTestDone_return (pass := pass) hp hch ht hw hd)
      refine ⟨fun hg => ?_, fun hf k hk => ?_⟩
      · rwa [if_pos hg] at hm
      · rw [if_neg (by simp [hf]), hk] at hm
        exact hm
  · exact Makes.intro rfl (if_neg (by simp [hs, htake]))
  · exact ⟨_, Makes.intro rfl (Dev.unitOutTimeout_single ho hs), .refl _⟩

end Sys2Proof.Machine
end

section
/-! SUPPORT. Statistics counters: what a flush and a clearing leave in the pairs, and the statement about them. -/
namespace Sys2Proof.Machine
open Sys2Proof

variable {a b d : Dev} {i j : Nat} {bad : Bool}

/-! ### Pairs -/

@[simp] theorem Dev.pair_setPair_self (d : Dev) (i : Nat) (p : Pair) : (d.setPair i p).pair i = p := Tab.getD_setD_self ..

theorem Dev.pair_setPair_ne (p : Pair) (h : j ≠ i) : (d.setPair i p).pair j = d.pair j := Tab.getD_setD_ne (by simpa using h)

theorem Dev.pair_congr (h : b.fwd = a.fwd) (i : Nat) : b.pair i = a.pair i := by rw [Dev.pair, h, Dev.pair]

theorem Dev.fwd_setPair_congr (h : b.fwd = a.fwd) (i : Nat) (p : Pair) : (b.setPair i p).fwd = (a.setPair i p).fwd := by
  rw [Dev.setPair, h, Dev.setPair]

/-- Reporting and counting change neither which channels are DEAD nor what is poisoned. -/
theorem Dev.Noted.sideBad (h : a.Noted b) (qSide : Bool) (x : Nat) : b.sideBad qSide x = a.sideBad qSide x := by
  have hdead : b.sideDead qSide x = a.sideDead qSide x := by
    rw [Dev.sideDead, Dev.flagI, h.getI (noteKey_of _ _ _ (by decide)), Dev.sideDead, Dev.flagI]
  rw [Dev.sideBad, hdead, Dev.sidePoisoned, h.dram, Dev.sideBad, Dev.sidePoisoned]

/-! ### Flushes (R203, R207) -/

/-- A pair once its delta is in DRAM: it restarts from the delta where its copy there is uncorrectable (R207). -/
def Pair.flushed (p : Pair) (bad : Bool) : Pair :=
  { packets := ((if bad then 0 else p.packets) + p.dPackets) % 2 ^ 64
    bytes := ((if bad then 0 else p.bytes) + p.dBytes) % 2 ^ 64
    lost := p.lost || bad }

theorem Dev.fwd_flushPair (d : Dev) (i : Nat) (bad : Bool) :
    (d.flushPair i bad).fwd = (d.setPair i ((d.pair i).flushed (bad || d.sideBad false (pairAddr i)))).fwd := by
  have hw : ((d.access false (pairAddr i) 1).sideWrite false (pairAddr i) 2 1).fwd = d.fwd := by
    rw [Dev.fwd_sideWrite, Dev.access_eq]
  unfold Dev.flushPair
  extract_lets bad' dWrite p base dPair
  have hp : p = d.pair i := Dev.pair_congr hw i
  have hPair : dPair.fwd = (d.setPair i ((d.pair i).flushed bad')).fwd := by
    refine (Dev.fwd_setPair_congr hw i _).trans (congrArg (fun x => (d.setPair i x).fwd) ?_)
    simp only [base, hp, Pair.flushed]
    cases bad' <;> rfl
  split
  · exact (Dev.noted_raise ..).fwd.trans ((Dev.noted_tallyUp ..).fwd.trans hPair)
  · exact hPair

theorem Dev.fwd_flushCounted (d : Dev) (i : Nat) (bad : Bool) :
    (d.flushCounted i bad).fwd = (d.setPair i ((d.pair i).flushed (bad || d.sideBad false (pairAddr i)))).fwd := by
  have hn := d.noted_tally uDSTG 0x22 1
  rw [Dev.flushCounted, Dev.fwd_flushPair, hn.sideBad, Dev.pair_congr hn.fwd, Dev.fwd_setPair_congr hn.fwd]

theorem Dev.pair_flushCounted_self (d : Dev) (i : Nat) (bad : Bool) :
    (d.flushCounted i bad).pair i = (d.pair i).flushed (bad || d.sideBad false (pairAddr i)) :=
  (Dev.pair_congr (d.fwd_flushCounted i bad) i).trans (Dev.pair_setPair_self ..)

theorem Dev.pair_flushCounted_ne (bad : Bool) (h : j ≠ i) : (d.flushCounted i bad).pair j = d.pair j :=
  (Dev.pair_congr (d.fwd_flushCounted i bad) j).trans (Dev.pair_setPair_ne _ h)

/-- A loss is raised (R207). -/
theorem Dev.flushCounted_raised (h : (bad || d.sideBad false (pairAddr i)) = true) :
    (d.flushCounted i bad).hasRaised uDSTG 0x11 (leBytes 4 i) := by
  rw [← (d.noted_tally uDSTG 0x22 1).sideBad] at h
  rw [Dev.flushCounted, Dev.flushPair, if_pos h]
  exact Dev.raise_raised _ _ _ _ (by decide) (by decide)

/-! ### Clearing (R206) -/

/-- A cached pair is flushed before it is cleared (R203). -/
theorem Dev.clearPair_of_cached (h : (d.pair i).cached = true) : d.clearPair i = (d.flushCounted i false).clearPair i := by
  have hf : ((d.flushCounted i false).pair i).cached = false := by rw [Dev.pair_flushCounted_self]; rfl
  rw [Dev.clearPair, if_pos h, Dev.clearPair, if_neg (by simp [hf])]

theorem Dev.fwd_clearPair_of_uncached (h : (d.pair i).cached = false) :
    (d.clearPair i).fwd = (d.setPair i { d.pair i with packets := 0, bytes := 0 }).fwd := by
  rw [Dev.clearPair, if_neg (by simp [h]), Dev.fwd_setPair_congr (Dev.fwd_sideWrite ..)]

/-- What a clearing leaves of an uncached pair: its lost mark, for the next record. -/
theorem Dev.clearPair_uncached (h : (d.pair i).cached = false) :
    (d.clearPair i).pair i = { d.pair i with packets := 0, bytes := 0 } ∧ ∀ j, j ≠ i → (d.clearPair i).pair j = d.pair j :=
  have hf := Dev.fwd_clearPair_of_uncached h
  ⟨(Dev.pair_congr hf i).trans (Dev.pair_setPair_self ..), fun j hj => (Dev.pair_congr hf j).trans (Dev.pair_setPair_ne _ hj)⟩

theorem Dev.clearPair_spec (d : Dev) (i : Nat) : ((d.clearPair i).pair i).packets = 0 ∧ ((d.clearPair i).pair i).bytes = 0
    ∧ ((d.clearPair i).pair i).cached = false ∧ ((d.pair i).lost = true → ((d.clearPair i).pair i).lost = true)
    ∧ ∀ j, j ≠ i → (d.clearPair i).pair j = d.pair j := by
  cases hc : (d.pair i).cached with
  | false =>
    obtain ⟨hi, hj⟩ := Dev.clearPair_uncached hc
    rw [hi]
    exact ⟨rfl, rfl, hc, id, hj⟩
  | true =>
    have hp := d.pair_flushCounted_self i false
    obtain ⟨hi, hj⟩ := Dev.clearPair_uncached (d := d.flushCounted i false) (i := i) (by rw [hp]; rfl)
    rw [Dev.clearPair_of_cached hc, hi, hp]
    exact ⟨rfl, rfl, rfl, fun hl => by simp [Pair.flushed, hl], fun j h => (hj j h).trans (Dev.pair_flushCounted_ne false h)⟩

/-! ### Commands (R205, R206) -/

section
variable {s : State} {c : HCmd} {bads : List Nat} {fault : Option Nat} {n : Nat}

/-- With the statistics unit ACTIVE and the host's memory writable, the first `n` pairs of the block are read into it. -/
theorem makes_cntReadBlock (ha : c.accepted s.dev 0x0501 c.cntReadBlockParams) (hs : s.dev.svc uDSTG = sACTIVE)
    (hw : c.writeOk = true) (hn : min (c.par 4 16 0) (fault.getD (c.par 4 16 0)) = n) :
    let r := Dev.readPairs n (c.begun s.dev) (c.par 0 24 0) bads (c.par 0 25 25 == 1)
    Makes (.cntReadBlock c bads fault) s ((r.1.dataWrite c.ticket (c.par 8 63 0) r.2.1).finish c.ticket
      ⟨if n < c.par 4 16 0 then stABORTED_FAULT else stOK, n + r.2.2 * 2 ^ 17, 0⟩) := by
  subst hn
  refine Makes.endedNow rfl rfl ha ?_
  rw [if_neg (by simp [(s.dev.noted_begun c).svc, hs]), if_neg (by simp [hw])]

theorem makes_cntClearBlock (ha : c.accepted s.dev 0x0502 c.cntClearBlockParams) (hs : s.dev.svc uDSTG = sACTIVE)
    (hn : min (c.par 4 16 0) (fault.getD (c.par 4 16 0)) = n) :
    Makes (.cntClearBlock c fault) s ((((List.range n).map (c.par 0 24 0 + ·)).foldl Dev.clearPair (c.begun s.dev)).finish c.ticket
      (.fail (if n < c.par 4 16 0 then stABORTED_FAULT else stOK))) := by
  subst hn
  refine Makes.endedNow rfl rfl ha ?_
  rw [if_neg (by simp [(s.dev.noted_begun c).svc, hs])]

end

/-- Settles O36: flushes and clearings by what they leave in the pairs, the block commands by the number of pairs they reach. -/
theorem statisticsCounters : Obligations.StatisticsCounters := by
  refine ⟨fun s i u => ?_, fun s c bad ha hs hw => ?_, fun s c bad k ha hs hw hk => ?_, fun s c bad ha hs => ?_,
    fun s c fault ha hs => makes_cntClearBlock ha hs rfl, Dev.clearPair_spec, fun s c ha hs => ?_⟩
  · intro p bad hc
    have hp := s.dev.pair_flushCounted_self i u
    refine ⟨_, Makes.intro rfl (if_pos hc), ?_⟩
    rw [hp]
    exact ⟨rfl, rfl, rfl, rfl, rfl, rfl, fun j hj => Dev.pair_flushCounted_ne u hj, Dev.flushCounted_raised⟩
  · simpa only [Nat.lt_irrefl, if_false] using makes_cntReadBlock (bads := bad) (fault := none) ha hs hw (Nat.min_self _)
  · simpa only [hk, if_true] using makes_cntReadBlock (bads := bad) (fault := some k) (n := k) ha hs hw (Nat.min_eq_right (Nat.le_of_lt hk))
  all_goals
    refine Completes.intro rfl rfl ha fun b hb => ?_
    rw [if_pos (by rwa [hb.svc])]
    exact ⟨rfl, hb⟩

end Sys2Proof.Machine
end

section
/-! SUPPORT. Records that commit and packets that leave, and the statement about them. -/
namespace Sys2Proof.Machine
open Sys2Proof

section
variable {d : Dev} {un q : Nat} {checkOk ackNow : Bool} {k : Pkt} {y : Result}

/-- The device once a record has committed: it counts, LAST_COMMIT shows it, a drop is counted under its reason, and its packet waits
for release (R208, R209). -/
def Dev.committedAs (d : Dev) (un q : Nat) (k : Pkt) (y : Result) : Dev :=
  let d := (d.bump un FLM_PASSES.COUNT).set un FLM_STATUS.LAST_COMMIT q
  let l := uLAT k.lat
  let d := if y.disp = 2 ∧ y.reason ≠ 0 then (d.bumpI l LAT_DROP.COUNT y.reason).tallyQ l 0x23 1 (selReason y.reason) else d
  let d : Dev := { d with fwd := { d.fwd with ready := d.fwd.ready.insert [k.hdr.port, k.portSeq] { k with committed := true } } }
  d.replayEnded q k.lat

/-- A record that waits meets the checks of the enqueue point in their order: a packet that has committed before, its CHECK, its turn
(R209, R373, R374). -/
theorem Dev.resultCommit_eq (hf : (d.window un).find? (fun x => x.latSeq == q && x.result.isSome) = some k) (hy : k.result = some y)
    (hc : k.committed = false) : d.resultCommit un q checkOk ackNow =
      if d.committedAlready k = true then (((d.bump (riderOf un) RID_REPLAY_DUP.COUNT).dropPkt un q).replayEnded q k.lat).showEpoch
      else if checkOk = false then ((d.rejectRecord un 0).putPkt un { k with result := none }).softInput un 1
      else if d.turnCovers un q k.turn = false then (d.rejectRecord un 1).putPkt un { k with result := none }
      else if ackNow = true then
        ((((d.committedAs un q k y).dropPkt un q).applyUpdates k.updates).tally un 0x21 1).showEpoch
      else ((d.committedAs un q k y).putPkt un { k with committed := true, acked := false }).showEpoch := by
  simp only [Dev.resultCommit, hf, hy, hc, Option.getD_some, Bool.not_eq_true, Bool.false_eq_true, if_false, apply_ite Dev.showEpoch,
    Dev.committedAs]

/-- The next packet of its port leaves once it has committed: its reorder slot is free, its mirror copy made, and it acts as its record
says (R209-R211). -/
theorem Dev.packetRelease_eq {p : Nat} (hr : d.fwd.ready.get? [p, d.fwd.relSeq.getD 0 [p]] = some k) (hy : k.result = some y) :
    d.packetRelease p =
      (let n := d.fwd.relSeq.getD 0 [p]
       let e : Dev := { d with fwd := { d.fwd with
         ready := d.fwd.ready.erase [p, n], relSeq := d.fwd.relSeq.setD 0 [p] ((n + 1) % 2 ^ 17) } }
       ((e.freeSlot k.lat).mirrorIn k y).actReleased k y) := by
  simp only [Dev.packetRelease, hr, hy, Option.getD_some]

theorem Dev.packetRelease_of_none {p : Nat} (hr : d.fwd.ready.get? [p, d.fwd.relSeq.getD 0 [p]] = none) : d.packetRelease p = d := by
  simp only [Dev.packetRelease, hr]

end

/-- Settles O35, check by check of the enqueue point; a release by whether the port's next packet has committed. -/
theorem recordsCommitAndPacketsLeave : Obligations.RecordsCommitAndPacketsLeave := by
  refine ⟨fun s un q checkOk ackNow k y hf hy hc => ?_, fun s p k y => ?_, fun s p hr => Makes.intro rfl (Dev.packetRelease_of_none hr)⟩
  · have hm : Makes (.resultCommit un q checkOk ackNow) s _ := Makes.intro rfl (Dev.resultCommit_eq hf hy hc)
    refine ⟨fun ha => ?_, fun ha hx => ?_, fun ha hx ht => ?_, fun ha hx ht => ?_⟩
    · rwa [if_pos ha] at hm
    · rwa [if_neg (by simp [ha]), if_pos hx] at hm
    · rwa [if_neg (by simp [ha]), if_neg (by simp [hx]), if_pos ht] at hm
    · rwa [if_neg (by simp [ha]), if_neg (by simp [hx]), if_neg (by simp [ht])] at hm
  · intro n hr hy
    exact Makes.intro rfl (Dev.packetRelease_eq hr hy)

end Sys2Proof.Machine
end

section
/-! SUPPORT. Buffer pools: how requests, frees and configurations answer, and the statement about them. -/
namespace Sys2Proof.Machine
open Sys2Proof

/-! ### Requests and frees (R236, R238) -/

section
variable {d : Dev} {p b req n : Nat} {bs : List (Nat × Nat)} {o : Owner}

/-- A request for a stash with room asks for what fits, and stows what it is granted. -/
theorem Dev.bufferRequest_eq (hn : 1 ≤ n) (hs : d.stashed req < 128) :
    d.bufferRequest req p n =
      (let want := min (min n 64) (128 - d.stashed req)
       let r := Dev.requestChain 3 d req p p (want * d.bufSize p)
       (r.1.stow req r.2).spillIfShort d.tm.globalSpill) := if_neg (by omega)

theorem Dev.freeChain_unallocated (h : d.tm.owners.get? [p, b] = none) : Dev.freeChain ((p, b) :: bs) d req =
    ((d.bump uBPM BPM_DOUBLE_FREE.COUNT).tallyQ uBPM 0x24 1 (selPool p)).raise uBPM 0x10
      (leBytes 4 b ++ leBytes 1 p ++ leBytes 1 req) := by
  rw [Dev.freeChain, h]

theorem Dev.freeChain_foreign (h : d.tm.owners.get? [p, b] = some o) (ho : o.owner ≠ req) : Dev.freeChain ((p, b) :: bs) d req =
    ((d.bump uBPM BPM_WRONG_OWNER.COUNT).tallyQ uBPM 0x24 1 (selPool p)).raise uBPM 0x11
      (leBytes 4 b ++ leBytes 1 p ++ leBytes 1 req ++ leBytes 1 o.owner) := by
  rw [Dev.freeChain, h]
  exact if_neg ho

theorem Dev.freeChain_owned (h : d.tm.owners.get? [p, b] = some o) (ho : o.owner = req) :
    Dev.freeChain ((p, b) :: bs) d req = Dev.freeChain bs (d.releaseBuf p b req) req := by
  rw [Dev.freeChain, h]
  exact if_pos ho

end

/-! ### Configuring a pool (R232) -/

/-- A write of BPM_POOL_CFG changes at most EN. -/
def Dev.poolKept (d : Dev) (p v : Nat) : Bool :=
  (p == 1 || newPool v BPM_POOL_CFG.COUNT == d.getI uBPM BPM_POOL_CFG.COUNT p)
  && (decide (p < 2) || (newPool v BPM_POOL_CFG.HOME == d.getI uBPM BPM_POOL_CFG.HOME p
    && newPool v BPM_POOL_CFG.SIZE_LOG2 == d.getI uBPM BPM_POOL_CFG.SIZE_LOG2 p))
  && newPool v BPM_POOL_CFG.FB_EN == d.getI uBPM BPM_POOL_CFG.FB_EN p
  && newPool v BPM_POOL_CFG.FALLBACK == d.getI uBPM BPM_POOL_CFG.FALLBACK p

/-- Cells that a write of BPM_POOL_CFG takes from pool 0 for an on-die pool of number 2 or above. -/
def newCells (v : Nat) : Nat :=
  onDieCells (newPool v BPM_POOL_CFG.COUNT) (BPM_POOL_CFG.SIZE_LOG2.rng.act (newPool v BPM_POOL_CFG.SIZE_LOG2))

/-- Bytes that it takes of DRAM for one whose HOME is there. -/
def newBytes (v : Nat) : Nat :=
  newPool v BPM_POOL_CFG.COUNT * 2 ^ BPM_POOL_CFG.SIZE_LOG2.rng.act (newPool v BPM_POOL_CFG.SIZE_LOG2)

/-- What a write that enables a pool with no buffer out makes: a pool of number 2 or above is refused the memory that is not there, and
one on the die takes its cells from pool 0. -/
def Dev.enablePool (d : Dev) (p v : Nat) : Dev :=
  let count := if p = 1 then d.poolCount 1 else newPool v BPM_POOL_CFG.COUNT
  let size := if p < 2 then d.sizeLog2 p else BPM_POOL_CFG.SIZE_LOG2.rng.act (newPool v BPM_POOL_CFG.SIZE_LOG2)
  let dram : Bool := decide (2 ≤ p) && newPool v BPM_POOL_CFG.HOME == 1
  let onDie : Bool := decide (2 ≤ p) && newPool v BPM_POOL_CFG.HOME == 0
  if dram ∧ 2 ^ 30 < d.dramBytes p + count * 2 ^ size then d.refusePool p
  else if onDie ∧ min (d.sharedFree 0) (d.poolFree 0) < onDieCells count size then d.refusePool p
  else if onDie then
    let e := (d.storePool p v).setI uBPM BPM_POOL_CFG.COUNT 0 ((d.storePool p v).poolCount 0 - onDieCells count size)
    (e.setFree 0 (e.poolFree 0 - onDieCells count size)).spillIfShort d.tm.globalSpill
  else d.storePool p v

section
variable {d : Dev} {p v : Nat}

theorem Dev.poolKept_iff : d.poolKept p v = true ↔
    (p = 1 ∨ newPool v BPM_POOL_CFG.COUNT = d.getI uBPM BPM_POOL_CFG.COUNT p)
    ∧ (p < 2 ∨ newPool v BPM_POOL_CFG.HOME = d.getI uBPM BPM_POOL_CFG.HOME p
        ∧ newPool v BPM_POOL_CFG.SIZE_LOG2 = d.getI uBPM BPM_POOL_CFG.SIZE_LOG2 p)
    ∧ newPool v BPM_POOL_CFG.FB_EN = d.getI uBPM BPM_POOL_CFG.FB_EN p
    ∧ newPool v BPM_POOL_CFG.FALLBACK = d.getI uBPM BPM_POOL_CFG.FALLBACK p := by
  simp [Dev.poolKept, and_assoc]

theorem Dev.poolCfgWrite_eq (hp : p < 32) : d.poolCfgWrite p v =
    if d.flagI uBPM BPM_POOL_CFG.EN p = true ∧ ¬ d.poolKept p v = true then d.refusePool p
    else if d.flagI uBPM BPM_POOL_CFG.EN p = true ∧ newPool v BPM_POOL_CFG.EN = 1 then d
    else if d.flagI uBPM BPM_POOL_CFG.EN p = true then
      (((d.storePool p v).setI uBPM BPM_POOL_STATUS.READY p 0).setFree p 0).giveBack p
    else if d.poolKept p v = true ∧ ¬ newPool v BPM_POOL_CFG.EN = 1 then d
    else if ¬ (d.allocated p).isEmpty = true then d.refusePool p
    else if ¬ newPool v BPM_POOL_CFG.EN = 1 then d.storePool p v
    else d.enablePool p v := if_neg (Nat.not_le.2 hp)

/-- A write that enables or changes a pool that is not enabled. -/
theorem Dev.poolCfgWrite_off (hp : p < 32) (hen : d.flagI uBPM BPM_POOL_CFG.EN p = false)
    (hc : ¬ d.poolKept p v = true ∨ newPool v BPM_POOL_CFG.EN = 1) : d.poolCfgWrite p v =
      if ¬ (d.allocated p).isEmpty = true then d.refusePool p
      else if ¬ newPool v BPM_POOL_CFG.EN = 1 then d.storePool p v
      else d.enablePool p v := by
  have hoff : ¬ d.flagI uBPM BPM_POOL_CFG.EN p = true := Bool.eq_false_iff.1 hen
  have hk : ¬ (d.poolKept p v = true ∧ ¬ newPool v BPM_POOL_CFG.EN = 1) := fun ⟨hk, h1⟩ => hc.elim (· hk) h1
  rw [Dev.poolCfgWrite_eq hp, if_neg fun x => hoff x.1, if_neg fun x => hoff x.1, if_neg hoff, if_neg hk]

theorem Dev.enablePool_fixed (h : p < 2) : d.enablePool p v = d.storePool p v := by
  have hp : decide (2 ≤ p) = false := decide_eq_false (Nat.not_le.2 h)
  simp only [Dev.enablePool, hp, Bool.false_and, Bool.false_eq_true, false_and, if_false]

/-- A DRAM pool takes its bytes of the region for such pools, where they are. -/
theorem Dev.enablePool_dram (h : 2 ≤ p) (hh : newPool v BPM_POOL_CFG.HOME = 1) : d.enablePool p v =
    if 2 ^ 30 < d.dramBytes p + newBytes v then d.refusePool p else d.storePool p v := by
  have hd : (decide (2 ≤ p) && newPool v BPM_POOL_CFG.HOME == 1) = true := by rw [decide_eq_true h, hh]; rfl
  have ho : (decide (2 ≤ p) && newPool v BPM_POOL_CFG.HOME == 0) = false := by rw [hh]; exact Bool.and_false _
  have hoff := Bool.eq_false_iff.1 ho
  simp only [Dev.enablePool, if_neg (show p ≠ 1 by omega), if_neg (Nat.not_lt.2 h)]
  rw [← newBytes]
  by_cases hb : 2 ^ 30 < d.dramBytes p + newBytes v
  · rw [if_pos ⟨hd, hb⟩, if_pos hb]
  · rw [if_neg fun x => hb x.2, if_neg fun x => hoff x.1, if_neg hoff, if_neg hb]

/-- An on-die pool takes its cells from pool 0, where they are free. -/
theorem Dev.enablePool_onDie (h : 2 ≤ p) (hh : newPool v BPM_POOL_CFG.HOME = 0) : d.enablePool p v =
    if min (d.sharedFree 0) (d.poolFree 0) < newCells v then d.refusePool p
    else
      let e := (d.storePool p v).setI uBPM BPM_POOL_CFG.COUNT 0 ((d.storePool p v).poolCount 0 - newCells v)
      (e.setFree 0 (e.poolFree 0 - newCells v)).spillIfShort d.tm.globalSpill := by
  have hd : (decide (2 ≤ p) && newPool v BPM_POOL_CFG.HOME == 1) = false := by rw [hh]; exact Bool.and_false _
  have ho : (decide (2 ≤ p) && newPool v BPM_POOL_CFG.HOME == 0) = true := by rw [decide_eq_true h, hh]; rfl
  have hoff := Bool.eq_false_iff.1 hd
  simp only [Dev.enablePool, if_neg (show p ≠ 1 by omega), if_neg (Nat.not_lt.2 h)]
  rw [← newCells, if_neg fun x => hoff x.1]
  by_cases hb : min (d.sharedFree 0) (d.poolFree 0) < newCells v
  · rw [if_pos ⟨ho, hb⟩, if_pos hb]
  · rw [if_neg fun x => hb x.2, if_pos ho, if_neg hb]

end

/-- Settles O42: requests, frees and quotas by their equations, a write of a pool's configuration branch by branch. -/
theorem buffersAndPools : Obligations.BuffersAndPools := by
  refine ⟨fun s req p n hn hs => Makes.intro rfl (Dev.bufferRequest_eq hn hs),
    fun s p b req bs => ⟨fun h => Makes.intro rfl (Dev.freeChain_unallocated h), fun o h =>
      ⟨fun ho => Makes.intro rfl (Dev.freeChain_foreign h ho), fun ho => Makes.intro rfl (Dev.freeChain_owned h ho)⟩⟩,
    fun s req p => Makes.intro rfl rfl, fun s p hp hen hr => Makes.intro rfl (if_pos ⟨hp, hen, Bool.eq_false_iff.1 hr⟩),
    fun s p v hp => ?_, fun s v => Makes.intro rfl rfl⟩
  intro kept refused
  have hk : kept ↔ s.dev.poolKept p v = true := Dev.poolKept_iff.symm
  have hm : Makes (.poolCfgWrite p v) s _ := Makes.intro rfl (Dev.poolCfgWrite_eq hp)
  have hoff hen hc : Makes (.poolCfgWrite p v) s _ := Makes.intro rfl (Dev.poolCfgWrite_off hp hen hc)
  clear_value kept
  rw [hk]
  refine ⟨fun hen hc => ?_, fun hen hc h0 => ?_, fun hen ha hc => ?_, fun hen ha => ⟨fun hc => ?_, fun h1 h2 => ?_⟩⟩
  · rwa [if_pos ⟨hen, hc⟩] at hm
  · rwa [if_neg fun x => x.2 hc, if_neg (by simp [h0]), if_pos hen] at hm
  · have h := hoff hen hc
    rwa [if_pos (by simpa using ha)] at h
  · have h := hoff hen (hc.imp And.right And.left)
    rw [if_neg (by simp [ha])] at h
    rcases hc with ⟨h0, _⟩ | ⟨h1, h2⟩
    · rwa [if_pos (by simp [h0])] at h
    · rwa [if_neg (not_not_intro h1), Dev.enablePool_fixed h2] at h
  · have h := hoff hen (.inr h1)
    rw [if_neg (by simp [ha]), if_neg (not_not_intro h1)] at h
    refine ⟨fun hh => ?_, fun hh => ?_⟩
    · rw [Dev.enablePool_dram h2 hh] at h
      exact ⟨fun (hb : _ < _ + newBytes v) => by rwa [if_pos hb] at h,
        fun (hb : _ + newBytes v ≤ _) => by rwa [if_neg (Nat.not_lt.2 hb)] at h⟩
    · rw [Dev.enablePool_onDie h2 hh] at h
      exact ⟨fun (hb : _ < newCells v) => by rwa [if_pos hb] at h,
        fun (hb : newCells v ≤ _) => by rwa [if_neg (Nat.not_lt.2 hb)] at h⟩

end Sys2Proof.Machine
end

section
/-! SUPPORT. The spillway: what a read-ahead returns and does, and the statement about spillway and queues. -/
namespace Sys2Proof.Machine
open Sys2Proof

theorem Dev.queue_congr {a b : Dev} (h : b.tm = a.tm) (r : QRef) : b.queue r = a.queue r := by cases r <;> simp only [Dev.queue, h]

/-! ### Reading ahead (R242, R243) -/

/-- Is a block of a spill stream lost, with its channel or as poisoned (R253, R352)? -/
def Dev.blockLost (d : Dev) (b : Nat × Nat) : Bool := d.deadBlock b.1 b.2 || (b.1 == 1 && d.sidePoisoned true (blockAddr b.2))

/-- The blocks that the stream bytes from `pos` up to `fin` lie in. -/
def Queue.blockSpan (q : Queue) (pos fin : Nat) : List (Nat × Nat) :=
  (q.blocks.drop ((pos - q.base) / spillBlock)).take ((fin - 1) / spillBlock - pos / spillBlock + 1)

/-- Where the stream bytes of a spilled packet begin and end. -/
def QPkt.streamPos (k : QPkt) : Nat := (k.stream.getD (0, 0)).1
def QPkt.streamFin (k : QPkt) : Nat := (k.stream.getD (0, 0)).2

section
variable {d : Dev} {q : Queue} {pos fin : Nat} {o : SpillRead}

theorem Dev.readThrough_eq : d.readThrough q pos fin o =
    if d.blockLost (q.blockOf pos) = true then .linkLost
    else if o = .good ∧ (q.blockSpan pos fin).any d.blockLost = true then .dataLost else o := rfl

theorem Dev.readThrough_good (h : d.blockLost (q.blockOf pos) = false) (ho : o = .good)
    (hs : (q.blockSpan pos fin).any d.blockLost = false) : d.readThrough q pos fin o = .good := by
  rw [Dev.readThrough_eq, if_neg (by simp [h]), if_neg (by simp [hs]), ho]

theorem Dev.readThrough_dataLost (h : d.blockLost (q.blockOf pos) = false)
    (ho : o = .dataLost ∨ o = .good ∧ (q.blockSpan pos fin).any d.blockLost = true) : d.readThrough q pos fin o = .dataLost := by
  rw [Dev.readThrough_eq, if_neg (by simp [h])]
  rcases ho with rfl | hs
  · exact ite_self _
  · exact if_pos hs

theorem Dev.readThrough_linkLost (h : d.blockLost (q.blockOf pos) = true ∨ o = .linkLost) : d.readThrough q pos fin o = .linkLost := by
  rw [Dev.readThrough_eq]
  rcases h with h | rfl
  · exact if_pos h
  · rw [if_neg (fun x : SpillRead.linkLost = .good ∧ _ => nomatch x.1), ite_self]

end

/-- What a read-ahead makes of the first spilled packet `k`, whose body is `bytes`, once the read has returned: a body for which no cell is
free stays where it is. -/
def Dev.readAhead (d : Dev) (r : QRef) (k : QPkt) (bytes : List Byte) : SpillRead → Dev
  | .good =>
    let e := (d.storeBody reqSpill 0 bytes 1).1
    let n := k.streamFin / spillBlock - k.streamPos / spillBlock
    match (d.storeBody reqSpill 0 bytes 1).2 with
    | none => e
    | some h => ((e.add uSPW SPW_BLOCKS_READ.COUNT n).tallyQ uSPW 0x21 n (fun _ => true)).setQueue r
        { e.queue r with pkts := replaceSpilled (some { k with loc := .cells h }) (d.queue r).pkts }
  | .dataLost =>
    let e := (d.bump uSPW SPW_READ_ERR.COUNT).countDrop r 8
    ((e.setQueue r ((d.queue r).left k (replaceSpilled none (d.queue r).pkts) e.now)).raise uSPW 0x11
      (leBytes 4 ((d.queue r).blockAt k.streamPos) ++ leBytes 4 k.desc.length)).settleSpill r
  | .linkLost =>
    let run := cutRun (d.queue r).pkts
    let lost := (run.2.map (fun x => x.desc.length)).sum
    let e := d.setQueue r (run.2.foldl (fun a x => a.left x run.1 d.now) (d.queue r))
    ((((e.bump uSPW SPW_READ_ERR.COUNT).countDrop r 8).add uSPW SPW_LOST_BYTES.COUNT lost).raise uSPW 0x11
      (leBytes 4 ((d.queue r).blockAt k.streamPos) ++ leBytes 4 lost)).settleSpill r

section
variable {s : State} {d : Dev} {r : QRef} {k : QPkt} {before : Nat} {bytes : List Byte} {o x : SpillRead}

/-- A spilled packet too far from the head waits. -/
theorem Dev.spillReadAhead_far (hf : firstSpilled (d.queue r).pkts 0 = some (k, before)) (hb : 16384 < before) :
    d.spillReadAhead r o = d := by
  rw [Dev.spillReadAhead, hf]
  exact if_pos hb

theorem Dev.spillReadAhead_near (hf : firstSpilled (d.queue r).pkts 0 = some (k, before)) (hk : k.loc = .spill bytes)
    (hb : before ≤ 16384) (hx : d.readThrough (d.queue r) k.streamPos k.streamFin o = x) :
    d.spillReadAhead r o = d.readAhead r k bytes x := by
  have hq (e : Dev) (n : Nat) : ((e.add uSPW SPW_BLOCKS_READ.COUNT n).tallyQ uSPW 0x21 n (fun _ => true)).queue r = e.queue r :=
    Dev.queue_congr (Dev.noted_tallyQ ..).tm r
  rw [QPkt.streamPos, QPkt.streamFin] at hx
  rw [Dev.spillReadAhead, hf]
  refine (if_neg (Nat.not_lt.2 hb)).trans ?_
  cases x with
  | good =>
    simp only [hx, hk, hq, Dev.readAhead]
    cases (d.storeBody reqSpill 0 bytes 1).2 <;> rfl
  | dataLost => simp only [hx]; rfl
  | linkLost => simp only [hx]; rfl

theorem makes_spillReadAhead (hf : firstSpilled (s.dev.queue r).pkts 0 = some (k, before)) (hk : k.loc = .spill bytes)
    (hb : before ≤ 16384) (hx : s.dev.readThrough (s.dev.queue r) k.streamPos k.streamFin o = x) :
    Makes (.spillReadAhead r o) s (s.dev.readAhead r k bytes x) := Makes.intro rfl (Dev.spillReadAhead_near hf hk hb hx)

end

/-- With the queue engine ACTIVE, QUEUE_CFG takes the entries of its range one by one (R254). -/
theorem makes_queueCfg {s : State} {c : HCmd} (ha : c.accepted s.dev 0x0301 c.queueCfgParams) (hs : s.dev.svc uVOQ = sACTIVE) :
    Makes (.queueCfg c) s (((List.range (c.par 8 16 0)).foldl (fun d i => d.cfgEntry c (c.par 4 19 0 + i)) (c.begun s.dev)).finish
      c.ticket .ok) :=
  Makes.endedNow rfl rfl ha (if_pos (((s.dev.noted_begun c).svc _).trans hs))

/-- Settles O43: a read-ahead by what reading the stream returns, the other commands by their equations. -/
theorem spillwayAndQueues : Obligations.SpillwayAndQueues := by
  refine ⟨fun s q => Makes.intro rfl rfl, fun s q k before bytes o hf hk => ?_, fun s h => Makes.intro rfl (if_neg fun ⟨hr, hs⟩ => h.elim (· hr) (· hs)),
    fun s p sub hp hr => Makes.intro rfl (if_pos ⟨hp, hr⟩), fun s c => makes_queueCfg, fun d c n h => if_pos h,
    fun s c ha => Makes.endedNow rfl rfl ha rfl⟩
  refine ⟨fun hb => Makes.intro rfl (Dev.spillReadAhead_far hf hb), fun hb => ?_⟩
  have hm {x} : s.dev.readThrough (s.dev.queue q) k.streamPos k.streamFin o = x → Makes (.spillReadAhead q o) s _ :=
    makes_spillReadAhead hf hk hb
  refine ⟨fun hd ho hs hn => ?_, fun hd ho hs h hn => ?_, fun hd ho => hm (Dev.readThrough_dataLost hd ho),
    fun hl => hm (Dev.readThrough_linkLost hl)⟩
  all_goals
    have h := hm (Dev.readThrough_good hd ho hs)
    rwa [Dev.readAhead, hn] at h

end Sys2Proof.Machine
end

section
/-! SUPPORT. The scheduler: what a decision leaves, and the statement about it, its shapers and its holds. -/
namespace Sys2Proof.Machine
open Sys2Proof

/-! ### What frees and removals leave of the hierarchy -/

theorem Dev.sch_setFree (d : Dev) (p n : Nat) : (d.setFree p n).sch = d.sch := by
  unfold Dev.setFree
  extract_lets dFree dLow below
  have hLow : dLow.sch = d.sch := by
    dsimp only [dLow]
    split <;> rfl
  split
  · split
    · exact (Dev.noted_raise ..).sch.trans hLow
    · exact hLow
  · exact hLow

theorem Dev.sch_giveBack (d : Dev) (p : Nat) : (d.giveBack p).sch = d.sch := by
  unfold Dev.giveBack
  dsimp only
  split
  · rw [Dev.sch_setFree, Dev.setI_sch]
  · rfl

theorem Dev.sch_linkFree (d : Dev) (p b : Nat) : (d.linkFree p b).sch = d.sch := by
  unfold Dev.linkFree
  split <;> rfl

theorem Dev.sch_releaseBuf (d : Dev) (p b req : Nat) : (d.releaseBuf p b req).sch = d.sch := by
  rw [Dev.releaseBuf, (Dev.noted_tallyQ ..).sch, Dev.sch_giveBack]
  split
  · rfl
  · rw [Dev.sch_setFree, Dev.sch_linkFree]
    rfl

theorem Dev.sch_freeChain (bs : List (Nat × Nat)) (d : Dev) (req : Nat) : (Dev.freeChain bs d req).sch = d.sch := by
  induction bs generalizing d with
  | nil => rfl
  | cons x bs ih =>
    obtain ⟨p, b⟩ := x
    unfold Dev.freeChain
    split
    · exact (Dev.noted_raise ..).sch.trans (Dev.noted_tallyQ ..).sch
    · split
      · exact (ih _).trans (d.sch_releaseBuf p b req)
      · exact (Dev.noted_raise ..).sch.trans (Dev.noted_tallyQ ..).sch

theorem Dev.sch_setQueue (d : Dev) (r : QRef) (q : Queue) : (d.setQueue r q).sch = d.sch := by cases r <;> rfl

theorem Dev.sch_trimSpill (n : Nat) (d : Dev) (r : QRef) : (Dev.trimSpill n d r).sch = d.sch := by
  induction n generalizing d with
  | zero => rfl
  | succ n ih =>
    unfold Dev.trimSpill
    extract_lets q lim
    split
    · rfl
    · split
      · rw [ih, Dev.sch_freeChain, Dev.sch_setQueue]
      · rfl

theorem Dev.sch_settleBalance (d : Dev) (r : QRef) : (d.settleBalance r).sch = d.sch := by
  unfold Dev.settleBalance
  split
  · rfl
  · dsimp only
    split <;> rfl

theorem Dev.sch_settleSpill (d : Dev) (r : QRef) : (d.settleSpill r).sch = d.sch := by
  have h := fun n => (Dev.sch_trimSpill n (d.settleBalance r) r).trans (d.sch_settleBalance r)
  unfold Dev.settleSpill
  dsimp only
  split
  · rw [Dev.sch_freeChain, Dev.sch_setQueue, h]
  · exact h _

theorem Dev.sch_markShared (d : Dev) (bufs : List (Nat × Nat)) (shared : Bool) : (d.markShared bufs shared).sch = d.sch := by
  unfold Dev.markShared
  induction bufs generalizing d with
  | nil => rfl
  | cons b bufs ih =>
    refine (ih _).trans ?_
    dsimp only
    split
    · split <;> rfl
    · rfl

theorem Dev.sch_dropRef (d : Dev) (h : Nat) : (d.dropRef h).sch = d.sch := by
  unfold Dev.dropRef
  split
  · rfl
  · split
    · exact Dev.sch_freeChain ..
    · exact Dev.sch_markShared ..

theorem Dev.sch_dropLoc (d : Dev) (l : Loc) : (d.dropLoc l).sch = d.sch := by
  cases l with
  | cells h => exact d.sch_dropRef h
  | spill bs => rfl

theorem Dev.sch_popHead (d : Dev) (r : QRef) : (d.popHead r).sch = d.sch := by
  unfold Dev.popHead
  dsimp only
  split
  · rfl
  · rw [Dev.sch_settleSpill, Dev.sch_setQueue]

/-! ### Decisions (R259-R263, R266) -/

/-- Charging a node changes the hierarchy alone. -/
theorem Dev.editorQ_chargeChild (d : Dev) (l par n : Nat) (c : Int) : (d.chargeChild l par n c).sch.editorQ = d.sch.editorQ := by
  unfold Dev.chargeChild
  dsimp only
  split <;> rfl

theorem Dev.editorQ_chargePath (d : Dev) (t : Path) (c : Int) : (d.chargePath t c).sch.editorQ = d.sch.editorQ := by
  have hNode (e : Dev) (l n : Nat) (x : Node) : (e.setNode l n x).sch.editorQ = e.sch.editorQ := rfl
  simp only [Dev.chargePath, hNode, Dev.editorQ_chargeChild]

/-- The bytes of a queued packet as its editor gets them. -/
def Dev.bytesOf (d : Dev) : Loc → List Byte
  | .cells b => d.bodyBytes b
  | .spill bs => bs

/-- The device once a head has left its queue for the editor of its port, its path charged; counts and events are still to come. -/
def Dev.headSent (d : Dev) (p : Nat) (t : Path) (h : QPkt) : Dev :=
  let c := d.charged p h.desc
  let e := ((d.popHead (.eq t.q)).dropLoc h.loc).chargePath t c
  { e with sch := { e.sch with
    busyUntil := e.sch.busyUntil.setD 0 [p] (d.sendAt p + e.wireTime p c.toNat)
    editorQ := e.sch.editorQ.setD [] [p] (e.sch.editorQ.getD [] [p] ++ [TxPkt.mk h.desc (d.bytesOf h.loc)]) } }

section
variable {d : Dev} {p : Nat} {t : Path} {h : QPkt}

theorem Dev.editorQ_headSent : (d.headSent p t h).sch.editorQ.getD [] [p] =
    d.sch.editorQ.getD [] [p] ++ [TxPkt.mk h.desc (d.bytesOf h.loc)] := by
  rw [Dev.headSent]
  dsimp only
  rw [Tab.getD_setD_self, Dev.editorQ_chargePath, Dev.sch_dropLoc, Dev.sch_popHead]

/-- What is counted and raised after a head has been sent leaves the hierarchy. -/
theorem Dev.sch_sendHead (hh : d.headReady (.eq t.q) = some h) (ex : Bool) : (d.sendHead p t ex).sch = (d.headSent p t h).sch := by
  have hOver (e : Dev) (b : Bool) : (if b then (e.bumpI uSLC SLC_OVERRUN.COUNT p).tally uSLC 0x21 1 else e).sch = e.sch := by
    split
    · exact (Dev.noted_tally ..).sch
    · rfl
  have hTold (e : Dev) (a n : Nat) : ((e.tallyQ a 0x20 1 (selPort p)).tallyQ a 0x21 n (selPort p)).sch = e.sch :=
    ((Dev.noted_tallyQ ..).trans (Dev.noted_tallyQ ..)).sch
  have hExcess (e : Dev) (a : Nat) : (if ex then e.tallyQ a 0x22 1 (selPort p) else e).sch = e.sch := by
    split
    · exact (Dev.noted_tallyQ ..).sch
    · rfl
  simp only [Dev.sendHead, hh, hExcess, hTold, hOver]
  rfl

/-- With no head that can never pass its gate, none is dropped for that. -/
theorem Dev.dropNeverFits_of_fits
    (hf : ∀ q ∈ d.portQueues p, ∀ k, d.headReady (.eq q) = some k → d.neverFits p (q % 8) k.desc = false) (n : Nat) : Dev.dropNeverFits n d p = d := by
  cases n with
  | zero => rfl
  | succ n =>
    unfold Dev.dropNeverFits
    dsimp only
    split
    · rfl
    · next q hq =>
      have hbad := List.find?_some hq
      cases hh : d.headReady (.eq q) with
      | none => simp [hh] at hbad
      | some k => simp [hh, hf q (List.mem_of_find?_eq_some hq) k hh] at hbad

/-- A decision sends the head of the queue picked, where it has not outlived its limit (R260, R284). -/
theorem Dev.dequeueDecision_sends {ex : Bool} (hu : d.portInUse p = true) (hm : d.mayCommit d.activeSched = true)
    (hf : ∀ q ∈ d.portQueues p, ∀ k, d.headReady (.eq q) = some k → d.neverFits p (q % 8) k.desc = false)
    (hp : d.pickQueue p = some (t, ex)) (he : (d.queue (.eq t.q)).expired d.now = false) (o : ShadowOut) :
    d.dequeueDecision p o = (d.sendHead p t ex).shadowItem d.activeSched o := by
  rw [Dev.dequeueDecision, if_pos ⟨hu, hm⟩]
  simp only [Dev.dropNeverFits_of_fits hf, Dev.serveN, hp, he, Bool.false_eq_true, if_false]

end

theorem Dev.better_mem (d : Dev) (l a b : Nat) : d.better l a b = a ∨ d.better l a b = b := by
  have hmin : min a b = a ∨ min a b = b := by omega
  have hite (c : Prop) [Decidable c] {x y : Nat} (hx : x = a ∨ x = b) (hy : y = a ∨ y = b) :
      (if c then x else y) = a ∨ (if c then x else y) = b := by
    split
    · exact hx
    · exact hy
  exact hite _ (hite _ (.inl rfl) (hite _ (.inr rfl) hmin)) (hite _ hmin (hite _ (.inl rfl) (.inr rfl)))

/-- The best of a round is one of it. -/
theorem Dev.foldl_better_mem (d : Dev) (l a : Nat) (ns : List Nat) : ns.foldl (d.better l) a ∈ a :: ns := by
  induction ns generalizing a with
  | nil => exact List.mem_singleton.2 rfl
  | cons b ns ih =>
    rcases List.mem_cons.1 (ih (d.better l a b)) with h | h
    · rw [List.foldl_cons, h]
      rcases d.better_mem l a b with h | h <;> simp [h]
    · exact List.mem_cons_of_mem _ (List.mem_cons_of_mem _ h)

/-- A choice is a candidate, in the committed round while any stands in it (R260). -/
theorem Dev.choose_spec {d : Dev} {l n : Nat} {ex : Bool} {cands : List Nat} (h : d.choose l cands = some (n, ex)) :
    n ∈ cands ∧ (ex = false → (d.node l n).c.committed = true) ∧ (ex = true → ∀ m ∈ cands, (d.node l m).c.committed = false) := by
  unfold Dev.choose at h
  dsimp only at h
  cases hc : cands.filter (fun n => (d.node l n).c.committed) with
  | cons x xs =>
    rw [hc] at h
    simp only [Option.some.injEq, Prod.mk.injEq] at h
    obtain ⟨rfl, rfl⟩ := h
    have hm := d.foldl_better_mem l x xs
    rw [← hc, List.mem_filter] at hm
    exact ⟨hm.1, fun _ => hm.2, nofun⟩
  | nil =>
    rw [hc] at h
    cases cands with
    | nil => simp at h
    | cons y ys =>
      simp only [Option.some.injEq, Prod.mk.injEq] at h
      obtain ⟨rfl, rfl⟩ := h
      exact ⟨d.foldl_better_mem l y ys, nofun, fun _ m hm => by simpa using List.filter_eq_nil_iff.1 hc m hm⟩

/-! ### Shapers and nodes (R261, R262, R265, R267) -/

section
variable {d : Dev} {c : HCmd} {l n old par : Nat}

theorem Dev.refillNode_of_nil (h : (d.node l n).sets = []) : d.refillNode l n = d.setNode l n { d.node l n with
    c := (d.node l n).c.refill (refillNs l), p := (d.node l n).p.refill (refillNs l) } := by
  simp only [Dev.refillNode, h, List.foldl_nil]

theorem Dev.refillNode_of_singleton {y : ShaperSet} (h : (d.node l n).sets = [y]) : d.refillNode l n =
    (let x := ({ d.node l n with sets := [] } : Node).applySet y
     (d.setNode l n { x with c := x.c.refill (refillNs l), p := x.p.refill (refillNs l) }).finish y.ticket .ok) := by
  simp only [Dev.refillNode, h, List.foldl_cons, List.foldl_nil]

theorem Bucket.level_refill (b : Bucket) (ns : Nat) : (b.refill ns).level =
    if b.en = true then min (b.level + ((b.rate * ns * 2 ^ 20 / 8000000 : Nat) : Int)) ((b.burst * 2 ^ 20 : Nat) : Int) else b.level := by
  unfold Bucket.refill
  split <;> rfl

/-- Where NODE_CFG puts a node. -/
def HCmd.newParent (c : HCmd) (old : Nat) : Nat := if c.par 0 3 3 = 1 then c.par 8 14 0 else old

/-- A node with the slot and the weight that NODE_CFG gives it. -/
def Node.placed (x : Node) (c : HCmd) : Node :=
  { x with prio := c.par 0 6 4, weight := if c.par 0 6 4 = 4 then c.par 2 12 0 else x.weight }

theorem Dev.cfgNode_eq (ho : d.parentNode l n = old) (hp : c.newParent old = par) : d.cfgNode c l n =
    if d.slotTaken l n par (c.par 0 6 4) = true then (d, stEXISTS)
    else if par ≠ old ∧ d.portOfNode (l - 1) par ≠ d.portOfNode (l - 1) old ∧ d.nodeBusy l n = true then (d, stRETRY_LATER)
    else if par = old then (d.setNode l n ((d.node l n).placed c), stOK)
    else
      let e := d.setNode l n { (d.node l n).placed c with parent := some par, f := (d.node (l - 1) par).v }
      (if d.nodeBusy l n = true then Dev.wakeAbove d 3 e (l - 1) par else e, stOK) := by
  subst ho
  subst hp
  rfl

end

/-! ### Holds (R288, R296) -/

theorem HCmd.par_lt (c : HCmd) (off hi lo : Nat) : c.par off hi lo < 2 ^ (hi + 1 - lo) := Nat.mod_lt _ (Nat.two_pow_pos _)

section
variable {a b d : Dev} {p : Nat}

theorem Dev.Noted.activeSched (h : a.Noted b) : b.activeSched = a.activeSched := h.get (noteKey_of _ _ _ (by decide))

theorem Dev.Noted.svc_activeSched (h : a.Noted b) : b.svc b.activeSched = a.svc a.activeSched := by rw [h.activeSched, h.svc]

theorem Dev.Noted.holdState (h : a.Noted b) (p : Nat) : b.holdState p = a.holdState p := h.getI (noteKey_of _ _ _ (by decide))

/-- A hold state is entered beside what tells of it. -/
theorem Dev.noted_setHold (d : Dev) (p st n : Nat) : (d.setI uSCH TMS_PORT_STATUS.HOLD_STATE p st).Noted (d.setHold p st n) :=
  (Dev.noted_tallyEdge ..).trans (Dev.noted_raise ..)

theorem Dev.holdToDown_reads (d : Dev) (p : Nat) : (d.holdToDown p).holdState p = hDOWN
    ∧ (d.holdToDown p).getI uSCH TMS_PORT_STATUS.HOLD_LEFT_MS p = 0 := by
  have hn := Dev.noted_setHold ((d.flushPort p).setI uSCH TMS_PORT_STATUS.HOLD_LEFT_MS p 0) p hDOWN (d.portPackets p)
  refine ⟨(hn.holdState p).trans (Dev.getI_setI_self ..), (hn.getI (noteKey_of _ _ _ (by decide))).trans ?_⟩
  rw [Dev.getI_setI_ne fun e => absurd (Fld.key_eq_iff.1 e).2.2.1 (by decide)]
  exact Dev.getI_setI_self ..

theorem Dev.holdState_setHoldMs (d : Dev) (q v p : Nat) : (d.setI uSCH TMS_PORT_CFG.HOLD_MS q v).holdState p = d.holdState p :=
  Dev.getI_setI_ne fun e => absurd (Fld.key_eq_iff.1 e).2.1 (by decide)

/-- A hold is measured from its start against the HOLD_MS written. -/
theorem Dev.holdOver_setHoldMs (d : Dev) (p : Nat) {v : Nat} (hv : v < 2 ^ 14) :
    (d.setI uSCH TMS_PORT_CFG.HOLD_MS p v).holdOver p = decide (d.sch.holdStart.getD 0 [p] + v * 1000000 ≤ d.now) := by
  have hm : (d.setI uSCH TMS_PORT_CFG.HOLD_MS p v).holdMs p = v := (Dev.getI_setI_self ..).trans (Nat.mod_eq_of_lt hv)
  rw [Dev.holdOver, hm]
  rfl

theorem Dev.portHoldExpire_over (hp : p < 128) (hs : d.holdState p = hHOLD) (ho : d.holdOver p = true) :
    d.portHoldExpire p = (d.holdToDown p).logDecision 2 (uPort p) (d.portPackets p) := if_pos ⟨hp, hs, ho⟩

theorem Dev.portHoldExpire_waits (h : d.holdState p ≠ hHOLD ∨ d.holdOver p = false) : d.portHoldExpire p = d :=
  if_neg fun ⟨_, hs, ho⟩ => h.elim (· hs) (fun h => by simp [h] at ho)

/-- A head within its age limit keeps its place. -/
theorem Dev.ageCheck_of_fresh {r : QRef} (h : (d.queue r).expired d.now = false) : d.ageCheck r = d := by
  unfold Dev.ageCheck
  cases (d.queue r).pkts.length with
  | zero => rfl
  | succ n => exact if_neg (by simp [h])

end

/-! ### The statement -/

section
variable {s : State} {c : HCmd}

theorem completes_portHoldSet (ha : c.accepted s.dev 0x0306 c.portHoldSetParams) (hs : s.dev.svc s.dev.activeSched = sACTIVE)
    (h : s.dev.holdState (c.par 0 6 0) ≠ hHOLD ∨ s.dev.now < s.dev.sch.holdStart.getD 0 [c.par 0 6 0] + c.par 4 13 0 * 1000000) :
    Completes (.portHoldSet c) s c.ticket .ok (s.dev.setI uSCH TMS_PORT_CFG.HOLD_MS (c.par 0 6 0) (c.par 4 13 0)) := by
  refine Completes.intro rfl rfl ha fun b hb => ?_
  rw [if_pos (hb.svc_activeSched.trans hs)]
  dsimp only
  rw [Dev.portHoldExpire_waits]
  · exact ⟨rfl, hb.setI _ _ _ _ rfl⟩
  · rw [Dev.holdState_setHoldMs, hb.holdState, Dev.holdOver_setHoldMs _ _ (c.par_lt 4 13 0), hb.sch, hb.now]
    exact h.imp_right fun h => decide_eq_false (Nat.not_le.2 h)

theorem makes_portHoldSet_over (ha : c.accepted s.dev 0x0306 c.portHoldSetParams) (hs : s.dev.svc s.dev.activeSched = sACTIVE)
    (hh : s.dev.holdState (c.par 0 6 0) = hHOLD)
    (ho : s.dev.sch.holdStart.getD 0 [c.par 0 6 0] + c.par 4 13 0 * 1000000 ≤ s.dev.now) :
    let p := c.par 0 6 0
    let e := (c.begun s.dev).setI uSCH TMS_PORT_CFG.HOLD_MS p (c.par 4 13 0)
    Makes (.portHoldSet c) s (((e.holdToDown p).logDecision 2 (uPort p) (e.portPackets p)).finish c.ticket .ok) := by
  have hb := s.dev.noted_begun c
  refine Makes.endedNow rfl rfl ha ?_
  rw [if_pos (hb.svc_activeSched.trans hs)]
  dsimp only
  rw [Dev.portHoldExpire_over (c.par_lt 0 6 0)]
  · rwa [Dev.holdState_setHoldMs, hb.holdState]
  · rw [Dev.holdOver_setHoldMs _ _ (c.par_lt 4 13 0), hb.sch, hb.now]
    exact decide_eq_true ho

/-- What a SHAPER_SET does: the record of a READ is written, and a setting waits at its node. -/
theorem Dev.shaperSet_eq (d : Dev) (c : HCmd) : d.shaperSet c = d.command c 0x0303 c.shaperSetParams (fun d =>
    let l := c.par 0 2 0
    let n := c.par 4 17 0
    if d.svc d.activeSched ≠ sACTIVE then (d, some (.fail stUNIT_UNAVAILABLE))
    else if (c.par 0 3 3 == 1) = true then
      let r := d.hostBlock c (c.par 24 63 0) (d.node l n).record 0
      (r.1, some r.2)
    else (d.setNode l n { d.node l n with sets := (d.node l n).sets ++
      [⟨c.ticket, c.par 0 4 4 == 1, c.par 0 5 5 == 1, c.par 8 30 0, c.par 12 24 0, c.par 16 30 0, c.par 20 24 0⟩] }, none)) := rfl

theorem goesOn_shaperSet (ha : c.accepted s.dev 0x0303 c.shaperSetParams) (hs : s.dev.svc s.dev.activeSched = sACTIVE)
    (hr : c.par 0 3 3 = 0) :
    let l := c.par 0 2 0
    let n := c.par 4 17 0
    GoesOn (.shaperSet c) s ((s.dev.setNode l n { s.dev.node l n with sets := (s.dev.node l n).sets ++
      [⟨c.ticket, c.par 0 4 4 == 1, c.par 0 5 5 == 1, c.par 8 30 0, c.par 12 24 0, c.par 16 30 0, c.par 20 24 0⟩] }).noteStarted
        c.ticket) := by
  refine GoesOn.intro rfl (s.dev.shaperSet_eq c) ha fun b hb => ?_
  rw [if_neg (not_not_intro (hb.svc_activeSched.trans hs)), if_neg (by simp [hr])]
  refine ⟨rfl, ?_⟩
  dsimp only
  rw [Dev.setNode, Dev.node, ← hb.sch]
  exact hb.with_sch _

theorem makes_shaperSet_read (ha : c.accepted s.dev 0x0303 c.shaperSetParams) (hs : s.dev.svc s.dev.activeSched = sACTIVE)
    (hr : c.par 0 3 3 = 1) :
    let r := (c.begun s.dev).hostBlock c (c.par 24 63 0) (s.dev.node (c.par 0 2 0) (c.par 4 17 0)).record 0
    Makes (.shaperSet c) s (r.1.finish c.ticket r.2) := by
  have hb := s.dev.noted_begun c
  refine Makes.ended rfl (s.dev.shaperSet_eq c) ha ?_
  rw [if_neg (not_not_intro (hb.svc_activeSched.trans hs)), if_pos (by simp [hr])]
  dsimp only
  rw [Dev.node, hb.sch]
  rfl

end

/-- Settles O44: a decision by what it picks and sends, refills, nodes and holds by their equations. -/
theorem schedulerDecidesShapesAndHolds : Obligations.SchedulerDecidesShapesAndHolds := by
  refine ⟨fun s p o t ex h hu hm hf hp hh he => ⟨Makes.intro rfl (Dev.dequeueDecision_sends hu hm hf hp he o), ?_⟩,
    fun d l n ex cands => Dev.choose_spec, fun s l h1 h5 => Makes.intro rfl (if_pos ⟨h1, h5⟩), fun d l n => Dev.refillNode_of_nil,
    fun d l n y => Dev.refillNode_of_singleton, fun x y => ⟨rfl, rfl, rfl, rfl, rfl, rfl⟩, Bucket.level_refill,
    fun s c ha => ⟨fun hs => ?_, fun hs => ?_⟩, fun d c l n => ?_,
    fun s c ha hs => ⟨goesOn_shaperSet ha hs, makes_shaperSet_read ha hs⟩,
    fun s c ha hs => ⟨completes_portHoldSet ha hs, makes_portHoldSet_over ha hs⟩,
    fun s p hp hs ho => Makes.intro rfl (Dev.portHoldExpire_over hp hs ho), fun d p _ => d.holdToDown_reads p,
    fun s p hs => Makes.intro rfl (if_pos hs), fun d r => Dev.ageCheck_of_fresh⟩
  · rw [Dev.sch_sendHead hh]
    exact Dev.editorQ_headSent
  · exact Completes.intro rfl rfl ha fun b hb => by
      rw [if_neg (hb.svc_activeSched ▸ hs)]
      exact ⟨rfl, hb⟩
  · exact Makes.endedNow rfl rfl ha (if_pos ((s.dev.noted_begun c).svc_activeSched.trans hs))
  · intro prio old par weight
    have he : d.cfgNode c l n = _ := Dev.cfgNode_eq (old := old) (par := par) rfl rfl
    refine ⟨fun ht => he.trans (if_pos ht), fun ht hp => ?_, fun ht hp => ⟨fun hq hb => ?_, fun hb => ?_⟩⟩
    all_goals rw [if_neg (Bool.eq_false_iff.1 ht)] at he
    · rw [if_neg fun x => x.1 hp, if_pos hp] at he
      exact he
    · exact he.trans (if_pos ⟨hp, hq, hb⟩)
    · rw [if_neg fun x => Bool.eq_false_iff.1 hb x.2.2, if_neg hp] at he
      exact he.trans (congrArg (·, stOK) (if_neg (Bool.eq_false_iff.1 hb)))

end Sys2Proof.Machine
end

section
/-! SUPPORT. Meters and sluice lists: settings and gains, what a SLUICE_LOAD does in each state, and the statement about both. -/
namespace Sys2Proof.Machine
open Sys2Proof

/-! ### Meters (R270, R271, R274, R294) -/

section
variable {d : Dev} {s : State} {c : HCmd} {m : Nat} {x : Meter} {y : MeterSet}

theorem Dev.refillMeter_of_nil (h : (d.meter m).sets = []) : d.refillMeter m = d.setMeter m (d.meter m).refill := by
  have hx : ({ d.meter m with sets := [] } : Meter) = d.meter m := by rw [← h]
  simp only [Dev.refillMeter, h, hx, List.foldl_nil]

theorem Dev.refillMeter_of_singleton (h : (d.meter m).sets = [y]) : d.refillMeter m =
    (d.setMeter m (({ d.meter m with sets := [] } : Meter).applySet y).refill).finish y.ticket .ok := by
  simp only [Dev.refillMeter, h, List.foldl_cons, List.foldl_nil]

theorem Meter.refill_of_off (h : x.mode = 0) : x.refill = x := if_pos h

/-- In MODE 1 each bucket gains by its own rate, up to its burst. -/
theorem Meter.refill_of_two_rate (h : x.mode = 1) (hp : x.pRate ≠ 0) : x.refill =
    { x with cLevel := capLevel x.cLevel (gainOf x.cRate 1000) x.cBurst, pLevel := capLevel x.pLevel (gainOf x.pRate 1000) x.pBurst } := by
  have hon : x.mode ≠ 0 := by omega
  have hspill : ¬ (x.coupled = true ∧ x.mode = 2) := by omega
  rw [Meter.refill, if_neg hon]
  dsimp only
  rw [if_neg hspill, if_neg hp, Nat.add_zero]

/-- A meter that starts, or whose levels are reset, is full. -/
theorem Meter.applySet_full (h : y.reset = true ∨ (x.mode = 0 ∧ y.mode ≠ 0)) :
    (x.applySet y).cLevel = ((y.cBurst * 2 ^ 20 : Nat) : Int) ∧ (x.applySet y).pLevel = ((y.pBurst * 2 ^ 20 : Nat) : Int) := by
  have hf : (y.reset || (x.mode == 0 && y.mode != 0)) = true := by simpa using h
  exact ⟨if_pos hf, if_pos hf⟩

/-- A meter's copy is good while no row has been lost (R350). -/
theorem Dev.meterCopy_of_nil (h : d.dram.lostRows = []) (m : Nat) (x : Meter) : d.meterCopy m x = x := by
  rw [Dev.meterCopy, h]
  rfl

/-- What a METER_SET does: the record of a READ is written, and a setting waits at its meter. -/
theorem Dev.meterSet_eq (d : Dev) (c : HCmd) : d.meterSet c = d.command c 0x0304 c.meterSetParams (fun d =>
    let m := c.par 0 19 0
    if d.svc uMTR ≠ sACTIVE then (d, some (.fail stUNIT_UNAVAILABLE))
    else if (c.par 0 20 20 == 1) = true then
      let r := d.hostBlock c (c.par 24 63 0) (d.meter m).record 0
      (r.1, some r.2)
    else (d.setMeter m { d.meter m with sets := (d.meter m).sets ++
      [⟨c.ticket, c.par 0 21 21 == 1, c.par 0 23 22, c.par 0 24 24 == 1, c.par 0 25 25 == 1, c.par 4 30 0, c.par 8 24 0,
        c.par 12 30 0, c.par 16 24 0⟩] }, none)) := rfl

theorem goesOn_meterSet (ha : c.accepted s.dev 0x0304 c.meterSetParams) (hs : s.dev.svc uMTR = sACTIVE) (hr : c.par 0 20 20 = 0) :
    let m := c.par 0 19 0
    GoesOn (.meterSet c) s ((s.dev.setMeter m { s.dev.meter m with sets := (s.dev.meter m).sets ++
      [⟨c.ticket, c.par 0 21 21 == 1, c.par 0 23 22, c.par 0 24 24 == 1, c.par 0 25 25 == 1, c.par 4 30 0, c.par 8 24 0,
        c.par 12 30 0, c.par 16 24 0⟩] }).noteStarted c.ticket) := by
  refine GoesOn.intro rfl (s.dev.meterSet_eq c) ha fun b hb => ?_
  rw [if_neg (not_not_intro ((hb.svc _).trans hs)), if_neg (by simp [hr])]
  refine ⟨rfl, ?_⟩
  dsimp only
  rw [Dev.setMeter, Dev.meter, ← hb.sch]
  exact hb.with_sch _

theorem makes_meterSet_read (ha : c.accepted s.dev 0x0304 c.meterSetParams) (hs : s.dev.svc uMTR = sACTIVE)
    (hr : c.par 0 20 20 = 1) :
    let r := (c.begun s.dev).hostBlock c (c.par 24 63 0) (s.dev.meter (c.par 0 19 0)).record 0
    Makes (.meterSet c) s (r.1.finish c.ticket r.2) := by
  have hb := s.dev.noted_begun c
  refine Makes.ended rfl (s.dev.meterSet_eq c) ha ?_
  rw [if_neg (not_not_intro ((hb.svc _).trans hs)), if_pos (by simp [hr])]
  dsimp only
  rw [Dev.meter, hb.sch]
  rfl

end

/-! ### Sluice lists (R275-R279, R295) -/

/-- Rounding up to a step from a base. -/
theorem firstAtOrAfter_spec (base t : Nat) {step : Nat} (hs : 1 ≤ step) :
    base ≤ firstAtOrAfter base step t ∧ t ≤ firstAtOrAfter base step t ∧ (firstAtOrAfter base step t - base) % step = 0
    ∧ (base < t → firstAtOrAfter base step t < t + step) := by
  unfold firstAtOrAfter
  split
  · next h => exact ⟨Nat.le_refl _, h, by simp, fun h' => absurd h' (Nat.not_lt.2 h)⟩
  · next h =>
    rw [Nat.max_eq_right hs]
    have hlow := Nat.div_mul_le_self (t - base + step - 1) step
    have hhigh := Nat.lt_div_mul_add (a := t - base + step - 1) (b := step) hs
    refine ⟨by omega, by omega, ?_, fun _ => by omega⟩
    rw [Nat.add_sub_cancel_left]
    exact Nat.mul_mod_left ..

section
variable {x : Sluice} {l a : SluiceList}

theorem Sluice.active_of_state_le_one (h : x.state ≤ 1) : x.active = none := by
  obtain ⟨active, pending, stopAt⟩ := x
  cases active with
  | none => rfl
  | some a => cases pending <;> cases stopAt <;> simp [Sluice.state] at h

theorem Sluice.load_of_none (h : x.active = none) : x.load l = { x with pending := some (l, l.start), stopAt := none } := by
  simp only [Sluice.load, h]

theorem Sluice.load_of_some (h : x.active = some a) : x.load l = { x with pending := some (l, a.boundary l.start), stopAt := none } := by
  simp only [Sluice.load, h]

theorem Sluice.stop_of_some (h : x.active = some a) (now : Nat) :
    x.stop now = { x with pending := none, stopAt := some (a.boundary (now + 1)) } := by
  simp only [Sluice.stop, h]

end

section
variable {d : Dev} {s : State} {c : HCmd} {p t : Nat} {rep : Bool} {new : Option SluiceList} {l : SluiceList}

/-- Nothing is done within 1 µs of a start, a switch or a stop. -/
theorem Dev.sluiceAct_near (h : (d.sluice p).near d.now = true) : d.sluiceAct p rep new = (d, .fail stRETRY_LATER) := if_pos h

section
variable (hn : (d.sluice p).near d.now = false)
include hn

theorem Dev.sluiceAct_idle (hs : (d.sluice p).state = 0) : d.sluiceAct p rep new = match new with
    | none => (d, .ok)
    | some l => (d.putSluice p ((d.sluice p).load l), .ok l.start) := by
  refine (if_neg (by simp [hn])).trans ?_
  rw [hs]
  cases new <;> rfl

theorem Dev.sluiceAct_pending (hs : (d.sluice p).state = 1) :
    let x : Sluice := { d.sluice p with pending := none }
    d.sluiceAct p rep new = match new with
      | none => ((d.putSluice p x).raise uSLC 0x11 (leBytes 1 p), .ok)
      | some l => if rep then ((d.putSluice p (x.load l)).raise uSLC 0x11 (leBytes 1 p), .ok l.start) else (d, .fail stRETRY_LATER) := by
  refine (if_neg (by simp [hn])).trans ?_
  rw [hs]
  cases new <;> rfl

theorem Dev.sluiceAct_running (hs : (d.sluice p).state = 2) : d.sluiceAct p rep new = match new with
    | none => (d.putSluice p ((d.sluice p).stop d.now), .ok)
    | some l => (d.putSluice p ((d.sluice p).load l), .ok l.start) := by
  refine (if_neg (by simp [hn])).trans ?_
  rw [hs]
  cases new <;> rfl

/-- While a switch or a stop is under way it is taken back with REPLACE alone. -/
theorem Dev.sluiceAct_changing (hs : 3 ≤ (d.sluice p).state) :
    let x : Sluice := { d.sluice p with pending := none, stopAt := none }
    d.sluiceAct p rep new =
      if rep then match new with
        | none => ((d.putSluice p (x.stop d.now)).raise uSLC 0x11 (leBytes 1 p), .ok)
        | some l => ((d.putSluice p (x.load l)).raise uSLC 0x11 (leBytes 1 p), .ok l.start)
      else (d, .fail stRETRY_LATER) := by
  obtain ⟨k, hk⟩ := Nat.exists_eq_add_of_le' hs
  refine (if_neg (by simp [hn])).trans ?_
  rw [hk]
  cases new <;> rfl

/-- Without REPLACE a list does not take the place of one that is about to start, to switch or to stop. -/
theorem Dev.sluiceAct_needs_replace (h1 : 1 ≤ (d.sluice p).state) (h2 : (d.sluice p).state ≠ 2) :
    d.sluiceAct p false (some l) = (d, .fail stRETRY_LATER) := by
  rcases Nat.lt_or_ge (d.sluice p).state 3 with h | h
  · exact Dev.sluiceAct_pending hn (show (d.sluice p).state = 1 by omega)
  · exact Dev.sluiceAct_changing hn h

end

theorem Dev.sluiceStart_due (h : (d.sluice p).pending = some (l, t)) (ht : t ≤ d.now) :
    d.sluiceStart p = (d.putSluice p { d.sluice p with active := some l, pending := none }).switched p t 0 := by
  simp only [Dev.sluiceStart, h]
  exact if_pos ht

theorem Dev.sluiceStop_due (h : (d.sluice p).stopAt = some t) (ht : t ≤ d.now) :
    d.sluiceStop p = (d.putSluice p {}).switched p t 1 := by
  simp only [Dev.sluiceStop, h]
  exact if_pos ht

theorem Dev.showSluice_of_some (h : (d.sluice p).active = some l) : d.showSluice p =
    ((d.setI uSLC SLC_PORT_STATUS.STATE p (d.sluice p).state).setI uSLC SLC_PORT_STATUS.GATES p (l.at d.now).2.1).setI uSLC
      SLC_PORT_STATUS.CUR_ENTRY p (l.at d.now).1 := by
  simp only [Dev.showSluice, h]
  rfl

theorem Dev.showSluice_of_none (h : (d.sluice p).active = none) : d.showSluice p =
    ((d.setI uSLC SLC_PORT_STATUS.STATE p (d.sluice p).state).setI uSLC SLC_PORT_STATUS.GATES p 0xFF).setI uSLC
      SLC_PORT_STATUS.CUR_ENTRY p 0 := by
  simp only [Dev.showSluice, h]

/-- A bad entry in the block is found before the state of the unit is looked at (R295, R410). -/
theorem completes_sluiceLoad_badBlock (hr : c.readOk = true) (he : readEntries c.block (c.par 2 10 0) = none)
    (hh : s.dev.heldBack 0x0305 c.ticket = false) (hd : hdrBad c.ticket = none)
    (hp : areaBad c.area (s.dev.sluiceLoadParams c) = none) (ha : s.dev.agentBad c = none) :
    Completes (.sluiceLoad c) s c.ticket .badBlock s.dev := by
  refine ⟨c.begun s.dev, Makes.intro rfl ?_, s.dev.noted_begun c⟩
  rw [Dev.sluiceLoad, Dev.commandNow, Dev.command, if_neg (by simp [hh]), hd]
  dsimp only
  rw [hp]
  dsimp only
  rw [ha]
  exact if_pos ⟨hr, by simp [he]⟩

theorem completes_sluiceLoad_unavailable (hs : s.dev.svc uSLC ≠ sACTIVE)
    (ha : c.accepted s.dev 0x0305 (s.dev.sluiceLoadParams c) (readEntries c.block (c.par 2 10 0)).isSome) :
    Completes (.sluiceLoad c) s c.ticket (.fail stUNIT_UNAVAILABLE) s.dev := by
  refine Completes.intro rfl rfl ha fun b hb => ?_
  rw [if_pos (hb.svc uSLC ▸ hs)]
  exact ⟨rfl, hb⟩

theorem makes_sluiceLoad {es : List (Nat × Nat)} (hs : s.dev.svc uSLC = sACTIVE) (hr : c.readOk = true)
    (he : readEntries c.block (c.par 2 10 0) = some es)
    (ha : c.accepted s.dev 0x0305 (s.dev.sluiceLoadParams c) (readEntries c.block (c.par 2 10 0)).isSome) :
    let d := c.begun s.dev
    let r := d.sluiceAct (c.par 0 6 0) (c.par 1 0 0 == 1) (if c.par 0 7 7 = 1 then none else some ⟨es, c.par 16 31 0,
      firstAtOrAfter (c.par 8 63 0) (c.par 16 31 0) (d.now + 1000)⟩)
    Makes (.sluiceLoad c) s (r.1.finish c.ticket r.2) := by
  refine Makes.endedNow rfl rfl ha ?_
  dsimp only
  rw [if_neg (not_not_intro (((s.dev.noted_begun c).svc _).trans hs)), if_neg (not_not_intro hr), he]
  simp only [beq_iff_eq]
  rfl

end

/-- Settles O45: refills and settings by their equations, SLUICE_LOAD by the state in which it finds the port's lists. -/
theorem metersAndSluices : Obligations.MetersAndSluices := by
  refine ⟨fun s => Makes.intro rfl rfl, fun d m => Dev.refillMeter_of_nil, fun d m y => Dev.refillMeter_of_singleton,
    fun x => ⟨Meter.refill_of_off, fun h1 hp => ?_⟩, fun x y => Meter.applySet_full, fun s m hm => Makes.intro rfl (if_pos hm),
    fun d m x h => Dev.meterCopy_of_nil h m x, fun s c ha hs => ⟨goesOn_meterSet ha hs, makes_meterSet_read ha hs⟩,
    fun s c => completes_sluiceLoad_badBlock,
    fun s c ha => ⟨fun hs => completes_sluiceLoad_unavailable hs ha, fun hs hr es he => makes_sluiceLoad hs hr he ha⟩,
    fun d p rep l => ?_, fun base step t hs => firstAtOrAfter_spec base t hs,
    fun s p t l h ht => Makes.intro rfl (Dev.sluiceStart_due h ht),
    fun s p t h ht => Makes.intro rfl (Dev.sluiceStop_due h ht), fun s p hp => ⟨fun l h => ?_, fun h => ?_⟩⟩
  · rw [Meter.refill_of_two_rate h1 hp]
    exact ⟨rfl, rfl⟩
  · refine ⟨Dev.sluiceAct_near, fun hn h0 => ?_, Dev.sluiceAct_needs_replace, Dev.sluiceAct_near, fun hn h0 => Dev.sluiceAct_idle hn h0,
      fun hn h1 => ⟨Dev.sluiceAct_pending hn h1, Dev.sluiceAct_pending hn h1⟩,
      fun hn h3 => ⟨Dev.sluiceAct_changing hn h3, Dev.sluiceAct_changing hn h3, Dev.sluiceAct_changing hn h3⟩, fun a hn h2 ha => ?_⟩
    · rw [← Sluice.load_of_none (Sluice.active_of_state_le_one (by omega))]
      exact Dev.sluiceAct_idle hn h0
    · rw [← Sluice.load_of_some ha, ← Sluice.stop_of_some ha]
      exact ⟨Dev.sluiceAct_running hn h2, Dev.sluiceAct_running hn h2⟩
  · exact Makes.intro rfl ((if_pos hp).trans (Dev.showSluice_of_some h))
  · exact Makes.intro rfl ((if_pos hp).trans (Dev.showSluice_of_none h))

end Sys2Proof.Machine
end

section
/-! SUPPORT. Power-on, standby and clock gates, and the statement about them. -/
namespace Sys2Proof.Machine
open Sys2Proof

/-! ### Writes of one field -/

/-- Fields at different places have different keys, whatever their units. -/
theorem Fld.key_ne {f g : Fld} (h : (g.off, g.lo) ≠ (f.off, f.lo)) (un' i' un i : Nat) : g.key un' i' ≠ f.key un i := fun e =>
  h (Prod.ext (Fld.key_eq_iff.1 e).2.1 (Fld.key_eq_iff.1 e).2.2.1)

theorem Fld.key_ne_of_off {f g : Fld} (h : g.off ≠ f.off) (un' i' un i : Nat) : g.key un' i' ≠ f.key un i := fun e =>
  h (Fld.key_eq_iff.1 e).2.1

theorem Dev.flag_congr {a b : Dev} {un : Nat} {f : Fld} (h : b.fields.get? (f.key un 0) = a.fields.get? (f.key un 0)) :
    b.flag un f = a.flag un f := congrArg (· == 1) (Dev.getI_congr h)

theorem Dev.flag_of_get {d : Dev} {un : Nat} {f : Fld} {b : Bool} (h : d.get un f = b.toNat) : d.flag un f = b := by
  show (d.get un f == 1) = b
  rw [h]
  cases b <;> rfl

section
variable {f : Fld} {v : Dev → Nat → Nat} {g : Dev → Nat → Dev} {us : List Nat}
variable (hg : ∀ d u, (g d u).fields = (d.set u f (v d u)).fields)
include hg

/-- Writing one field of many units leaves every other field. -/
theorem Dev.fields_foldl_set {k : Key} (d : Dev) (hk : ∀ u ∈ us, k ≠ f.key u 0) : (us.foldl g d).fields.get? k = d.fields.get? k := by
  induction us generalizing d with
  | nil => rfl
  | cons u us ih =>
    refine (ih _ fun x hx => hk x (.tail u hx)).trans ?_
    rw [hg]
    exact Dev.fields_setI_ne (hk u (.head us))

/-- Writing one field of many units gives each of them its value, where the values do not depend on that field. -/
theorem Dev.get_foldl_set (hv : ∀ d x u, v (g d x) u = v d u) (d : Dev) {u : Nat} (hu : u ∈ us) :
    (us.foldl g d).get u f = v d u % 2 ^ f.width := by
  induction us generalizing d with
  | nil => exact absurd hu List.not_mem_nil
  | cons x us ih =>
    by_cases h : u ∈ us
    · exact (ih (g d x) h).trans (by rw [hv])
    · obtain rfl : u = x := (List.mem_cons.1 hu).resolve_right h
      have hkeep : (us.foldl g (g d u)).get u f = (d.set u f (v d u)).get u f := by
        refine Dev.getI_congr ((Dev.fields_foldl_set hg _ fun y hy e => ?_).trans (by rw [hg]))
        exact h ((Fld.key_eq_iff.1 e).1.symm ▸ hy)
      exact hkeep.trans (Dev.get_set_self ..)

end

/-! ### Changes of registers alone -/

/-- `b` is `a` beside its register fields. -/
def Dev.FieldsOnly (a b : Dev) : Prop := b = { a with fields := b.fields }

section
variable {a b c x : Dev}

theorem Dev.FieldsOnly.refl (d : Dev) : d.FieldsOnly d := Eq.refl d

theorem Dev.FieldsOnly.trans (h : a.FieldsOnly b) (h' : b.FieldsOnly c) : a.FieldsOnly c :=
  Eq.trans h' (congrArg (fun x : Dev => { x with fields := c.fields }) h)

theorem Dev.FieldsOnly.set (h : a.FieldsOnly b) (un : Nat) (f : Fld) (v : Nat) : a.FieldsOnly (b.set un f v) := h.trans rfl

theorem Dev.FieldsOnly.foldl {α : Type} {g : Dev → α → Dev} (hg : ∀ (d : Dev) x, d.FieldsOnly (g d x)) (xs : List α)
    (h : a.FieldsOnly b) : a.FieldsOnly (xs.foldl g b) := by
  induction xs generalizing b with
  | nil => exact h
  | cons x xs ih => exact ih (h.trans (hg b x))

/-- What changes registers alone after the power state was put, changes those two alone. -/
theorem Dev.FieldsOnly.frame_pwr {p : PwrState} (h : ({ a with pwr := p } : Dev).FieldsOnly b) :
    b = { a with fields := b.fields, pwr := b.pwr } := by
  have hp : b.pwr = p := congrArg Dev.pwr h
  rw [hp]
  exact h

/-- As above, where of the power state only the PLLs that run unlocked changed. -/
theorem Dev.FieldsOnly.frame_unlocked (hx : x = { a with fields := x.fields, pwr := { a.pwr with unlocked := x.pwr.unlocked } })
    (hb : x.FieldsOnly b) : b = { a with fields := b.fields, pwr := { a.pwr with unlocked := b.pwr.unlocked } } := by
  have hp : b.pwr = x.pwr := by rw [show b = { x with fields := b.fields } from hb]
  rw [hp]
  exact Eq.trans hb (congrArg (fun y : Dev => { y with fields := b.fields }) hx)

end

/-! ### Power-on (R502, R524) -/

/-- The device with its straps sampled. -/
def Dev.strapped (d : Dev) (straps : Nat) : Dev :=
  ((((d.set 0 PWR_STRAPS.XTAL (straps % 4)).set 0 PWR_STRAPS.REFA_OSC (straps / 4)).set 0 PWR_STRAPS.REFB_OSC (straps / 8)).set 0
    PWR_STRAPS.RECOVERY_N (straps / 16)).set 0 PWR_STRAPS.TEST (straps / 32)

/-- The extra time that STRAP_XTAL gives a crystal, ms. -/
def Dev.strapExtra (d : Dev) : Nat :=
  match d.get 0 PWR_STRAPS.XTAL with
  | 0 => d.fw.otp.xtalExtra
  | 1 => 0
  | 2 => 50
  | _ => 255

/-- The oscillators run and the blocks wait `extra` ms more for a crystal. -/
def Dev.clocksFrom (d : Dev) (extra : Nat) : Dev :=
  ([uREF_F, uREF_Q].foldl (fun d r => ((d.set r CLK_SRC_CFG.XTAL_EXTRA_MS extra).set r CLK_SRC_STATUS.FOSC_OK 1).set r
    CLK_SRC_STATUS.SOSC_OK 1) d).set 775 CLK_PLL_STATUS.REF 3

section
variable {d : Dev}

theorem Dev.startClocks_eq (d : Dev) : d.startClocks = d.clocksFrom d.strapExtra := rfl

theorem Dev.powerGood_first (h : d.pwr.goodAt = none) (straps : Nat) :
    d.powerGood straps =
      (let e := ({ d with pwr := { d.pwr with goodAt := some d.now } } : Dev).strapped straps
       e.clocksFrom e.strapExtra) := by
  rw [Dev.powerGood, if_neg (by simp [h])]
  exact Dev.startClocks_eq _

theorem Dev.strapped_reads (d : Dev) (straps : Nat) : (d.strapped straps).get 0 PWR_STRAPS.XTAL = straps % 4
    ∧ (d.strapped straps).get 0 PWR_STRAPS.REFA_OSC = straps / 4 % 2 ∧ (d.strapped straps).get 0 PWR_STRAPS.REFB_OSC = straps / 8 % 2
    ∧ (d.strapped straps).get 0 PWR_STRAPS.RECOVERY_N = straps / 16 % 2 := by
  simp (disch := decide) only [Dev.strapped, Dev.get_set_ne, Dev.get_set_self]
  exact ⟨Nat.mod_mod .., rfl, rfl, rfl⟩

theorem Dev.fieldsOnly_clocksFrom (d : Dev) (extra : Nat) : d.FieldsOnly (d.clocksFrom extra) :=
  (Dev.FieldsOnly.foldl (fun e _ => (((Dev.FieldsOnly.refl e).set ..).set ..).set ..) _ (.refl d)).set ..

theorem Dev.fieldsOnly_strapped (d : Dev) (straps : Nat) : d.FieldsOnly (d.strapped straps) :=
  (((((Dev.FieldsOnly.refl d).set ..).set ..).set ..).set ..).set ..

/-- Starting the clocks leaves the straps as sampled. -/
theorem Dev.straps_clocksFrom (d : Dev) (extra : Nat) : (d.clocksFrom extra).get 0 PWR_STRAPS.XTAL = d.get 0 PWR_STRAPS.XTAL
    ∧ (d.clocksFrom extra).get 0 PWR_STRAPS.REFA_OSC = d.get 0 PWR_STRAPS.REFA_OSC
    ∧ (d.clocksFrom extra).get 0 PWR_STRAPS.REFB_OSC = d.get 0 PWR_STRAPS.REFB_OSC
    ∧ (d.clocksFrom extra).get 0 PWR_STRAPS.RECOVERY_N = d.get 0 PWR_STRAPS.RECOVERY_N := by
  simp (disch := decide) only [Dev.clocksFrom, List.foldl_cons, List.foldl_nil, Dev.get_set_ne, and_self]

theorem Dev.clocksFrom_reads (d : Dev) (extra : Nat) {r : Nat} (hr : r = uREF_F ∨ r = uREF_Q) :
    (d.clocksFrom extra).get r CLK_SRC_CFG.XTAL_EXTRA_MS = extra % 256 ∧ (d.clocksFrom extra).flag r CLK_SRC_STATUS.FOSC_OK = true
    ∧ (d.clocksFrom extra).flag r CLK_SRC_STATUS.SOSC_OK = true := by
  have h : (d.clocksFrom extra).get r CLK_SRC_CFG.XTAL_EXTRA_MS = extra % 256 ∧ (d.clocksFrom extra).get r CLK_SRC_STATUS.FOSC_OK = 1
      ∧ (d.clocksFrom extra).get r CLK_SRC_STATUS.SOSC_OK = 1 := by
    rcases hr with rfl | rfl <;>
      simp (disch := decide) only [Dev.clocksFrom, List.foldl_cons, List.foldl_nil, Dev.get_set_ne, Dev.get_set_self] <;>
      exact ⟨rfl, rfl, rfl⟩
  exact ⟨h.1, Dev.flag_of_get h.2.1, Dev.flag_of_get h.2.2⟩

/-- XTAL_EXTRA follows STRAP_XTAL (R502). -/
theorem Dev.strapExtra_strapped (d : Dev) (straps : Nat) : (straps % 4 = 0 → (d.strapped straps).strapExtra = d.fw.otp.xtalExtra)
    ∧ (straps % 4 = 1 → (d.strapped straps).strapExtra = 0) ∧ (straps % 4 = 2 → (d.strapped straps).strapExtra = 50)
    ∧ (straps % 4 = 3 → (d.strapped straps).strapExtra = 255) := by
  rw [Dev.strapExtra, (d.strapped_reads straps).1]
  refine ⟨fun h => ?_, fun h => ?_, fun h => ?_, fun h => ?_⟩ <;> rw [h] <;> rfl

end

/-! ### Standby (R513, R527) -/

/-- The SerDes PLLs that standby stops. -/
def standbyPlls : List Nat := [780, 781, 782, 783, 791, 792, 793, 794, 795]

/-- The units that standby sends to deep-sleep have entered it. -/
def Dev.unitsAsleep (d : Dev) : Dev := standbyUnits.foldl (fun d u => d.set u UF_STATE.SLEEP_STATE 2) d

/-- Those units are as they were before standby: a SPARE sleeps, the others run. -/
def Dev.unitsAwake (d : Dev) : Dev := standbyUnits.foldl (fun d u => d.set u UF_STATE.SLEEP_STATE (if d.svc u = sSPARE then 1 else 0)) d

def Dev.stopPll (d : Dev) (u : Nat) : Dev := (d.set u CLK_PLL_STATUS.LOCKED 0).pllOff u

def Dev.pllsStopped (d : Dev) : Dev := standbyPlls.foldl Dev.stopPll d

/-- Is a PLL's reference good? -/
def Dev.refGood (d : Dev) (u : Nat) : Bool := d.flag (refOf u) (okField (d.get u CLK_PLL_STATUS.REF))

def Dev.pllsBack (d : Dev) : Dev := standbyPlls.foldl (fun e u => e.set u CLK_PLL_STATUS.LOCKED (d.refGood u).toNat) d

/-- The device as it begins to enter standby, and to leave it, its stacks apart. -/
def Dev.enteringStandby (d : Dev) : Dev := ((d.set 0 PWR_CTRL.STANDBY 1).set 0 PWR_CTRL.STBY_STATE 1).unitsAsleep.pllsStopped
def Dev.leavingStandby (d : Dev) : Dev := ((d.set 0 PWR_CTRL.STANDBY 0).set 0 PWR_CTRL.STBY_STATE 3).unitsAwake.pllsBack

section
variable {d : Dev} {un v : Nat} {k : Key}

theorem Dev.standbyEnter_refused (h0 : d.flag 0 PWR_CTRL.STANDBY = false)
    (h : (∃ p < 128, d.portInUse p = true ∧ d.linkState p ≠ lsDISABLED) ∨ d.flag uZFP ZFP_DEV_CFG.EN = true) :
    d.standbyEnter = d.set 0 PWR_CTRL.REFUSED 1 := by
  have hany : (∃ p < 128, d.portInUse p = true ∧ d.linkState p ≠ lsDISABLED) →
      (List.range 128).any (fun p => d.portInUse p && d.linkState p != lsDISABLED) = true :=
    fun ⟨p, hp, hu, hl⟩ => List.any_eq_true.2 ⟨p, List.mem_range.2 hp, by simp [hu, hl]⟩
  rw [Dev.standbyEnter, if_neg (by simp [h0]), if_pos (h.imp hany .inl)]

theorem Dev.standbyEnter_eq (h0 : d.flag 0 PWR_CTRL.STANDBY = false) (hs : d.get 0 PWR_CTRL.STBY_STATE = 0)
    (he : d.flag uZFP ZFP_DEV_CFG.EN = false) (hp : ∀ p < 128, d.portInUse p = true → d.linkState p = lsDISABLED) :
    d.standbyEnter = d.enteringStandby.settleStandby := by
  have hports : (List.range 128).any (fun p => d.portInUse p && d.linkState p != lsDISABLED) = false :=
    List.any_eq_false.2 fun p hm => by simpa using hp p (List.mem_range.1 hm)
  rw [Dev.standbyEnter, if_neg (by simp [h0]), if_neg (by simp [hports, he, hs])]
  rfl

theorem Dev.standbyLeave_eq (h : d.flag 0 PWR_CTRL.STANDBY = true) : d.standbyLeave = d.leavingStandby.settleStandby :=
  if_neg (not_not_intro h)

/-! #### Settling -/

/-- Standby settles with a write of STBY_STATE at most. -/
theorem Dev.settleStandby_cases (d : Dev) : d.settleStandby = d
    ∨ (d.get 0 PWR_CTRL.STBY_STATE = 1 ∧ d.settleStandby = d.set 0 PWR_CTRL.STBY_STATE 2)
    ∨ (d.get 0 PWR_CTRL.STBY_STATE = 3 ∧ d.settleStandby = d.set 0 PWR_CTRL.STBY_STATE 0) := by
  dsimp only [Dev.settleStandby]
  split
  · next h => exact .inr (.inl ⟨h.1, rfl⟩)
  · split
    · next h => exact .inr (.inr ⟨h.1, rfl⟩)
    · exact .inl rfl

theorem Dev.fieldsOnly_settleStandby (d : Dev) : d.FieldsOnly d.settleStandby := by
  rcases d.settleStandby_cases with h | ⟨_, h⟩ | ⟨_, h⟩ <;> rw [h]
  · exact .refl d
  all_goals exact (Dev.FieldsOnly.refl d).set ..

theorem Dev.fields_settleStandby (d : Dev) (hk : k ≠ PWR_CTRL.STBY_STATE.key 0 0) :
    d.settleStandby.fields.get? k = d.fields.get? k := by
  rcases d.settleStandby_cases with h | ⟨_, h⟩ | ⟨_, h⟩ <;> rw [h]
  all_goals exact Dev.fields_setI_ne hk

theorem Dev.get_settleStandby (d : Dev) {f : Fld} (h : (f.off, f.lo) ≠ (PWR_CTRL.STBY_STATE.off, PWR_CTRL.STBY_STATE.lo)) :
    d.settleStandby.get un f = d.get un f := Dev.getI_congr (d.fields_settleStandby (Fld.key_ne h un 0 0 0))

theorem Dev.stbyState_settle_entering (h : d.get 0 PWR_CTRL.STBY_STATE = 1) :
    d.settleStandby.get 0 PWR_CTRL.STBY_STATE = 1 ∨ d.settleStandby.get 0 PWR_CTRL.STBY_STATE = 2 := by
  rcases d.settleStandby_cases with e | ⟨_, e⟩ | ⟨h', e⟩
  · exact .inl (by rw [e, h])
  · exact .inr (by rw [e, Dev.get_set_self]; rfl)
  · omega

theorem Dev.stbyState_settle_leaving (h : d.get 0 PWR_CTRL.STBY_STATE = 3) :
    d.settleStandby.get 0 PWR_CTRL.STBY_STATE = 3 ∨ d.settleStandby.get 0 PWR_CTRL.STBY_STATE = 0 := by
  rcases d.settleStandby_cases with e | ⟨h', e⟩ | ⟨_, e⟩
  · exact .inl (by rw [e, h])
  · omega
  · exact .inr (by rw [e, Dev.get_set_self]; rfl)

/-! #### What entering and leaving write -/

theorem Dev.fields_unitsAsleep (d : Dev) (hk : ∀ u, k ≠ UF_STATE.SLEEP_STATE.key u 0) : d.unitsAsleep.fields.get? k = d.fields.get? k :=
  Dev.fields_foldl_set (f := UF_STATE.SLEEP_STATE) (fun _ _ => rfl) d fun u _ => hk u

theorem Dev.fields_unitsAwake (d : Dev) (hk : ∀ u, k ≠ UF_STATE.SLEEP_STATE.key u 0) : d.unitsAwake.fields.get? k = d.fields.get? k :=
  Dev.fields_foldl_set (f := UF_STATE.SLEEP_STATE) (fun _ _ => rfl) d fun u _ => hk u

/-- A PLL that is stopped loses LOCKED. -/
theorem Dev.fields_stopPll (d : Dev) (u : Nat) : (d.stopPll u).fields = (d.set u CLK_PLL_STATUS.LOCKED 0).fields := rfl

theorem Dev.fields_pllsStopped (d : Dev) (hk : ∀ u, k ≠ CLK_PLL_STATUS.LOCKED.key u 0) :
    d.pllsStopped.fields.get? k = d.fields.get? k :=
  Dev.fields_foldl_set Dev.fields_stopPll d fun u _ => hk u

theorem Dev.fields_pllsBack (d : Dev) (hk : ∀ u, k ≠ CLK_PLL_STATUS.LOCKED.key u 0) : d.pllsBack.fields.get? k = d.fields.get? k :=
  Dev.fields_foldl_set (f := CLK_PLL_STATUS.LOCKED) (fun _ _ => rfl) d fun u _ => hk u

theorem Dev.sleep_unitsAsleep (d : Dev) {u : Nat} (hu : u ∈ standbyUnits) : d.unitsAsleep.get u UF_STATE.SLEEP_STATE = 2 :=
  Dev.get_foldl_set (f := UF_STATE.SLEEP_STATE) (v := fun _ _ => 2) (fun _ _ => rfl) (fun _ _ _ => rfl) d hu

theorem Dev.locked_pllsStopped (d : Dev) {u : Nat} (hu : u ∈ standbyPlls) : d.pllsStopped.get u CLK_PLL_STATUS.LOCKED = 0 :=
  Dev.get_foldl_set (v := fun _ _ => 0) Dev.fields_stopPll (fun _ _ _ => rfl) d hu

theorem Dev.sleep_unitsAwake (d : Dev) {u : Nat} (hu : u ∈ standbyUnits) :
    d.unitsAwake.get u UF_STATE.SLEEP_STATE = if d.svc u = sSPARE then 1 else 0 := by
  have hkeep (e : Dev) (x u w : Nat) : (e.set x UF_STATE.SLEEP_STATE w).svc u = e.svc u := e.svc_set _ _ _ (by decide)
  refine (Dev.get_foldl_set (f := UF_STATE.SLEEP_STATE) (v := fun d u => if d.svc u = sSPARE then 1 else 0)
    (g := fun d u => d.set u UF_STATE.SLEEP_STATE (if d.svc u = sSPARE then 1 else 0)) (fun _ _ => rfl)
    (fun d x u => by rw [hkeep]) d hu).trans ?_
  split <;> rfl

theorem Dev.locked_pllsBack (d : Dev) {u : Nat} (hu : u ∈ standbyPlls) :
    d.pllsBack.get u CLK_PLL_STATUS.LOCKED = (d.refGood u).toNat := by
  refine (Dev.get_foldl_set (f := CLK_PLL_STATUS.LOCKED) (v := fun _ u => (d.refGood u).toNat) (fun _ _ => rfl)
    (fun _ _ _ => rfl) d hu).trans ?_
  cases d.refGood u <;> rfl

theorem okField_off (src : Nat) : (okField src).off = CLK_SRC_STATUS.REFA_OK.off := by
  unfold okField
  split <;> rfl

/-- Whether a reference is good is told by the clock registers alone. -/
theorem Dev.refGood_congr {a b : Dev} (u : Nat)
    (h : ∀ un (f : Fld), f.off = CLK_PLL_STATUS.REF.off ∨ f.off = CLK_SRC_STATUS.REFA_OK.off →
      b.fields.get? (f.key un 0) = a.fields.get? (f.key un 0)) : b.refGood u = a.refGood u := by
  have href : b.get u CLK_PLL_STATUS.REF = a.get u CLK_PLL_STATUS.REF := Dev.getI_congr (h u _ (.inl rfl))
  rw [Dev.refGood, Dev.refGood, href]
  exact Dev.flag_congr (h _ _ (.inr (okField_off _)))

/-! #### The device that enters or leaves -/

theorem Dev.get_enteringStandby (d : Dev) {f : Fld} (hs : (f.off, f.lo) ≠ (UF_STATE.SLEEP_STATE.off, UF_STATE.SLEEP_STATE.lo))
    (hl : (f.off, f.lo) ≠ (CLK_PLL_STATUS.LOCKED.off, CLK_PLL_STATUS.LOCKED.lo)) :
    d.enteringStandby.get un f = ((d.set 0 PWR_CTRL.STANDBY 1).set 0 PWR_CTRL.STBY_STATE 1).get un f :=
  Dev.getI_congr ((Dev.fields_pllsStopped _ fun u => Fld.key_ne hl un 0 u 0).trans
    (Dev.fields_unitsAsleep _ fun u => Fld.key_ne hs un 0 u 0))

theorem Dev.enteringStandby_reads (d : Dev) :
    d.enteringStandby.get 0 PWR_CTRL.STANDBY = 1 ∧ d.enteringStandby.get 0 PWR_CTRL.STBY_STATE = 1
    ∧ (∀ u ∈ standbyUnits, d.enteringStandby.get u UF_STATE.SLEEP_STATE = 2)
    ∧ ∀ u ∈ standbyPlls, d.enteringStandby.get u CLK_PLL_STATUS.LOCKED = 0 := by
  refine ⟨?_, ?_, fun u hu => ?_, fun u hu => Dev.locked_pllsStopped _ hu⟩
  · rw [d.get_enteringStandby (by decide) (by decide), Dev.get_set_ne (by decide), Dev.get_set_self]
    rfl
  · rw [d.get_enteringStandby (by decide) (by decide), Dev.get_set_self]
    rfl
  · exact (Dev.getI_congr (Dev.fields_pllsStopped _ fun x => Fld.key_ne (by decide) u 0 x 0)).trans (Dev.sleep_unitsAsleep _ hu)

/-- Stopping PLLs changes LOCKED and which of them run unlocked. -/
theorem Dev.foldl_stopPll_frame (us : List Nat) (d : Dev) :
    let b := us.foldl Dev.stopPll d
    b = { d with fields := b.fields, pwr := { d.pwr with unlocked := b.pwr.unlocked } } := by
  induction us generalizing d with
  | nil => rfl
  | cons u us ih => exact ih (d.stopPll u)

theorem Dev.enteringStandby_frame (d : Dev) : d.enteringStandby = { d with
    fields := d.enteringStandby.fields, pwr := { d.pwr with unlocked := d.enteringStandby.pwr.unlocked } } := by
  have hasleep : d.FieldsOnly ((d.set 0 PWR_CTRL.STANDBY 1).set 0 PWR_CTRL.STBY_STATE 1).unitsAsleep :=
    Dev.FieldsOnly.foldl (fun e _ => (Dev.FieldsOnly.refl e).set ..) _ (((Dev.FieldsOnly.refl d).set ..).set ..)
  exact (Dev.foldl_stopPll_frame _ _).trans (congrArg (fun x : Dev => { x with
    fields := d.enteringStandby.fields, pwr := { x.pwr with unlocked := d.enteringStandby.pwr.unlocked } }) hasleep)

theorem Dev.get_leavingStandby (d : Dev) {f : Fld} (hs : (f.off, f.lo) ≠ (UF_STATE.SLEEP_STATE.off, UF_STATE.SLEEP_STATE.lo))
    (hl : (f.off, f.lo) ≠ (CLK_PLL_STATUS.LOCKED.off, CLK_PLL_STATUS.LOCKED.lo)) :
    d.leavingStandby.get un f = ((d.set 0 PWR_CTRL.STANDBY 0).set 0 PWR_CTRL.STBY_STATE 3).get un f :=
  Dev.getI_congr ((Dev.fields_pllsBack _ fun u => Fld.key_ne hl un 0 u 0).trans
    (Dev.fields_unitsAwake _ fun u => Fld.key_ne hs un 0 u 0))

/-- Standby's own registers and sleep states say nothing of the references. -/
theorem Dev.refGood_leaving (d : Dev) (u : Nat) :
    ((d.set 0 PWR_CTRL.STANDBY 0).set 0 PWR_CTRL.STBY_STATE 3).unitsAwake.refGood u = d.refGood u := by
  refine Dev.refGood_congr u fun un f hf => ?_
  have hne {g : Fld} (h : g.off ∉ [CLK_PLL_STATUS.REF.off, CLK_SRC_STATUS.REFA_OK.off]) (x : Nat) : f.key un 0 ≠ g.key x 0 := by
    refine Fld.key_ne_of_off (fun e => h ?_) un 0 x 0
    rw [← e]
    rcases hf with hf | hf <;> simp [hf]
  exact (Dev.fields_unitsAwake _ (hne (by decide))).trans ((Dev.fields_setI_ne (hne (by decide) 0)).trans
    (Dev.fields_setI_ne (hne (by decide) 0)))

theorem Dev.leavingStandby_reads (d : Dev) :
    d.leavingStandby.get 0 PWR_CTRL.STANDBY = 0 ∧ d.leavingStandby.get 0 PWR_CTRL.STBY_STATE = 3
    ∧ (∀ u ∈ standbyUnits, d.leavingStandby.get u UF_STATE.SLEEP_STATE = if d.svc u = sSPARE then 1 else 0)
    ∧ ∀ u ∈ standbyPlls, d.leavingStandby.get u CLK_PLL_STATUS.LOCKED = (d.refGood u).toNat := by
  refine ⟨?_, ?_, fun u hu => ?_, fun u hu => ?_⟩
  · rw [d.get_leavingStandby (by decide) (by decide), Dev.get_set_ne (by decide), Dev.get_set_self]
    rfl
  · rw [d.get_leavingStandby (by decide) (by decide), Dev.get_set_self]
    rfl
  · refine (Dev.getI_congr (Dev.fields_pllsBack _ fun x => Fld.key_ne (by decide) u 0 x 0)).trans ((Dev.sleep_unitsAwake _ hu).trans ?_)
    rw [Dev.svc_set _ _ _ _ (by decide), Dev.svc_set _ _ _ _ (by decide)]
  · exact (Dev.locked_pllsBack _ hu).trans (congrArg Bool.toNat (d.refGood_leaving u))

theorem Dev.fieldsOnly_leavingStandby (d : Dev) : d.FieldsOnly d.leavingStandby :=
  Dev.FieldsOnly.foldl (fun e _ => (Dev.FieldsOnly.refl e).set ..) _
    (Dev.FieldsOnly.foldl (fun e _ => (Dev.FieldsOnly.refl e).set ..) _ (((Dev.FieldsOnly.refl d).set ..).set ..))

end

/-! ### Clock gates (R513-R515) -/

/-- A write of UF_CLKEN, RUN_EN apart; SLEEP_EN of the standby scheduler cannot be written (R289). -/
def Dev.clkenPut (d : Dev) (un v : Nat) : Dev :=
  (if un = 98 then d else d.set un UF_CLKEN.SLEEP_EN (fieldOfWrite UF_CLKEN.SLEEP_EN v)).set un UF_CLKEN.DEEP_EN
    (fieldOfWrite UF_CLKEN.DEEP_EN v)

theorem Dev.turnHolder_clkenPut (d : Dev) (un v : Nat) :
    (d.clkenPut un v).flag un UF_STATE.TURN_HOLDER = d.flag un UF_STATE.TURN_HOLDER := by
  have hset (e : Dev) {f : Fld} (h : UF_STATE.TURN_HOLDER.off ≠ f.off) (w : Nat) :
      (e.set un f w).flag un UF_STATE.TURN_HOLDER = e.flag un UF_STATE.TURN_HOLDER :=
    Dev.flag_congr (Dev.fields_setI_ne (Fld.key_ne_of_off h un 0 un 0))
  unfold Dev.clkenPut
  split
  · exact hset _ (by decide) _
  · exact (hset _ (by decide) _).trans (hset _ (by decide) _)

theorem Dev.clkenWrite_eq {d : Dev} {un : Nat} (hp : populated un = true) (v : Nat) : d.clkenWrite un v =
    if fieldOfWrite UF_CLKEN.RUN_EN v = 0 ∧ d.flag un UF_STATE.TURN_HOLDER = true then (d.clkenPut un v).refuseReq un 4
    else (d.clkenPut un v).set un UF_CLKEN.RUN_EN (fieldOfWrite UF_CLKEN.RUN_EN v) := by
  rw [Dev.clkenWrite, if_neg (not_not_intro hp), ← d.turnHolder_clkenPut un v]
  rfl

/-! ### The statement -/

/-- Settles O23: power-on and standby by what they write, the gates by their equations. -/
theorem powerOnStandbyAndGates : Obligations.PowerOnStandbyAndGates := by
  refine ⟨fun s straps h => ?_, fun s straps t h => Makes.intro rfl (if_pos (by simp [h])),
    fun s p hp hu hl h0 => Makes.intro rfl (Dev.standbyEnter_refused h0 (.inl ⟨p, hp, hu, hl⟩)),
    fun s he h0 => Makes.intro rfl (Dev.standbyEnter_refused h0 (.inr he)), fun s h0 hst he hp => ?_, fun s h => ?_,
    fun s un hp hg => ⟨Makes.intro rfl (if_pos ⟨hp, hg⟩), Makes.intro rfl (if_pos ⟨hp, hg, Bool.false_ne_true⟩),
      Makes.intro rfl (if_neg fun x => x.2.2 rfl)⟩,
    fun s un v hp => Makes.intro rfl (Dev.clkenWrite_eq hp v)⟩
  · let d : Dev := { s.dev with pwr := { s.dev.pwr with goodAt := some s.dev.now } }
    obtain ⟨hx, ha, hb, hr⟩ := (d.strapped straps).straps_clocksFrom (d.strapped straps).strapExtra
    obtain ⟨rx, ra, rb, rr⟩ := d.strapped_reads straps
    obtain ⟨h0, h1, h2, h3⟩ := d.strapExtra_strapped straps
    have hframe : d.FieldsOnly ((d.strapped straps).clocksFrom (d.strapped straps).strapExtra) :=
      (d.fieldsOnly_strapped straps).trans (Dev.fieldsOnly_clocksFrom _ _)
    refine ⟨_, Makes.intro rfl (Dev.powerGood_first h straps), ?_, hx.trans rx, ha.trans ra, hb.trans rb, hr.trans rr,
      fun r hr => ?_, hframe.frame_pwr⟩
    · exact congrArg Dev.pwr hframe
    · obtain ⟨hextra, hf, hs⟩ := (d.strapped straps).clocksFrom_reads (d.strapped straps).strapExtra hr
      exact ⟨hf, hs, fun e => by rw [hextra, h0 e], fun e => by rw [hextra, h1 e], fun e => by rw [hextra, h2 e],
        fun e => by rw [hextra, h3 e]⟩
  · obtain ⟨hstandby, hstate, hsleep, hlock⟩ := s.dev.enteringStandby_reads
    exact ⟨s.dev.enteringStandby.settleStandby, Makes.intro rfl (Dev.standbyEnter_eq h0 hst he hp),
      Dev.flag_of_get ((Dev.get_settleStandby _ (by decide)).trans hstandby), Dev.stbyState_settle_entering hstate,
      fun u hu => (Dev.get_settleStandby _ (by decide)).trans (hsleep u hu),
      fun u hu => Dev.flag_of_get ((Dev.get_settleStandby _ (by decide)).trans (hlock u hu)),
      Dev.FieldsOnly.frame_unlocked s.dev.enteringStandby_frame (Dev.fieldsOnly_settleStandby _)⟩
  · obtain ⟨hstandby, hstate, hsleep, hlock⟩ := s.dev.leavingStandby_reads
    exact ⟨s.dev.leavingStandby.settleStandby, Makes.intro rfl (Dev.standbyLeave_eq h),
      Dev.flag_of_get ((Dev.get_settleStandby _ (by decide)).trans hstandby), Dev.stbyState_settle_leaving hstate,
      fun u hu => (Dev.get_settleStandby _ (by decide)).trans (hsleep u hu),
      fun u hu => Dev.flag_of_get ((Dev.get_settleStandby _ (by decide)).trans (hlock u hu)),
      s.dev.fieldsOnly_leavingStandby.trans (Dev.fieldsOnly_settleStandby _)⟩

end Sys2Proof.Machine
end

section
/-! SUPPORT. Turns, suspects, declarations, takeovers and rider copies, and the statement about them. -/
namespace Sys2Proof.Machine
open Sys2Proof

/-! ### Turns (R371, R372) -/

section
variable {a b d : Dev} {un kind k : Nat} {t : Turn}

theorem Dev.FieldsOnly.rid (h : a.FieldsOnly b) : b.rid = a.rid := by rw [show b = { a with fields := b.fields } from h]

theorem Dev.fieldsOnly_showHolder (d : Dev) (un : Nat) : d.FieldsOnly (d.showHolder un) :=
  Dev.FieldsOnly.foldl (fun e _ => (Dev.FieldsOnly.refl e).set ..) _ (.refl d)

theorem Dev.fields_showHolder {k : Key} (d : Dev) (un : Nat) (hk : ∀ u, k ≠ UF_STATE.TURN_HOLDER.key u 0) :
    (d.showHolder un).fields.get? k = d.fields.get? k :=
  Dev.fields_foldl_set (f := UF_STATE.TURN_HOLDER) (fun _ _ => rfl) d fun u _ => hk u

theorem Dev.fieldsOnly_showTurn (d : Dev) (un : Nat) : d.FieldsOnly (d.showTurn un) := by
  unfold Dev.showTurn
  split
  · exact .refl d
  · exact ((Dev.FieldsOnly.refl d).set ..).set ..

theorem Dev.turn_congr (h : b.rid = a.rid) (un kind : Nat) : b.turn un kind = a.turn un kind := by rw [Dev.turn, h, Dev.turn]

theorem Dev.turn_putTurn (d : Dev) (un kind : Nat) (o : Option Turn) : (d.putTurn un kind o).turn un kind = o := Tab.get?_put_self ..

/-- A unit's turn as its rider notes and shows it. -/
def Dev.turnNoted (d : Dev) (un kind seq : Nat) (cover : Option (List Nat)) : Dev :=
  let e := d.now + d.turnLen (riderOf un)
  let d := { d with rid := { d.rid with seq := d.rid.seq.insert [riderOf un] seq } }
  ((d.putTurn un kind (some { seq := seq, expiry := e, last := d.now, covers := cover })).set un UF_TURN.TURN_SEQ seq).set un
    UF_TURN.TURN_EXPIRY e

theorem Dev.grantTurn_eq (h : d.flag (riderOf un) RID_STATUS.FAILED = false) (kind : Nat) (cover : Option (List Nat)) :
    d.grantTurn un kind cover = ((d.turnNoted un kind ((d.rid.seq.getD 0 [riderOf un] + 1) % 2 ^ 32) cover).showHolder un).tally
      (riderOf un) 0x20 1 :=
  if_neg (by simp [h])

theorem Dev.grantTurn_reads (h : d.flag (riderOf un) RID_STATUS.FAILED = false) (kind : Nat) (cover : Option (List Nat)) :
    let seq := (d.rid.seq.getD 0 [riderOf un] + 1) % 2 ^ 32
    (d.grantTurn un kind cover).turn un kind
      = some { seq := seq, expiry := d.now + d.turnLen (riderOf un), last := d.now, covers := cover }
    ∧ (d.grantTurn un kind cover).get un UF_TURN.TURN_SEQ = seq := by
  intro seq
  have hn := ((d.turnNoted un kind seq cover).showHolder un).noted_tally (riderOf un) 0x20 1
  rw [Dev.grantTurn_eq h]
  refine ⟨?_, ?_⟩
  · rw [Dev.turn_congr hn.rid, Dev.turn_congr (Dev.fieldsOnly_showHolder _ _).rid]
    exact Dev.turn_putTurn ..
  · calc _ = ((d.turnNoted un kind seq cover).showHolder un).get un UF_TURN.TURN_SEQ := hn.get (noteKey_of _ _ _ (by decide))
      _ = (d.turnNoted un kind seq cover).get un UF_TURN.TURN_SEQ :=
        Dev.getI_congr (Dev.fields_showHolder _ _ fun u => Fld.key_ne (by decide) un 0 u 0)
      _ = seq % 2 ^ 32 := (Dev.get_set_ne (Fld.key_ne (by decide) un 0 un 0)).trans (Dev.get_set_self ..)
      _ = seq := Nat.mod_mod ..

theorem Dev.renewTurn_reads (h : d.turn un kind = some t) (hc : t.current d.now = true) :
    (d.renewTurn un kind).turn un kind = some { t with expiry := d.now + d.turnLen (riderOf un), last := d.now } := by
  simp only [Dev.renewTurn, h]
  rw [if_neg (not_not_intro hc), Dev.turn_congr (Dev.fieldsOnly_showTurn _ _).rid]
  exact Dev.turn_putTurn ..

/-- What a unit holds, renewed and counted. -/
def Dev.renewed (d : Dev) (un : Nat) : Dev :=
  let held := (d.turnKinds un).filter (fun k => (d.turn un k).any (fun t => t.current d.now))
  ((held.foldl (fun d k => d.renewTurn un k) d).tally (riderOf un) 0x21 held.length).tallyUp un 0x04 1

theorem Dev.turnRenewal_eq (ht : d.turn un 0 = some t) (hw : (d.watchOf un).state ≠ .declared) (hs : d.stopped un = false)
    (hf : d.flag (riderOf un) RID_STATUS.FAILED = false) (hc : t.current d.now = true) : d.turnRenewal un =
      if d.turnLen (riderOf un) / 2 < d.now - t.last then ((d.renewed un).tallyUp un 0x05 1).softAny un 0 else d.renewed un := by
  simp only [Dev.turnRenewal, ht]
  rw [if_neg (by simp [hw, hs, hf, hc])]
  simp only [decide_eq_true_eq]
  rfl

/-- A turn that lapses is noted, counted and raised. -/
def Dev.lapsed (d : Dev) (un kind : Nat) (t : Turn) : Dev :=
  (((d.putTurn un kind (some { t with lapsed := true })).showHolder un).bump (riderOf un) RID_LAPSES.COUNT).raise un 0x02 (leBytes 4 t.seq)

theorem Dev.lapse_eq (ht : d.turn un kind = some t) (hl : t.lapsed = false) (he : t.expiry ≤ d.now) :
    d.lapse un kind = d.lapsed un kind t := by
  simp only [Dev.lapse, ht]
  exact if_neg (by simp [hl, he])

theorem Dev.turn_lapsed (d : Dev) (un kind : Nat) (t : Turn) : (d.lapsed un kind t).turn un kind = some { t with lapsed := true } := by
  have hr : (d.lapsed un kind t).rid = (d.putTurn un kind (some { t with lapsed := true })).rid :=
    (Dev.noted_raise ..).rid.trans (Dev.fieldsOnly_showHolder _ un).rid
  exact (Dev.turn_congr hr un kind).trans (Dev.turn_putTurn ..)

theorem Dev.turnLapsed_eq (hk : d.turnKinds un = [k]) (ht : d.turn un k = some t) (hl : t.lapsed = false) (he : t.expiry ≤ d.now) :
    d.turnLapsed un = (d.lapsed un k t).hardAny un 2 := by
  have hne : (d.lapsed un k t).rid.turns ≠ d.rid.turns := fun e => by
    have h : (d.lapsed un k t).turn un k = d.turn un k := by rw [Dev.turn, e, Dev.turn]
    rw [Dev.turn_lapsed, ht, Option.some.injEq] at h
    exact Bool.noConfusion (show true = false from (congrArg Turn.lapsed h).trans hl)
  simp only [Dev.turnLapsed, hk, List.foldl_cons, List.foldl_nil, Dev.lapse_eq ht hl he]
  exact if_pos hne

theorem Dev.turnGrant_active (hh : holdsTurns un = true) (hf : d.flag (riderOf un) RID_STATUS.FAILED = false) (hs : d.svc un = sACTIVE)
    (hw : (d.watchOf un).state ≠ .declared) (ht : ∀ t, d.turn un 0 = some t → t.lapsed = true) :
    d.turnGrant un = d.grantTurn un 0 none := by
  rw [Dev.turnGrant, if_neg (by simp [hh, hf]), if_pos hs]
  exact if_pos ⟨hw, (Option.all_eq_true _ _).2 ht⟩

/-- A woken spare flume carries the failed unit's stream under a turn of its own. -/
theorem Dev.turnGrant_spare {f : Nat} (hh : holdsTurns un = true) (hf : d.flag (riderOf un) RID_STATUS.FAILED = false)
    (hs : d.svc un = sSPARE) (ho : d.failedOf un = some f) (hc : classOf un = 0x11) :
    d.turnGrant un = (((d.setSvc un sACTIVE).setStream un (d.streamOf f)).grantTurn un 0 none).showGroup un := by
  have hcore : ¬ classOf un = 0x48 := by omega
  rw [Dev.turnGrant, if_neg (by simp [hh, hf]), if_neg (by rw [hs]; decide), if_pos hs]
  simp only [ho]
  rw [if_pos (.inl hc)]
  simp only [if_neg hcore]

end

/-! ### Suspects (R376, R377) -/

section
variable {d : Dev} {f g : Dev → Dev} {un q : Nat}

/-- Only what the step makes of this device counts. -/
theorem Dev.hostAfter_congr (h : f d = g d) : d.hostAfter f = d.hostAfter g := by rw [Dev.hostAfter, h, Dev.hostAfter]

/-- A soft input by what the rider knows of the unit once a window that has passed is ended. -/
theorem Dev.softAny_eq (hw : d.isWatched un = true) (hq : q < 3) : d.softAny un q =
    (let e := d.endWindow un
     let w := e.watchOf un
     if w.state = .watched then
       let v := { w with state := .suspect, inputs := 2 ^ q, windowEnd := e.now + e.act (riderOf un) RID_CFG.DECIDE_WINDOW_US * 1000 }
       ((e.setWatch un v).bump (riderOf un) RID_SUSPECTS.COUNT).raise (riderOf un) 0x10 (leBytes 2 un ++ leBytes 1 (2 ^ q) ++ leBytes 1 1)
     else if bit w.inputs q = true then e
     else e.declareAny un (w.inputs + 2 ^ q) 0) :=
  if_neg (by simp [hw, hq])

end

/-! ### Declaring (R378, R382) -/

theorem flume_range {un : Nat} (h : classOf un = 0x11) : 32 ≤ un ∧ un ≤ 51 := by
  unfold classOf at h
  cases hr : unitRow un with
  | none => rw [hr] at h; exact absurd h (by decide)
  | some r =>
    rw [hr] at h
    obtain ⟨hlo, hhi⟩ := (by decide : ∀ r ∈ unitTable, r.cls = 0x11 → r.lo = 32 ∧ r.hi = 51) r (List.mem_of_find?_eq_some hr) h
    have hin : r.lo ≤ un ∧ un ≤ r.hi := by simpa using List.find?_some hr
    omega

/-- `b` shows a unit in the service state in which `a` does, and watches every unit as `a` does. -/
def Dev.SameStanding (un : Nat) (a b : Dev) : Prop := b.svc un = a.svc un ∧ b.rid.watch = a.rid.watch

section
variable {a b c d : Dev} {un u : Nat}

theorem Dev.SameStanding.refl (d : Dev) : d.SameStanding un d := ⟨rfl, rfl⟩

theorem Dev.SameStanding.trans (h : a.SameStanding un b) (h' : b.SameStanding un c) : a.SameStanding un c :=
  ⟨h'.1.trans h.1, h'.2.trans h.2⟩

theorem Dev.Noted.sameStanding (h : a.Noted b) : a.SameStanding un b := ⟨h.svc un, congrArg RidState.watch h.rid⟩

theorem Dev.sameStanding_set (d : Dev) (u : Nat) {f : Fld} (v : Nat)
    (h : (f.off, f.lo) ≠ (UF_STATE.SVC_STATE.off, UF_STATE.SVC_STATE.lo)) : d.SameStanding un (d.set u f v) :=
  ⟨d.svc_set u un v h, rfl⟩

theorem Dev.watch_setSvc (d : Dev) (un new : Nat) : (d.setSvc un new).rid.watch = d.rid.watch := by
  unfold Dev.setSvc
  extract_lets old dState dSleep rid₀ dRetired rid₁ dRelieved dCores
  have hSleep : dSleep.rid = d.rid := by
    dsimp only [dSleep]
    split
    · rfl
    · split <;> rfl
  have hRetired : dRetired.rid.watch = dSleep.rid.watch := by
    dsimp only [dRetired]
    split <;> rfl
  calc _ = dCores.rid.watch := congrArg RidState.watch (Dev.noted_raise ..).rid
    _ = dRelieved.rid.watch := congrArg RidState.watch (dRelieved.rid_showCores un)
    _ = _ := hRetired.trans (congrArg RidState.watch hSleep)

theorem Dev.sameStanding_setSvc (d : Dev) (new : Nat) (h : un ≠ u) : d.SameStanding un (d.setSvc u new) :=
  ⟨d.svc_setSvc_ne new h, d.watch_setSvc u new⟩

theorem Dev.watch_writeFault (d : Dev) (un cause time : Nat) (detail : List Byte) :
    (d.writeFault un cause time detail).rid.watch = d.rid.watch := by
  refine (congrArg RidState.watch (Dev.noted_raise ..).rid).trans ?_
  show (d.rid.logged _).watch = _
  unfold RidState.logged
  split <;> rfl

theorem Dev.sameStanding_ownFault (d : Dev) (u cause : Nat) : d.SameStanding un (d.ownFault u cause) := by
  refine (d.sameStanding_set u _ (by decide)).trans ⟨?_, Dev.watch_writeFault ..⟩
  exact (Dev.noted_raise ..).svc un

/-- The failure of another unit leaves a unit's standing. -/
theorem Dev.sameStanding_failSelf (d : Dev) (cause : Nat) (h : un ≠ u) : d.SameStanding un (d.failSelf u cause) := by
  have hretire (e : Dev) : e.SameStanding un (e.retireIfDue u) := by
    unfold Dev.retireIfDue
    split
    · exact e.sameStanding_setSvc _ h
    · exact .refl e
  have hfail : d.SameStanding un (if d.svc u = sFAILED then d else d.setSvc u sFAILED) := by
    split
    · exact .refl d
    · exact d.sameStanding_setSvc _ h
  unfold Dev.failSelf
  split
  · exact .refl d
  · exact (hfail.trans (Dev.sameStanding_ownFault ..)).trans (hretire _)

theorem Dev.sameStanding_announce (d : Dev) (u : Nat) (o : Option Nat) : d.SameStanding un (d.announce u o) := by
  unfold Dev.announce
  split
  · exact .refl d
  · let e : Dev := { d with rid := { d.rid with figure := d.rid.figure.put [u] o } }
    have he : d.SameStanding un e := ⟨rfl, rfl⟩
    exact (he.trans (e.sameStanding_set u o.isSome.toNat (f := UF_STATE.DEGRADED) (by decide))).trans (Dev.noted_raise ..).sameStanding

theorem Dev.sameStanding_setFigure (d : Dev) (u : Nat) (o : Option Nat) : d.SameStanding un (d.setFigure u o) := by
  let e : Dev := { d with rid := { d.rid with own := d.rid.own.put [u] o } }
  have he : d.SameStanding un e := ⟨rfl, rfl⟩
  suffices h : ∀ (us : List Nat) (e : Dev), e.SameStanding un (us.foldl (fun d a => d.announce a (d.lowest a)) e) from
    he.trans (h _ e)
  intro us
  induction us with
  | nil => exact Dev.SameStanding.refl
  | cons x us ih => exact fun e => (e.sameStanding_announce ..).trans (ih _)

/-- The loss of a flume tells on its lateral, and on its die, but not on the flume. -/
theorem Dev.sameStanding_unitLost_flume (d : Dev) (hc : classOf un = 0x11) : d.SameStanding un (d.unitLost un) := by
  obtain ⟨hlo, hhi⟩ := flume_range hc
  have hlat : un ≠ uLAT (latOfFlume un) := by simp only [uLAT, latOfFlume]; omega
  have hdie (e : Dev) (cause : Nat) : e.SameStanding un (e.dieFail un cause) := by
    have hne : un ≠ (if riderOf un = 8 then 1 else 2) := by split <;> omega
    unfold Dev.dieFail
    dsimp only
    generalize (if riderOf un = 8 then 1 else 2) = die at hne ⊢
    split
    · exact .refl e
    · exact e.sameStanding_failSelf cause hne
  have hgroup (e : Dev) : e.SameStanding un (e.groupLost un) := by
    simp only [Dev.groupLost, hc]
    split
    · exact (e.sameStanding_failSelf _ hlat).trans (hdie _ _)
    · exact .refl e
  simp only [Dev.unitLost, Dev.showGroup, hc]
  exact ((d.sameStanding_setFigure _ _).trans (Dev.noted_raise ..).sameStanding).trans (hgroup _)

/-! #### A flume's declaration -/

/-- What a rider notes of a unit that it declares. -/
def Dev.declaredWatch (d : Dev) (un inp hard : Nat) : Watch :=
  { state := .declared, inputs := inp ||| (if hard = 0 then 0 else 8), cause := hardCause hard, hardKind := hard, declaredAt := d.now
    turnSeq := ((d.turn un 0).map (·.seq)).getD 0, taker := d.spareOf un, firstSeq := ((d.inOrder un).map (fun k => k.latSeq)).headD 0
    lastSeq := (((d.inOrder un).map (fun k => k.latSeq)).getLast?).getD 0, awaiting := true }

/-- The declared unit is FAILED, and its rider's record of it stands. -/
def Dev.declaredFailed (d : Dev) (un inp hard : Nat) : Dev :=
  ((d.setWatch un (d.declaredWatch un inp hard)).setCarried un (some (d.streamOf un))).setSvc un sFAILED

/-- A declaration is counted and logged, and units that compared the stream start again. -/
def Dev.declarationTold (d : Dev) (un : Nat) (taker : Option Nat) : Dev :=
  (((d.bumpSat un UF_STATE.FAULT_COUNT).bump (riderOf un) RID_DECLARED.COUNT).logDecision 6 un 0).reshadow un taker

theorem Dev.declare_flume (d : Dev) (inp hard : Nat) (hc : classOf un = 0x11) : d.declare un inp hard =
    (let e := (d.declaredFailed un inp hard).declarationTold un (d.spareOf un)
     if (d.spareOf un).isSome then e else e.unitLost un) := by
  have hin : (un == 99 && d.flag 99 CRD_PAIR.STANDBY_SYNC) = false := by simp [show un ≠ 99 by have := flume_range hc; omega]
  simp only [Dev.declare, hin, hc, Bool.false_or, beq_self_eq_true, Bool.or_true, if_true, Bool.false_eq_true, if_false]
  rfl

theorem Dev.sameStanding_logDecision (d : Dev) (kind u detail : Nat) : d.SameStanding un (d.logDecision kind u detail) := by
  unfold Dev.logDecision Dev.writeDecision
  split
  · refine Dev.SameStanding.trans ?_ (Dev.noted_raise ..).sameStanding
    split
    · exact Dev.sameStanding_set { d with hdl := _ } 0 (f := HDL_STATUS.LOGGED) _ (by decide)
    · exact d.sameStanding_set 0 (f := HDL_STATUS.UNLOGGED) _ (by decide)
  · exact .refl d

theorem Dev.sameStanding_reshadow (d : Dev) (u : Nat) (taker : Option Nat) : d.SameStanding un (d.reshadow u taker) := ⟨rfl, rfl⟩

theorem Dev.sameStanding_declarationTold (d : Dev) (u : Nat) (taker : Option Nat) : d.SameStanding un (d.declarationTold u taker) := by
  have hcount : d.SameStanding un ((d.bumpSat u UF_STATE.FAULT_COUNT).bump (riderOf u) RID_DECLARED.COUNT) :=
    (d.sameStanding_set u (f := UF_STATE.FAULT_COUNT) _ (by decide)).trans
      (Dev.sameStanding_set _ (riderOf u) (f := RID_DECLARED.COUNT) _ (by decide))
  exact (hcount.trans (Dev.sameStanding_logDecision _ 6 u 0)).trans (Dev.sameStanding_reshadow ..)

theorem Dev.sameStanding_declare_flume (d : Dev) (inp hard : Nat) (hc : classOf un = 0x11) :
    (d.declaredFailed un inp hard).SameStanding un (d.declare un inp hard) := by
  have htold := (d.declaredFailed un inp hard).sameStanding_declarationTold (un := un) un (d.spareOf un)
  rw [d.declare_flume inp hard hc]
  dsimp only
  split
  · exact htold
  · exact htold.trans (Dev.sameStanding_unitLost_flume _ hc)

theorem Dev.declare_flume_reads (d : Dev) (inp hard : Nat) (hc : classOf un = 0x11) :
    (d.declare un inp hard).svc un = sFAILED ∧ (d.declare un inp hard).watchOf un = d.declaredWatch un inp hard := by
  obtain ⟨hsvc, hwatch⟩ := d.sameStanding_declare_flume inp hard hc
  refine ⟨hsvc.trans (Dev.svc_setSvc_self _ _ (by decide)), ?_⟩
  rw [Dev.watchOf, hwatch, Dev.declaredFailed, Dev.watch_setSvc]
  show (d.rid.watch.setD {} [un] (d.declaredWatch un inp hard)).getD {} [un] = _
  exact Tab.getD_setD_self ..

/-- No command waits under a flume. -/
theorem Dev.declareAny_flume (d : Dev) (inp hard : Nat) (hc : classOf un = 0x11) : d.declareAny un inp hard = d.declare un inp hard := by
  obtain ⟨hlo, hhi⟩ := flume_range hc
  have hne {u : Nat} (h : 51 < u) : un ≠ u := by omega
  have hcls {c : Nat} (h : 0x11 ≠ c) : classOf un ≠ c := by omega
  rw [Dev.declareAny, if_neg (hcls (by decide)), if_neg (hcls (by decide)), if_neg (hcls (by decide)), if_neg (hcls (by decide)),
    if_neg (hne (by decide))]
  dsimp only
  rw [Dev.abortWaiting, if_neg (hne (by decide)), if_neg (hne (by decide)), if_neg (hne (by decide)),
    if_neg fun x => hcls (by decide) x.1]

end

/-! ### Takeovers (R378-R382) -/

section
variable {d : Dev} {un t : Nat} {w : Watch}

theorem Dev.takeoverDone_eq (hw : d.watchOf un = w) (hs : w.state = .declared) (ha : w.awaiting = false) (ho : w.open_ = [])
    (ht : w.taker = some t) : d.takeoverDone un =
      (if classOf un = 0x11 then d.raise t 0x10 (leBytes 4 w.replayFirst ++ leBytes 2 w.replayed) else d).endDeclared un := by
  subst hw
  rw [Dev.takeoverDone, if_neg (by simp [hs, ha, ho])]
  simp only [ht]

/-- The entries of a failed flume go to its ACTIVE taker in order, but for those that cannot be read. -/
theorem Dev.replayTurnGrant_eq (hc : classOf un = 0x11) (hw : d.watchOf un = w) (hs : w.state = .declared) (ha : w.awaiting = true)
    (hg : d.guardPassed un = true) (ht : w.taker = some t) (htk : d.svc t = sACTIVE) (unreadable : List Nat) :
    d.replayTurnGrant un unreadable =
      (let held := d.inOrder un
       let bad := held.filter (fun k => unreadable.contains k.latSeq)
       let good := held.filter (fun k => !unreadable.contains k.latSeq)
       let seqs := good.map (fun k => k.latSeq)
       let e := held.foldl (fun d k => if k.committed then d.applyUpdates k.updates else d) d
       let e := bad.foldl (fun d k => d.discardEntry un k) e
       let e := e.setWatch un { w with
         awaiting := false, open_ := seqs, replayed := good.length, discarded := (bad.filter (fun k => !k.committed)).length
         replayFirst := seqs.headD 0 }
       let e := ((e.releaseTurn un).setWindow un []).showEpoch
       let e := ((e.grantTurn t un (some seqs)).add t FLM_REPLAYED.COUNT good.length).tally t 0x22 good.length
       (e.setWindow t (good.map Pkt.again ++ e.window t)).showEpoch) := by
  subst hw
  rw [Dev.replayTurnGrant, if_neg (by simp [hc, hs, ha, hg])]
  simp only [ht, htk, if_true, Option.isNone_some, Bool.false_or]

theorem Dev.editorTakeover_eq (hc : classOf un = 0x19) (hw : d.watchOf un = w) (hs : w.state = .declared) (ht : w.taker = some t)
    (hg : d.guardPassed un = true) (htk : d.svc t = sSPARE) : d.editorTakeover un =
      (let e := d.setWatch un { w with awaiting := false, replayed := d.heldForGroup (d.get un EDT_STATUS.PORT_GROUP) }
       let e := ((e.releaseTurn un).moveGroup un t).setSvc t sACTIVE
       let e := (e.setStream t (e.streamOf un)).grantTurn t 0 none
       ((e.showGroup t).endDeclared un).settlePorts (groupPorts (e.get t EDT_STATUS.PORT_GROUP))) := by
  subst hw
  simp only [Dev.editorTakeover, ht]
  exact if_neg (by simp [hc, hs, hg, htk])

theorem Dev.schedulerTakeover_eq {a b : Nat} (ha : d.activeSched = a) (hb : (if a = 97 then 98 else 97) = b) (hw : d.watchOf a = w)
    (hs : w.state = .declared) (ht : w.taker = some b) (hg : d.guardPassed a = true) (htk : d.svc b = sSPARE) (pause : Nat) :
    d.schedulerTakeover pause =
      (let e := ((d.setWatch a { w with awaiting := false }).set uSCH TMS_PAIR.ACTIVE_UN b).bump uSCH TMS_PAIR.TAKEOVERS
       let e := (e.set uSCH TMS_PAIR.STANDBY_SYNC 0).releaseTurn a
       let e := ((e.setSvc b sACTIVE).setStream b (e.streamOf a)).grantTurn b 0 none
       ((e.raise b 0x10 (leBytes 2 b ++ leBytes 4 pause)).endDeclared a).noStandby b a) := by
  subst ha hb hw
  exact if_neg (by simp [hs, ht, hg, htk])

end

/-! ### Rider copies (R370) -/

/-- What became of a copy that disagreed is raised: resynchronised (0), dropped (1) or the rider failed (2). -/
def Dev.copyRaised (d : Dev) (r copy outcome : Nat) : Dev := d.raise r 0x14 (leBytes 1 copy ++ leBytes 1 outcome)

section
variable {d : Dev} {r copy : Nat} (hc : classOf r = 0x05) (h3 : copy < 3) (hok : bit (d.get r RID_STATUS.COPIES_OK) copy = true)
  (hf : d.flag r RID_STATUS.FAILED = false)
include hc h3 hok hf

/-- A rider on two copies that disagree fails, and its die. -/
theorem Dev.riderCopy_duplex (hd : d.flag r RID_STATUS.DUPLEX = true) : d.riderCopy r copy =
    ((d.setFlag r RID_STATUS.FAILED true).dieFail (if r = 8 then 1 else 2) 0x0009).copyRaised r copy 2 := by
  rw [Dev.riderCopy, if_neg (by simp [hc, h3, hok, hf])]
  exact if_pos hd

theorem Dev.riderCopy_triplex (hd : d.flag r RID_STATUS.DUPLEX = false) : d.riderCopy r copy =
    match d.rid.resync.get? [r, copy] with
    | some t =>
      if d.now < t + 1000000000 then
        (((d.set r RID_STATUS.COPIES_OK (setBit (d.get r RID_STATUS.COPIES_OK) copy false)).setFlag r RID_STATUS.DUPLEX true).setFigure r
          (some 1000000)).copyRaised r copy 1
      else (d.noteResync r copy).copyRaised r copy 0
    | none => (d.noteResync r copy).copyRaised r copy 0 := by
  rw [Dev.riderCopy, if_neg (by simp [hc, h3, hok, hf])]
  exact if_neg (by simp [hd])

end

/-! ### The statement -/

/-- Settles O51: turns, suspects, takeovers and copies by their equations, a declaration by what a flume's loss leaves of its standing. -/
theorem ridersSuperviseUnits : Obligations.RidersSuperviseUnits := by
  refine ⟨fun s un hh hf => ⟨fun hs hw ht => Makes.intro rfl (Dev.turnGrant_active hh hf hs hw ht),
      fun f hs ho hc => Makes.intro rfl (Dev.turnGrant_spare hh hf hs ho hc)⟩,
    fun d un kind cover => fun hf => Dev.grantTurn_reads hf kind cover, fun d un kind t => Dev.renewTurn_reads,
    fun s un t ht hw hs hf hc => ?_, fun s un k t hk ht hl he => Makes.intro rfl (Dev.hostAfter_congr (Dev.turnLapsed_eq hk ht hl he)),
    fun s un q hw hq => ?_, fun d un => ⟨fun hs he => if_pos ⟨hs, he⟩, fun h => if_neg ?_⟩,
    fun s un hs he => Makes.intro rfl (if_pos ⟨hs, he⟩),
    fun s un k hw h1 h4 => Makes.intro rfl (Dev.hostAfter_congr (if_pos ⟨hw, h1, h4⟩)), fun d un inp hard hc => ?_,
    fun s un t hc hs ha hg ht htk unreadable => Makes.intro rfl (Dev.replayTurnGrant_eq hc rfl hs ha hg ht htk unreadable),
    fun s un t hs ha ho ht => Makes.intro rfl (Dev.takeoverDone_eq rfl hs ha ho ht),
    fun s un t hc hs ht hg htk => Makes.intro rfl (Dev.editorTakeover_eq hc rfl hs ht hg htk),
    fun s pause hs ht hg htk => Makes.intro rfl (Dev.schedulerTakeover_eq rfl rfl rfl hs ht hg htk pause),
    fun s r copy hc h3 hok hf => ?_⟩
  · have hm {e : Dev} (h : s.dev.turnRenewal un = e) : Makes (.turnRenewal un) s (s.dev.hostAfter fun _ => e) :=
      Makes.intro rfl (Dev.hostAfter_congr h)
    have heq := Dev.turnRenewal_eq ht hw hs hf hc
    exact ⟨fun hl => hm (heq.trans (if_neg (Nat.not_lt.2 hl))), fun hl => hm (heq.trans (if_pos hl))⟩
  · have hm {e : Dev} (h : s.dev.softAny un q = e) : Makes (.suspect un q) s (s.dev.hostAfter fun _ => e) :=
      Makes.intro rfl (Dev.hostAfter_congr h)
    have heq := Dev.softAny_eq hw hq
    refine ⟨fun hs => hm (heq.trans (if_pos hs)), fun hs hb => hm (heq.trans ?_), fun hs hb => hm (heq.trans ?_)⟩
    · exact (if_neg (by rw [hs]; decide)).trans (if_neg (by simp [hb]))
    · exact (if_neg (by rw [hs]; decide)).trans (if_pos hb)
  · exact fun ⟨hs, he⟩ => h.elim (· hs) (Nat.not_lt.2 he)
  · obtain ⟨hsvc, hwatch⟩ := d.declare_flume_reads inp hard hc
    exact ⟨d.declareAny_flume inp hard hc, hsvc, by rw [hwatch]; exact ⟨rfl, rfl, rfl, rfl⟩⟩
  · refine ⟨fun hd => Makes.intro rfl (Dev.riderCopy_duplex hc h3 hok hf hd), fun hd => ?_⟩
    have heq := Dev.riderCopy_triplex hc h3 hok hf hd
    refine ⟨fun t ht hl => Makes.intro rfl (heq.trans ?_), fun hl => Makes.intro rfl (heq.trans ?_)⟩
    · rw [ht]
      exact if_pos hl
    · cases ht : s.dev.rid.resync.get? [r, copy] with
      | none => rfl
      | some t => exact if_neg (Nat.not_lt.2 (hl t ht))

end Sys2Proof.Machine
end

section
/-! SUPPORT. Cells as bytes: what the fields of a cell that was written read back as. -/
namespace Sys2Proof.Machine
open Sys2Proof

/-! ### Fields of a byte list -/

theorem slice_append_of_le {xs : List Byte} {off n : Nat} (h : off + n ≤ xs.length) (ys : List Byte) :
    slice (xs ++ ys) off n = slice xs off n := by
  unfold slice
  dsimp only
  rw [List.drop_append_of_le_length (by omega), List.take_append_of_le_length (by rw [List.length_drop]; omega)]

theorem leAt_append_of_le {xs : List Byte} {off n : Nat} (h : off + n ≤ xs.length) (ys : List Byte) :
    leAt (xs ++ ys) off n = leAt xs off n := by rw [leAt, slice_append_of_le h, leAt]

theorem slice_append_right {xs : List Byte} {off n : Nat} (hx : xs.length = off) {ys : List Byte} (hy : ys.length = n) :
    slice (xs ++ ys) off n = ys := by
  unfold slice
  dsimp only
  rw [List.drop_left' hx, List.take_of_length_le (by omega), hy, Nat.sub_self, List.replicate_zero, List.append_nil]

theorem leAt_here (n v : Nat) (xs : List Byte) : leAt (leBytes n v ++ xs) 0 n = v % 256 ^ n := leAt_leBytes (xs := []) rfl xs n v

theorem leAt_only (n v : Nat) : leAt (leBytes n v) 0 n = v % 256 ^ n := by
  have h := leAt_here n v []
  rwa [List.append_nil] at h

theorem leAt_skip {k off : Nat} (h : k ≤ off) (v n : Nat) (xs : List Byte) : leAt (leBytes k v ++ xs) off n = leAt xs (off - k) n := by
  unfold leAt slice
  rw [List.drop_append, List.drop_of_length_le (by rw [leBytes_length]; exact h), leBytes_length, List.nil_append]

theorem bit_eq_of_div_mod {v i : Nat} {b : Bool} (h : v / 2 ^ i % 2 = b.toNat) : bit v i = b := by
  unfold bit
  rw [h]
  cases b <;> rfl

/-! ### The check value -/

theorem crcBit_lt {c : Nat} (h : c < 2 ^ 32) : crcBit c < 2 ^ 32 := by
  have hhalf : c / 2 < 2 ^ 32 := by omega
  unfold crcBit
  split
  · exact Nat.xor_lt_two_pow hhalf (by decide)
  · exact hhalf

theorem crcByte_lt {c : Nat} (h : c < 2 ^ 32) (b : Byte) : crcByte c b < 2 ^ 32 := by
  have hb : b.toNat < 2 ^ 32 := Nat.lt_trans b.isLt (by decide)
  unfold crcByte
  iterate 8 apply crcBit_lt
  exact Nat.xor_lt_two_pow h hb

theorem crc32cStd_lt (bs : List Byte) : crc32cStd bs < 2 ^ 32 := by
  suffices h : ∀ c < 2 ^ 32, bs.foldl crcByte c < 2 ^ 32 from Nat.xor_lt_two_pow (h _ (by decide)) (by decide)
  induction bs with
  | nil => exact fun c hc => hc
  | cons b bs ih => exact fun c hc => ih _ (crcByte_lt hc b)

/-! ### Cells (R304, R305) -/

section
variable (c : Cell) (lseq ack : Nat) (ackValid nak unseq : Bool)

/-- The first two words of a cell's header. -/
def Cell.word0 (c : Cell) : Nat := c.dest + c.cls * 2 ^ 10 + c.kind * 2 ^ 13
def Cell.word2 (c : Cell) : Nat := c.src + c.first.toNat * 2 ^ 10 + c.last.toNat * 2 ^ 11 + (c.payload.length / 32 - 1) * 2 ^ 12

/-- FLAGS of a cell. -/
def Cell.flags (c : Cell) (ackValid nak unseq : Bool) : Nat := ackValid.toNat + 2 * nak.toNat + 4 * unseq.toNat + 8 * c.resync.toNat

theorem cellHead_length : (cellHead c lseq ack ackValid nak unseq).length = 12 := by simp [cellHead, leBytes_length]

/-- The header of a cell, its fields from the left. -/
theorem cellHead_eq : cellHead c lseq ack ackValid nak unseq = leBytes 2 c.word0 ++ (leBytes 2 c.word2 ++ (leBytes 2 c.seq ++
    (leBytes 2 c.group ++ (leBytes 1 lseq ++ (leBytes 1 ack ++ (leBytes 1 (c.flags ackValid nak unseq) ++ leBytes 1 c.epoch)))))) := by
  simp only [cellHead, List.append_assoc]
  rfl

/-- A field of the header of a whole cell. -/
theorem leAt_cellBytes {off n : Nat} (h : off + n ≤ 12) :
    leAt (cellBytes c lseq ack ackValid nak unseq) off n = leAt (cellHead c lseq ack ackValid nak unseq) off n := by
  rw [cellBytes, List.append_assoc]
  exact leAt_append_of_le (by rw [cellHead_length]; exact h) _

/-- The fields of a cell's header. -/
theorem leAt_cellBytes_fields : let b := cellBytes c lseq ack ackValid nak unseq
    leAt b 0 2 = c.word0 % 65536 ∧ leAt b 2 2 = c.word2 % 65536 ∧ leAt b 4 2 = c.seq % 65536 ∧ leAt b 6 2 = c.group % 65536
    ∧ leAt b 8 1 = lseq % 256 ∧ leAt b 9 1 = ack % 256 ∧ leAt b 10 1 = c.flags ackValid nak unseq % 256 ∧ leAt b 11 1 = c.epoch % 256 := by
  simp [leAt_cellBytes, cellHead_eq, leAt_skip, leAt_here, leAt_only]

end

section
variable {c : Cell} {lseq ack : Nat} {ackValid nak unseq : Bool}

theorem cell_crc_reads : leAt (cellBytes c lseq ack ackValid nak unseq) 12 4
    = crc32cStd (cellHead c lseq ack ackValid nak unseq ++ c.payload) := by
  rw [cellBytes, List.append_assoc, leAt_leBytes (cellHead_length ..)]
  exact Nat.mod_eq_of_lt (crc32cStd_lt _)

theorem slice_cellBytes_head : slice (cellBytes c lseq ack ackValid nak unseq) 0 12 = cellHead c lseq ack ackValid nak unseq := by
  have hl := cellHead_length c lseq ack ackValid nak unseq
  rw [cellBytes, List.append_assoc, slice_append_of_le (by omega)]
  exact slice_append_right (xs := []) rfl hl

theorem slice_cellBytes_payload : slice (cellBytes c lseq ack ackValid nak unseq) 16 c.payload.length = c.payload :=
  slice_append_right (by rw [List.length_append, cellHead_length, leBytes_length]) rfl

/-- A cell whose fields fit their places (R304): a payload of one to eight slices. -/
def Cell.Fits (c : Cell) : Prop :=
  c.kind < 4 ∧ c.dest < 1024 ∧ c.cls < 8 ∧ c.src < 1024 ∧ c.seq < 65536 ∧ c.group < 65536 ∧ c.epoch < 256
  ∧ ∃ k, 1 ≤ k ∧ k ≤ 8 ∧ c.payload.length = 32 * k

theorem Cell.word0_fields (h : c.Fits) : let w := c.word0 % 65536
    bits w 14 13 = c.kind ∧ bits w 9 0 = c.dest ∧ bits w 12 10 = c.cls := by
  obtain ⟨hkind, hdest, hcls, -⟩ := h
  simp only [bits, Cell.word0]
  omega

theorem Cell.word2_fields (h : c.Fits) : let w := c.word2 % 65536
    bits w 9 0 = c.src ∧ bit w 10 = c.first ∧ bit w 11 = c.last ∧ 32 * (bits w 14 12 + 1) = c.payload.length := by
  obtain ⟨-, -, -, hsrc, -, -, -, k, hk, hk8, hlen⟩ := h
  have hf := c.first.toNat_lt
  have hl := c.last.toNat_lt
  simp only [bits, Cell.word2, hlen]
  refine ⟨by omega, bit_eq_of_div_mod (by omega), bit_eq_of_div_mod (by omega), by omega⟩

theorem Cell.flags_fields : let f := c.flags ackValid nak unseq % 256
    bit f 0 = ackValid ∧ bit f 1 = nak ∧ bit f 2 = unseq ∧ bit f 3 = c.resync ∧ (f % 4 == 3) = (ackValid && nak) := by
  cases ackValid <;> cases nak <;> cases unseq <;> cases hr : c.resync <;> simp [Cell.flags, hr, bit]

/-- A cell that fits reads back as it was written. -/
theorem readCell_cellBytes (h : c.Fits) : readCell (cellBytes c lseq ack ackValid nak unseq) = c := by
  obtain ⟨h0, h2, h4, h6, -, -, h10, h11⟩ := leAt_cellBytes_fields c lseq ack ackValid nak unseq
  obtain ⟨hkind, hdest, hcls⟩ := Cell.word0_fields h
  obtain ⟨hsrc, hfirst, hlast, hlen⟩ := Cell.word2_fields h
  obtain ⟨-, -, -, hresync, -⟩ := Cell.flags_fields (c := c) (ackValid := ackValid) (nak := nak) (unseq := unseq)
  obtain ⟨-, -, -, -, hseq, hgroup, hepoch, -⟩ := h
  simp only [readCell, h0, h2, h4, h6, h10, h11, hkind, hdest, hcls, hsrc, hfirst, hlast, hlen, hresync, slice_cellBytes_payload,
    Nat.mod_eq_of_lt hseq, Nat.mod_eq_of_lt hgroup, Nat.mod_eq_of_lt hepoch]

theorem cellCrcOk_cellBytes (h : c.Fits) : cellCrcOk (cellBytes c lseq ack ackValid nak unseq) = true := by
  rw [cellCrcOk, readCell_cellBytes h, cell_crc_reads, slice_cellBytes_head]
  exact beq_self_eq_true _

/-- What the link reads in a cell's header beside the cell itself: LSEQ, ACK_SEQ and FLAGS. -/
theorem cellBytes_link_fields (hl : lseq < 256) (ha : ack < 256) : let b := cellBytes c lseq ack ackValid nak unseq
    leAt b 8 1 = lseq ∧ leAt b 9 1 = ack ∧ bit (leAt b 10 1) 0 = ackValid ∧ isNak b = (ackValid && nak)
    ∧ bit (leAt b 10 1) 2 = unseq := by
  obtain ⟨-, -, -, -, h8, h9, h10, -⟩ := leAt_cellBytes_fields c lseq ack ackValid nak unseq
  obtain ⟨hack, -, huns, -, hnak⟩ := Cell.flags_fields (c := c) (ackValid := ackValid) (nak := nak) (unseq := unseq)
  simp only [isNak, h8, h9, h10, hack, huns, hnak, Nat.mod_eq_of_lt hl, Nat.mod_eq_of_lt ha, true_and]

/-! ### Control cells of a link (R307, R309, R310) -/

theorem Dev.linkCell_fits {d : Dev} (hd : d.deviceId < 1024) {p : List Byte} (hp : p.length = 32) : (d.linkCell p).Fits :=
  have hz {n : Nat} : 0 < n + 1 := Nat.succ_pos n
  ⟨show 2 < 4 by decide, hz, hz, hd, hz, hz, hz, 1, by decide, by decide, hp⟩

/-- A device's LINK_INIT reads as R307 lays it out. -/
theorem Dev.initBytes_reads {d : Dev} (hd : d.deviceId < 1024) : let c := readCell d.initBytes
    cellCrcOk d.initBytes = true ∧ c.kind = 2 ∧ c.ctl = 6 ∧ leAt c.payload 1 1 = 0 ∧ leAt c.payload 2 2 = d.deviceId
    ∧ leAt c.payload 4 1 = 1 ∧ bit (leAt d.initBytes 10 1) 0 = false ∧ bit (leAt d.initBytes 10 1) 2 = true := by
  have hfits := d.linkCell_fits hd (p := leBytes 1 6 ++ leBytes 1 0 ++ leBytes 2 d.deviceId ++ leBytes 1 1 ++ List.replicate 27 0)
    (by simp [leBytes_length])
  obtain ⟨-, -, hack, -, huns⟩ := cellBytes_link_fields (c := d.linkCell (leBytes 1 6 ++ leBytes 1 0 ++ leBytes 2 d.deviceId
    ++ leBytes 1 1 ++ List.replicate 27 0)) (lseq := 0) (ack := 0) (ackValid := false) (nak := false) (unseq := true) (by decide) (by decide)
  refine ⟨cellCrcOk_cellBytes hfits, ?_⟩
  rw [show readCell d.initBytes = _ from readCell_cellBytes hfits]
  refine ⟨rfl, ?_, ?_, ?_, ?_, hack, huns⟩ <;> simp [Cell.ctl, Dev.linkCell, leAt_skip, leAt_here]
  omega

/-- A LINK_ACK reads as R307 lays it out, with the LSEQ it acknowledges or, as a NAK, the one it asks for. -/
theorem Dev.ackBytes_reads {d : Dev} {n : Nat} (nak : Bool) (hd : d.deviceId < 1024) (hr : (d.fabLink n).rxSeq < 256) :
    let b := d.ackBytes n nak
    cellCrcOk b = true ∧ (readCell b).kind = 2 ∧ (readCell b).ctl = 5 ∧ isNak b = nak ∧ bit (leAt b 10 1) 0 = true
    ∧ bit (leAt b 10 1) 2 = true ∧ leAt b 9 1 = if nak then (d.fabLink n).rxSeq else ((d.fabLink n).rxSeq + 255) % 256 := by
  have hfits := d.linkCell_fits hd (p := leBytes 1 5 ++ List.replicate 31 0) (by simp [leBytes_length])
  have hack : (if nak then (d.fabLink n).rxSeq else (d.fabLink n).ackSeq) < 256 := by
    split
    · exact hr
    · exact Nat.mod_lt _ (by decide)
  obtain ⟨-, hseq, hvalid, hnak, huns⟩ := cellBytes_link_fields (c := d.linkCell (leBytes 1 5 ++ List.replicate 31 0)) (lseq := 0)
    (ackValid := true) (nak := nak) (unseq := true) (by decide) hack
  refine ⟨cellCrcOk_cellBytes hfits, ?_⟩
  rw [show readCell (d.ackBytes n nak) = _ from readCell_cellBytes hfits]
  refine ⟨rfl, ?_, hnak, hvalid, huns, hseq⟩
  simp [Cell.ctl, Dev.linkCell, leAt_here]

end
end Sys2Proof.Machine
end

section
/-! SUPPORT. Fabric links: what their operations leave of link states, vectors and contexts, and the statement about their machine. -/
namespace Sys2Proof.Machine
open Sys2Proof

/-! ### What most operations of the fabric leave -/

/-- The fields that say how a link stands: LINK_STATE, DOWN_CAUSE and VECTOR of links, and DEATH_MAX. -/
def standSpots : List (Nat × Nat) :=
  [(ZFP_LINK_STATUS.LINK_STATE.off, ZFP_LINK_STATUS.LINK_STATE.lo), (ZFP_LINK_STATUS.DOWN_CAUSE.off, ZFP_LINK_STATUS.DOWN_CAUSE.lo),
   (ZFP_LINK_REACH.VECTOR.off, ZFP_LINK_REACH.VECTOR.lo), (ZFP_DEV_CFG.DEATH_MAX.off, ZFP_DEV_CFG.DEATH_MAX.lo)]

/-- In `b` every link stands as it does in `a`. -/
structure Dev.SameStand (a b : Dev) : Prop where
  reads : ∀ (f : Fld) (un i : Nat), (f.off, f.lo) ∈ standSpots → b.fields.get? (f.key un i) = a.fields.get? (f.key un i)

section
variable {a b c d e : Dev} {un n i v : Nat} {f : Fld}

theorem Dev.SameStand.refl (d : Dev) : d.SameStand d := ⟨fun _ _ _ _ => rfl⟩

theorem Dev.SameStand.trans (h : a.SameStand b) (h' : b.SameStand c) : a.SameStand c :=
  ⟨fun f un i hf => (h'.reads f un i hf).trans (h.reads f un i hf)⟩

theorem Dev.SameStand.getI (h : a.SameStand b) (hf : (f.off, f.lo) ∈ standSpots) (un i : Nat) : b.getI un f i = a.getI un f i :=
  Dev.getI_congr (h.reads f un i hf)

theorem Dev.SameStand.linkSt (h : a.SameStand b) (n : Nat) : b.linkSt n = a.linkSt n := h.getI (by decide) _ _

theorem Dev.SameStand.downCause (h : a.SameStand b) (n : Nat) :
    b.get (uLNK n) ZFP_LINK_STATUS.DOWN_CAUSE = a.get (uLNK n) ZFP_LINK_STATUS.DOWN_CAUSE := h.getI (by decide) _ _

theorem Dev.SameStand.deathMax (h : a.SameStand b) : b.act uZFP ZFP_DEV_CFG.DEATH_MAX = a.act uZFP ZFP_DEV_CFG.DEATH_MAX :=
  congrArg ZFP_DEV_CFG.DEATH_MAX.rng.act (h.getI (by decide) uZFP 0)

theorem Dev.SameStand.of_fields (h : b.fields = a.fields) : a.SameStand b := ⟨fun f un i _ => by rw [h]⟩

theorem standSpots_not_noted : ∀ x ∈ standSpots, x ∉ noteSpots := by decide

theorem Dev.Noted.sameStand (h : a.Noted b) : a.SameStand b :=
  ⟨fun f un i hf => h.1 _ (noteKey_of f un i (standSpots_not_noted _ hf))⟩

theorem Dev.sameStand_setI (d : Dev) (un i v : Nat) (hf : (f.off, f.lo) ∉ standSpots) : d.SameStand (d.setI un f i v) :=
  ⟨fun _ _ _ hg => Dev.fields_setI_ne (Fld.key_ne (fun h => hf (h ▸ hg)) _ _ _ _)⟩

/-- A change that leaves registers but for one written. -/
theorem Dev.sameStand_put (hf : (f.off, f.lo) ∉ standSpots) (h : b.fields = (a.set un f v).fields) : a.SameStand b :=
  (a.sameStand_setI un 0 v hf).trans (.of_fields h)

theorem Dev.sameStand_set (d : Dev) (un v : Nat) (hf : (f.off, f.lo) ∉ standSpots) : d.SameStand (d.set un f v) :=
  d.sameStand_setI un 0 v hf

theorem Dev.sameStand_bump (d : Dev) (un : Nat) (hf : (f.off, f.lo) ∉ standSpots) : d.SameStand (d.bump un f) :=
  d.sameStand_setI un 0 _ hf

theorem Dev.sameStand_foldl {α : Type} {g : Dev → α → Dev} (hg : ∀ (d : Dev) x, d.SameStand (g d x)) (xs : List α) (d : Dev) :
    d.SameStand (xs.foldl g d) := by
  induction xs generalizing d with
  | nil => exact .refl d
  | cons x xs ih => exact (hg d x).trans (ih _)

theorem Dev.sameStand_setFabLink (d : Dev) (n : Nat) (x : FabLink) : d.SameStand (d.setFabLink n x) :=
  Dev.sameStand_put (un := uLNK n) (f := ZFP_LINK_STATUS.UNACKED) (v := x.held.length) (by decide) rfl

@[simp] theorem Dev.fabLink_setFabLink (d : Dev) (n : Nat) (x : FabLink) : (d.setFabLink n x).fabLink n = x := Tab.getD_setD_self ..

theorem Dev.fabLink_congr (h : b.fab.links = a.fab.links) (n : Nat) : b.fabLink n = a.fabLink n := by rw [Dev.fabLink, h, Dev.fabLink]

theorem Dev.Noted.fabLink (h : a.Noted b) (n : Nat) : b.fabLink n = a.fabLink n := Dev.fabLink_congr (congrArg FabState.links h.fab) n

/-! #### Sending -/

theorem Dev.sameStand_cellSent (d : Dev) (n : Nat) (bs : List Byte) : d.SameStand (d.cellSent n bs) :=
  ((d.sameStand_setFabLink n _).trans (Dev.sameStand_bump _ _ (by decide))).trans (Dev.noted_tally ..).sameStand

theorem Dev.sameStand_transmit (d : Dev) (n : Nat) (c : Cell) : d.SameStand (d.transmit n c) :=
  (d.sameStand_setFabLink n _).trans (Dev.sameStand_cellSent ..)

theorem Dev.sameStand_pump (k : Nat) (d : Dev) (n : Nat) : d.SameStand (Dev.pump k d n) := by
  induction k generalizing d with
  | zero => exact .refl d
  | succ k ih =>
    unfold Dev.pump
    dsimp only
    split
    · exact .refl d
    · split
      · exact .refl d
      · exact ((d.sameStand_setFabLink n _).trans (Dev.sameStand_transmit ..)).trans (ih _)

theorem Dev.sameStand_spray (d : Dev) (c : Cell) (ns : List Nat) : d.SameStand (d.spray c ns).1 := by
  unfold Dev.spray
  split
  · exact .refl d
  · rename_i n _
    let e : Dev := { d with fab := { d.fab with pointer := (d.fab.pointer + 1) % 160 } }
    have he : d.SameStand e := .of_fields rfl
    have hTally := he.trans (e.noted_tally uZFP (if c.kind < 2 then 0x20 else 0x21) 1).sameStand
    exact (hTally.trans (Dev.sameStand_setFabLink _ n _)).trans (Dev.sameStand_pump ..)

theorem Dev.sameStand_respray (d : Dev) (n : Nat) (cs : List Cell) : d.SameStand (d.respray n cs) := by
  refine Dev.sameStand_foldl (fun d c => ?_) cs d
  have hspray := d.sameStand_spray c (d.linksFor c (fun d g => (d.spraySet g).1))
  dsimp only
  split
  · exact hspray.trans (Dev.sameStand_bump _ _ (by decide))
  · exact (d.sameStand_bump uZFP (by decide)).trans (Dev.noted_raiseOnce ..).sameStand

/-! #### Failing -/

theorem Dev.sameStand_setSvc (d : Dev) (un new : Nat) : d.SameStand (d.setSvc un new) := by
  obtain ⟨e, he, -, hkeep⟩ := d.setSvc_raises un new
  refine Dev.SameStand.trans (b := e) ⟨fun f u i hf => hkeep _ fun hk => ?_⟩ (he ▸ (e.noted_raise ..).sameStand)
  have hspot : ∀ g ∈ [UF_STATE.SVC_STATE, UF_STATE.PREV_STATE, UF_STATE.SLEEP_STATE, SVC_STATUS.CORES_ACTIVE],
    (g.off, g.lo) ∉ standSpots := by decide
  have hne (g : Fld) (hg : g ∈ [UF_STATE.SVC_STATE, UF_STATE.PREV_STATE, UF_STATE.SLEEP_STATE, SVC_STATUS.CORES_ACTIVE]) (u' : Nat) :
      f.key u i ≠ g.key u' 0 := Fld.key_ne (fun h => hspot g hg (h ▸ hf)) _ _ _ _
  simp only [svcKeys, List.mem_cons, List.not_mem_nil, or_false] at hk
  obtain hk | hk | hk | hk := hk
  · exact hne _ (by simp) _ hk
  · exact hne _ (by simp) _ hk
  · exact hne _ (by simp) _ hk
  · exact hne _ (by simp) _ hk

theorem Dev.sameStand_ownFault (d : Dev) (un cause : Nat) : d.SameStand (d.ownFault un cause) := by
  unfold Dev.ownFault Dev.writeFault
  extract_lets no slot bytes dLogged
  have hLogged : d.SameStand dLogged := Dev.sameStand_put (f := UF_STATE.FAULT_COUNT) (by decide) rfl
  exact hLogged.trans (Dev.noted_raise ..).sameStand

theorem Dev.sameStand_failSelf (d : Dev) (un cause : Nat) : d.SameStand (d.failSelf un cause) := by
  have hfail : d.SameStand (if d.svc un = sFAILED then d else d.setSvc un sFAILED) := by
    split
    · exact .refl d
    · exact d.sameStand_setSvc ..
  have hretire (e : Dev) : e.SameStand (e.retireIfDue un) := by
    unfold Dev.retireIfDue
    split
    · exact e.sameStand_setSvc ..
    · exact .refl e
  unfold Dev.failSelf
  split
  · exact .refl d
  · exact (hfail.trans (Dev.sameStand_ownFault ..)).trans (hretire _)

theorem Dev.sameStand_logDecision (d : Dev) (kind un detail : Nat) : d.SameStand (d.logDecision kind un detail) := by
  unfold Dev.logDecision Dev.writeDecision
  split
  · refine Dev.SameStand.trans ?_ (Dev.noted_raise ..).sameStand
    split
    · exact Dev.sameStand_put (f := HDL_STATUS.LOGGED) (by decide) rfl
    · exact d.sameStand_bump (f := HDL_STATUS.UNLOGGED) 0 (by decide)
  · exact .refl d

end

/-! ### Showing what is reached -/

/-- Between `a` and `b` every link stands as before and keeps its context, a REACH timeout raised stays raised, and so does the device's
ID. -/
structure Dev.LinksKept (a b : Dev) : Prop where
  stand : a.SameStand b
  links : b.fab.links = a.fab.links
  keeps : ∀ n, a.KeepsRaised b (uLNK n) 0x14
  deviceId : b.deviceId = a.deviceId

section
variable {a b c : Dev} {f : Fld}

theorem Dev.LinksKept.refl (d : Dev) : d.LinksKept d := ⟨.refl d, rfl, fun _ => .refl .., rfl⟩

theorem Dev.LinksKept.trans (h : a.LinksKept b) (h' : b.LinksKept c) : a.LinksKept c :=
  ⟨h.stand.trans h'.stand, h'.links.trans h.links, fun n => (h.keeps n).trans (h'.keeps n), h'.deviceId.trans h.deviceId⟩

/-- Where the device's ID stands. -/
def idSpot : Nat × Nat := (ZFP_DEV_CFG.DEVICE_ID.off, ZFP_DEV_CFG.DEVICE_ID.lo)

theorem Dev.linksKept_set (d : Dev) (un v : Nat) (hf : (f.off, f.lo) ∉ idSpot :: standSpots) (hp : f.off ≠ UF_EVT_PEND.PEND.off) :
    d.LinksKept (d.set un f v) :=
  ⟨d.sameStand_set un v fun h => hf (.tail _ h), rfl, fun _ => d.keeps_setI un f 0 v hp,
    Dev.get_set_ne (Fld.key_ne (fun h => hf (h ▸ .head _)) _ _ _ _)⟩

/-- A change that leaves the registers, the event state and the links. -/
theorem Dev.LinksKept.of_eq (hf : b.fields = a.fields) (hn : b.now = a.now) (he : b.ev = a.ev) (hl : b.fab.links = a.fab.links) :
    a.LinksKept b :=
  have hget (un : Nat) (f : Fld) : b.get un f = a.get un f := Dev.getI_congr (by rw [hf])
  ⟨.of_fields hf, hl, fun _ => .of_eq hn (by rw [he]) (hget ..), hget ..⟩

theorem reachTimeout_own (n : Nat) : ownType (uLNK n) 0x14 = false := by simp [ownType]

/-- An event of another type. -/
theorem Dev.linksKept_raise (d : Dev) (un : Nat) {type : Nat} (p : List Byte) (h : type ≠ 0x14) : d.LinksKept (d.raise un type p) :=
  have hn := d.noted_raise un type p
  ⟨hn.sameStand, congrArg FabState.links hn.fab, fun n => d.keeps_raise p (fun e => h (Prod.ext_iff.1 e).2) (reachTimeout_own n) (by decide),
    hn.get (noteKey_of _ _ _ (by decide))⟩

theorem Dev.linksKept_foldl {α : Type} {g : Dev → α → Dev} (hg : ∀ (d : Dev) x, d.LinksKept (g d x)) (xs : List α) (d : Dev) :
    d.LinksKept (xs.foldl g d) := by
  induction xs generalizing d with
  | nil => exact .refl d
  | cons x xs ih => exact (hg d x).trans (ih _)

theorem Dev.linksKept_rid (d : Dev) (x : RidState) : d.LinksKept { d with rid := x } := .of_eq rfl rfl rfl rfl

theorem Dev.linksKept_setFigure (d : Dev) (un : Nat) (o : Option Nat) : d.LinksKept (d.setFigure un o) := by
  refine (d.linksKept_rid { d.rid with own := d.rid.own.put [un] o }).trans (Dev.linksKept_foldl (fun d a => ?_) _ _)
  unfold Dev.announce
  split
  · exact .refl d
  · exact ((d.linksKept_rid _).trans (Dev.linksKept_set _ a (f := UF_STATE.DEGRADED) _ (by decide) (by decide))).trans
      (Dev.linksKept_raise _ _ _ (by decide))

theorem Dev.linksKept_showCapacity (d : Dev) : d.LinksKept d.showCapacity := by
  unfold Dev.showCapacity
  extract_lets dUp dReached full m dDrawn ppm old dMin
  have hReached : d.LinksKept dReached :=
    (d.linksKept_set uZFP (f := ZFP_STATUS.LINKS_UP) _ (by decide) (by decide)).trans
      (dUp.linksKept_set uZFP (f := ZFP_STATUS.DEVICES_REACHED) _ (by decide) (by decide))
  have hDrawn : dReached.LinksKept dDrawn := by
    dsimp only [dDrawn]
    split
    · exact .of_eq rfl rfl rfl rfl
    · exact .refl _
  have hMin : d.LinksKept dMin := (hReached.trans hDrawn).trans (dDrawn.linksKept_set uZFP (f := ZFP_STATUS.MIN_REACH) m (by decide) (by decide))
  split
  · exact hMin
  · have hPpm := (hMin.trans (dMin.linksKept_set uZFP (f := ZFP_STATUS.CAPACITY_PPM) ppm (by decide) (by decide))).trans
      (Dev.linksKept_raise _ uZFP (type := 0x10) (leBytes 1 m ++ leBytes 4 ppm) (by decide))
    split
    · exact hPpm.trans (Dev.linksKept_raise _ _ _ (by decide))
    · exact hPpm.trans (Dev.linksKept_setFigure ..)

/-- Showing the reach and the capacity leaves every link as it stands. -/
theorem Dev.linksKept_showReach (d : Dev) (before : Nat) : d.LinksKept (d.showReach before) := by
  have hfab (e : Dev) (u : Nat) : e.LinksKept { e with fab := { e.fab with unreach := u } } :=
    .of_eq rfl rfl rfl rfl
  unfold Dev.showReach
  extract_lets now dShown
  refine Dev.LinksKept.trans (b := dShown) (Dev.linksKept_foldl (fun d x => ?_) _ _) (Dev.linksKept_showCapacity _)
  split
  · exact (hfab d _).trans (Dev.linksKept_raise _ _ _ (by decide))
  · split
    · exact (hfab d _).trans (Dev.linksKept_raise _ _ _ (by decide))
    · exact .refl d

end

/-! ### States of a link (R302, R303) -/

section
variable {d e : Dev} {n st cause : Nat} {g : FabLink → FabLink} {next : Dev → Dev}

theorem Dev.linkSt_enterLink (hst : st < 16) : (d.enterLink n st g).linkSt n = st := by
  refine (Dev.sameStand_setFabLink ..).linkSt n |>.trans ?_
  exact (Dev.get_set_self ..).trans (Nat.mod_eq_of_lt hst)

theorem Dev.fabLink_enterLink : (d.enterLink n st g).fabLink n = { g (d.fabLink n) with since := d.now } :=
  Dev.fabLink_setFabLink ..

theorem Dev.linkSt_set_cause (d : Dev) (n v : Nat) : (d.set (uLNK n) ZFP_LINK_STATUS.DOWN_CAUSE v).linkSt n = d.linkSt n :=
  Dev.get_set_ne (Fld.key_ne (by decide) _ _ _ _)

theorem Dev.downCause_set (d : Dev) (n : Nat) (h : cause < 16) :
    (d.set (uLNK n) ZFP_LINK_STATUS.DOWN_CAUSE cause).get (uLNK n) ZFP_LINK_STATUS.DOWN_CAUSE = cause :=
  (Dev.get_set_self ..).trans (Nat.mod_eq_of_lt h)

theorem Dev.downCause_enterLink : (d.enterLink n st g).get (uLNK n) ZFP_LINK_STATUS.DOWN_CAUSE
    = d.get (uLNK n) ZFP_LINK_STATUS.DOWN_CAUSE :=
  ((Dev.sameStand_setFabLink ..).downCause n).trans (Dev.get_set_ne (Fld.key_ne (by decide) _ _ _ _))

/-- Failed training: the state and the cause, and TRAIN_FAILED once per episode. -/
theorem Dev.linkFailed_reads (d : Dev) (n : Nat) (h : cause < 16) : let b := d.linkFailed n cause
    b.linkSt n = fFAILED ∧ b.get (uLNK n) ZFP_LINK_STATUS.DOWN_CAUSE = cause
    ∧ ((d.fabLink n).failedAt = none → b.hasRaised (uLNK n) 0x12 (leBytes 1 (d.fabLink n).attempt ++ leBytes 1 cause)) := by
  unfold Dev.linkFailed
  extract_lets x e b
  have hst : e.linkSt n = fFAILED := (Dev.linkSt_set_cause ..).trans (Dev.linkSt_enterLink (by decide))
  have hcause : e.get (uLNK n) ZFP_LINK_STATUS.DOWN_CAUSE = cause := Dev.downCause_set _ n h
  dsimp only [b]
  split
  · rename_i hf
    refine ⟨hst, hcause, fun hn => ?_⟩
    rw [show x.failedAt = none from hn] at hf
    cases hf
  · have hs := (e.noted_raise (uLNK n) 0x12 (leBytes 1 x.attempt ++ leBytes 1 cause)).sameStand
    exact ⟨(hs.linkSt n).trans hst, (hs.downCause n).trans hcause, fun _ => e.raise_raised _ _ _ (by simp [ownType]) (by decide)⟩

/-- A link that leaves UP for the last time is RETIRED; otherwise it stands as what follows leaves it, its cause shown before (R302, R312). -/
theorem Dev.leaveUp_stands (d : Dev) (n : Nat) (hc : cause < 16) (next : Dev → Dev) : let b := d.leaveUp n cause next
    let deaths := 1 + (recentDeaths d.now (d.fabLink n).deaths).length
    (deaths < d.act uZFP ZFP_DEV_CFG.DEATH_MAX →
      ∃ e : Dev, e.get (uLNK n) ZFP_LINK_STATUS.DOWN_CAUSE = cause ∧ (next e).SameStand b)
    ∧ (d.act uZFP ZFP_DEV_CFG.DEATH_MAX ≤ deaths → b.linkSt n = fRETIRED ∧ b.get (uLNK n) ZFP_LINK_STATUS.DOWN_CAUSE = 7) := by
  unfold Dev.leaveUp
  extract_lets before x cells deaths dEmptied dDown fab dCounted r0 dSprayed dead dRetired dTold dNext b count
  have hcounted : dDown.SameStand dCounted := Dev.sameStand_put (un := uLNK n) (f := ZFP_LINK_DOWN.COUNT) (by decide) rfl
  have hsprayed : dDown.SameStand dSprayed := hcounted.trans (dCounted.sameStand_respray n cells)
  have hmax : dSprayed.act uZFP ZFP_DEV_CFG.DEATH_MAX = d.act uZFP ZFP_DEV_CFG.DEATH_MAX := by
    have hdown : dDown.get uZFP ZFP_DEV_CFG.DEATH_MAX = dEmptied.get uZFP ZFP_DEV_CFG.DEATH_MAX :=
      (Dev.get_set_ne (Fld.key_ne (by decide) _ _ _ _)).trans (Dev.get_set_ne (Fld.key_ne (by decide) _ _ _ _))
    have hemptied : d.SameStand dEmptied := d.sameStand_setFabLink n _
    exact hsprayed.deathMax.trans ((congrArg ZFP_DEV_CFG.DEATH_MAX.rng.act hdown).trans hemptied.deathMax)
  have hlen : deaths.length = count := (List.length_cons ..).trans (Nat.add_comm ..)
  have htold : dRetired.SameStand dTold := (Dev.noted_raise ..).sameStand
  have hshown : dNext.SameStand b := (dNext.linksKept_showReach before).stand
  refine ⟨fun hlt => ⟨dTold, ?_, ?_⟩, fun hle => ?_⟩
  · have hdead : dead = false := decide_eq_false (by omega)
    have hret : dRetired = dSprayed := by simp only [dRetired, hdead, Bool.false_eq_true, if_false]
    exact (htold.downCause n).trans (by rw [hret, hsprayed.downCause, Dev.downCause_set _ _ hc])
  · have hdead : dead = false := decide_eq_false (by omega)
    have hnext : dNext = next dTold := by simp only [dNext, hdead, Bool.false_eq_true, if_false]
    exact hnext ▸ hshown
  · have hdead : dead = true := decide_eq_true (by omega)
    let dFinal := (dSprayed.enterLink n fRETIRED id).set (uLNK n) ZFP_LINK_STATUS.DOWN_CAUSE 7
    have hret : dFinal.SameStand dRetired := by
      simp only [dRetired, hdead, if_true]
      exact Dev.sameStand_failSelf ..
    have hnext : dTold.SameStand dNext := by
      simp only [dNext, hdead, if_true]
      exact ((Dev.noted_raise ..).sameStand.trans (Dev.sameStand_logDecision ..)).trans (Dev.noted_raise ..).sameStand
    have hall : dFinal.SameStand b := ((hret.trans htold).trans hnext).trans hshown
    exact ⟨(hall.linkSt n).trans ((Dev.linkSt_set_cause ..).trans (Dev.linkSt_enterLink (by decide))),
      (hall.downCause n).trans (Dev.downCause_set _ n (by decide))⟩

/-! ### REACH (R302, R314) -/

theorem ofLe_lt (bs : List Byte) : ofLe bs < 256 ^ bs.length := by
  induction bs with
  | nil => exact Nat.one_pos
  | cons b bs ih =>
    have hb := b.isLt
    rw [ofLe, List.length_cons, Nat.pow_succ]
    omega

theorem leAt_lt (bs : List Byte) (off n : Nat) : leAt bs off n < 256 ^ n := by
  have h := ofLe_lt (slice bs off n)
  have hl : (slice bs off n).length = n := by
    simp only [slice, List.length_append, List.length_replicate, List.length_take, List.length_drop]
    omega
  rwa [hl] at h

section
variable {f : Fld} {un : Nat} {w : Nat → Nat} {is : List Nat}

/-- Writing one field at many indices leaves every other field. -/
theorem Dev.fields_foldl_setI_index {k : Key} (h : ∀ i ∈ is, k ≠ f.key un i) (d : Dev) :
    (is.foldl (fun d i => d.setI un f i (w i)) d).fields.get? k = d.fields.get? k := by
  induction is generalizing d with
  | nil => rfl
  | cons i is ih => exact (ih (fun j hj => h j (.tail i hj)) _).trans (Dev.fields_setI_ne (h i (.head is)))

/-- Writing one field at many indices gives each its own value. -/
theorem Dev.getI_foldl_setI_index {i : Nat} (hi : i ∈ is) (d : Dev) :
    (is.foldl (fun d i => d.setI un f i (w i)) d).getI un f i = w i % 2 ^ f.width := by
  induction is generalizing d with
  | nil => exact absurd hi List.not_mem_nil
  | cons j is ih =>
    by_cases h : i ∈ is
    · exact ih h _
    · obtain rfl : i = j := (List.mem_cons.1 hi).resolve_right h
      have hne : ∀ j ∈ is, f.key un i ≠ f.key un j := fun j hj e => h ((Fld.key_eq_iff.1 e).2.2.2 ▸ hj)
      exact (Dev.getI_congr (Dev.fields_foldl_setI_index hne (d.setI un f i (w i)))).trans (Dev.getI_setI_self ..)

end

theorem Dev.FieldsOnly.fab (h : d.FieldsOnly e) : e.fab = d.fab := by rw [show e = { d with fields := e.fields } from h]
theorem Dev.FieldsOnly.now (h : d.FieldsOnly e) : e.now = d.now := by rw [show e = { d with fields := e.fields } from h]

/-- The vector of a REACH is written down for a link. -/
def Dev.vectorTaken (d : Dev) (n : Nat) (p : List Byte) : Dev :=
  (List.range 16).foldl (fun d i => d.setI (uLNK n) ZFP_LINK_REACH.VECTOR i (leAt p (0x20 + 8 * i) 8)) d

/-- The link's last REACH is now, and has not been lost since. -/
def Dev.reachNoted (d : Dev) (n : Nat) : Dev := d.setFabLink n { d.fabLink n with reachAt := d.now, reachLost := false, timedOut := false }

theorem Dev.fieldsOnly_vectorTaken (d : Dev) (n : Nat) (p : List Byte) : d.FieldsOnly (d.vectorTaken n p) := by
  unfold Dev.vectorTaken
  refine Dev.FieldsOnly.foldl (fun d i => ?_) _ (.refl d)
  rfl

theorem Dev.fabLink_vectorTaken (d : Dev) (n : Nat) (p : List Byte) : (d.vectorTaken n p).fabLink n = d.fabLink n :=
  Dev.fabLink_congr (congrArg FabState.links (d.fieldsOnly_vectorTaken n p).fab) n

theorem Dev.linkSt_vectorTaken (d : Dev) (n : Nat) (p : List Byte) : (d.vectorTaken n p).linkSt n = d.linkSt n :=
  Dev.getI_congr (Dev.fields_foldl_setI_index (fun _ _ => Fld.key_ne (by decide) _ _ _ _) d)

theorem Dev.vector_vectorTaken (d : Dev) (n : Nat) (p : List Byte) {q : Nat} (hq : q < 16) :
    (d.vectorTaken n p).getI (uLNK n) ZFP_LINK_REACH.VECTOR q = leAt p (0x20 + 8 * q) 8 :=
  (Dev.getI_foldl_setI_index (List.mem_range.2 hq) d).trans (Nat.mod_eq_of_lt (leAt_lt ..))

/-- A REACH that finds its link UP, or brings it UP, as `e`. -/
theorem Dev.takeReach_eq (he : (if d.linkSt n = fINIT ∧ (d.fabLink n).initSeen = true then d.linkUp n else d) = e)
    (hu : e.linkSt n = fUP) (p : List Byte) : d.takeReach n p =
      (if (d.fabLink n).timedOut = true then
        (((e.vectorTaken n p).reachNoted n).reachMoved n (d.linkDevices n)).raise (uLNK n) 0x14 (leBytes 1 0)
       else ((e.vectorTaken n p).reachNoted n).reachMoved n (d.linkDevices n)).showReach d.reached := by
  unfold Dev.takeReach
  dsimp only
  rw [he, if_neg (not_not_intro hu)]
  rfl

/-- What a REACH leaves of a link that is UP as it is taken. -/
theorem Dev.takeReach_reads (he : (if d.linkSt n = fINIT ∧ (d.fabLink n).initSeen = true then d.linkUp n else d) = e)
    (hu : e.linkSt n = fUP) (p : List Byte) : let b := d.takeReach n p
      b.linkSt n = fUP ∧ b.fabLink n = { e.fabLink n with reachAt := e.now, reachLost := false, timedOut := false }
      ∧ (∀ q < 16, b.getI (uLNK n) ZFP_LINK_REACH.VECTOR q = leAt p (0x20 + 8 * q) 8)
      ∧ ((d.fabLink n).timedOut = true → b.hasRaised (uLNK n) 0x14 (leBytes 1 0)) := by
  obtain ⟨x, hx⟩ : ∃ x, x = (e.vectorTaken n p).reachNoted n := ⟨_, rfl⟩
  obtain ⟨y, hy⟩ : ∃ y, y = x.reachMoved n (d.linkDevices n) := ⟨_, rfl⟩
  have hvec : (e.vectorTaken n p).SameStand x := hx ▸ Dev.sameStand_setFabLink ..
  have hmoved : x.SameStand y ∧ y.fab.links = x.fab.links := by
    rw [hy, Dev.reachMoved]
    split
    · exact ⟨.refl x, rfl⟩
    · exact ⟨.of_fields rfl, rfl⟩
  obtain ⟨z, hz, hyz, hraised⟩ : ∃ z : Dev, d.takeReach n p = z.showReach d.reached ∧ y.Noted z
      ∧ ((d.fabLink n).timedOut = true → z.hasRaised (uLNK n) 0x14 (leBytes 1 0)) := by
    rw [Dev.takeReach_eq he hu, ← hx, ← hy]
    split
    · exact ⟨_, rfl, Dev.noted_raise .., fun _ => Dev.raise_raised _ _ _ _ (reachTimeout_own n) (by decide)⟩
    · exact ⟨_, rfl, .refl y, fun h => absurd h ‹_›⟩
  obtain ⟨hshown, hlinks, hkeeps, -⟩ := z.linksKept_showReach d.reached
  rw [hz]
  have hall : x.SameStand (z.showReach d.reached) := (hmoved.1.trans hyz.sameStand).trans hshown
  have hfab : (z.showReach d.reached).fabLink n = x.fabLink n :=
    (Dev.fabLink_congr hlinks n).trans ((hyz.fabLink n).trans (Dev.fabLink_congr hmoved.2 n))
  refine ⟨?_, ?_, fun q hq => ?_, fun h => (hkeeps n).keep (hraised h)⟩
  · rw [hall.linkSt, hvec.linkSt, Dev.linkSt_vectorTaken, hu]
  · rw [hfab, hx, Dev.reachNoted, Dev.fabLink_setFabLink, Dev.fabLink_vectorTaken, (e.fieldsOnly_vectorTaken n p).now]
  · rw [hall.getI (by decide), hvec.getI (by decide), e.vector_vectorTaken n p hq]

/-- A link comes UP with both LSEQs at 0 (R302). -/
theorem Dev.linkUp_reads (d : Dev) (n : Nat) :
    (d.linkUp n).linkSt n = fUP ∧ ((d.linkUp n).fabLink n).txSeq = 0 ∧ ((d.linkUp n).fabLink n).rxSeq = 0 := by
  unfold Dev.linkUp
  extract_lets e r
  have hn : e.Noted (r.raise (uLNK n) 0x10 (leBytes 2 (r.get (uLNK n) ZFP_LINK_STATUS.PEER_ID))) :=
    (e.noted_rises _ _).trans (Dev.noted_raise ..)
  rw [hn.sameStand.linkSt, hn.fabLink, Dev.fabLink_enterLink]
  exact ⟨Dev.linkSt_enterLink (by decide), rfl, rfl⟩

end

/-! ### Cells that arrive (R307, R309, R310, R313) -/

section
variable {d e : Dev} {s : State} {n : Nat} {b : List Byte} {c : Cell} {unseq : Bool}

/-- A link counts a cell that it delivers. -/
def Dev.cellCounted (d : Dev) (n : Nat) : Dev := (d.bump (uLNK n) ZFP_CELLS_RX.COUNT).tally (uLNK n) 0x21 1

theorem Dev.sameStand_cellCounted (d : Dev) (n : Nat) : d.SameStand (d.cellCounted n) :=
  (d.sameStand_bump (uLNK n) (by decide)).trans (Dev.noted_tally ..).sameStand

/-- In INIT a link delivers every good cell. -/
theorem Dev.receiveCell_init (hn : n < 160) (hi : d.linkSt n = fINIT) (hc : cellCrcOk b = true) :
    d.receiveCell n b true = (d.cellCounted n).dispatchCell n (readCell b) (bit (leAt b 10 1) 2) := by
  have hup : (fINIT == fUP) = false := by decide
  unfold Dev.receiveCell Dev.linkReceive
  rw [if_neg (by rw [hi]; exact fun h => h.elim (by omega) fun h => h.2 rfl), if_neg (by simp [hc])]
  simp only [hi, hup, Bool.false_eq_true, false_and, if_false, not_false_eq_true, or_true, if_true]
  rfl

/-- How a control cell acts, by its KIND (R307). -/
def Dev.ctlAct (d : Dev) (n : Nat) (c : Cell) : Nat → Dev
  | 1 => d.ctrlStream c Dev.takeReq
  | 2 => d.ctrlStream c Dev.takeGrant
  | 3 => d.takeReach n c.payload
  | 4 => d.takePortState c
  | 6 => d.takeInit n c.payload
  | _ => d

/-- A control cell whose KIND is sent in its TYPE, at a link that takes it, acts. -/
theorem Dev.dispatchCell_ctl (hk : 2 ≤ c.kind) (hok : ctlOk c unseq = true) (hst : d.linkSt n = fUP ∨ c.ctl = 3 ∨ c.ctl = 6) :
    d.dispatchCell n c unseq = d.ctlAct n c c.ctl := by
  rw [Dev.dispatchCell, if_neg (by omega), if_neg (by simp [hok]), if_neg (by rintro ⟨h1, h2, h3⟩; exact hst.elim h1 fun h => h.elim h2 h3)]
  rfl

theorem Dev.dispatchCell_init (hk : c.kind = 2) (hc : c.ctl = 6) : d.dispatchCell n c true = d.takeInit n c.payload := by
  rw [Dev.dispatchCell_ctl (by omega) (by simp [ctlOk, hc, hk]) (.inr (.inr hc)), hc]
  rfl

theorem Dev.dispatchCell_reach (hk : c.kind = 2) (hc : c.ctl = 3) : d.dispatchCell n c false = d.takeReach n c.payload := by
  rw [Dev.dispatchCell_ctl (by omega) (by simp [ctlOk, hc, hk]) (.inr (.inl hc)), hc]
  rfl

theorem isCtl_eq {k : Nat} (hk : 2 ≤ (readCell b).kind) (hc : (readCell b).ctl = k) : isCtl k b = true := by simp [isCtl, hk, hc]

theorem Dev.receiveIf_true {p : List Byte → Bool} (h : p b = true) (ok : Bool) : d.receiveIf p n b ok = d.receiveCell n b ok := if_pos h

/-- A LINK_INIT of an element is noted, and one of a device fails training (R302). -/
theorem Dev.receive_linkInit (hn : n < 160) (hi : d.linkSt n = fINIT) (hc : cellCrcOk b = true) (hk : (readCell b).kind = 2)
    (h6 : (readCell b).ctl = 6) (hu : bit (leAt b 10 1) 2 = true) : d.receiveIf (isCtl 6) n b true =
      let e := d.cellCounted n
      let p := (readCell b).payload
      if leAt p 1 1 = 1 then (e.setFabLink n { e.fabLink n with initSeen := true }).set (uLNK n) ZFP_LINK_STATUS.PEER_ID (leAt p 2 2)
      else e.linkFailed n 6 := by
  rw [Dev.receiveIf_true (isCtl_eq (by omega) h6), Dev.receiveCell_init hn hi hc, hu, Dev.dispatchCell_init hk h6, Dev.takeInit]
  exact if_neg (not_not_intro (((d.sameStand_cellCounted n).linkSt n).trans hi))

end

/-! ### Administration, convergence and exits (R302, R393) -/

section
variable {d : Dev} {n cause t : Nat}

/-- ADMIN_UP of a link is written. -/
def Dev.adminSet (d : Dev) (n v : Nat) : Dev := d.set (uLNK n) ZFP_LINK_CFG.ADMIN_UP v

theorem Dev.linkSt_adminSet (d : Dev) (n v : Nat) : (d.adminSet n v).linkSt n = d.linkSt n :=
  (d.sameStand_set (uLNK n) v (by decide)).linkSt n

theorem Dev.fabAdminUp_eq (hn : n < 160) : d.fabAdminUp n =
    if d.linkSt n = fDISABLED ∧ d.flag uZFP ZFP_DEV_CFG.EN = true ∧ d.stopped (uLNK n) = false then (d.adminSet n 1).startLink n
    else d.adminSet n 1 := by
  have hadmin : (d.adminSet n 1).flag (uLNK n) ZFP_LINK_CFG.ADMIN_UP = true := Dev.flag_of_get (b := true) (Dev.get_set_self ..)
  have hen : (d.adminSet n 1).flag uZFP ZFP_DEV_CFG.EN = d.flag uZFP ZFP_DEV_CFG.EN :=
    Dev.flag_congr (Dev.fields_setI_ne (Fld.key_ne (by decide) _ _ _ _))
  have hstop : (d.adminSet n 1).stopped (uLNK n) = d.stopped (uLNK n) := by
    rw [Dev.stopped, Dev.adminSet, Dev.svc_set _ _ _ _ (by decide), Dev.stopped]
  rw [Dev.fabAdminUp, if_neg (by omega)]
  show (d.adminSet n 1).settleLink n = _
  simp only [Dev.settleLink, Dev.linkSt_adminSet, hadmin, hen, hstop, true_and, Bool.not_eq_true]

theorem Dev.fabAdminDown_eq (hn : n < 160) : d.fabAdminDown n = (d.adminSet n 0).releaseLink n := if_neg (by omega)

/-- A fault takes an UP link back to training with its cause, or, on its DEATH_MAX-th exit, out of service (R302). -/
theorem Dev.leaveUp_startLink_reads (d : Dev) (n : Nat) (hc : cause < 16) : let b := d.leaveUp n cause (fun d => d.startLink n)
    let deaths := 1 + (recentDeaths d.now (d.fabLink n).deaths).length
    (deaths < d.act uZFP ZFP_DEV_CFG.DEATH_MAX → b.linkSt n = fTRAINING ∧ b.get (uLNK n) ZFP_LINK_STATUS.DOWN_CAUSE = cause)
    ∧ (d.act uZFP ZFP_DEV_CFG.DEATH_MAX ≤ deaths → b.linkSt n = fRETIRED ∧ b.get (uLNK n) ZFP_LINK_STATUS.DOWN_CAUSE = 7) := by
  obtain ⟨hback, hretired⟩ := d.leaveUp_stands n hc (fun d => d.startLink n)
  refine ⟨fun hlt => ?_, hretired⟩
  obtain ⟨e, hcause, hs⟩ := hback hlt
  exact ⟨(hs.linkSt n).trans (Dev.linkSt_enterLink (by decide)), (hs.downCause n).trans (Dev.downCause_enterLink.trans hcause)⟩

theorem Dev.fabHeadlessRetire_eq (hn : n < 160) (ht : (d.fabLink n).failedAt = some t) (hh : d.flag 0 HDL_STATUS.HEADLESS = true)
    (hr : d.flag 0 HDL_CFG.FAB_RETIRE = true) (hf : d.linkSt n = fFAILED) (hl : t + 600000000000 ≤ d.now) :
    d.fabHeadlessRetire n =
      let e := (d.enterLink n fRETIRED id).set (uLNK n) ZFP_LINK_STATUS.DOWN_CAUSE 7
      (((e.failSelf (uLNK n) 0x0031).raise (uLNK n) 0x13 (leBytes 1 (e.deathsOf n))).logDecision 3 (uLNK n) 0).sparesExhausted uZFP
        (uLNK n) := by
  rw [Dev.fabHeadlessRetire, ht]
  exact if_pos ⟨hn, hh, hr, hf, hl⟩

end

/-! ### The statement -/

/-- Settles O47: the attempts and timers by their equations, a REACH and an exit from UP by what they leave of the link. -/
theorem fabricLinksFollowTheirMachine : Obligations.FabricLinksFollowTheirMachine := by
  refine ⟨fun s n hn => ⟨fun hd he hs => Makes.intro rfl ((Dev.fabAdminUp_eq hn).trans (if_pos ⟨hd, he, hs⟩)),
      fun h => Makes.intro rfl ((Dev.fabAdminUp_eq hn).trans (if_neg ?_)), fun hu => Makes.intro rfl ?_, fun hu hd => Makes.intro rfl ?_,
      fun hd => Makes.intro rfl ?_⟩,
    fun s n hn => ⟨fun hp => ⟨Makes.intro rfl (if_neg fun h => h.2.2 hp), Makes.intro rfl (if_neg fun h => h.2.2 hp)⟩,
      fun ht hp => Makes.intro rfl (if_pos ⟨hn, ht, by simp [hp]⟩), fun ha hp => Makes.intro rfl (if_pos ⟨hn, ha, by simp [hp]⟩),
      fun hi => Makes.intro rfl (if_pos ⟨hn, hi⟩)⟩,
    fun d hd => d.initBytes_reads hd, fun s n b hn hi hc hk => ⟨fun h6 hu => ⟨fun h1 => Makes.intro rfl ?_, fun h1 => Makes.intro rfl ?_⟩,
      fun h3 hu _ => Makes.intro rfl ?_⟩, fun d n p hn hi hs => ?_,
    fun s n hn hu hl ht => Makes.intro rfl (if_pos ⟨hn, hu, by simp [hl], ht⟩), fun d n p hn hu => ?_,
    fun s n hn hst ht => ⟨fun hl => Makes.intro rfl ((if_pos ⟨hn, hst, ht⟩).trans (if_pos hl)),
      fun hl => Makes.intro rfl ((if_pos ⟨hn, hst, ht⟩).trans (if_neg (Nat.not_lt.2 hl)))⟩,
    fun d n cause hc => d.linkFailed_reads n hc, fun s n hn hf ht => Makes.intro rfl (if_pos ⟨hn, hf, ht⟩),
    fun s n cause hn hu h2 h4 => ⟨Makes.intro rfl (if_pos ⟨hn, hu, h2, h4⟩), s.dev.leaveUp_startLink_reads n (by omega)⟩,
    fun s n t hn ht hh hr hf hl => Makes.intro rfl (Dev.fabHeadlessRetire_eq hn ht hh hr hf hl)⟩
  · rintro ⟨hd, he, hs⟩
    rcases h with h | h | h
    · exact h hd
    · exact Bool.false_ne_true (h.symm.trans he)
    · exact Bool.false_ne_true (hs.symm.trans h)
  · exact (Dev.fabAdminDown_eq hn).trans (if_pos ((Dev.linkSt_adminSet ..).trans hu))
  · rw [Dev.fabAdminDown_eq hn, Dev.releaseLink, Dev.linkSt_adminSet]
    exact (if_neg hu).trans (if_neg hd)
  · rw [Dev.fabAdminDown_eq hn, Dev.releaseLink, Dev.linkSt_adminSet]
    exact (if_neg (by rw [hd]; decide)).trans (if_pos hd)
  · exact (Dev.receive_linkInit hn hi hc hk h6 hu).trans (if_pos h1)
  · exact (Dev.receive_linkInit hn hi hc hk h6 hu).trans (if_neg h1)
  · exact (Dev.receiveIf_true (isCtl_eq (by omega) h3) true).trans
      ((Dev.receiveCell_init hn hi hc).trans (by rw [hu]; exact Dev.dispatchCell_reach hk h3))
  · have he : (if d.linkSt n = fINIT ∧ (d.fabLink n).initSeen = true then d.linkUp n else d) = d.linkUp n := if_pos ⟨hi, hs⟩
    obtain ⟨hup, htx, hrx⟩ := d.linkUp_reads n
    obtain ⟨hst, hlink, hvec, -⟩ := Dev.takeReach_reads he hup p
    exact ⟨hst, by rw [hlink]; exact htx, by rw [hlink]; exact hrx, hvec⟩
  · have he : (if d.linkSt n = fINIT ∧ (d.fabLink n).initSeen = true then d.linkUp n else d) = d :=
      if_neg fun h => absurd (hu.symm.trans h.1) (by decide)
    obtain ⟨-, hlink, -, hraised⟩ := Dev.takeReach_reads he hu p
    exact ⟨by rw [hlink], by rw [hlink], hraised⟩

end Sys2Proof.Machine
end

section
/-! SUPPORT. Cells between links, what the resequencer, reassembly and the turnout make of them, and the statement about them. -/
namespace Sys2Proof.Machine
open Sys2Proof

/-! ### Receiving while UP (R309, R310) -/

section
variable {d : Dev} {s : State} {n : Nat} {b : List Byte}

/-- The device once the acknowledgement that a cell carries has been taken. -/
def Dev.ackTaken (d : Dev) (n : Nat) (b : List Byte) : Dev :=
  if bit (leAt b 10 1) 0 = false then d
  else if bit (leAt b 10 1) 1 then d.takeNak n (leAt b 9 1) else d.takeAck n (leAt b 9 1) false

/-- A delivery makes an acknowledgement due. -/
def FabLink.ackOwed (x : FabLink) (now : Nat) : FabLink := { x with ackDue := some (x.ackDue.getD now) }

/-- The expected cell advances the numbering. -/
def FabLink.delivered (x : FabLink) (now : Nat) : FabLink := { x.ackOwed now with rxSeq := (x.rxSeq + 1) % 256, naked := false }

theorem Dev.linkReceive_up (hn : n < 160) (hu : d.linkSt n = fUP) (hc : cellCrcOk b = true) : d.linkReceive n b true =
    let e := d.ackTaken n b
    let x := e.fabLink n
    if e.linkSt n ≠ fUP then (e, none)
    else if bit (leAt b 10 1) 2 = true then (e.cellCounted n, some (readCell b))
    else if leAt b 8 1 = x.rxSeq then ((e.setFabLink n (x.delivered e.now)).cellCounted n, some (readCell b))
    else ((e.setFabLink n (x.ackOwed e.now)).bump (uLNK n) ZFP_OOS_DISCARD.COUNT, none) := by
  have hup : (d.linkSt n == fUP) = true := beq_iff_eq.2 hu
  have hack : (if bit (leAt b 10 1) 0 = true then
      (if bit (leAt b 10 1) 1 then d.takeNak n (leAt b 9 1) else d.takeAck n (leAt b 9 1) false) else d) = d.ackTaken n b := by
    cases h : bit (leAt b 10 1) 0 <;> simp [Dev.ackTaken, h]
  unfold Dev.linkReceive
  rw [if_neg fun h => h.elim (by omega) fun h => h.1 hu, if_neg (by simp [hc])]
  simp only [hup, true_and, hack, not_true_eq_false, or_false]
  rfl

theorem Dev.receiveCell_down (hn : n < 160) (hu : d.linkSt n = fUP) (hc : cellCrcOk b = true) (hd : (d.ackTaken n b).linkSt n ≠ fUP) :
    d.receiveCell n b true = d.ackTaken n b := by
  rw [Dev.receiveCell, Dev.linkReceive_up hn hu hc]
  dsimp only
  rw [if_pos hd]

theorem Dev.receiveCell_unsequenced (hn : n < 160) (hu : d.linkSt n = fUP) (hc : cellCrcOk b = true)
    (he : (d.ackTaken n b).linkSt n = fUP) (hs : bit (leAt b 10 1) 2 = true) :
    d.receiveCell n b true = ((d.ackTaken n b).cellCounted n).dispatchCell n (readCell b) (bit (leAt b 10 1) 2) := by
  rw [Dev.receiveCell, Dev.linkReceive_up hn hu hc]
  dsimp only
  rw [if_neg (not_not_intro he), if_pos hs]

theorem Dev.receiveCell_expected (hn : n < 160) (hu : d.linkSt n = fUP) (hc : cellCrcOk b = true)
    (he : (d.ackTaken n b).linkSt n = fUP) (hs : bit (leAt b 10 1) 2 = false) (hq : leAt b 8 1 = ((d.ackTaken n b).fabLink n).rxSeq) :
    d.receiveCell n b true = (((d.ackTaken n b).setFabLink n (((d.ackTaken n b).fabLink n).delivered (d.ackTaken n b).now)).cellCounted
      n).dispatchCell n (readCell b) (bit (leAt b 10 1) 2) := by
  rw [Dev.receiveCell, Dev.linkReceive_up hn hu hc]
  dsimp only
  rw [if_neg (not_not_intro he), if_neg (by simp [hs]), if_pos hq]

theorem Dev.receiveCell_outOfOrder (hn : n < 160) (hu : d.linkSt n = fUP) (hc : cellCrcOk b = true)
    (he : (d.ackTaken n b).linkSt n = fUP) (hs : bit (leAt b 10 1) 2 = false) (hq : leAt b 8 1 ≠ ((d.ackTaken n b).fabLink n).rxSeq) :
    d.receiveCell n b true = ((d.ackTaken n b).setFabLink n (((d.ackTaken n b).fabLink n).ackOwed (d.ackTaken n b).now)).bump (uLNK n)
      ZFP_OOS_DISCARD.COUNT := by
  rw [Dev.receiveCell, Dev.linkReceive_up hn hu hc]
  dsimp only
  rw [if_neg (not_not_intro he), if_neg (by simp [hs]), if_neg hq]

/-- A cell acts alike under both names that a cell with a NAK comes under. -/
theorem makes_cell {e : Dev} (h : s.dev.receiveCell n b true = e) :
    Makes (.cellReceived n b true) s e ∧ (isNak b = true → Makes (.nakRx n b true) s e) :=
  ⟨Makes.intro rfl h, fun hk => Makes.intro rfl ((Dev.receiveIf_true hk true).trans h)⟩

/-- A cell that the FEC could not correct is counted and draws one NAK (R310). -/
theorem Dev.receiveCell_damaged (hn : n < 160) (hu : d.linkSt n = fUP) (hk : (d.fabLink n).naked = false) :
    d.receiveCell n b false =
      let e := ((((d.bump (uLNK n) ZFP_FEC_UNCORR.COUNT).tallyUp (uLNK n) 0x07 1).setFabLink n
        { d.fabLink n with naked := true, ackDue := none }).bump (uLNK n) ZFP_NAK_TX.COUNT)
      (e.cellSent n (e.ackBytes n true)).tally uZFP 0x21 1 := by
  have hup : ((d.bump (uLNK n) ZFP_FEC_UNCORR.COUNT).tallyUp (uLNK n) 0x07 1).linkSt n = fUP :=
    (((d.sameStand_bump (uLNK n) (by decide)).trans (Dev.noted_tallyUp ..).sameStand).linkSt n).trans hu
  have hgo : ¬ ((d.fabLink n).naked = true ∨ ((d.bump (uLNK n) ZFP_FEC_UNCORR.COUNT).tallyUp (uLNK n) 0x07 1).linkSt n ≠ fUP) := by
    simp [hk, hup]
  have hr : d.linkReceive n b false = (d.damaged n false, none) := by
    rw [Dev.linkReceive, if_neg fun h => h.elim (by omega) fun h => h.1 hu, if_pos (.inl (by decide))]
  rw [Dev.receiveCell, hr]
  unfold Dev.damaged
  exact if_neg hgo

/-! ### Sending, acknowledgement and retry (R309-R311) -/

theorem Dev.fabLink_cellSent (d : Dev) (n : Nat) (bs : List Byte) : (d.cellSent n bs).fabLink n = { d.fabLink n with wire := bs } :=
  ((Dev.noted_tally ..).fabLink n).trans (Dev.fabLink_setFabLink ..)

/-- A cell sent carries the acknowledgement of the reverse direction, takes the next LSEQ and is held (R309). -/
theorem Dev.transmit_reads (d : Dev) (n : Nat) (c : Cell) : let x := d.fabLink n
    let y := (d.transmit n c).fabLink n
    y.wire = cellBytes c x.txSeq ((x.rxSeq + 255) % 256) true false false ∧ y.held = x.held ++ [⟨c, x.txSeq, 1, d.now⟩]
    ∧ y.txSeq = (x.txSeq + 1) % 256 := by
  simp only [Dev.transmit, Dev.fabLink_cellSent, Dev.fabLink_setFabLink, and_true]
  rfl

theorem acked_of_found {hs : List Held} {a q : Nat} (h : hs.findIdx? (fun h => h.lseq == a) = some q) (nxt : Nat) (nak : Bool) :
    acked hs a nxt nak = hs.drop (if nak then q else q + 1) := by rw [acked, h]

theorem acked_of_unknown {hs : List Held} {a : Nat} (h : hs.findIdx? (fun h => h.lseq == a) = none) (nxt : Nat) (nak : Bool) :
    acked hs a nxt nak = if nak = true ∧ a = nxt then [] else hs := by rw [acked, h]

/-- The device once a NAK has been counted, and what it acknowledges is let go. -/
def Dev.nakTaken (d : Dev) (n a : Nat) : Dev :=
  (d.bump (uLNK n) ZFP_NAK_RX.COUNT).setFabLink n { d.fabLink n with held := acked (d.fabLink n).held a (d.fabLink n).txSeq true }

theorem Dev.takeNak_all {a : Nat} (h : acked (d.fabLink n).held a (d.fabLink n).txSeq true = []) :
    d.takeNak n a = (d.nakTaken n a).pumpAll n := by
  unfold Dev.takeNak
  dsimp only
  split
  · rfl
  · rename_i hc
    exact absurd (h.symm.trans hc) (List.cons_ne_nil _ _).symm

theorem Dev.takeNak_held {a : Nat} {g : Held} {rest : List Held}
    (h : acked (d.fabLink n).held a (d.fabLink n).txSeq true = g :: rest) : d.takeNak n a =
      if (d.nakTaken n a).act uZFP ZFP_DEV_CFG.RETRY_MAX ≤ g.times then (d.nakTaken n a).leaveUp n 5 (fun d => d.startLink n)
      else ((d.nakTaken n a).resend n).pumpAll n := by
  unfold Dev.takeNak
  dsimp only
  split
  · rename_i hc
    exact absurd (hc.symm.trans h) (List.cons_ne_nil _ _).symm
  · rename_i hc
    obtain rfl := (List.cons.inj (hc.symm.trans h)).1
    rfl

theorem Dev.linkAckTx_due {t : Nat} (hn : n < 160) (hu : d.linkSt n = fUP) (hk : (d.fabLink n).ackDue = some t) (ht : t + 100 ≤ d.now) :
    d.linkAckTx n = ((d.setFabLink n { d.fabLink n with ackDue := none }).cellSent n (d.ackBytes n false)).tally uZFP 0x21 1 := by
  rw [Dev.linkAckTx, if_neg (by simp [hu]; omega), hk]
  exact if_neg (Nat.not_lt.2 ht)

theorem Dev.retryTimeout_due {h : Held} {rest : List Held} (hn : n < 160) (hu : d.linkSt n = fUP) (hh : (d.fabLink n).held = h :: rest)
    (ht : h.sent + d.act uZFP ZFP_DEV_CFG.RETRY_TIMEOUT_NS ≤ d.now) : d.retryTimeout n =
      if d.act uZFP ZFP_DEV_CFG.RETRY_MAX ≤ h.times then d.leaveUp n 5 (fun d => d.startLink n) else d.resend n := by
  rw [Dev.retryTimeout, if_neg (by simp [hu]; omega), hh]
  exact if_neg (Nat.not_lt.2 ht)

theorem Dev.held_resend (d : Dev) (n : Nat) :
    ((d.resend n).fabLink n).held = (d.fabLink n).held.map (fun h => { h with times := h.times + 1, sent := d.now }) := by
  unfold Dev.resend
  extract_lets x k last e
  have hn := ((e.add (uLNK n) ZFP_RETRY_CELLS.COUNT k).add (uLNK n) ZFP_CELLS_TX.COUNT k).noted_tally (uLNK n) 0x22 k
  rw [(hn.trans (Dev.noted_tally ..)).fabLink]
  exact congrArg FabLink.held (Dev.fabLink_setFabLink ..)

end

/-! ### Resequencing and reassembly (R325-R329) -/

section
variable {d : Dev} {src cls : Nat}

theorem Dev.reseqTimeout_due {l : HeldCell} (hl : (d.ctx src cls).lowest = some l)
    (ht : ∃ h ∈ (d.ctx src cls).held, h.at_ + d.act uRSQ RSQ_CFG.TIMEOUT_US * 1000 ≤ d.now) :
    d.reseqTimeout src cls = d.declareGap src cls l.cell.seq := by
  rw [Dev.reseqTimeout, hl]
  exact if_pos (by simpa using ht)

theorem Dev.mcHoldExpire_part {r : List HeldCell} (hr : (d.heldRuns src cls).find? d.runExpired = some r) (hw : runWhole r = false) :
    d.mcHoldExpire src cls = d.discardRuns src cls [r] := by
  rw [Dev.mcHoldExpire, hr]
  exact if_neg (by simp [hw])

/-- A whole run whose hold has run out, held alone, is released, and what now stands at NEXT follows. -/
theorem Dev.mcHoldExpire_whole {r : List HeldCell} (hr : (d.heldRuns src cls).find? d.runExpired = some r) (hw : runWhole r = true)
    (ha : d.heldRuns src cls = [r]) : d.mcHoldExpire src cls =
      let e := (d.releaseRuns src cls [r]).discardRuns src cls []
      let e := e.setMctx src cls { e.mctx src cls with next := (runEnd r + 1) % 65536 }
      e.settleMc (e.mctx src cls).held.length src cls := by
  unfold Dev.mcHoldExpire
  dsimp only
  rw [hr]
  dsimp only
  rw [if_pos hw, ha]
  simp [hw]

theorem Dev.reassembly_whole {mc gap : Bool} {c : Cell} {rest left : List (Cell × Bool)} {cells : List Cell}
    (ho : (d.anyCtx src cls mc).out = (c, gap) :: rest) (hf : c.first = true) (ht : takeFirst c rest = .whole cells left) :
    d.reassembly src cls mc = (d.setAnyCtx src cls mc { d.anyCtx src cls mc with out := left, skip := false, cutTo := none }).deliver
      (if mc then some c.group else none) (cells.map (fun c => c.payload)).flatten := by
  rw [Dev.reassembly, Dev.assemble]
  dsimp only
  rw [ho]
  dsimp only
  rw [if_pos hf, ht]

/-! ### The turnout (R332, R333) -/

/-- The device once the turnout has read what it replicates the oldest packet by. -/
def Dev.turnoutRead (d : Dev) (g : Nat) (rest : List TurnPkt) : Dev :=
  (d.turnoutReads g).foldl (fun (d : Dev) a => d.access true a 1) { d with fab := { d.fab with turnout := rest } }

/-- Members of an egress group, and those that can take a copy. -/
def Dev.membersOf (d : Dev) (x : EgrGroup) : List Nat := (List.range x.count).map (fun q => d.fab.slots.getD 0 [x.base + q])

theorem Dev.turnoutReplicate_eq {p : TurnPkt} {rest : List TurnPkt} (hp : d.fab.turnout = p :: rest) (err : Bool) :
    d.turnoutReplicate err =
      let e := d.turnoutRead p.group rest
      let g := e.mcGroup p.group
      let x := e.egrGroup g.egr
      let all := e.membersOf x
      let up := all.filter e.memberUp
      let able := up.take refMax
      if ¬ g.egrValid = true then (e.bump uTRN TRN_NO_GROUP.COUNT).dropRef p.handle
      else if (err || (d.turnoutReads p.group).any (d.sideBad true)) = true then (e.missCopies g.egr 4 x.count).dropRef p.handle
      else able.foldl (Dev.turnCopy p.desc p.handle)
        (((e.missCopies g.egr 2 (all.length - up.length)).missCopies g.egr 3 (up.length - able.length)).setUses p.handle able.length) := by
  rw [Dev.turnoutReplicate, hp]
  rfl

end

/-! ### The statement -/

/-- Settles O48: a cell by its fields, a received one by where it stands in the numbering, the timers and the turnout by their equations. -/
theorem cellsAndPacketsAreRebuilt : Obligations.CellsAndPacketsAreRebuilt := by
  refine ⟨fun c lseq ack ackValid nak unseq hkind hdest hcls hsrc hseq hgroup hepoch hl ha hp => ?_,
    fun s n b hn hu hc => ⟨fun he => makes_cell (Dev.receiveCell_down hn hu hc he),
      fun he hs => makes_cell (Dev.receiveCell_unsequenced hn hu hc he hs),
      fun he hs hq => makes_cell (Dev.receiveCell_expected hn hu hc he hs hq),
      fun he hs hq => makes_cell (Dev.receiveCell_outOfOrder hn hu hc he hs hq)⟩,
    fun s n b hn hu hk => Makes.intro rfl (Dev.receiveCell_damaged hn hu hk), fun d n nak hd hr => Dev.ackBytes_reads nak hd hr,
    fun d n c => d.transmit_reads n c,
    fun d n a => ⟨Dev.takeNak_all, fun h rest hh => ⟨fun hm => (Dev.takeNak_held hh).trans (if_pos hm),
      fun hm => (Dev.takeNak_held hh).trans (if_neg (Nat.not_le.2 hm))⟩⟩,
    fun hs a nxt q h => ⟨acked_of_found h nxt true, acked_of_found h nxt false⟩,
    fun hs a nxt h => ⟨(acked_of_unknown h nxt false).trans (if_neg (by simp)), (acked_of_unknown h nxt true).trans (by simp)⟩,
    fun s n t hn hu hk ht => Makes.intro rfl (Dev.linkAckTx_due hn hu hk ht), fun s n h rest hn hu hh ht => ?_,
    fun s src cls l hl ht => Makes.intro rfl (Dev.reseqTimeout_due hl ht),
    fun s src cls r hr => ⟨fun hw => Makes.intro rfl (Dev.mcHoldExpire_part hr hw),
      fun hw ha => Makes.intro rfl (Dev.mcHoldExpire_whole hr hw ha)⟩,
    fun s src cls mc gap c rest left cells ho hf ht => Makes.intro rfl (Dev.reassembly_whole ho hf ht), fun s p rest hp => ?_⟩
  · have hfits : c.Fits := ⟨hkind, hdest, hcls, hsrc, hseq, hgroup, hepoch, hp⟩
    exact ⟨readCell_cellBytes hfits, cellCrcOk_cellBytes hfits, cellBytes_link_fields hl ha⟩
  · have heq := Dev.retryTimeout_due hn hu hh ht
    exact ⟨fun hm => ⟨Makes.intro rfl (heq.trans (if_neg (Nat.not_le.2 hm))), (s.dev.held_resend n).trans (by rw [hh])⟩,
      fun hm => Makes.intro rfl (heq.trans (if_pos hm))⟩
  · have heq := Dev.turnoutReplicate_eq hp
    refine ⟨fun hg e => Makes.intro rfl ((heq e).trans (if_pos (Bool.eq_false_iff.1 hg))),
      fun hg e he => Makes.intro rfl ((heq e).trans ((if_neg (not_not_intro hg)).trans (if_pos ?_))),
      fun hg hr => Makes.intro rfl ((heq false).trans ((if_neg (not_not_intro hg)).trans (if_neg ?_)))⟩
    · simpa using he
    · simp only [Bool.false_or, Bool.not_eq_true]
      exact hr

end Sys2Proof.Machine
end

section
/-! SUPPORT. Credit, port states, what leaves the VOQs, and the commands of groups and reach, with the statement about them. -/
namespace Sys2Proof.Machine
open Sys2Proof

/-! ### What work on queues and buffers leaves -/

/-- Between `a` and `b` the fabric's state and the device's ID stay. -/
structure Dev.FabKept (a b : Dev) : Prop where
  fab : b.fab = a.fab
  deviceId : b.deviceId = a.deviceId

section
variable {a b c d : Dev} {un i v n : Nat} {f : Fld}

theorem Dev.FabKept.refl (d : Dev) : d.FabKept d := ⟨rfl, rfl⟩

theorem Dev.FabKept.trans (h : a.FabKept b) (h' : b.FabKept c) : a.FabKept c := ⟨h'.fab.trans h.fab, h'.deviceId.trans h.deviceId⟩

theorem Dev.Noted.fabKept (h : a.Noted b) : a.FabKept b := ⟨h.fab, h.get (noteKey_of _ _ _ (by decide))⟩

/-- A change that leaves the fabric's state and the registers. -/
theorem Dev.FabKept.of_fields (hf : b.fields = a.fields) (h : b.fab = a.fab) : a.FabKept b := ⟨h, Dev.getI_congr (by rw [hf])⟩

/-- A field of another unit than the fabric interface is written. -/
theorem Dev.fabKept_setI (d : Dev) (f : Fld) (i v : Nat) (hu : uZFP ≠ un) : d.FabKept (d.setI un f i v) :=
  ⟨rfl, Dev.getI_setI_ne fun e => hu (Fld.key_eq_iff.1 e).1⟩

theorem Dev.fabKept_tm (d : Dev) (x : TmState) : d.FabKept { d with tm := x } := .of_fields rfl rfl

theorem Dev.fabKept_foldl {α : Type} {g : Dev → α → Dev} (hg : ∀ (d : Dev) x, d.FabKept (g d x)) (xs : List α) (d : Dev) :
    d.FabKept (xs.foldl g d) := by
  induction xs generalizing d with
  | nil => exact .refl d
  | cons x xs ih => exact (hg d x).trans (ih _)

theorem Dev.fabKept_setFree (d : Dev) (p n : Nat) : d.FabKept (d.setFree p n) := by
  unfold Dev.setFree
  extract_lets dFree dLow below
  have hLow : d.FabKept dLow := by
    have hFree : d.FabKept dFree := d.fabKept_setI _ _ _ (by decide)
    dsimp only [dLow]
    split
    · exact hFree.trans (Dev.fabKept_setI _ _ _ _ (by decide))
    · exact hFree
  split
  · split
    · exact (hLow.trans (dLow.fabKept_tm _)).trans (Dev.noted_raise ..).fabKept
    · exact hLow
  · exact hLow

theorem Dev.fabKept_giveBack (d : Dev) (p : Nat) : d.FabKept (d.giveBack p) := by
  unfold Dev.giveBack
  dsimp only
  split
  · exact (d.fabKept_setI _ _ _ (by decide)).trans (Dev.fabKept_setFree ..)
  · exact .refl d

theorem Dev.fabKept_linkFree (d : Dev) (p b : Nat) : d.FabKept (d.linkFree p b) := by
  unfold Dev.linkFree
  split
  · exact .refl d
  · exact d.fabKept_tm _

theorem Dev.fabKept_releaseBuf (d : Dev) (p b req : Nat) : d.FabKept (d.releaseBuf p b req) := by
  unfold Dev.releaseBuf
  extract_lets tm dOut dUsed dFreed
  have hUsed : d.FabKept dUsed := (d.fabKept_tm _).trans (Dev.fabKept_setI _ _ _ _ (by decide))
  have hFreed : dUsed.FabKept dFreed := by
    dsimp only [dFreed]
    split
    · exact .refl dUsed
    · exact (dUsed.fabKept_linkFree p b).trans (Dev.fabKept_setFree ..)
  exact ((hUsed.trans hFreed).trans (dFreed.fabKept_giveBack p)).trans (Dev.noted_tallyQ ..).fabKept

theorem Dev.fabKept_freeChain (bs : List (Nat × Nat)) (d : Dev) (req : Nat) : d.FabKept (Dev.freeChain bs d req) := by
  induction bs generalizing d with
  | nil => exact .refl d
  | cons x bs ih =>
    obtain ⟨p, b⟩ := x
    have hrefused (f : Fld) (ty : Nat) (q : List Byte) :
        d.FabKept (((d.bump uBPM f).tallyQ uBPM 0x24 1 (selPool p)).raise uBPM ty q) :=
      ((d.fabKept_setI f 0 _ (by decide)).trans (Dev.noted_tallyQ ..).fabKept).trans (Dev.noted_raise ..).fabKept
    unfold Dev.freeChain
    split
    · exact hrefused ..
    · split
      · exact (d.fabKept_releaseBuf p b req).trans (ih _)
      · exact hrefused ..

theorem Dev.fabKept_setQueue (d : Dev) (r : QRef) (q : Queue) : d.FabKept (d.setQueue r q) := by
  cases r <;> exact .of_fields rfl rfl

theorem Dev.fabKept_settleBalance (d : Dev) (r : QRef) : d.FabKept (d.settleBalance r) := by
  unfold Dev.settleBalance
  split
  · exact .refl d
  · dsimp only
    split
    · exact (d.fabKept_setQueue _ _).trans ⟨rfl, Dev.getI_setI_ne (Fld.key_ne (by decide) _ _ _ _)⟩
    · exact .refl d

theorem Dev.fabKept_trimSpill (n : Nat) (d : Dev) (r : QRef) : d.FabKept (Dev.trimSpill n d r) := by
  induction n generalizing d with
  | zero => exact .refl d
  | succ n ih =>
    unfold Dev.trimSpill
    extract_lets q lim
    split
    · exact .refl d
    · split
      · exact ((d.fabKept_setQueue _ _).trans (Dev.fabKept_freeChain ..)).trans (ih _)
      · exact .refl d

theorem Dev.fabKept_settleSpill (d : Dev) (r : QRef) : d.FabKept (d.settleSpill r) := by
  unfold Dev.settleSpill
  extract_lets dBalanced dTrimmed q
  have hTrimmed : d.FabKept dTrimmed := (d.fabKept_settleBalance r).trans (Dev.fabKept_trimSpill _ dBalanced r)
  split
  · exact (hTrimmed.trans (Dev.fabKept_setQueue ..)).trans (Dev.fabKept_freeChain ..)
  · exact hTrimmed

theorem Dev.fabKept_markShared (d : Dev) (bufs : List (Nat × Nat)) (shared : Bool) : d.FabKept (d.markShared bufs shared) := by
  refine Dev.fabKept_foldl (fun d b => ?_) bufs d
  dsimp only
  split
  · split
    · exact .refl d
    · exact d.fabKept_tm _
  · exact .refl d

theorem Dev.fabKept_dropRef (d : Dev) (h : Nat) : d.FabKept (d.dropRef h) := by
  unfold Dev.dropRef
  split
  · exact .refl d
  · split
    · exact (d.fabKept_tm _).trans (Dev.fabKept_freeChain ..)
    · exact (d.fabKept_tm _).trans (Dev.fabKept_markShared ..)

theorem Dev.fabKept_dropLoc (d : Dev) (l : Loc) : d.FabKept (d.dropLoc l) := by
  cases l with
  | cells h => exact d.fabKept_dropRef h
  | spill bs => exact .refl d

theorem Dev.fabKept_popHead (d : Dev) (r : QRef) : d.FabKept (d.popHead r) := by
  unfold Dev.popHead
  dsimp only
  split
  · exact .refl d
  · exact (d.fabKept_setQueue _ _).trans (Dev.fabKept_settleSpill ..)

theorem Dev.fabKept_countDrop (d : Dev) (r : QRef) (cause : Nat) : d.FabKept (d.countDrop r cause) := by
  unfold Dev.countDrop
  extract_lets dCounted dTallied
  have hTallied : d.FabKept dTallied := by
    refine Dev.FabKept.trans (b := dCounted) ?_ (Dev.noted_tallySel ..).fabKept
    dsimp only [dCounted]
    split <;> exact d.fabKept_setI _ _ _ (by decide)
  split
  · exact hTallied.trans (Dev.noted_raiseOnce ..).fabKept
  · exact hTallied

theorem Dev.fabKept_flushN (n : Nat) (d : Dev) (r : QRef) (cause : Nat) : d.FabKept (d.flushN n r cause) := by
  induction n generalizing d with
  | zero => exact .refl d
  | succ n ih =>
    refine Dev.FabKept.trans (b := d.dropHead r cause) ?_ (ih _)
    unfold Dev.dropHead
    dsimp only
    split
    · exact .refl d
    · exact (((d.fabKept_setQueue _ _).trans (Dev.fabKept_countDrop ..)).trans (Dev.fabKept_dropLoc ..)).trans (Dev.fabKept_settleSpill ..)

theorem Dev.fabKept_closeVoq (d : Dev) (n : Nat) : d.FabKept (d.closeVoq n) :=
  Dev.FabKept.trans (b := d.flushQueue (.voq n) 9) (d.fabKept_flushN _ _ _)
    ((d.flushQueue (.voq n) 9).fabKept_setQueue (.voq n) { (d.flushQueue (.voq n) 9).queue (.voq n) with credit := 0 })

/-- Noting that devices are sent to leaves the device's ID. -/
theorem Dev.deviceId_noteUse (d : Dev) (xs : List Nat) : (d.noteUse xs).deviceId = d.deviceId := by
  unfold Dev.noteUse
  dsimp only
  split
  · rfl
  · exact (Dev.linksKept_showCapacity _).deviceId

end

/-! ### Credit asked for and granted (R315, R316, R320-R322) -/

section
variable {d : Dev} {n p cls : Nat}

theorem Dev.creditReqTx_eq {dev : Nat} (hr : d.ctrlReaches dev = true) : d.creditReqTx dev =
    let asked := (d.fab.wants.filter (fun e => e.1.headD 0 / 1024 == dev)).map (fun e => e.1.headD 0)
    let ns := d.voqsOf dev ++ asked.filter (fun n => !(d.voqsOf dev).contains n)
    let due := (ns.filterMap (fun n => (d.entryDue n).map (fun o => (n, o)))).take 7
    if due.isEmpty then d else d.sendEntries dev due := if_neg (not_not_intro hr)

theorem Dev.creditRefresh_due {f : Nat} {w : Want} (hf : d.wantOf n = some f) (hw : d.fab.wants.get? [n] = some w)
    (hr : d.ctrlReaches (n / 1024) = true) (ht : w.sent + d.act uCRD CRD_CFG.REFRESH_US * 1000 ≤ d.now) :
    d.creditRefresh n = d.sendEntries (n / 1024) [(n, some f)] := by
  rw [Dev.creditRefresh, hf, hw]
  exact if_pos ⟨hr, ht⟩

theorem Dev.creditGrantTx_eq (hu : d.portInUse p = true) (hh : d.holdState p = hUP) (hm : d.mayCommit uCRD = true)
    (hr : (Dev.issueCredits 105 d p).2 ≠ []) : d.creditGrantTx p =
      let r := Dev.issueCredits 105 d p
      (r.2.map (fun g => g.1)).eraseDups.foldl (Dev.sendGrants p r.2)
        ((r.1.add uCRD CRD_GRANTS.COUNT r.2.length).tally uCRD 0x20 r.2.length) := by
  unfold Dev.creditGrantTx
  rw [if_neg (by simp [hu, hh, hm])]
  exact if_neg (by simpa using hr)

theorem Dev.issueCredits_early (h : d.now * 65536 < d.fab.grantAt.getD 0 [p]) (k : Nat) : Dev.issueCredits k d p = (d, []) := by
  cases k with
  | zero => rfl
  | succ k => exact if_pos h

/-- The device once a credit of a port has gone to a source of a class. -/
def Dev.creditIssued (d : Dev) (p cls left src : Nat) : Dev :=
  { d with fab := { d.fab with
    crdTurn := d.fab.crdTurn.insert [p] (cls, left), grantAt := d.fab.grantAt.insert [p] (d.fab.grantAt.getD 0 [p] + d.creditTime p)
    reqs := d.fab.reqs.setD 0 [p, src, cls] (d.fab.reqs.getD 0 [p, src, cls] - d.creditUnits)
    crdSrc := d.fab.crdSrc.insert [p, cls] src } }

theorem Dev.issueCredits_due {left : Nat} (h : d.fab.grantAt.getD 0 [p] ≤ d.now * 65536) (hc : d.pickClass p = some (cls, left)) (k : Nat) :
    Dev.issueCredits (k + 1) d p =
      let src := nextSource (d.fab.crdSrc.get? [p, cls]) (d.asking p cls)
      let r := Dev.issueCredits k (d.creditIssued p cls left src) p
      (r.1, (src, cls) :: r.2) := by
  rw [Dev.issueCredits]
  dsimp only
  rw [if_neg (Nat.not_lt.2 h), hc]
  rfl

theorem addToEntry_spec (c : Nat) {es : List (Nat × Nat)} (h : ∀ e ∈ es, e.2 ≤ 15) :
    (∀ e ∈ addToEntry c es, e.2 ≤ 15) ∧ ((addToEntry c es).map (fun e => e.2)).sum = (es.map (fun e => e.2)).sum + 1 := by
  induction es with
  | nil => simp [addToEntry]
  | cons e es ih =>
    obtain ⟨he, hes⟩ := List.forall_mem_cons.1 h
    obtain ⟨hle, hsum⟩ := ih hes
    unfold addToEntry
    split
    · rename_i hc
      refine ⟨List.forall_mem_cons.2 ⟨hc.2, hes⟩, ?_⟩
      simp only [List.map_cons, List.sum_cons]
      omega
    · refine ⟨List.forall_mem_cons.2 ⟨he, hle⟩, ?_⟩
      simp only [List.map_cons, List.sum_cons, hsum]
      omega

theorem packs_spec (n : Nat) (es : List Nat) :
    (∀ x ∈ packs n es, 1 ≤ x.length ∧ x.length ≤ 7) ∧ (es.length ≤ n → (packs n es).flatten = es) := by
  induction n generalizing es with
  | zero => exact ⟨fun x hx => absurd hx List.not_mem_nil, fun h => (List.length_eq_zero_iff.1 (Nat.le_zero.1 h)).symm⟩
  | succ n ih =>
    obtain ⟨hlen, hflat⟩ := ih (es.drop 7)
    unfold packs
    split
    · rename_i he
      exact ⟨fun x hx => absurd hx List.not_mem_nil, fun _ => (List.isEmpty_iff.1 he).symm⟩
    · rename_i he
      have hpos : 0 < es.length := List.length_pos_iff.2 (by simpa using he)
      refine ⟨List.forall_mem_cons.2 ⟨by rw [List.length_take]; omega, hlen⟩, fun h => ?_⟩
      rw [List.flatten_cons, hflat (by rw [List.length_drop]; omega), List.take_append_drop]

/-- A CREDIT_REQ entry reads as R315 lays it out: port, class, ON and DEPTH. -/
theorem reqEntry_reads (src : Nat) {f : Nat} (hp : p < 128) (hc : cls < 8) (hf : f < 2 ^ 20) (on : Bool) :
    let e := leAt (reqEntry ((p + 128 * src) * 8 + cls) (if on then some f else none)) 0 4
    bits e 6 0 = p ∧ bits e 9 7 = cls ∧ bit e 10 = on ∧ (on = true → bits e 31 12 = f) := by
  have hport : ((p + 128 * src) * 8 + cls) / 8 % 128 = p := by omega
  have hcls : ((p + 128 * src) * 8 + cls) % 8 = cls := by omega
  cases on <;> simp only [reqEntry, leAt_only, hport, hcls, bits] <;> refine ⟨?_, ?_, bit_eq_of_div_mod ?_, ?_⟩ <;> simp <;> omega

/-- A CREDIT_REQ entry sets what its VOQ asks for (R321). -/
theorem Dev.reqs_takeReqEntry (d : Dev) (src e : Nat) :
    (d.takeReqEntry src e).fab.reqs.getD 0 [bits e 6 0, src, bits e 9 7] = if bit e 10 then bits e 31 12 else 0 := by
  unfold Dev.takeReqEntry
  extract_lets depth q fab dPaced dAsked
  rw [(Dev.noted_tally ..).fab]
  exact Tab.getD_setD_self ..

end

/-! ### Credit cells and port states that arrive (R313, R323) -/

section
variable {d : Dev} {c : Cell} {n : Nat} {b : List Byte}

/-- The device once a link has delivered the cell it expected, one that acknowledges nothing. -/
def Dev.cellTaken (d : Dev) (n : Nat) : Dev := (d.setFabLink n ((d.fabLink n).delivered d.now)).cellCounted n

theorem Dev.linkSt_cellTaken (d : Dev) (n : Nat) : (d.cellTaken n).linkSt n = d.linkSt n :=
  ((d.sameStand_setFabLink n _).trans (Dev.sameStand_cellCounted ..)).linkSt n

/-- The expected control cell acts by its KIND. -/
theorem Dev.receiveIf_expected {k : Nat} (hn : n < 160) (hu : d.linkSt n = fUP) (hc : cellCrcOk b = true) (ha : bit (leAt b 10 1) 0 = false)
    (hs : bit (leAt b 10 1) 2 = false) (hq : leAt b 8 1 = (d.fabLink n).rxSeq) (hk : 2 ≤ (readCell b).kind) (hct : (readCell b).ctl = k)
    (hok : ctlOk (readCell b) false = true) : d.receiveIf (isCtl k) n b true = (d.cellTaken n).ctlAct n (readCell b) k := by
  have hack : d.ackTaken n b = d := if_pos ha
  have hr := Dev.receiveCell_expected hn hu hc (by rw [hack]; exact hu) hs (by rw [hack]; exact hq)
  rw [hack, hs] at hr
  rw [Dev.receiveIf_true (isCtl_eq hk hct), hr, ← hct]
  exact Dev.dispatchCell_ctl hk hok (.inl ((d.linkSt_cellTaken n).trans hu))

/-- The first PORT_STATE of a remote device is kept. -/
theorem Dev.remote_takePortState (hr : d.fab.remote.get? [c.src] = none) (hs : c.src ≠ d.deviceId) :
    (d.takePortState c).fab.remote.get? [c.src] = some ⟨c.epoch, leAt c.payload 4 4, leAt c.payload 0x20 32⟩ := by
  unfold Dev.takePortState
  extract_lets seq new ok fab dKept
  have hok : ok = true := by simp only [ok, hr]
  rw [if_neg (by simp [hok, hs])]
  have hclosed (e : Dev) (ns : List Nat) :
      (ns.foldl (fun d n => if 2 ≤ d.destState c.src (n / 8 % 128) then d.closeVoq n else d) e).fab = e.fab := by
    refine (Dev.fabKept_foldl (fun d n => ?_) ns e).fab
    split
    · exact d.fabKept_closeVoq n
    · exact .refl d
  rw [hclosed]
  exact Tab.get?_insert_self ..

theorem Dev.portStateTx_eq (hu : allLinks.filter (fun n => d.linkSt n == fUP) ≠ [])
    (hd : d.fab.stateSeq = 0 ∨ d.ownStates ≠ d.fab.statesSent ∨ d.fab.statesAt + 100000 ≤ d.now) : d.portStateTx =
      let seq := (d.fab.stateSeq + 1) % 2 ^ 32
      let e : Dev := { d with fab := { d.fab with stateSeq := seq, statesSent := d.ownStates, statesAt := d.now } }
      let c : Cell := { kind := 3, src := d.deviceId, epoch := d.fab.epoch
                        payload := leBytes 1 4 ++ leBytes 3 0 ++ leBytes 4 seq ++ leBytes 24 0 ++ leBytes 32 d.ownStates }
      (e.spray c (allLinks.filter (fun n => d.linkSt n == fUP))).1.bump uCRD CRD_PORT_STATE_TX.COUNT := by
  refine if_neg ?_
  rintro (he | ⟨h1, h2, h3⟩)
  · exact hu (List.isEmpty_iff.1 he)
  · exact hd.elim h1 fun h => h.elim (fun h => h h2) fun h => absurd h3 (Nat.not_lt.2 h)

/-! ### Packets that leave (R318, R319, R330, R331) -/

/-- The device once the head of a VOQ has been charged and taken off. -/
def Dev.headTaken (d : Dev) (n : Nat) (h : QPkt) : Dev :=
  let q := d.queue (.voq n)
  (((d.setQueue (.voq n) { q with credit := q.credit - h.desc.sendUnits }).popHead (.voq n)).dropLoc h.loc).noteUse [n / 1024]

theorem Dev.deviceId_headTaken (d : Dev) (n : Nat) (h : QPkt) : (d.headTaken n h).deviceId = d.deviceId :=
  (Dev.deviceId_noteUse ..).trans (((d.fabKept_setQueue _ _).trans (Dev.fabKept_popHead ..)).trans (Dev.fabKept_dropLoc ..)).deviceId

theorem Dev.voqSend_eq {h : QPkt} (hh : d.voqHead n = some h) (hx : (d.queue (.voq n)).expired d.now = false) : d.voqSend n =
    let e := d.headTaken n h
    let c : Cell := { kind := 0, dest := n / 1024, cls := n % 8, src := e.deviceId, epoch := e.fab.epoch }
    if n / 1024 = d.deviceId then e.sendLoop [0, n / 1024, n % 8] c false h.desc (d.locBytes h.loc)
    else e.sendOver [0, n / 1024, n % 8] c (e.reachSet (n / 1024)) h.desc (d.locBytes h.loc) := by
  have hfresh : (if (d.voqHead n).isSome then d.ageCheck (.voq n) else d) = d := by rw [Dev.ageCheck_of_fresh hx, ite_self]
  unfold Dev.voqSend
  rw [hfresh]
  dsimp only
  rw [hh]
  dsimp only
  rw [← d.deviceId_headTaken n h]
  rfl

theorem Dev.mcSend_eq {cls g : Nat} {h : QPkt} (hc : cls < 8) (hr : d.mcRate (d.mcClass cls) ≠ 0)
    (ht : d.fab.mcAt.getD 0 [d.mcClass cls] ≤ d.now * 65536) (hx : (d.queue (.voq (d.mcVoq cls))).expired d.now = false)
    (hh : d.headReady (.voq (d.mcVoq cls)) = some h) (hg : h.desc.group = some g) : d.mcSend cls =
      let m := d.mcClass cls
      let at_ := d.fab.mcAt.getD 0 [m]
      let iv := h.desc.length * 8 * 65536 / d.mcRate m
      let e := (d.popHead (.voq (d.mcVoq cls))).dropLoc h.loc
      ({ e with fab := { e.fab with mcAt := e.fab.mcAt.insert [m] ((if d.now * 65536 < at_ + iv then at_ else d.now * 65536) + iv) } }
        : Dev).sendGroup g m h.desc (d.locBytes h.loc) := by
  unfold Dev.mcSend
  dsimp only
  rw [if_neg (by simp [hr]; omega), Dev.ageCheck_of_fresh hx, hh]
  dsimp only
  rw [hg]

theorem Dev.creditTakeover_eq (hs : (d.watchOf 99).state = .declared) (ht : (d.watchOf 99).taker = some 99)
    (hg : d.guardPassed 99 = true) : d.creditTakeover =
      let e := d.setWatch 99 { d.watchOf 99 with awaiting := false }
      (((((e.set 99 CRD_PAIR.ACTIVE_MEMBER (1 - e.get 99 CRD_PAIR.ACTIVE_MEMBER)).bump 99 CRD_PAIR.TAKEOVERS).grantTurn 99 0
        none).endDeclared 99).noStandby 99 99) :=
  if_neg (by simp [hs, ht, hg])

end

/-! ### Groups and reach (R334-R336) -/

section
variable {s : State} {c : HCmd}

theorem Dev.Noted.fabReady {a b : Dev} (h : a.Noted b) : b.fabReady = a.fabReady := by rw [Dev.fabReady, h.svc, h.svc, Dev.fabReady]

theorem makes_mcGroup_write (hr : s.dev.fabReady = true) (ha : c.accepted s.dev 0x0801 c.fabMcGroupSetParams) (hw : c.par 0 16 16 = 0)
    (ho : c.readOk = true) :
    let d := c.begun s.dev
    let g := c.par 0 15 0
    let e : Dev := { d with fab := { d.fab with leads := d.fab.leads.erase [g] } }
    Makes (.fabMcGroupSet c) s (((e.sideWrite true (groupAddr g) 4 4).setMcGroup g { d.mcGroup g with
      members := leAt c.block 0 128, egr := c.par 4 16 0, egrValid := c.par 4 17 17 == 1 }).finish c.ticket .ok) := by
  refine Makes.endedNow rfl rfl ha ?_
  rw [if_neg (by simp [(s.dev.noted_begun c).fabReady, hr])]
  dsimp only
  rw [if_neg (by simp [hw]), if_neg (by simp [ho])]

theorem makes_mcGroup_read (hr : s.dev.fabReady = true) (ha : c.accepted s.dev 0x0801 c.fabMcGroupSetParams) (hw : c.par 0 16 16 = 1) :
    let d := c.begun s.dev
    let g := c.par 0 15 0
    let x := d.mcGroup g
    let r := d.hostBlock c (c.par 8 63 0) (leBytes 128 x.members ++ leBytes 4 (x.egr + x.egrValid.toNat * 2 ^ 17)
      ++ leBytes 4 x.missed ++ leBytes 8 0) 0
    Makes (.fabMcGroupSet c) s ((if c.par 0 17 17 = 1 ∧ r.2.status = stOK then r.1.setMcGroup g { x with missed := 0 }
      else r.1).finish c.ticket r.2) := by
  refine Makes.endedNow rfl rfl ha ?_
  rw [if_neg (by simp [(s.dev.noted_begun c).fabReady, hr])]
  dsimp only
  rw [if_pos hw]

/-- The check of the block that FAB_EGR_GROUP_SET writes: no member slot with its reserved bit set (R335). -/
def HCmd.slotsOk (c : HCmd) : Bool := c.par 0 17 17 == 1 || !(List.range (c.par 4 12 0)).any (fun q => bit (leAt c.block (4 * q) 4) 31)

theorem makes_egrGroup_write (hr : s.dev.fabReady = true) (ha : c.accepted s.dev 0x0803 c.fabEgrGroupSetParams c.slotsOk)
    (hw : c.par 0 17 17 = 0) (ho : c.readOk = true) :
    let d := c.begun s.dev
    let g := c.par 0 16 0
    let n := c.par 4 12 0
    Makes (.fabEgrGroupSet c) s ((((Dev.putSlots n d (c.par 8 23 0) c.block).sideWrite true (egrAddr g) 4 1).setEgrGroup g
      { d.egrGroup g with base := c.par 8 23 0, count := n }).finish c.ticket .ok) := by
  refine Makes.endedNow rfl rfl ha ?_
  rw [if_neg (by simp [(s.dev.noted_begun c).fabReady, hr])]
  dsimp only
  rw [if_neg (by simp [hw]), if_neg (by simp [ho])]

theorem makes_egrGroup_read (hr : s.dev.fabReady = true) (ha : c.accepted s.dev 0x0803 c.fabEgrGroupSetParams c.slotsOk)
    (hw : c.par 0 17 17 = 1) :
    let d := c.begun s.dev
    let g := c.par 0 16 0
    let x := d.egrGroup g
    let r := d.hostBlock c (c.par 16 63 0) (leBytes 4 x.base ++ leBytes 4 x.count ++ leBytes 4 x.missDown
      ++ leBytes 4 x.missOther ++ ((List.range x.count).map (fun q => leBytes 4 (d.fab.slots.getD 0 [x.base + q]))).flatten) 0
    Makes (.fabEgrGroupSet c) s ((if c.par 0 18 18 = 1 ∧ r.2.status = stOK then
      r.1.setEgrGroup g { x with missDown := 0, missOther := 0 } else r.1).finish c.ticket r.2) := by
  refine Makes.endedNow rfl rfl ha ?_
  rw [if_neg (by simp [(s.dev.noted_begun c).fabReady, hr])]
  dsimp only
  rw [if_pos hw]

theorem makes_fabReachQuery (hr : s.dev.fabReady = true) (ha : c.accepted s.dev 0x0802 c.fabReachQueryParams) :
    let d := c.begun s.dev
    let r := d.hostBlock c (c.par 8 63 0) (((List.range (c.par 4 10 0)).map (fun q => d.reachRecord (c.par 0 9 0 + q))).flatten) 0
    Makes (.fabReachQuery c) s (r.1.finish c.ticket r.2) :=
  Makes.endedNow rfl rfl ha (if_neg (by simp [(s.dev.noted_begun c).fabReady, hr]))

end

/-! ### The statement -/

/-- Settles O49: credit, port states and packets by the equations of their commands, an entry by its bits, and groups by the KIND of access. -/
theorem creditsAndGroups : Obligations.CreditsAndGroups := by
  refine ⟨fun s dev hr hd => Makes.intro rfl ((Dev.creditReqTx_eq hr).trans (if_neg (by simpa using hd))),
    fun s n f w hf hw hr ht => Makes.intro rfl (Dev.creditRefresh_due hf hw hr ht),
    fun s p hu hh hm hr => Makes.intro rfl (Dev.creditGrantTx_eq hu hh hm hr),
    fun d p k c left => ⟨fun h => Dev.issueCredits_early h k, fun h hc => Dev.issueCredits_due h hc k⟩,
    fun c es h => addToEntry_spec c h, packs_spec, fun s n b hn hu hc ha hs hq => ⟨fun hk hct => ?_, fun hk hct => ?_, fun hk hct => ?_⟩,
    fun d c act => rfl, fun d src p cls f hp hc hf on => ?_, fun d c hr hs => Dev.remote_takePortState hr hs,
    fun s hu hd => Makes.intro rfl (Dev.portStateTx_eq hu hd), fun s n h hh hx => ?_,
    fun s c g h hc hr ht hx hh hg => Makes.intro rfl (Dev.mcSend_eq hc hr ht hx hh hg),
    fun s hs ht hg => Makes.intro rfl (Dev.creditTakeover_eq hs ht hg),
    fun s c hr => ⟨fun ha => ⟨makes_mcGroup_write hr ha, makes_mcGroup_read hr ha⟩,
      fun ha => ⟨makes_egrGroup_write hr ha, makes_egrGroup_read hr ha⟩, makes_fabReachQuery hr⟩⟩
  · exact Makes.intro rfl (Dev.receiveIf_expected hn hu hc ha hs hq (by omega) hct (by simp [ctlOk, hct, hk]))
  · exact Makes.intro rfl (Dev.receiveIf_expected hn hu hc ha hs hq (by omega) hct (by simp [ctlOk, hct, hk]))
  · exact Makes.intro rfl (Dev.receiveIf_expected hn hu hc ha hs hq (by omega) hct (by simp [ctlOk, hct, hk]))
  · obtain ⟨hport, hcls, hon, hdepth⟩ := reqEntry_reads src hp hc hf on
    have h := d.reqs_takeReqEntry src (leAt (reqEntry ((p + 128 * src) * 8 + cls) (if on then some f else none)) 0 4)
    rw [hport, hcls, hon] at h
    refine h.trans ?_
    cases on with
    | false => rfl
    | true => exact hdepth rfl
  · have heq := Dev.voqSend_eq hh hx
    exact ⟨fun hd => Makes.intro rfl (heq.trans (if_neg hd)), fun hd => Makes.intro rfl (heq.trans (if_pos hd))⟩

end Sys2Proof.Machine
end

section
/-! SUPPORT. How a returning unit takes its stream again, with the statement about it. -/
namespace Sys2Proof.Machine
open Sys2Proof

section
variable {d : Dev} {un u st of_ items : Nat}

/-! ### SHADOW_COMPLETE (R389, R390) -/

/-- The stream that a returning unit takes: the one it carried when it left, else that of the unit it compared, else its own (R390). -/
def Dev.streamBack (d : Dev) (un : Nat) : Nat :=
  (d.rid.carried.get? [un]).getD (((d.rid.shadows.get? [un]).map (fun x => d.streamOf x.of)).getD un)

/-- A returning unit is ACTIVE with a stream and holds a new turn. -/
def Dev.takesBack (d : Dev) (un st : Nat) : Dev :=
  (((({ d with rid := { d.rid with shadows := d.rid.shadows.erase [un], carried := d.rid.carried.erase [un] } } : Dev).setWatch un
    {}).setSvc un sACTIVE).setStream un st).grantTurn un 0 none

/-- What follows the return of a unit: its group's figure, its stages, and the commands that wait for it. -/
def Dev.returnEnds (d : Dev) (un : Nat) : Dev := ((d.showGroup un).follow un).endReturns un (.ok 1)

theorem Dev.shadowComplete_early (h : d.shadowReady un = false) : d.shadowComplete un = d := if_pos (by simp [h])

theorem Dev.shadowReady_eq (h : d.rid.shadows.get? [un] = some ⟨of_, items⟩) : d.shadowReady un = decide (65536 ≤ items) := by
  rw [Dev.shadowReady, h]

theorem Dev.shadowReady_of_none (h : d.rid.shadows.get? [un] = none) : d.shadowReady un = true := by
  rw [Dev.shadowReady, h]

theorem Dev.streamBack_compared (h : d.rid.shadows.get? [un] = some ⟨of_, items⟩) :
    d.streamBack un = (d.rid.carried.get? [un]).getD (d.streamOf of_) := by
  rw [Dev.streamBack, h]
  rfl

theorem Dev.streamBack_own (hs : d.rid.shadows.get? [un] = none) (hc : d.rid.carried.get? [un] = none) : d.streamBack un = un := by
  rw [Dev.streamBack, hs, hc]
  rfl

/-- A unit whose group has no other members compares nothing and relieves nobody. -/
theorem Dev.carrierOf_of_noPeers (h : peersOf un = []) : d.carrierOf un st = none := by
  rw [Dev.carrierOf, h]
  rfl

/-- What a unit takes with its stream: the carrier is relieved, an editor has its port group, a port or a link its states. -/
def Dev.settleReturned (d : Dev) (un : Nat) : Option Nat → Dev
  | some u => (if classOf un = 0x19 then d.moveGroup u un else d).relieve u
  | none => if classOf un = 0x19 then d.restoreGroup un else if classOf un = 0x30 then d.settlePort (un - 128)
    else if classOf un = 0x31 then d.settleLink (un - 256) else d

/-- A return that has compared what it must: the banks, the schedulers and the memory channels apart, whose returns do more. -/
theorem Dev.shadowComplete_ready (hs : d.svc un = sSHADOW) (hr : d.shadowReady un = true) (hc : classOf un ∉ [0x15, 0x21, 0x22, 0x41]) :
    d.shadowComplete un =
      ((d.takesBack un (d.streamBack un)).settleReturned un (d.carrierOf un (d.streamBack un))).returnEnds un := by
  simp only [List.mem_cons, List.not_mem_nil, or_false, not_or] at hc
  obtain ⟨hbank, hsch, hcrd, hchan⟩ := hc
  unfold Dev.shadowComplete
  rw [if_neg (by simp [hs, hr, hchan])]
  extract_lets compared st standIn replaced rid dGone dWatched dTaken dRelieved dClass
  have hst : st = d.streamBack un := by
    rw [Dev.streamBack]
    dsimp only [st, compared]
    cases d.rid.carried.get? [un] <;> cases d.rid.shadows.get? [un] <;> rfl
  have hno (h : peersOf un = []) : standIn = none := Dev.carrierOf_of_noPeers h
  have hclass : dClass = dTaken.settleReturned un standIn := by
    dsimp only [dClass, dRelieved]
    clear_value standIn dTaken
    split
    case h_1 _ _ h => exact absurd h hbank
    case h_2 _ _ h => simp only [Dev.settleReturned, h, if_true]
    case h_3 _ _ h => exact absurd h hsch
    case h_4 _ _ h => exact absurd h hcrd
    case h_5 _ _ h =>
      obtain rfl := hno (by rw [peersOf, h]; rfl)
      rw [Dev.settleReturned, if_neg (by simp [h]), if_pos h]
    case h_6 _ _ h =>
      obtain rfl := hno (by rw [peersOf, h]; rfl)
      rw [Dev.settleReturned, if_neg (by simp [h]), if_neg (by simp [h]), if_pos h]
    case h_7 _ _ _ _ _ hprt hlnk hedt =>
      unfold Dev.settleReturned
      split
      · rw [if_neg (hedt · rfl), if_neg hprt, if_neg hlnk]
      · rfl
  have hact : dTaken = d.takesBack un (d.streamBack un) := by rw [← hst]; rfl
  rw [hclass, hact, ← hst]
  rfl

/-- Nothing goes with a unit that no stage follows. -/
theorem Dev.follow_of_none (h : followers un = []) : d.follow un = d := by rw [Dev.follow, h]; rfl

/-- A unit that is relieved with items of its own under way keeps its state (R390). -/
theorem Dev.relieve_busy (h : d.heldBy u ≠ []) :
    d.relieve u = { d.setStream u u with rid := { (d.setStream u u).rid with relieved := d.rid.relieved ++ [u] } } :=
  if_neg fun ⟨_, he⟩ => h (List.isEmpty_iff.1 he)

/-! ### AUTO_RETURN (R393) -/

/-- While HEADLESS a unit that failed long enough ago starts the self-test of its return. -/
theorem Dev.autoReturn_due {t : Nat} (hf : d.rid.failedAt.get? [un] = some t) (hh : d.flag 0 HDL_STATUS.HEADLESS = true)
    (ha : d.flag 0 HDL_CFG.AUTO_RETURN = true) (ht : holdsTurns un = true) (hs : d.svc un = sFAILED)
    (hc : d.get un UF_STATE.FAULT_COUNT < 3) (hd : t + 1000000000 * d.act 0 HDL_CFG.RETURN_DELAY_S ≤ d.now)
    (h0 : d.rid.tests.get? [un] = none) (h1 : d.rid.tests.get? [un, 1] = none) (hu : askedUnder un = []) :
    d.autoReturn un = (d.startTest un { why := .return_ }).logDecision 5 un 0 := by
  rw [Dev.autoReturn, hf]
  dsimp only
  rw [if_pos ⟨hh, ha, ht, hs, hc, hd, by rw [h0]; rfl⟩, Dev.askReturn_starts (.inr hs) h0 h1 hu, if_pos rfl]

end

/-- Settles O17: a return by whether it has compared enough and by who carries the stream it takes, AUTO_RETURN by its equation. -/
theorem returningUnits : Obligations.ReturningUnits := by
  refine ⟨fun s un of_ items hx hi => ?_, fun s un of_ items hc hs hx hi => ?_, fun d u h => ?_,
    fun s un hp hc hf hs hx hcar => ?_,
    fun s un t hf hh ha ht hs hc hd h0 h1 hu => Makes.intro rfl (Dev.autoReturn_due hf hh ha ht hs hc hd h0 h1 hu)⟩
  · exact Makes.intro rfl (Dev.shadowComplete_early (by rw [Dev.shadowReady_eq hx]; simpa using hi))
  · have h := Dev.shadowComplete_ready hs ((Dev.shadowReady_eq hx).trans (by simpa using hi))
      (by rcases hc with e | e <;> rw [e] <;> decide)
    rw [Dev.streamBack_compared hx] at h
    refine ⟨fun u hu => Makes.intro rfl (h.trans ?_), fun hu => Makes.intro rfl (h.trans ?_)⟩
    · rw [hu]
      rfl
    · rw [hu, Dev.settleReturned]
      rcases hc with e | e <;> simp only [e] <;> rfl
  · rw [Dev.relieve_busy h]
    exact ⟨rfl, by simp [Dev.relieved]⟩
  · simp only [List.mem_cons, List.not_mem_nil, or_false, not_or] at hc
    obtain ⟨hbank, hedt, hcrd, hchan⟩ := hc
    have hsch : classOf un ≠ 0x21 := fun e => by rw [peersOf, e] at hp; cases hp
    have h := Dev.shadowComplete_ready hs (Dev.shadowReady_of_none hx) (by simp [hbank, hsch, hcrd, hchan])
    rw [Dev.streamBack_own hx hcar, Dev.carrierOf_of_noPeers hp, Dev.settleReturned, if_neg hedt, Dev.returnEnds,
      Dev.follow_of_none hf] at h
    exact Makes.intro rfl h

end Sys2Proof.Machine
end

section
/-! SUPPORT. Signs of the host, its link, rings, doorbells, fetches and chains, with the statement about them. -/
namespace Sys2Proof.Machine
open Sys2Proof

/-! ### What dropping packets leaves -/

/-- `g` reads nothing of the reports, registers and buffers. -/
structure BufferBlind {α : Type} (g : Dev → α) : Prop where
  noted : ∀ {a b : Dev}, a.Noted b → g b = g a
  setI : ∀ (d : Dev) (un : Nat) (f : Fld) (i v : Nat), g (d.setI un f i v) = g d
  tm : ∀ (d : Dev) (x : TmState), g { d with tm := x } = g d

/-- What each step of a fold leaves, the whole fold leaves. -/
theorem Dev.foldl_eq {α β : Type} {g : Dev → α} {f : Dev → β → Dev} (hf : ∀ (d : Dev) x, g (f d x) = g d) (xs : List β) (d : Dev) :
    g (xs.foldl f d) = g d := by
  induction xs generalizing d with
  | nil => rfl
  | cons x xs ih => exact (ih _).trans (hf d x)

section
variable {α : Type} {g : Dev → α} (hg : BufferBlind g)
include hg

theorem BufferBlind.setFree (d : Dev) (p n : Nat) : g (d.setFree p n) = g d := by
  unfold Dev.setFree
  extract_lets dFree dLow below
  have hLow : g dLow = g d := by
    dsimp only [dLow]
    split
    · exact (hg.setI ..).trans (hg.setI ..)
    · exact hg.setI ..
  split
  · split
    · exact (hg.noted (Dev.noted_raise ..)).trans ((hg.tm ..).trans hLow)
    · exact hLow
  · exact hLow

theorem BufferBlind.giveBack (d : Dev) (p : Nat) : g (d.giveBack p) = g d := by
  unfold Dev.giveBack
  split
  · exact (hg.setFree ..).trans (hg.setI ..)
  · rfl

theorem BufferBlind.linkFree (d : Dev) (p b : Nat) : g (d.linkFree p b) = g d := by
  unfold Dev.linkFree
  split
  · rfl
  · exact hg.tm ..

theorem BufferBlind.releaseBuf (d : Dev) (p b req : Nat) : g (d.releaseBuf p b req) = g d := by
  unfold Dev.releaseBuf
  extract_lets tm dOut dUsed dFreed
  have hUsed : g dUsed = g d := (hg.setI ..).trans (hg.tm ..)
  have hFreed : g dFreed = g dUsed := by
    dsimp only [dFreed]
    split
    · rfl
    · exact (hg.setFree ..).trans (hg.linkFree ..)
  exact (hg.noted (Dev.noted_tallyQ ..)).trans ((hg.giveBack ..).trans (hFreed.trans hUsed))

theorem BufferBlind.freeChain (bs : List (Nat × Nat)) (d : Dev) (req : Nat) : g (Dev.freeChain bs d req) = g d := by
  induction bs generalizing d with
  | nil => rfl
  | cons x bs ih =>
    obtain ⟨p, b⟩ := x
    have hrefused (f : Fld) (ty : Nat) (q : List Byte) : g (((d.bump uBPM f).tallyQ uBPM 0x24 1 (selPool p)).raise uBPM ty q) = g d :=
      (hg.noted (Dev.noted_raise ..)).trans ((hg.noted (Dev.noted_tallyQ ..)).trans (hg.setI ..))
    unfold Dev.freeChain
    split
    · exact hrefused ..
    · split
      · exact (ih _).trans (hg.releaseBuf ..)
      · exact hrefused ..

theorem BufferBlind.markShared (d : Dev) (bufs : List (Nat × Nat)) (shared : Bool) : g (d.markShared bufs shared) = g d := by
  refine Dev.foldl_eq (fun d b => ?_) bufs d
  dsimp only
  split
  · split
    · rfl
    · exact hg.tm ..
  · rfl

theorem BufferBlind.dropRef (d : Dev) (h : Nat) : g (d.dropRef h) = g d := by
  unfold Dev.dropRef
  split
  · rfl
  · split
    · exact (hg.freeChain ..).trans (hg.tm ..)
    · exact (hg.markShared ..).trans (hg.tm ..)

end

theorem bufferBlind_inflight : BufferBlind (fun d => d.hif.inflight) := ⟨fun h => h.inflight, fun _ _ _ _ _ => rfl, fun _ _ => rfl⟩

theorem Dev.inflight_dropRxHeld (d : Dev) (q : Nat) : (d.dropRxHeld q).hif.inflight = d.hif.inflight := by
  unfold Dev.dropRxHeld
  extract_lets held hif dRest
  exact Dev.foldl_eq (g := fun d => d.hif.inflight) (f := fun d (h : Nat × Punt) => (d.dropRef h.2.handle).bump uHIF HIF_RX_NOBUF.COUNT)
    (fun d h => bufferBlind_inflight.dropRef d h.2.handle) held dRest

/-! ### Signs of the host (R392) -/

section
variable {d : Dev}

theorem Dev.headlessTimeout_due {t : Nat} (ha : d.hdl.alive = some t) (h0 : d.act 0 HDL_CFG.TIMEOUT_S ≠ 0)
    (ht : t + 1000000000 * d.act 0 HDL_CFG.TIMEOUT_S ≤ d.now) : d.headlessTimeout = d.setHeadless true := by
  rw [Dev.headlessTimeout, ha]
  exact if_pos ⟨h0, ht⟩

/-- A change between ATTENDED and HEADLESS writes its registers and is then raised. -/
theorem Dev.setHeadless_raises {on : Bool} (h : d.flag 0 HDL_STATUS.HEADLESS ≠ on) :
    ∃ e : Dev, d.setHeadless on = e.raise 0 0x18 (leBytes 1 on.toNat ++ leBytes 2 d.hdl.log.length)
      ∧ e.flag 0 HDL_STATUS.HEADLESS = on ∧ e.get 0 HDL_SINCE.TIME = d.now % 2 ^ 64 := by
  refine ⟨_, if_neg h, ?_, Dev.get_set_self ..⟩
  have hkey : HDL_STATUS.HEADLESS.key 0 0 ≠ HDL_SINCE.TIME.key 0 0 := by decide
  rw [Dev.flag, Dev.flagI, Dev.set, Dev.getI_setI_ne hkey]
  refine (congrArg (· == 1) (Dev.get_set_self ..)).trans ?_
  cases on <;> rfl

/-! ### The host link (R402, R435) -/

theorem Dev.ringState_cutHost (d : Dev) (k : Nat) : d.cutHost.ringState k = rDISABLED := by
  unfold Dev.cutHost
  extract_lets mine done cut filled n qs dDropped hif dCut
  have hcut : dCut.ringState k = rDISABLED := by
    rw [Dev.ringState, Dev.getI, Tab.get?_filter_key dDropped.fields (fun k => !isRingKey k)]
    rfl
  rw [← hcut]
  have hkeys (f : Fld) (hf : f.off = HIF_STATUS.IN_FLIGHT.off ∨ f.off = HIF_CPL_LOST.COUNT.off) :
      HIF_RING_STATE.STATE.key uHIF k ≠ f.key uHIF 0 := Fld.key_ne_of_off (by rcases hf with e | e <;> rw [e] <;> decide) _ _ _ _
  exact (Dev.getI_setI_ne (hkeys _ (.inl rfl))).trans (Dev.getI_setI_ne (hkeys _ (.inr rfl)))

theorem Dev.inflight_cutHost (d : Dev) : d.cutHost.hif.inflight = d.hif.inflight.filter (fun f => !f.ticket.sq.isSome) := by
  have h : (((d.hif.rxHeld.map (·.1)).eraseDups).foldl Dev.dropRxHeld d).hif.inflight = d.hif.inflight :=
    Dev.foldl_eq (g := fun d => d.hif.inflight) Dev.inflight_dropRxHeld _ d
  exact congrArg (List.filter _) h

/-- What every host link reset leaves: the host cut off, no MSI-X entry, and a new epoch. -/
def Dev.hostReset (d : Dev) : Dev :=
  ({ d.cutHost with hif := { d.cutHost.hif with msix := [], pba := 0 } } : Dev).set uHIF HIF_STATUS.HIF_EPOCH
    (d.cutHost.get uHIF HIF_STATUS.HIF_EPOCH + 1)

theorem Dev.hostLinkReset_flr (d : Dev) : d.hostLinkReset 2 = d.hostReset := by
  rw [Dev.hostLinkReset, if_pos rfl]
  rfl

theorem Dev.hostLinkReset_down {cause : Nat} (h : cause ≠ 2) : d.hostLinkReset cause =
    ((d.hostReset.set uHIF HIF_STATUS.RATE 0).set uHIF HIF_STATUS.WIDTH 0).set uHIF HIF_STATUS.FLIT 0 := by
  rw [Dev.hostLinkReset, if_neg h]
  rfl

/-! ### Ring control (R403, R404) -/

variable {kind n need value : Nat}

theorem Dev.onSelected_eq {f : Dev → Nat → Nat → Dev} (h : d.selRing = some (kind, n)) : d.onSelected f = f d kind n := by
  rw [Dev.onSelected, h]

theorem Dev.enableRing_refused
    (h : d.ringState (ringIx kind n) ≠ rDISABLED ∨ d.ringReady kind (ringIx kind n) = false ∨ d.flag 0 FW_STATUS.RECOVERY = true) :
    d.enableRing kind n = d.refuseRing (ringIx kind n) := if_pos (by simpa using h)

/-- A ring of entries starts empty and armed, in its first phase, with nothing to signal. -/
def Dev.emptyRing (d : Dev) (k : Nat) : Dev :=
  let e := (((d.setI uHIF HIF_RING_STATE.HEAD k 0).setI uHIF HIF_RING_STATE.TAIL k 0).setI uHIF HIF_RING_STATE.PHASE k 1).setI uHIF
    HIF_RING_STATE.ARMED k 1
  { e with hif := { e.hif with unsig := e.hif.unsig.erase [k] } }

section
variable (hs : d.ringState (ringIx kind n) = rDISABLED) (hr : d.ringReady kind (ringIx kind n) = true)
  (hf : d.flag 0 FW_STATUS.RECOVERY = false)
include hs hr hf

theorem Dev.enableRing_ready : d.enableRing kind n =
    (if kind = kRXQ then d else d.emptyRing (ringIx kind n)).setI uHIF HIF_RING_STATE.STATE (ringIx kind n) rENABLED :=
  if_neg (by simp [hs, hr, hf])

theorem Dev.enableRing_entries (hk : kind ≠ kRXQ) :
    d.enableRing kind n = (d.emptyRing (ringIx kind n)).setI uHIF HIF_RING_STATE.STATE (ringIx kind n) rENABLED := by
  rw [Dev.enableRing_ready hs hr hf, if_neg hk]

theorem Dev.enableRing_rxq (hk : kind = kRXQ) :
    d.enableRing kind n = d.setI uHIF HIF_RING_STATE.STATE (ringIx kind n) rENABLED := by
  rw [Dev.enableRing_ready hs hr hf, if_pos hk]

end

theorem Dev.disableRing_refused (h : d.ringState (ringIx kind n) ≠ need ∨ (kind = kCQ ∧ d.cqNamed n = true)) :
    d.disableRing kind n need = d.refuseRing (ringIx kind n) := if_pos h

section
variable (hs : d.ringState (ringIx kind n) = need)
include hs

theorem Dev.disableRing_sq (hk : kind = kSQ) : d.disableRing kind n need =
    d.setI uHIF HIF_RING_STATE.STATE (ringIx kind n) (if d.sqBusy n then rDISABLING else rDISABLED) := by
  subst hk
  exact (if_neg (by simp [hs, show kSQ ≠ kCQ by decide])).trans (if_pos rfl)

theorem Dev.disableRing_rxq (hk : kind = kRXQ) : d.disableRing kind n need =
    (((d.hif.posted.filter (fun p => p.rxq == n)).foldl (fun d p => d.finishPosted p (.fail stUNIT_UNAVAILABLE)) d).dropRxHeld n).setI
      uHIF HIF_RING_STATE.STATE (ringIx kind n) rDISABLED := by
  subst hk
  exact (if_neg (by simp [hs, show kRXQ ≠ kCQ by decide])).trans ((if_neg (by decide)).trans (if_pos rfl))

/-- A ring of entries that nothing names is DISABLED at once. -/
theorem Dev.disableRing_idle (hk : kind = kEQ ∨ (kind = kCQ ∧ d.cqNamed n = false)) :
    d.disableRing kind n need = d.setI uHIF HIF_RING_STATE.STATE (ringIx kind n) rDISABLED := by
  have hne : kind ≠ kSQ ∧ kind ≠ kRXQ := by rcases hk with e | ⟨e, -⟩ <;> rw [e] <;> decide
  have hno : ¬ (kind = kCQ ∧ d.cqNamed n = true) := by
    rintro ⟨hc, hn⟩
    rcases hk with e | ⟨-, hn'⟩
    · rw [e] at hc
      exact absurd hc (by decide)
    · rw [hn] at hn'
      cases hn'
  exact (if_neg (by simp [hs, hno])).trans ((if_neg hne.1).trans (if_neg hne.2))

end

theorem Dev.ringDrained_done (hn : n < 4096) (hs : d.ringState (ringIx kSQ n) = rDISABLING) (hb : d.sqBusy n = false) :
    d.ringDrained n = d.setI uHIF HIF_RING_STATE.STATE (ringIx kSQ n) rDISABLED := if_pos ⟨hn, hs, by simp [hb]⟩

/-- The kinds of ring that have entries in host memory. -/
abbrev hasEntries (kind : Nat) : Prop := kind = kSQ ∨ kind = kCQ ∨ kind = kEQ

theorem Dev.ringError_live (hk : hasEntries kind) (hn : n < ringCount kind)
    (hs : d.ringState (ringIx kind n) = rENABLED ∨ d.ringState (ringIx kind n) = rDISABLING) : d.ringError kind n =
      (d.dmaFailed.setI uHIF HIF_RING_STATE.STATE (ringIx kind n) rERROR).raise uHIF 0x12
        (leBytes 2 (n + kind * 2 ^ 12) ++ leBytes 1 (if kind = kSQ then 0 else 1)) := by
  have hkind : kind ≠ kRXQ ∧ kind ≤ 3 := by rcases hk with e | e | e <;> rw [e] <;> decide
  refine if_neg ?_
  rintro (h | h | h | h)
  · exact hkind.1 h
  · omega
  · omega
  · exact h hs

/-! ### Doorbells (R405-R407, R416) -/

theorem bar2Ring_bar2Off (hk : hasEntries kind) (hn : n < ringCount kind) : bar2Ring (bar2Off kind n) = some (kind, n) := by
  rcases hk with rfl | rfl | rfl
  · have hn : n < 4096 := hn
    have hoff : bar2Off kSQ n = 8 * n := Nat.zero_add _
    rw [bar2Ring, hoff, if_neg (by omega), if_pos (by omega), Nat.mul_div_cancel_left _ (by decide)]
  · have hn : n < 1024 := hn
    have hoff : bar2Off kCQ n = 0x8000 + 8 * n := rfl
    rw [bar2Ring, hoff, if_neg (by omega), if_neg (by omega), if_pos (by omega), Nat.add_sub_cancel_left,
      Nat.mul_div_cancel_left _ (by decide)]
  · have hn : n < 64 := hn
    have hoff : bar2Off kEQ n = 0xA000 + 8 * n := rfl
    rw [bar2Ring, hoff, if_neg (by omega), if_neg (by omega), if_neg (by omega), if_pos (by omega), Nat.add_sub_cancel_left,
      Nat.mul_div_cancel_left _ (by decide)]

theorem Dev.bar2Write_ignored {off : Nat} {h : Half} (hi : h = .high ∨ bar2Ring off = none) : d.bar2Write off h value = d := by
  rcases hi with rfl | hi
  · rfl
  · cases h <;> simp only [Dev.bar2Write, hi]

theorem Dev.ringDoorbell_eq (hk : hasEntries kind) (hn : n < ringCount kind) : d.ringDoorbell kind n value = d.doorbell kind n value := by
  rw [Dev.ringDoorbell, if_neg (Nat.not_le.2 hn)]
  simp only [Dev.bar2Write, bar2Ring_bar2Off hk hn]

/-- A doorbell's value as a distance from HEAD (R405). -/
def Dev.bellDist (d : Dev) (k value : Nat) : Nat := (value % 65536 + 65536 - d.getI uHIF HIF_RING_STATE.HEAD k) % 65536

/-- HEAD has moved to `v`, and the entries before it are no longer to be signalled. -/
def Dev.consumedTo (d : Dev) (k v : Nat) : Dev :=
  let e := d.setI uHIF HIF_RING_STATE.HEAD k v
  let u := e.hif.unsig.getD [] [k]
  { e with hif := { e.hif with unsig := e.hif.unsig.setD [] [k] (u.drop (u.length - e.ringUsed k)) } }

section
variable (hn : n < ringCount kind)
include hn

theorem Dev.doorbell_disabled (hs : d.ringState (ringIx kind n) ≠ rENABLED) :
    d.doorbell kind n value = d.doorbellBad kind n (value % 65536) 1 := (if_neg (by omega)).trans (if_pos hs)

variable (hs : d.ringState (ringIx kind n) = rENABLED)
include hs

/-- A producer's doorbell moves TAIL between where it stands and a full ring. -/
theorem Dev.doorbell_sq (hk : kind = kSQ) : d.doorbell kind n value =
    if d.ringUsed (ringIx kind n) ≤ d.bellDist (ringIx kind n) value ∧ d.bellDist (ringIx kind n) value ≤ d.ringSize (ringIx kind n) then
      d.setI uHIF HIF_RING_STATE.TAIL (ringIx kind n) (value % 65536)
    else d.doorbellBad kind n (value % 65536) 0 :=
  ((if_neg (by omega)).trans (if_neg (by simp [hs]))).trans (if_pos hk)

/-- A consumer's doorbell past the entries that the ring holds. -/
theorem Dev.doorbell_past (hk : kind ≠ kSQ) (hd : d.ringUsed (ringIx kind n) < d.bellDist (ringIx kind n) value) :
    d.doorbell kind n value = d.doorbellBad kind n (value % 65536) 0 :=
  (((if_neg (by omega)).trans (if_neg (by simp [hs]))).trans (if_neg hk)).trans (if_neg (Nat.not_le.2 hd))

/-- A consumer's doorbell moves HEAD, and with bit 16 arms the ring, which signals at once what it still holds (R416). -/
theorem Dev.doorbell_consumed (hk : kind ≠ kSQ) (hd : d.bellDist (ringIx kind n) value ≤ d.ringUsed (ringIx kind n)) :
    d.doorbell kind n value =
      let k := ringIx kind n
      let armed := (d.consumedTo k (value % 65536)).setI uHIF HIF_RING_STATE.ARMED k 1
      (if bit value 16 = false then d.consumedTo k (value % 65536)
        else if (d.setI uHIF HIF_RING_STATE.HEAD k (value % 65536)).ringUsed k = 0 then armed else armed.signalRing k).goOn := by
  unfold Dev.doorbell
  extract_lets k v dist dHead left u hif e armed
  rw [if_neg (Nat.not_le.2 hn), if_neg (not_not.2 hs), if_neg hk, if_pos (show dist ≤ d.ringUsed k from hd)]
  cases bit value 16 with
  | false => rw [if_neg Bool.false_ne_true, if_pos rfl]; rfl
  | true => rw [if_pos rfl, if_neg Bool.false_ne_true.symm]; rfl

end

theorem Dev.coalTimer_due {o : Nat} (hk : kind = kCQ ∨ kind = kEQ) (ho : (d.hif.unsig.getD [] [ringIx kind n]).head? = some o)
    (ha : d.flagI uHIF HIF_RING_STATE.ARMED (ringIx kind n) = true) (h0 : d.getI uHIF HIF_RING_CFG.TIME (ringIx kind n) ≠ 0)
    (ht : o + 1000 * d.getI uHIF HIF_RING_CFG.TIME (ringIx kind n) ≤ d.now) : d.coalTimer kind n = d.signalRing (ringIx kind n) := by
  unfold Dev.coalTimer
  dsimp only
  rw [ho]
  exact if_pos ⟨hk, ha, h0, ht⟩

/-! ### Fetching and chains (R408, R411, R417-R419) -/

theorem Dev.sqFetch_failed {sq left : Nat} (h : d.nextSq = some (sq, left)) (desc : List Byte) :
    d.sqFetch desc false = d.ringError kSQ sq := by
  rw [Dev.sqFetch, h]
  rfl

theorem Dev.sqFetch_read {sq left : Nat} (h : d.nextSq = some (sq, left)) (desc : List Byte) :
    d.sqFetch desc true =
      let k := ringIx kSQ sq
      let h := d.getI uHIF HIF_RING_STATE.HEAD k
      let t : Ticket := ⟨.ring sq h, slice desc 0 64⟩
      ((((({ d with hif := { d.hif with turn := (sq, left - 1) } } : Dev).setI uHIF HIF_RING_STATE.HEAD k (h + 1)).begin t none).screen
        t).goOn) := by
  rw [Dev.sqFetch, h]
  rfl

theorem Ticket.agent?_of_sq {t : Ticket} {sq : Nat} (h : t.sq = some sq) : t.agent? = none := by
  obtain ⟨origin, desc⟩ := t
  cases origin with
  | ring _ _ | chained _ _ _ => rfl
  | agent _ | agentChained _ _ _ => cases h

/-- A completion that was parked for its chain's read is taken out. -/
def Dev.dropParked (d : Dev) (p : Parked) : Dev := { d with hif := { d.hif with parked := d.hif.parked.erase p } }

section
variable {q sq closing : Nat} {p : Parked} {desc : List Byte} {b : Bool} (hp : d.hif.parked[q]? = some p) (hw : d.awaitsRead p = true)
  (ht : p.ticket.sq = some sq)
include hp hw ht

/-- The descriptor that NEXT names waits for room, and the completion before it is written. -/
theorem Dev.chainNextRead_follows (h0 : p.ticket.next ≠ 0) (ha : p.ticket.next % 64 = 0) :
    d.chainNextRead q desc closing true b =
      ((({ d.dropParked p with hif := { (d.dropParked p).hif with chainNext := d.hif.chainNext ++
        [(Ticket.mk (.chained sq p.ticket.next p.root) (slice desc 0 64), p.root)] } } : Dev).writeCpl p.ticket
          ⟨p.status, p.result, p.bad⟩ p.rxq false 0).releaseFills (d.hif.parked.erase p).length p.rxq).goOn := by
  unfold Dev.chainNextRead
  rw [hp]
  dsimp only
  rw [if_neg (by simp [hw])]
  simp only [h0, false_and, if_false, ha, ne_eq, not_true_eq_false, Ticket.agent?_of_sq ht, ht]
  rfl

/-- A NEXT of 0 that reads as 0 again ends the chain early. -/
theorem Dev.chainNextRead_endsEarly (h0 : p.ticket.next = 0) :
    d.chainNextRead q desc 0 b true =
      ((((d.tally uHIF 0x23 8).dropParked p).writeCpl p.ticket ⟨p.status, p.result, p.bad⟩ p.rxq true stCHAIN_ENDED_EARLY).releaseFills
        (d.hif.parked.erase p).length p.rxq).goOn := by
  have hparked : (d.tally uHIF 0x23 8).hif.parked = d.hif.parked := by rw [(d.noted_tally ..).2.1]
  unfold Dev.chainNextRead
  rw [hp]
  dsimp only
  rw [if_neg (by simp [hw])]
  simp only [h0, ht, Option.isSome_some, true_and, if_true, not_true_eq_false, if_false, Dev.endChain, ← hparked]
  rfl

end

end

/-! ### The statement -/

section
variable {s : State} {d e : Dev} {kind n value : Nat}

theorem makes_hostAlive {c : HCmd} (ha : c.accepted s.dev 0x0004 []) : let d := c.begun s.dev
    Makes (.hostAlive c) s (({ d.attended with hdl := { d.attended.hdl with host := true } } : Dev).finish c.ticket
      (.ok ((d.flag 0 HDL_STATUS.HEADLESS).toNat + 2 ^ 16 * d.attended.hdl.log.length))) := Makes.endedNow rfl rfl ha rfl

theorem Dev.setHeadless_reports {on : Bool} (hnow : d.now < 2 ^ 64) (h : d.flag 0 HDL_STATUS.HEADLESS ≠ on) :
    (d.setHeadless on).flag 0 HDL_STATUS.HEADLESS = on ∧ (d.setHeadless on).get 0 HDL_SINCE.TIME = d.now
      ∧ (d.setHeadless on).hasRaised 0 0x18 (leBytes 1 on.toNat ++ leBytes 2 d.hdl.log.length) := by
  obtain ⟨e, he, hflag, htime⟩ := Dev.setHeadless_raises h
  have hn := e.noted_raise 0 0x18 (leBytes 1 on.toNat ++ leBytes 2 d.hdl.log.length)
  rw [he]
  refine ⟨(congrArg (· == 1) (hn.get (noteKey_of _ _ _ (by decide)))).trans hflag, ?_, e.raise_raised 0 0x18 _ (by decide) (by decide)⟩
  rw [hn.get (noteKey_of _ _ _ (by decide)), htime, Nat.mod_eq_of_lt hnow]

section
variable (hsel : s.dev.selRing = some (kind, n))
include hsel

theorem makes_ringEnable (h : s.dev.enableRing kind n = e) : Makes .ringEnable s e := Makes.intro rfl ((Dev.onSelected_eq hsel).trans h)

theorem makes_ringDisable (h : s.dev.disableRing kind n rENABLED = e) : Makes .ringDisable s e :=
  Makes.intro rfl ((Dev.onSelected_eq hsel).trans h)

theorem makes_ringErrClear (h : s.dev.disableRing kind n rERROR = e) : Makes .ringErrClear s e :=
  Makes.intro rfl ((Dev.onSelected_eq hsel).trans h)

/-- DISABLE and ERR_CLEAR differ in the state that they act in. -/
theorem makes_ringStop {x : Instr × Nat} (hx : x ∈ [(Instr.ringDisable, rENABLED), (Instr.ringErrClear, rERROR)])
    (h : s.dev.disableRing kind n x.2 = e) : Makes x.1 s e := by
  simp only [List.mem_cons, List.not_mem_nil, or_false] at hx
  rcases hx with rfl | rfl
  · exact makes_ringDisable hsel h
  · exact makes_ringErrClear hsel h

end

/-- A consumer's doorbell, of a CQ or an EQ, by the ring's state and the distance. -/
theorem makes_consumerBell {i : Instr} (hk : kind = kCQ ∨ kind = kEQ) (hx : exec i s = s.go (·.ringDoorbell kind n value))
    (hn : n < ringCount kind) :
    let k := ringIx kind n
    let armed := (s.dev.consumedTo k (value % 65536)).setI uHIF HIF_RING_STATE.ARMED k 1
    (s.dev.ringState k = rENABLED → s.dev.bellDist k value ≤ s.dev.ringUsed k →
      Makes i s (if bit value 16 = false then s.dev.consumedTo k (value % 65536)
        else if (s.dev.setI uHIF HIF_RING_STATE.HEAD k (value % 65536)).ringUsed k = 0 then armed else armed.signalRing k).goOn)
    ∧ (s.dev.ringState k = rENABLED → s.dev.ringUsed k < s.dev.bellDist k value →
        Makes i s (s.dev.doorbellBad kind n (value % 65536) 0))
    ∧ (s.dev.ringState k ≠ rENABLED → Makes i s (s.dev.doorbellBad kind n (value % 65536) 1)) := by
  have hbell := Dev.ringDoorbell_eq (d := s.dev) (value := value) (.inr hk) hn
  have hne : kind ≠ kSQ := by rcases hk with e | e <;> rw [e] <;> decide
  exact ⟨fun hs hd => Makes.intro hx (hbell.trans (Dev.doorbell_consumed hn hs hne hd)),
    fun hs hd => Makes.intro hx (hbell.trans (Dev.doorbell_past hn hs hne hd)),
    fun hs => Makes.intro hx (hbell.trans (Dev.doorbell_disabled hn hs))⟩

end

/-- Settles O52: requests and doorbells by the state in which they find the ring, the other commands by their equations. -/
theorem hostLinkAndRings : Obligations.HostLinkAndRings := by
  refine ⟨fun s t ha h0 ht => Makes.intro rfl (Dev.headlessTimeout_due ha h0 ht), fun d on hnow hne => Dev.setHeadless_reports hnow hne,
    fun s => Makes.intro rfl rfl, fun s c => makes_hostAlive,
    fun s => ⟨Makes.intro rfl (Dev.hostLinkReset_flr _), fun cause hc => Makes.intro rfl (Dev.hostLinkReset_down hc)⟩,
    fun d k => ⟨d.ringState_cutHost k, rfl, d.inflight_cutHost⟩, fun s rate width flit cause => Makes.intro rfl rfl,
    fun s kind n hsel => ?_, fun s n hn hs hb => Makes.intro rfl (Dev.ringDrained_done hn hs hb),
    fun s kind n hk hn hs => Makes.intro rfl (Dev.ringError_live hk hn hs), fun kind n => bar2Ring_bar2Off,
    fun d off value h => Dev.bar2Write_ignored, fun s n value hn => ?_,
    fun s n value => ⟨makes_consumerBell (.inl rfl) rfl, makes_consumerBell (.inr rfl) rfl⟩,
    fun s kind n o hk ho ha h0 ht => Makes.intro rfl (Dev.coalTimer_due hk ho ha h0 ht),
    fun s sq left desc h => ⟨Makes.intro rfl (Dev.sqFetch_read h desc), Makes.intro rfl (Dev.sqFetch_failed h desc)⟩,
    fun s q closing a sq desc p b hp hw ht => ⟨?_, fun h0 => Makes.intro rfl (Dev.chainNextRead_endsEarly hp hw ht h0)⟩⟩
  · exact ⟨fun hs hr hf hk => makes_ringEnable hsel (Dev.enableRing_entries hs hr hf hk),
      fun hs hr hf hk => makes_ringEnable hsel (Dev.enableRing_rxq hs hr hf hk),
      fun x hx hs => ⟨fun hk hc => makes_ringStop hsel hx (Dev.disableRing_refused (.inr ⟨hk, hc⟩)),
        fun hk => makes_ringStop hsel hx (Dev.disableRing_idle hs hk), fun hk => makes_ringStop hsel hx (Dev.disableRing_rxq hs hk)⟩,
      fun h => makes_ringEnable hsel (Dev.enableRing_refused h), fun hs hk => makes_ringDisable hsel (Dev.disableRing_sq hs hk),
      fun hs => makes_ringDisable hsel (Dev.disableRing_refused (.inl hs)),
      fun hs hk => makes_ringErrClear hsel (Dev.disableRing_sq hs hk),
      fun hs => makes_ringErrClear hsel (Dev.disableRing_refused (.inl hs))⟩
  · have hbell : s.dev.ringDoorbell kSQ n value = s.dev.doorbell kSQ n value := Dev.ringDoorbell_eq (.inl rfl) hn
    refine ⟨fun hs hlo hhi => ?_, fun hs hd => ?_, fun hs => Makes.intro rfl (hbell.trans (Dev.doorbell_disabled hn hs))⟩
    · exact Makes.intro rfl (hbell.trans ((Dev.doorbell_sq hn hs rfl).trans (if_pos ⟨hlo, hhi⟩)))
    · exact Makes.intro rfl (hbell.trans ((Dev.doorbell_sq hn hs rfl).trans (if_neg (by unfold Dev.bellDist; omega))))
  · rintro rfl h0 ha
    exact Makes.intro rfl (Dev.chainNextRead_follows hp hw ht h0 ha)

end Sys2Proof.Machine
end

section
/-! SUPPORT. What every command does to the state, and where reports and completions write, with the statements about both. -/
namespace Sys2Proof.Machine
open Sys2Proof

/-! ### Every command is a function of the device -/

/-- Each arm makes a device of the device, and nothing else of the state. -/
theorem exec_go (i : Instr) : ∃ f : Dev → Dev, ∀ s, exec i s = s.go f := by
  cases i <;> exact ⟨_, fun _ => rfl⟩

/-- Settles O1: a step looks at the front of the queue. -/
theorem stepRunsFrontCommand : Obligations.StepRunsFrontCommand := by
  intro s c rest h
  rw [step, h]

/-- Whatever the device becomes, what it has posted reaches host memory in canonical form. -/
theorem State.sound_becomes {s : State} (h : s.Sound) (d : Dev) : (s.becomes d).Sound := ⟨hostWf_take _ h.1, rfl⟩

/-- Settles O4: an idle step and a command alike make a device of the device. -/
theorem stepKeepsSound : Obligations.StepKeepsSound := by
  intro s t hs ht
  cases hq : s.pending with
  | nil =>
    rw [step_of_nil hq] at ht
    exact Host.Outcome.next.inj ht ▸ s.sound_becomes hs _
  | cons c rest =>
    obtain ⟨f, hf⟩ := exec_go c
    rw [stepRunsFrontCommand s c rest hq, hf] at ht
    exact Host.Outcome.next.inj ht ▸ State.sound_becomes hs _

/-- Settles O5, from the shape of every arm. -/
theorem commandsAnswerFromDeviceAlone : Obligations.CommandsAnswerFromDeviceAlone := by
  intro i s s' hd
  obtain ⟨f, hf⟩ := exec_go i
  exact ⟨_, _, hf s, hf s', by rw [State.on, State.on, State.becomes_dev, State.becomes_dev, hd], rfl, rfl⟩

section
variable {a b c d : Dev}

/-! ### What reaches host memory -/

theorem hostGet_take_outside {m : List Host.Cell} {ws : List (Nat × List Byte)} {x : Nat}
    (h : ∀ w ∈ ws, x < w.1 ∨ w.1 + w.2.length ≤ x) : hostGet (hostTake m ws) x = hostGet m x := by
  induction ws generalizing m with
  | nil => rfl
  | cons w ws ih =>
    obtain ⟨hw, hws⟩ := List.forall_mem_cons.1 h
    exact (ih hws).trans (hostGet_puts_outside hw)

/-- What a device has posted beyond a sound state's is all that reaches host memory. -/
theorem State.hostGet_becomes {s : State} {b : Dev} {ws : List (Nat × List Byte)} {x : Nat} (hs : s.Sound)
    (hb : b.hif.dma = s.dev.hif.dma ++ ws) (h : ∀ w ∈ ws, x < w.1 ∨ w.1 + w.2.length ≤ x) :
    hostGet (s.becomes b).host x = hostGet s.host x := by
  rw [State.becomes_host, hb, hs.2, List.nil_append]
  exact hostGet_take_outside h

/-! ### What leaves posted writes alone -/

theorem Dev.hif_pmcTally (d : Dev) (un code q : Nat) (sel : Nat → Bool) : (d.pmcTally un code q sel).1.hif = d.hif := by
  rw [Dev.pmcTally_only_fields]

theorem Dev.hif_overflowHeld (d : Dev) (un mask : Nat) : (d.overflowHeld un mask).hif = d.hif := by
  unfold Dev.overflowHeld
  dsimp only
  split
  · rfl
  · split
    · rfl
    · unfold Dev.hold
      dsimp only
      split <;> rfl

theorem Dev.hif_raisedHeldN (n : Nat) (d : Dev) (un mask : Nat) : (Dev.raisedHeldN n d un mask).hif = d.hif := by
  induction n generalizing d un mask with
  | zero => rfl
  | succ n ih =>
    unfold Dev.raisedHeldN
    split
    · rfl
    · exact (Dev.foldl_eq (g := Dev.hif) (f := fun d u => Dev.raisedHeldN n (d.pmcTally u 0x0A 1 (fun _ => true)).1 u
        (d.pmcTally u 0x0A 1 (fun _ => true)).2) (fun d u => (ih ..).trans (d.hif_pmcTally ..)) _ _).trans (d.hif_overflowHeld ..)

theorem Dev.hif_tallyHeld (d : Dev) (code q : Nat) : (d.tallyHeld code q).hif = d.hif :=
  (Dev.hif_raisedHeldN ..).trans (Dev.hif_pmcTally ..)

/-- A write to the host posts one thing. -/
theorem Dev.dma_hostWrite (d : Dev) (addr : Nat) (bs : List Byte) : (d.hostWrite addr bs).hif.dma = d.hif.dma ++ [(addr, bs)] := by
  rw [Dev.hostWrite]
  dsimp only
  rw [Dev.hif_tallyHeld]

/-- The entry that a ring takes at its TAIL, PHASE in place (R415). -/
def Dev.entryAtTail (d : Dev) (k : Nat) (bytes : List Byte) : List Byte :=
  patch bytes 3 (leBytes 1 (setBit (leAt bytes 3 1) 7 (d.ringPhase k (d.getI uHIF HIF_RING_STATE.TAIL k))))

/-- The two writes that post it, bytes 4 to 31 first (R414). -/
def Dev.entryWrites (d : Dev) (k : Nat) (bytes : List Byte) : List (Nat × List Byte) :=
  [(d.ringAddr k (d.getI uHIF HIF_RING_STATE.TAIL k) 32 + 4, (d.entryAtTail k bytes).drop 4),
    (d.ringAddr k (d.getI uHIF HIF_RING_STATE.TAIL k) 32, (d.entryAtTail k bytes).take 4)]

theorem Dev.Completed.dma (h : a.Completed b) : ∃ ws, b.hif.dma = a.hif.dma ++ ws :=
  let ⟨ws, hb, _⟩ := h.2.2.2.2
  ⟨ws, hb⟩

theorem Dev.dma_pushEntry (d : Dev) (k : Nat) (bytes : List Byte) :
    ∃ after, (d.pushEntry k bytes).hif.dma = d.hif.dma ++ d.entryWrites k bytes ++ after := by
  unfold Dev.pushEntry
  extract_lets t b3 entry dWritten dTail dPhase
  obtain ⟨after, h⟩ := (Dev.noted_noteEntry dPhase k).completed.dma
  have hw : dWritten.hif.dma = d.hif.dma ++ [(d.ringAddr k t 32 + 4, entry.drop 4)] ++ [(d.ringAddr k t 32, entry.take 4)] := by
    rw [Dev.dma_hostWrite, Dev.dma_hostWrite]
  exact ⟨after, h.trans (congrArg (· ++ after) (hw.trans (List.append_assoc ..)))⟩

/-! ### What is counted before a completion is written (R411, R427) -/

/-- Where the counts of commands in flight and of bad ones lie. -/
def countSpots : List (Nat × Nat) :=
  [(HIF_RING_STATE.COUNT.off, HIF_RING_STATE.COUNT.lo), (HIF_STATUS.IN_FLIGHT.off, HIF_STATUS.IN_FLIGHT.lo),
    (HIF_MALFORMED.COUNT.off, HIF_MALFORMED.COUNT.lo), (HIF_UNSUPPORTED.COUNT.off, HIF_UNSUPPORTED.COUNT.lo)]

/-- Every field but those counts reads the same. -/
def Dev.CountsApart (a b : Dev) : Prop := ∀ (f : Fld) (un i : Nat), (f.off, f.lo) ∉ countSpots → b.getI un f i = a.getI un f i

theorem Dev.CountsApart.refl (d : Dev) : d.CountsApart d := fun _ _ _ _ => rfl

theorem Dev.CountsApart.trans (h : a.CountsApart b) (h' : b.CountsApart c) : a.CountsApart c := fun f un i hf =>
  (h' f un i hf).trans (h f un i hf)

theorem Dev.countsApart_setI (d : Dev) (un : Nat) {f : Fld} (i v : Nat) (hf : (f.off, f.lo) ∈ countSpots) :
    d.CountsApart (d.setI un f i v) := by
  intro g u j hg
  have hne : (g.off, g.lo) ≠ (f.off, f.lo) := fun e => hg (e ▸ hf)
  exact Dev.getI_setI_ne (Fld.key_ne hne _ _ _ _)

theorem Dev.countsApart_retire (d : Dev) (t : Ticket) : d.CountsApart (d.retire t) := by
  unfold Dev.retire
  split
  · have h : d.CountsApart ({ d with hif := { d.hif with inflight := dropInflight t d.hif.inflight } } : Dev).showInFlight :=
      (Dev.CountsApart.refl d).trans (Dev.countsApart_setI _ uHIF 0 _ (by decide))
    dsimp only
    split
    · exact h
    · exact (h.trans (Dev.countsApart_setI _ uHIF _ _ (by decide))).trans (Dev.countsApart_setI _ uHIF _ _ (by decide))
  · exact .refl d

theorem Dev.countsApart_countReply (d : Dev) (r : Reply) : d.CountsApart (d.countReply r) := by
  unfold Dev.countReply
  split
  · exact d.countsApart_setI uHIF 0 _ (by decide)
  · split
    · exact d.countsApart_setI uHIF 0 _ (by decide)
    · exact .refl d

theorem Dev.hif_countReply (d : Dev) (r : Reply) : (d.countReply r).hif = d.hif := by
  unfold Dev.countReply
  split
  · rfl
  · split <;> rfl

theorem Dev.CountsApart.cqOf (h : a.CountsApart b) (k : Nat) : b.cqOf k = a.cqOf k := by
  rw [Dev.cqOf, h HIF_RING_CFG.CQ uHIF k (by decide), Dev.cqOf]

theorem Dev.CountsApart.ringState (h : a.CountsApart b) (k : Nat) : b.ringState k = a.ringState k := h HIF_RING_STATE.STATE uHIF k (by decide)

theorem Dev.CountsApart.entryWrites (h : a.CountsApart b) (k : Nat) (bytes : List Byte) : b.entryWrites k bytes = a.entryWrites k bytes := by
  simp only [Dev.entryWrites, Dev.entryAtTail, Dev.ringAddr, Dev.ringPhase, Dev.ringSize, h HIF_RING_STATE.TAIL uHIF k (by decide),
    h HIF_RING_BASE.BASE uHIF k (by decide), h HIF_RING_CFG.SIZE_LOG2 uHIF k (by decide)]

/-! ### The completion of an unchained command of an SQ (R414) -/

theorem Dev.conclude_unchained {t : Ticket} (hc : t.chain = false) (hn : t.chained = false) (ha : t.agent? = none) (r : Reply) :
    d.conclude t r none = d.writeCpl t r none false 0 := by
  have hs : d.settled t = false := by rw [Dev.settled, ha]; rfl
  rw [Dev.conclude, if_neg (by simp [hs]), if_neg (by simp [hc, hn])]
  rfl

theorem Dev.writeCpl_sq {t : Ticket} {sq : Nat} (hl : d.isLost t = false) (hq : t.sq = some sq) (r : Reply) :
    d.writeCpl t r none false 0 = (d.retire t).cplInto (d.cqOf (ringIx kSQ sq))
      (cplBytes t r sq false (d.getI uHIF HIF_RING_STATE.HEAD (ringIx kSQ sq)) false 0) := by
  rw [Dev.writeCpl, if_neg (by simp [hl])]
  simp only [hq]

end

/-- Settles O8: reports post nothing but entries of event rings and messages. -/
theorem reportsWriteOnlyRingsAndMessages : Obligations.ReportsWriteOnlyRingsAndMessages := by
  intro s b hs hn x hx
  obtain ⟨_, _, _, ws, hb, hw⟩ := hn
  exact State.hostGet_becomes hs hb fun w hm => hx _ _ (hw w hm)

/-- Settles O9: what a completion leaves, and where it posts. -/
theorem completingLeavesTheRest : Obligations.CompletingLeavesTheRest := by
  intro s t r hs
  have hc := s.dev.completed_finish t r
  refine ⟨hc, fun x hx => ?_⟩
  obtain ⟨_, _, _, _, ws, hb, hw⟩ := hc
  exact State.hostGet_becomes hs hb fun w hm => hx _ _ (hw w hm)

/-- Settles O53: the reply is made of the time, which counting the command leaves. -/
theorem nopReturnsDeviceTime : Obligations.NopReturnsDeviceTime := fun _ _ ha =>
  Completes.intro rfl rfl ha fun _ hn => ⟨by rw [hn.now]; rfl, hn⟩

/-- Settles O10: the ring that the completion goes into stands at its TAIL when it is written. -/
theorem completionRecordPosted : Obligations.CompletionRecordPosted := by
  intro d sq ix desc r t k hc hl hk bytes entry a
  have hcount := d.countsApart_countReply r
  have hret := hcount.trans (Dev.countsApart_retire _ t)
  have hlost : (d.countReply r).isLost t = false := by rw [Dev.isLost, Dev.hif_countReply]; exact hl
  have hwrite : (d.countReply r).conclude t r none = (((d.countReply r).retire t).pushEntry k bytes).tally uHIF 0x21 1 := by
    rw [Dev.conclude_unchained hc rfl rfl, Dev.writeCpl_sq hlost rfl, hcount.cqOf, hcount HIF_RING_STATE.HEAD _ _ (by decide), Dev.cplInto,
      if_pos ((hret.ringState k).trans hk)]
  obtain ⟨before, hbefore⟩ := ((d.completed_countReply r).trans (Dev.completed_retire _ t)).dma
  obtain ⟨mid, hpush⟩ := ((d.countReply r).retire t).dma_pushEntry k bytes
  obtain ⟨after, hafter⟩ := (((Dev.noted_tally _ uHIF 0x21 1).completed).trans (Dev.completed_goOn _)).dma
  refine ⟨d.hif.dma ++ before, mid ++ after, ?_⟩
  rw [Dev.finish, Dev.finishCore, hwrite, hafter, hpush, hbefore, hret.entryWrites, List.append_assoc _ mid after]
  rfl

end Sys2Proof.Machine
end

section
/-! SUPPORT. Core rails, supply monitors and PMBus devices, with the statement about them. -/
namespace Sys2Proof.Machine
open Sys2Proof

section
variable {d : Dev} {un mv : Nat}

/-! ### AVS steps (R516, R517) -/

theorem Dev.avsStep_due (hu : un = 800 ∨ un = 808) (hr : d.fw.running.isSome = true) (hp : d.pwr.avsPending.get? [un] = none)
    (ht : ∀ t, d.pwr.avsAt.get? [un] = some t → t + 10000000 ≤ d.now) (hlo : 650 ≤ mv) (hhi : mv ≤ 800)
    (hup : mv ≤ d.get un PWR_MON_STATUS.TARGET_MV + 5) (hdown : d.get un PWR_MON_STATUS.TARGET_MV ≤ mv + 5) :
    d.avsStep un mv = ({ d with pwr := { d.pwr with
      avsAt := d.pwr.avsAt.insert [un] d.now
      avsPending := d.pwr.avsPending.insert [un] (d.get un PWR_MON_STATUS.TARGET_MV, mv) } } : Dev).set un PWR_MON_STATUS.TARGET_MV
        (min (d.get un PWR_MON_STATUS.TARGET_MV) mv) := by
  unfold Dev.avsStep
  extract_lets old due dMoved
  have hdue : due = true := by
    dsimp only [due]
    split
    · next t h => exact decide_eq_true (ht t h)
    · rfl
  have hrun : d.fw.running.isNone = false := by simpa using hr
  exact if_neg (by simp only [hrun, hp, hdue]; simp; omega)

theorem Dev.regulatorSettled_pending {p : Nat × Nat} (h : d.pwr.avsPending.get? [un] = some p) : d.regulatorSettled un = d.endStep un p.2 := by
  rw [Dev.regulatorSettled, h]

theorem Dev.regulatorFault_late {p : Nat × Nat} {t : Nat} (h : d.pwr.avsPending.get? [un] = some p) (ha : d.pwr.avsAt.get? [un] = some t)
    (ht : t + 2000000 ≤ d.now) (why : Nat) : d.regulatorFault un why = (d.endStep un p.1).raise un 0x11 (leBytes 1 (why % 2)) := by
  rw [Dev.regulatorFault, h, ha]
  exact if_pos ht

/-! ### Supply monitors (R518 to R520) -/

/-- A dip is counted at its monitor. -/
def Dev.dipCounted (d : Dev) (un lowest duration mv : Nat) : Dev :=
  (((d.reading un lowest mv).rises un 0x20).tallyLevel un 0x20 duration).bump un PWR_DIP_COUNT.COUNT

/-- Cycles that a dip of a core rail stretched are counted at its die. -/
def Dev.dipStretched (d : Dev) (die cycles : Nat) : Dev := (d.add die PWR_DROOP_CYCLES.COUNT cycles).tally die 0x20 cycles

/-- A dip of a core rail is counted at its die as well. -/
def Dev.dipCountedAt (d : Dev) (un lowest duration cycles mv : Nat) : Dev :=
  if un = 800 then (d.dipCounted un lowest duration mv).dipStretched 1 cycles
  else if un = 808 then (d.dipCounted un lowest duration mv).dipStretched 2 cycles
  else d.dipCounted un lowest duration mv

theorem Dev.supplyDip_eq {lowest duration cycles mv : Nat} {e : Dev} (hm : isMonitor un = true) (hl : 1000 * lowest < d.warnLevel un)
    (hd : 50 < duration) (he : (List.range 8).foldl Dev.dipRotation (d.dipCountedAt un lowest duration cycles mv) = e) :
    d.supplyDip un lowest duration cycles mv =
      ({ e with fw := { e.fw with holdUntil := e.now + 100000000 } } : Dev).supplyWarn un 0 lowest duration := by
  unfold Dev.supplyDip
  rw [if_neg (fun h => by rcases h with h | h | h; exacts [h hm, by omega, by omega])]
  extract_lets +onlyGivenNames c die dDie dRotated
  have hdie : dDie = d.dipCountedAt un lowest duration cycles mv := by
    dsimp only [dDie]
    unfold Dev.dipCountedAt
    by_cases h800 : un = 800
    · have hd : die = 1 := if_pos h800
      rw [hd, if_neg one_ne_zero, if_pos h800]
      rfl
    · by_cases h808 : un = 808
      · have hd : die = 2 := (if_neg h800).trans (if_pos h808)
        rw [hd, if_neg two_ne_zero, if_neg h800, if_pos h808]
        rfl
      · have hd : die = 0 := (if_neg h800).trans (if_neg h808)
        rw [hd, if_pos rfl, if_neg h800, if_neg h808]
        rfl
  have hrot : dRotated = e := by rw [← he, ← hdie]
  clear_value dRotated
  rw [hrot]

theorem Dev.supplyOvervoltage_eq {highest duration : Nat} (hm : isMonitor un = true) (hl : d.overLevel un < 1000 * highest) (hd : 50 < duration)
    (mv : Nat) : d.supplyOvervoltage un highest duration mv = (d.reading un mv mv).supplyWarn un 1 highest duration :=
  if_neg (fun h => by rcases h with h | h | h; exacts [h hm, by omega, by omega])

theorem Dev.supplyResetLevel_eq (hm : isMonitor un = true) : d.supplyResetLevel un =
    if un = 802 ∨ un = 810 then d.coldReset true else d.warm (2 ^ 3 + (un - 800) * 2 ^ 12) := if_neg (by simp [hm])

/-! ### PMBus devices (R549) -/

theorem Dev.pmbRead_third {i : Nat} (h : d.pwr.pmbFails.getD 0 [i] = 2) : d.pmbRead i none =
    ({ d with pwr := { d.pwr with pmbFails := d.pwr.pmbFails.insert [i] 3 } } : Dev).setI 0 PMB_DEV.NO_ANSWER i 1 := by
  rw [Dev.pmbRead, h]
  rfl

theorem Dev.pmbPoll_single {i : Nat} (hen : d.flag 0 PMB_CFG.EN = true) (hi : d.pmbOn i = true) (v a w : Nat) :
    d.pmbPoll [(i, some (v, a, w))] = d.pmbRead i (some fun e =>
      ((e.setI 0 PMB_DEV.VOUT_MV i v).setI 0 PMB_DEV.IOUT_CA i a).setI 0 PMB_DEV.STATUS_WORD i w) := by
  rw [Dev.pmbPoll, if_neg (by simp [hen])]
  exact if_pos hi

theorem Dev.pmbAlert_single {i : Nat} (hi : d.pmbOn i = true) (o : Option Nat) :
    d.pmbAlert [(i, o)] = d.pmbRead i (o.map fun w e => e.setI 0 PMB_DEV.STATUS_WORD i w) := if_pos hi

end

/-- Settles O24: every command by its equation where its conditions hold. -/
theorem railsAndRegulators : Obligations.RailsAndRegulators := by
  refine ⟨fun _ _ _ hu hr hp ht hlo hhi hup hdown => Makes.intro rfl (Dev.avsStep_due hu hr hp ht hlo hhi hup hdown),
    fun _ _ _ _ hp => ⟨Makes.intro rfl (Dev.regulatorSettled_pending hp),
      fun _ why ha ht => Makes.intro rfl (Dev.regulatorFault_late hp ha ht why)⟩,
    fun s un lowest duration cycles mv hm hl hd => ?_,
    fun _ _ _ _ mv hm hl hd => Makes.intro rfl (Dev.supplyOvervoltage_eq hm hl hd mv),
    fun _ _ hm => Makes.intro rfl (Dev.supplyResetLevel_eq hm),
    fun _ _ v a w hi => ⟨fun hen => Makes.intro rfl (Dev.pmbPoll_single hen hi v a w), Makes.intro rfl (Dev.pmbAlert_single hi (some w)),
      fun h => Makes.intro rfl ((Dev.pmbAlert_single hi none).trans (Dev.pmbRead_third h))⟩⟩
  intro counted stretched dipped
  have hdip : (List.range 8).foldl Dev.dipRotation (s.dev.dipCountedAt un lowest duration cycles mv) = dipped := rfl
  clear_value dipped
  exact Makes.intro rfl (Dev.supplyDip_eq hm hl hd hdip)

end Sys2Proof.Machine
end

section
/-! SUPPORT. PLLs and their references, with the statement about them. -/
namespace Sys2Proof.Machine
open Sys2Proof

section
variable {d : Dev} {un ref : Nat}

/-! ### Forced switches and relocks (R506, R508) -/

theorem Dev.forcedSwitch_leaving {old : Nat} (h : d.pwr.leaving.get? [un] = some old) : d.forcedSwitch un =
    ((({ d with pwr := { d.pwr with leaving := d.pwr.leaving.erase [un] } } : Dev).bump un CLK_FORCED_SWITCH.COUNT).tally un 0x20
      1).raise un 0x12 (leBytes 1 old) := by
  rw [Dev.forcedSwitch, h]

/-- A PLL has lock on its reference again. -/
def Dev.relocked (d : Dev) (un : Nat) : Dev :=
  ({ (d.set un CLK_PLL_STATUS.HOLDOVER 0).set un CLK_PLL_STATUS.LOCKED 1 with
    pwr := { d.pwr with leaving := d.pwr.leaving.erase [un] } } : Dev).forwarded

theorem Dev.pllRelock_eq (hm : un ∈ plls (refOf un)) (hh : d.flag un CLK_PLL_STATUS.HOLDOVER = true) (hs : d.pwr.heldSince.get? [un] = none)
    (hr : ∀ r, d.get un CLK_PLL_STATUS.REF = r → r < 2 → d.flag (refOf un) (okField r) = true) :
    d.pllRelock un = if un = 773 ∧ d.get un CLK_PLL_STATUS.REF < 2 then (d.relocked un).ptpFosc false else d.relocked un := by
  unfold Dev.pllRelock
  extract_lets +onlyGivenNames r
  exact if_neg (by simpa [hm, hh, hs] using hr r rfl)

/-! ### A SerDes PLL without a reference (R507) -/

/-- A SerDes PLL stops: it holds over no longer, and is off. -/
def Dev.serdesOff (d : Dev) (un : Nat) : Dev := ((d.set un CLK_PLL_STATUS.HOLDOVER 0).set un CLK_PLL_STATUS.LOCKED 0).pllOff un

/-- What the links of a stopped SerDes PLL do. -/
def Dev.serdesLinksDown (d : Dev) (un : Nat) : Dev :=
  if un = 774 then d.mgtLinkChange false
  else if un < 784 then
    (List.range 32).foldl (fun d i => (d.interrupt (32 * (un - 780) + i) false).linkLoss (32 * (un - 780) + i) 14 false false) d
  else (List.range 32).foldl (fun d i =>
    if d.linkSt (32 * (un - 791) + i) = fUP then
      d.leaveUp (32 * (un - 791) + i) 9 (fun d => d.startLink (32 * (un - 791) + i)) else d) d

theorem Dev.serdesPllStop_due {t : Nat} (hs : d.pwr.heldSince.get? [un] = some t) (ht : t + 100000 ≤ d.now)
    (hh : d.flag un CLK_PLL_STATUS.HOLDOVER = true) : d.serdesPllStop un = (d.serdesOff un).serdesLinksDown un := by
  rw [Dev.serdesPllStop, hs]
  exact if_neg (by simp [hh, ht])

theorem Dev.linkSt_serdesOff (d : Dev) (un n : Nat) : (d.serdesOff un).linkSt n = d.linkSt n := by
  have hh : ZFP_LINK_STATUS.LINK_STATE.key (uLNK n) 0 ≠ CLK_PLL_STATUS.HOLDOVER.key un 0 := Fld.key_ne (by decide) _ _ _ _
  have hl : ZFP_LINK_STATUS.LINK_STATE.key (uLNK n) 0 ≠ CLK_PLL_STATUS.LOCKED.key un 0 := Fld.key_ne (by decide) _ _ _ _
  calc (d.serdesOff un).linkSt n
    _ = ((d.set un CLK_PLL_STATUS.HOLDOVER 0).set un CLK_PLL_STATUS.LOCKED 0).get (uLNK n) ZFP_LINK_STATUS.LINK_STATE := rfl
    _ = d.linkSt n := (Dev.get_set_ne hl).trans (Dev.get_set_ne hh)

/-- A fold of steps none of which changes what it starts from. -/
theorem foldl_of_fixed {α β : Type} {f : β → α → β} {b : β} {l : List α} (h : ∀ x ∈ l, f b x = b) : l.foldl f b = b := by
  induction l with
  | nil => rfl
  | cons x l ih => rw [List.foldl_cons, h x List.mem_cons_self, ih fun y hy => h y (List.mem_cons_of_mem _ hy)]

/-! ### Return to REFA, and lock that is lost (R505, R506) -/

theorem Dev.refReturn_good (hr : ref = uREF_F ∨ ref = uREF_Q) (h : d.flag ref CLK_SRC_STATUS.REFA_OK = true) :
    d.refReturn ref = ((plls ref).foldl (fun d u => d.moveTo u 0) d).showCoreRef ref := if_pos ⟨hr, h⟩

theorem Dev.refReturn_bad (h : d.flag ref CLK_SRC_STATUS.REFA_OK = false) : d.refReturn ref = d := if_neg (by simp [h])

theorem Dev.pllLockLoss_eq {lost : Bool} (hc : classOf un = 0x50) (hu : un ∉ [768, 769, 770, 784, 785])
    (hl : d.flag un CLK_PLL_STATUS.LOCKED = lost) (h : lost = false → un ∈ d.pwr.unlocked) : d.pllLockLoss un lost =
      ((if lost then { d with pwr := { d.pwr with unlocked := un :: d.pwr.unlocked } } else d.pllOff un).setFlag un CLK_PLL_STATUS.LOCKED
        (!lost)).raise un 0x11 (leBytes 1 lost.toNat) := by
  refine if_neg (fun hno => ?_)
  rcases hno with hno | hno | hno | hno
  · exact hno (by simpa using hc)
  · exact hu (by simpa using hno)
  · exact hno hl
  · exact hno.2 (by simpa using h (by simpa using hno.1))

theorem Dev.clockRuns_pllOff (h1 : un ≠ 769) (h2 : un ≠ 785) (hl : d.flag un CLK_PLL_STATUS.LOCKED = false)
    (hh : d.flag un CLK_PLL_STATUS.HOLDOVER = false) : (d.pllOff un).clockRuns un = false := by
  have hl' : (d.pllOff un).flag un CLK_PLL_STATUS.LOCKED = false := hl
  have hh' : (d.pllOff un).flag un CLK_PLL_STATUS.HOLDOVER = false := hh
  rw [Dev.clockRuns, if_neg (by omega), Dev.pllRuns, hl', hh']
  simp [Dev.pllOff]

end

/-- Settles O22: every command by its equation, a stopped SerDes PLL by the links it clocks. -/
theorem pllsFollowTheirReferences : Obligations.PllsFollowTheirReferences := by
  refine ⟨fun _ _ _ h => Makes.intro rfl (Dev.forcedSwitch_leaving h), fun s un hm hh hs hr => Makes.intro rfl (Dev.pllRelock_eq hm hh hs hr),
    fun s un t hs ht hh => ?_, fun _ _ hr h => Makes.intro rfl (Dev.refReturn_good hr h), fun _ _ h => Makes.intro rfl (Dev.refReturn_bad h),
    fun _ _ _ hc hu hl h => Makes.intro rfl (Dev.pllLockLoss_eq hc hu hl h), fun _ _ h1 h2 hl hh => Dev.clockRuns_pllOff h1 h2 hl hh⟩
  have hstop := Dev.serdesPllStop_due hs ht hh
  refine ⟨fun hu => Makes.intro rfl (hstop.trans (if_pos hu)), fun hlo hhi => Makes.intro rfl (hstop.trans ?_), fun hlo hhi => ?_⟩
  · exact (if_neg (by omega)).trans (if_pos (by omega))
  · replace hstop := hstop.trans ((if_neg (by omega)).trans (if_neg (by omega)))
    refine ⟨Makes.intro rfl hstop, fun hup => Makes.intro rfl (hstop.trans ?_)⟩
    refine foldl_of_fixed fun i hi => if_neg ?_
    rw [Dev.linkSt_serdesOff]
    exact hup i (List.mem_range.1 hi)

end Sys2Proof.Machine
end

section
/-! SUPPORT. References that become stable, fail and are watched, with the statement about them. -/
namespace Sys2Proof.Machine
open Sys2Proof

section
variable {a b d : Dev} {un ref src : Nat}

/-! ### What the blocks of references hold -/

@[simp] theorem Dev.clkBlock_setClkBlock_self (d : Dev) (ref : Nat) (x : ClkBlock) : (d.setClkBlock ref x).clkBlock ref = x :=
  Tab.getD_setD_self ..

theorem Dev.clkBlock_set (d : Dev) (un : Nat) (f : Fld) (v ref : Nat) : (d.set un f v).clkBlock ref = d.clkBlock ref := rfl

theorem Dev.clkBlock_congr (h : b.pwr.blocks = a.pwr.blocks) (ref : Nat) : b.clkBlock ref = a.clkBlock ref := by
  rw [Dev.clkBlock, h, Dev.clkBlock]

theorem Dev.pwr_holdsOver (d : Dev) (un : Nat) : (d.holdsOver un).pwr = d.pwr := by
  unfold Dev.holdsOver
  extract_lets was dHeld
  split
  · rfl
  · exact (Dev.noted_rises ..).pwr

theorem Dev.blocks_moveTo (d : Dev) (un r : Nat) : (d.moveTo un r).pwr.blocks = d.pwr.blocks := by
  unfold Dev.moveTo
  extract_lets old dHeld
  split
  · rfl
  · have h : dHeld.pwr.blocks = d.pwr.blocks := congrArg PwrState.blocks (Dev.pwr_holdsOver ..)
    exact h

theorem Dev.blocks_serdesHold (d : Dev) (un : Nat) : (d.serdesHold un).pwr.blocks = d.pwr.blocks := by
  have h : (d.holdsOver un).pwr.blocks = d.pwr.blocks := by rw [Dev.pwr_holdsOver]
  exact h

theorem Dev.pwr_ptpTo (d : Dev) (new : Nat) : (d.ptpTo new).pwr = d.pwr := by
  unfold Dev.ptpTo
  extract_lets old dPut
  split
  · rfl
  · exact (Dev.noted_raise ..).pwr

theorem Dev.pwr_ptpFosc (d : Dev) (lost : Bool) : (d.ptpFosc lost).pwr = d.pwr := by
  unfold Dev.ptpFosc
  extract_lets s
  split_ifs
  · exact d.pwr_ptpTo ..
  · rfl
  · exact d.pwr_ptpTo ..
  · exact d.pwr_ptpTo ..
  · rfl

theorem Dev.blocks_leaveRef (d : Dev) (ref src : Nat) : (d.leaveRef ref src).pwr.blocks = d.pwr.blocks := by
  have hmoved (d : Dev) : ((corePlls ref).foldl (fun d u => d.moveTo u 2) d).pwr.blocks = d.pwr.blocks :=
    Dev.foldl_eq (g := fun d => d.pwr.blocks) (fun d u => d.blocks_moveTo u 2) _ d
  have hheld (d : Dev) : ((serdesPlls ref).foldl Dev.serdesHold d).pwr.blocks = d.pwr.blocks :=
    Dev.foldl_eq (g := fun d => d.pwr.blocks) Dev.blocks_serdesHold _ d
  unfold Dev.leaveRef
  split
  · extract_lets dMoved dHeld
    have hd : dHeld.pwr.blocks = d.pwr.blocks := (hheld _).trans (hmoved d)
    split
    · rw [Dev.pwr_ptpFosc, hd]
    · exact hd
  · refine Dev.foldl_eq (g := fun d => d.pwr.blocks) (fun d u => ?_) _ d
    split
    · exact d.blocks_moveTo ..
    · rfl

theorem bufferBlind_pwr : BufferBlind Dev.pwr := ⟨fun h => h.pwr, fun _ _ _ _ _ => rfl, fun _ _ => rfl⟩

theorem Dev.pwr_dropRxHeld (d : Dev) (q : Nat) : (d.dropRxHeld q).pwr = d.pwr := by
  unfold Dev.dropRxHeld
  extract_lets held hif dRest
  exact Dev.foldl_eq (g := Dev.pwr) (f := fun d (h : Nat × Punt) => (d.dropRef h.2.handle).bump uHIF HIF_RX_NOBUF.COUNT)
    (fun d h => bufferBlind_pwr.dropRef d h.2.handle) held dRest

theorem Dev.pwr_hostLinkReset (d : Dev) (cause : Nat) : (d.hostLinkReset cause).pwr = d.pwr := by
  have h : d.cutHost.pwr = d.pwr := Dev.foldl_eq (g := Dev.pwr) Dev.pwr_dropRxHeld _ d
  unfold Dev.hostLinkReset
  split <;> exact h

theorem Dev.pwr_srcFail (d : Dev) (ref src failed : Nat) : (d.srcFail ref src failed).pwr = d.pwr := (Dev.noted_raise ..).pwr

/-! ### A source declared failed (R504, R505) -/

theorem Dev.declareSrc_failed (h : d.srcFailed ref src = true) : d.declareSrc ref src = d := if_pos h

/-- A source that is declared takes its place among the block's failed ones, no window in tolerance counted. -/
def Dev.srcMarked (d : Dev) (ref src : Nat) : Dev :=
  (d.setClkBlock ref { d.clkBlock ref with good := (d.clkBlock ref).good.insert [src] 0 }).set ref (okField src) 0

theorem Dev.declareSrc_reference (h : d.srcFailed ref src = false) (hs : src ≤ 1) :
    d.declareSrc ref src = ((d.srcMarked ref src).leaveRef ref src).srcFail ref src 1 := by
  unfold Dev.declareSrc
  rw [if_neg (by simp [h])]
  extract_lets blk dMarked dTold
  rw [show dTold = dMarked.leaveRef ref src from if_pos hs]
  rfl

theorem Dev.clkBlock_declareSrc (h : d.srcFailed ref src = false) :
    (d.declareSrc ref src).clkBlock ref = { d.clkBlock ref with good := (d.clkBlock ref).good.insert [src] 0 } := by
  refine (Dev.clkBlock_congr ?_ ref).trans (d.clkBlock_setClkBlock_self ref _)
  unfold Dev.declareSrc
  rw [if_neg (by simp [h])]
  extract_lets blk dMarked dTold
  refine (congrArg PwrState.blocks (Dev.pwr_srcFail ..)).trans ?_
  dsimp only [dTold]
  split_ifs
  · exact Dev.blocks_leaveRef ..
  · exact congrArg PwrState.blocks (Dev.pwr_hostLinkReset ..)
  · unfold Dev.setAside
    split <;> rfl

/-! ### Inputs that become stable, or do not in time (R502, R503) -/

/-- A pair's counts become its calibrated ratio, unless one of its sources is at rest. -/
def ratioTaken (t : Tab (Nat × Nat)) (x : Nat × Nat × Nat) : Tab (Nat × Nat) := if x.2.1 = 0 ∨ x.2.2 = 0 then t else t.insert [x.1] x.2

theorem get?_ratios_below {m k : Nat} (h : m < k) (n : Nat) (cs : List (Nat × Nat)) (t : Tab (Nat × Nat)) :
    (((List.range' k n).zip cs).foldl ratioTaken t).get? [m] = t.get? [m] := by
  induction cs generalizing k n t with
  | nil => rw [List.zip_nil_right]; rfl
  | cons c cs ih =>
    cases n with
    | zero => rfl
    | succ n =>
      refine (ih (Nat.lt_succ_of_lt h) n _).trans ?_
      unfold ratioTaken
      split
      · rfl
      · exact Tab.get?_insert_ne (by simpa using h.ne)

theorem get?_ratios {k n j : Nat} {cs : List (Nat × Nat)} {c : Nat × Nat} (hj : j < n) (hc : cs[j]? = some c) (h1 : c.1 ≠ 0) (h2 : c.2 ≠ 0)
    (t : Tab (Nat × Nat)) : (((List.range' k n).zip cs).foldl ratioTaken t).get? [k + j] = some c := by
  induction cs generalizing k n j t with
  | nil => cases hc
  | cons x cs ih =>
    obtain ⟨n, rfl⟩ := Nat.exists_eq_succ_of_ne_zero (Nat.ne_zero_of_lt hj)
    cases j with
    | zero =>
      obtain rfl := Option.some.inj hc
      refine (get?_ratios_below (Nat.lt_succ_self k) n cs _).trans ?_
      rw [ratioTaken, if_neg (by simp [h1, h2])]
      exact Tab.get?_insert_self ..
    | succ j => rw [show k + (j + 1) = k + 1 + j by omega]; exact ih (by omega) hc _

/-- The block has taken the count ratios of its pairs. -/
def Dev.ratiosTaken (d : Dev) (ref : Nat) (counts : List (Nat × Nat)) : Dev :=
  d.setClkBlock ref { d.clkBlock ref with ratio := ((List.range' 0 3).zip counts).foldl ratioTaken (d.clkBlock ref).ratio }

/-- A PLL that waits for a reference locks. -/
def Dev.lockOn (src : Nat) (d : Dev) (u : Nat) : Dev :=
  if d.get u CLK_PLL_STATUS.REF = src then (d.set u CLK_PLL_STATUS.LOCKED 1).set u CLK_PLL_STATUS.HOLDOVER 0 else d

/-- An input reads good, and what waits for it locks. -/
def Dev.srcStable (d : Dev) (ref src : Nat) : Dev :=
  (((plls ref).foldl (Dev.lockOn src) (d.set ref (okField src) 1)).showCoreRef ref).forwarded

theorem Dev.xtalStable_eq (hr : ref = uREF_F ∨ ref = uREF_Q) (hs : src ≤ 1) (hd : d.xtalDue ref src = true)
    (hok : d.flag ref (okField src) = false) (hf : d.srcFailed ref src = false ∨ d.calibrated ref src = false) (counts : List (Nat × Nat)) :
    d.xtalStable ref src counts =
      if d.srcFailed ref src then d.ratiosTaken ref counts else (d.ratiosTaken ref counts).srcStable ref src := by
  have hfail : (d.ratiosTaken ref counts).srcFailed ref src = d.srcFailed ref src := by
    rw [Dev.srcFailed, Dev.ratiosTaken, Dev.clkBlock_setClkBlock_self]
    rfl
  unfold Dev.xtalStable
  rw [if_neg (by rcases hf with hf | hf <;> simp [hd, hok, hf] <;> omega), ← hfail]
  rfl

theorem Dev.xtalStable_calibrated (hf : d.srcFailed ref src = true) (hc : d.calibrated ref src = true) (counts : List (Nat × Nat)) :
    d.xtalStable ref src counts = d := if_pos (by simp [hf, hc])

theorem Dev.xtalStartTimeout_late {t : Nat} (hr : ref = uREF_F ∨ ref = uREF_Q) (hs : src ≤ 1) (hg : d.pwr.goodAt = some t)
    (ht : d.pwr.tripped = false) (hok : d.flag ref (okField src) = false)
    (hl : t + 1000000 * (100 + d.get ref CLK_SRC_CFG.XTAL_EXTRA_MS) ≤ d.now) : d.xtalStartTimeout ref src = d.declareSrc ref src := by
  rw [Dev.xtalStartTimeout, hg]
  exact if_neg (by simp [ht, hok]; omega)

/-! ### Windows of the monitor (R504) -/

/-- Is a pair out of tolerance in this window? -/
def Dev.outIn (d : Dev) (ref : Nat) (counts : List (Nat × Nat)) (i : Nat) : Bool :=
  pairOut ((d.clkBlock ref).ratio.get? [i]) (counts.getD i (0, 0)) (d.act ref CLK_SRC_CFG.TOL_PERMIL)

/-- The set of pairs out of tolerance. -/
def Dev.outSet (d : Dev) (ref : Nat) (counts : List (Nat × Nat)) : Nat :=
  (d.outIn ref counts 0).toNat + 2 * (d.outIn ref counts 1).toNat + 4 * (d.outIn ref counts 2).toNat

/-- PCIE_REFCLK's part in it. -/
def Dev.pcieSet (d : Dev) (ref : Nat) (counts : List (Nat × Nat)) : Nat :=
  if ref = uREF_F then (if d.outIn ref counts 3 then 8 else 0) else 0

/-- What a set of pairs out of tolerance decides. -/
def Dev.windowDecided (d : Dev) (ref out : Nat) : Dev :=
  match decideSrc out with
  | none => d.setClkBlock ref { d.clkBlock ref with ambig := 0 }
  | some 7 =>
    let n := (d.clkBlock ref).ambig + 1
    let d := (d.setClkBlock ref { d.clkBlock ref with ambig := n }).bump ref CLK_MON_AMBIG.COUNT
    if n = 10 then d.srcFail ref 7 1 else d
  | some s => (d.setClkBlock ref { d.clkBlock ref with ambig := 0 }).declareSrc ref s

/-- A clock of PCIe out of tolerance is declared. -/
def Dev.pcieDecided (d : Dev) (ref pcie : Nat) : Dev := if pcie ≠ 0 then d.declareSrc ref 4 else d

theorem Dev.monitorWindow_eq (hr : ref = uREF_F ∨ ref = uREF_Q) (hen : d.flag ref CLK_SRC_CFG.MON_EN = true)
    (hg : d.pwr.goodAt.isSome = true) (ht : d.pwr.tripped = false) (counts : List (Nat × Nat))
    (h3 : ((d.clkBlock ref).ratio.get? [3]).isSome = true) : d.monitorWindow ref counts =
      [0, 1, 2, 3, 4].foldl (fun e s => e.watchSrc ref (d.outSet ref counts + d.pcieSet ref counts) s)
        (((d.set ref CLK_SRC_STATUS.PAIR_OUT (d.outSet ref counts)).windowDecided ref (d.outSet ref counts)).pcieDecided ref
          (d.pcieSet ref counts)) := by
  have hg' : d.pwr.goodAt.isNone = false := by simpa using hg
  have h3' : ((d.clkBlock ref).ratio.get? [3]).isNone = false := by simpa using h3
  unfold Dev.monitorWindow
  rw [if_neg (by simp only [hen, hg', ht]; simp; omega)]
  extract_lets +onlyGivenNames blk tol at_ o out pcie dSet dPcie
  have ho (i : Nat) : o i = if d.outIn ref counts i then 2 ^ i else 0 := rfl
  have hout : out = d.outSet ref counts := by
    dsimp only [out]
    rw [ho, ho, ho, Dev.outSet]
    cases d.outIn ref counts 0 <;> cases d.outIn ref counts 1 <;> cases d.outIn ref counts 2 <;> rfl
  have hpcie : pcie = d.pcieSet ref counts := rfl
  have hdPcie : dPcie = dSet := if_neg (by simp [blk, h3'])
  rw [hdPcie, ← hpcie]
  dsimp only [dSet]
  clear_value out pcie
  subst hout
  rfl

/-- While no source has failed, no source is watched. -/
theorem Dev.watchSrcs_none (h : (d.clkBlock ref).good = []) (out : Nat) (l : List Nat) :
    l.foldl (fun e s => e.watchSrc ref out s) d = d := by
  refine foldl_of_fixed fun s _ => ?_
  rw [Dev.watchSrc, h]
  rfl

theorem Dev.watchSrc_none (h : (d.clkBlock ref).good.get? [src] = none) (out : Nat) : d.watchSrc ref out src = d := by
  unfold Dev.watchSrc
  dsimp only
  rw [h]

/-- A window counts for a failed source, or starts its count again. -/
theorem Dev.watchSrc_some {n : Nat} (h : (d.clkBlock ref).good.get? [src] = some n) (hn : n + 1 < 100) (out : Nat) : ∃ m ≤ n + 1,
    d.watchSrc ref out src = d.setClkBlock ref { d.clkBlock ref with good := (d.clkBlock ref).good.insert [src] m } := by
  unfold Dev.watchSrc
  dsimp only
  rw [h]
  dsimp only
  by_cases hin : out &&& pairsOf src = 0 ∧ d.calibrated ref src = true
  · rw [if_pos hin, if_neg (by omega)]
    exact ⟨n + 1, Nat.le_refl _, rfl⟩
  · rw [if_neg hin, if_neg (by omega)]
    exact ⟨0, Nat.zero_le _, rfl⟩

/-- A failed source of the block, and how many windows in tolerance any of them has at most. -/
def ClkBlock.Watches (x : ClkBlock) (s k : Nat) : Prop := (x.good.get? [s]).isSome = true ∧ ∀ j n, x.good.get? [j] = some n → n ≤ k

theorem ClkBlock.Watches.insert {x : ClkBlock} {s k m : Nat} (h : x.Watches s k) (hm : m ≤ k + 1) (src : Nat) :
    ({ x with good := x.good.insert [src] m } : ClkBlock).Watches s (k + 1) := by
  obtain ⟨hs, hle⟩ := h
  refine ⟨?_, fun j n hj => ?_⟩
  · by_cases he : s = src
    · rw [he, Tab.get?_insert_self]
      rfl
    · rw [Tab.get?_insert_ne (by simpa using he)]
      exact hs
  · by_cases he : j = src
    · rw [he, Tab.get?_insert_self] at hj
      exact Option.some.inj hj ▸ hm
    · rw [Tab.get?_insert_ne (by simpa using he)] at hj
      exact Nat.le_succ_of_le (hle j n hj)

theorem Dev.watches_watchSrc {s k : Nat} (h : (d.clkBlock ref).Watches s k) (hk : k + 1 < 100) (out src : Nat) :
    ((d.watchSrc ref out src).clkBlock ref).Watches s (k + 1) := by
  cases hn : (d.clkBlock ref).good.get? [src] with
  | none =>
    rw [Dev.watchSrc_none hn]
    exact ⟨h.1, fun j n hj => Nat.le_succ_of_le (h.2 j n hj)⟩
  | some n =>
    have hle := h.2 src n hn
    obtain ⟨m, hm, he⟩ := Dev.watchSrc_some hn (by omega) out
    rw [he, Dev.clkBlock_setClkBlock_self]
    exact h.insert (by omega) src

/-- One window brings no failed source back. -/
theorem Dev.watches_watchSrcs {s k : Nat} (out : Nat) (l : List Nat) (h : (d.clkBlock ref).Watches s k) (hk : k + l.length < 100) :
    ((l.foldl (fun e x => e.watchSrc ref out x) d).clkBlock ref).Watches s (k + l.length) := by
  induction l generalizing d k with
  | nil => exact h
  | cons x l ih =>
    rw [List.length_cons] at hk ⊢
    rw [show k + (l.length + 1) = k + 1 + l.length by omega]
    exact ih (Dev.watches_watchSrc h (by omega) out x) (by omega)

/-- A set of pairs that names a source declares it. -/
theorem Dev.watches_windowDecided {out s : Nat} (hg : (d.clkBlock ref).good = []) (hd : decideSrc out = some s) (hs : s ≠ 7) :
    ((d.windowDecided ref out).clkBlock ref).Watches s 0 := by
  have hno : (d.setClkBlock ref { d.clkBlock ref with ambig := 0 }).srcFailed ref s = false := by
    rw [Dev.srcFailed, Dev.clkBlock_setClkBlock_self, hg]
    rfl
  have he : d.windowDecided ref out = (d.setClkBlock ref { d.clkBlock ref with ambig := 0 }).declareSrc ref s := by
    unfold Dev.windowDecided
    rw [hd]
    split
    · next h => cases h
    · next h => exact absurd (Option.some.inj h) hs
    · next h => rw [Option.some.inj h]
  rw [he, Dev.clkBlock_declareSrc hno, Dev.clkBlock_setClkBlock_self, hg]
  refine ⟨by rw [Tab.get?_insert_self]; rfl, fun j n hj => ?_⟩
  by_cases hjs : j = s
  · rw [hjs, Tab.get?_insert_self] at hj
    exact (Option.some.inj hj).symm.le
  · rw [Tab.get?_insert_ne (by simpa using hjs)] at hj
    cases hj

/-- Any other set is counted, the tenth in a row raised. -/
def Dev.windowCounted (d : Dev) (ref : Nat) : Dev :=
  (d.setClkBlock ref { d.clkBlock ref with ambig := (d.clkBlock ref).ambig + 1 }).bump ref CLK_MON_AMBIG.COUNT

theorem Dev.windowDecided_ambiguous {out : Nat} (h : decideSrc out = some 7) : d.windowDecided ref out =
    if (d.clkBlock ref).ambig + 1 = 10 then (d.windowCounted ref).srcFail ref 7 1 else d.windowCounted ref := by
  rw [Dev.windowDecided, h]
  rfl

theorem Dev.watches_pcieDecided {s k pcie : Nat} (h : (d.clkBlock ref).Watches s k) :
    ((d.pcieDecided ref pcie).clkBlock ref).Watches s (k + 1) := by
  have hle : (d.clkBlock ref).Watches s (k + 1) := ⟨h.1, fun j n hj => Nat.le_succ_of_le (h.2 j n hj)⟩
  unfold Dev.pcieDecided
  split
  · cases hf : d.srcFailed ref 4 with
    | true => rwa [Dev.declareSrc_failed hf]
    | false =>
      rw [Dev.clkBlock_declareSrc hf]
      exact h.insert (Nat.zero_le _) 4
  · exact hle

theorem decideSrc_named : ∀ x ∈ [(1, 0), (3, 1), (6, 2), (4, 3)], decideSrc x.1 = some x.2 ∧ x.2 ≠ 7 := by decide

theorem decideSrc_ambiguous : ∀ n ∈ [2, 5, 7], decideSrc n = some 7 := by decide

/-- A source that a window declares stays declared at its end. -/
theorem Dev.srcFailed_windowEnd {out s : Nat} (hg : (d.clkBlock ref).good = []) (hd : decideSrc out = some s) (hs : s ≠ 7) (pcie : Nat) :
    ([0, 1, 2, 3, 4].foldl (fun e x => e.watchSrc ref (out + pcie) x) ((d.windowDecided ref out).pcieDecided ref pcie)).srcFailed ref s
      = true := by
  have hw := Dev.watches_pcieDecided (pcie := pcie) (Dev.watches_windowDecided hg hd hs)
  exact (Dev.watches_watchSrcs (out + pcie) [0, 1, 2, 3, 4] hw (by decide)).1

theorem Dev.pcieDecided_zero (d : Dev) (ref : Nat) : d.pcieDecided ref 0 = d := if_neg fun h => h rfl

theorem Dev.windowDecided_zero (d : Dev) (ref : Nat) : d.windowDecided ref 0 = d.setClkBlock ref { d.clkBlock ref with ambig := 0 } := rfl

theorem Dev.pcieSet_eq_zero {counts : List (Nat × Nat)} (h : d.outIn ref counts 3 = false ∨ ref = uREF_Q) : d.pcieSet ref counts = 0 := by
  unfold Dev.pcieSet
  rcases h with h | rfl
  · rw [h]
    exact ite_self 0
  · exact if_neg (by decide)

/-! ### What becoming stable leaves (R502) -/

theorem Dev.FieldsOnly.pwr (h : a.FieldsOnly b) : b.pwr = a.pwr := by rw [show b = { a with fields := b.fields } from h]

theorem Dev.fieldsOnly_lockOn (d : Dev) (src u : Nat) : d.FieldsOnly (Dev.lockOn src d u) := by
  unfold Dev.lockOn
  split
  · exact ((Dev.FieldsOnly.refl d).set ..).set ..
  · exact .refl d

theorem Dev.fieldsOnly_srcStable (d : Dev) (ref src : Nat) : d.FieldsOnly (d.srcStable ref src) := by
  have hlock : d.FieldsOnly ((plls ref).foldl (Dev.lockOn src) (d.set ref (okField src) 1)) :=
    Dev.FieldsOnly.foldl (fun e u => e.fieldsOnly_lockOn src u) _ ((Dev.FieldsOnly.refl d).set ..)
  exact Dev.FieldsOnly.foldl (fun e i => (Dev.FieldsOnly.refl e).set ..) _ (hlock.set ..)

theorem Dev.fields_lockOn {k : Key} (d : Dev) (src u : Nat) (hl : k ≠ CLK_PLL_STATUS.LOCKED.key u 0)
    (hh : k ≠ CLK_PLL_STATUS.HOLDOVER.key u 0) : (Dev.lockOn src d u).fields.get? k = d.fields.get? k := by
  unfold Dev.lockOn
  split
  · exact (Dev.fields_setI_ne hh).trans (Dev.fields_setI_ne hl)
  · rfl

theorem Dev.fields_foldl_lockOn {k : Key} (src : Nat) (us : List Nat) (hl : ∀ u ∈ us, k ≠ CLK_PLL_STATUS.LOCKED.key u 0)
    (hh : ∀ u ∈ us, k ≠ CLK_PLL_STATUS.HOLDOVER.key u 0) (d : Dev) : (us.foldl (Dev.lockOn src) d).fields.get? k = d.fields.get? k := by
  induction us generalizing d with
  | nil => rfl
  | cons u us ih =>
    exact (ih (fun x hx => hl x (.tail u hx)) (fun x hx => hh x (.tail u hx)) _).trans
      (Dev.fields_lockOn d src u (hl u (.head us)) (hh u (.head us)))

/-- A PLL has lock, and holds over no longer. -/
def Dev.HasLock (d : Dev) (u : Nat) : Prop := d.flag u CLK_PLL_STATUS.LOCKED = true ∧ d.flag u CLK_PLL_STATUS.HOLDOVER = false

theorem Dev.HasLock.congr (h : a.HasLock un) (hl : b.fields.get? (CLK_PLL_STATUS.LOCKED.key un 0) = a.fields.get? (CLK_PLL_STATUS.LOCKED.key un 0))
    (hh : b.fields.get? (CLK_PLL_STATUS.HOLDOVER.key un 0) = a.fields.get? (CLK_PLL_STATUS.HOLDOVER.key un 0)) : b.HasLock un :=
  ⟨(Dev.flag_congr hl).trans h.1, (Dev.flag_congr hh).trans h.2⟩

theorem Dev.hasLock_lockOn (h : d.get un CLK_PLL_STATUS.REF = src) : (Dev.lockOn src d un).HasLock un := by
  have hne : CLK_PLL_STATUS.LOCKED.key un 0 ≠ CLK_PLL_STATUS.HOLDOVER.key un 0 := Fld.key_ne (by decide) _ _ _ _
  rw [Dev.lockOn, if_pos h]
  exact ⟨Dev.flag_of_get (b := true) ((Dev.get_set_ne hne).trans (Dev.get_set_self ..)), Dev.flag_of_get (b := false) (Dev.get_set_self ..)⟩

theorem Dev.HasLock.lockOn (h : d.HasLock un) (src x : Nat) : (Dev.lockOn src d x).HasLock un := by
  by_cases hx : un = x
  · subst hx
    by_cases hr : d.get un CLK_PLL_STATUS.REF = src
    · exact Dev.hasLock_lockOn hr
    · rwa [Dev.lockOn, if_neg hr]
  · have hne (f g : Fld) : f.key un 0 ≠ g.key x 0 := fun e => hx (Fld.key_eq_iff.1 e).1
    exact h.congr (Dev.fields_lockOn d src x (hne _ _) (hne _ _)) (Dev.fields_lockOn d src x (hne _ _) (hne _ _))

theorem Dev.HasLock.foldl_lockOn (src : Nat) (us : List Nat) (h : d.HasLock un) : (us.foldl (Dev.lockOn src) d).HasLock un := by
  induction us generalizing d with
  | nil => exact h
  | cons x us ih => exact ih (h.lockOn src x)

theorem Dev.hasLock_foldl_lockOn {us : List Nat} (hu : un ∈ us) (h : d.get un CLK_PLL_STATUS.REF = src) :
    (us.foldl (Dev.lockOn src) d).HasLock un := by
  induction us generalizing d with
  | nil => exact absurd hu List.not_mem_nil
  | cons x us ih =>
    rcases List.mem_cons.1 hu with rfl | hu
    · exact (Dev.hasLock_lockOn h).foldl_lockOn src us
    · exact ih hu ((Dev.getI_congr (Dev.fields_lockOn d src x (Fld.key_ne (by decide) _ _ _ _) (Fld.key_ne (by decide) _ _ _ _))).trans h)

theorem Dev.fields_forwarded {k : Key} (d : Dev) (h : ∀ i < 4, k ≠ CLK_PLL_STATUS.LOCKED.key (796 + i) 0) :
    d.forwarded.fields.get? k = d.fields.get? k := by
  unfold Dev.forwarded
  extract_lets on
  have hfold (l : List Nat) (hl : ∀ i ∈ l, i < 4) (e : Dev) :
      (l.foldl (fun d i => d.setFlag (796 + i) CLK_PLL_STATUS.LOCKED on) e).fields.get? k = e.fields.get? k := by
    induction l generalizing e with
    | nil => rfl
    | cons i l ih =>
      exact (ih (fun j hj => hl j (.tail i hj)) _).trans (Dev.fields_setI_ne (h i (hl i (.head l))))
  exact hfold _ (fun i hi => List.mem_range.1 hi) d

/-- A register of the clocks that neither shows lock nor the core's reference stays as an input becomes good. -/
theorem Dev.fields_srcStable {k : Key} (d : Dev) (ref src : Nat) (hl : ∀ u, k ≠ CLK_PLL_STATUS.LOCKED.key u 0)
    (hh : ∀ u, k ≠ CLK_PLL_STATUS.HOLDOVER.key u 0) (hc : k ≠ CLK_SRC_STATUS.CORE_REF.key ref 0) :
    (d.srcStable ref src).fields.get? k = (d.set ref (okField src) 1).fields.get? k :=
  (Dev.fields_forwarded _ fun _ _ => hl _).trans ((Dev.fields_setI_ne hc).trans
    (Dev.fields_foldl_lockOn src _ (fun u _ => hl u) (fun u _ => hh u) _))

theorem plls_lt (hr : ref = uREF_F ∨ ref = uREF_Q) : ∀ u ∈ plls ref, u < 796 := by
  rcases hr with rfl | rfl <;> decide

theorem Dev.srcStable_reads (hr : ref = uREF_F ∨ ref = uREF_Q) (hs : src ≤ 1) : (d.srcStable ref src).flag ref (okField src) = true
    ∧ ∀ u ∈ plls ref, d.get u CLK_PLL_STATUS.REF = src → (d.srcStable ref src).HasLock u := by
  have hsrc : src = 0 ∨ src = 1 := by omega
  refine ⟨?_, fun u hu h => ?_⟩
  · have hset : (d.set ref (okField src) 1).flag ref (okField src) = true := by
      refine Dev.flag_of_get (b := true) ((Dev.get_set_self ..).trans ?_)
      rcases hsrc with rfl | rfl <;> rfl
    have hoff := okField_off src
    refine (Dev.flag_congr (Dev.fields_srcStable d ref src (fun _ => Fld.key_ne_of_off ?_ _ _ _ _) (fun _ => Fld.key_ne_of_off ?_ _ _ _ _)
      (Fld.key_ne ?_ _ _ _ _))).trans hset
    · rw [hoff]; decide
    · rw [hoff]; decide
    · rcases hsrc with rfl | rfl <;> decide
  · have href : (d.set ref (okField src) 1).get u CLK_PLL_STATUS.REF = src :=
      (Dev.get_set_ne (Fld.key_ne_of_off (by rw [okField_off]; decide) _ _ _ _)).trans h
    have hlt := plls_lt hr u hu
    have hne (f g : Fld) (i : Nat) : f.key u 0 ≠ g.key (796 + i) 0 := fun e => by have := (Fld.key_eq_iff.1 e).1; omega
    exact (Dev.hasLock_foldl_lockOn hu href).congr
      ((Dev.fields_forwarded _ fun i _ => hne _ _ i).trans (Dev.fields_setI_ne (Fld.key_ne (by decide) _ _ _ _)))
      ((Dev.fields_forwarded _ fun i _ => hne _ _ i).trans (Dev.fields_setI_ne (Fld.key_ne (by decide) _ _ _ _)))

end

section
variable {s : State} {ref src : Nat} {counts : List (Nat × Nat)} {d : Dev}

theorem makes_xtalStable (h : s.dev.xtalStable ref src counts = d) : Makes (.xtalStable ref src counts) s d := Makes.intro rfl h

theorem makes_monitorWindow (h : s.dev.monitorWindow ref counts = d) : Makes (.monitorWindow ref counts) s d := Makes.intro rfl h

end

/-- Settles O21: an input by whether it was declared before, a window by the set of pairs out of tolerance. -/
theorem referencesFailAndReturn : Obligations.ReferencesFailAndReturn := by
  refine ⟨fun s ref src counts hr hs hd hok hf => ?_, fun s ref src counts hr hs hd hok hf => ?_,
    fun _ _ _ _ hr hs hg ht hok hl => Makes.intro rfl (Dev.xtalStartTimeout_late hr hs hg ht hok hl),
    fun s ref counts hr hen hg ht => ?_, fun d ref src hs hf => Dev.declareSrc_reference hf hs⟩
  · have he := Dev.xtalStable_eq hr hs hd hok (.inl hf) counts
    rw [if_neg (by simp [hf])] at he
    obtain ⟨hflag, hlock⟩ := Dev.srcStable_reads (d := s.dev.ratiosTaken ref counts) hr hs
    have hframe := (s.dev.ratiosTaken ref counts).fieldsOnly_srcStable ref src
    have hpwr : ((s.dev.ratiosTaken ref counts).srcStable ref src).pwr = (s.dev.ratiosTaken ref counts).pwr := hframe.pwr
    refine ⟨_, makes_xtalStable he, hflag, fun i c hi hc h1 h2 => ?_, hlock, ?_⟩
    · rw [Dev.clkBlock_congr (congrArg PwrState.blocks hpwr), Dev.ratiosTaken, Dev.clkBlock_setClkBlock_self, ← Nat.zero_add i]
      exact get?_ratios hi hc h1 h2 _
    · rw [hpwr]
      exact hframe
  · refine ⟨fun hcal => makes_xtalStable (Dev.xtalStable_calibrated hf hcal counts), fun hcal => ⟨_, makes_xtalStable
      ((Dev.xtalStable_eq hr hs hd hok (.inr hcal) counts).trans (if_pos hf)), fun i c hi hc h1 h2 => ?_⟩⟩
    rw [← Nat.zero_add i]
    exact get?_ratios hi hc h1 h2 _
  · intro out h3 hgood
    have he := Dev.monitorWindow_eq hr hen hg ht counts h3
    have hset (n : Nat) (h : (out 0).toNat + 2 * (out 1).toNat + 4 * (out 2).toNat = n) : s.dev.outSet ref counts = n := h
    refine ⟨fun h0 h1 h2 hp => ?_, fun x hx hn => ?_, fun n hn hout hp => ?_⟩
    · rw [hset 0 (by simp [h0, h1, h2]), Dev.pcieSet_eq_zero hp, Dev.pcieDecided_zero, Dev.windowDecided_zero, Dev.watchSrcs_none] at he
      · exact makes_monitorWindow he
      · rw [Dev.clkBlock_setClkBlock_self]
        exact hgood
    · rw [hset x.1 hn] at he
      obtain ⟨hdec, h7⟩ := decideSrc_named x hx
      have hnone : ((s.dev.set ref CLK_SRC_STATUS.PAIR_OUT x.1).clkBlock ref).good = [] := hgood
      exact ⟨_, makes_monitorWindow he, Dev.srcFailed_windowEnd hnone hdec h7 _⟩
    · rw [hset n hout, Dev.pcieSet_eq_zero hp, Dev.pcieDecided_zero] at he
      have hdec := decideSrc_ambiguous n hn
      have hcounted : ((((s.dev.set ref CLK_SRC_STATUS.PAIR_OUT n).windowCounted ref)).clkBlock ref).good = [] :=
        (congrArg ClkBlock.good (Dev.clkBlock_setClkBlock_self ..)).trans hgood
      refine ⟨fun hten => ?_, fun hten => ?_⟩
      · rw [Dev.windowDecided_ambiguous hdec, Dev.clkBlock_set, if_neg hten, Dev.watchSrcs_none hcounted] at he
        exact makes_monitorWindow he
      · rw [Dev.windowDecided_ambiguous hdec, Dev.clkBlock_set, if_pos hten, Dev.watchSrcs_none] at he
        · exact makes_monitorWindow he
        · exact (congrArg ClkBlock.good (Dev.clkBlock_congr (congrArg PwrState.blocks (Dev.pwr_srcFail ..)) ref)).trans hcounted

end Sys2Proof.Machine
end

section
/-! SUPPORT. Calls of the Heneno Agent Interface, with the statement about them. -/
namespace Sys2Proof.Machine
open Sys2Proof

/-! ### Writing a slot twice -/

theorem Tab.insert_insert_self {α : Type} (t : Tab α) (k : Key) (v w : α) : (t.insert k v).insert k w = t.insert k w := by
  induction t with
  | nil => simp [Tab.insert]
  | cons e t ih =>
    obtain ⟨k', v'⟩ := e
    by_cases hk : k = k'
    · simp [Tab.insert, hk]
    · by_cases hlt : keyLt k k' = true
      · simp [Tab.insert, hk, hlt]
      · simp [Tab.insert, hk, hlt, ih]

theorem Tab.erase_insert_self {α : Type} (t : Tab α) (k : Key) (v : α) : (t.insert k v).erase k = t.erase k := by
  induction t with
  | nil => simp [Tab.insert, Tab.erase]
  | cons e t ih =>
    obtain ⟨k', v'⟩ := e
    by_cases hk : k = k'
    · simp [Tab.insert, Tab.erase, hk]
    · by_cases hlt : keyLt k k' = true
      · simp [Tab.insert, Tab.erase, hk, hlt]
      · have ih' := ih
        simp only [Tab.erase] at ih'
        simp [Tab.insert, Tab.erase, hk, hlt, ih']

/-- A value that is listed is overwritten by the next one. -/
theorem Tab.setD_setD_self {α : Type} [DecidableEq α] {v d : α} (hv : v ≠ d) (t : Tab α) (k : Key) (w : α) :
    (t.setD d k v).setD d k w = t.setD d k w := by
  by_cases hw : w = d
  · simp [Tab.setD, Tab.put, hv, hw, Tab.erase_insert_self]
  · simp [Tab.setD, Tab.put, hv, hw, Tab.insert_insert_self]

/-- What a slot with a call under way holds is overwritten by what is written next. -/
theorem Dev.setAgent_setAgent {x : Agent} (hx : x.running = true) (d : Dev) (slot : Nat) (y : Agent) :
    (d.setAgent slot x).setAgent slot y = d.setAgent slot y := by
  have hne : x ≠ {} := fun h => by rw [h] at hx; exact absurd hx (by decide)
  exact congrArg (fun t => ({ d with agents := t } : Dev)) (Tab.setD_setD_self hne d.agents [slot] y)

/-- The device as a call of the interface finds it: the slot's memory has the size it has now. -/
def Dev.entered (d : Dev) (slot m : Nat) : Dev := d.setAgent slot { d.agent slot with memLen := m }

/-- A call of the interface returns a value. -/
def Dev.returns (d : Dev) (slot : Nat) (r : Int) : Dev := d.setAgent slot { d.agent slot with ret := r }

@[simp] theorem Dev.agent_entered (d : Dev) (slot m : Nat) : (d.entered slot m).agent slot = { d.agent slot with memLen := m } :=
  Dev.agent_setAgent_self ..

section
variable {d e : Dev} {s : State} {i : Instr} {slot m : Nat} {r : Int} {g : Dev → Dev × Int}

/-! ### A call (R454, R455) -/

/-- May the slot's agent call the interface: a call of it is under way, within its memory and its time? -/
def Dev.mayCall (d : Dev) (slot m : Nat) : Prop :=
  (d.agent slot).running = true ∧ m ≤ (d.agent slot).memMib * 2 ^ 20
    ∧ d.now ≤ (d.agent slot).callFrom + 1000000 * (d.agent slot).callMs

theorem Dev.hai_called (h : d.mayCall slot m) (hg : g (d.entered slot m) = (e, r)) : d.hai slot m g = e.returns slot r := by
  obtain ⟨hr, hm, ht⟩ := h
  have hin : ¬ (¬ (d.agent slot).running = true ∨ (d.agent slot).memMib * 2 ^ 20 < m) := by simp [hr]; omega
  have hon : ¬ (d.agent slot).overdue d.now = true := by simp [Agent.overdue]; omega
  unfold Dev.entered at hg
  unfold Dev.hai Dev.returns
  rw [if_neg hin, if_neg hon, Dev.onAgent, Dev.onAgent, hg]

theorem Dev.hai_overdue (hr : (d.agent slot).running = true) (hm : m ≤ (d.agent slot).memMib * 2 ^ 20)
    (ht : (d.agent slot).callFrom + 1000000 * (d.agent slot).callMs < d.now) : d.hai slot m g = d.outrun slot := by
  have hin : ¬ (¬ (d.agent slot).running = true ∨ (d.agent slot).memMib * 2 ^ 20 < m) := by simp [hr]; omega
  have hon : (d.agent slot).overdue d.now = true := by simpa [Agent.overdue] using ht
  unfold Dev.hai
  rw [if_neg hin, if_pos hon]

/-- A call of the interface makes of the device what its effect makes of it, with its return value. -/
theorem makes_hai {f : Dev → Dev} (hx : exec i s = s.go f) (hf : f s.dev = s.dev.hai slot m g) (h : s.dev.mayCall slot m)
    (hg : g (s.dev.entered slot m) = (e, r)) : Makes i s (e.returns slot r) := .intro hx (hf.trans (Dev.hai_called h hg))

/-- As above, for a call without a pointer, which changes the slot alone. -/
theorem makes_hai_slot {f : Dev → Dev} {x : Agent} (hx : exec i s = s.go f)
    (hf : f s.dev = s.dev.hai slot (s.dev.agent slot).memLen g) (h : s.dev.mayCall slot (s.dev.agent slot).memLen)
    (hg : g (s.dev.entered slot (s.dev.agent slot).memLen) = ((s.dev.entered slot (s.dev.agent slot).memLen).setAgent slot x, r)) :
    Makes i s ((s.dev.setAgent slot x).setAgent slot { x with ret := r }) := by
  have hd := makes_hai hx hf h hg
  rwa [Dev.returns, Dev.agent_setAgent_self, Dev.entered, Dev.setAgent_setAgent h.1] at hd

/-- As above, for one that is refused. -/
theorem makes_hai_unchanged {f : Dev → Dev} (hx : exec i s = s.go f)
    (hf : f s.dev = s.dev.hai slot (s.dev.agent slot).memLen g) (h : s.dev.mayCall slot (s.dev.agent slot).memLen)
    (hg : g (s.dev.entered slot (s.dev.agent slot).memLen) = (s.dev.entered slot (s.dev.agent slot).memLen, r)) :
    Makes i s ((s.dev.setAgent slot (s.dev.agent slot)).setAgent slot { s.dev.agent slot with ret := r }) := by
  have hd := makes_hai hx hf h hg
  rwa [Dev.returns, Dev.agent_entered] at hd

/-! ### Commands and messages (R460, R465, R466) -/

theorem makes_haiCmdSubmit_permitted (h : s.dev.mayCall slot m) {ptr : Nat} {desc : List Byte} (hp : ptr + 64 ≤ m) {t : Ticket}
    (hd : t = ⟨.agent slot, slice desc 0 64⟩) (hop : permits (s.dev.agent slot).perm t.opcode = true)
    (hroom : (s.dev.entered slot m).agentRoom slot = true) : Makes (.haiCmdSubmit slot ptr m desc) s
      (((((s.dev.entered slot m).begin t none).tally uSVC 0x22 1).screen t).goOn.returns slot 0) := by
  subst hd
  refine makes_hai rfl rfl h ?_
  rw [if_neg (by omega), if_neg (by simp [hop]), if_neg (by simp [hroom])]

theorem makes_haiCmdSubmit_forbidden (h : s.dev.mayCall slot m) {ptr : Nat} {desc : List Byte} (hp : ptr + 64 ≤ m)
    (hop : permits (s.dev.agent slot).perm (Ticket.opcode ⟨.agent slot, slice desc 0 64⟩) = false) :
    Makes (.haiCmdSubmit slot ptr m desc) s ((s.dev.entered slot m).returns slot (haiStatus stPERMISSION)) := by
  refine makes_hai rfl rfl h ?_
  rw [if_neg (by omega), if_pos (by simp [hop])]

theorem makes_haiCmdSubmit_outside (h : s.dev.mayCall slot m) {ptr : Nat} {desc : List Byte} (hp : m < ptr + 64) :
    Makes (.haiCmdSubmit slot ptr m desc) s ((s.dev.entered slot m).returns slot haiBAD_POINTER) :=
  makes_hai rfl rfl h (if_pos hp)

theorem makes_haiRecv_empty (h : s.dev.mayCall slot m) (hi : (s.dev.agent slot).inbox = []) (buf len : Nat) :
    Makes (.haiRecv slot buf len m) s ((s.dev.entered slot m).returns slot haiEMPTY) :=
  makes_hai rfl rfl h (by simp [hi])

theorem makes_haiRecv_message (h : s.dev.mayCall slot m) {x : Msg} {rest : List Msg} (hi : (s.dev.agent slot).inbox = x :: rest)
    {buf len : Nat} (hl : x.size ≤ len) (hb : buf + x.size ≤ m) : Makes (.haiRecv slot buf len m) s
      ((((s.dev.entered slot m).setAgent slot { s.dev.agent slot with memLen := m, inbox := rest }).agentWrite slot buf
        (leBytes 2 x.kind ++ leBytes 2 x.body.length ++ leBytes 1 x.dropped.toNat ++ leBytes 3 0 ++ x.body)).goOn.returns slot
          (x.size : Int)) := by
  refine makes_hai rfl rfl h ?_
  rw [Dev.agent_entered, hi]
  dsimp only
  rw [if_neg (by omega), if_neg (by omega), Dev.onAgent, Dev.agent_entered]

/-! ### Time and registers (R465) -/

theorem makes_haiTimeNow (h : s.dev.mayCall slot m) {out : Nat} (ho : out + 8 ≤ m) :
    Makes (.haiTimeNow slot out m) s (((s.dev.entered slot m).agentWrite slot out (leBytes 8 s.dev.now)).returns slot 0) :=
  makes_hai rfl rfl h (if_neg (by omega))

theorem makes_haiTimeNow_outside (h : s.dev.mayCall slot m) {out : Nat} (ho : m < out + 8) :
    Makes (.haiTimeNow slot out m) s ((s.dev.entered slot m).returns slot haiBAD_POINTER) := makes_hai rfl rfl h (if_pos ho)

section
variable (h : s.dev.mayCall slot m) {un off out : Nat} (hp : bit (s.dev.agent slot).perm 2 = true) (ha : off % 8 = 0) (ho : out + 8 ≤ m)
  (he : (if populated un then (s.dev.entered slot m).accessed un else s.dev.entered slot m) = e)
include h hp ha ho he

theorem makes_haiRegRead (hg : populated un = false ∨ off < 0x400 ∨ e.gated un = false) : Makes (.haiRegRead slot un off out m) s
    (((e.rcDone un off .both none).agentWrite slot out (leBytes 8 (e.regRead un off))).returns slot 0) := by
  have hn : ¬ (populated un = true ∧ 0x400 ≤ off ∧ e.gated un = true) := fun ⟨h1, h2, h3⟩ => by
    rcases hg with hg | hg | hg
    · exact absurd h1 (by simp [hg])
    · omega
    · exact absurd h3 (by simp [hg])
  refine makes_hai rfl rfl h ?_
  dsimp only
  rw [he, Dev.agent_entered, if_neg (by simp [hp]), if_neg (by simp [ha]), if_neg (by omega), if_neg hn]

theorem makes_haiRegRead_gated (hu : populated un = true) (hoff : 0x400 ≤ off) (hg : e.gated un = true) :
    Makes (.haiRegRead slot un off out m) s ((e.gatedClassAccess un).returns slot (haiStatus stUNIT_UNAVAILABLE)) := by
  refine makes_hai rfl rfl h ?_
  dsimp only
  rw [he, Dev.agent_entered, if_neg (by simp [hp]), if_neg (by simp [ha]), if_neg (by omega), if_pos ⟨hu, hoff, hg⟩]

end

theorem makes_haiRegRead_forbidden (h : s.dev.mayCall slot m) (hp : bit (s.dev.agent slot).perm 2 = false) (un off out : Nat) :
    Makes (.haiRegRead slot un off out m) s ((s.dev.entered slot m).returns slot (haiStatus stPERMISSION)) :=
  makes_hai rfl rfl h (by rw [Dev.agent_entered]; exact if_pos (by simp [hp]))

/-! ### Lines and events (R465, R466) -/

section
variable (h : s.dev.mayCall slot m) {level ptr len : Nat} (hv : level ≤ 7) (h1 : 1 ≤ len) (h2 : len ≤ 256) (hp : ptr + len ≤ m)
include h hv h1 h2 hp

theorem makes_haiLog (hen : (s.dev.agent slot).logEn = true) (hl : (s.dev.lastSecond (s.dev.agent slot).lines).length < 100)
    (line : List Byte) (w : Bool) {r : Dev × Bool} (hr : ((s.dev.entered slot m).setAgent slot { s.dev.agent slot with
      memLen := m, lines := s.dev.now :: s.dev.lastSecond (s.dev.agent slot).lines }).deliverOwn (s.dev.agent slot).logRxq 0x42
        (slot + level * 2 ^ 8) (slice line 0 len) w = r) :
    Makes (.haiLog slot level ptr len m line w) s ((if r.2 then r.1 else r.1.rxDrop (s.dev.agent slot).logRxq).returns slot 0) := by
  subst hr
  refine makes_hai rfl rfl h ?_
  rw [Dev.agent_entered]
  dsimp only
  have hs : (s.dev.entered slot m).lastSecond (s.dev.agent slot).lines = s.dev.lastSecond (s.dev.agent slot).lines := rfl
  rw [if_neg (by omega), if_neg (by omega), if_neg (by simp [hen]), hs, if_neg (by omega), Dev.onAgent, Dev.agent_entered]
  rfl

theorem makes_haiLog_disabled (hen : (s.dev.agent slot).logEn = false) (line : List Byte) (w : Bool) :
    Makes (.haiLog slot level ptr len m line w) s ((s.dev.entered slot m).returns slot (haiStatus stUNIT_UNAVAILABLE)) := by
  refine makes_hai rfl rfl h ?_
  rw [Dev.agent_entered]
  dsimp only
  rw [if_neg (by omega), if_neg (by omega), if_pos (by simp [hen])]

end

theorem makes_haiEventRaise (h : s.dev.mayCall slot m) {type ptr : Nat} (h1 : 0x20 ≤ type) (h2 : type ≤ 0x3E) (hp : ptr + 12 ≤ m)
    (hl : (s.dev.lastSecond (s.dev.agent slot).raised).length < 1000) (payload : List Byte) :
    Makes (.haiEventRaise slot type ptr m payload) s
      (((((s.dev.entered slot m).setAgent slot { s.dev.agent slot with
        memLen := m, raised := s.dev.now :: s.dev.lastSecond (s.dev.agent slot).raised }).raiseOn (0x1C0 + slot) uSVC type
          (slice payload 0 12)).countRaised uSVC).returns slot 0) := by
  refine makes_hai rfl rfl h ?_
  rw [Dev.agent_entered]
  dsimp only
  have hs : (s.dev.entered slot m).lastSecond (s.dev.agent slot).raised = s.dev.lastSecond (s.dev.agent slot).raised := rfl
  rw [if_neg (by omega), if_neg (by omega), hs, if_neg (by omega), Dev.onAgent, Dev.agent_entered]
  rfl

/-! ### Timers and subscriptions (R465, R466) -/

section
variable (h : s.dev.mayCall slot (s.dev.agent slot).memLen) {id due period source : Nat}
include h

theorem makes_haiTimerSet (hid : id < 64) (hp : period = 0 ∨ 10000 ≤ period) (hp' : period < 2 ^ 63) {x : Agent}
    (hx : x = { s.dev.agent slot with
      timers := (s.dev.agent slot).timers.filter (fun t => t.1 != id) ++ [(id, due % 2 ^ 64, period)] }) :
    Makes (.haiTimerSet slot id due period) s ((s.dev.setAgent slot x).setAgent slot { x with ret := 0 }) := by
  subst hx
  refine makes_hai_slot rfl rfl h ?_
  rw [if_neg (by omega), Dev.onAgent, Dev.agent_entered]

theorem makes_haiTimerSet_badArg (ha : 64 ≤ id ∨ (period ≠ 0 ∧ period < 10000)) : Makes (.haiTimerSet slot id due period) s
    ((s.dev.setAgent slot (s.dev.agent slot)).setAgent slot { s.dev.agent slot with ret := haiBAD_ARG }) :=
  makes_hai_unchanged rfl rfl h (if_pos (by omega))

theorem makes_haiTimerCancel (hid : id < 64) {x : Agent}
    (hx : x = { s.dev.agent slot with timers := (s.dev.agent slot).timers.filter (fun t => t.1 != id) }) :
    Makes (.haiTimerCancel slot id) s ((s.dev.setAgent slot x).setAgent slot { x with ret := 0 }) := by
  subst hx
  refine makes_hai_slot rfl rfl h ?_
  rw [if_neg (by omega), Dev.onAgent, Dev.agent_entered]

theorem makes_haiEventSubscribe (hs : source < 512) (on : Bool) {x : Agent}
    (hx : x = { s.dev.agent slot with subs := if on then (s.dev.agent slot).subs.filter (fun x => x != source) ++ [source]
      else (s.dev.agent slot).subs.filter (fun x => x != source) }) :
    Makes (.haiEventSubscribe slot source on) s ((s.dev.setAgent slot x).setAgent slot { x with ret := 0 }) := by
  subst hx
  refine makes_hai_slot rfl rfl h ?_
  rw [if_neg (by omega), Dev.onAgent, Dev.agent_entered]

theorem makes_haiEventSubscribe_badArg (hs : 512 ≤ source) (on : Bool) : Makes (.haiEventSubscribe slot source on) s
    ((s.dev.setAgent slot (s.dev.agent slot)).setAgent slot { s.dev.agent slot with ret := haiBAD_ARG }) :=
  makes_hai_unchanged rfl rfl h (if_pos hs)

end
end

/-- Settles O58: each call is its effect within `Dev.hai`, which adds the return value. -/
theorem agentInterfaceCalls : Obligations.AgentInterfaceCalls := by
  unfold Obligations.AgentInterfaceCalls
  refine ⟨fun s slot m hr hm ht => ?_, fun s slot hr hm ht => ?_, fun s slot m out hr hm ht => .intro rfl (Dev.hai_overdue hr hm ht)⟩
  · have h : s.dev.mayCall slot m := ⟨hr, hm, ht⟩
    refine ⟨fun ptr desc hp => ⟨fun hop hroom => makes_haiCmdSubmit_permitted h hp rfl hop hroom,
        fun hop => makes_haiCmdSubmit_forbidden h hp hop⟩,
      fun ptr desc hp => makes_haiCmdSubmit_outside h hp,
      fun buf len hi => makes_haiRecv_empty h hi buf len,
      fun buf len x rest hi hl hb => makes_haiRecv_message h hi hl hb,
      fun out => ⟨makes_haiTimeNow h, makes_haiTimeNow_outside h⟩,
      fun un off out hp ha ho => ⟨makes_haiRegRead h hp ha ho rfl, makes_haiRegRead_gated h hp ha ho rfl⟩,
      fun un off out hp => makes_haiRegRead_forbidden h hp un off out,
      fun level ptr len line w hv h1 h2 hp hen hl => makes_haiLog h hv h1 h2 hp hen hl line w rfl,
      fun level ptr len line w hv h1 h2 hp hen => makes_haiLog_disabled h hv h1 h2 hp hen line w,
      fun type ptr payload h1 h2 hp hl => makes_haiEventRaise h h1 h2 hp hl payload⟩
  · have h : s.dev.mayCall slot (s.dev.agent slot).memLen := ⟨hr, hm, ht⟩
    exact ⟨fun id due period hid hp hp' => makes_haiTimerSet h hid hp hp' rfl,
      fun id due period ha => makes_haiTimerSet_badArg h ha,
      fun id hid => makes_haiTimerCancel h hid rfl,
      fun source on hs => makes_haiEventSubscribe h hs on rfl,
      fun source on hs => makes_haiEventSubscribe_badArg h hs on⟩

end Sys2Proof.Machine
end

section
/-! SUPPORT. What agents' commands ask of the device stays the same under reporting and counting. -/
namespace Sys2Proof.Machine
open Sys2Proof

section
variable {a b d : Dev} {s : State} {slot new : Nat} {c : HCmd}

/-! ### What the store and the identity depend on -/

theorem Dev.store_congr (h : b.fw = a.fw) : b.store = a.store := by
  simp only [Dev.store, Dev.storeCopy, Dev.knowsSchema, h]

theorem Dev.ident_congr (h : b.fw = a.fw) (un : Nat) : b.ident un = a.ident un := by simp only [Dev.ident, h]

theorem Dev.majorStepping_congr (h : b.fw = a.fw) : b.majorStepping = a.majorStepping := by
  rw [Dev.majorStepping, Dev.ident_congr h, Dev.majorStepping]

theorem Dev.agentImageBad_congr (h : b.fw = a.fw) (img : List Byte) : b.agentImageBad img = a.agentImageBad img := by
  simp only [Dev.agentImageBad, Dev.store_congr h, Dev.majorStepping_congr h]

theorem Dev.Noted.store (h : a.Noted b) : b.store = a.store := Dev.store_congr h.fw

theorem Dev.Noted.flashHeld (h : a.Noted b) : b.flashHeld = a.flashHeld := by rw [Dev.flashHeld, h.now, h.fw, Dev.flashHeld]

theorem Dev.Noted.agentImageBad (h : a.Noted b) (img : List Byte) : b.agentImageBad img = a.agentImageBad img :=
  Dev.agentImageBad_congr h.fw img

/-! ### Slots -/

theorem Dev.Noted.agState (h : a.Noted b) (slot : Nat) : b.agState slot = a.agState slot := h.getI (noteKey_of _ _ _ (by decide))

theorem Dev.Noted.memMib (h : a.Noted b) (slot : Nat) : (b.agent slot).memMib = (a.agent slot).memMib := by rw [h.2.2.1 slot]

theorem Dev.Noted.share (h : a.Noted b) (slot : Nat) : (b.agent slot).share = (a.agent slot).share := by rw [h.2.2.1 slot]

theorem Dev.Noted.quotasPassed (h : a.Noted b) (slot : Nat) (c : HCmd) : b.quotasPassed slot c = a.quotasPassed slot c := by
  have hu : b.usedSlots = a.usedSlots := by simp only [Dev.usedSlots, h.agState]
  have hm : (fun s => (b.agent s).memMib) = fun s => (a.agent s).memMib := funext h.memMib
  have hs : (fun s => (b.agent s).share) = fun s => (a.agent s).share := funext h.share
  unfold Dev.quotasPassed
  rw [hu, hm, hs]

theorem Dev.agState_agTo (d : Dev) (slot new : Nat) : (d.agTo slot new).agState slot = new % 8 := by
  have hn : ((d.setI uSVC AGT_STATUS.STATE slot new).showQuotas).Noted (d.agTo slot new) := Dev.noted_raise ..
  rw [hn.agState, Dev.agState, Dev.showQuotas, Dev.set, Dev.set, Dev.getI_setI_ne (Fld.key_ne (by decide) _ _ _ _),
    Dev.getI_setI_ne (Fld.key_ne (by decide) _ _ _ _), Dev.getI_setI_self]
  rfl

/-- A change of state changes no more of what a slot holds than its inbox. -/
theorem Dev.agent_agTo (d : Dev) (slot new k : Nat) : ∃ m l, (d.agTo slot new).agent k = { d.agent k with inbox := m, lost := l } :=
  ⟨_, _, (Dev.noted_raise ((d.setI uSVC AGT_STATUS.STATE slot new).showQuotas) ..).2.2.1 k⟩

theorem Dev.agState_callBegins (d : Dev) (slot k : Nat) : (d.callBegins slot).agState k = d.agState k := (Dev.noted_tally ..).agState k

theorem Dev.agent_callBegins (d : Dev) (slot : Nat) :
    ∃ m l, (d.callBegins slot).agent slot = { d.agent slot with running := true, callFrom := d.now, inbox := m, lost := l } := by
  have hn := (Dev.noted_tally (d.onAgent slot (fun a => { a with running := true, callFrom := d.now })) uSVC 0x20 1).2.2.1 slot
  rw [Dev.onAgent, Dev.agent_setAgent_self] at hn
  exact ⟨_, _, hn⟩

end

/-- A command whose block is not in order completes at once (R410). -/
theorem completes_badBlock {i : Instr} {s : State} {c : HCmd} {f : Dev → Dev} {op : Nat} {ps : List Param} {blk : Bool}
    {body : Dev → Dev × Option Reply} (hx : exec i s = s.go f) (hf : f s.dev = s.dev.command c op ps body blk)
    (h1 : s.dev.heldBack op c.ticket = false) (h2 : hdrBad c.ticket = none) (h3 : areaBad c.area ps = none)
    (h4 : s.dev.agentBad c = none) (hr : c.readOk = true) (hb : blk = false) : Completes i s c.ticket .badBlock s.dev := by
  refine ⟨c.begun s.dev, .intro hx ?_, s.dev.noted_begun c⟩
  rw [hf]
  unfold Dev.command
  rw [if_neg (by simp [h1]), h2]
  dsimp only
  rw [h3]
  dsimp only
  rw [h4]
  dsimp only
  rw [if_pos ⟨hr, by simp [hb]⟩]

section
variable {s : State} {slot : Nat} {c : HCmd} {img : List Byte}

theorem occupied_of_mem {st : Nat} (h : st ∈ [agRUNNING, agRESTARTING, agFAILED]) :
    st ≠ agEMPTY ∧ ¬ (st = agLOADING ∨ st = agSTOPPING) := by
  simp only [List.mem_cons, List.not_mem_nil, or_false] at h
  rcases h with rfl | rfl | rfl <;> decide

/-! ### AGENT_LOAD (R457, R459, R461) -/

section
variable (hi : slice c.block 0 (c.par 8 31 0) = img)
  (ha : c.accepted s.dev 0x0605 c.agentLoadParams (s.dev.agentImageBad img != some .badBlock))
  (hs : s.dev.svc uSVC = sACTIVE) (hslot : c.par 0 5 0 = slot)
include hi ha hs hslot

theorem completes_agentLoad_badImage (he : s.dev.agState slot = agEMPTY) (hq : s.dev.quotasPassed slot c = false) (hr : c.readOk = true)
    {r : Reply} (hbad : s.dev.agentImageBad img = some r) : Completes (.agentLoad c) s c.ticket r s.dev := by
  subst hi hslot
  refine Completes.intro' rfl (Dev.agentLoad.eq_def s.dev c) ha (fun b hb => ?_)
  dsimp only
  rw [hb.svc, hb.agState, hb.quotasPassed, hb.agentImageBad, hbad, if_neg (by simp [hs]), if_neg (by rw [he]; decide),
    if_neg (by simp [he]), if_neg (by simp [hq]), if_neg (by simp [hr])]
  exact ⟨rfl, hb⟩

theorem makes_agentLoad_empty (he : s.dev.agState slot = agEMPTY) (hq : s.dev.quotasPassed slot c = false) (hr : c.readOk = true)
    (hgood : s.dev.agentImageBad img = none) : Makes (.agentLoad c) s (((c.begun s.dev).loadAgent slot c).noteStarted c.ticket) := by
  subst hi hslot
  have hb := s.dev.noted_begun c
  refine Makes.going rfl (Dev.agentLoad.eq_def s.dev c) ha ?_
  dsimp only
  rw [hb.svc, hb.agState, hb.quotasPassed, hb.agentImageBad, hgood, if_neg (by simp [hs]), if_neg (by rw [he]; decide),
    if_neg (by simp [he]), if_neg (by simp [hq]), if_neg (by simp [hr])]
  exact if_pos he

theorem makes_agentLoad_replace (he : s.dev.agState slot ∈ [agRUNNING, agRESTARTING, agFAILED]) (hrep : c.par 0 6 6 = 1)
    (hq : s.dev.quotasPassed slot c = false) (hr : c.readOk = true) (hgood : s.dev.agentImageBad img = none) :
    Makes (.agentLoad c) s (((c.begun s.dev).stopAgent slot none (some c)).noteStarted c.ticket) := by
  subst hi hslot
  have hb := s.dev.noted_begun c
  have hne := occupied_of_mem he
  refine Makes.going rfl (Dev.agentLoad.eq_def s.dev c) ha ?_
  dsimp only
  rw [hb.svc, hb.agState, hb.quotasPassed, hb.agentImageBad, hgood, if_neg (by simp [hs]), if_neg hne.2,
    if_neg (by simp [hrep]), if_neg (by simp [hq]), if_neg (by simp [hr])]
  exact if_neg hne.1

theorem completes_agentLoad_exists (he : s.dev.agState slot ∈ [agRUNNING, agRESTARTING, agFAILED]) (hrep : c.par 0 6 6 = 0) :
    Completes (.agentLoad c) s c.ticket (.fail stEXISTS) s.dev := by
  subst hi hslot
  have hne := occupied_of_mem he
  refine Completes.intro' rfl (Dev.agentLoad.eq_def s.dev c) ha (fun b hb => ?_)
  dsimp only
  rw [hb.svc, hb.agState, if_neg (by simp [hs]), if_neg hne.2, if_pos ⟨hne.1, by simp [hrep]⟩]
  exact ⟨rfl, hb⟩

theorem completes_agentLoad_busy (he : s.dev.agState slot = agLOADING ∨ s.dev.agState slot = agSTOPPING) :
    Completes (.agentLoad c) s c.ticket (.fail stRETRY_LATER) s.dev := by
  subst hi hslot
  refine Completes.intro' rfl (Dev.agentLoad.eq_def s.dev c) ha (fun b hb => ?_)
  dsimp only
  rw [hb.svc, hb.agState, if_neg (by simp [hs]), if_pos he]
  exact ⟨rfl, hb⟩

theorem completes_agentLoad_noRoom (he : s.dev.agState slot = agEMPTY) (hq : s.dev.quotasPassed slot c = true) :
    Completes (.agentLoad c) s c.ticket (.fail stNO_RESOURCE) s.dev := by
  subst hi hslot
  refine Completes.intro' rfl (Dev.agentLoad.eq_def s.dev c) ha (fun b hb => ?_)
  dsimp only
  rw [hb.svc, hb.agState, hb.quotasPassed, if_neg (by simp [hs]), if_neg (by rw [he]; decide), if_neg (by simp [he]), if_pos hq]
  exact ⟨rfl, hb⟩

end

theorem Dev.agent_loadAgent (d : Dev) (slot : Nat) (c : HCmd) : ((d.loadAgent slot c).agent slot).running = true
    ∧ ((d.loadAgent slot c).agent slot).waiting = some c.ticket ∧ ((d.loadAgent slot c).agent slot).perm = c.par 2 15 0
    ∧ ((d.loadAgent slot c).agent slot).image = slice c.block 0 (c.par 8 31 0) := by
  unfold Dev.loadAgent
  extract_lets img h a dImage
  have ha : dImage.agent slot = a := Dev.agent_setAgent_self ..
  obtain ⟨m, l, ht⟩ := dImage.agent_agTo slot agLOADING slot
  obtain ⟨m', l', hc⟩ := (dImage.agTo slot agLOADING).agent_callBegins slot
  rw [hc, ht, ha]
  exact ⟨rfl, rfl, rfl, rfl⟩

theorem Dev.agState_loadAgent (d : Dev) (slot : Nat) (c : HCmd) : (d.loadAgent slot c).agState slot = agLOADING := by
  rw [Dev.loadAgent, Dev.agState_callBegins, Dev.agState_agTo]
  rfl

/-! ### AGENT_STOP (R462, R463) -/

section
variable (ha : c.accepted s.dev 0x0606 c.agentStopParams) (hs : s.dev.svc uSVC = sACTIVE) (hslot : c.par 0 5 0 = slot)
include ha hs hslot

theorem completes_agentStop_empty (he : s.dev.agState slot = agEMPTY) : Completes (.agentStop c) s c.ticket (.fail stNOT_FOUND) s.dev := by
  subst hslot
  refine Completes.intro' rfl (Dev.agentStop.eq_def s.dev c) ha (fun b hb => ?_)
  dsimp only
  rw [hb.svc, hb.agState, if_neg (by simp [hs]), if_pos he]
  exact ⟨rfl, hb⟩

theorem completes_agentStop_busy (he : s.dev.agState slot = agLOADING ∨ s.dev.agState slot = agSTOPPING) :
    Completes (.agentStop c) s c.ticket (.fail stRETRY_LATER) s.dev := by
  subst hslot
  refine Completes.intro' rfl (Dev.agentStop.eq_def s.dev c) ha (fun b hb => ?_)
  dsimp only
  rw [hb.svc, hb.agState, if_neg (by simp [hs]), if_neg (by rcases he with he | he <;> rw [he] <;> decide), if_pos he]
  exact ⟨rfl, hb⟩

theorem makes_agentStop (he : s.dev.agState slot ∈ [agRUNNING, agRESTARTING, agFAILED]) :
    Makes (.agentStop c) s (((c.begun s.dev).stopAgent slot (some c.ticket) none).noteStarted c.ticket) := by
  subst hslot
  have hb := s.dev.noted_begun c
  have hne := occupied_of_mem he
  refine Makes.going rfl (Dev.agentStop.eq_def s.dev c) ha ?_
  dsimp only
  rw [hb.svc, hb.agState, if_neg (by simp [hs]), if_neg hne.1, if_neg hne.2]

end

section
variable (hst : s.dev.agState slot = agSTOPPING) (hrun : (s.dev.agent slot).running = false) (hfl : s.dev.agentInflight slot = 0)
include hst hrun hfl

theorem makes_agentStopped {t : Ticket} (hw : (s.dev.agent slot).waiting = some t) (hn : (s.dev.agent slot).replacing = none) :
    Makes (.agentStopped slot) s ((s.dev.freeAgent slot).finish t (.ok ((s.dev.agent slot).aborted % 65536))) := by
  refine .intro rfl ?_
  unfold Dev.agentStopped
  rw [if_neg (by simp [hst, hrun, hfl]), hw, hn]

/-- A replacement takes the freed slot, or ends where the quotas have no room for it. -/
theorem makes_agentStopped_replaced (hw : (s.dev.agent slot).waiting = none) (hn : (s.dev.agent slot).replacing = some c)
    (hc : (s.dev.freeAgent slot).isLost c.ticket = true ∨ (s.dev.freeAgent slot).inFlight c.ticket = true) :
    Makes (.agentStopped slot) s (if (s.dev.freeAgent slot).quotasPassed slot c then
      (s.dev.freeAgent slot).finish c.ticket (.fail stNO_RESOURCE) else (s.dev.freeAgent slot).loadAgent slot c) := by
  refine .intro rfl ?_
  unfold Dev.agentStopped
  rw [if_neg (by simp [hst, hrun, hfl]), hw, hn]
  exact if_neg (fun ⟨h1, h2⟩ => hc.elim h1 h2)

end

/-! ### AGENT_KEY_SET (R458) -/

/-- Does the key in slot `i` sign the key and slot of an AGENT_KEY_SET? -/
def HCmd.keySigned (c : HCmd) (d : Dev) (i : Nat) : Bool :=
  match d.store.keys.get? [i] with
  | some k => Config.ecdsaOk k (slice c.block 0 64 ++ leBytes 1 (c.par 0 2 0)) (slice c.block 64 64)
  | none => false

/-- May an AGENT_KEY_SET change its slot: the first key of slot 0, or one signed by the key of slot 0 or of the slot itself? -/
def HCmd.keyAllowed (c : HCmd) (d : Dev) : Prop :=
  (c.par 0 2 0 = 0 ∧ c.par 0 3 3 ≠ 1 ∧ d.store.keys.get? [0] = none) ∨ c.keySigned d 0 = true ∨ c.keySigned d (c.par 0 2 0) = true

/-- What an AGENT_KEY_SET puts into its slot. -/
def HCmd.newKey (c : HCmd) : Option (List Byte) := if c.par 0 3 3 == 1 then none else some (slice c.block 0 64)

theorem HCmd.keySigned_of_get {d : Dev} {k : List Byte} {i : Nat} (hk : d.store.keys.get? [i] = some k)
    (he : Config.ecdsaOk k (slice c.block 0 64 ++ leBytes 1 (c.par 0 2 0)) (slice c.block 64 64) = true) : c.keySigned d i = true := by
  rw [HCmd.keySigned, hk]
  exact he

theorem HCmd.keySigned_of_none {d : Dev} {i : Nat} (hk : d.store.keys.get? [i] = none) : c.keySigned d i = false := by
  rw [HCmd.keySigned, hk]

theorem Dev.agentKeySet_eq (d : Dev) (c : HCmd) : d.agentKeySet c = d.command c 0x0607 c.agentKeySetParams (fun d =>
    if d.svc uSVC ≠ sACTIVE then (d, some (.fail stUNIT_UNAVAILABLE))
    else if ¬ c.readOk then (d.dmaFailed, some (.fail stDATA_ERROR))
    else if ¬ (c.par 0 2 0 == 0 && !(c.par 0 3 3 == 1) && (d.store.keys.get? [0]).isNone) = true ∧ ¬ c.keySigned d 0 = true
      ∧ ¬ c.keySigned d (c.par 0 2 0) = true then (d, some (.fail stPERMISSION))
    else if d.flashHeld then ({ d with fw := { d.fw with held := d.fw.held ++ [c] } }, none)
    else (d.putStore { d.store with keys := d.store.keys.put [c.par 0 2 0] c.newKey }, some .ok))
    (blk := c.par 0 3 3 == 1 || Config.onCurve (slice c.block 0 64)) := rfl

theorem HCmd.accepted.withBlock {d : Dev} {op : Nat} {ps : List Param} {blk : Bool} (h : c.accepted d op ps) (hb : blk = true) :
    c.accepted d op ps blk := by rwa [hb]

section
variable (ha : c.accepted s.dev 0x0607 c.agentKeySetParams) (hs : s.dev.svc uSVC = sACTIVE) (hr : c.readOk = true)
  (hblk : c.par 0 3 3 = 1 ∨ Config.onCurve (slice c.block 0 64) = true)
include ha hs hr hblk

theorem makes_agentKeySet (hk : c.keyAllowed s.dev) (hh : s.dev.flashHeld = false) : Makes (.agentKeySet c) s
    (((c.begun s.dev).putStore { s.dev.store with keys := s.dev.store.keys.put [c.par 0 2 0] c.newKey }).finish c.ticket .ok) := by
  have hb := s.dev.noted_begun c
  refine Makes.ended rfl (s.dev.agentKeySet_eq c) (ha.withBlock (by simpa using hblk)) ?_
  simp only [HCmd.keySigned, hb.store, hb.svc, hb.flashHeld]
  rw [if_neg (by simp [hs]), if_neg (by simp [hr]), if_neg ?_, if_neg (by simp [hh])]
  rintro ⟨h1, h2, h3⟩
  rcases hk with ⟨h4, h5, h6⟩ | h4 | h4
  · exact h1 (by simp [h4, h5, h6])
  · exact h2 h4
  · exact h3 h4

theorem completes_agentKeySet_forbidden (h0 : s.dev.store.keys.get? [0] = none) (h1 : s.dev.store.keys.get? [c.par 0 2 0] = none)
    (hf : c.par 0 2 0 ≠ 0 ∨ c.par 0 3 3 = 1) : Completes (.agentKeySet c) s c.ticket (.fail stPERMISSION) s.dev := by
  refine Completes.intro' rfl (s.dev.agentKeySet_eq c) (ha.withBlock (by simpa using hblk)) (fun b hb => ?_)
  have hs0 : c.keySigned b 0 = false := HCmd.keySigned_of_none (by rw [hb.store, h0])
  have hs1 : c.keySigned b (c.par 0 2 0) = false := HCmd.keySigned_of_none (by rw [hb.store, h1])
  have hfree : (c.par 0 2 0 == 0 && !(c.par 0 3 3 == 1) && (b.store.keys.get? [0]).isNone) = false := by
    rcases hf with hf | hf <;> simp [hf]
  rw [hb.svc, if_neg (by simp [hs]), if_neg (by simp [hr]), if_pos (by simp [hfree, hs0, hs1])]
  exact ⟨rfl, hb⟩

end

/-! ### Calls, traps, restarts and timers (R455, R463, R464, R466) -/

theorem makes_agentRun_begins (hlt : slot < 64) (hs : s.dev.svc uSVC = sACTIVE) (hp : s.dev.fwPaused = false)
    (hst : s.dev.agState slot = agRUNNING) (hr : (s.dev.agent slot).running = false) (hi : (s.dev.agent slot).inbox ≠ []) :
    Makes (.agentRun slot none) s (s.dev.callBegins slot) :=
  .intro rfl (if_pos ⟨hlt, hs, by simp [hp], hst, by simp [hr], hi⟩)

section
variable (hr : (s.dev.agent slot).running = true)
include hr

theorem makes_agentRun_overdue (ht : (s.dev.agent slot).callFrom + 1000000 * (s.dev.agent slot).callMs < s.dev.now) (r : Int) :
    Makes (.agentRun slot (some r)) s (s.dev.outrun slot) := by
  have hon : (s.dev.agent slot).overdue s.dev.now = true := by simpa [Agent.overdue] using ht
  refine .intro rfl ?_
  unfold Dev.agentRun
  dsimp only
  rw [if_neg (by simp [hr]), if_pos hon]

variable (ht : s.dev.now ≤ (s.dev.agent slot).callFrom + 1000000 * (s.dev.agent slot).callMs)
include ht

theorem makes_agentRun_returns (hst : s.dev.agState slot = agRUNNING) (r : Int) : Makes (.agentRun slot (some r)) s
    (s.dev.setAgent slot { s.dev.agent slot with running := false }) := by
  have hon : ¬ (s.dev.agent slot).overdue s.dev.now = true := by simpa [Agent.overdue] using ht
  refine .intro rfl ?_
  unfold Dev.agentRun
  dsimp only
  rw [if_neg (by simp [hr]), if_neg hon, if_neg (by rw [hst]; decide), Dev.onAgent]

theorem makes_agentRun_started (hst : s.dev.agState slot = agLOADING) {t : Ticket} (hw : (s.dev.agent slot).waiting = some t) {d : Dev}
    (hd : ((s.dev.setAgent slot { s.dev.agent slot with running := false, waiting := none }).bumpI uSVC AGT_STATUS.GENERATION slot).agTo slot
      agRUNNING = d) : Makes (.agentRun slot (some 0)) s (d.finish t (.ok (d.getI uSVC AGT_STATUS.GENERATION slot))) := by
  have hon : ¬ (s.dev.agent slot).overdue s.dev.now = true := by simpa [Agent.overdue] using ht
  refine .intro rfl ?_
  unfold Dev.agentRun
  dsimp only
  rw [if_neg (by simp [hr]), if_neg hon, if_pos hst, if_pos rfl, hw, Dev.onAgent, hd]

end

/-- What a trap leaves of a running slot before its commands are settled. -/
def Agent.trapped (a : Agent) (traps : List Nat) (n now : Nat) : Agent :=
  { a with running := false, inbox := [], timers := [], subs := [], traps := traps, mem := [], aborted := n
           restartAt := now + 100000000 * 2 ^ (traps.length - 1) }

theorem makes_agentTrap {code : Nat} (fn : Nat) (hm : (s.dev.agent slot).mayTrap s.dev.now code = true)
    (hst : s.dev.agState slot = agRUNNING) {traps : List Nat} (ht : s.dev.recentTraps slot code = traps) {n : Nat}
    (hn : s.dev.agentInflight slot - (s.dev.agent slot).settling.length = n) {d : Dev}
    (hd : (((s.dev.setAgent slot ((s.dev.agent slot).trapped traps n s.dev.now)).addI uSVC AGT_COUNTS.INBOX_DROP slot
      (s.dev.agent slot).inbox.length).addI uSVC AGT_COUNTS.ABORTED slot n).setI uSVC AGT_STATUS.LAST_TRAP slot code = d) :
    Makes (.agentTrap slot code fn) s (((d.settleAgent slot).raise uSVC 0x14
      (leBytes 1 slot ++ leBytes 1 code ++ leBytes 2 0 ++ leBytes 4 fn ++ leBytes 4 n)).agTo slot
        (if 5 ≤ traps.length ∧ code ≠ 9 then agFAILED else agRESTARTING)) := by
  subst ht hn hd
  refine .intro rfl ?_
  unfold Dev.agentTrap
  rw [if_neg (by simp [hm]), if_neg (by rw [hst]; decide), if_neg (by simp [hst])]
  rfl

theorem makes_agentRestart (hs : s.dev.svc uSVC = sACTIVE) (hp : s.dev.fwPaused = false) (hst : s.dev.agState slot = agRESTARTING)
    (ht : (s.dev.agent slot).restartAt ≤ s.dev.now) :
    Makes (.agentRestart slot) s (s.dev.freshInstance slot (s.dev.getI uSVC AGT_STATUS.LAST_TRAP slot)) :=
  .intro rfl (if_pos ⟨hs, by simp [hp], hst, ht⟩)

theorem makes_agentTimer {id due period : Nat} (hf : (s.dev.agent slot).timers.find? (fun t => t.1 == id) = some (id, due, period))
    (hd : due ≤ s.dev.now) {rest : List (Nat × Nat × Nat)} (hr : (s.dev.agent slot).timers.filter (fun x => x.1 != id) = rest) :
    Makes (.agentTimer slot id) s ((s.dev.setAgent slot { s.dev.agent slot with
      timers := if period = 0 then rest else rest ++ [(id, due + period, period)] }).pushMsg slot 4 (leBytes 8 due ++ leBytes 1 id)) := by
  subst hr
  refine .intro rfl ?_
  unfold Dev.agentTimer
  dsimp only
  rw [hf]
  exact if_neg (by simpa using hd)

end

/-- Settles O57: each command by the checks of its body, each call, trap and timer by the state of its slot. -/
theorem agentsLiveAndDie : Obligations.AgentsLiveAndDie := by
  unfold Obligations.AgentsLiveAndDie
  refine ⟨fun s c ha hs => ⟨fun he hq hr => ⟨fun r => completes_agentLoad_badImage rfl ha hs rfl he hq hr,
        makes_agentLoad_empty rfl ha hs rfl he hq hr⟩,
      makes_agentLoad_replace rfl ha hs rfl, completes_agentLoad_exists rfl ha hs rfl, completes_agentLoad_busy rfl ha hs rfl,
      completes_agentLoad_noRoom rfl ha hs rfl⟩,
    fun s c h1 h2 h3 h4 hr hb => completes_badBlock rfl (Dev.agentLoad.eq_def s.dev c) h1 h2 h3 h4 hr (by simp [hb]),
    fun d slot c _ => ⟨d.agState_loadAgent slot c, d.agent_loadAgent slot c⟩,
    fun s c ha hs => ⟨completes_agentStop_empty ha hs rfl, completes_agentStop_busy ha hs rfl, makes_agentStop ha hs rfl⟩,
    fun s slot t hst hrun hfl hw hn => makes_agentStopped hst hrun hfl hw hn, fun s slot c hst hrun hfl hw hn hc => ?_,
    fun s c h1 h2 h3 h4 hr hclear hcurve =>
      completes_badBlock rfl (s.dev.agentKeySet_eq c) h1 h2 h3 h4 hr (by simp [hclear, hcurve]),
    fun s c ha hs hr => ⟨fun hclear hh => ⟨fun k hk he => ?_, fun h0 h1 => ?_⟩, fun hset => ⟨fun k hcurve hk he hh => ?_,
      fun hcurve hslot h0 hh => ?_, fun hcurve hslot h0 h1 => ?_⟩⟩,
    fun s slot => ⟨makes_agentRun_begins, fun hr ht hst t hw => makes_agentRun_started hr ht hst hw rfl,
      fun hr ht hst r => makes_agentRun_returns hr ht hst r, fun hr ht r => makes_agentRun_overdue hr ht r⟩,
    fun s slot code fn hm hst => makes_agentTrap fn hm hst rfl rfl rfl,
    fun s slot hs hp hst ht => makes_agentRestart hs hp hst ht,
    fun s slot id due period hf hd => makes_agentTimer hf hd rfl⟩
  · have h := makes_agentStopped_replaced hst hrun hfl hw hn hc
    exact ⟨fun hq => by rwa [if_pos hq] at h, fun hq => by rwa [if_neg (by simp [hq])] at h⟩
  · have h := makes_agentKeySet ha hs hr (.inl hclear) (.inr (.inl (HCmd.keySigned_of_get hk he))) hh
    rwa [HCmd.newKey, if_pos (by simp [hclear])] at h
  · exact completes_agentKeySet_forbidden ha hs hr (.inl hclear) h0 h1 (.inr hclear)
  · have hallow : c.keyAllowed s.dev :=
      hk.elim (fun hk => .inr (.inl (HCmd.keySigned_of_get hk he))) (fun hk => .inr (.inr (HCmd.keySigned_of_get hk he)))
    have h := makes_agentKeySet ha hs hr (.inr hcurve) hallow hh
    rwa [HCmd.newKey, if_neg (by simp [hset])] at h
  · have h := makes_agentKeySet ha hs hr (.inr hcurve) (.inl ⟨hslot, by simp [hset], h0⟩) hh
    rwa [HCmd.newKey, if_neg (by simp [hset]), hslot] at h
  · exact completes_agentKeySet_forbidden ha hs hr (.inr hcurve) h0 h1 (.inl hslot)

end Sys2Proof.Machine
end

section
/-! SUPPORT. BFD sessions and firmware tasks, with the statement about them. -/
namespace Sys2Proof.Machine
open Sys2Proof

section
variable {a d : Dev} {s : State} {b : Bfd} {n : Nat} {c : HCmd}

/-! ### The session table -/

theorem Dev.bfd_setBfd (d : Dev) (n : Nat) (b : Bfd) : (d.setBfd n (some b)).bfd n = some b := Tab.get?_insert_self ..

theorem Dev.Noted.bfd {b : Dev} (h : a.Noted b) (n : Nat) : b.bfd n = a.bfd n := by rw [Dev.bfd, h.svcs, Dev.bfd]

theorem Dev.Noted.setBfd {b : Dev} (h : a.Noted b) (n : Nat) (x : Option Bfd) : (a.setBfd n x).Noted (b.setBfd n x) := by
  unfold Dev.setBfd
  rw [h.svcs]
  exact ((h.with_svcs _).set _ _ _ rfl).set _ _ _ rfl

/-! ### Packets sent (R444) -/

theorem makes_bfdTx {x : Bfd} (hb : s.dev.bfd n = some b) (hs : s.dev.svc uLSE = sACTIVE) (ht : b.nextTx ≤ s.dev.now) (he : b.txEvery ≠ 0)
    (hx : x = { b with nextTx := s.dev.now + b.txEvery * 10 * (100 - if b.mult = 1 then 10 + Config.bfdJitter s.dev.draws % 16
      else Config.bfdJitter s.dev.draws % 26) }) (hd : ({ s.dev with draws := s.dev.draws + 1 } : Dev) = d) :
    (b.leaving = none → Makes (.bfdTx n) s (d.bfdSend n x false))
    ∧ (b.leaving = some 1 → Makes (.bfdTx n) s ((d.bfdSend n { x with leaving := some 0 } false).setBfd n none)) := by
  subst hx hd
  have hdue : ¬ (s.dev.svc uLSE ≠ sACTIVE ∨ s.dev.now < b.nextTx ∨ (b.txEvery = 0 ∧ b.leaving.isNone = true)) := by
    rintro (h | h | ⟨h, -⟩)
    · exact h hs
    · omega
    · exact he h
  refine ⟨fun hl => .intro rfl ?_, fun hl => .intro rfl ?_⟩
  · rw [Dev.bfdTx, hb]
    dsimp only
    rw [if_neg hdue, if_neg he, hl]
  · rw [Dev.bfdTx, hb]
    dsimp only
    rw [if_neg hdue, if_neg he, hl]
    rfl

/-! ### Packets received (R443) -/

/-- What an accepted packet says is kept in its session. -/
def Bfd.received (b : Bfd) (ctl : List Byte) (now : Nat) : Bfd :=
  { b with
    rx := (b.rx + 1) % 2 ^ 32, remote := beAt ctl 1 1 / 64, remoteDiag := beAt ctl 0 1 % 32, remoteDisc := beAt ctl 4 4
    remoteMult := beAt ctl 2 1, remoteTx := beAt ctl 12 4, remoteRx := beAt ctl 16 4
    rcvSeq := if b.authEn then some (beAt ctl 28 4) else none, rcvAt := now, poll := b.poll && !bit (beAt ctl 1 1) 4
    oldTx := if bit (beAt ctl 1 1) 4 then none else b.oldTx, oldRx := if bit (beAt ctl 1 1) 4 then none else b.oldRx }

section
variable {k : Punt} {rest : List Punt} (hi : s.dev.svcs.bfdIn = k :: rest) (hs : s.dev.svc uLSE = sACTIVE)
  (hd : ({ s.dev with svcs := { s.dev.svcs with bfdIn := rest } } : Dev) = d)
include hi hs hd

theorem makes_bfdRx_bad (hf : (bfdFrame k.bytes).filter (fun x => bfdCtlOk x.ctl) = none) :
    Makes .bfdRx s (d.bump uLSE LSE_RX_BAD.COUNT) := by
  subst hd
  refine .intro rfl ?_
  unfold Dev.bfdRx
  rw [hi]
  dsimp only
  rw [if_neg (by exact not_not.2 hs), hf]

variable {x : BfdFrame} (hf : (bfdFrame k.bytes).filter (fun x => bfdCtlOk x.ctl) = some x)
include hf

theorem makes_bfdRx_noMatch (hm : d.bfdMatch k x = none) : Makes .bfdRx s (d.bump uLSE LSE_RX_NOMATCH.COUNT) := by
  subst hd
  refine .intro rfl ?_
  unfold Dev.bfdRx
  rw [hi]
  dsimp only
  rw [if_neg (by exact not_not.2 hs), hf]
  dsimp only
  rw [hm]

variable (hm : d.bfdMatch k x = some (n, b))
include hm

theorem makes_bfdRx_refused (ha : (b.heard s.dev.now).accepts x = false) : Makes .bfdRx s (d.bump uLSE LSE_RX_BAD.COUNT) := by
  subst hd
  refine .intro rfl ?_
  unfold Dev.bfdRx
  rw [hi]
  dsimp only
  rw [if_neg (by exact not_not.2 hs), hf]
  dsimp only
  rw [hm]
  exact if_pos (by simp [ha])

variable (ha : (b.heard s.dev.now).accepts x = true)
include ha

theorem makes_bfdRx_disabled (hst : b.state = bfdADMIN) : Makes .bfdRx s d := by
  subst hd
  refine .intro rfl ?_
  unfold Dev.bfdRx
  rw [hi]
  dsimp only
  rw [if_neg (by exact not_not.2 hs), hf]
  dsimp only
  rw [hm]
  dsimp only
  rw [if_neg (by simp [ha]), if_pos hst]

/-- An accepted packet moves its session by RFC 5880, 6.8.6, and is answered where it polls. -/
theorem makes_bfdRx_accepted (hst : b.state ≠ bfdADMIN) {z : Bfd} (hz : z = { b.received x.ctl s.dev.now with
      detectAt := some (s.dev.now + (b.received x.ctl s.dev.now).detectTime) })
    {e : Dev} (he : e = (d.tally uLSE 0x21 1).bfdTo n z (z.next (beAt x.ctl 1 1 / 64)).1 (z.next (beAt x.ctl 1 1 / 64)).2) :
    (bit (beAt x.ctl 1 1) 5 = false → Makes .bfdRx s e)
    ∧ (bit (beAt x.ctl 1 1) 5 = true → ∀ w, e.bfd n = some w → Makes .bfdRx s (e.bfdSend n w true)) := by
  have h : Makes .bfdRx s (if bit (beAt x.ctl 1 1) 5 then match e.bfd n with | some w => e.bfdSend n w true | none => e else e) := by
    subst hd hz he
    refine .intro rfl ?_
    unfold Dev.bfdRx
    rw [hi]
    dsimp only
    rw [if_neg (by exact not_not.2 hs), hf]
    dsimp only
    rw [hm]
    dsimp only
    rw [if_neg (by simp [ha]), if_neg hst]
    rfl
  exact ⟨fun hp => by rwa [if_neg (by simp [hp])] at h, fun hp w hw => by rwa [if_pos hp, hw] at h⟩

end

theorem Bfd.seqOk_heard {now last : Nat} (h : b.rcvSeq = some last) (seq : Nat) :
    (b.rcvAt + 2 * b.detectTime ≤ now → (b.heard now).seqOk seq = true)
    ∧ (now < b.rcvAt + 2 * b.detectTime → b.meticulous = true → (b.heard now).seqOk last = false) := by
  refine ⟨fun ht => ?_, fun ht hm => ?_⟩
  · rw [Bfd.heard, if_pos ht, Bfd.seqOk]
  · rw [Bfd.heard, if_neg (by omega), Bfd.seqOk, h]
    simp [hm]

/-! ### The state machine (R442) -/

theorem Bfd.next_of_down (h : b.state = bfdDOWN) :
    b.next bfdDOWN = (bfdINIT, 0) ∧ b.next bfdINIT = (bfdUP, 0) ∧ (b.next bfdUP).1 = bfdDOWN := by
  simp [Bfd.next, h, bfdADMIN, bfdDOWN, bfdINIT, bfdUP]

theorem Bfd.next_of_init (h : b.state = bfdINIT) :
    b.next bfdINIT = (bfdUP, 0) ∧ b.next bfdUP = (bfdUP, 0) ∧ (b.next bfdDOWN).1 = bfdINIT := by
  simp [Bfd.next, h, bfdADMIN, bfdDOWN, bfdINIT, bfdUP]

theorem Bfd.next_of_up (h : b.state = bfdUP) :
    b.next bfdDOWN = (bfdDOWN, 3) ∧ b.next bfdADMIN = (bfdDOWN, 3) ∧ (b.next bfdINIT).1 = bfdUP := by
  simp [Bfd.next, h, bfdADMIN, bfdDOWN, bfdINIT, bfdUP]

/-- The session as a change of state leaves it. -/
def Bfd.moved (b : Bfd) (d : Dev) (new diag : Nat) : Bfd :=
  { b with
    state := new, diag := diag, upSince := if new = bfdUP then d.now else b.upSince
    downs := if b.state = bfdUP then (b.downs + 1) % 2 ^ 32 else b.downs, poll := new == bfdUP && decide (b.desMinTx < 1000000)
    oldTx := none, oldRx := none
    toWithdraw := new == bfdDOWN && d.flag 0 HDL_STATUS.HEADLESS && d.flag 0 HDL_CFG.BFD_WITHDRAW
    nextTx := if new = bfdUP then min b.nextTx (d.now + 1000 * b.desMinTx) else b.nextTx }

theorem Dev.bfdTo_eq {new : Nat} (h : b.state ≠ new) (d : Dev) (n diag : Nat) : d.bfdTo n b new diag =
    (d.setBfd n (some (b.moved d new diag))).raise uLSE 0x10 (leBytes 2 n ++ leBytes 1 b.state ++ leBytes 1 new ++ leBytes 1 diag) := by
  unfold Dev.bfdTo
  rw [if_neg h]
  rfl

theorem Dev.bfd_bfdTo {new : Nat} (h : b.state ≠ new) (d : Dev) (n diag : Nat) :
    (d.bfdTo n b new diag).bfd n = some (b.moved d new diag) := by
  rw [Dev.bfdTo_eq h, (Dev.noted_raise ..).bfd, Dev.bfd_setBfd]

theorem makes_bfdDetectExpire {t : Nat} (hb : s.dev.bfd n = some b) (ha : b.detectAt = some t) (hs : s.dev.svc uLSE = sACTIVE)
    (ht : t ≤ s.dev.now) : Makes (.bfdDetectExpire n) s (if b.state = bfdINIT ∨ b.state = bfdUP then
      s.dev.bfdTo n { b with detectAt := none, remoteDisc := 0 } bfdDOWN 1
      else s.dev.setBfd n (some { b with detectAt := none, remoteDisc := 0 })) := by
  refine .intro rfl ?_
  unfold Dev.bfdDetectExpire
  rw [hb]
  dsimp only
  rw [ha]
  exact if_pos ⟨hs, ht⟩

/-! ### BFD_SESSION_SET (R445) -/

section
variable (ha : c.accepted s.dev 0x0608 c.bfdSessionSetParams) (hs : s.dev.svc uLSE = sACTIVE) (hn : c.par 0 13 0 = n)
include ha hs hn

theorem completes_bfdSessionSet_absent (h14 : c.par 0 14 14 = 0) (h15 : c.par 0 15 15 = 0) (hb : s.dev.bfd n = none) :
    Completes (.bfdSessionSet c) s c.ticket .ok s.dev := by
  subst hn
  refine Completes.intro rfl (Dev.bfdSessionSet.eq_def s.dev c) ha (fun e he => ?_)
  dsimp only
  rw [he.svc, he.bfd, hb, if_neg (by simp [hs]), if_neg (by simp [h14]), if_pos (by simp [h15])]
  exact ⟨rfl, he⟩

theorem makes_bfdSessionSet_disable (h14 : c.par 0 14 14 = 0) (h15 : c.par 0 15 15 = 0) (hb : s.dev.bfd n = some b) :
    Makes (.bfdSessionSet c) s (((c.begun s.dev).bfdTo n
      { b with leaving := some 3, nextTx := s.dev.now, detectAt := none } bfdADMIN 7).finish c.ticket .ok) := by
  subst hn
  have he := s.dev.noted_begun c
  refine Makes.endedNow rfl (Dev.bfdSessionSet.eq_def s.dev c) ha ?_
  dsimp only
  rw [he.svc, he.bfd, hb, if_neg (by simp [hs]), if_neg (by simp [h14]), if_pos (by simp [h15]), ← he.now]

theorem makes_bfdSessionSet_read (h14 : c.par 0 14 14 = 1) (hb : s.dev.bfd n = some b) {r : Dev × Reply}
    (hr : (c.begun s.dev).hostBlock c (c.par 32 63 0) b.record 0 = r) : Makes (.bfdSessionSet c) s (r.1.finish c.ticket r.2) := by
  subst hn hr
  have he := s.dev.noted_begun c
  refine Makes.endedNow rfl (Dev.bfdSessionSet.eq_def s.dev c) ha ?_
  dsimp only
  rw [he.svc, he.bfd, hb, if_neg (by simp [hs]), if_pos (by simp [h14])]
  rfl

variable (h14 : c.par 0 14 14 = 0) (h15 : c.par 0 15 15 = 1) (hr : c.readOk = true)
include h14 h15 hr

theorem completes_bfdSessionSet_taken (h : ∃ e ∈ s.dev.svcs.bfd, e.1 ≠ [n] ∧ e.2.localDisc = c.par 4 31 0) :
    Completes (.bfdSessionSet c) s c.ticket (.fail stEXISTS) s.dev := by
  subst hn
  obtain ⟨x, hx, hk, hl⟩ := h
  refine Completes.intro rfl (Dev.bfdSessionSet.eq_def s.dev c) ha (fun e he => ?_)
  dsimp only
  rw [he.svc, he.svcs, if_neg (by simp [hs]), if_neg (by simp [h14]), if_neg (by simp [h14, h15]), if_neg (by simp [hr]),
    if_pos (List.any_eq_true.2 ⟨x, hx, by simp [hk, hl]⟩)]
  exact ⟨rfl, he⟩

theorem completes_bfdSessionSet_new (hfree : ∀ e ∈ s.dev.svcs.bfd, e.1 ≠ [n] → e.2.localDisc ≠ c.par 4 31 0)
    (hb : s.dev.bfd n = none) : Completes (.bfdSessionSet c) s c.ticket .ok (({ s.dev with draws := s.dev.draws + 1 } : Dev).setBfd n
      (some (c.bfdParams { nextTx := s.dev.now, authSeq := (Config.bfdAuthSeq s.dev.draws).toNat
                           meticulous := Config.bfdMeticulous s.dev.draws }))) := by
  subst hn
  refine Completes.intro rfl (Dev.bfdSessionSet.eq_def s.dev c) ha (fun e he => ?_)
  have hany : ¬ e.svcs.bfd.any (fun e => e.1 != [c.par 0 13 0] && e.2.localDisc == c.par 4 31 0) = true := by
    simpa [he.svcs] using fun k v hm hk => hfree (k, v) hm hk
  dsimp only
  rw [he.svc, he.bfd, if_neg (by simp [hs]), if_neg (by simp [h14]), if_neg (by simp [h14, h15]),
    if_neg (by simp [hr]), if_neg hany, hb]
  refine ⟨rfl, ?_⟩
  have h := (he.with_draws (s.dev.draws + 1)).setBfd (c.par 0 13 0) (some (c.bfdParams
    { nextTx := s.dev.now, authSeq := (Config.bfdAuthSeq s.dev.draws).toNat, meticulous := Config.bfdMeticulous s.dev.draws }))
  conv at h => arg 2; rw [← he.draws, ← he.now]
  exact h

/-- What a BFD_SESSION_SET makes of a session that is not leaving. -/
def Bfd.changedBy (old : Bfd) (c : HCmd) : Bfd :=
  { c.bfdParams old with
    poll := old.poll || (old.state == bfdUP && (old.desMinTx != (c.bfdParams old).desMinTx
      || old.reqMinRx != (c.bfdParams old).reqMinRx || old.mult != (c.bfdParams old).mult))
    oldTx := if old.state == bfdUP ∧ old.oldTx.getD old.desMinTx < (c.bfdParams old).desMinTx then some (old.oldTx.getD old.desMinTx)
      else none
    oldRx := if old.state == bfdUP ∧ (c.bfdParams old).reqMinRx < old.oldRx.getD old.reqMinRx then some (old.oldRx.getD old.reqMinRx)
      else none }

theorem completes_bfdSessionSet_change (hfree : ∀ e ∈ s.dev.svcs.bfd, e.1 ≠ [n] → e.2.localDisc ≠ c.par 4 31 0)
    (hb : s.dev.bfd n = some b) (hl : b.leaving = none) :
    Completes (.bfdSessionSet c) s c.ticket .ok (s.dev.setBfd n (some (b.changedBy c))) := by
  subst hn
  refine Completes.intro rfl (Dev.bfdSessionSet.eq_def s.dev c) ha (fun e he => ?_)
  have hany : ¬ s.dev.svcs.bfd.any (fun e => e.1 != [c.par 0 13 0] && e.2.localDisc == c.par 4 31 0) = true := by
    simpa using fun k v hm hk => hfree (k, v) hm hk
  have hstays : (some b).filter (fun b => b.leaving.isNone) = some b := by simp [Option.filter, hl]
  dsimp only
  rw [he.svc, he.svcs, he.bfd, if_neg (by simp [hs]), if_neg (by simp [h14]), if_neg (by simp [h14, h15]),
    if_neg (by simp [hr]), if_neg hany, hb, hstays]
  exact ⟨rfl, he.setBfd _ _⟩

end

theorem Bfd.changedBy_of_up (h : b.state = bfdUP) (c : HCmd) : b.changedBy c = { c.bfdParams b with
    poll := b.poll || decide (b.desMinTx ≠ (c.bfdParams b).desMinTx ∨ b.reqMinRx ≠ (c.bfdParams b).reqMinRx
      ∨ b.mult ≠ (c.bfdParams b).mult)
    oldTx := if b.oldTx.getD b.desMinTx < (c.bfdParams b).desMinTx then some (b.oldTx.getD b.desMinTx) else none
    oldRx := if (c.bfdParams b).reqMinRx < b.oldRx.getD b.reqMinRx then some (b.oldRx.getD b.reqMinRx) else none } := by
  simp [Bfd.changedBy, h, bne, Bool.or_assoc, Bool.beq_eq_decide_eq]

theorem Bfd.changedBy_of_not_up (h : b.state ≠ bfdUP) (c : HCmd) :
    b.changedBy c = { c.bfdParams b with oldTx := none, oldRx := none } := by
  simp [Bfd.changedBy, h, HCmd.bfdParams]

/-! ### Next hops withdrawn (R446) -/

theorem makes_bfdWithdraw {nh : Nat} (hb : s.dev.bfd n = some b) (hw : b.withdraw = some nh) {gone : Bool}
    (hg : s.dev.svcs.withdrawn.any (fun e => e.2.contains nh) = gone) {e : Dev}
    (he : s.dev.ecmpGroups.foldl (fun d g => d.withdrawFrom nh g) (s.dev.setBfd n (some { b with toWithdraw := false })) = e) :
    Makes (.bfdWithdraw n) s
      (if b.state = bfdDOWN ∧ b.toWithdraw = true ∧ ¬ gone = true then
        if e.svcs.withdrawn = s.dev.svcs.withdrawn then e else e.writeDecision 4 uLSE nh
      else if b.state = bfdUP ∧ gone = true then (s.dev.restoreNh nh).writeDecision 4 uLSE nh else s.dev) := by
  subst hg he
  refine .intro rfl ?_
  unfold Dev.bfdWithdraw
  rw [hb]
  dsimp only
  rw [hw]

end

/-- Settles O55: each packet, expiry and command by the state of its session, which the session table gives back as it was stored. -/
theorem bfdSessionsAndTasks : Obligations.BfdSessionsAndTasks := by
  unfold Obligations.BfdSessionsAndTasks
  refine ⟨fun s task why cs => .intro rfl rfl, fun d t r => ⟨fun h => if_neg (by simp [h]), fun h => if_pos h⟩,
    fun s n b hb hs ht he => makes_bfdTx hb hs ht he rfl rfl,
    fun s k rest hi hs => ⟨makes_bfdRx_bad hi hs rfl, fun x hf => ⟨makes_bfdRx_noMatch hi hs rfl hf,
      fun n b hm => ⟨makes_bfdRx_refused hi hs rfl hf hm, makes_bfdRx_disabled hi hs rfl hf hm,
        fun ha hst => makes_bfdRx_accepted hi hs rfl hf hm ha hst rfl rfl⟩⟩⟩,
    fun b now last seq h => Bfd.seqOk_heard h seq, fun b => ⟨Bfd.next_of_down, Bfd.next_of_init, Bfd.next_of_up⟩,
    fun d n new diag b h => ⟨?_, _, Dev.bfd_bfdTo h d n diag, rfl, rfl, rfl, rfl, rfl⟩,
    fun s n t b hb ha hs ht => ?_,
    fun s c ha hs => ⟨fun h14 h15 => ⟨completes_bfdSessionSet_absent ha hs rfl h14 h15,
        fun b => makes_bfdSessionSet_disable ha hs rfl h14 h15⟩,
      fun h14 b hb => makes_bfdSessionSet_read ha hs rfl h14 hb rfl,
      fun h14 h15 hr => ⟨completes_bfdSessionSet_taken ha hs rfl h14 h15 hr,
        fun hfree => completes_bfdSessionSet_new ha hs rfl h14 h15 hr (fun e he _ => hfree e he), fun hfree old hb hl => ?_⟩⟩,
    fun s n nh b hb hw => ?_⟩
  · rw [Dev.bfdTo_eq h]
    exact Dev.raise_raised _ _ _ _ (by decide) (by decide)
  · have h := makes_bfdDetectExpire hb ha hs ht
    refine ⟨fun hst => by rwa [if_pos hst] at h, fun hst => ?_⟩
    rwa [if_neg (by rcases hst with hst | hst <;> rw [hst] <;> decide)] at h
  · have h := completes_bfdSessionSet_change ha hs rfl h14 h15 hr hfree hb hl
    exact ⟨fun hst => by rwa [Bfd.changedBy_of_up hst] at h, fun hst => by rwa [Bfd.changedBy_of_not_up hst] at h⟩
  · have h := makes_bfdWithdraw hb hw rfl rfl
    refine ⟨fun hst ht hg => ?_, fun hst hno => ?_, fun hst hg => ?_⟩
    · rw [if_pos ⟨hst, ht, by simp only [hg]; decide⟩] at h
      exact ⟨fun he => by rwa [if_pos he] at h, fun he => by rwa [if_neg he] at h⟩
    · have hno' : ¬ (b.toWithdraw = true ∧ ¬ s.dev.svcs.withdrawn.any (fun e => e.2.contains nh) = true) := by
        rintro ⟨h1, h2⟩
        rcases hno with hno | hno
        · rw [hno] at h1; cases h1
        · exact h2 hno
      rwa [if_neg (fun h => hno' h.2), if_neg (fun h => absurd (hst.symm.trans h.1) (by decide))] at h
    · rwa [if_neg (fun h => absurd (hst.symm.trans h.1) (by decide)), if_pos ⟨hst, hg⟩] at h

end Sys2Proof.Machine
end

section
/-! SUPPORT. Firmware: boot records, what a start of the firmware leaves, and sidebands. -/
namespace Sys2Proof.Machine
open Sys2Proof

section
variable {a b d e : Dev} {un : Nat} {f : Fld} {k : Nat}

/-! ### Boot records (R470) -/

/-- A boot record reads back from its bytes; its SEQ and BOOT_COUNT have 32 bits. -/
theorem readBoot_bytes (r : BootRec) :
    ∃ x, readBoot r.bytes = some x ∧ x.seq = r.seq % 2 ^ 32 ∧ x.bootCount = r.bootCount % 2 ^ 32 := by
  unfold BootRec.bytes
  extract_lets b
  have hb : b.length = 0x3C := by simp [b, leBytes_length]
  have hat {off n : Nat} (h : off + n ≤ 0x3C) : leAt (b ++ leBytes 4 (crc32cStd b)) off n = leAt b off n :=
    leAt_append_of_le (by rw [hb]; exact h) _
  have hmagic : leAt b 0 4 = 0x42524B5A := by simp [b, leAt_here]
  have hseq : leAt b 4 4 = r.seq % 2 ^ 32 := by simp [b, leAt_here, leAt_skip]
  have hcount : leAt b 0x0C 4 = r.bootCount % 2 ^ 32 := by simp [b, leAt_here, leAt_skip]
  have hcheck : leAt (b ++ leBytes 4 (crc32cStd b)) 0x3C 4 = crc32cStd b := by
    rw [← List.append_nil (leBytes 4 _), leAt_leBytes hb]
    exact Nat.mod_eq_of_lt (crc32cStd_lt _)
  have hslice : slice (b ++ leBytes 4 (crc32cStd b)) 0 0x3C = b := by
    rw [slice_append_of_le (by omega), slice, ← hb]
    simp
  have hform : leAt (b ++ leBytes 4 (crc32cStd b)) 0 4 = 0x42524B5A
      ∧ leAt (b ++ leBytes 4 (crc32cStd b)) 0x3C 4 = crc32cStd (slice (b ++ leBytes 4 (crc32cStd b)) 0 0x3C) := by
    rw [hat (by omega), hmagic, hcheck, hslice]
    exact ⟨rfl, rfl⟩
  clear_value b
  exact ⟨_, if_pos hform, (hat (by omega)).trans hseq, (hat (by omega)).trans hcount⟩

theorem laterSeq_succ (n : Nat) : laterSeq ((n + 1) % 2 ^ 32) n = true := by
  simp only [laterSeq, decide_eq_true_eq]
  omega

theorem not_laterSeq_succ (n : Nat) : laterSeq n ((n + 1) % 2 ^ 32) = false := by
  simp only [laterSeq, decide_eq_false_iff_not]
  omega

theorem newer_cases {α : Type} {seq : α → Nat} {x y : Option α} {c : Nat × α} (h : newer seq x y = some c) :
    (c.1 = 0 ∧ x = some c.2) ∨ (c.1 = 1 ∧ y = some c.2) := by
  unfold newer at h
  split at h
  · cases h
  · cases h
    exact .inl ⟨rfl, rfl⟩
  · cases h
    exact .inr ⟨rfl, rfl⟩
  · split at h <;> cases h
    · exact .inr ⟨rfl, rfl⟩
    · exact .inl ⟨rfl, rfl⟩

theorem eq_none_of_newer {α : Type} {seq : α → Nat} {x y : Option α} (h : newer seq x y = none) : x = none ∧ y = none := by
  unfold newer at h
  split at h
  · exact ⟨rfl, rfl⟩
  · cases h
  · cases h
  · split at h <;> cases h

theorem Dev.bootRec_congr (h0 : b.fw.rec0 = a.fw.rec0) (h1 : b.fw.rec1 = a.fw.rec1) : b.bootRec = a.bootRec := by
  rw [Dev.bootRec, Dev.recCopy, h0, h1, Dev.bootRec, Dev.recCopy]

theorem Dev.Noted.bootRec (h : a.Noted b) : b.bootRec = a.bootRec := Dev.bootRec_congr (by rw [h.fw]) (by rw [h.fw])

theorem Dev.bootRec_of_recCopy {n : Nat} {r : BootRec} (h : d.recCopy = some (n, r)) : d.bootRec = r := by rw [Dev.bootRec, h]; rfl

/-- The boot record written is the one in force. -/
theorem Dev.bootCount_putBoot (d : Dev) (r : BootRec) : (d.putBoot r).bootRec.bootCount = r.bootCount % 2 ^ 32 := by
  unfold Dev.putBoot
  extract_lets cur r' fw₀ dRec
  suffices h : ∃ n x, dRec.recCopy = some (n, x) ∧ x.bootCount = r.bootCount % 2 ^ 32 by
    obtain ⟨n, x, hx, hc⟩ := h
    rw [← hc, ← Dev.bootRec_of_recCopy hx]
    rfl
  obtain ⟨x, hread, hseq, hcount⟩ := readBoot_bytes r'
  cases hcur : d.recCopy with
  | none =>
    have hd : dRec = { d with fw := { d.fw with rec0 := r'.bytes } } := if_neg (by simp [cur, hcur])
    refine ⟨0, x, ?_, hcount⟩
    rw [hd, Dev.recCopy, hread, (eq_none_of_newer hcur).2]
    rfl
  | some c =>
    have hr' : r'.seq = (c.2.seq + 1) % 2 ^ 32 := by
      dsimp only [r', cur]
      rw [hcur]
    have hnext : x.seq = (c.2.seq + 1) % 2 ^ 32 := by rw [hseq, hr', Nat.mod_mod]
    rcases newer_cases hcur with ⟨hc, hold⟩ | ⟨hc, hold⟩
    · have hd : dRec = { d with fw := { d.fw with rec1 := r'.bytes } } := if_pos (by simp [cur, hcur, hc])
      refine ⟨1, x, ?_, hcount⟩
      rw [hd, Dev.recCopy, hread, hold, newer, hnext, laterSeq_succ]
      rfl
    · have hd : dRec = { d with fw := { d.fw with rec0 := r'.bytes } } := if_neg (by simp [cur, hcur, hc])
      refine ⟨0, x, ?_, hcount⟩
      rw [hd, Dev.recCopy, hread, hold, newer, hnext, not_laterSeq_succ]
      rfl

/-! ### Registers that a start writes -/

/-- Where the fields stand that say how the device has started. -/
def bootSpots : List (Nat × Nat) := [FW_STATUS.BOOT_CAUSE, FW_STATUS.RECOVERY, PWR_STRAPS.RECOVERY_N].map (fun f => (f.off, f.lo))

/-- `b` reads in those fields what `a` does. -/
structure Dev.SameBoot (a b : Dev) : Prop where
  reads : ∀ (f : Fld) (un : Nat), (f.off, f.lo) ∈ bootSpots → b.get un f = a.get un f

theorem Dev.SameBoot.refl (d : Dev) : d.SameBoot d := ⟨fun _ _ _ => rfl⟩

theorem Dev.SameBoot.trans {c : Dev} (h : a.SameBoot b) (h' : b.SameBoot c) : a.SameBoot c :=
  ⟨fun f un hf => (h'.reads f un hf).trans (h.reads f un hf)⟩

theorem Dev.SameBoot.of_fields (h : b.fields = a.fields) : a.SameBoot b := ⟨fun _ _ _ => Dev.getI_congr (by rw [h])⟩

theorem Dev.sameBoot_setI (d : Dev) (un i v : Nat) (hf : (f.off, f.lo) ∉ bootSpots) : d.SameBoot (d.setI un f i v) :=
  ⟨fun _ _ hg => Dev.getI_setI_ne (Fld.key_ne (fun h => hf (h ▸ hg)) _ _ _ _)⟩

theorem Dev.SameBoot.set (h : a.SameBoot b) (un : Nat) (f : Fld) (v : Nat) (hf : (f.off, f.lo) ∉ bootSpots) : a.SameBoot (b.set un f v) :=
  h.trans (b.sameBoot_setI un 0 v hf)

theorem Dev.SameBoot.foldl {α : Type} {g : Dev → α → Dev} (xs : List α) (hg : ∀ x ∈ xs, ∀ d : Dev, d.SameBoot (g d x)) (d : Dev) :
    d.SameBoot (xs.foldl g d) := by
  induction xs generalizing d with
  | nil => exact .refl d
  | cons x xs ih => exact (hg x (.head _) d).trans (ih (fun y hy => hg y (.tail _ hy)) _)

theorem Dev.sameBoot_putWord {r : RegDesc} (h : ∀ p ∈ r.fields, (p.fld.off, p.fld.lo) ∉ bootSpots) (d : Dev) (un i v : Nat) :
    d.SameBoot (d.putWord un r i v) := by
  refine Dev.SameBoot.foldl _ (fun p hp d => ?_) d
  split
  · exact Dev.SameBoot.foldl _ (fun j _ d => d.sameBoot_setI _ _ _ (h p hp)) d
  · exact .refl d

theorem Dev.sameBoot_loadStore (d : Dev) : d.SameBoot d.loadStore :=
  have hcfg (e : Dev) (v : Nat) : e.SameBoot (e.putWord uMGT MGT_CFG.desc 0 v) := Dev.sameBoot_putWord (by decide) ..
  have hip (e : Dev) (v : Nat) : e.SameBoot (e.putWord uMGT MGT_IPV4.desc 0 v) := Dev.sameBoot_putWord (by decide) ..
  have hhdl (e : Dev) (v : Nat) : e.SameBoot (e.putWord 0 HDL_CFG.desc 0 v) := Dev.sameBoot_putWord (by decide) ..
  (((hcfg d _).trans (hip _ _)).trans (hhdl _ _)).set _ _ _ (by decide)

theorem Dev.sameBoot_showFuses (d : Dev) : d.SameBoot d.showFuses :=
  (((Dev.SameBoot.refl d).set _ _ _ (by decide)).set _ _ _ (by decide)).set _ _ _ (by decide)

theorem Dev.sameBoot_setBins (d : Dev) : d.SameBoot d.setBins :=
  ((Dev.SameBoot.refl d).set _ _ _ (by decide)).set _ _ _ (by decide)

theorem Dev.sameBoot_firstKeys (d : Dev) : d.SameBoot d.firstKeys := by
  unfold Dev.firstKeys
  split
  · exact .of_fields rfl
  · exact .refl d

theorem Dev.sameBoot_putBoot (d : Dev) (r : BootRec) : d.SameBoot (d.putBoot r) := by
  unfold Dev.putBoot
  extract_lets cur r' fw₀ dRec
  have h : d.SameBoot dRec := by
    dsimp only [dRec]
    split <;> exact .of_fields rfl
  exact (h.set _ _ _ (by decide)).set _ _ _ (by decide)

theorem Dev.sameBoot_showRunning (d : Dev) (x : Image) (code : List Byte) : d.SameBoot (d.showRunning x code) := by
  have h : d.SameBoot ({ d with fw := { d.fw with running := some x, code := code } } : Dev) := .of_fields rfl
  exact ((((h.set _ _ _ (by decide)).set _ _ _ (by decide)).set _ _ _ (by decide)).set _ _ _ (by decide)).set _ _ _ (by decide)

/-! ### What a start leaves of the firmware's state -/

theorem Dev.fw_putWord (d : Dev) (un : Nat) (r : RegDesc) (i v : Nat) : (d.putWord un r i v).fw = d.fw := by
  refine Dev.foldl_eq (g := Dev.fw) (fun d p => ?_) _ _
  split
  · exact Dev.foldl_eq (g := Dev.fw) (fun d _ => d.setI_fw ..) _ _
  · rfl

theorem Dev.fw_loadStore (d : Dev) : d.loadStore.fw = d.fw := by
  simp only [Dev.loadStore, Dev.showSchema, Dev.set_fw, Dev.fw_putWord]

theorem Dev.fw_setBins_firstKeys (d : Dev) : d.setBins.firstKeys.fw = d.firstKeys.fw := by
  unfold Dev.firstKeys
  split
  · next h => rw [if_pos (show d.fw.otp.attestKey = [] from h)]; rfl
  · next h => rw [if_neg (show ¬ d.fw.otp.attestKey = [] from h)]; rfl

theorem Dev.fw_putBoot (d : Dev) (r : BootRec) : ∃ x y, (d.putBoot r).fw = { d.fw with rec0 := x, rec1 := y } := by
  unfold Dev.putBoot
  extract_lets cur r' fw₀ dRec
  show ∃ x y, dRec.fw = { d.fw with rec0 := x, rec1 := y }
  dsimp only [dRec]
  split
  · exact ⟨_, _, rfl⟩
  · exact ⟨_, _, rfl⟩

theorem Dev.sameBoot_setFabEpoch (d : Dev) : d.SameBoot d.setFabEpoch := .of_fields rfl

/-! ### What the checks of an image depend on (R474, R475) -/

theorem Dev.rootSlot_congr (h : b.fw.otp = a.fw.otp) (x : List Byte) : b.rootSlot x = a.rootSlot x := by rw [Dev.rootSlot, h, Dev.rootSlot]

theorem Dev.ident_congr_otp (h : b.fw.otp = a.fw.otp) (hs : b.fw.sideband = a.fw.sideband) (un : Nat) : b.ident un = a.ident un := by
  simp only [Dev.ident, h, hs]

theorem Dev.checkHeader_congr (h : b.fw.otp = a.fw.otp) (hs : b.fw.sideband = a.fw.sideband) (x : List Byte) (old : Option Nat)
    (allow : Bool) : b.checkHeader x old allow = a.checkHeader x old allow := by
  have hbind : b.binding = a.binding := by simp only [Dev.binding, Dev.identBytes, Dev.ident_congr_otp h hs, h]
  have hstep : b.majorStepping = a.majorStepping := by simp only [Dev.majorStepping, Dev.ident_congr_otp h hs]
  unfold Dev.checkHeader
  rw [Dev.rootSlot_congr h, hbind, hstep, h]

theorem Dev.checkPayload_congr (h : b.fw.otp = a.fw.otp) (x : List Byte) : b.checkPayload x = a.checkPayload x := by
  simp only [Dev.checkPayload, h]

theorem Dev.codeOf_congr (h : b.fw.otp = a.fw.otp) (x : List Byte) : b.codeOf x = a.codeOf x := by simp only [Dev.codeOf, h]

theorem Dev.slotImage_congr (hA : b.fw.slotA = a.fw.slotA) (hB : b.fw.slotB = a.fw.slotB) (n : Nat) : b.slotImage n = a.slotImage n := by
  rw [Dev.slotImage, hA, hB, Dev.slotImage]

theorem Dev.storeSchema_congr (h : b.fw = a.fw) : b.storeSchema = a.storeSchema := by
  simp only [Dev.storeSchema, Dev.storeCopy, Dev.knowsSchema, Dev.latestStore, h]

/-! ### BOOT_ROM (R470, R471, R486, R487) -/

/-- The device as the ROM finds it once fuses and keys are in order. -/
def Dev.romReady (d : Dev) : Dev :=
  { d.setBins.firstKeys.showFuses with fw := { d.setBins.firstKeys.showFuses.fw with trialLost := false } }

theorem Dev.fw_romReady (d : Dev) : d.romReady.fw = { d.firstKeys.fw with trialLost := false } := by
  show ({ d.setBins.firstKeys.fw with trialLost := false } : FwState) = _
  rw [d.fw_setBins_firstKeys]

theorem Dev.sameBoot_romReady (d : Dev) : d.SameBoot d.romReady :=
  ((d.sameBoot_setBins.trans (Dev.sameBoot_firstKeys _)).trans (Dev.sameBoot_showFuses _)).trans (.of_fields rfl)

theorem Dev.fw_firstKeys (d : Dev) : d.firstKeys.fw = { d.fw with otp := d.firstKeys.fw.otp } := by
  unfold Dev.firstKeys
  split <;> rfl

theorem Dev.svFused_firstKeys (d : Dev) : d.firstKeys.fw.otp.svFused = d.fw.otp.svFused := by
  unfold Dev.firstKeys
  split <;> rfl

theorem Dev.bootRec_romReady (d : Dev) : d.romReady.bootRec = d.bootRec :=
  Dev.bootRec_congr (by rw [d.fw_romReady, d.fw_firstKeys]) (by rw [d.fw_romReady, d.fw_firstKeys])

theorem Dev.slotImage_romReady (d : Dev) (n : Nat) : d.romReady.slotImage n = d.slotImage n :=
  Dev.slotImage_congr (by rw [d.fw_romReady, d.fw_firstKeys]) (by rw [d.fw_romReady, d.fw_firstKeys]) n

theorem Dev.slotBoots_romReady (d : Dev) (n : Nat) : d.romReady.slotBoots n = d.firstKeys.slotBoots n := by
  have hotp : d.romReady.fw.otp = d.firstKeys.fw.otp := by rw [d.fw_romReady]
  have himg : d.romReady.slotImage n = d.firstKeys.slotImage n :=
    Dev.slotImage_congr (by rw [d.fw_romReady]) (by rw [d.fw_romReady]) n
  simp only [Dev.slotBoots, himg, Dev.checkHeader_congr hotp (by rw [d.fw_romReady]), Dev.checkPayload_congr hotp]

theorem Dev.bootRom_eq (hr : d.fw.running = none) (hrec : d.flag 0 FW_STATUS.RECOVERY = false) (hg : d.pwr.goodAt.isSome = true)
    (ht : d.pwr.tripped = false) (hf : d.flashHeld = false) (htrial : d.bootRec.trial = false)
    (hsv : d.bootRec.committedSv ≤ d.fw.otp.svFused) : d.bootRom =
      if ¬ d.romReady.flag 0 PWR_STRAPS.RECOVERY_N then d.romReady.enterRecovery 4
      else if d.romReady.slotBoots d.bootRec.slot then d.romReady.startSlot d.bootRec.slot 0
      else if d.romReady.slotBoots (1 - d.bootRec.slot) then d.romReady.startSlot (1 - d.bootRec.slot) 1
      else d.romReady.enterRecovery 5 := by
  have hgo : ¬ (d.fw.running.isSome = true ∨ d.flag 0 FW_STATUS.RECOVERY = true ∨ d.pwr.goodAt.isNone = true ∨ d.pwr.tripped = true
      ∨ d.flashHeld = true) := by
    rw [hr, hrec, ht, hf]
    simp [Option.isSome_iff_ne_none.1 hg]
  have hbr : d.setBins.firstKeys.bootRec = d.bootRec :=
    Dev.bootRec_congr (by rw [d.fw_setBins_firstKeys, d.fw_firstKeys]) (by rw [d.fw_setBins_firstKeys, d.fw_firstKeys])
  have hfused : d.setBins.firstKeys.fw.otp.svFused = d.fw.otp.svFused := by rw [d.fw_setBins_firstKeys, d.svFused_firstKeys]
  unfold Dev.bootRom
  rw [if_neg hgo]
  dsimp only
  rw [hbr, hfused, if_neg (Nat.not_lt.2 hsv), htrial]
  simp only [Bool.false_eq_true, ↓reduceIte, not_false_eq_true, true_and]
  rfl

theorem Dev.SameBoot.flag {c : Dev} (h : a.SameBoot c) {f : Fld} (hf : (f.off, f.lo) ∈ bootSpots) (un : Nat) : c.flag un f = a.flag un f :=
  congrArg (· == 1) (h.reads f un hf)

/-- What the ROM leaves when it has started a slot. -/
theorem Dev.startSlot_leaves (e : Dev) (slot cause : Nat) (hc : cause < 16) : let b := e.startSlot slot cause
    b.fw.running = some (mkImage slot (e.slotImage slot)) ∧ b.fw.code = e.codeOf (e.slotImage slot)
    ∧ b.bootRec.bootCount = (e.bootRec.bootCount + 1) % 2 ^ 32 ∧ b.get 0 FW_STATUS.BOOT_CAUSE = cause
    ∧ b.flag 0 FW_STATUS.RECOVERY = e.flag 0 FW_STATUS.RECOVERY := by
  unfold Dev.startSlot
  extract_lets r dRec b
  obtain ⟨x, y, hrec⟩ : ∃ x y, dRec.fw = { e.fw with rec0 := x, rec1 := y } := e.fw_putBoot _
  have himg : dRec.slotImage slot = e.slotImage slot := Dev.slotImage_congr (by rw [hrec]) (by rw [hrec]) slot
  have hcode (img : List Byte) : dRec.codeOf img = e.codeOf img := Dev.codeOf_congr (by rw [hrec]) img
  have hfw : b.fw = { dRec.fw with running := some (mkImage slot (dRec.slotImage slot)), code := dRec.codeOf (dRec.slotImage slot) } :=
    Dev.fw_loadStore _
  have hboot : (dRec.set 0 FW_STATUS.BOOT_CAUSE cause).SameBoot b :=
    ((Dev.sameBoot_showRunning ..).trans (Dev.sameBoot_setFabEpoch _)).trans (Dev.sameBoot_loadStore _)
  have hold : e.SameBoot dRec := e.sameBoot_putBoot _
  have hcount : dRec.bootRec.bootCount = (e.bootRec.bootCount + 1) % 2 ^ 32 := (e.bootCount_putBoot _).trans (Nat.mod_mod _ _)
  clear_value dRec b
  refine ⟨?_, ?_, ?_, ?_, ?_⟩
  · rw [hfw, himg]
  · rw [hfw, himg, hcode]
  · rw [Dev.bootRec_congr (a := dRec) (by rw [hfw]) (by rw [hfw])]
    exact hcount
  · rw [hboot.reads _ _ (by decide), Dev.get_set_self]
    exact Nat.mod_eq_of_lt hc
  · rw [hboot.flag (by decide), ← hold.flag (by decide)]
    exact Dev.flag_congr (Dev.fields_setI_ne (Fld.key_ne (by decide) _ _ _ _))

/-- What the ROM leaves in recovery mode. -/
theorem Dev.enterRecovery_leaves (e : Dev) (cause : Nat) (hc : cause < 16) : let b := e.enterRecovery cause
    b.fw = e.fw ∧ b.get 0 FW_STATUS.BOOT_CAUSE = cause ∧ b.flag 0 FW_STATUS.RECOVERY = true := by
  unfold Dev.enterRecovery
  extract_lets b
  have hboot : ((e.set 0 FW_STATUS.BOOT_CAUSE cause).set 0 FW_STATUS.RECOVERY 1).SameBoot b :=
    (Dev.sameBoot_setFabEpoch _).trans (Dev.sameBoot_loadStore _)
  have hfw : b.fw = e.fw := Dev.fw_loadStore (Dev.setFabEpoch ((e.set 0 FW_STATUS.BOOT_CAUSE cause).set 0 FW_STATUS.RECOVERY 1))
  clear_value b
  refine ⟨hfw, ?_, ?_⟩
  · rw [hboot.reads _ _ (by decide), Dev.get_set_ne (Fld.key_ne (by decide) _ _ _ _), Dev.get_set_self]
    exact Nat.mod_eq_of_lt hc
  · rw [hboot.flag (by decide)]
    exact Dev.flag_of_get (b := true) (Dev.get_set_self ..)

/-- The ROM's three ends: the slot that the boot record names, recovery by the strap, and recovery for want of a slot. -/
theorem Dev.bootRom_leaves (hr : d.fw.running = none) (hrec : d.flag 0 FW_STATUS.RECOVERY = false) (hg : d.pwr.goodAt.isSome = true)
    (ht : d.pwr.tripped = false) (hf : d.flashHeld = false) (htrial : d.bootRec.trial = false)
    (hsv : d.bootRec.committedSv ≤ d.fw.otp.svFused) : let b := d.bootRom
      (d.flag 0 PWR_STRAPS.RECOVERY_N = true → d.firstKeys.slotBoots d.bootRec.slot = true →
        b.fw.running = some (mkImage d.bootRec.slot (d.slotImage d.bootRec.slot))
        ∧ b.fw.code = d.firstKeys.codeOf (d.slotImage d.bootRec.slot) ∧ b.bootRec.bootCount = (d.bootRec.bootCount + 1) % 2 ^ 32
        ∧ b.get 0 FW_STATUS.BOOT_CAUSE = 0 ∧ b.flag 0 FW_STATUS.RECOVERY = false)
      ∧ (d.flag 0 PWR_STRAPS.RECOVERY_N = false →
        b.fw.running = none ∧ b.get 0 FW_STATUS.BOOT_CAUSE = 4 ∧ b.flag 0 FW_STATUS.RECOVERY = true)
      ∧ (d.flag 0 PWR_STRAPS.RECOVERY_N = true → d.firstKeys.slotBoots d.bootRec.slot = false →
        d.firstKeys.slotBoots (1 - d.bootRec.slot) = false →
        b.fw.running = none ∧ b.get 0 FW_STATUS.BOOT_CAUSE = 5 ∧ b.flag 0 FW_STATUS.RECOVERY = true) := by
  have hnone : d.romReady.fw.running = none := by rw [d.fw_romReady, d.fw_firstKeys]; exact hr
  have hcode (x : List Byte) : d.romReady.codeOf x = d.firstKeys.codeOf x := Dev.codeOf_congr (by rw [d.fw_romReady]) x
  rw [Dev.bootRom_eq hr hrec hg ht hf htrial hsv]
  simp only [d.sameBoot_romReady.flag (f := PWR_STRAPS.RECOVERY_N) (by decide), d.slotBoots_romReady]
  refine ⟨fun hn hb => ?_, fun hn => ?_, fun hn hb hb' => ?_⟩
  · rw [if_neg (by simp [hn]), if_pos hb]
    have h := d.romReady.startSlot_leaves d.bootRec.slot 0 (by decide)
    rwa [d.slotImage_romReady, hcode, d.bootRec_romReady, d.sameBoot_romReady.flag (by decide), hrec] at h
  · rw [if_pos (by simp [hn])]
    obtain ⟨h1, h2⟩ := d.romReady.enterRecovery_leaves 4 (by decide)
    exact ⟨h1 ▸ hnone, h2⟩
  · rw [if_neg (by simp [hn]), if_neg (by simp [hb]), if_neg (by simp [hb'])]
    obtain ⟨h1, h2⟩ := d.romReady.enterRecovery_leaves 5 (by decide)
    exact ⟨h1 ▸ hnone, h2⟩

end
end Sys2Proof.Machine
end

section
/-! SUPPORT. Firmware that is ready, staged, activated, committed, attested and recovered, with the statement about it. -/
namespace Sys2Proof.Machine
open Sys2Proof

section
variable {a b d e : Dev} {un k : Nat}

/-! ### Sidebands (R51, R55) -/

theorem Dev.fw_setSvc (d : Dev) (un new : Nat) : (d.setSvc un new).fw = d.fw := by
  unfold Dev.setSvc
  extract_lets old dState dSleep rid₀ dRetired rid₁ dRelieved dCores
  have hSleep : dSleep.fw = d.fw := by
    dsimp only [dSleep]
    split
    · rfl
    · split <;> rfl
  have hRetired : dRetired.fw = dSleep.fw := by
    dsimp only [dRetired]
    split <;> rfl
  have hCores : dCores.fw = dRelieved.fw := by
    dsimp only [dCores]
    unfold Dev.showCores
    split <;> rfl
  exact (Dev.noted_raise ..).fw.trans (hCores.trans (hRetired.trans hSleep))

theorem Dev.fw_ownFault (d : Dev) (un cause : Nat) : (d.ownFault un cause).fw = d.fw := (Dev.noted_raise ..).fw

theorem Dev.fw_retireIfDue (d : Dev) (un : Nat) : (d.retireIfDue un).fw = d.fw := by
  unfold Dev.retireIfDue
  split
  · exact d.fw_setSvc ..
  · rfl

theorem Dev.fw_failSelf (d : Dev) (un cause : Nat) : (d.failSelf un cause).fw = d.fw := by
  unfold Dev.failSelf
  split
  · rfl
  · refine (Dev.fw_retireIfDue ..).trans ((Dev.fw_ownFault ..).trans ?_)
    split
    · rfl
    · exact d.fw_setSvc ..

/-- Has the unit failed, whether or not it may return? -/
def Dev.hasFailed (d : Dev) (un : Nat) : Prop := d.svc un = sFAILED ∨ d.svc un = sRETIRED

theorem Dev.hasFailed_retireIfDue (h : d.svc un = sFAILED) : (d.retireIfDue un).hasFailed un := by
  unfold Dev.retireIfDue
  split
  · exact .inr (d.svc_setSvc_self un (by decide))
  · exact .inl h

theorem Dev.hasFailed_failSelf (d : Dev) (un cause : Nat) : (d.failSelf un cause).hasFailed un := by
  unfold Dev.failSelf
  split
  · next h => exact .inr h
  · refine Dev.hasFailed_retireIfDue (((Dev.sameStanding_ownFault _ un cause).1).trans ?_)
    split
    · next h => exact h
    · exact d.svc_setSvc_self un (by decide)

/-- What has failed stays so while other units fail. -/
theorem Dev.hasFailed.failSelf (h : d.hasFailed un) (u cause : Nat) : (d.failSelf u cause).hasFailed un := by
  by_cases hu : un = u
  · subst hu
    exact d.hasFailed_failSelf un cause
  · rw [Dev.hasFailed, (d.sameStanding_failSelf cause hu).1]
    exact h

theorem Dev.hasFailed_foldl (un : Nat → Nat) (cause : Nat) (ks : List Nat) (d : Dev) (h : k ∈ ks ∨ d.hasFailed (un k)) :
    (ks.foldl (fun e s => e.failSelf (un s) cause) d).hasFailed (un k) := by
  induction ks generalizing d with
  | nil => exact h.resolve_left (by simp)
  | cons x xs ih =>
    refine ih _ ?_
    rcases h with h | h
    · rcases List.mem_cons.1 h with rfl | h
      · exact .inr (d.hasFailed_failSelf _ _)
      · exact .inl h
    · exact .inr (h.failSelf _ _)

theorem Dev.fw_readSidebands (d : Dev) (bad : List Nat) : (d.readSidebands bad).fw =
    { d.fw with sideband := (List.range 8).filter (fun s => !(bad.contains s && !d.fw.sideband.contains s)) } :=
  Dev.foldl_eq (g := Dev.fw) (fun e _ => e.fw_failSelf _ _) _ _

theorem Dev.sideband_readSidebands (d : Dev) (bad : List Nat) (hk : k < 8) :
    (d.readSidebands bad).fw.sideband.contains k = (!bad.contains k || d.fw.sideband.contains k) := by
  rw [d.fw_readSidebands, Bool.eq_iff_iff]
  simp [hk]

theorem Dev.hasFailed_readSidebands (bad : List Nat) (hk : k < 8) (hb : bad.contains k = true) (hs : d.fw.sideband.contains k = false)
    (ho : d.svc (512 + k) = sOFF) : (d.readSidebands bad).hasFailed (512 + k) := by
  refine Dev.hasFailed_foldl (512 + ·) 0x0006 _ _ (.inl (List.mem_filter.2 ⟨List.mem_range.2 hk, ?_⟩))
  simp only [hb, hs, ho]
  rfl

/-! ### A switch of images (R480, R483) -/

/-- `b` runs, remembers and waits for the images that `a` does. -/
structure Dev.SameRun (a b : Dev) : Prop where
  running : b.fw.running = a.fw.running
  previous : b.fw.previous = a.fw.previous
  act : b.fw.act = a.fw.act

theorem Dev.SameRun.of_fw (h : b.fw = a.fw) : a.SameRun b := ⟨by rw [h], by rw [h], by rw [h]⟩

theorem Dev.SameRun.trans {c : Dev} (h : a.SameRun b) (h' : b.SameRun c) : a.SameRun c :=
  ⟨h'.running.trans h.running, h'.previous.trans h.previous, h'.act.trans h.act⟩

theorem Dev.sameRun_putStore (d : Dev) (x : Store) : d.SameRun (d.putStore x) := by
  unfold Dev.putStore
  extract_lets latest x' migrated old to_ fw₀
  have h : d.SameRun (if to_ = 0 then { d with fw := { fw₀ with store0 := some x' } } else { d with fw := { fw₀ with store1 := some x' } }) := by
    split
    · exact ⟨rfl, rfl, rfl⟩
    · exact ⟨rfl, rfl, rfl⟩
  exact ⟨h.running, h.previous, h.act⟩

theorem Dev.sameRun_putBoot (d : Dev) (r : BootRec) : d.SameRun (d.putBoot r) := by
  obtain ⟨x, y, h⟩ := d.fw_putBoot r
  exact ⟨by rw [h], by rw [h], by rw [h]⟩

theorem Dev.sameRun_migrate (d : Dev) (n : Nat) : d.SameRun (d.migrate n) := by
  unfold Dev.migrate
  extract_lets old r
  have h : d.SameRun r.1 := by
    dsimp only [r]
    split
    · split
      · exact .of_fw rfl
      · exact d.sameRun_putStore _
    · exact .of_fw d.fw_loadStore
  exact h.trans (.of_fw (Dev.noted_raise ..).fw)

theorem Dev.Noted.stagingBusy (h : a.Noted b) : b.stagingBusy = a.stagingBusy := by
  rw [Dev.stagingBusy, h.fw, Dev.flag_congr (h.1 _ (noteKey_of FW_STATUS.TRIAL 0 0 (by decide))), Dev.stagingBusy]

theorem Dev.Noted.with_fw_eq (h : a.Noted b) {x y : FwState} (hxy : x = y) : ({ a with fw := x } : Dev).Noted { b with fw := y } :=
  hxy ▸ h.with_fw x

theorem Dev.Noted.trial (h : a.Noted b) : b.flag 0 FW_STATUS.TRIAL = a.flag 0 FW_STATUS.TRIAL :=
  Dev.flag_congr (h.1 _ (noteKey_of _ _ _ (by decide)))

theorem Dev.Noted.slot (h : a.Noted b) : b.get 0 FW_STATUS.SLOT = a.get 0 FW_STATUS.SLOT := h.get (noteKey_of _ _ _ (by decide))

theorem Dev.Noted.diagnostic (h : a.Noted b) : b.flag 0 FW_STATUS.DIAGNOSTIC = a.flag 0 FW_STATUS.DIAGNOSTIC :=
  Dev.flag_congr (h.1 _ (noteKey_of _ _ _ (by decide)))

theorem Dev.Noted.checkHeader (h : a.Noted b) (x : List Byte) (old : Option Nat) (allow : Bool) :
    b.checkHeader x old allow = a.checkHeader x old allow := Dev.checkHeader_congr (by rw [h.fw]) (by rw [h.fw]) x old allow

theorem Dev.Noted.checkPayload (h : a.Noted b) (x : List Byte) : b.checkPayload x = a.checkPayload x :=
  Dev.checkPayload_congr (by rw [h.fw]) x

theorem Dev.Noted.storeSchema (h : a.Noted b) : b.storeSchema = a.storeSchema := Dev.storeSchema_congr h.fw

theorem Dev.Noted.slotImage (h : a.Noted b) (n : Nat) : b.slotImage n = a.slotImage n :=
  Dev.slotImage_congr (by rw [h.fw]) (by rw [h.fw]) n

theorem Dev.fw_agTo (d : Dev) (slot new : Nat) : (d.agTo slot new).fw = d.fw := (Dev.noted_raise ..).fw

theorem Dev.fw_callBegins (d : Dev) (slot : Nat) : (d.callBegins slot).fw = d.fw := (Dev.noted_tally ..).fw

theorem Dev.fw_freshInstance (d : Dev) (slot code : Nat) : (d.freshInstance slot code).fw = d.fw :=
  (Dev.fw_callBegins ..).trans (Dev.fw_agTo ..)

theorem Dev.fw_reloadAgents (d : Dev) : d.reloadAgents.fw = d.fw :=
  Dev.foldl_eq (g := Dev.fw) (fun d k => (Dev.setI_fw ..).trans (d.fw_freshInstance k 0)) _ _

theorem Dev.fw_finish (d : Dev) (t : Ticket) (r : Reply) : (d.finish t r).fw = d.fw := by rw [(d.completed_finish t r).2.1]

theorem Dev.switchTo_leaves (d : Dev) (act : Activation) (x : Image) : let b := d.switchTo act x
    b.fw.running = some x ∧ b.fw.previous = d.fw.running ∧ b.fw.act = none := by
  unfold Dev.switchTo
  extract_lets prev dRuns fw₀ dPrev dMigrated dReady r dBoot dDone b
  have hRuns : dPrev.fw.running = some x ∧ dPrev.fw.previous = d.fw.running := ⟨rfl, rfl⟩
  have hMigrated : dPrev.SameRun dMigrated := Dev.sameRun_migrate ..
  have hReady : dMigrated.SameRun dReady := .of_fw rfl
  have hBoot : dReady.SameRun dBoot := Dev.sameRun_putBoot ..
  have hDone : dDone.fw = { dBoot.fw with act := none } := Dev.fw_finish ..
  have hb : b.fw = dDone.fw := (Dev.fw_reloadAgents _).trans (Dev.noted_raise ..).fw
  have hAll := (hMigrated.trans hReady).trans hBoot
  rw [hb, hDone]
  exact ⟨hAll.running.trans hRuns.1, hAll.previous.trans hRuns.2, rfl⟩

end

section
variable {s : State} {c : HCmd} {x : Image} {act : Activation}

/-! ### FW_READY and FWD_READY (R366, R434, R471) -/

theorem makes_fwReady (hr : s.dev.fw.running = some x) (hf : s.dev.flag uHIF HIF_STATUS.FW_READY = false) (hp : s.dev.fwPaused = false)
    (hl : s.dev.fw.trialLost = false) (bad : List Nat) {d e : Dev}
    (hd : d = ({ s.dev.set uHIF HIF_STATUS.FW_READY 1 with hdl := { s.dev.hdl with alive := some s.dev.now } } : Dev).readSidebands bad)
    (he : e = d.raise uSVC 0x15 (leBytes 1 x.slot ++ leBytes 1 (d.get 0 FW_STATUS.BOOT_CAUSE) ++ leBytes 2 0
      ++ leBytes 4 (hdrVersion x.header))) :
    Makes (.fwReady bad) s (e.raise 0 0x10 (leBytes 2 (e.get 0 PWR_RESET_CAUSE.CAUSE) ++ leBytes 2 (e.get 0 PWR_RESET_CAUSE.PREV_CAUSE))) := by
  subst hd he
  refine .intro rfl ?_
  unfold Dev.fwReady
  rw [hr]
  dsimp only
  rw [if_neg (by simp [hf, hp])]
  refine if_neg (fun h => ?_)
  rw [(Dev.noted_raise ..).fw, (Dev.noted_raise ..).fw, Dev.fw_readSidebands] at h
  exact absurd h (by simp [hl])

theorem makes_fwdReady (hf : s.dev.flag uHIF HIF_STATUS.FW_READY = true)
    (h : ∀ k < 8, (s.dev.stack k).up = true ∨ s.dev.svc (512 + k) = sFAILED ∨ s.dev.svc (512 + k) = sRETIRED) :
    Makes .fwdReady s (s.dev.set uHIF HIF_STATUS.FWD_READY 1) := by
  refine .intro rfl (if_pos ⟨hf, List.all_eq_true.2 fun k hk => ?_⟩)
  rcases h k (List.mem_range.1 hk) with h | h | h <;> simp [h]

/-! ### FW_STAGE (R481) -/

section
variable (ha : c.accepted s.dev 0x0601 c.fwStageParams (hdrFormOk (slice c.block 0 512))) (hs : s.dev.svc uSVC = sACTIVE)
include ha hs

theorem completes_fwStage_busy (h : s.dev.stagingBusy = true ∨ s.dev.fw.hgp.state ∉ [hgIDLE, hgDONE]) :
    Completes (.fwStage c) s c.ticket (.fail stRETRY_LATER) s.dev := by
  refine Completes.intro' rfl (Dev.fwStage.eq_def s.dev c) ha (fun b hb => ?_)
  have hbusy : b.stagingBusy = s.dev.stagingBusy := hb.stagingBusy
  dsimp only
  rw [hb.svc, hbusy, hb.fw, if_neg (by simp [hs]), if_pos (h.imp id fun h => by simpa [hgIDLE, hgDONE] using h)]
  exact ⟨rfl, hb⟩

variable (hfree : s.dev.stagingBusy = false) (hg : s.dev.fw.hgp.state ∈ [hgIDLE, hgDONE]) (hr : c.readOk = true) {allow : Bool}
  (hallow : (c.par 0 0 0 == 1) = allow)
include hfree hg hr hallow

theorem completes_fwStage_badHeader {r : Reply}
    (h : s.dev.checkHeader (slice c.block 0 512) s.dev.storeSchema allow = some r) : Completes (.fwStage c) s c.ticket r s.dev := by
  subst hallow
  have hidle : ¬ (s.dev.fw.hgp.state ≠ 0 ∧ s.dev.fw.hgp.state ≠ 4) := by simpa [hgIDLE, hgDONE, or_iff_not_imp_left] using hg
  refine Completes.intro' rfl (Dev.fwStage.eq_def s.dev c) ha (fun b hb => ?_)
  dsimp only
  rw [hb.svc, hb.stagingBusy, hb.fw, hb.checkHeader, hb.storeSchema, h, if_neg (by simp [hs]),
    if_neg (by rw [hfree]; rintro (h | h); exacts [Bool.noConfusion h, hidle h]), if_neg (by simp [hr])]
  exact ⟨rfl, hb⟩

theorem makes_fwStage (h : s.dev.checkHeader (slice c.block 0 512) s.dev.storeSchema allow = none)
    (hlen : c.par 4 24 0 = 512 + hdrPayload (slice c.block 0 512)) (hh : s.dev.flashHeld = false) (hw : c.writeOk = true)
    {e : Dev} (he : (c.begun s.dev).eraseOther = e) {img : List Byte} (himg : slice c.block 0 (c.par 4 24 0) = img)
    (hp : e.checkPayload img = none) : Makes (.fwStage c) s ((e.stagedNow img allow).finish c.ticket
      (.ok (hdrVersion img + hdrSv img * 2 ^ 32 + e.otherSlot * 2 ^ 40))) := by
  subst hallow he himg
  have hidle : ¬ (s.dev.fw.hgp.state ≠ 0 ∧ s.dev.fw.hgp.state ≠ 4) := by simpa [hgIDLE, hgDONE, or_iff_not_imp_left] using hg
  have hb := s.dev.noted_begun c
  refine Makes.ended rfl (Dev.fwStage.eq_def s.dev c) ha ?_
  dsimp only
  rw [hb.svc, hb.stagingBusy, hb.fw, hb.checkHeader, hb.storeSchema, h, hb.flashHeld, if_neg (by simp [hs]),
    if_neg (by rw [hfree]; rintro (h | h); exacts [Bool.noConfusion h, hidle h]), if_neg (by simp [hr])]
  dsimp only
  rw [if_neg (by simp [hlen]), if_neg (by simp [hh]), if_neg (by simp [hr]), if_neg (by simp [hw]), hp]

end

/-! ### FW_ACTIVATE (R482) -/

section
variable (ha : c.accepted s.dev 0x0602 c.fwActivateParams) (hs : s.dev.svc uSVC = sACTIVE)
include ha hs

theorem completes_fwActivate_nothing (hc : c.par 0 0 0 = 1) (h : ∀ a, s.dev.fw.act = some a → a.revert = true) :
    Completes (.fwActivate c) s c.ticket (.fail stNOT_FOUND) s.dev := by
  have hnone : s.dev.fw.act.filter (fun a => !a.revert) = none := by
    rw [Option.filter_eq_none_iff]
    exact fun a ha => by simp [h a ha]
  refine Completes.intro' rfl (Dev.fwActivate.eq_def s.dev c) ha (fun b hb => ?_)
  dsimp only
  rw [hb.svc, hb.fw, hnone, if_neg (by simp [hs]), if_pos (by simp [hc])]
  exact ⟨rfl, hb⟩

section
variable (hc : c.par 0 0 0 = 1) (hact : s.dev.fw.act = some act) (hrev : act.revert = false)
include hc hact hrev

theorem completes_fwActivate_late (h : act.stage ≠ 0 ∨ act.time < s.dev.now + 1000000) :
    Completes (.fwActivate c) s c.ticket (.fail stUNIT_UNAVAILABLE) s.dev := by
  have hsome : (some act).filter (fun a => !a.revert) = some act := by simp [Option.filter, hrev]
  refine Completes.intro' rfl (Dev.fwActivate.eq_def s.dev c) ha (fun b hb => ?_)
  dsimp only
  rw [hb.svc, hb.fw, hb.now, hact, hsome, if_neg (by simp [hs]), if_pos (by simp [hc])]
  dsimp only
  rw [if_pos h]
  exact ⟨rfl, hb⟩

theorem makes_fwActivate_cancel (h0 : act.stage = 0) (ht : s.dev.now + 1000000 ≤ act.time) :
    Makes (.fwActivate c) s (((c.begun s.dev).endAct.finish act.ticket (.fail stABORTED_FAULT)).finish c.ticket .ok) := by
  have hsome : (some act).filter (fun a => !a.revert) = some act := by simp [Option.filter, hrev]
  have hb := s.dev.noted_begun c
  refine Makes.ended rfl (Dev.fwActivate.eq_def s.dev c) ha ?_
  dsimp only
  rw [hb.svc, hb.fw, hb.now, hact, hsome, if_neg (by simp [hs]), if_pos (by simp [hc])]
  dsimp only
  rw [if_neg (by omega)]

end

variable (hc : c.par 0 0 0 = 0) {t : Nat} (htime : c.par 8 63 0 = t)
include hc htime

theorem completes_fwActivate_badTime (h : t < s.dev.now + 10000000 ∨ s.dev.now + 3600000000000 < t) :
    Completes (.fwActivate c) s c.ticket ⟨stMALFORMED, 0, 24⟩ s.dev := by
  subst htime
  refine Completes.intro' rfl (Dev.fwActivate.eq_def s.dev c) ha (fun b hb => ?_)
  dsimp only
  rw [hb.svc, hb.now, if_neg (by simp [hs]), if_neg (by simp [hc]), if_pos h]
  exact ⟨rfl, hb⟩

variable (h1 : s.dev.now + 10000000 ≤ t) (h2 : t ≤ s.dev.now + 3600000000000)
include h1 h2

theorem completes_fwActivate_notStaged (h : s.dev.fw.staged = none) : Completes (.fwActivate c) s c.ticket (.fail stNOT_FOUND) s.dev := by
  subst htime
  refine Completes.intro' rfl (Dev.fwActivate.eq_def s.dev c) ha (fun b hb => ?_)
  dsimp only
  rw [hb.svc, hb.now, hb.fw, h, if_neg (by simp [hs]), if_neg (by simp [hc]), if_neg (by omega)]
  exact ⟨rfl, hb⟩

theorem completes_fwActivate_pending (h : s.dev.fw.staged = some x) (hact : s.dev.fw.act.isSome = true) :
    Completes (.fwActivate c) s c.ticket (.fail stEXISTS) s.dev := by
  subst htime
  refine Completes.intro' rfl (Dev.fwActivate.eq_def s.dev c) ha (fun b hb => ?_)
  dsimp only
  rw [hb.svc, hb.now, hb.fw, h, if_neg (by simp [hs]), if_neg (by simp [hc]), if_neg (by omega)]
  dsimp only
  rw [if_pos hact]
  exact ⟨rfl, hb⟩

theorem goesOn_fwActivate (h : s.dev.fw.staged = some x) (hact : s.dev.fw.act = none)
    (hhdr : s.dev.checkHeader (slice (s.dev.slotImage x.slot) 0 512) s.dev.storeSchema s.dev.fw.stagedDefaults = none)
    (hpay : s.dev.checkPayload (s.dev.slotImage x.slot) = none) : GoesOn (.fwActivate c) s
      (((({ s.dev with fw := { s.dev.fw with act := some { ticket := c.ticket, time := t } } } : Dev).set 0 FW_STATUS.ACT_PENDING
        1).set 0 FW_ACT_TIME.TIME t).noteStarted c.ticket) := by
  subst htime
  refine GoesOn.intro rfl (Dev.fwActivate.eq_def s.dev c) ha (fun b hb => ?_)
  have hset := ((hb.with_fw { s.dev.fw with act := some { ticket := c.ticket, time := c.par 8 63 0 } }).set 0 FW_STATUS.ACT_PENDING 1
    rfl).set 0 FW_ACT_TIME.TIME (c.par 8 63 0) rfl
  have hstaged : b.fw.staged = some x := by rw [hb.fw, h]
  have hnow := hb.now
  dsimp only
  rw [hb.svc, if_neg (by simp [hs]), if_neg (by simp [hc]), if_neg (by omega), hstaged]
  dsimp only
  rw [if_neg (by simp [hb.fw, hact]), hb.checkHeader, hb.storeSchema, hb.checkPayload, hb.slotImage, hb.fw, hhdr, hpay, Option.none_or]
  refine ⟨rfl, ?_⟩
  dsimp only
  rw [← h]
  exact hset

end
/-! ### ACTIVATION_SWITCH and FW_REVERTED (R483, R484, R519) -/

section
variable (hact : s.dev.fw.act = some act)
include hact

theorem makes_activationSwitch_begins (h0 : act.stage = 0) (ht : act.time ≤ s.dev.now) : Makes .activationSwitch s
    (({ s.dev with fw := { s.dev.fw with act := some { act with stage := 1 } } } : Dev).set uHIF HIF_STATUS.FW_READY 0) := by
  refine .intro rfl ?_
  unfold Dev.activationSwitch
  rw [hact]
  dsimp only
  rw [if_pos h0, if_pos ht]

theorem makes_activationSwitch_settles (h1 : act.stage = 1) (ht : act.time + 10000000 ≤ s.dev.now) : Makes .activationSwitch s
    { s.dev.settleSwitch act with fw := { (s.dev.settleSwitch act).fw with act := some { act with stage := 2 } } } := by
  refine .intro rfl ?_
  unfold Dev.activationSwitch
  rw [hact]
  dsimp only
  rw [if_neg (by omega), if_pos h1, if_pos ht]

variable (h2 : act.stage = 2)
include h2

theorem makes_activationSwitch_held (hh : s.dev.flashHeld = true) : Makes .activationSwitch s s.dev := by
  refine .intro rfl ?_
  unfold Dev.activationSwitch
  rw [hact]
  dsimp only
  rw [if_neg (by omega), if_neg (by omega), if_pos hh]

variable (hh : s.dev.flashHeld = false)
include hh

theorem makes_activationSwitch_to (hr : act.revert = false) (hx : s.dev.fw.staged = some x) :
    Makes .activationSwitch s (s.dev.switchTo act x) := by
  refine .intro rfl ?_
  unfold Dev.activationSwitch
  rw [hact]
  dsimp only
  rw [if_neg (by omega), if_neg (by omega), if_neg (by simp [hh]), if_neg (by simp [hr]), hx]
  exact if_neg (by simp [hr])

theorem makes_activationSwitch_back (hr : act.revert = true) (hx : s.dev.fw.previous = some x) :
    Makes .activationSwitch s (s.dev.switchBack act x) := by
  refine .intro rfl ?_
  unfold Dev.activationSwitch
  rw [hact]
  dsimp only
  rw [if_neg (by omega), if_neg (by omega), if_neg (by simp [hh]), if_pos hr, hx]
  exact if_pos hr

theorem makes_fwReverted (hr : act.revert = false) {trapped : Bool} (ht : trapped = true ∨ act.time + 2000000000 ≤ s.dev.now) :
    Makes (.fwReverted trapped) s (((((s.dev.set uHIF HIF_STATUS.FW_READY 1).raiseEpoch.endAct).finish act.ticket
      (.fail stABORTED_FAULT 1)).raise uSVC 0x18 (leBytes 1 0)).reloadAgents) := by
  have hgo : ¬ (act.stage ≠ 2 ∨ act.revert = true ∨ s.dev.flashHeld = true
      ∨ (¬ trapped = true ∧ s.dev.now < act.time + 2000000000)) := by
    rw [hr, hh]
    rintro (h | h | h | ⟨h, h'⟩)
    · exact h h2
    · cases h
    · cases h
    · exact ht.elim h (by omega)
  refine .intro rfl ?_
  unfold Dev.fwReverted
  rw [hact]
  exact if_neg hgo

end

/-! ### FW_COMMIT and fuses (R477, R478, R485) -/

section
variable (ha : c.accepted s.dev 0x0603 c.fwCommitParams)
include ha

theorem completes_fwCommit_noTrial (ht : s.dev.flag 0 FW_STATUS.TRIAL = false) :
    Completes (.fwCommit c) s c.ticket (.fail stUNIT_UNAVAILABLE) s.dev := by
  refine Completes.intro' rfl (Dev.fwCommit.eq_def s.dev c) ha (fun b hb => ?_)
  dsimp only
  rw [hb.trial, if_pos (.inr (by simp [ht]))]
  exact ⟨rfl, hb⟩

variable (hs : s.dev.svc uSVC = sACTIVE) (ht : s.dev.flag 0 FW_STATUS.TRIAL = true) (hact : s.dev.fw.act = none)
include hs ht hact

theorem goesOn_fwCommit_revert (hc : c.par 0 0 0 = 1) : GoesOn (.fwCommit c) s (({ s.dev with fw := { s.dev.fw with
    act := some { ticket := c.ticket, time := s.dev.now, revert := true } } } : Dev).noteStarted c.ticket) := by
  refine GoesOn.intro rfl (Dev.fwCommit.eq_def s.dev c) ha (fun b hb => ?_)
  dsimp only
  rw [hb.svc, hb.trial, if_neg (by simp [hs, ht]), if_neg (by simp [hb.fw, hact]), if_pos (by simp [hc])]
  exact ⟨rfl, hb.with_fw_eq (by rw [hb.fw, hb.now])⟩

section
variable (hc : c.par 0 0 0 = 0) (hd : s.dev.flag 0 FW_STATUS.DIAGNOSTIC = false) (hh : s.dev.flashHeld = false)
  (hx : s.dev.fw.running = some x) {sv : Nat} (hsv : max s.dev.bootRec.committedSv (hdrSv x.header) = sv) {d : Dev}
  (hd' : (c.begun s.dev).putBoot { s.dev.bootRec with slot := s.dev.get 0 FW_STATUS.SLOT, trial := false, committedSv := sv } = d)
include hc hd hh hx hsv hd'

/-- A commit ends the trial at once, unless fuses have to burn first. -/
theorem makes_fwCommit : Makes (.fwCommit c) s (if s.dev.fw.otp.svFused < sv then
    (({ d with fw := { d.fw with burn := some (sv, some c.ticket) } } : Dev).noteStarted c.ticket)
    else d.committed.finish c.ticket .ok) := by
  have hb := s.dev.noted_begun c
  have hrun : (c.begun s.dev).fw.running = some x := by rw [hb.fw, hx]
  have hfused : d.fw.otp.svFused = s.dev.fw.otp.svFused := by
    obtain ⟨y, z, h⟩ := (c.begun s.dev).fw_putBoot
      { s.dev.bootRec with slot := s.dev.get 0 FW_STATUS.SLOT, trial := false, committedSv := sv }
    rw [← hd', h, hb.fw]
  refine .intro rfl ((Dev.fwCommit.eq_def s.dev c).trans ((Dev.command_accepted ha).trans ?_))
  dsimp only
  rw [hb.svc, hb.trial, hb.diagnostic, hb.flashHeld, if_neg (by simp [hs, ht]), if_neg (by simp [hb.fw, hact]), if_neg (by simp [hc]),
    if_neg (by simp [hd]), if_neg (by simp [hh]), hb.bootRec, hb.slot, hrun]
  dsimp only
  rw [hsv, hd', hfused]
  by_cases hlt : s.dev.fw.otp.svFused < sv
  · rw [if_pos hlt, if_pos hlt]
  · rw [if_neg hlt, if_neg hlt]

end
end

theorem Dev.svFused_fuseTime {d : Dev} {n : Nat} {t : Option Ticket} (h : d.fw.burn = some (n, t)) :
    d.fw.otp.svFused ≤ d.fuseTime.fw.otp.svFused ∧ d.fuseTime.fw.otp.svFused ≤ max d.fw.otp.svFused (min n (d.fw.otp.svFused + 1)) := by
  unfold Dev.fuseTime
  split
  · omega
  · extract_lets o fw₀ dRevoked
    have hburn : dRevoked.fw.burn = some (n, t) := by
      dsimp only [dRevoked]
      split <;> exact h
    have hfused : dRevoked.fw.otp.svFused = d.fw.otp.svFused := by
      dsimp only [dRevoked]
      split <;> rfl
    rw [hburn]
    dsimp only
    split
    · next hlt =>
      have hlt' : d.fw.otp.svFused < n := hlt.1
      show d.fw.otp.svFused ≤ d.fw.otp.svFused + 1 ∧ d.fw.otp.svFused + 1 ≤ _
      omega
    · rw [hfused]
      omega

theorem Dev.fuseTime_held {d : Dev} (h : d.flashHeld = true) : d.fuseTime = d := if_pos h

theorem makes_fuseBurnt {n : Nat} {t : Option Ticket} (h : s.dev.fw.burn = some (n, t)) (hh : s.dev.flashHeld = false) {d e : Dev}
    (hd : d = { s.dev with fw := { s.dev.fw with burn := none, otp := { s.dev.fw.otp with svFused := n } } })
    (he : e = (d.set 0 FW_STATUS.SV_FUSED n).raise uSVC 0x1A (leBytes 1 n)) :
    Makes .fuseBurnt s (t.elim e (fun t => e.committed.finish t .ok)) := by
  subst hd he
  refine .intro rfl ?_
  unfold Dev.fuseBurnt
  rw [h]
  dsimp only
  rw [if_neg (by simp [hh])]
  cases t <;> rfl

/-- What a supply dip held goes on, command by command. -/
theorem makes_burnAndWriteResume (hu : s.dev.fw.holdUntil ≠ 0) (hh : s.dev.flashHeld = false) {d e : Dev}
    (hd : d = { s.dev with fw := { s.dev.fw with holdUntil := 0, held := [], dirty := false } })
    (he : e = if s.dev.fw.dirty then d.saveStore else d) :
    (s.dev.fw.held = [] → Makes .burnAndWriteResume s e)
    ∧ ∀ c, s.dev.fw.held = [c] → (c.ticket.opcode = 0x0601 → Makes .burnAndWriteResume s (e.fwStage c))
      ∧ (c.ticket.opcode = 0x0603 → Makes .burnAndWriteResume s (e.fwCommit c))
      ∧ (c.ticket.opcode = 0x0607 → Makes .burnAndWriteResume s (e.agentKeySet c)) := by
  subst hd he
  have hgo : ¬ (s.dev.fw.holdUntil = 0 ∨ s.dev.flashHeld = true) := by simp [hu, hh]
  refine ⟨fun hn => .intro rfl ?_, fun c hc => ⟨fun ho => .intro rfl ?_, fun ho => .intro rfl ?_, fun ho => .intro rfl ?_⟩⟩
  · unfold Dev.burnAndWriteResume
    rw [if_neg hgo, hn]
    rfl
  all_goals
    unfold Dev.burnAndWriteResume
    rw [if_neg hgo, hc]
    dsimp only [List.foldl]
    rw [ho]
    rfl

/-! ### ATTEST (R495, R496) -/

section
variable (ha : c.accepted s.dev 0x0604 attestParams) (hs : s.dev.svc uSVC = sACTIVE) {d e : Dev} (hd : d = c.begun s.dev)
  (he : e = { d with draws := d.draws + 1 }) {report certs : List Byte}
  (hreport : report = d.attestBody (slice c.area 0 32)
    ++ slice (Config.attestSign d.fw.otp.attestKey d.draws (d.attestBody (slice c.area 0 32))) 0 64)
  (hcerts : certs = if c.par 0x2A 0 0 = 1 then leBytes 4 d.fw.otp.deviceCert.length ++ d.fw.otp.deviceCert
    ++ (leBytes 4 d.fw.otp.authorityCert.length ++ d.fw.otp.authorityCert) else []) {res : Nat}
  (hres : res = report.length + (report ++ certs).length * 2 ^ 16)
include ha hs hd he hreport hcerts hres

theorem makes_attest {r : Dev × Reply} (hr : (if c.par 0x28 15 0 < (report ++ certs).length then (e, Reply.fail stNO_RESOURCE res)
    else e.hostBlock c (c.par 0x20 63 0) (report ++ certs) res) = r) : Makes (.attest c) s (r.1.finish c.ticket r.2) := by
  have hask : (if (c.par 0x2A 0 0 == 1) = true then leBytes 4 d.fw.otp.deviceCert.length ++ d.fw.otp.deviceCert
      ++ (leBytes 4 d.fw.otp.authorityCert.length ++ d.fw.otp.authorityCert) else []) = certs := by simp [hcerts]
  refine Makes.endedNow rfl (Dev.attest.eq_def s.dev c) ha ?_
  rw [← hd]
  dsimp only
  rw [if_neg (by simp [hd, (s.dev.noted_begun c).svc, hs]), hask, ← hreport, ← hres, ← he, hr]

theorem makes_attest_noRoom (h : c.par 0x28 15 0 < (report ++ certs).length) :
    Makes (.attest c) s (e.finish c.ticket (.fail stNO_RESOURCE res)) :=
  makes_attest (r := (e, .fail stNO_RESOURCE res)) ha hs hd he hreport hcerts hres (if_pos h)

theorem makes_attest_written (h : (report ++ certs).length ≤ c.par 0x28 15 0) {r : Dev × Reply}
    (hr : r = e.hostBlock c (c.par 0x20 63 0) (report ++ certs) res) : Makes (.attest c) s (r.1.finish c.ticket r.2) :=
  makes_attest ha hs hd he hreport hcerts hres ((if_neg (Nat.not_lt.2 h)).trans hr.symm)

end

/-! ### Recovery through BAR4 (R487, R488) -/

section
variable (hrec : s.dev.flag 0 FW_STATUS.RECOVERY = true) (hbusy : s.dev.flag 0 FW_REC_STATUS.BUSY = false)
include hrec hbusy

theorem makes_recHdrCheck (bytes : List Byte) : Makes (.recHdrCheck bytes) s
    ((s.dev.set 0 FW_REC_STATUS.DONE 0).set 0 FW_REC_STATUS.STATUS ((s.dev.checkHeader (slice bytes 0 512) none false).getD .ok).status) :=
  .intro rfl (if_neg (by simp [hrec, hbusy]))

theorem makes_recGo (bytes : List Byte) : Makes (.recGo bytes) s (((({ s.dev with fw := { s.dev.fw with
    bar4 := some (s.dev.get 0 FW_REC_CTRL.TARGET, slice bytes 0 (min (28 * 2 ^ 20) (s.dev.get 0 FW_REC_CTRL.LENGTH))) } } : Dev).set 0
      FW_REC_STATUS.DONE 0).set 0 FW_REC_STATUS.BUSY 1).set 0 FW_REC_STATUS.PROGRESS 0) :=
  .intro rfl (if_neg (by simp [hrec, hbusy]))

end

/-- A transfer through BAR4 has ended with a status. -/
def Dev.recDone (d : Dev) (st : Nat) : Dev :=
  (((d.set 0 FW_REC_STATUS.STATUS st).set 0 FW_REC_STATUS.BUSY 0).set 0 FW_REC_STATUS.DONE 1).set 0 FW_REC_STATUS.PROGRESS 100

section
variable {target : Nat} {img : List Byte} (h : s.dev.fw.bar4 = some (target, img)) (hh : s.dev.flashHeld = false) {d : Dev}
  (hd : ({ s.dev with fw := { s.dev.fw with bar4 := none } } : Dev) = d)
include h hh hd

theorem makes_recTransferDone_bad {r : Reply} (hbad : d.recBad img = some r) (w : Bool) :
    Makes (.recTransferDone w) s (d.recDone r.status) := by
  subst hd
  refine .intro rfl ?_
  unfold Dev.recTransferDone
  rw [h]
  dsimp only
  rw [if_neg (by simp [hh]), hbad]
  rfl

variable (hgood : d.recBad img = none)
include hgood

theorem makes_recTransferDone_memory (ht : 2 ≤ target) (w : Bool) :
    Makes (.recTransferDone w) s ((d.runFromMemory img).recDone stOK) := by
  subst hd
  refine .intro rfl ?_
  unfold Dev.recTransferDone
  rw [h]
  dsimp only
  rw [if_neg (by simp [hh]), hgood]
  dsimp only
  rw [if_pos ht]
  rfl

theorem makes_recTransferDone_flash (ht : target < 2) (w : Bool) : Makes (.recTransferDone w) s
    (if w then ((d.putSlot target img).nameSlot target).recDone stOK else (d.putSlot target []).recDone stDATA_ERROR) := by
  subst hd
  refine .intro rfl ?_
  unfold Dev.recTransferDone
  rw [h]
  dsimp only
  rw [if_neg (by simp [hh]), hgood]
  dsimp only
  rw [if_neg (by omega)]
  cases w <;> rfl

end
end

/-- Settles O59: the ROM's three ends, then each command by the checks of its body and each hardware row by the state of the firmware. -/
theorem firmwareLifecycle : Obligations.FirmwareLifecycle := by
  unfold Obligations.FirmwareLifecycle
  refine ⟨fun s hr hrec hg ht hf => fun htrial hsv => ⟨_, .intro rfl rfl, Dev.bootRom_leaves hr hrec hg ht hf htrial hsv⟩,
    fun d => ⟨fun h => if_neg h, fun h => ?_⟩,
    fun s bad x hr hf hp hl => makes_fwReady hr hf hp hl bad rfl rfl,
    fun d bad k hk => ⟨fun h => ?_, fun hb hs => ⟨?_, Dev.hasFailed_readSidebands bad hk hb hs⟩⟩,
    fun s hf h => makes_fwdReady hf h,
    fun s c h1 h2 h3 h4 hr hb => completes_badBlock rfl (Dev.fwStage.eq_def s.dev c) h1 h2 h3 h4 hr hb,
    fun s c ha hs => ⟨completes_fwStage_busy ha hs, fun hfree hg hr => ?_⟩,
    fun s c ha hs => ⟨completes_fwActivate_nothing ha hs,
      fun a hc hact hrev => ⟨completes_fwActivate_late ha hs hc hact hrev, makes_fwActivate_cancel ha hs hc hact hrev⟩,
      fun hc => completes_fwActivate_badTime ha hs hc rfl,
      fun hc h1 h2 => ⟨completes_fwActivate_notStaged ha hs hc rfl h1 h2,
        fun x => completes_fwActivate_pending ha hs hc rfl h1 h2, fun x => goesOn_fwActivate ha hs hc rfl h1 h2⟩⟩,
    fun s a hact => ⟨makes_activationSwitch_begins hact, makes_activationSwitch_settles hact, makes_activationSwitch_held hact,
      fun x h2 hh hr hx => ⟨makes_activationSwitch_to hact h2 hh hr hx, s.dev.switchTo_leaves a x⟩,
      fun x => makes_activationSwitch_back hact, fun trapped h2 hr hh => makes_fwReverted hact h2 hh hr⟩,
    fun s c ha hs => ⟨completes_fwCommit_noTrial ha, fun ht hact => ⟨goesOn_fwCommit_revert ha hs ht hact,
      fun hc hd hh x hx => ?_⟩⟩,
    fun d n t h => ⟨(Dev.svFused_fuseTime h).1, (Dev.svFused_fuseTime h).2, Dev.fuseTime_held⟩,
    fun s n t h hh => makes_fuseBurnt h hh rfl rfl,
    fun s n h hh => makes_fuseBurnt h hh rfl rfl,
    fun s hu hh => makes_burnAndWriteResume hu hh rfl rfl,
    fun s c ha hs => ⟨makes_attest_noRoom ha hs rfl rfl rfl rfl rfl, fun h => makes_attest_written ha hs rfl rfl rfl rfl rfl h rfl⟩,
    fun s bytes hrec hbusy => ⟨makes_recHdrCheck hrec hbusy bytes, makes_recGo hrec hbusy bytes⟩,
    fun s target img w h hh => ⟨fun r hbad => makes_recTransferDone_bad h hh rfl hbad w,
      fun hgood ht => makes_recTransferDone_memory h hh rfl hgood ht w, fun hgood ht => makes_recTransferDone_flash h hh rfl hgood ht w⟩⟩
  · rw [Dev.firstKeys, if_pos h]
    exact ⟨rfl, rfl⟩
  · rw [d.sideband_readSidebands bad hk]
    rcases h with h | h
    · rw [h]; rfl
    · rw [h, Bool.or_true]
  · rw [d.sideband_readSidebands bad hk, hb, hs]
    rfl
  · have hb := s.dev.noted_begun c
    rw [hb.storeSchema, hb.checkHeader]
    exact ⟨fun r => completes_fwStage_badHeader ha hs hfree hg hr rfl,
      fun h hlen hh hw hp => makes_fwStage ha hs hfree hg hr rfl h hlen hh hw rfl rfl hp⟩
  · have h := makes_fwCommit ha hs ht hact hc hd hh hx rfl rfl
    exact ⟨fun hle => by rwa [if_neg (by omega)] at h, fun hlt => by rwa [if_pos hlt] at h⟩

end Sys2Proof.Machine
end

section
/-! SUPPORT. The management port and headgate sessions, with the statement about them. -/
namespace Sys2Proof.Machine
open Sys2Proof

/-! ### Messages (R490) -/

/-- Bytes overwritten between others. -/
theorem patch_middle {xs ys zs new : List Byte} {off : Nat} (hx : xs.length = off) (hy : ys.length = new.length) :
    patch (xs ++ ys ++ zs) off new = xs ++ new ++ zs := by
  subst hx
  have hdrop : (xs ++ ys ++ zs).drop (xs.length + new.length) = zs := by
    rw [← hy, ← List.length_append, List.drop_left]
  unfold patch
  rw [hdrop, List.append_assoc xs ys zs, List.take_left, List.take_of_length_le (by simp [hy])]

/-- The header of a message, up to its CHECK. -/
def hgHead (type session seq len status : Nat) : List Byte :=
  leBytes 2 0x4847 ++ leBytes 1 1 ++ leBytes 1 type ++ leBytes 4 session ++ leBytes 4 seq ++ leBytes 2 len ++ leBytes 1 status ++ leBytes 1 0

theorem hgHead_length (type session seq len status : Nat) : (hgHead type session seq len status).length = 0x10 := by
  simp [hgHead, leBytes_length]

theorem hgParse_sent {type session seq status : Nat} {payload : List Byte} (ht : type < 256) (hs : session < 2 ^ 32) (hq : seq < 2 ^ 32)
    (hst : status < 256) (hp : payload.length < 65536) {m : List Byte}
    (hm : m = hgHead type session seq payload.length status ++ leBytes 4 0 ++ payload) :
    hgParse (patch m 0x10 (leBytes 4 (crc32cStd m))) = some ⟨type, session, seq, status, payload⟩ := by
  have hhead := hgHead_length type session seq payload.length status
  have hsent : patch m 0x10 (leBytes 4 (crc32cStd m))
      = hgHead type session seq payload.length status ++ leBytes 4 (crc32cStd m) ++ payload := by
    conv_lhs => arg 1; rw [hm]
    exact patch_middle hhead (by simp [leBytes_length])
  have hback : patch (patch m 0x10 (leBytes 4 (crc32cStd m))) 0x10 (leBytes 4 0) = m := by
    rw [hsent, hm]
    exact patch_middle hhead (by simp [leBytes_length])
  have hcheck : leAt (patch m 0x10 (leBytes 4 (crc32cStd m))) 0x10 4 = crc32cStd m := by
    rw [hsent, List.append_assoc, leAt_leBytes hhead]
    exact Nat.mod_eq_of_lt (crc32cStd_lt m)
  have hlen : (patch m 0x10 (leBytes 4 (crc32cStd m))).length = payload.length + 20 := by
    rw [hsent]
    simp [hhead, leBytes_length]
    omega
  have hload : slice (patch m 0x10 (leBytes 4 (crc32cStd m))) 20 payload.length = payload := by
    rw [hsent]
    exact slice_append_right (by simp [hhead, leBytes_length]) rfl
  have hat {off n : Nat} (h : off + n ≤ 0x10) : leAt (patch m 0x10 (leBytes 4 (crc32cStd m))) off n
      = leAt (hgHead type session seq payload.length status) off n := by
    rw [hsent, List.append_assoc]
    exact leAt_append_of_le (by rw [hhead]; exact h) _
  unfold hgParse
  rw [hback, hcheck, hlen, Nat.add_sub_cancel, hload, hat (by omega), hat (by omega), hat (by omega), hat (by omega), hat (by omega),
    hat (by omega), hat (by omega)]
  simp [hgHead, leAt_here, leAt_skip]
  omega

/-! ### The port and its frames (R489) -/

section
variable {s : State} {d e : Dev} {f : List Byte}

theorem makes_mgtLinkChange {up : Bool} (h : up ≠ s.dev.flag uMGT MGT_STATUS.LINK_UP)
    (ha : up = false ∨ s.dev.flag uMGT MGT_CFG.ADMIN_UP = true) {speed : Nat}
    (hs : speed = s.dev.get uMGT (if up then MGT_CFG.SPEED else MGT_STATUS.SPEED)) : Makes (.mgtLinkChange up) s
      (((s.dev.setFlag uMGT MGT_STATUS.LINK_UP up).set uMGT MGT_STATUS.SPEED speed).raise uMGT 0x10
        (leBytes 1 up.toNat ++ leBytes 1 speed)) := by
  subst hs
  have hgo : ¬ (up = s.dev.flag uMGT MGT_STATUS.LINK_UP ∨ (up = true ∧ ¬ s.dev.flag uMGT MGT_CFG.ADMIN_UP = true)) := by
    rintro (h' | ⟨h1, h2⟩)
    · exact h h'
    · rcases ha with ha | ha
      · rw [ha] at h1; cases h1
      · exact h2 ha
  refine .intro rfl ((if_neg hgo).trans ?_)
  cases up <;> rfl

theorem makes_mgtFrameReceived (hup : s.dev.flag uMGT MGT_STATUS.LINK_UP = true) (hd : s.dev.mgtRx = d) (hr : d.mgtRuns = true) :
    (∀ g, d.mgtAnswer f = some g → Makes (.mgtFrameReceived f) s (d.mgtSend g))
    ∧ (d.mgtAnswer f = none → Makes (.mgtFrameReceived f) s d) := by
  subst hd
  refine ⟨fun g hg => .intro rfl ?_, fun hg => .intro rfl ?_⟩
  all_goals
    unfold Dev.mgtFrameReceived
    rw [if_neg (by simp [hup])]
    dsimp only
    rw [if_pos hr, hg]

/-! ### A message taken out of its frame (R490) -/

section
variable {type : Nat} {act : Dev → HgMsg → Dev} {raw : List Byte} {m : HgMsg} (hup : d.flag uMGT MGT_STATUS.LINK_UP = true)
  (hr : d.mgtRx.mgtRuns = true) (hp : d.mgtRx.hgPayload f = some raw)
include hup hr hp

theorem Dev.hgTake_bad (hm : hgParse raw = none) : d.hgTake f type act = d.mgtRx.hgBad := by
  unfold Dev.hgTake
  rw [if_neg (by simp [hup])]
  dsimp only
  rw [if_neg (by simp [hr]), hp]
  dsimp only
  rw [hm]

theorem Dev.hgTake_message (hm : hgParse raw = some m) (ht : m.type = type) : d.hgTake f type act = act d.mgtRx m := by
  unfold Dev.hgTake
  rw [if_neg (by simp [hup])]
  dsimp only
  rw [if_neg (by simp [hr]), hp]
  dsimp only
  rw [hm]
  exact if_pos ht

end

theorem slice_slice_prefix {xs ys : List Byte} {k n : Nat} (hx : xs.length = k) (hk : k ≤ n) :
    slice (slice (xs ++ ys) 0 n) 0 k = xs := by
  subst hx
  have htake : ((xs ++ ys).take n).take xs.length = xs := by rw [List.take_take, Nat.min_eq_left hk, List.take_left]
  have hlen : 0 + xs.length ≤ ((xs ++ ys).take n).length := by simp; omega
  unfold slice
  rw [List.drop_zero, List.drop_zero]
  dsimp only
  rw [List.take_append_of_le_length (by omega), htake, Nat.sub_self, List.replicate_zero, List.append_nil]

theorem slice_length (l : List Byte) (off n : Nat) : (slice l off n).length = n := by
  unfold slice
  simp

theorem Dev.hgp_setHg (d : Dev) (h : Headgate) : (d.setHg h).fw.hgp = h := rfl

theorem Dev.hgp_hgHeard (d : Dev) (f : List Byte) : (d.hgHeard f).fw.hgp = { d.fw.hgp with lastMsg := d.now, peer := f } := rfl

theorem Dev.now_hgHeard (d : Dev) (f : List Byte) : (d.hgHeard f).now = d.now := rfl

theorem Dev.hgp_putSlot (d : Dev) (n : Nat) (img : List Byte) : (d.putSlot n img).fw.hgp = d.fw.hgp := by
  unfold Dev.putSlot
  split <;> rfl

theorem Dev.now_putSlot (d : Dev) (n : Nat) (img : List Byte) : (d.putSlot n img).now = d.now := by
  unfold Dev.putSlot
  split <;> rfl

theorem Dev.hgp_nameSlot (d : Dev) (n : Nat) : (d.nameSlot n).fw.hgp = d.fw.hgp := by
  obtain ⟨x, y, h⟩ := d.fw_putBoot { d.bootRec with slot := n, trial := false }
  rw [Dev.nameSlot, h]

theorem Dev.now_putBoot (d : Dev) (r : BootRec) : (d.putBoot r).now = d.now := by
  unfold Dev.putBoot
  extract_lets cur r' fw₀ dRec
  show dRec.now = d.now
  dsimp only [dRec]
  split <;> rfl

theorem Dev.now_nameSlot (d : Dev) (n : Nat) : (d.nameSlot n).now = d.now := d.now_putBoot _

theorem Dev.hgp_stagedNow (d : Dev) (img : List Byte) (allow : Bool) : (d.stagedNow img allow).fw.hgp = d.fw.hgp :=
  (congrArg FwState.hgp (Dev.noted_raise ..).fw).trans (d.hgp_putSlot d.otherSlot img)

theorem Dev.now_stagedNow (d : Dev) (img : List Byte) (allow : Bool) : (d.stagedNow img allow).now = d.now :=
  (Dev.noted_raise ..).now.trans (d.now_putSlot d.otherSlot img)

theorem Dev.fw_mgtRx (d : Dev) : d.mgtRx.fw = d.fw := (Dev.noted_tally ..).fw

/-! ### Sessions (R491 to R494, R498) -/

section
variable {raw : List Byte} {m : HgMsg} {h : Headgate} (hup : s.dev.flag uMGT MGT_STATUS.LINK_UP = true) (hd : s.dev.mgtRx = d)
  (hr : d.mgtRuns = true) (hp : d.hgPayload f = some raw)
include hup hd hr hp

theorem makes_hgp_bad (hm : hgParse raw = none) :
    ∀ i ∈ [Instr.hgpDiscover f, .hgpStart f, .hgpData f, .hgpEnd f, .hgpAbort f, .hgpBoot f], Makes i s d.hgBad := by
  subst hd
  have hbad (type : Nat) (act : Dev → HgMsg → Dev) : s.dev.hgTake f type act = s.dev.mgtRx.hgBad := Dev.hgTake_bad hup hr hp hm
  simp only [List.mem_cons, List.not_mem_nil, or_false]
  rintro i (rfl | rfl | rfl | rfl | rfl | rfl)
  · exact .intro rfl ((Dev.hgpDiscover.eq_def ..).trans (hbad ..))
  · exact .intro rfl ((Dev.hgpStart.eq_def ..).trans (hbad ..))
  · exact .intro rfl ((Dev.hgpData.eq_def ..).trans (hbad ..))
  · exact .intro rfl ((Dev.hgpEnd.eq_def ..).trans (hbad ..))
  · exact .intro rfl ((Dev.hgpAbort.eq_def ..).trans (hbad ..))
  · exact .intro rfl ((Dev.hgpBoot.eq_def ..).trans (hbad ..))

variable (hm : hgParse raw = some m)
include hm

theorem makes_hgpDiscover (ht : m.type = 1) (h0 : m.session = 0) : ∃ offer, offer.length = 64
    ∧ slice offer 0 12 = slice s.dev.fw.otp.serial 0 12 ∧ Makes (.hgpDiscover f) s (d.hgSend f 2 0 0 0 offer) := by
  subst hd
  refine ⟨_, slice_length .., ?_, .intro rfl ((Dev.hgpDiscover.eq_def ..).trans ((Dev.hgTake_message hup hr hp hm ht).trans
    (if_neg (not_not.2 h0))))⟩
  rw [Dev.fw_mgtRx]
  simp only [List.append_assoc]
  exact slice_slice_prefix (slice_length ..) (by decide)

section
variable (hh : d.fw.hgp = h)
include hh

theorem makes_hgpStart_refused (ht : m.type = 3) (h0 : m.session ≠ 0) (hl : m.payload.length = 8) (hi : h.state = hgIDLE) {st : Nat}
    (href : d.hgRefuse (leAt m.payload 4 1 % 4) = some st) : Makes (.hgpStart f) s (d.hgAbort f m.session st) := by
  subst hd hh
  refine .intro rfl ((Dev.hgpStart.eq_def ..).trans ((Dev.hgTake_message hup hr hp hm ht).trans ?_))
  rw [if_neg (by simp [h0, hl]), if_neg (by simp [hi, hgIDLE, hgRECEIVING]), if_neg (not_not.2 hi)]
  dsimp only
  rw [href]

theorem makes_hgpStart_busy (ht : m.type = 3) (h0 : m.session ≠ 0) (hl : m.payload.length = 8) (hb : h.state ≠ hgIDLE) (hs : m.session ≠ h.session) :
    Makes (.hgpStart f) s (d.hgAbort f m.session stRETRY_LATER) := by
  subst hd hh
  refine .intro rfl ((Dev.hgpStart.eq_def ..).trans ((Dev.hgTake_message hup hr hp hm ht).trans ?_))
  rw [if_neg (by simp [h0, hl]), if_neg (fun h => hs h.2), if_pos hb]

theorem makes_hgpStart_opens (ht : m.type = 3) (h0 : m.session ≠ 0) (hl : m.payload.length = 8) (hi : h.state = hgIDLE)
    (href : d.hgRefuse (leAt m.payload 4 1 % 4) = none) {x : Headgate}
    (hx : x = { state := hgRECEIVING, session := m.session, target := leAt m.payload 4 1 % 4, allow := bit (leAt m.payload 4 1) 2,
                length := leAt m.payload 0 4, lastMsg := d.now, peer := f }) :
    Makes (.hgpStart f) s (((((d.setHg x).set uMGT MGT_STATUS.SESSION 1).bump uMGT MGT_SESSIONS.COUNT).raise uMGT 0x11
      (leBytes 1 1 ++ leBytes 1 0 ++ leBytes 2 0 ++ leBytes 4 m.session)).hgAck f) := by
  subst hd hh hx
  refine .intro rfl ((Dev.hgpStart.eq_def ..).trans ((Dev.hgTake_message hup hr hp hm ht).trans ?_))
  rw [if_neg (by simp [h0, hl]), if_neg (by simp [hi, hgIDLE, hgRECEIVING]), if_neg (not_not.2 hi)]
  dsimp only
  rw [href]

/-! #### DATA (R492) -/

section
variable (ht : m.type = 5)
include ht

theorem makes_hgpData_foreign (hmine : d.hgMine m = false) :
    Makes (.hgpData f) s d.hgBad := by
  subst hd hh
  refine .intro rfl ((Dev.hgpData.eq_def ..).trans ((Dev.hgTake_message hup hr hp hm ht).trans ?_))
  exact if_pos (by simp [hmine])

section
variable (hmine : d.hgMine m = true)
include hmine

theorem makes_hgpData_late (hst : h.state ≠ hgRECEIVING) :
    Makes (.hgpData f) s (d.hgHeard f) := by
  subst hd hh
  refine .intro rfl ((Dev.hgpData.eq_def ..).trans ((Dev.hgTake_message hup hr hp hm ht).trans ?_))
  dsimp only
  rw [if_neg (by simp [hmine]), if_pos hst]

variable (hst : h.state = hgRECEIVING) (he : d.hgHeard f = e)
include hst he

theorem makes_hgpData_repeated (hold : m.seq < h.acked + 1 ∨ h.acked + 32 < m.seq ∨ (h.chunks.get? [m.seq]).isSome = true) :
    Makes (.hgpData f) s (e.hgAck f) := by
  subst hd hh
  refine .intro rfl ((Dev.hgpData.eq_def ..).trans ((Dev.hgTake_message hup hr hp hm ht).trans ?_))
  subst he
  dsimp only
  rw [if_neg (by simp [hmine]), if_neg (not_not.2 hst), if_pos hold]

variable (h1 : h.acked + 1 ≤ m.seq) (h2 : m.seq ≤ h.acked + 32) (hnew : h.chunks.get? [m.seq] = none)
include h1 h2 hnew

theorem makes_hgpData_bad (hbad : h.count < m.seq ∨ m.payload.length ≠ h.size m.seq) :
    Makes (.hgpData f) s e.hgBad := by
  subst hd hh
  refine .intro rfl ((Dev.hgpData.eq_def ..).trans ((Dev.hgTake_message hup hr hp hm ht).trans ?_))
  subst he
  dsimp only
  rw [if_neg (by simp [hmine]), if_neg (not_not.2 hst), if_neg (by rw [hnew]; simp; omega), if_pos hbad]

section
variable (h3 : m.seq ≤ h.count) (hl : m.payload.length = h.size m.seq) {g : Dev}
  (hg : g = e.setHg { e.fw.hgp with chunks := h.chunks.insert [m.seq] m.payload, since := h.since + 1, timer := true, lastData := d.now })
include h3 hl hg

/-- A chunk in the window is kept; the first one is refused where the header it brings is. -/
theorem makes_hgpData_kept {o : Option Nat} (ho : (if m.seq = 1 then g.hgHeaderBad else none) = o) : Makes (.hgpData f) s
    (o.elim (if 8 ≤ h.since + 1 then g.hgAck f else g) (fun st => (g.hgAbort f h.session st).hgEnd st)) := by
  subst hd hh he
  have hcount : g.fw.hgp.since = s.dev.mgtRx.fw.hgp.since + 1 := by rw [hg, Dev.hgp_setHg]
  refine .intro rfl ((Dev.hgpData.eq_def ..).trans ((Dev.hgTake_message hup hr hp hm ht).trans ?_))
  dsimp only
  rw [if_neg (by simp [hmine]), if_neg (not_not.2 hst), if_neg (by rw [hnew]; simp; omega), if_neg (by omega),
    Dev.now_hgHeard, Dev.hgp_hgHeard]
  rw [Dev.hgp_hgHeard] at hg
  dsimp only at hg ⊢
  rw [← hg, ho, hcount]
  cases o <;> rfl

end
end
end

/-! #### END (R493) -/

section
variable (ht : m.type = 6)
include ht

theorem makes_hgpEnd_foreign (hmine : d.hgMine m = false) (ho : h.state ≠ hgIDLE ∨ h.final.any (fun x => x.1 == m.session) = false) :
    Makes (.hgpEnd f) s d.hgBad := by
  subst hd hh
  refine .intro rfl ((Dev.hgpEnd.eq_def ..).trans ((Dev.hgTake_message hup hr hp hm ht).trans ?_))
  have hover : ¬ (s.dev.mgtRx.fw.hgp.state = hgIDLE ∧ s.dev.mgtRx.fw.hgp.final.any (fun x => x.1 == m.session) = true) := by
    rintro ⟨h1, h2⟩
    rcases ho with ho | ho
    · exact ho h1
    · rw [ho] at h2; cases h2
  dsimp only
  rw [if_neg hover, if_pos (by simp [hmine])]

theorem makes_hgpEnd_over {st : Nat} (hi : h.state = hgIDLE) (hf : h.final = some (m.session, st)) :
    Makes (.hgpEnd f) s (d.hgResult f m.session st 100) := by
  subst hd hh
  refine .intro rfl ((Dev.hgpEnd.eq_def ..).trans ((Dev.hgTake_message hup hr hp hm ht).trans ?_))
  dsimp only
  rw [if_pos ⟨hi, by simp [hf]⟩, hf]
  rfl

section
variable (hmine : d.hgMine m = true) (he : d.hgHeard f = e)
include hmine he

theorem makes_hgpEnd_mine : Makes (.hgpEnd f) s (if h.state = hgDONE then e.hgResult f h.session stOK 100
    else if h.state ≠ hgRECEIVING then e.hgBusy f h.session
    else if h.complete then (e.setHg { e.fw.hgp with state := hgVERIFYING }).hgBusy f h.session else e.hgAck f) := by
  subst hd hh he
  have hopen : s.dev.mgtRx.fw.hgp.state ≠ hgIDLE := by
    have h := hmine
    simp only [Dev.hgMine, Bool.and_eq_true, bne_iff_ne] at h
    exact h.1
  refine .intro rfl ((Dev.hgpEnd.eq_def ..).trans ((Dev.hgTake_message hup hr hp hm ht).trans ?_))
  dsimp only
  rw [if_neg (fun h => hopen h.1), if_neg (by simp [hmine])]

end
end

/-! #### ABORT and BOOT (R494, R498) -/

theorem makes_hgpAbort (ht : m.type = 8) :
    Makes (.hgpAbort f) s (if d.hgMine m then d.hgEnd m.status else d.hgBad) := by
  subst hd hh
  refine .intro rfl ((Dev.hgpAbort.eq_def ..).trans ((Dev.hgTake_message hup hr hp hm ht).trans ?_))
  rfl

theorem makes_hgpBoot (ht : m.type = 9) : Makes (.hgpBoot f) s
    (if ¬ d.flag 0 FW_STATUS.RECOVERY then d.hgResult f m.session stPERMISSION 0 else if ¬ d.hgMine m then d.hgBad
      else if h.state = hgDONE then (d.hgResult f m.session stOK 100).warm (2 ^ 6) else d.hgHeard f) := by
  subst hd hh
  exact .intro rfl ((Dev.hgpBoot.eq_def ..).trans (Dev.hgTake_message hup hr hp hm ht))

end
end

/-! ### What happens between messages (R492 to R494) -/

section
variable {h : Headgate} (hh : s.dev.fw.hgp = h)
include hh

theorem makes_hgpAckTimer (hst : h.state = hgRECEIVING) (ht : h.timer = true) (hl : h.lastData + 2000000 ≤ s.dev.now) :
    Makes .hgpAckTimer s ((s.dev.setHg { h with timer := false }).hgAck h.peer) := by
  subst hh
  exact .intro rfl (if_pos ⟨hst, ht, hl⟩)

section
variable (hst : h.state = hgVERIFYING)
include hst

theorem makes_hgpVerified_bad {r : Reply} (hp : s.dev.checkPayload h.image = some r) : Makes .hgpVerified s (s.dev.hgFail r.status) := by
  subst hh
  refine .intro rfl ?_
  unfold Dev.hgpVerified
  dsimp only
  rw [if_neg (not_not.2 hst), hp]
  rfl

variable (hp : s.dev.checkPayload h.image = none)
include hp

theorem makes_hgpVerified_barred {st : Nat} (hb : s.dev.hgBarred h.target = some st) : Makes .hgpVerified s (s.dev.hgFail st) := by
  subst hh
  refine .intro rfl ?_
  unfold Dev.hgpVerified
  dsimp only
  rw [if_neg (not_not.2 hst), hp, Option.map_none]
  dsimp only
  rw [hb]

variable (hb : s.dev.hgBarred h.target = none)
include hb

theorem makes_hgpVerified_memory (ht : h.target = 2) : Makes .hgpVerified s ((s.dev.hgFail stOK).runFromMemory h.image) := by
  subst hh
  refine .intro rfl ?_
  unfold Dev.hgpVerified
  dsimp only
  rw [if_neg (not_not.2 hst), hp, Option.map_none]
  dsimp only
  rw [hb]
  exact if_pos ht

theorem makes_hgpVerified_writes (ht : h.target ≠ 2) (hf : s.dev.flashHeld = false)
    (hd : d = if s.dev.flag 0 FW_STATUS.RECOVERY then s.dev.putSlot h.target [] else s.dev.eraseOther) :
    Makes .hgpVerified s (d.setHg { h with state := hgWRITING }) := by
  have hkept : d.fw.hgp = h := by
    rw [hd]
    split
    · rw [Dev.hgp_putSlot, hh]
    · exact (s.dev.hgp_putSlot s.dev.otherSlot []).trans hh
  refine .intro rfl ?_
  unfold Dev.hgpVerified
  dsimp only
  rw [hh, if_neg (not_not.2 hst), hp, Option.map_none]
  dsimp only
  rw [hb]
  dsimp only
  rw [if_neg ht, if_neg (by simp [hf]), ← hd, hkept]

end

section
variable (hst : h.state = hgWRITING) (hf : s.dev.flashHeld = false)
include hst hf

theorem makes_hgpWritten_failed : Makes (.hgpWritten false) s (s.dev.hgFail stDATA_ERROR) := by
  subst hh
  refine .intro rfl ?_
  unfold Dev.hgpWritten
  rw [if_neg (by simp [hst, hf])]
  rfl

theorem makes_hgpWritten (hd : d = if s.dev.flag 0 FW_STATUS.RECOVERY then (s.dev.putSlot h.target h.image).nameSlot h.target
      else s.dev.stagedNow h.image h.allow) :
    Makes (.hgpWritten true) s ((d.setHg { h with state := hgDONE, lastMsg := s.dev.now }).hgResult h.peer h.session stOK 100) := by
  have hkept : d.fw.hgp = h ∧ d.now = s.dev.now := by
    rw [hd]
    split
    · exact ⟨(Dev.hgp_nameSlot ..).trans ((Dev.hgp_putSlot ..).trans hh), (Dev.now_nameSlot ..).trans (Dev.now_putSlot ..)⟩
    · exact ⟨(Dev.hgp_stagedNow ..).trans hh, Dev.now_stagedNow ..⟩
  refine .intro rfl ?_
  unfold Dev.hgpWritten
  dsimp only
  rw [hh, if_neg (by simp [hst, hf]), if_neg (by simp), ← hd, hkept.1, hkept.2]

end

theorem makes_hgpSessionTimeout (hst : h.state ≠ hgIDLE) (ht : h.lastMsg + 10000000000 ≤ s.dev.now) : Makes .hgpSessionTimeout s
    (if h.state = hgDONE then s.dev.hgEnd stOK else (s.dev.hgAbort h.peer h.session stTIMEOUT).hgEnd stTIMEOUT) := by
  subst hh
  exact .intro rfl (if_neg (by simp only [hst, false_or]; omega))

end
end

/-- Settles O60: a message comes out of its frame by `Dev.hgTake`, and what it does follows from the state of the session. -/
theorem headgateSessions : Obligations.HeadgateSessions := by
  unfold Obligations.HeadgateSessions
  refine ⟨fun type session seq status payload ht hs hq hst hp => hgParse_sent ht hs hq hst hp rfl,
    fun s up => ⟨fun h => .intro rfl (if_pos (by simpa using h)), fun h ha => makes_mgtLinkChange h ha rfl⟩,
    fun s f hup hr => ⟨(makes_mgtFrameReceived hup rfl hr).1, (makes_mgtFrameReceived hup rfl hr).2,
      fun raw hp => ⟨makes_hgp_bad hup rfl hr hp, fun m hm => ⟨makes_hgpDiscover hup rfl hr hp hm,
        fun ht h0 hl => ⟨fun hi st => makes_hgpStart_refused hup rfl hr hp hm rfl ht h0 hl hi,
          makes_hgpStart_busy hup rfl hr hp hm rfl ht h0 hl, fun hi href => makes_hgpStart_opens hup rfl hr hp hm rfl ht h0 hl hi href rfl⟩,
        fun ht hmine hst => ⟨makes_hgpData_repeated hup rfl hr hp hm rfl ht hmine hst rfl,
          fun h1 h2 hnew hne h3 hl => makes_hgpData_kept hup rfl hr hp hm rfl ht hmine hst rfl h1 h2 hnew h3 hl rfl (if_neg hne),
          fun h0 hone hnew h3 hl => ?_, makes_hgpData_bad hup rfl hr hp hm rfl ht hmine hst rfl⟩,
        makes_hgpData_late hup rfl hr hp hm rfl, makes_hgpData_foreign hup rfl hr hp hm rfl,
        makes_hgpEnd_foreign hup rfl hr hp hm rfl, fun ht st => makes_hgpEnd_over hup rfl hr hp hm rfl ht,
        fun ht hmine => ?_, fun ht => ?_, fun ht => ?_⟩⟩⟩,
    fun s => ⟨makes_hgpAckTimer rfl, fun hst => ⟨fun r => makes_hgpVerified_bad rfl hst, fun st hp hb => makes_hgpVerified_barred rfl hst hp hb,
        makes_hgpVerified_memory rfl hst, fun hp hb ht hf => makes_hgpVerified_writes rfl hst hp hb ht hf rfl⟩,
      fun hst hf => ⟨makes_hgpWritten_failed rfl hst hf, makes_hgpWritten rfl hst hf rfl⟩, fun hst ht => ?_⟩⟩
  · have hkept {o : Option Nat} (ho : _ = o) := makes_hgpData_kept hup rfl hr hp hm rfl ht hmine hst rfl (by omega) (by omega)
      (by rw [hone]; exact hnew) (by omega) (by rw [hone]; exact hl) rfl ((if_pos hone).trans ho)
    rw [hone] at hkept
    exact ⟨fun st h => hkept h, fun h => hkept h⟩
  · have hend := makes_hgpEnd_mine hup rfl hr hp hm rfl ht hmine rfl
    refine ⟨fun hst => ?_, fun hst => ?_, fun hst hc => ?_, fun hst hc => ?_⟩
    · rwa [if_pos hst] at hend
    · have hother : s.dev.mgtRx.fw.hgp.state ≠ hgDONE ∧ s.dev.mgtRx.fw.hgp.state ≠ hgRECEIVING := by
        rcases hst with h | h <;> rw [h] <;> decide
      rwa [if_neg hother.1, if_pos hother.2] at hend
    · rwa [if_neg (by rw [hst]; decide), if_neg (not_not.2 hst), if_pos hc] at hend
    · rwa [if_neg (by rw [hst]; decide), if_neg (not_not.2 hst), if_neg (by simp [hc])] at hend
  · have habort := makes_hgpAbort hup rfl hr hp hm rfl ht
    exact ⟨fun h => by rwa [if_pos h] at habort, fun h => by rwa [if_neg (by simp [h])] at habort⟩
  · have hboot := makes_hgpBoot hup rfl hr hp hm rfl ht
    refine ⟨fun h => ?_, fun h hmine hst => ?_, fun h hmine hst => ?_, fun h hmine => ?_⟩
    · rwa [if_pos (by simp [h])] at hboot
    · rwa [if_neg (not_not.2 h), if_neg (not_not.2 hmine), if_pos hst] at hboot
    · rwa [if_neg (not_not.2 h), if_neg (not_not.2 hmine), if_neg hst] at hboot
    · rwa [if_neg (not_not.2 h), if_pos (by simp [hmine])] at hboot
  · have hquiet := makes_hgpSessionTimeout rfl hst ht
    exact ⟨fun h => by rwa [if_pos h] at hquiet, fun h => by rwa [if_neg h] at hquiet⟩

end Sys2Proof.Machine
end
